-- ==== Sys2Proof/Word.lean ====
section
/-! DEFINITION. The words of the part: bytes, 32-bit register words, and the plainest arithmetic on them
(spec 00_scope R3: bit 0 is the least significant bit, multi-byte fields are little-endian). -/

namespace Sys2Proof

/-- One byte. -/
abbrev Byte := BitVec 8

/-- One 32-bit register or queue word. -/
abbrev Word := BitVec 32

/-- A channel, quad, link or other resource that comes in fours (R2). -/
abbrev Ch := Fin 4

/-- A pair slot, P0 or P1. -/
abbrev Pr := Fin 2

/-- The resource of a number, taken modulo four; callers check the range first. -/
def ch4 (n : Nat) : Ch := Fin.ofNat 4 n

/-- The pair slot of a number, taken modulo two; callers check the range first. -/
def pr2 (n : Nat) : Pr := Fin.ofNat 2 n

/-- Four like things, one for each channel, quad or link (R2). -/
structure Four (α : Type) where
  c0 : α
  c1 : α
  c2 : α
  c3 : α
  deriving DecidableEq, Repr

/-- The thing that belongs to resource n. -/
def Four.get {α : Type} (v : Four α) : Ch → α
  | 0 => v.c0
  | 1 => v.c1
  | 2 => v.c2
  | 3 => v.c3

/-- All four with the one of resource n replaced. -/
def Four.set {α : Type} (v : Four α) (n : Ch) (x : α) : Four α :=
  match n with
  | 0 => { v with c0 := x }
  | 1 => { v with c1 := x }
  | 2 => { v with c2 := x }
  | 3 => { v with c3 := x }

/-- All four changed alike. -/
def Four.map {α : Type} (f : α → α) (v : Four α) : Four α := ⟨f v.c0, f v.c1, f v.c2, f v.c3⟩

/-- Four copies of one thing. -/
def Four.all {α : Type} (x : α) : Four α := ⟨x, x, x, x⟩

/-- Two like things, one for each pair slot. -/
structure Two (α : Type) where
  p0 : α
  p1 : α
  deriving DecidableEq, Repr

/-- The thing that belongs to pair slot p. -/
def Two.get {α : Type} (v : Two α) : Pr → α
  | 0 => v.p0
  | 1 => v.p1

/-- Both with the one of pair slot p replaced. -/
def Two.set {α : Type} (v : Two α) (p : Pr) (x : α) : Two α :=
  match p with
  | 0 => { v with p0 := x }
  | 1 => { v with p1 := x }

/-- Two copies of one thing. -/
def Two.all {α : Type} (x : α) : Two α := ⟨x, x⟩

/-- Bit b of a number. -/
def bit (v b : Nat) : Bool := v / 2 ^ b % 2 == 1

/-- A flag as 0 or 1. -/
def b2n (b : Bool) : Nat := if b then 1 else 0

/-- Bits hi down to lo of a number. -/
def bits (v hi lo : Nat) : Nat := v / 2 ^ lo % 2 ^ (hi + 1 - lo)

/-- The k low bytes of a number, least significant first (R3). -/
def le : Nat → Nat → List Byte
  | 0, _ => []
  | k + 1, v => BitVec.ofNat 8 v :: le k (v / 256)

/-- The number whose little-endian bytes these are (R3). -/
def unle : List Byte → Nat
  | [] => 0
  | b :: bs => b.toNat + 256 * unle bs

/-- n bytes of a parameter block from an offset; missing bytes read as 0. -/
def slice (bs : List Byte) (off n : Nat) : List Byte :=
  let d := (bs.drop off).take n
  d ++ List.replicate (n - d.length) 0

/-- The little-endian number of n bytes from an offset of a parameter block. -/
def fld (bs : List Byte) (off n : Nat) : Nat := unle (slice bs off n)

/-- A signed number of w bits, read from its two's complement. -/
def signed (w v : Nat) : Int :=
  let x := v % 2 ^ w
  if x < 2 ^ (w - 1) then Int.ofNat x else Int.ofNat x - Int.ofNat (2 ^ w)

/-- The two's complement of a signed number in w bits. -/
def unsigned (w : Nat) (v : Int) : Nat := (v % (2 ^ w : Int)).toNat

/-- A number held at most at a limit: a saturating count. -/
def sat (limit v : Nat) : Nat := if v ≤ limit then v else limit

/-- A list cut into 32-bit words of four bytes, low byte first, the last padded with 0 (R102). -/
def toWords : List Byte → List Word
  | [] => []
  | [a] => [BitVec.ofNat 32 (unle [a])]
  | [a, b] => [BitVec.ofNat 32 (unle [a, b])]
  | [a, b, c] => [BitVec.ofNat 32 (unle [a, b, c])]
  | a :: b :: c :: d :: r => BitVec.ofNat 32 (unle [a, b, c, d]) :: toWords r

/-- The bytes of a list of words, low byte first. -/
def ofWords : List Word → List Byte
  | [] => []
  | w :: ws => le 4 w.toNat ++ ofWords ws

/-- One step of the reflected CRC-32C over one bit. -/
def crcBit (c : BitVec 32) : BitVec 32 :=
  if c.getLsbD 0 then (c >>> 1) ^^^ 0x82F63B78#32 else c >>> 1

/-- One byte through the reflected CRC-32C. -/
def crcByte (c : BitVec 32) (b : Byte) : BitVec 32 :=
  crcBit (crcBit (crcBit (crcBit (crcBit (crcBit (crcBit (crcBit (c ^^^ b.setWidth 32))))))))

/-- CRC-32C of R82: initial value and final XOR of all ones. -/
def crc32c (bs : List Byte) : BitVec 32 := (bs.foldl crcByte 0xFFFFFFFF#32) ^^^ 0xFFFFFFFF#32

/-- n consecutive numbers from a start. -/
def span : Nat → Nat → List Nat
  | _, 0 => []
  | a, n + 1 => a :: span (a + 1) n

/-- Apply a change for each number of a list, in order. -/
def each {α β : Type} (xs : List β) (f : β → α → α) (a : α) : α := xs.foldl (fun acc x => f x acc) a

/-- Replace the first entry that matches, if any. -/
def replaceFirst {α : Type} (p : α → Bool) (f : α → α) : List α → List α
  | [] => []
  | x :: xs => if p x then f x :: xs else x :: replaceFirst p f xs

end Sys2Proof
end

