-- ==== Sys2Proof/Syntax.lean ====
section
/-! DEFINITION. The commands of the block: one constructor of `Instr` for each row of spec/opcode_table.json.
A request row carries the request as the prompter takes it up (R86); an event row carries what comes from outside
the digital part (a pin, a measured value, a received unit, the outcome of a check that an external party decides). -/

namespace Sys2Proof

/-- Who sends a request (R84, R86): the master ID; for the fabric the source node, and for a neighbour that sends
SRC 0 the link on which its request arrived. -/
structure Who where
  master : Nat
  src : Nat := 0
  link : Nat := 0
  deriving DecidableEq, Repr

/-- Where the answer of a request goes: its requester, the link it came by, whether it came with DEST 0xFFFF
(R391), and its transaction tag. -/
structure Origin where
  who : Who
  via : Nat := 0
  bcast : Bool := false
  tag : Nat := 0
  deriving DecidableEq, Repr

/-- A request that the prompter takes up: its origin, header bytes 14 and 15 as one number, and its parameters. -/
structure Request where
  org : Origin
  rsvd : Nat := 0
  params : List Byte := []
  deriving DecidableEq, Repr

/-- Strap pins (R28): `OSC_SEL`, `BOOT_SEL`, `I2C_ASEL`, `TESTEN`. -/
structure Straps where
  osc : Fin 4
  bootSel : Bool
  asel : Fin 4
  testEn : Bool
  deriving DecidableEq, Repr

/-- Sensor readings (R60), in units of 0.125 degrees C: the hottest main-die sensor and the two HBM stack bases. -/
structure Temps where
  die : Int
  hbmA : Int
  hbmB : Int
  deriving DecidableEq, Repr

/-- What the boot ROM reads of an image (R71): whether the flash responds, the 512 header bytes, and the body. -/
structure Image where
  responds : Bool
  header : List Byte
  body : List Byte
  deriving DecidableEq, Repr

/-- What the host does to a function's MSI-X capability or table (R470): mask or unmask a vector, the whole function,
or enable MSI-X in configuration space. -/
inductive MsixEvent where
  | vector (v : Fin 32) (masked : Bool)
  | function (masked : Bool)
  | enable (on : Bool)
  deriving DecidableEq, Repr

/-- A codeword as it enters a decoder (R205, R209): the hard decisions of its bits, and the estimate that each iteration of the soft
decoder leaves. -/
structure Codeword where
  hard : List Byte
  est : List (List Byte)
  deriving DecidableEq, Repr

/-- A 66-bit block of a client (R234): whether it is a control block, and its 64 bits, the first sent least significant. -/
structure Blk where
  ctl : Bool
  data : BitVec 64
  deriving DecidableEq, Repr

/-- An RS(544,514) codeword that a host port has received (R333): symbols corrected, or none where it is uncorrectable, and its 5,140 bits of
data, first bit most significant, the last byte padded. -/
structure HostCw where
  fixed : Option Nat
  data : List Byte
  deriving DecidableEq, Repr

/-- What a decoder has made of one codeword, or of one FEC block of a specification (R205, R209, R216): whether it decoded, iterations
used, and the bits corrected or estimated in error. -/
structure CwResult where
  ok : Bool
  iter : Nat
  errs : Nat
  deriving DecidableEq, Repr

/-- What a receiver has found (R152, R163): the stage its acquisition has reached, dispersion 10 ps/nm, differential group delay 0.5 ps,
frequency MHz, SNR 0.01 dB, SNR of each subcarrier. -/
structure LineEst where
  stage : Nat
  cd : Int
  dgd : Nat
  freq : Int
  snr : Nat
  sc : List Nat
  deriving DecidableEq, Repr

/-- The commands of the block, in the order of spec/opcode_table.json. -/
inductive Instr where
  /-- `POWER_ON_RESET` (R63). VDD_AON rises, starting a power-on reset that clears PD00 records, samples the I2C address straps and starts the life timestamp at 0. -/
  | powerOnReset (asel : Fin 4)
  /-- `RESET_N_LOW` (R64). RESET_N held low for at least 10 us causes a pin reset, a cold start that stops every channel, quad, pair and session. -/
  | resetNLow
  /-- `RESET_N_RELEASE` (R68). The rising edge of RESET_N samples the straps, powers PD01 and PD02 and begins the boot stages. -/
  | resetNRelease (straps : Straps)
  /-- `PERST_N_LOW` (R65). An endpoint reset empties both functions' mailbox queues and resets their interrupt registers and MSI-X tables while claims and configuration are kept. -/
  | perstNLow
  /-- `LINK_UP_AFTER_ENDPOINT_RESET` (R65). When the PCIe link is up again after PERST_N release, both mailboxes reopen with full credit, NOTICE_LOST reads 1, every MSI-X vector is armed and record 0x0106 is made. -/
  | linkUpAfterEndpointReset
  /-- `WATCHDOG_EXPIRY` (R66). The prompter watchdog expires after 1 s without service, causing a watchdog reset and, before READY, a failed attempt of the image slot. -/
  | watchdogExpiry
  /-- `BROWN_OUT_HOLD_END` (R68). After the rail has been back in range for 10 ms the brown-out hold ends and boot resumes at the clock stage. -/
  | brownOutHoldEnd
  /-- `RAIL_BELOW_THRESHOLD` (R47). A rail that stays below its monitor threshold longer than 1 us causes the fixed response for that rail: reset, channels dark, lanes stopped or HBM darkened. -/
  | railBelowThreshold (r : Fin 12)
  /-- `RAIL_REMOVED_IN_DARK_HOUSE` (R46). A rail removed while the part is in the dark house causes a power-down, loss of pad states or a whole-part power-down according to the rail. -/
  | railRemovedInDarkHouse (r : Fin 12)
  /-- `RECEPTACLE_REMOVED` (R36). Sensed removal of the receptacle turns every optical engine dark within 1 ms, takes every channel DARK and makes record 0x0105. -/
  | receptacleRemoved
  /-- `RECEPTACLE_FITTED` (R36). Sensed fitting of the receptacle sets PWR_CH_STATE.RECEPTACLE without restarting any channel. -/
  | receptacleFitted
  /-- `TEMPERATURE_COMPARE` (R60). Every 100 us the main-die and HBM sensors are compared in hardware against the warning, critical and shutdown thresholds. -/
  | temperatureCompare (t : Temps)
  /-- `THERMTRIP_RECHECK` (R26). 10 us after RESET_N is released, a die still above the shutdown temperature asserts THERMTRIP_N again and the part stays in reset. -/
  | thermtripRecheck (t : Temps)
  /-- `AVS_EVALUATION` (R48). Every 1 ms with AVS_EN set the adaptive loop evaluates the ring-oscillator monitors and may write a new 5 mV setpoint step to the regulator. -/
  | avsEvaluation (move : Int) (sense readback : Nat)
  /-- `HEATER_UNREGULATED` (R59). A heater at full current or at zero for 10 s sets the engine's unregulated flag and makes record 0x0223. -/
  | heaterUnregulated (n : Ch) (temp : Nat)
  /-- `ENGINE_OVERTEMPERATURE` (R59). An engine reaching 82 C is turned dark within 1 ms, its channel goes DARK and record 0x0224 is made. -/
  | engineOvertemperature (n : Ch) (temp : Nat)
  /-- `HOUSE_CLOCK_LOCKED` (R68). The house clock locks to OSCIN at the strapped frequency within 2 ms of the boot or wake, or the boot halts with error 0x01. -/
  | houseClockLocked (locked : Bool)
  /-- `FUSES_LOADED` (R68). The fuse array is loaded and checked and trims and fuse repairs are applied, or the boot halts with error 0x02. -/
  | fusesLoaded (good : Bool)
  /-- `PCIE_LINK_UP` (R68). The PCIe link comes up and identity and boot registers become readable over BAR0. -/
  | pcieLinkUp
  /-- `IMAGE_VERIFIED` (R72). The boot ROM completes reading and verifying an image slot under the six checks and starts it or records a failed attempt and tries the other slot. -/
  | imageVerified (img : Image)
  /-- `DOWNLOAD_GO` (R74). A write of 1 to SYS_BOOT_CTRL.GO in download wait verifies and starts the downloaded image, or returns to download wait with the error set. -/
  | downloadGo
  /-- `HBM_START_COMPLETE` (R377). HBM interface training, retirement table application and zero initialisation complete, setting HBM_READY and making record 0x0A20, or failing with record 0x0A21. -/
  | hbmStartComplete (good : Bool)
  /-- `READY` (R78). Firmware reports READY, grants the first mailbox credits, makes a system record and raises the life boot count. -/
  | ready
  /-- `START_QUEUE_DISPATCH` (R79). The prompter starts the next queued channel, quad or domain once its spacing from earlier starts is met. -/
  | startQueueDispatch
  /-- `QUAD_REACHES_L0` (R80). A quad started from dark has every lane in L0 and the start ends with a completion notice. -/
  | quadReachesL0 (c : Ch)
  /-- `CHANNEL_ACTIVE` (R121). A channel started from DARK completes heater ramp, calibration, bias search and transmit ramp and becomes ACTIVE with rotation begun. -/
  | channelActive (n : Ch)
  /-- `MALFORMED_PACKET` (R82). A packet with a bad trailer, PLEN mismatch, wrong version, illegal kind bits or a non-request in a request queue is discarded without reply and counted. -/
  | malformedPacket (w : Who) (bytes : List Byte)
  /-- `UNASSIGNED_DEST_PACKET` (R389). A packet whose DEST lies in 0x1001 to 0xFFFE is refused with BAD_PARAM if a request or discarded and counted otherwise. -/
  | unassignedDestPacket (w : Who) (via : Nat) (bytes : List Byte)
  /-- `PRE_READY_REQUEST` (R78). A request that reaches the prompter before READY is discarded without answer and counted in SYS_PKT_BAD. -/
  | preReadyRequest (w : Who) (bytes : List Byte)
  /-- `MBX_REQ_DATA_WRITE` (R103). A write to MBX_REQ_DATA or an HGC transmit queue data word uses one credit, or without credit is discarded with the rest of its packet and sets OVERRUN. -/
  | mbxReqDataWrite (f : Pr) (hgc : Option Ch) (w : Word)
  /-- `MBX_REQ_END_WRITE` (R95). A write to MBX_REQ_END completes a packet, which is stamped with its arrival time on the control clock for the serial order. -/
  | mbxReqEndWrite (f : Pr) (hgc : Option Ch) (w : Word)
  /-- `MBX_REQ_CANCEL` (R103). Writing CANCEL discards the words since the last end mark and returns their credit. -/
  | mbxReqCancel (f : Pr) (hgc : Option Ch)
  /-- `MBX_RSP_DATA_READ` (R106). A read of MBX_RSP_DATA returns the next reply word, advances the read position and latches END. -/
  | mbxRspDataRead (f : Pr) (hgc : Option Ch)
  /-- `MBX_RSP_MARK` (R104). Writing MARK records the read position. -/
  | mbxRspMark (f : Pr) (hgc : Option Ch)
  /-- `MBX_RSP_REWIND` (R104). Writing REWIND returns the read position to the mark. -/
  | mbxRspRewind (f : Pr) (hgc : Option Ch)
  /-- `MBX_RSP_RELEASE` (R104). Writing RELEASE frees every word before the read position and returns their credits to the producer. -/
  | mbxRspRelease (f : Pr) (hgc : Option Ch)
  /-- `REPLY_PACKET_QUEUED` (R105). A later packet of a multi-packet reply, or an unsolicited notice, is placed once unreserved space is free, or the notice is discarded with NOTICE_LOST. -/
  | replyPacketQueued (o : Origin) (notice : Option (Nat × Nat × List Byte))
  /-- `I2C_REGISTER_READ` (R107). I2C command 0x01 reads the permitted register at a 4-byte offset, returning 0 for forbidden or undefined offsets. -/
  | i2cRegisterRead (addr : Fin 128) (off : Nat)
  /-- `I2C_REQUEST_WRITE` (R107). I2C command 0x10 appends request bytes to the I2C request queue, ending a packet with a STOP. -/
  | i2cRequestWrite (addr : Fin 128) (bytes : List Byte) (stop : Bool)
  /-- `I2C_REPLY_READ` (R107). I2C command 0x11 returns reply bytes from the read position and its STOP releases the bytes read. -/
  | i2cReplyRead (addr : Fin 128) (n : Nat)
  /-- `I2C_CREDIT_READ` (R107). I2C command 0x12 returns the byte credit and the count of whole reply packets. -/
  | i2cCreditRead (addr : Fin 128)
  /-- `REGISTER_WRITE` (R101). A BAR0 write to a register without its own row is handled per field by its Take class, claims and session ownership, setting SYS_CFG_ERR bits when ignored. -/
  | registerWrite (f : Pr) (off : Nat) (v : Word)
  /-- `COMMAND_TIMEOUT` (R89). An ACCEPTED operation whose completion limit passes is answered with a completion notice carrying TIMEOUT. -/
  | commandTimeout (w : Who) (tag : Nat)
  /-- `NOP` (R91). NOP echoes its parameters. -/
  | nop (q : Request)
  /-- `IDENTIFY` (R91). IDENTIFY returns the part code, stepping, node address and firmware version. -/
  | identify (q : Request)
  /-- `CLAIM` (R93). CLAIM takes a resource for the requester, or with FORCE from master 0x01 takes it from its holder, abandoning the holder's sessions and notifying it. -/
  | claim (q : Request)
  /-- `RELEASE` (R93). RELEASE frees a resource held by the requester. -/
  | release (q : Request)
  /-- `CLAIM_QUERY` (R91). CLAIM_QUERY returns the holder of a resource. -/
  | claimQuery (q : Request)
  /-- `STAGE_OPEN` (R97). STAGE_OPEN opens a rehearsal session on a staging block with the bank copied from the running set. -/
  | stageOpen (q : Request)
  /-- `STAGE_SET` (R98). STAGE_SET writes masked values into Cue fields of the rehearsal bank, whole or not at all. -/
  | stageSet (q : Request)
  /-- `CUE` (R99). CUE requests that the rehearsal bank come into force at the next natural boundary or, in mode 1, at a given multiframe. -/
  | cue (q : Request)
  /-- `CUE_CARRIED_OUT` (R99). At the block's boundary the rehearsal bank is checked and either comes into force whole, ending the session, or is refused leaving the running set. -/
  | cueCarriedOut (block : Nat) (frame : Nat)
  /-- `LINE_CUE_RX_HALF` (R160). The receive half of a line or slots cue takes effect at the next or numbered received frame or multiframe boundary, after which the completion notice is sent. -/
  | lineCueRxHalf (n : Ch) (slots : Bool) (frame : Nat)
  /-- `STAGE_ABANDON` (R97). STAGE_ABANDON ends a rehearsal session, with FORCE from master 0x01 whoever owns it, cancelling any pending cue. -/
  | stageAbandon (q : Request)
  /-- `STAGE_GET` (R91). STAGE_GET reads whole register words from the rehearsal or running set without read side effects. -/
  | stageGet (q : Request)
  /-- `ACCESS_SET` (R91). ACCESS_SET sets whether the observer may read counters. -/
  | accessSet (q : Request)
  /-- `SYS_RESET` (R76). SYS_RESET replies OK and 1 ms later begins a warm reset, trying the named image slot first. -/
  | sysReset (q : Request)
  /-- `FW_SVN_COMMIT` (R75). FW_SVN_COMMIT blows anti-rollback fuses to raise the fused SVN to that of the running image. -/
  | fwSvnCommit (q : Request) (blown : Nat)
  /-- `DV_IDENT` (R108). DV_IDENT returns the part code, stepping and compatibility channel. -/
  | dvIdent (q : Request)
  /-- `DV_CHAN_SET` (R108). DV_CHAN_SET selects the compatibility channel. -/
  | dvChanSet (q : Request)
  /-- `DV_PM_READ` (R108). DV_PM_READ returns errored, severely errored and unavailable seconds for a 15-minute or 24-hour bin. -/
  | dvPmRead (q : Request)
  /-- `DV_PM_CLEAR` (R108). DV_PM_CLEAR clears the compatibility performance bins, marking the current bins incomplete. -/
  | dvPmClear (q : Request)
  /-- `DV_ALARMS` (R108). DV_ALARMS returns the compatibility channel's alarm bits. -/
  | dvAlarms (q : Request)
  /-- `DV_TX_ENABLE` (R108). DV_TX_ENABLE sets the compatibility channel's transmit output dark or on. -/
  | dvTxEnable (q : Request)
  /-- `DV_RATE_SET` (R108). DV_RATE_SET sets the compatibility channel line block to W04, W08 or W16 through an implicit rehearsal session. -/
  | dvRateSet (q : Request)
  /-- `FEED_MEASUREMENT` (R111). Every 10 us the engine measures feed power and classifies it as high, good, low or lost. -/
  | feedMeasurement (n : Ch) (feed tx rx : Int) (temp : Nat) (bias err : List Int)
  /-- `FEED_GOOD_AGAIN` (R111). After the feed has been good for 1 ms the bias loops resume, the output ramps back and record 0x0211 is made. -/
  | feedGoodAgain (n : Ch)
  /-- `BIAS_SEARCH_LOCKED` (R113). Bias search of all six loops locks and BIAS_LOCK is set, allowing the transmit ramp and acquisition. -/
  | biasSearchLocked (n : Ch)
  /-- `BIAS_SAMPLE_HOURLY` (R115). Every hour the bias of every loop is sampled into the life records. -/
  | biasSampleHourly
  /-- `TX_RAMP_COMPLETE` (R117). The transmit power loop, slewing at 1 dB per ms, brings the output to TX_TARGET. -/
  | txRampComplete (n : Ch)
  /-- `RX_LOS_SET` (R120). A receive power reading below -30 dBm for 10 us sets RX_LOS on a point-to-point channel. -/
  | rxLosSet (n : Ch)
  /-- `RX_LOS_CLEARED` (R120). A receive power reading above -28 dBm for 100 us clears RX_LOS. -/
  | rxLosCleared (n : Ch)
  /-- `ROTATION_BOUNDARY` (R128). Every 250 ms a converter rotation boundary begins a dwell and brings pending converter corrections, placements and cues into force. -/
  | rotationBoundary (n : Ch) (corr : List (Nat × Int × Int × Int))
  /-- `UNDERSTUDY_HANDOVER` (R127). One millisecond into dwell k the understudy takes position k after alignment sampling. -/
  | understudyHandover (n c : Ch)
  /-- `SLICE_COMPARE` (R129). Every 100 us each slice's output is compared with its neighbours' mean, power and histogram to detect faults. -/
  | sliceCompare (n c : Ch) (found : Option (Fin 65))
  /-- `SLICE_TEST_COMPLETE` (R129). The targeted slice test ends, returning a transient slice at the next boundary or handling a lasting fault under R130. -/
  | sliceTestComplete (n c : Ch) (pass : Bool)
  /-- `DAC_FAULT` (R132). A DAC fault found through its observation slice starts a 20 ms test while the DAC keeps transmitting. -/
  | dacFault (n c : Ch)
  /-- `DAC_TEST_COMPLETE` (R132). The DAC test ends, raising TRANSIENTS or muting transmit, setting FAILED and reporting TX_CONVERTER_FAILED. -/
  | dacTestComplete (n c : Ch) (pass : Bool)
  /-- `BIAS_RECENTRE` (R115). BIAS_RECENTRE moves the named loops by 2 Vpi toward the centre of their range, interrupting transmit for up to 20 ms. -/
  | biasRecentre (q : Request)
  /-- `SLICE_TEST` (R136). SLICE_TEST runs a targeted test of a named ADC slice or DAC and reports the outcome and action. -/
  | sliceTest (q : Request)
  /-- `ENG_REPORT` (R136). ENG_REPORT returns the six loops' biases and errors, ENG_STATUS and the converter statuses. -/
  | engReport (q : Request)
  /-- `ACQUISITION_START` (R152). A native receiver begins acquisition once the channel is ACTIVE with BIAS_LOCK and no RX_LOS. -/
  | acquisitionStart (n : Ch)
  /-- `ACQUIRED` (R152). Frame and multiframe alignment complete acquisition, setting ACQUIRED and making record 0x0250. -/
  | acquired (n : Ch)
  /-- `ACQ_FAIL` (R154). Acquisition not complete within 2000 ms sets ACQ_FAIL, makes record 0x0251 and restarts with a full scan. -/
  | acqFail (n : Ch) (far : Nat)
  /-- `HOLDING_EXPIRY` (R155). RX_LOS still set 100 ms after holding began discards the held values except the dispersion estimate and returns the receiver to waiting. -/
  | holdingExpiry (n : Ch)
  /-- `REACQUIRED_FROM_HOLDING` (R155). RX_LOS clearing within 100 ms re-acquires from the held values within 20 ms and makes record 0x0253. -/
  | reacquiredFromHolding (n : Ch)
  /-- `MODE_SUSPECT` (R162). Carrier lock with every codeword failing for 10 ms sets MODE_SUSPECT and makes record 0x0254. -/
  | modeSuspect (n : Ch)
  /-- `FREQUENCY_TRACKING_LOST` (R150). A frequency offset leaving +-3.6 GHz while tracking loses lock, makes record 0x0256 and re-acquires. -/
  | frequencyTrackingLost (n : Ch) (freq : Int)
  /-- `ACQ_RESTART` (R152). Writing 1 to LINE_RX_CTRL.ACQ_RESTART restarts acquisition. -/
  | acqRestart (n : Ch)
  /-- `LINE_ACQUIRE` (R164). LINE_ACQUIRE restarts acquisition and notifies the furthest state reached and elapsed time. -/
  | lineAcquire (q : Request)
  /-- `LINE_REPORT` (R164). LINE_REPORT returns receiver status, estimates and per-subcarrier SNR. -/
  | lineReport (q : Request)
  /-- `LINE_PLAN` (R164). LINE_PLAN computes the entropy, required OSNR and slot width of a native setting without changing anything. -/
  | linePlan (q : Request)
  /-- `GRANT_START` (R178). Before a grant's start the hub burst receiver loads the owning leaf's presets and arms its correlator. -/
  | grantStart (n : Ch) (g : Fin 4096)
  /-- `BURST_DETECTED` (R178). The correlator detects a sync sequence, freezing the AGC and starting the AFC estimate. -/
  | burstDetected (n : Ch) (sc : Fin 16) (t : Nat) (level : Int)
  /-- `FALSE_START` (R181). No start word within 64 ns of detection abandons the reception, releases the AGC and raises FALSE_STARTS. -/
  | falseStart (n : Ch) (sc : Fin 16) (t : Nat)
  /-- `BURST_CAPTURE` (R182). A correlation peak at least 3 dB stronger before commit restarts reception on the newer burst and raises CAPTURES. -/
  | burstCapture (n : Ch) (sc : Fin 16) (t : Nat) (level : Int)
  /-- `BURST_COMMIT` (R179). The start word is found, the arrival error is measured and the burst is normal, misranged or unattributed. -/
  | burstCommit (n : Ch) (sc : Fin 16) (e : Int)
  /-- `BURST_DESCRIPTOR` (R183). The descriptor is decoded and a wrong leaf ID or bad CRC discards the burst and raises WRONG_ID. -/
  | burstDescriptor (n : Ch) (sc : Fin 16) (d : Codeword)
  /-- `BURST_COLLISION` (R183). An energy step of more than 6 dB after commit marks the burst collided and charges the grant's owner with ROGUE. -/
  | burstCollision (n : Ch) (sc : Fin 16) (step : Int)
  /-- `BURST_CODEWORD_DECODED` (R213). A burst payload codeword is decoded, its uncorrectable bytes discarding whole frame segments and tags. -/
  | burstCodewordDecoded (n : Ch) (sc : Fin 16) (cw : Codeword)
  /-- `BURST_END` (R178). At the end of tail or grant the AGC and AFC are released, taps discarded and FREQ_HIST and POWER_LAST updated. -/
  | burstEnd (n : Ch) (sc : Fin 16) (power afc cd : Int)
  /-- `HUB_LOS_SET` (R184). No burst committing on any subcarrier for 1 ms with a grant in force sets HUB_LOS and makes record 0x030B. -/
  | hubLosSet (n : Ch)
  /-- `UPSTREAM_FRAME_RELEASE` (R186). The hub releases assembled upstream frame F to its deframer at downstream frame F plus PLAYOUT, filling missing slots with filler. -/
  | upstreamFrameRelease (n : Ch)
  /-- `STAGE_DOOR_OPENING` (R185). The hub opens the stage door on SD_SC at SD_OFFSET of every cycle that is a multiple of 10 x PERIOD. -/
  | stageDoorOpening (n : Ch) (opens : Bool)
  /-- `DISCOVERY_BURST_RECEIVED` (R189). A decoded discovery burst adds or refreshes a stage-door list entry or re-admits a bound serial. -/
  | discoveryBurstReceived (n : Ch) (msg : Codeword) (collided : Bool) (rtd : Nat) (power freq : Int)
  /-- `STAGE_DOOR_ENTRY_AGED` (R189). A stage-door list entry is dropped after 10 s without a burst. -/
  | stageDoorEntryAged (n : Ch) (serial : Nat)
  /-- `GRANT_MAP_IN_FORCE` (R173). A grants cue takes effect at the first grant gap at least 10 multiframes after its check, making record 0x030D. -/
  | grantMapInForce (n : Ch)
  /-- `ROGUE_LIMIT_CHECK` (R195). Each second the prompter silences any leaf whose ROGUE count rose by ROGUE_LIMIT or more. -/
  | rogueLimitCheck (n : Ch)
  /-- `FALSE_START_RATE_HIGH` (R198). Once in each second in which FALSE_STARTS rises by more than 10,000 record 0x0312 is made. -/
  | falseStartRateHigh (n : Ch)
  /-- `LEAF_BURST_FIRE` (R193). A leaf fires a burst when its received timeline reads S minus RTD and all burst conditions hold. -/
  | leafBurstFire (n : Ch) (k : Nat)
  /-- `LEAF_DISCOVERY_FIRE` (R189). An unjoined leaf with AUTO_JOIN fires a discovery burst in an opening with probability 1/4, aimed by RTD_HINT. -/
  | leafDiscoveryFire (n : Ch) (heard : Bool)
  /-- `LEAF_GRANT_MESSAGE` (R231). A leaf receives a grant message of the running or announced map. -/
  | leafGrantMessage (n : Ch) (msg : List Byte)
  /-- `LEAF_MAP_ANNOUNCEMENT` (R231). A leaf receives a map announcement giving the effective cycle of a new grant map. -/
  | leafMapAnnouncement (n : Ch) (msg : List Byte)
  /-- `LEAF_RANGING_CORRECTION` (R179). A leaf receives a new RTD and applies it from the effective cycle. -/
  | leafRangingCorrection (n : Ch) (msg : List Byte)
  /-- `LEAF_JOIN_REPLY` (R190). A leaf receives its join reply, takes its leaf ID, RTD and downstream set and moves to ADMITTED. -/
  | leafJoinReply (n : Ch) (a b : List Byte)
  /-- `LEAF_SILENCE_ORDER` (R193). A silence order stops the leaf's bursts within one cycle, or its release resumes them. -/
  | leafSilenceOrder (n : Ch) (msg : List Byte)
  /-- `LEAF_DOWNSTREAM_LOST` (R193). A leaf that loses its downstream for longer than 100 ms returns to ACQUIRING and discards its grants. -/
  | leafDownstreamLost (n : Ch)
  /-- `HUB_SD_LIST` (R197). HUB_SD_LIST returns the stage-door list. -/
  | hubSdList (q : Request)
  /-- `HUB_LEAF_ADMIT` (R190). HUB_LEAF_ADMIT binds a listed serial to an unbound entry and sends the join reply. -/
  | hubLeafAdmit (q : Request)
  /-- `HUB_LEAF_EVICT` (R197). HUB_LEAF_EVICT sends a silence order and returns the entry to STATE 0. -/
  | hubLeafEvict (q : Request)
  /-- `HUB_LEAF_SILENCE` (R197). HUB_LEAF_SILENCE silences or releases a leaf. -/
  | hubLeafSilence (q : Request)
  /-- `HUB_REPORT` (R197). HUB_REPORT returns hub status, cycle and hub counters. -/
  | hubReport (q : Request)
  /-- `HUB_LEAF_REPORT` (R197). HUB_LEAF_REPORT returns a leaf table entry's 16 words. -/
  | hubLeafReport (q : Request)
  /-- `LEAF_JOIN` (R194). LEAF_JOIN joins through the stage door or leaves, stopping bursts and clearing AUTO_JOIN. -/
  | leafJoin (q : Request)
  /-- `FRAME_TRANSMITTED` (R225). A transmit framer numbers, encrypts, adds overhead to and sends one frame to the FEC encoder. -/
  | frameTransmitted (n : Ch) (host : List (Nat × List HostCw)) (faults : List (Nat × List (List Nat))) (maps : List (Nat × Nat))
  /-- `LINE_FRAME_RECEIVED` (R226). The deframer delivers a decoded frame with its verdict and 48-bit frame number and updates alignment, overhead acceptance and defects. -/
  | lineFrameReceived (n : Ch) (raw : List (List Byte)) (cws : List Codeword) (blocks : List CwResult) (coded : Nat) (deleted : List (Nat × Nat))
  /-- `LOF_TIMER` (R228). LOF is set after 3 ms of unbroken OOF and cleared after 3 ms of unbroken SYNC. -/
  | lofTimer (n : Ch)
  /-- `FEC_WINDOW_END` (R210). At the end of each 10 ms window the pre-FEC ratio is computed and SD and EXC set or cleared. -/
  | fecWindowEnd (n : Ch) (est : LineEst)
  /-- `FEC_REPORT` (R220). FEC_REPORT returns FEC status and the last window's codeword statistics. -/
  | fecReport (q : Request)
  /-- `FEC_SET` (R220). FEC_SET writes the flagged Live FEC fields. -/
  | fecSet (q : Request)
  /-- `PER_SECOND_LATCH` (R249). At each second boundary every running channel latches a 64-byte performance record. -/
  | perSecondLatch
  /-- `SECOND_CLASSIFIED` (R250). Ten seconds after a second ends it is classified for ES, SES and availability and bins close. -/
  | secondClassified (n : Ch)
  /-- `SUBRATE_OVERFLOW` (R236). A sub-rate client's 64 KiB buffer overflowing discards blocks to the next frame start and sends one filler block. -/
  | subrateOverflow (n : Ch) (c : Fin 512) (cws : List HostCw)
  /-- `OH_TRACE_SET` (R252). OH_TRACE_SET sets the transmitted SAPI, destination, operator field and expected SAPI. -/
  | ohTraceSet (q : Request)
  /-- `OH_TRACE_GET` (R252). OH_TRACE_GET returns the transmitted or accepted received trace. -/
  | ohTraceGet (q : Request)
  /-- `DM_RUN` (R246). DM_RUN toggles DM_OUT and starts the round-trip counter. -/
  | dmRun (q : Request)
  /-- `PERF_LATCH_READ` (R252). PERF_LATCH_READ returns per-second latch records from a given second. -/
  | perfLatchRead (q : Request)
  /-- `FN_LO_READ` (R251). A read of OH_RX_FN_LO or OH_TX_FN_LO returns the frame number low word and latches the high word for the requester. -/
  | fnLoRead (who : Fin 3) (n : Ch) (tx : Bool)
  /-- `MERGE_COPY_ARRIVAL` (R262). A member's copy of frame F reaches the merge with its verdict and is stored, decided or discarded as too late. -/
  | mergeCopyArrival (p m : Pr) (t : Nat) (bad : List (Nat × Nat × Nat)) (badEntry : Bool)
  /-- `COPY_DECLARED_MISSING` (R264). A copy not arrived by its predicted verdict time plus GUARD is declared MISSING. -/
  | copyDeclaredMissing (p m : Pr) (fn t : Nat)
  /-- `FAR_STORE_PREFETCH` (R261). A far-store copy is read back into the near store from 4 us before its predicted decision, marking it MISSING if uncorrectable. -/
  | farStorePrefetch (p m : Pr) (fn : Nat) (errs : List (Nat × BitVec 256))
  /-- `LEDGER_ENTRY_RETIRED` (R263). A ledger entry is retired 1 ms after its frame's decision. -/
  | ledgerEntryRetired (p : Pr) (fn t : Nat)
  /-- `PAIR_WAITING` (R273). No member ALIGNED for 8 frame times puts the pair in WAITING with MERGE_LOS. -/
  | pairWaiting (p : Pr)
  /-- `WTR_EXPIRY` (R282). The wait-to-restore timer expires and the preference returns home. -/
  | wtrExpiry (p : Pr)
  /-- `CROSSED_TIMER` (R283). The crossed-routes condition persisting or absent for 1 s raises or clears CROSSED. -/
  | crossedTimer (p : Pr)
  /-- `PAIR_CREATE` (R257). PAIR_CREATE creates a pair through an implicit rehearsal session cued in mode 0. -/
  | pairCreate (q : Request)
  /-- `PAIR_DELETE` (R257). PAIR_DELETE deletes a pair through an implicit rehearsal session. -/
  | pairDelete (q : Request)
  /-- `PAIR_REQUEST` (R287). PAIR_REQUEST writes the operator switching request, acting from the next frame decided. -/
  | pairRequest (q : Request)
  /-- `PAIR_REPORT` (R287). PAIR_REPORT returns pair status, delays, occupancy, SR bytes and counters. -/
  | pairReport (q : Request)
  /-- `PAIR_LEDGER_READ` (R287). PAIR_LEDGER_READ returns ledger entries from a given frame number. -/
  | pairLedgerRead (q : Request)
  /-- `OCC_MAX_READ` (R286). A read of MRG_PAIRp_OCC_MAX returns the greatest occupancy since the last read and clears it. -/
  | occMaxRead (p : Pr)
  /-- `KEY_ESTABLISH` (R296). KEY_ESTABLISH derives a new KEK by ECDH and HKDF and returns the device nonce and confirmation. -/
  | keyEstablish (q : Request)
  /-- `KEY_INSTALL` (R299). KEY_INSTALL unwraps a blob into an EMPTY context, making it INSTALLED. -/
  | keyInstall (q : Request)
  /-- `KEY_ACTIVATE` (R309). KEY_ACTIVATE makes an INSTALLED context PENDING for a named or next multiframe. -/
  | keyActivate (q : Request)
  /-- `KEY_BECOMES_CURRENT` (R309). At its effective multiframe a PENDING context becomes CURRENT, the previous one RETIRING, and the completion notice is sent. -/
  | keyBecomesCurrent (c : Fin 16384)
  /-- `KEY_IDENTITY` (R295). KEY_IDENTITY returns the certified identity public key and serial. -/
  | keyIdentity (q : Request)
  /-- `KEY_ZEROISE` (R319). KEY_ZEROISE zeroises one context, or all and the KEK. -/
  | keyZeroise (q : Request)
  /-- `SESSION_REPORT` (R322). SESSION_REPORT returns a session's flags, contexts and counters. -/
  | sessionReport (q : Request)
  /-- `CIPHER_REPORT` (R322). CIPHER_REPORT returns cipher status, load and core states. -/
  | cipherReport (q : Request)
  /-- `TAG_VERDICT_RESOLVED` (R305). At the end of multiframe M+1 the session's tag verdict for M is resolved and AUTH_FAIL may be entered or left. -/
  | tagVerdictResolved (x : Nat)
  /-- `CORE_TEST_COMPLETE` (R315). The core's known-answer test ends, returning a transient core or retiring it and replacing it with an understudy. -/
  | coreTestComplete (c : Fin 144) (pass : Bool)
  /-- `IDLE_UNDERSTUDY_TEST` (R318). Every 1 s the scheduler runs a known-answer test on each idle understudy. -/
  | idleUnderstudyTest (faulty : List Nat)
  /-- `LANE_TRAINING_COMPLETE` (R326). A lane completes coefficient training, the optional extension and data-mode lock, reaching L0. -/
  | laneTrainingComplete (l : Fin 64) (mark : Bool) (own partner : List Nat) (snr ber : Nat)
  /-- `LANE_TRAINING_TIMEOUT` (R328). A lane not trained within 50 ms restarts training, with record 0x0802 after three restarts and retries every 100 ms. -/
  | laneTrainingTimeout (l : Fin 64)
  /-- `LANE_LOS` (R329). A lane's signal below threshold for 1 us sets LOS, holds its state and makes record 0x0803. -/
  | laneLos (l : Fin 64)
  /-- `LANE_SIGNAL_RETURN` (R329). A lane's signal returning within 100 ms relocks from the held state within 5 us with record 0x0804. -/
  | laneSignalReturn (l : Fin 64)
  /-- `LANE_HOLD_EXPIRY` (R329). 100 ms of lane LOS discards the held state so the lane retrains on return. -/
  | laneHoldExpiry (l : Fin 64)
  /-- `LANE_TEST_COMPLETE` (R329). A lane's 2 ms PRBS31 targeted test ends, retraining a transient lane or marking it FAILED. -/
  | laneTestComplete (l : Fin 64) (pass : Bool)
  /-- `HGC_PACKET_RECEIVED` (R338). A received HGC packet is placed in the receive queue or discarded for a bad CRC, length or lack of room. -/
  | hgcPacketReceived (n : Ch)
  /-- `HOST_PORT_REPORT` (R340). HOST_PORT_REPORT returns port status, RS counters and lane statuses. -/
  | hostPortReport (q : Request)
  /-- `HOST_LANE_REPORT` (R340). HOST_LANE_REPORT returns a lane's status, taps and pre-FEC BER. -/
  | hostLaneReport (q : Request)
  /-- `HOST_RETRAIN` (R340). HOST_RETRAIN clears FAILED and retrains a lane or whole port. -/
  | hostRetrain (q : Request)
  /-- `SELECTOR_EVALUATION` (R346). Every 1 ms and at every input change the selector ranks eligible inputs and may begin a switch or holdover. -/
  | selectorEvaluation (freq : Int)
  /-- `INPUT_LOA` (R345). No edge on an input within the longer of 4 periods and 2 us sets LOA and makes the input invalid. -/
  | inputLoa (x : Fin 8)
  /-- `INPUT_FREQUENCY_CHECK` (R345). The 1 s and 64 s offset measurements of an input set or clear HARD and SOFT. -/
  | inputFrequencyCheck (x : Fin 8) (off1 off64 raw : Int)
  /-- `INPUT_VALIDATED` (R345). After 1 s of activity without HARD an input is validated and becomes valid or starts its wait-to-restore. -/
  | inputValidated (x : Fin 8)
  /-- `INPUT_WTR_EXPIRY` (R345). An input's wait-to-restore ends and the input becomes valid. -/
  | inputWtrExpiry (x : Fin 8)
  /-- `SWITCH_COMPLETE` (R348). After the 10 ms phase build-out the PLL follows the new input and the selector becomes LOCKED. -/
  | switchComplete (off : Int)
  /-- `ACQUIRING_BANDWIDTH_STEP` (R350). During ACQUIRING the bandwidth halves every 2 s until BW, then LOCKED follows. -/
  | acquiringBandwidthStep (good : Bool)
  /-- `PPS_PULSE` (R354). A rising edge on the chosen PPS input is validated, timed against the internal second and slewed or stepped. -/
  | ppsPulse (b : Bool) (gap err : Int)
  /-- `PPS_MISSING` (R354). An expected PPS pulse missing counts toward PPS_LOS after three in a row. -/
  | ppsMissing
  /-- `INTERNAL_SECOND` (R354). The internal second occurs, driving PPS_OUT and applying pending mode-0 time steps and offsets. -/
  | internalSecond
  /-- `TIM_REPORT` (R361). TIM_REPORT returns timing status and inputs. -/
  | timReport (q : Request)
  /-- `TIM_SET` (R361). TIM_SET writes timing configuration entries in one cycle. -/
  | timSet (q : Request)
  /-- `TOD_STEP` (R358). TOD_STEP sets or offsets the time of day, incrementing the epoch. -/
  | todStep (q : Request)
  /-- `TOD_GET` (R361). TOD_GET returns time of day with life timestamp. -/
  | todGet (q : Request)
  /-- `TOD_LO_READ` (R360). A read of TIM_TOD_LO latches the seconds high bits and nanoseconds for the requester. -/
  | todLoRead (who : Fin 3)
  /-- `PATROL_SCRUB` (R369). Patrol scrub reads the next HBM codeword, writing back and re-reading corrected ones. -/
  | patrolScrub (e1 e2 : BitVec 256) (written : Bool)
  /-- `SRAM_SCRUB` (R370). SRAM scrub reads a protected word, correcting and re-reading single-bit errors. -/
  | sramScrub (st : Fin 11) (k bad : Nat) (written lasting : Bool)
  /-- `MEMORY_ERROR_RECORDS` (R373). Each second memory records are made for each die position, region and kind seen. -/
  | memoryErrorRecords
  /-- `MEM_FLIP_ARM` (R372). Setting MEM_FLIP.ARM corrupts the next matching HBM write once. -/
  | memFlipArm (w : Word)
  /-- `MEM_SFLIP_ARM` (R372). Setting MEM_SFLIP.ARM inverts bits of the next write to the named SRAM store once. -/
  | memSflipArm (w : Word)
  /-- `MEM_RETIRE` (R374). MEM_RETIRE retires a page or bank, erases a die position, or restores an entry. -/
  | memRetire (q : Request)
  /-- `MEM_LOG_READ` (R380). MEM_LOG_READ returns HBM error log entries. -/
  | memLogRead (q : Request)
  /-- `MEM_PPR` (R376). MEM_PPR starts soft or hard post-package repair of a page's row. -/
  | memPpr (q : Request)
  /-- `PPR_COMPLETE` (R376). Post-package repair ends, unlocking the page and making record 0x0A05. -/
  | pprComplete (failed : Bool)
  /-- `MEM_REPORT` (R380). MEM_REPORT returns memory status, far slots, pages and error counts. -/
  | memReport (q : Request)
  /-- `FABRIC_DATA_UNIT_RECEIVED` (R383). A received HFB data unit is assembled into a packet, which is then checked and routed or discarded. -/
  | fabricDataUnitReceived (n : Ch) (msg : List Byte)
  /-- `FABRIC_CONTROL_UNIT_RECEIVED` (R384). A received control unit updates far credit, epoch and domain, bringing the link UP, BOUNDARY or DOWN. -/
  | fabricControlUnitReceived (n : Ch)
  /-- `FABRIC_LINK_DOWN` (R385). A link entering DOWN empties its transmit queue, discards partial packets and removes its routes. -/
  | fabricLinkDown (n : Ch)
  /-- `FABRIC_UNIT_SENT` (R386). A side begins sending a packet unit when its credit rule allows. -/
  | fabricUnitSent (n : Ch)
  /-- `ADVERTISEMENT_PERIOD` (R390). Every ADV_PERIOD an addressed part sends an advertisement on every UP link. -/
  | advertisementPeriod
  /-- `ADVERTISEMENT_RECEIVED` (R390). A received advertisement updates the route and is re-flooded or discarded. -/
  | advertisementReceived (n : Ch)
  /-- `ROUTE_EXPIRY` (R390). A route expires 3 x ADV_PERIOD after its last refresh. -/
  | routeExpiry (x : Nat)
  /-- `ADDRESS_OFFER_SENT` (R388). A hub with OFFER sends an address offer to a leaf at ranging and every 10 s. -/
  | addressOfferSent (n : Ch) (leaf : Fin 1024)
  /-- `ADDRESS_OFFER_RECEIVED` (R388). A leaf with AUTO_ADDR and no address adopts an offer and makes record 0x0B03. -/
  | addressOfferReceived (n : Ch)
  /-- `FORWARDED_REPLY_RECEIVED` (R393). A reply to a forwarded request has its TAG restored and is queued, or if late is discarded into FAB_LATE. -/
  | forwardedReplyReceived (n : Ch)
  /-- `FORWARDED_REQUEST_TIMEOUT` (R393). A forwarded request without reply in 2 s, or without completion 60 s after ACCEPTED, is answered TIMEOUT with record 0x0B06. -/
  | forwardedRequestTimeout (tag : Nat)
  /-- `FAB_REPORT` (R398). FAB_REPORT returns fabric configuration and link statuses. -/
  | fabReport (q : Request)
  /-- `FAB_SET` (R398). FAB_SET writes flagged fabric configuration words. -/
  | fabSet (q : Request)
  /-- `FAB_ACL_SET` (R394). FAB_ACL_SET writes access list entries. -/
  | fabAclSet (q : Request)
  /-- `FAB_ROUTE_READ` (R398). FAB_ROUTE_READ returns route words. -/
  | fabRouteRead (q : Request)
  /-- `PWR_STATE_SET` (R414). PWR_STATE_SET checks and begins power changes of channels, lanes, quads, domains or a dark-house entry. -/
  | pwrStateSet (q : Request)
  /-- `CHANNEL_TRANSITION_COMPLETE` (R403). A channel reaches INTERMISSION, ACTIVE or DARK and its completion notice is sent. -/
  | channelTransitionComplete (n : Ch)
  /-- `DOMAIN_TRANSITION_COMPLETE` (R404). A lane, quad or domain reaches its commanded state. -/
  | domainTransitionComplete (d : Fin 32)
  /-- `DARK_HOUSE_COMMIT` (R406). At the commit point banks are written and sealed, keys retained or zeroised and PD02 then PD01 darkened. -/
  | darkHouseCommit
  /-- `DARK_HOUSE_ABORT` (R407). A wake source firing before the commit point aborts the entry with CONFLICT and record 0x0C21. -/
  | darkHouseAbort
  /-- `WAKE_N_LOW` (R410). WAKE_N low beyond its glitch filter fires a wake source. -/
  | wakeNLow
  /-- `I2C_ADDRESS_MATCH` (R410). A matched I2C address byte in the dark house is unacknowledged and fires a wake source. -/
  | i2cAddressMatch (addr : Fin 128)
  /-- `WAKE_TIMER_EXPIRY` (R410). PWR_WAKE_TIMER seconds after the commit point the timer wake source fires. -/
  | wakeTimerExpiry
  /-- `WAKE` (R411). A wake event powers PD01 and PD02 and runs the boot stages, restoring sealed banks, to READY. -/
  | wake
  /-- `RETENTION_BANKS_RESTORED` (R409). Each bank is checked against its seal on wake and restored or discarded with record 0x0C24. -/
  | retentionBanksRestored (bad : List Nat)
  /-- `PWR_REPORT` (R414). PWR_REPORT returns domain, channel and retention statuses. -/
  | pwrReport (q : Request)
  /-- `PWR_WAKE_SET` (R414). PWR_WAKE_SET writes wake control and timer. -/
  | pwrWakeSet (q : Request)
  /-- `PWR_ACCT_READ` (R414). PWR_ACCT_READ returns and optionally clears entry accounting. -/
  | pwrAcctRead (q : Request)
  /-- `ACCT_CLEAR` (R412). Writing 1 to PWR_WAKE_CTRL.ACCT_CLEAR clears the entry record. -/
  | acctClear
  /-- `SHUTDOWN_CAUSE_READ` (R62). A read of PWR_SHUTDOWN_CAUSE returns the cause and clears it. -/
  | shutdownCauseRead (who : Fin 3)
  /-- `MONITOR_CONVERSION` (R417). A 500 ns slot converts its sequenced input and feeds the filter chain, producing results to LAST and the queue. -/
  | monitorConversion (code : Fin 4096)
  /-- `MONITOR_ROUND_BOUNDARY` (R427). At a round boundary background calibration corrections are applied. -/
  | monitorRoundBoundary (offs gain : Int)
  /-- `MONITOR_CALIBRATION_COMPLETE` (R428). After PD03 starts the 1 ms calibration completes, READY is set and record 0x0D05 made. -/
  | monitorCalibrationComplete
  /-- `BANDGAP_CHECK` (R427). Input 63 out of or back within tolerance for 1 s sets or clears BG_FAULT. -/
  | bandgapCheck
  /-- `MONITOR_DISCARD_RECORD` (R425). Once in each second with discarded results record 0x0D02 is made. -/
  | monitorDiscardRecord
  /-- `MON_Q0_READ` (R425). A read of MON_Q0 returns and pops the head entry, latching Q1 to Q3. -/
  | monQ0Read (who : Fin 3)
  /-- `Q_CLEAR` (R426). Writing MON_CTRL.Q_CLEAR empties the result queue. -/
  | qClear
  /-- `COUNTER_TICK` (R433). Every 1 us the counter store takes every counter group from its sources. -/
  | counterTick (host : List (Nat × List HostCw))
  /-- `CNT_LO_READ` (R435). A read of CNT_LO returns the low count and latches HI and WRAPPED. -/
  | cntLoRead (f : Pr) (off : Nat)
  /-- `SERIAL_LO_READ` (R467). A read of SYS_ID_SERIAL_LO latches SERIAL_HI. -/
  | serialLoRead (who : Fin 3)
  /-- `BANDWIDTH_WINDOW_END` (R438). At each window end content rates of ports and clients are computed. -/
  | bandwidthWindowEnd (clients : List (Nat × Nat × Nat × Nat))
  /-- `CALLBOARD_RECORD_WRITTEN` (R440). The recorder writes the next queued event as a record to ring and freeze area. -/
  | callboardRecordWritten
  /-- `CALLBOARD_ARCHIVE_WRITE` (R441). A record is written to the HBM archive as a class 2 request. -/
  | callboardArchiveWrite
  /-- `CNT_READ` (R448). CNT_READ returns counters taken at one tick. -/
  | cntRead (q : Request)
  /-- `CB_READ` (R448). CB_READ returns callboard records by sequence or freeze index. -/
  | cbRead (q : Request)
  /-- `CNT_WINDOW_READ` (R448). CNT_WINDOW_READ returns client window rates. -/
  | cntWindowRead (q : Request)
  /-- `LIFE_READ` (R448). LIFE_READ returns bytes of the life image. -/
  | lifeRead (q : Request)
  /-- `MON_Q_READ` (R448). MON_Q_READ returns and removes monitor queue entries. -/
  | monQRead (q : Request)
  /-- `LIFE_STORE_WRITE` (R447). Every 15 min of powered time, or within 1 ms of a lasting event, a new life image is written to the next sector. -/
  | lifeStoreWrite
  /-- `LIFE_STORE_WRITE_COMPLETE` (R447). A life store write completes, starting any write that was waiting. -/
  | lifeStoreWriteComplete
  /-- `BIST_RUN` (R449). BIST_RUN starts the built-in self-test of a scope. -/
  | bistRun (q : Request)
  /-- `BIST_COMPLETE` (R451). The self-test ends, units return to their prior states and the result notice is sent. -/
  | bistComplete (entries : List (Nat × Nat × Nat × Nat × Nat × Nat))
  /-- `BIST_ABORT` (R450). VDD_CORE or clock leaving its window stops the test within 1 ms and reports aborted. -/
  | bistAbort
  /-- `LOOPBACK_SET` (R453). LOOPBACK_SET sets or clears a loopback of a given depth. -/
  | loopbackSet (q : Request)
  /-- `PATTERN_SET` (R456). PATTERN_SET starts or stops the payload pattern generator and checker. -/
  | patternSet (q : Request)
  /-- `PAT_ERR_READ` (R461). A read of TST_PAT_ERR returns and clears the bit errors. -/
  | patErrRead (n : Ch)
  /-- `REPAIR_APPLY` (R457). REPAIR_APPLY applies, fuses or removes an SRAM row or column repair. -/
  | repairApply (q : Request) (blown : Bool)
  /-- `CAPTURE_ARM` (R459). CAPTURE_ARM arms a converter capture with its trigger. -/
  | captureArm (q : Request)
  /-- `CAPTURE_TRIGGER` (R459). The armed capture's trigger occurs and the buffer fills to completion. -/
  | captureTrigger
  /-- `CAPTURE_DRAINED` (R459). A completed capture drains to HBM region 4 with record 0x0E04 and notice. -/
  | captureDrained
  /-- `CAPTURE_READ` (R462). CAPTURE_READ returns capture bytes. -/
  | captureRead (q : Request)
  /-- `CAPTURE_CANCEL` (R462). CAPTURE_CANCEL ends an untriggered capture. -/
  | captureCancel (q : Request)
  /-- `INT_REARM` (R470). Writing INT_REARM bit v arms vector v, sending at once if its condition holds. -/
  | intRearm (f : Pr) (v : Word)
  /-- `MSIX_UNMASK` (R470). Unmasking an armed vector with a pending bit sends its message. -/
  | msixUnmask (f : Pr) (ev : MsixEvent)
  /-- `UNDEFINED_OPCODE` (R90). A request whose opcode is not defined, including the notice opcodes 0x0810 and 0x0811 sent as requests, is refused with BAD_OPCODE and recorded. -/
  | undefinedOpcode (q : Request) (opcode : Nat)
  /-- `WARM_RESET` (R76). 1 ms after SYS_RESET has sent its OK, a warm reset begins: a cold start that resumes boot at the image stage. -/
  | warmReset
  /-- `RAIL_BACK_IN_RANGE` (R46). A rail that was removed or below its monitor threshold comes back into range; after VDD_IO18 has been back for 10 ms the pads again take their dark-house states, and other rails restart nothing. -/
  | railBackInRange (r : Fin 12)
  /-- `BIAS_LOCK_LOST` (R113). A modulator bias loop whose error leaves the held limits clears ENG_STATUS.BIAS_LOCK and makes record 0x0220. -/
  | biasLockLost (n : Ch) (loops : Nat)
  /-- `LANE_LOCK_LOST` (R329). A host lane in L0 loses lock while its signal is present; a third loss within 1 s starts its 2 ms targeted test. -/
  | laneLockLost (l : Fin 64)
  /-- `PORT_LOCK_CHANGED` (R333). A host port gains or loses alignment-marker, PCS or group calendar lock on the data from the host, which changes client fault blocks and makes record 0x0805. -/
  | portLockChanged (h : Fin 64) (am pcs : Bool) (skew : Nat)
  /-- `FAULT_ORDERED_SETS_FROM_HOST` (R334). Local or remote fault ordered sets received from the host begin or end, updating LF_RX or RF_RX and making record 0x0806. -/
  | faultOrderedSetsFromHost (h : Fin 64) (remote began : Bool)
  /-- `LOA_CLEARED` (R345). The first edge on a reference input in LOA clears LOA, and the input's 1 s validation begins. -/
  | loaCleared (x : Fin 8)
  deriving DecidableEq, Repr

end Sys2Proof
end

