-- ==== Sys2Proof/Decode.lean ====
section
/-! DEFINITION. Words of the command table: no row of spec/opcode_table.json has bits (each command is an event, a
register access or a request packet, not an encoded word), so no word spells a command. -/

namespace Sys2Proof

/-- The command that a word spells by the table's bits: none, since the table gives no row bits. -/
def decodeTableWord (_nbits _w : Nat) : Option Instr := none

end Sys2Proof
end

