-- ==== Sys2Proof/Config.lean ====
section
/-! DEFINITION. What an implementation fixes and what the manual leaves open: opaque constants with no body, so that
nothing can be proved about their values. -/

namespace Sys2Proof.Config

/-- The serial number fixed at manufacture (R467); the register table gives it no value. Assumption 2. -/
opaque serial : BitVec 64

/-- Severity of an event code: the event catalogue of R439 is not part of the manual's text. Assumption 3. -/
opaque severity : Nat → BitVec 3

/-- The device identity of `KEY_IDENTITY` (R295): bytes 0 to 96 the public key, 97 to 192 the signature. Assumption 4. -/
opaque identity : Nat → Byte

/-- A value the manual leaves open, indexed by the model's own counter `State.free`. Assumption 5. -/
opaque free : Nat → BitVec 64

/-- Byte i of the root key digest that the fuses hold at an index (R72): fixed at manufacture, like the serial number; the manual gives
no value. Assumption 106. -/
opaque rootKey : Nat → Nat → Byte

/-- Whether an ECDSA P-384 signature verifies: public key, signature, signed bytes (R71, R72). Assumption 6. -/
opaque ecdsaOk : List Byte → List Byte → List Byte → Bool

/-- What the foreground calibration of a start gives a converter slice or DAC (R121), by an index of the model's own and the slice's number:
offset 1/16 LSB, gain 1/1,024, timing 10 fs. The manual gives no value. Assumption 117. -/
opaque calibrated : Nat → Nat → Int × Int × Int

/-- Shift of the circulant in a row and column of a code's base matrix, none for a zero block (R200, R212, R214, R215): codes 0 native, 1
burst, 2 descriptor, 3 discovery. The manual gives the values in a machine-readable form that its text does not hold. Assumption 42. -/
opaque shift : Nat → Nat → Nat → Option Nat

/-- The place from which the channel interleaver takes bit i of its output, for the low-latency arrangement or the standard one and the
number of bits it spreads (R203). Assumption 42. -/
opaque spread : Bool → Nat → Nat → Nat

/-- FN[47:8] that a leaf finds for a scrambled share before it knows a frame number: R230 carries the number under the scrambler that R224
seeds with it. Assumption 51. -/
opaque shareNumber : List Byte → Nat

/-- Whether a point lies on the P-384 curve and is not the point at infinity (R296). Assumption 6. -/
opaque pointOk : List Byte → Bool

/-- Bytes derived by `KEY_ESTABLISH` from the host's point and the two nonces (R296): 0 to 31 the KEK, 64 to 79 the
confirmation. Assumption 6. -/
opaque kdf : List Byte → Nat → Byte

/-- AES key unwrap with padding of a 48-byte blob under a KEK (R298): the 40-byte record, or none where its integrity
check fails. Assumption 6. -/
opaque unwrap : List Byte → List Byte → Option (List Byte)

/-- Keystream byte of AES-256-GCM for a key, a 12-byte IV and a byte position of the message (R300, R301). Assumption 6. -/
opaque keystream : List Byte → List Byte → Nat → Byte

/-- One job's step of the running GHASH of a key (R303). Assumption 6. -/
opaque ghash : List Byte → BitVec 128 → List Byte → BitVec 128

/-- The tag of a message from its key, IV, additional data and GHASH (R301). Assumption 6. -/
opaque gcmTag : List Byte → List Byte → List Byte → BitVec 128 → BitVec 128

/-- Byte of a SHA-384 digest (R187). Assumption 6. -/
opaque sha384 : List Byte → Nat → Byte

/-- The capability flags of a discovery message, which the manual does not give (R187). Assumption 8. -/
opaque capFlags : BitVec 16

/-- The codeword group (false E, true O) and the bank of an HBM page: the manual numbers pages and does not say which rows
hold them. Assumption 7. -/
opaque pageGroup : Nat → Bool
opaque pageBank : Nat → Nat

/-- Spare rows the DRAM has for a group, a bank and a die position, soft or hard (R376): the manual gives no number.
Assumption 7. -/
opaque spareRows : Bool → Nat → Nat → Bool → Nat

/-- What the notch and the final low-pass of a monitor chain make of the moving averages their span holds, newest first, for a
configuration word, a notch word and the sequence weight: the exact output of the last stage, in units of 1/256 code. The manual gives
these stages' bandwidths and not their coefficients (R421, R422). Assumption 9. -/
opaque monFilter : BitVec 32 → BitVec 32 → Nat → List Nat → Int

/-- Whether the notch's output for those averages was clamped (R424). Assumption 9. -/
opaque monClamped : BitVec 32 → BitVec 32 → Nat → List Nat → Bool

/-- The seal of a retention bank, a CRC over an image whose layout the manual does not give (R408): by bank and by an index of the
model's own. Assumption 10. -/
opaque bankSeal : Nat → Nat → BitVec 32

/-- Sample byte of a converter capture (R459), by an index of the model's own and its offset. Assumption 11. -/
opaque capSample : Nat → Nat → BitVec 8

/-- Byte of a capture's 64-byte header, from the fields it holds and an offset: the manual lists the fields and not their places (R459).
Assumption 11. -/
opaque capHeader : List Nat → Nat → BitVec 8

/-- Byte of the life image, by its offset, where a slot or entry of it has never been used (R446): the manual gives no value.
Assumption 12. -/
opaque lifeBlank : Nat → BitVec 8

end Sys2Proof.Config
end

