-- ==== Sys2Proof/Machine/Sparse.lean ====
section
/-! DEFINITION. Sparse storage: a list of (key, value) pairs in one canonical form, keys strictly rising and no
entry equal to what an unlisted key reads as. Registers, counters, tables and memories of the part are held so. -/

namespace Sys2Proof.Machine

/-- Sparse storage from numbers to values. -/
abbrev SMap (α : Type) := List (Nat × α)

/-- The listed value of a key, if any. -/
def smLookup {α : Type} : SMap α → Nat → Option α
  | [], _ => none
  | (k, v) :: r, i => if i = k then some v else smLookup r i

/-- What a key reads as: its listed value, or what an unlisted key reads as. -/
def smGet {α : Type} (d : Nat → α) (m : SMap α) (i : Nat) : α := (smLookup m i).getD (d i)

/-- List a value under a key, keeping the keys rising. -/
def smPut {α : Type} : SMap α → Nat → α → SMap α
  | [], i, v => [(i, v)]
  | (k, w) :: r, i, v => if i < k then (i, v) :: (k, w) :: r else if i = k then (i, v) :: r else (k, w) :: smPut r i v

/-- Remove a key. -/
def smDel {α : Type} : SMap α → Nat → SMap α
  | [], _ => []
  | (k, w) :: r, i => if i = k then smDel r i else (k, w) :: smDel r i

/-- Write a value under a key; writing what an unlisted key reads as removes the entry. -/
def smSet {α : Type} [DecidableEq α] (d : Nat → α) (m : SMap α) (i : Nat) (v : α) : SMap α :=
  if v = d i then smDel m i else smPut m i v

/-- The keys are strictly rising, all above a bound. -/
def smSorted {α : Type} : Option Nat → SMap α → Bool
  | _, [] => true
  | none, (k, _) :: r => smSorted (some k) r
  | some b, (k, _) :: r => decide (b < k) && smSorted (some k) r

/-- No entry equals what an unlisted key reads as. -/
def smLean {α : Type} [DecidableEq α] (d : Nat → α) (m : SMap α) : Bool := m.all fun e => !decide (e.2 = d e.1)

/-- The canonical form. -/
def smWf {α : Type} [DecidableEq α] (d : Nat → α) (m : SMap α) : Bool := smSorted none m && smLean d m

end Sys2Proof.Machine
end

