-- ==== Sys2Proof/Machine/Regs.lean ====
section
/-! DEFINITION. The register table of BAR0: every register of the manual with its offset, its fields, their access
codes (R6), reset values and take-effect classes (R8), from the register tables of the chapters and the map of R466. -/

namespace Sys2Proof.Machine

/-- Access codes of R6. -/
inductive Acc where
  | ro | rw | rw1c | wo | rc | rl
  deriving DecidableEq, Repr

/-- Take-effect classes of R8; `none` for status and counter fields (R9). -/
inductive Take where
  | live | cue | dark | none
  deriving DecidableEq, Repr

/-- Where copies of a register stand: once, once per PCIe function (R465), or once in each channel region (R2). -/
inductive Scope where
  | glob | perFn | chan
  deriving DecidableEq, Repr

/-- One field of a register table row. -/
structure FieldSpec where
  hi : Nat
  lo : Nat
  acc : Acc
  reset : Nat
  take : Take
  deriving DecidableEq, Repr

/-- One register of the map: `count` copies at `base + stride * i` (relative to the channel region for `chan`). -/
structure RegSpec where
  name : String
  base : Nat
  stride : Nat
  count : Nat
  scope : Scope
  fields : List FieldSpec
  deriving DecidableEq, Repr

/-- A field of a register at a BAR0 offset: lowest bit and width. -/
structure Fld where
  reg : Nat
  lo : Nat
  w : Nat
  deriving DecidableEq, Repr

/-- Offset of the second PCIe function's copies of its own registers, above the 4 MiB of BAR0. -/
def fnBase : Nat := 0x400000

/-- Base of channel n's register region (R2). -/
def chBase (n : Nat) : Nat := 0x100000 + 0x40000 * n

/-- Register table, part 0: SYS_ID_PART to INT_VECTOR. -/
def regTable0 : List RegSpec :=
  [⟨"SYS_ID_PART", 0x0, 0, 1, .glob, [⟨15, 0, .ro, 0x3240, .none⟩, ⟨31, 16, .ro, 0x5754, .none⟩]⟩,
  ⟨"SYS_ID_REV", 0x4, 0, 1, .glob, [⟨7, 0, .ro, 177, .none⟩]⟩,
  ⟨"SYS_ID_SERIAL_LO", 0x8, 0, 1, .glob, [⟨31, 0, .rl, 0, .none⟩]⟩,
  ⟨"SYS_ID_SERIAL_HI", 0xc, 0, 1, .glob, [⟨31, 0, .ro, 0, .none⟩]⟩,
  ⟨"SYS_ID_FW", 0x10, 0, 1, .glob, [⟨31, 0, .ro, 0, .none⟩]⟩,
  ⟨"SYS_ID_NODE", 0x14, 0, 1, .glob, [⟨12, 0, .ro, 0, .none⟩]⟩,
  ⟨"SYS_STATUS", 0x20, 0, 1, .glob, [⟨0, 0, .ro, 0, .none⟩, ⟨1, 1, .ro, 0, .none⟩, ⟨2, 2, .ro, 0, .none⟩, ⟨3, 3, .ro, 0, .none⟩, ⟨7, 4, .ro, 0, .none⟩, ⟨9, 8, .ro, 0, .none⟩, ⟨10, 10, .ro, 0, .none⟩, ⟨11, 11, .ro, 0, .none⟩, ⟨12, 12, .ro, 0, .none⟩, ⟨13, 13, .ro, 0, .none⟩]⟩,
  ⟨"SYS_BOOT_STATUS", 0x40, 0, 1, .glob, [⟨3, 0, .ro, 0, .none⟩, ⟨4, 4, .ro, 0, .none⟩, ⟨5, 5, .ro, 0, .none⟩, ⟨6, 6, .ro, 0, .none⟩, ⟨15, 8, .ro, 0, .none⟩, ⟨23, 16, .ro, 0, .none⟩, ⟨31, 24, .ro, 0, .none⟩]⟩,
  ⟨"SYS_RESET_CAUSE", 0x44, 0, 1, .glob, [⟨3, 0, .ro, 0, .none⟩, ⟨31, 16, .ro, 0, .none⟩]⟩,
  ⟨"SYS_BOOT_CTRL", 0x48, 0, 1, .glob, [⟨0, 0, .wo, 0, .live⟩]⟩,
  ⟨"SYS_DL_PAGE", 0x4c, 0, 1, .glob, [⟨7, 0, .rw, 0, .live⟩]⟩,
  ⟨"SYS_CFG_ERR", 0x50, 0, 1, .glob, [⟨0, 0, .rw1c, 0, .none⟩, ⟨1, 1, .rw1c, 0, .none⟩, ⟨2, 2, .rw1c, 0, .none⟩]⟩,
  ⟨"SYS_CFG_ERR_ADDR", 0x54, 0, 1, .glob, [⟨21, 0, .ro, 0, .none⟩]⟩,
  ⟨"SYS_ACCESS", 0x58, 0, 1, .glob, [⟨0, 0, .rw, 0, .live⟩]⟩,
  ⟨"TST_STATUS", 0x60, 0, 1, .glob, [⟨0, 0, .ro, 0, .none⟩, ⟨3, 1, .ro, 0, .none⟩, ⟨4, 4, .ro, 0, .none⟩, ⟨24, 16, .ro, 0, .none⟩]⟩,
  ⟨"INT_STATUS", 0x100, 0, 1, .perFn, [⟨0, 0, .rw1c, 0, .none⟩, ⟨1, 1, .rw1c, 0, .none⟩, ⟨2, 2, .ro, 0, .none⟩, ⟨3, 3, .ro, 0, .none⟩, ⟨4, 4, .ro, 0, .none⟩, ⟨5, 5, .ro, 0, .none⟩, ⟨6, 6, .ro, 0, .none⟩, ⟨7, 7, .rw1c, 0, .none⟩, ⟨11, 8, .ro, 0, .none⟩, ⟨13, 12, .ro, 0, .none⟩, ⟨14, 14, .ro, 0, .none⟩, ⟨15, 15, .rw1c, 0, .none⟩, ⟨19, 16, .ro, 0, .none⟩, ⟨20, 20, .ro, 0, .none⟩, ⟨21, 21, .rw1c, 0, .none⟩]⟩,
  ⟨"INT_ENABLE", 0x104, 0, 1, .perFn, [⟨31, 0, .rw, 0, .live⟩]⟩,
  ⟨"INT_PIN_EN", 0x108, 0, 1, .perFn, [⟨31, 0, .rw, 0, .live⟩]⟩,
  ⟨"INT_REARM", 0x10c, 0, 1, .perFn, [⟨31, 0, .wo, 0, .live⟩]⟩,
  ⟨"INT_VECTOR", 0x110, 4, 8, .perFn, [⟨4, 0, .rw, 0, .live⟩, ⟨12, 8, .rw, 0, .live⟩, ⟨20, 16, .rw, 0, .live⟩, ⟨28, 24, .rw, 0, .live⟩]⟩]

/-- Register table, part 1: MBX_REQ_DATA to CNT_PAGE. -/
def regTable1 : List RegSpec :=
  [⟨"MBX_REQ_DATA", 0x10000, 0, 1, .perFn, [⟨31, 0, .wo, 0, .live⟩]⟩,
  ⟨"MBX_REQ_END", 0x10004, 0, 1, .perFn, [⟨31, 0, .wo, 0, .live⟩]⟩,
  ⟨"MBX_REQ_STATUS", 0x10008, 0, 1, .perFn, [⟨13, 0, .ro, 0, .none⟩, ⟨18, 16, .ro, 0, .none⟩, ⟨24, 24, .rw1c, 0, .none⟩, ⟨25, 25, .ro, 0, .none⟩]⟩,
  ⟨"MBX_REQ_CTRL", 0x1000c, 0, 1, .perFn, [⟨0, 0, .wo, 0, .live⟩]⟩,
  ⟨"MBX_RSP_DATA", 0x10020, 0, 1, .perFn, [⟨31, 0, .rl, 0, .none⟩]⟩,
  ⟨"MBX_RSP_STATUS", 0x10024, 0, 1, .perFn, [⟨11, 0, .ro, 0, .none⟩, ⟨12, 12, .ro, 0, .none⟩, ⟨13, 13, .rw1c, 0, .none⟩]⟩,
  ⟨"MBX_RSP_CTRL", 0x10028, 0, 1, .perFn, [⟨0, 0, .wo, 0, .live⟩, ⟨1, 1, .wo, 0, .live⟩, ⟨2, 2, .wo, 0, .live⟩]⟩,
  ⟨"FAB_CTRL", 0x11000, 0, 1, .glob, [⟨12, 0, .rw, 0, .live⟩, ⟨23, 16, .rw, 0, .live⟩, ⟨24, 24, .rw, 1, .live⟩]⟩,
  ⟨"FAB_LINK_CTRL", 0x11004, 0, 1, .glob, [⟨3, 0, .rw, 15, .live⟩, ⟨14, 8, .rw, 10, .live⟩]⟩,
  ⟨"FAB_STATUS", 0x11008, 0, 1, .glob, [⟨12, 0, .ro, 0, .none⟩, ⟨13, 13, .rw1c, 0, .none⟩, ⟨14, 14, .ro, 0, .none⟩]⟩,
  ⟨"FAB_LEAF_BASE", 0x11010, 4, 4, .glob, [⟨12, 0, .rw, 0, .live⟩, ⟨16, 16, .rw, 0, .live⟩]⟩,
  ⟨"FAB_LINK_STATUS", 0x11020, 4, 4, .glob, [⟨2, 0, .ro, 0, .none⟩, ⟨7, 4, .ro, 0, .none⟩, ⟨15, 8, .ro, 0, .none⟩, ⟨28, 16, .ro, 0, .none⟩]⟩,
  ⟨"FAB_ACL_A", 0x11100, 8, 64, .glob, [⟨12, 0, .rw, 0, .live⟩, ⟨28, 16, .rw, 0, .live⟩, ⟨31, 31, .rw, 0, .live⟩]⟩,
  ⟨"FAB_ACL_B", 0x11104, 8, 64, .glob, [⟨15, 0, .rw, 0, .live⟩, ⟨31, 16, .rw, 0, .live⟩]⟩,
  ⟨"FAB_ROUTE", 0x14000, 4, 4096, .glob, [⟨2, 0, .ro, 6, .none⟩, ⟨10, 3, .ro, 0, .none⟩, ⟨11, 11, .ro, 0, .none⟩]⟩,
  ⟨"CB_HEAD", 0x20000, 0, 1, .glob, [⟨31, 0, .ro, 0, .none⟩]⟩,
  ⟨"CB_CTRL", 0x20004, 0, 1, .glob, [⟨2, 0, .rw, 4, .live⟩, ⟨3, 3, .rw, 0, .live⟩]⟩,
  ⟨"CB_PAGE", 0x20008, 0, 1, .perFn, [⟨2, 0, .rw, 0, .live⟩]⟩,
  ⟨"CB_STATUS", 0x2000c, 0, 1, .glob, [⟨0, 0, .rw1c, 0, .none⟩, ⟨1, 1, .rw1c, 0, .none⟩, ⟨2, 2, .ro, 0, .none⟩, ⟨11, 3, .ro, 0, .none⟩]⟩,
  ⟨"CNT_PAGE", 0x3c000, 0, 1, .perFn, [⟨1, 0, .rw, 0, .live⟩, ⟨3, 2, .rw, 0, .live⟩, ⟨5, 4, .rw, 0, .live⟩]⟩]

/-- Register table, part 2: HP_WIN_CTRL to TIM_HO. -/
def regTable2 : List RegSpec :=
  [⟨"HP_WIN_CTRL", 0x3c010, 0, 1, .glob, [⟨9, 0, .rw, 100, .live⟩]⟩,
  ⟨"HP_WIN_RX", 0x3d000, 8, 64, .glob, [⟨20, 0, .ro, 0, .none⟩, ⟨31, 31, .ro, 0, .none⟩]⟩,
  ⟨"HP_WIN_TX", 0x3d004, 8, 64, .glob, [⟨20, 0, .ro, 0, .none⟩, ⟨31, 31, .ro, 0, .none⟩]⟩,
  ⟨"PWR_DOMAIN_A", 0x40000, 0, 1, .glob, [⟨31, 0, .ro, 42, .none⟩]⟩,
  ⟨"PWR_DOMAIN_B", 0x40004, 0, 1, .glob, [⟨31, 0, .ro, 0, .none⟩]⟩,
  ⟨"PWR_CH_STATE", 0x40008, 0, 1, .glob, [⟨7, 0, .ro, 0, .none⟩, ⟨8, 8, .ro, 0, .none⟩]⟩,
  ⟨"PWR_WAKE_CTRL", 0x40020, 0, 1, .glob, [⟨0, 0, .rw, 1, .live⟩, ⟨1, 1, .rw, 1, .live⟩, ⟨2, 2, .rw, 0, .live⟩, ⟨8, 8, .rw, 0, .live⟩, ⟨9, 9, .wo, 0, .live⟩]⟩,
  ⟨"PWR_WAKE_TIMER", 0x40024, 0, 1, .glob, [⟨31, 0, .rw, 0xe10, .live⟩]⟩,
  ⟨"PWR_ACCT_A", 0x40028, 0, 1, .glob, [⟨15, 0, .ro, 0, .none⟩, ⟨23, 16, .ro, 0, .none⟩, ⟨27, 24, .ro, 0, .none⟩, ⟨28, 28, .ro, 0, .none⟩]⟩,
  ⟨"PWR_ACCT_B", 0x4002c, 0, 1, .glob, [⟨31, 0, .ro, 0, .none⟩]⟩,
  ⟨"PWR_ACCT_C", 0x40030, 0, 1, .glob, [⟨31, 0, .ro, 0, .none⟩]⟩,
  ⟨"PWR_ACCT_CNT", 0x40034, 4, 4, .glob, [⟨7, 0, .ro, 0, .none⟩, ⟨15, 8, .ro, 0, .none⟩, ⟨23, 16, .ro, 0, .none⟩, ⟨31, 24, .ro, 0, .none⟩]⟩,
  ⟨"PWR_RET_STATUS", 0x40044, 0, 1, .glob, [⟨15, 0, .ro, 0, .none⟩, ⟨16, 16, .ro, 0, .none⟩]⟩,
  ⟨"PWR_RET_SEAL", 0x40060, 4, 8, .glob, [⟨31, 0, .ro, 0, .none⟩]⟩,
  ⟨"PWR_AVS_CTRL", 0x40100, 0, 1, .glob, [⟨0, 0, .rw, 0, .live⟩, ⟨1, 1, .rw, 0, .live⟩]⟩,
  ⟨"PWR_AVS_STATUS", 0x40104, 0, 1, .glob, [⟨7, 0, .ro, 16, .none⟩, ⟨23, 8, .ro, 0, .none⟩, ⟨24, 24, .rw1c, 0, .none⟩, ⟨25, 25, .ro, 0, .none⟩]⟩,
  ⟨"PWR_THERM", 0x40110, 0, 1, .glob, [⟨7, 0, .rw, 100, .live⟩, ⟨8, 8, .rw1c, 0, .none⟩, ⟨9, 9, .rw1c, 0, .none⟩, ⟨31, 16, .ro, 0, .none⟩]⟩,
  ⟨"PWR_SHUTDOWN_CAUSE", 0x40114, 0, 1, .glob, [⟨3, 0, .rc, 0, .none⟩]⟩,
  ⟨"TIM_CTRL", 0x50000, 0, 1, .glob, [⟨2, 0, .rw, 0, .live⟩, ⟨6, 4, .rw, 0, .live⟩, ⟨8, 8, .rw, 1, .live⟩, ⟨9, 9, .rw, 1, .live⟩, ⟨15, 12, .rw, 11, .live⟩, ⟨25, 16, .rw, 100, .live⟩]⟩,
  ⟨"TIM_HO", 0x50004, 0, 1, .glob, [⟨9, 0, .rw, 100, .live⟩]⟩]

/-- Register table, part 3: TIM_OSC_CAL to MON_SAT_LO. -/
def regTable3 : List RegSpec :=
  [⟨"TIM_OSC_CAL", 0x50008, 0, 1, .glob, [⟨27, 0, .rw, 0, .live⟩]⟩,
  ⟨"TIM_STEER", 0x5000c, 0, 1, .glob, [⟨27, 0, .rw, 0, .live⟩]⟩,
  ⟨"TIM_IN_CFG", 0x50020, 4, 8, .glob, [⟨3, 0, .rw, 0, .live⟩, ⟨7, 4, .rw, 11, .live⟩, ⟨8, 8, .rw, 0, .live⟩, ⟨9, 9, .rw, 1, .live⟩, ⟨19, 10, .rw, 0x12c, .live⟩]⟩,
  ⟨"TIM_IN_FREQ", 0x50040, 4, 8, .glob, [⟨29, 0, .rw, 0, .live⟩]⟩,
  ⟨"TIM_IN_LIM", 0x50060, 4, 8, .glob, [⟨15, 0, .rw, 0x258, .live⟩, ⟨31, 16, .rw, 0x320, .live⟩]⟩,
  ⟨"TIM_PPS", 0x50080, 0, 1, .glob, [⟨1, 0, .rw, 0, .live⟩, ⟨4, 4, .rw, 0, .live⟩, ⟨10, 8, .rw, 0, .live⟩, ⟨31, 16, .rw, 100, .live⟩]⟩,
  ⟨"TIM_PPS_OFS", 0x50084, 0, 1, .glob, [⟨29, 0, .rw, 0, .live⟩]⟩,
  ⟨"TIM_PPS_FRAC", 0x50088, 0, 1, .glob, [⟨2, 0, .rw, 0, .live⟩]⟩,
  ⟨"TIM_CLKOUT", 0x50090, 4, 2, .glob, [⟨29, 0, .rw, 0, .live⟩, ⟨31, 31, .rw, 0, .live⟩]⟩,
  ⟨"TIM_STATUS", 0x500a0, 0, 1, .glob, [⟨2, 0, .ro, 0, .none⟩, ⟨6, 4, .ro, 0, .none⟩, ⟨7, 7, .ro, 0, .none⟩, ⟨8, 8, .ro, 0, .none⟩, ⟨9, 9, .ro, 0, .none⟩, ⟨10, 10, .ro, 0, .none⟩, ⟨11, 11, .ro, 0, .none⟩, ⟨12, 12, .ro, 0, .none⟩, ⟨19, 16, .ro, 0, .none⟩, ⟨23, 20, .ro, 11, .none⟩]⟩,
  ⟨"TIM_FREQ", 0x500a4, 0, 1, .glob, [⟨27, 0, .ro, 0, .none⟩]⟩,
  ⟨"TIM_HO_FREQ", 0x500a8, 0, 1, .glob, [⟨27, 0, .ro, 0, .none⟩]⟩,
  ⟨"TIM_IN_STATUS", 0x500c0, 4, 8, .glob, [⟨0, 0, .ro, 0, .none⟩, ⟨1, 1, .ro, 1, .none⟩, ⟨2, 2, .ro, 0, .none⟩, ⟨3, 3, .ro, 0, .none⟩, ⟨4, 4, .ro, 0, .none⟩, ⟨5, 5, .ro, 0, .none⟩, ⟨6, 6, .ro, 1, .none⟩, ⟨11, 8, .ro, 0, .none⟩, ⟨21, 12, .ro, 0, .none⟩]⟩,
  ⟨"TIM_IN_OFFS", 0x500e0, 4, 8, .glob, [⟨31, 0, .ro, 0, .none⟩]⟩,
  ⟨"TIM_TOD_LO", 0x50100, 0, 1, .glob, [⟨31, 0, .rl, 0, .none⟩]⟩,
  ⟨"TIM_TOD_HI", 0x50104, 0, 1, .glob, [⟨1, 0, .ro, 0, .none⟩]⟩,
  ⟨"TIM_TOD_NS", 0x50108, 0, 1, .glob, [⟨29, 0, .ro, 0, .none⟩]⟩,
  ⟨"MON_CTRL", 0x60000, 0, 1, .glob, [⟨0, 0, .wo, 0, .live⟩]⟩,
  ⟨"MON_STATUS", 0x60004, 0, 1, .glob, [⟨10, 0, .ro, 0, .none⟩, ⟨11, 11, .rw1c, 0, .none⟩, ⟨12, 12, .ro, 0, .none⟩, ⟨13, 13, .ro, 0, .none⟩]⟩,
  ⟨"MON_SAT_LO", 0x60008, 0, 1, .glob, [⟨31, 0, .rw1c, 0, .none⟩]⟩]

/-- Register table, part 4: MON_SAT_HI to ENG_PWR_A. -/
def regTable4 : List RegSpec :=
  [⟨"MON_SAT_HI", 0x6000c, 0, 1, .glob, [⟨31, 0, .rw1c, 0, .none⟩]⟩,
  ⟨"MON_Q0", 0x60010, 0, 1, .glob, [⟨31, 0, .rl, 0, .none⟩]⟩,
  ⟨"MON_Q1", 0x60014, 0, 1, .glob, [⟨31, 0, .ro, 0, .none⟩]⟩,
  ⟨"MON_Q2", 0x60018, 0, 1, .glob, [⟨19, 0, .ro, 0, .none⟩, ⟨25, 20, .ro, 0, .none⟩, ⟨26, 26, .ro, 0, .none⟩, ⟨27, 27, .ro, 0, .none⟩, ⟨28, 28, .ro, 0, .none⟩]⟩,
  ⟨"MON_Q3", 0x6001c, 0, 1, .glob, [⟨15, 0, .ro, 0, .none⟩]⟩,
  ⟨"MON_SEQ", 0x60100, 4, 16, .glob, [⟨5, 0, .rw, 0, .live⟩, ⟨7, 7, .rw, 0, .live⟩, ⟨13, 8, .rw, 1, .live⟩, ⟨15, 15, .rw, 0, .live⟩, ⟨21, 16, .rw, 2, .live⟩, ⟨23, 23, .rw, 0, .live⟩, ⟨29, 24, .rw, 3, .live⟩, ⟨31, 31, .rw, 0, .live⟩]⟩,
  ⟨"MON_IN_CFG", 0x60200, 4, 64, .glob, [⟨1, 0, .rw, 2, .live⟩, ⟨10, 2, .rw, 16, .live⟩, ⟨20, 11, .rw, 0, .live⟩, ⟨21, 21, .rw, 0, .live⟩, ⟨22, 22, .rw, 0, .live⟩, ⟨24, 23, .rw, 0, .live⟩, ⟨25, 25, .rw, 0, .live⟩]⟩,
  ⟨"MON_IN_NOTCH", 0x60300, 4, 64, .glob, [⟨15, 0, .rw, 0x3e8, .live⟩]⟩,
  ⟨"MON_IN_LAST", 0x60400, 4, 64, .glob, [⟨19, 0, .ro, 0, .none⟩, ⟨20, 20, .ro, 0, .none⟩, ⟨21, 21, .ro, 0, .none⟩, ⟨22, 22, .ro, 0, .none⟩, ⟨23, 23, .ro, 0, .none⟩, ⟨24, 24, .ro, 0, .none⟩]⟩,
  ⟨"MON_IN_GD", 0x60500, 4, 64, .glob, [⟨23, 0, .ro, 0, .none⟩]⟩,
  ⟨"MON_IN_SETTLE", 0x60600, 4, 64, .glob, [⟨23, 0, .ro, 0, .none⟩]⟩,
  ⟨"MEM_STATUS", 0x70000, 0, 1, .glob, [⟨0, 0, .ro, 0, .none⟩, ⟨1, 1, .ro, 0, .none⟩, ⟨2, 2, .ro, 0, .none⟩, ⟨3, 3, .ro, 0, .none⟩, ⟨7, 4, .ro, 0, .none⟩, ⟨24, 16, .ro, 0, .none⟩]⟩,
  ⟨"MEM_SCRUB", 0x70004, 0, 1, .glob, [⟨0, 0, .rw, 1, .live⟩, ⟨1, 1, .rw, 1, .live⟩]⟩,
  ⟨"MEM_FAR_SLOTS", 0x70008, 0, 1, .glob, [⟨16, 0, .ro, 0, .none⟩]⟩,
  ⟨"MEM_FLIP", 0x70010, 0, 1, .glob, [⟨15, 0, .rw, 0, .live⟩, ⟨19, 16, .rw, 0, .live⟩, ⟨20, 20, .rw, 0, .live⟩, ⟨23, 21, .rw, 0, .live⟩, ⟨31, 31, .rw, 0, .live⟩]⟩,
  ⟨"MEM_SFLIP", 0x70014, 0, 1, .glob, [⟨6, 0, .rw, 0, .live⟩, ⟨14, 8, .rw, 0, .live⟩, ⟨15, 15, .rw, 0, .live⟩, ⟨19, 16, .rw, 0, .live⟩, ⟨31, 31, .rw, 0, .live⟩]⟩,
  ⟨"ENG_CTRL", 0x1000, 0, 1, .chan, [⟨10, 0, .rw, 0x7b0, .live⟩, ⟨20, 16, .rw, 26, .live⟩, ⟨21, 21, .rw, 0, .live⟩, ⟨22, 22, .rw, 0, .live⟩]⟩,
  ⟨"ENG_FEED", 0x1004, 0, 1, .chan, [⟨17, 0, .rw, 0x2f24c, .live⟩]⟩,
  ⟨"ENG_STATUS", 0x1008, 0, 1, .chan, [⟨0, 0, .ro, 0, .none⟩, ⟨1, 1, .ro, 0, .none⟩, ⟨2, 2, .ro, 0, .none⟩, ⟨3, 3, .ro, 0, .none⟩, ⟨4, 4, .ro, 0, .none⟩, ⟨5, 5, .rw1c, 0, .none⟩, ⟨6, 6, .ro, 1, .none⟩, ⟨7, 7, .ro, 1, .none⟩, ⟨23, 16, .ro, 0, .none⟩]⟩,
  ⟨"ENG_PWR_A", 0x100c, 0, 1, .chan, [⟨15, 0, .ro, 0x8000, .none⟩, ⟨31, 16, .ro, 0x8000, .none⟩]⟩]

/-- Register table, part 5: ENG_PWR_B to FEC_STATUS. -/
def regTable5 : List RegSpec :=
  [⟨"ENG_PWR_B", 0x1010, 0, 1, .chan, [⟨15, 0, .ro, 0x8000, .none⟩]⟩,
  ⟨"CONV_CTRL", 0x2000, 0, 1, .chan, [⟨6, 0, .rw, 64, .cue⟩, ⟨14, 8, .rw, 64, .cue⟩, ⟨22, 16, .rw, 64, .cue⟩, ⟨30, 24, .rw, 64, .cue⟩]⟩,
  ⟨"CONV_CAL", 0x2004, 0, 1, .chan, [⟨0, 0, .rw, 1, .live⟩]⟩,
  ⟨"CONV_STATUS", 0x2010, 4, 8, .chan, [⟨6, 0, .ro, 64, .none⟩, ⟨7, 7, .ro, 0, .none⟩, ⟨13, 8, .ro, 0, .none⟩, ⟨14, 14, .ro, 0, .none⟩, ⟨15, 15, .ro, 0, .none⟩, ⟨16, 16, .ro, 0, .none⟩, ⟨31, 24, .ro, 0, .none⟩]⟩,
  ⟨"CONV_ADJ", 0x3000, 4, 260, .chan, [⟨7, 0, .rw, 0, .cue⟩, ⟨15, 8, .rw, 0, .cue⟩, ⟨23, 16, .rw, 0, .cue⟩]⟩,
  ⟨"LINE_MODE", 0x4000, 0, 1, .chan, [⟨5, 0, .rw, 32, .cue⟩, ⟨12, 8, .rw, 16, .cue⟩, ⟨13, 13, .rw, 1, .cue⟩, ⟨25, 16, .rw, 0x232, .cue⟩, ⟨29, 28, .rw, 0, .cue⟩]⟩,
  ⟨"LINE_SHAPE", 0x4004, 0, 1, .chan, [⟨4, 0, .rw, 5, .cue⟩, ⟨8, 8, .rw, 0, .cue⟩]⟩,
  ⟨"LINE_PREEMPH", 0x4010, 4, 4, .chan, [⟨7, 0, .rw, 0, .cue⟩, ⟨15, 8, .rw, 0, .cue⟩, ⟨23, 16, .rw, 0, .cue⟩, ⟨31, 24, .rw, 0, .cue⟩]⟩,
  ⟨"LINE_MASK", 0x4020, 4, 4, .chan, [⟨7, 0, .rw, 60, .cue⟩, ⟨15, 8, .rw, 60, .cue⟩, ⟨23, 16, .rw, 60, .cue⟩, ⟨31, 24, .rw, 60, .cue⟩]⟩,
  ⟨"LINE_TX_SKEW", 0x4030, 0, 1, .chan, [⟨7, 0, .rw, 0, .cue⟩, ⟨15, 8, .rw, 0, .cue⟩, ⟨23, 16, .rw, 0, .cue⟩, ⟨31, 24, .rw, 0, .cue⟩]⟩,
  ⟨"LINE_RX_CTRL", 0x4040, 0, 1, .chan, [⟨15, 0, .rw, 0, .live⟩, ⟨16, 16, .rw, 0, .live⟩, ⟨17, 17, .rw, 1, .live⟩, ⟨31, 31, .wo, 0, .live⟩]⟩,
  ⟨"LINE_RX_STATUS", 0x4050, 0, 1, .chan, [⟨3, 0, .ro, 0, .none⟩, ⟨4, 4, .ro, 0, .none⟩, ⟨5, 5, .ro, 0, .none⟩, ⟨6, 6, .ro, 0, .none⟩, ⟨7, 7, .rw1c, 0, .none⟩, ⟨8, 8, .ro, 0, .none⟩, ⟨31, 24, .ro, 0, .none⟩]⟩,
  ⟨"LINE_RX_EST0", 0x4054, 0, 1, .chan, [⟨15, 0, .ro, 0, .none⟩, ⟨23, 16, .ro, 0, .none⟩]⟩,
  ⟨"LINE_RX_EST1", 0x4058, 0, 1, .chan, [⟨15, 0, .ro, 0, .none⟩, ⟨31, 16, .ro, 0, .none⟩]⟩,
  ⟨"LINE_SC_SNR", 0x4060, 4, 8, .chan, [⟨15, 0, .ro, 0, .none⟩, ⟨31, 16, .ro, 0, .none⟩]⟩,
  ⟨"LINE_PREDIST", 0x4400, 4, 1024, .chan, [⟨11, 0, .rw, 0, .cue⟩]⟩,
  ⟨"FEC_CTRL", 0x6000, 0, 1, .chan, [⟨0, 0, .rw, 0, .cue⟩, ⟨8, 4, .rw, 12, .live⟩]⟩,
  ⟨"FEC_SD", 0x6004, 0, 1, .chan, [⟨3, 0, .rw, 2, .live⟩, ⟨7, 4, .rw, 2, .live⟩, ⟨15, 8, .rw, 10, .live⟩, ⟨23, 16, .rw, 10, .live⟩]⟩,
  ⟨"FEC_UNC", 0x6008, 0, 1, .chan, [⟨15, 0, .rw, 1, .live⟩, ⟨23, 16, .rw, 10, .live⟩]⟩,
  ⟨"FEC_STATUS", 0x600c, 0, 1, .chan, [⟨0, 0, .ro, 0, .none⟩, ⟨1, 1, .ro, 0, .none⟩, ⟨2, 2, .ro, 0, .none⟩, ⟨3, 3, .ro, 0, .none⟩, ⟨8, 8, .rw1c, 0, .none⟩, ⟨9, 9, .rw1c, 0, .none⟩, ⟨31, 16, .ro, 0xffff, .none⟩]⟩]

/-- Register table, part 6: FEC_TEST to SLOT_MAP. -/
def regTable6 : List RegSpec :=
  [⟨"FEC_TEST", 0x6010, 0, 1, .chan, [⟨0, 0, .rw, 0, .live⟩, ⟨31, 16, .rw, 200, .live⟩]⟩,
  ⟨"OH_CTRL", 0x7000, 0, 1, .chan, [⟨7, 0, .rw, 1, .live⟩, ⟨8, 8, .rw, 0, .live⟩]⟩,
  ⟨"OH_RX_STATUS", 0x7004, 0, 1, .chan, [⟨10, 0, .ro, 15, .none⟩, ⟨11, 11, .ro, 0, .none⟩, ⟨12, 12, .ro, 0, .none⟩, ⟨13, 13, .ro, 0, .none⟩, ⟨26, 16, .rw1c, 0, .none⟩]⟩,
  ⟨"OH_RX_FN_LO", 0x7008, 0, 1, .chan, [⟨31, 0, .rl, 0, .none⟩]⟩,
  ⟨"OH_RX_FN_HI", 0x700c, 0, 1, .chan, [⟨15, 0, .ro, 0, .none⟩]⟩,
  ⟨"OH_TX_FN_LO", 0x7010, 0, 1, .chan, [⟨31, 0, .rl, 0, .none⟩]⟩,
  ⟨"OH_TX_FN_HI", 0x7014, 0, 1, .chan, [⟨15, 0, .ro, 0, .none⟩]⟩,
  ⟨"OH_RX_SR", 0x7018, 0, 1, .chan, [⟨31, 0, .ro, 0, .none⟩]⟩,
  ⟨"OH_RX_ACC", 0x701c, 0, 1, .chan, [⟨7, 0, .ro, 0, .none⟩, ⟨11, 8, .ro, 0, .none⟩, ⟨23, 16, .ro, 0, .none⟩]⟩,
  ⟨"HUB_CTRL", 0x8000, 0, 1, .chan, [⟨1, 0, .rw, 0, .cue⟩]⟩,
  ⟨"HUB_SD", 0x8004, 0, 1, .chan, [⟨3, 0, .rw, 15, .cue⟩, ⟨4, 4, .rw, 1, .cue⟩, ⟨14, 8, .rw, 2, .cue⟩, ⟨26, 16, .rw, 0x7a8, .cue⟩]⟩,
  ⟨"HUB_SD_PERIOD", 0x8008, 0, 1, .chan, [⟨9, 0, .rw, 1, .cue⟩]⟩,
  ⟨"HUB_PLAYOUT", 0x800c, 0, 1, .chan, [⟨10, 0, .rw, 0x190, .cue⟩]⟩,
  ⟨"HUB_ROGUE", 0x8010, 0, 1, .chan, [⟨15, 0, .rw, 0, .live⟩]⟩,
  ⟨"HUB_STATUS", 0x8014, 0, 1, .chan, [⟨0, 0, .ro, 1, .none⟩, ⟨1, 1, .ro, 0, .none⟩, ⟨2, 2, .ro, 0, .none⟩, ⟨3, 3, .rw1c, 0, .none⟩, ⟨26, 16, .ro, 0, .none⟩]⟩,
  ⟨"HUB_CYCLE", 0x8018, 0, 1, .chan, [⟨31, 0, .ro, 0, .none⟩]⟩,
  ⟨"LEAF_CTRL", 0x8020, 0, 1, .chan, [⟨23, 0, .rw, 0, .live⟩, ⟨27, 24, .rw, 15, .live⟩, ⟨28, 28, .rw, 1, .live⟩]⟩,
  ⟨"LEAF_STATUS", 0x8024, 0, 1, .chan, [⟨2, 0, .ro, 0, .none⟩, ⟨13, 4, .ro, 0, .none⟩, ⟨31, 16, .ro, 0, .none⟩]⟩,
  ⟨"LEAF_RTD", 0x8028, 0, 1, .chan, [⟨23, 0, .ro, 0, .none⟩]⟩,
  ⟨"SLOT_MAP", 0xa000, 4, 256, .chan, [⟨8, 0, .rw, 0, .cue⟩, ⟨15, 15, .rw, 0, .cue⟩, ⟨24, 16, .rw, 0, .cue⟩, ⟨31, 31, .rw, 0, .cue⟩]⟩]

/-- Register table, part 7: CLIENT to MRG_SEEN. -/
def regTable7 : List RegSpec :=
  [⟨"CLIENT", 0xa400, 4, 512, .chan, [⟨2, 0, .rw, 0, .cue⟩, ⟨31, 16, .rw, 0, .cue⟩]⟩,
  ⟨"XBAR_CLIENT", 0xb000, 4, 512, .chan, [⟨5, 0, .rw, 0, .cue⟩, ⟨7, 7, .rw, 0, .cue⟩, ⟨17, 8, .rw, 0, .cue⟩, ⟨27, 18, .rw, 0, .cue⟩]⟩,
  ⟨"TST_LOOP", 0xc000, 0, 1, .chan, [⟨2, 0, .ro, 0, .none⟩, ⟨12, 8, .ro, 0, .none⟩]⟩,
  ⟨"TST_PAT", 0xc004, 0, 1, .chan, [⟨0, 0, .ro, 0, .none⟩, ⟨1, 1, .ro, 0, .none⟩, ⟨2, 2, .ro, 0, .none⟩]⟩,
  ⟨"TST_PAT_ERR", 0xc008, 0, 1, .chan, [⟨31, 0, .rc, 0, .none⟩]⟩,
  ⟨"GRANT_A", 0x10000, 8, 4096, .chan, [⟨10, 0, .rw, 0, .cue⟩, ⟨26, 16, .rw, 0, .cue⟩, ⟨31, 28, .rw, 0, .cue⟩]⟩,
  ⟨"GRANT_B", 0x10004, 8, 4096, .chan, [⟨9, 0, .rw, 0, .cue⟩, ⟨16, 16, .rw, 0, .cue⟩]⟩,
  ⟨"LEAF_W0", 0x20000, 64, 1024, .chan, [⟨0, 0, .rw, 0, .cue⟩, ⟨2, 1, .ro, 0, .none⟩, ⟨31, 16, .rw, 0, .cue⟩]⟩,
  ⟨"LEAF_W1", 0x20004, 64, 1024, .chan, [⟨23, 0, .ro, 0, .none⟩]⟩,
  ⟨"LEAF_W2", 0x20008, 64, 1024, .chan, [⟨15, 0, .rw, 0, .cue⟩, ⟨31, 16, .ro, 0, .none⟩]⟩,
  ⟨"LEAF_W3", 0x2000c, 64, 1024, .chan, [⟨7, 0, .rw, 200, .cue⟩, ⟨31, 16, .rw, 0, .cue⟩]⟩,
  ⟨"LEAF_W4", 0x20010, 64, 1024, .chan, [⟨15, 0, .ro, 0, .none⟩, ⟨31, 16, .ro, 0, .none⟩]⟩,
  ⟨"LEAF_W5", 0x20014, 64, 1024, .chan, [⟨15, 0, .ro, 0, .none⟩, ⟨31, 16, .ro, 0, .none⟩]⟩,
  ⟨"LEAF_W6", 0x20018, 64, 1024, .chan, [⟨15, 0, .ro, 0, .none⟩, ⟨31, 16, .ro, 0, .none⟩]⟩,
  ⟨"LEAF_W7", 0x2001c, 64, 1024, .chan, [⟨31, 0, .ro, 0, .none⟩]⟩,
  ⟨"LEAF_W8", 0x20020, 64, 1024, .chan, [⟨31, 0, .ro, 0, .none⟩]⟩,
  ⟨"MRG_CFG", 0x200000, 256, 2, .glob, [⟨0, 0, .rw, 0, .cue⟩, ⟨1, 1, .rw, 0, .cue⟩, ⟨3, 2, .rw, 0, .cue⟩, ⟨5, 4, .rw, 0, .cue⟩, ⟨6, 6, .rw, 0, .cue⟩, ⟨7, 7, .rw, 1, .cue⟩, ⟨15, 8, .rw, 32, .cue⟩, ⟨25, 16, .rw, 0x12c, .cue⟩]⟩,
  ⟨"MRG_OPREQ", 0x200004, 256, 2, .glob, [⟨3, 0, .rw, 0, .live⟩]⟩,
  ⟨"MRG_STATUS", 0x200008, 256, 2, .glob, [⟨2, 0, .ro, 0, .none⟩, ⟨4, 3, .ro, 0, .none⟩, ⟨6, 5, .ro, 0, .none⟩, ⟨7, 7, .ro, 0, .none⟩, ⟨8, 8, .ro, 0, .none⟩, ⟨12, 9, .ro, 0, .none⟩, ⟨13, 13, .ro, 0, .none⟩, ⟨14, 14, .ro, 0, .none⟩, ⟨15, 15, .ro, 0, .none⟩, ⟨16, 16, .ro, 0, .none⟩, ⟨17, 17, .ro, 0, .none⟩, ⟨18, 18, .ro, 0, .none⟩, ⟨19, 19, .ro, 0, .none⟩, ⟨20, 20, .ro, 0, .none⟩, ⟨21, 21, .ro, 0, .none⟩]⟩,
  ⟨"MRG_SEEN", 0x20000c, 256, 2, .glob, [⟨0, 0, .rw1c, 0, .none⟩, ⟨1, 1, .rw1c, 0, .none⟩, ⟨2, 2, .rw1c, 0, .none⟩, ⟨3, 3, .rw1c, 0, .none⟩, ⟨4, 4, .rw1c, 0, .none⟩]⟩]

/-- Register table, part 8: MRG_DTRACK to HGC_TX_END. -/
def regTable8 : List RegSpec :=
  [⟨"MRG_DTRACK", 0x200010, 256, 2, .glob, [⟨31, 0, .ro, 0, .none⟩]⟩,
  ⟨"MRG_DMEAS", 0x200014, 256, 2, .glob, [⟨31, 0, .ro, 0, .none⟩]⟩,
  ⟨"MRG_OCC", 0x200018, 256, 2, .glob, [⟨16, 0, .ro, 0, .none⟩]⟩,
  ⟨"MRG_OCC_MAX", 0x20001c, 256, 2, .glob, [⟨16, 0, .rc, 0, .none⟩]⟩,
  ⟨"MRG_SR_TX", 0x200020, 256, 2, .glob, [⟨31, 0, .ro, 0, .none⟩]⟩,
  ⟨"MRG_SR_RX", 0x200024, 256, 2, .glob, [⟨31, 0, .ro, 0, .none⟩]⟩,
  ⟨"MRG_WTR_LEFT", 0x200028, 256, 2, .glob, [⟨9, 0, .ro, 0, .none⟩]⟩,
  ⟨"MRG_GLOBAL", 0x200800, 0, 1, .glob, [⟨0, 0, .ro, 0, .none⟩, ⟨1, 1, .ro, 0, .none⟩, ⟨2, 2, .ro, 0, .none⟩]⟩,
  ⟨"CPH_CTRL", 0x210000, 0, 1, .glob, [⟨0, 0, .rw, 0, .live⟩, ⟨1, 1, .rw, 0, .live⟩, ⟨15, 8, .rw, 2, .live⟩]⟩,
  ⟨"CPH_STATUS", 0x210004, 0, 1, .glob, [⟨7, 0, .ro, 0, .none⟩, ⟨12, 8, .ro, 0, .none⟩, ⟨23, 16, .ro, 0, .none⟩, ⟨24, 24, .ro, 0, .none⟩, ⟨25, 25, .ro, 0, .none⟩, ⟨26, 26, .rw1c, 0, .none⟩]⟩,
  ⟨"CPH_LOAD", 0x210008, 0, 1, .glob, [⟨15, 0, .ro, 0, .none⟩, ⟨31, 16, .ro, 0, .none⟩]⟩,
  ⟨"CPH_CORE", 0x210010, 4, 9, .glob, [⟨31, 0, .ro, 0, .none⟩]⟩,
  ⟨"CPH_CTX_A", 0x220000, 8, 16384, .glob, [⟨2, 0, .ro, 0, .none⟩, ⟨3, 3, .ro, 0, .none⟩, ⟨5, 4, .ro, 0, .none⟩, ⟨6, 6, .ro, 0, .none⟩, ⟨31, 16, .ro, 0, .none⟩]⟩,
  ⟨"CPH_CTX_B", 0x220004, 8, 16384, .glob, [⟨31, 0, .ro, 0, .none⟩]⟩,
  ⟨"HL_CFG", 0x300000, 4, 64, .glob, [⟨2, 0, .rw, 6, .dark⟩, ⟨3, 3, .rw, 0, .dark⟩, ⟨4, 4, .rw, 1, .dark⟩, ⟨5, 5, .rw, 0, .dark⟩, ⟨6, 6, .rw, 0, .dark⟩]⟩,
  ⟨"HL_STATUS", 0x300100, 4, 64, .glob, [⟨2, 0, .ro, 0, .none⟩, ⟨3, 3, .ro, 0, .none⟩, ⟨4, 4, .ro, 1, .none⟩, ⟨5, 5, .ro, 0, .none⟩, ⟨15, 8, .ro, 0, .none⟩, ⟨23, 16, .ro, 0, .none⟩, ⟨31, 24, .ro, 0, .none⟩]⟩,
  ⟨"HP_STATUS", 0x300200, 4, 64, .glob, [⟨0, 0, .ro, 0, .none⟩, ⟨1, 1, .ro, 0, .none⟩, ⟨2, 2, .ro, 0, .none⟩, ⟨3, 3, .ro, 0, .none⟩, ⟨4, 4, .ro, 0, .none⟩, ⟨5, 5, .ro, 0, .none⟩, ⟨15, 8, .rw1c, 0, .none⟩, ⟨23, 16, .ro, 0, .none⟩]⟩,
  ⟨"HL_LOOP", 0x300300, 4, 64, .glob, [⟨1, 0, .ro, 0, .none⟩]⟩,
  ⟨"HGC_TX_DATA", 0x301000, 64, 4, .glob, [⟨31, 0, .wo, 0, .live⟩]⟩,
  ⟨"HGC_TX_END", 0x301004, 64, 4, .glob, [⟨31, 0, .wo, 0, .live⟩]⟩]

/-- Register table, part 9: HGC_TX_STATUS to MSIX_PBA. -/
def regTable9 : List RegSpec :=
  [⟨"HGC_TX_STATUS", 0x301008, 64, 4, .glob, [⟨13, 0, .ro, 0, .none⟩, ⟨18, 16, .ro, 0, .none⟩, ⟨24, 24, .rw1c, 0, .none⟩, ⟨25, 25, .ro, 0, .none⟩]⟩,
  ⟨"HGC_TX_CTRL", 0x30100c, 64, 4, .glob, [⟨0, 0, .wo, 0, .live⟩]⟩,
  ⟨"HGC_RX_DATA", 0x301020, 64, 4, .glob, [⟨31, 0, .rl, 0, .none⟩]⟩,
  ⟨"HGC_RX_STATUS", 0x301024, 64, 4, .glob, [⟨11, 0, .ro, 0, .none⟩, ⟨12, 12, .ro, 0, .none⟩, ⟨13, 13, .rw1c, 0, .none⟩]⟩,
  ⟨"HGC_RX_CTRL", 0x301028, 64, 4, .glob, [⟨0, 0, .wo, 0, .live⟩, ⟨1, 1, .wo, 0, .live⟩, ⟨2, 2, .wo, 0, .live⟩]⟩,
  ⟨"MSIX_ADDR_LO", 0x2000, 16, 32, .perFn, [⟨31, 0, .rw, 0, .live⟩]⟩,
  ⟨"MSIX_ADDR_HI", 0x2004, 16, 32, .perFn, [⟨31, 0, .rw, 0, .live⟩]⟩,
  ⟨"MSIX_DATA", 0x2008, 16, 32, .perFn, [⟨31, 0, .rw, 0, .live⟩]⟩,
  ⟨"MSIX_CTRL", 0x200c, 16, 32, .perFn, [⟨0, 0, .rw, 1, .live⟩]⟩,
  ⟨"MSIX_PBA", 0x3000, 0, 1, .perFn, [⟨31, 0, .ro, 0, .none⟩]⟩]

/-- The whole register table, in the order of the map of R466. -/
def regTable : List RegSpec :=
  regTable0 ++ regTable1 ++ regTable2 ++ regTable3 ++ regTable4 ++ regTable5 ++ regTable6 ++ regTable7 ++ regTable8 ++ regTable9

/-- The index of an offset among a register's copies, if it is one of them. -/
def regIndex (r : RegSpec) (off : Nat) : Option Nat :=
  if off < r.base then none
  else if off = r.base then some 0
  else if r.stride = 0 then none
  else if (off - r.base) % r.stride = 0 && decide ((off - r.base) / r.stride < r.count) then some ((off - r.base) / r.stride)
  else none

/-- A register found at an offset: its table row, which channel or function, and which copy. -/
structure RegAt where
  spec : RegSpec
  unit : Nat
  idx : Nat
  deriving DecidableEq, Repr

/-- Find a register among rows of one scope, at an offset relative to its region. -/
def regFind (sc : Scope) (unit off : Nat) : List RegSpec → Option RegAt
  | [] => none
  | r :: rs =>
    if r.scope = sc then
      match regIndex r off with
      | some i => some ⟨r, unit, i⟩
      | none => regFind sc unit off rs
    else regFind sc unit off rs

/-- The register that a storage offset names: BAR0 offsets below 4 MiB for function 0, and the second function's
copies of its own registers above them. -/
def regAt (off : Nat) : Option RegAt :=
  if off < fnBase then
    if 0x100000 ≤ off && decide (off < 0x200000) then regFind .chan ((off - 0x100000) / 0x40000) ((off - 0x100000) % 0x40000) regTable
    else
      match regFind .glob 0 off regTable with
      | some r => some r
      | none => regFind .perFn 0 off regTable
  else regFind .perFn 1 (off - fnBase) regTable

/-- A word with the fields of a table row at their reset values. -/
def fieldsReset : List FieldSpec → Nat
  | [] => 0
  | f :: fs => f.reset % 2 ^ (f.hi + 1 - f.lo) * 2 ^ f.lo + fieldsReset fs

/-- Reset values that depend on the copy: the roles of R339 (heads at quad-local lanes 0 and 8), the default
crossbar entries of R339, the monitor sequence of R429 and the DAC status words of R134. -/
def resetByIndex (name : String) (i : Nat) : Option Nat :=
  if name = "HL_CFG" then some (if i % 8 = 0 then 0x15 else 0x16)
  else if name = "MON_SEQ" then some ((4 * i) + (4 * i + 1) * 256 + (4 * i + 2) * 65536 + (4 * i + 3) * 16777216)
  else if name = "CONV_STATUS" && decide (4 ≤ i) then some 0
  else none

/-- The reset value of a crossbar entry (R339): clients 0 and 1 of channel n on the heads of quad n. -/
def xbarReset (n c : Nat) : Nat :=
  if c = 0 then 16 * n + 0x80 else if c = 1 then 16 * n + 8 + 0x80 else 0

/-- The value a register word has at reset; a word no table defines reads as 0 (R464). -/
def resetWord (off : Nat) : Word :=
  match regAt off with
  | none => 0#32
  | some r =>
    if r.spec.name = "XBAR_CLIENT" then BitVec.ofNat 32 (xbarReset r.unit r.idx)
    else
      match resetByIndex r.spec.name r.idx with
      | some v => BitVec.ofNat 32 v
      | none => BitVec.ofNat 32 (fieldsReset r.spec.fields)

/-! ### Names of the registers and their fields -/

/-- `SYS_ID_PART` (R467). -/
abbrev rSYS_ID_PART : Nat := 0x0
abbrev fSYS_ID_PART_PART : Fld := ⟨rSYS_ID_PART, 0, 16⟩
abbrev fSYS_ID_PART_FAMILY : Fld := ⟨rSYS_ID_PART, 16, 16⟩
/-- `SYS_ID_REV` (R467). -/
abbrev rSYS_ID_REV : Nat := 0x4
abbrev fSYS_ID_REV_STEPPING : Fld := ⟨rSYS_ID_REV, 0, 8⟩
/-- `SYS_ID_SERIAL_LO` (R467). -/
abbrev rSYS_ID_SERIAL_LO : Nat := 0x8
abbrev fSYS_ID_SERIAL_LO_SERIAL_LO : Fld := ⟨rSYS_ID_SERIAL_LO, 0, 32⟩
/-- `SYS_ID_SERIAL_HI` (R467). -/
abbrev rSYS_ID_SERIAL_HI : Nat := 0xc
abbrev fSYS_ID_SERIAL_HI_SERIAL_HI : Fld := ⟨rSYS_ID_SERIAL_HI, 0, 32⟩
/-- `SYS_ID_FW` (R467). -/
abbrev rSYS_ID_FW : Nat := 0x10
abbrev fSYS_ID_FW_FW_VERSION : Fld := ⟨rSYS_ID_FW, 0, 32⟩
/-- `SYS_ID_NODE` (R467). -/
abbrev rSYS_ID_NODE : Nat := 0x14
abbrev fSYS_ID_NODE_NODE : Fld := ⟨rSYS_ID_NODE, 0, 13⟩
/-- `SYS_STATUS` (R468). -/
abbrev rSYS_STATUS : Nat := 0x20
abbrev fSYS_STATUS_READY : Fld := ⟨rSYS_STATUS, 0, 1⟩
abbrev fSYS_STATUS_HBM_READY : Fld := ⟨rSYS_STATUS, 1, 1⟩
abbrev fSYS_STATUS_TOD_VALID : Fld := ⟨rSYS_STATUS, 2, 1⟩
abbrev fSYS_STATUS_TIM_LOCKED : Fld := ⟨rSYS_STATUS, 3, 1⟩
abbrev fSYS_STATUS_ACQUIRED : Fld := ⟨rSYS_STATUS, 4, 4⟩
abbrev fSYS_STATUS_PROTECTED : Fld := ⟨rSYS_STATUS, 8, 2⟩
abbrev fSYS_STATUS_KEK_VALID : Fld := ⟨rSYS_STATUS, 10, 1⟩
abbrev fSYS_STATUS_AUTH_FAIL : Fld := ⟨rSYS_STATUS, 11, 1⟩
abbrev fSYS_STATUS_TX_BLOCKED : Fld := ⟨rSYS_STATUS, 12, 1⟩
abbrev fSYS_STATUS_RECEPTACLE : Fld := ⟨rSYS_STATUS, 13, 1⟩
/-- `SYS_BOOT_STATUS` (R77). -/
abbrev rSYS_BOOT_STATUS : Nat := 0x40
abbrev fSYS_BOOT_STATUS_STAGE : Fld := ⟨rSYS_BOOT_STATUS, 0, 4⟩
abbrev fSYS_BOOT_STATUS_SLOT : Fld := ⟨rSYS_BOOT_STATUS, 4, 1⟩
abbrev fSYS_BOOT_STATUS_SOURCE : Fld := ⟨rSYS_BOOT_STATUS, 5, 1⟩
abbrev fSYS_BOOT_STATUS_HBM_FAIL : Fld := ⟨rSYS_BOOT_STATUS, 6, 1⟩
abbrev fSYS_BOOT_STATUS_ERR : Fld := ⟨rSYS_BOOT_STATUS, 8, 8⟩
abbrev fSYS_BOOT_STATUS_FUSED_SVN : Fld := ⟨rSYS_BOOT_STATUS, 16, 8⟩
abbrev fSYS_BOOT_STATUS_IMAGE_SVN : Fld := ⟨rSYS_BOOT_STATUS, 24, 8⟩
/-- `SYS_RESET_CAUSE` (R77). -/
abbrev rSYS_RESET_CAUSE : Nat := 0x44
abbrev fSYS_RESET_CAUSE_KIND : Fld := ⟨rSYS_RESET_CAUSE, 0, 4⟩
abbrev fSYS_RESET_CAUSE_SINCE_POWER_ON : Fld := ⟨rSYS_RESET_CAUSE, 16, 16⟩
/-- `SYS_BOOT_CTRL` (R77). -/
abbrev rSYS_BOOT_CTRL : Nat := 0x48
abbrev fSYS_BOOT_CTRL_GO : Fld := ⟨rSYS_BOOT_CTRL, 0, 1⟩
/-- `SYS_DL_PAGE` (R77). -/
abbrev rSYS_DL_PAGE : Nat := 0x4c
abbrev fSYS_DL_PAGE_PAGE : Fld := ⟨rSYS_DL_PAGE, 0, 8⟩
/-- `SYS_CFG_ERR` (R101). -/
abbrev rSYS_CFG_ERR : Nat := 0x50
abbrev fSYS_CFG_ERR_DARK_WRITE : Fld := ⟨rSYS_CFG_ERR, 0, 1⟩
abbrev fSYS_CFG_ERR_NO_SESSION : Fld := ⟨rSYS_CFG_ERR, 1, 1⟩
abbrev fSYS_CFG_ERR_CLAIMED : Fld := ⟨rSYS_CFG_ERR, 2, 1⟩
/-- `SYS_CFG_ERR_ADDR` (R101). -/
abbrev rSYS_CFG_ERR_ADDR : Nat := 0x54
abbrev fSYS_CFG_ERR_ADDR_OFFSET : Fld := ⟨rSYS_CFG_ERR_ADDR, 0, 22⟩
/-- `SYS_ACCESS` (R101). -/
abbrev rSYS_ACCESS : Nat := 0x58
abbrev fSYS_ACCESS_OBS_COUNTERS : Fld := ⟨rSYS_ACCESS, 0, 1⟩
/-- `TST_STATUS` (R461). -/
abbrev rTST_STATUS : Nat := 0x60
abbrev fTST_STATUS_BIST_RUN : Fld := ⟨rTST_STATUS, 0, 1⟩
abbrev fTST_STATUS_SCOPE : Fld := ⟨rTST_STATUS, 1, 3⟩
abbrev fTST_STATUS_CAP_ARMED : Fld := ⟨rTST_STATUS, 4, 1⟩
abbrev fTST_STATUS_FUSES_LEFT : Fld := ⟨rTST_STATUS, 16, 9⟩
/-- `INT_STATUS` (R469). -/
abbrev rINT_STATUS (f : Nat) : Nat := 0x100 + fnBase * f
abbrev fINT_STATUS_MBX_RSP (f : Nat) : Fld := ⟨rINT_STATUS f, 0, 1⟩
abbrev fINT_STATUS_MBX_CREDIT (f : Nat) : Fld := ⟨rINT_STATUS f, 1, 1⟩
abbrev fINT_STATUS_CB (f : Nat) : Fld := ⟨rINT_STATUS f, 2, 1⟩
abbrev fINT_STATUS_THERM (f : Nat) : Fld := ⟨rINT_STATUS f, 3, 1⟩
abbrev fINT_STATUS_AVS (f : Nat) : Fld := ⟨rINT_STATUS f, 4, 1⟩
abbrev fINT_STATUS_CFG (f : Nat) : Fld := ⟨rINT_STATUS f, 5, 1⟩
abbrev fINT_STATUS_MON (f : Nat) : Fld := ⟨rINT_STATUS f, 6, 1⟩
abbrev fINT_STATUS_TIM (f : Nat) : Fld := ⟨rINT_STATUS f, 7, 1⟩
abbrev fINT_STATUS_CHn (f : Nat) : Fld := ⟨rINT_STATUS f, 8, 4⟩
abbrev fINT_STATUS_PAIRp (f : Nat) : Fld := ⟨rINT_STATUS f, 12, 2⟩
abbrev fINT_STATUS_CPH (f : Nat) : Fld := ⟨rINT_STATUS f, 14, 1⟩
abbrev fINT_STATUS_MEM (f : Nat) : Fld := ⟨rINT_STATUS f, 15, 1⟩
abbrev fINT_STATUS_HQq (f : Nat) : Fld := ⟨rINT_STATUS f, 16, 4⟩
abbrev fINT_STATUS_FAB (f : Nat) : Fld := ⟨rINT_STATUS f, 20, 1⟩
abbrev fINT_STATUS_HGC (f : Nat) : Fld := ⟨rINT_STATUS f, 21, 1⟩
/-- `INT_ENABLE` (R469). -/
abbrev rINT_ENABLE (f : Nat) : Nat := 0x104 + fnBase * f
abbrev fINT_ENABLE_EN (f : Nat) : Fld := ⟨rINT_ENABLE f, 0, 32⟩
/-- `INT_PIN_EN` (R469). -/
abbrev rINT_PIN_EN (f : Nat) : Nat := 0x108 + fnBase * f
abbrev fINT_PIN_EN_EN (f : Nat) : Fld := ⟨rINT_PIN_EN f, 0, 32⟩
/-- `INT_REARM` (R469). -/
abbrev rINT_REARM (f : Nat) : Nat := 0x10c + fnBase * f
abbrev fINT_REARM_REARM (f : Nat) : Fld := ⟨rINT_REARM f, 0, 32⟩
/-- `INT_VECTOR` (R469). -/
abbrev rINT_VECTOR (f i : Nat) : Nat := 0x110 + fnBase * f + 4 * i
abbrev fINT_VECTOR_VEC0 (f i : Nat) : Fld := ⟨rINT_VECTOR f i, 0, 5⟩
abbrev fINT_VECTOR_VEC1 (f i : Nat) : Fld := ⟨rINT_VECTOR f i, 8, 5⟩
abbrev fINT_VECTOR_VEC2 (f i : Nat) : Fld := ⟨rINT_VECTOR f i, 16, 5⟩
abbrev fINT_VECTOR_VEC3 (f i : Nat) : Fld := ⟨rINT_VECTOR f i, 24, 5⟩
/-- `MBX_REQ_DATA` (R106). -/
abbrev rMBX_REQ_DATA (f : Nat) : Nat := 0x10000 + fnBase * f
abbrev fMBX_REQ_DATA_WORD (f : Nat) : Fld := ⟨rMBX_REQ_DATA f, 0, 32⟩
/-- `MBX_REQ_END` (R106). -/
abbrev rMBX_REQ_END (f : Nat) : Nat := 0x10004 + fnBase * f
abbrev fMBX_REQ_END_WORD (f : Nat) : Fld := ⟨rMBX_REQ_END f, 0, 32⟩
/-- `MBX_REQ_STATUS` (R106). -/
abbrev rMBX_REQ_STATUS (f : Nat) : Nat := 0x10008 + fnBase * f
abbrev fMBX_REQ_STATUS_CREDIT (f : Nat) : Fld := ⟨rMBX_REQ_STATUS f, 0, 14⟩
abbrev fMBX_REQ_STATUS_OUTSTANDING (f : Nat) : Fld := ⟨rMBX_REQ_STATUS f, 16, 3⟩
abbrev fMBX_REQ_STATUS_OVERRUN (f : Nat) : Fld := ⟨rMBX_REQ_STATUS f, 24, 1⟩
abbrev fMBX_REQ_STATUS_OPEN (f : Nat) : Fld := ⟨rMBX_REQ_STATUS f, 25, 1⟩
/-- `MBX_REQ_CTRL` (R106). -/
abbrev rMBX_REQ_CTRL (f : Nat) : Nat := 0x1000c + fnBase * f
abbrev fMBX_REQ_CTRL_CANCEL (f : Nat) : Fld := ⟨rMBX_REQ_CTRL f, 0, 1⟩
/-- `MBX_RSP_DATA` (R106). -/
abbrev rMBX_RSP_DATA (f : Nat) : Nat := 0x10020 + fnBase * f
abbrev fMBX_RSP_DATA_WORD (f : Nat) : Fld := ⟨rMBX_RSP_DATA f, 0, 32⟩
/-- `MBX_RSP_STATUS` (R106). -/
abbrev rMBX_RSP_STATUS (f : Nat) : Nat := 0x10024 + fnBase * f
abbrev fMBX_RSP_STATUS_PACKETS (f : Nat) : Fld := ⟨rMBX_RSP_STATUS f, 0, 12⟩
abbrev fMBX_RSP_STATUS_END (f : Nat) : Fld := ⟨rMBX_RSP_STATUS f, 12, 1⟩
abbrev fMBX_RSP_STATUS_NOTICE_LOST (f : Nat) : Fld := ⟨rMBX_RSP_STATUS f, 13, 1⟩
/-- `MBX_RSP_CTRL` (R106). -/
abbrev rMBX_RSP_CTRL (f : Nat) : Nat := 0x10028 + fnBase * f
abbrev fMBX_RSP_CTRL_MARK (f : Nat) : Fld := ⟨rMBX_RSP_CTRL f, 0, 1⟩
abbrev fMBX_RSP_CTRL_REWIND (f : Nat) : Fld := ⟨rMBX_RSP_CTRL f, 1, 1⟩
abbrev fMBX_RSP_CTRL_RELEASE (f : Nat) : Fld := ⟨rMBX_RSP_CTRL f, 2, 1⟩
/-- `FAB_CTRL` (R397). -/
abbrev rFAB_CTRL : Nat := 0x11000
abbrev fFAB_CTRL_ADDR : Fld := ⟨rFAB_CTRL, 0, 13⟩
abbrev fFAB_CTRL_DOMAIN : Fld := ⟨rFAB_CTRL, 16, 8⟩
abbrev fFAB_CTRL_AUTO_ADDR : Fld := ⟨rFAB_CTRL, 24, 1⟩
/-- `FAB_LINK_CTRL` (R397). -/
abbrev rFAB_LINK_CTRL : Nat := 0x11004
abbrev fFAB_LINK_CTRL_LINK_EN : Fld := ⟨rFAB_LINK_CTRL, 0, 4⟩
abbrev fFAB_LINK_CTRL_ADV_PERIOD : Fld := ⟨rFAB_LINK_CTRL, 8, 7⟩
/-- `FAB_STATUS` (R397). -/
abbrev rFAB_STATUS : Nat := 0x11008
abbrev fFAB_STATUS_ROUTES : Fld := ⟨rFAB_STATUS, 0, 13⟩
abbrev fFAB_STATUS_DUP : Fld := ⟨rFAB_STATUS, 13, 1⟩
abbrev fFAB_STATUS_OFFERED : Fld := ⟨rFAB_STATUS, 14, 1⟩
/-- `FAB_LEAF_BASE` (R397). -/
abbrev rFAB_LEAF_BASE (i : Nat) : Nat := 0x11010 + 4 * i
abbrev fFAB_LEAF_BASE_BASE (i : Nat) : Fld := ⟨rFAB_LEAF_BASE i, 0, 13⟩
abbrev fFAB_LEAF_BASE_OFFER (i : Nat) : Fld := ⟨rFAB_LEAF_BASE i, 16, 1⟩
/-- `FAB_LINK_STATUS` (R397). -/
abbrev rFAB_LINK_STATUS (i : Nat) : Nat := 0x11020 + 4 * i
abbrev fFAB_LINK_STATUS_STATE (i : Nat) : Fld := ⟨rFAB_LINK_STATUS i, 0, 3⟩
abbrev fFAB_LINK_STATUS_FAR_EPOCH (i : Nat) : Fld := ⟨rFAB_LINK_STATUS i, 4, 4⟩
abbrev fFAB_LINK_STATUS_FAR_DOMAIN (i : Nat) : Fld := ⟨rFAB_LINK_STATUS i, 8, 8⟩
abbrev fFAB_LINK_STATUS_NEIGHBOUR (i : Nat) : Fld := ⟨rFAB_LINK_STATUS i, 16, 13⟩
/-- `FAB_ACL_A` (R397). -/
abbrev rFAB_ACL_A (i : Nat) : Nat := 0x11100 + 8 * i
abbrev fFAB_ACL_A_FIRST (i : Nat) : Fld := ⟨rFAB_ACL_A i, 0, 13⟩
abbrev fFAB_ACL_A_LAST (i : Nat) : Fld := ⟨rFAB_ACL_A i, 16, 13⟩
abbrev fFAB_ACL_A_VALID (i : Nat) : Fld := ⟨rFAB_ACL_A i, 31, 1⟩
/-- `FAB_ACL_B` (R397). -/
abbrev rFAB_ACL_B (i : Nat) : Nat := 0x11104 + 8 * i
abbrev fFAB_ACL_B_READ (i : Nat) : Fld := ⟨rFAB_ACL_B i, 0, 16⟩
abbrev fFAB_ACL_B_CHANGE (i : Nat) : Fld := ⟨rFAB_ACL_B i, 16, 16⟩
/-- `FAB_ROUTE` (R397). -/
abbrev rFAB_ROUTE (i : Nat) : Nat := 0x14000 + 4 * i
abbrev fFAB_ROUTE_LINK (i : Nat) : Fld := ⟨rFAB_ROUTE i, 0, 3⟩
abbrev fFAB_ROUTE_HOPS (i : Nat) : Fld := ⟨rFAB_ROUTE i, 3, 8⟩
abbrev fFAB_ROUTE_VALID (i : Nat) : Fld := ⟨rFAB_ROUTE i, 11, 1⟩
/-- `CB_HEAD` (R443). -/
abbrev rCB_HEAD : Nat := 0x20000
abbrev fCB_HEAD_SEQ : Fld := ⟨rCB_HEAD, 0, 32⟩
/-- `CB_CTRL` (R443). -/
abbrev rCB_CTRL : Nat := 0x20004
abbrev fCB_CTRL_INT_SEV : Fld := ⟨rCB_CTRL, 0, 3⟩
abbrev fCB_CTRL_INT_EN : Fld := ⟨rCB_CTRL, 3, 1⟩
/-- `CB_PAGE` (R443). -/
abbrev rCB_PAGE (f : Nat) : Nat := 0x20008 + fnBase * f
abbrev fCB_PAGE_PAGE (f : Nat) : Fld := ⟨rCB_PAGE f, 0, 3⟩
/-- `CB_STATUS` (R443). -/
abbrev rCB_STATUS : Nat := 0x2000c
abbrev fCB_STATUS_INT : Fld := ⟨rCB_STATUS, 0, 1⟩
abbrev fCB_STATUS_DROPPED : Fld := ⟨rCB_STATUS, 1, 1⟩
abbrev fCB_STATUS_ARCHIVE : Fld := ⟨rCB_STATUS, 2, 1⟩
abbrev fCB_STATUS_FREEZE_COUNT : Fld := ⟨rCB_STATUS, 3, 9⟩
/-- `CNT_PAGE` (R436). -/
abbrev rCNT_PAGE (f : Nat) : Nat := 0x3c000 + fnBase * f
abbrev fCNT_PAGE_KIND (f : Nat) : Fld := ⟨rCNT_PAGE f, 0, 2⟩
abbrev fCNT_PAGE_CHANNEL (f : Nat) : Fld := ⟨rCNT_PAGE f, 2, 2⟩
abbrev fCNT_PAGE_QUARTER (f : Nat) : Fld := ⟨rCNT_PAGE f, 4, 2⟩
/-- `HP_WIN_CTRL` (R438). -/
abbrev rHP_WIN_CTRL : Nat := 0x3c010
abbrev fHP_WIN_CTRL_WIN_MS : Fld := ⟨rHP_WIN_CTRL, 0, 10⟩
/-- `HP_WIN_RX` (R438). -/
abbrev rHP_WIN_RX (i : Nat) : Nat := 0x3d000 + 8 * i
abbrev fHP_WIN_RX_RATE (i : Nat) : Fld := ⟨rHP_WIN_RX i, 0, 21⟩
abbrev fHP_WIN_RX_OVER (i : Nat) : Fld := ⟨rHP_WIN_RX i, 31, 1⟩
/-- `HP_WIN_TX` (R438). -/
abbrev rHP_WIN_TX (i : Nat) : Nat := 0x3d004 + 8 * i
abbrev fHP_WIN_TX_RATE (i : Nat) : Fld := ⟨rHP_WIN_TX i, 0, 21⟩
abbrev fHP_WIN_TX_OVER (i : Nat) : Fld := ⟨rHP_WIN_TX i, 31, 1⟩
/-- `PWR_DOMAIN_A` (R413). -/
abbrev rPWR_DOMAIN_A : Nat := 0x40000
abbrev fPWR_DOMAIN_A_PD : Fld := ⟨rPWR_DOMAIN_A, 0, 32⟩
/-- `PWR_DOMAIN_B` (R413). -/
abbrev rPWR_DOMAIN_B : Nat := 0x40004
abbrev fPWR_DOMAIN_B_PD : Fld := ⟨rPWR_DOMAIN_B, 0, 32⟩
/-- `PWR_CH_STATE` (R413). -/
abbrev rPWR_CH_STATE : Nat := 0x40008
abbrev fPWR_CH_STATE_CH : Fld := ⟨rPWR_CH_STATE, 0, 8⟩
abbrev fPWR_CH_STATE_RECEPTACLE : Fld := ⟨rPWR_CH_STATE, 8, 1⟩
/-- `PWR_WAKE_CTRL` (R413). -/
abbrev rPWR_WAKE_CTRL : Nat := 0x40020
abbrev fPWR_WAKE_CTRL_WAKE_N_EN : Fld := ⟨rPWR_WAKE_CTRL, 0, 1⟩
abbrev fPWR_WAKE_CTRL_I2C_EN : Fld := ⟨rPWR_WAKE_CTRL, 1, 1⟩
abbrev fPWR_WAKE_CTRL_TIMER_EN : Fld := ⟨rPWR_WAKE_CTRL, 2, 1⟩
abbrev fPWR_WAKE_CTRL_ACCT_MODE : Fld := ⟨rPWR_WAKE_CTRL, 8, 1⟩
abbrev fPWR_WAKE_CTRL_ACCT_CLEAR : Fld := ⟨rPWR_WAKE_CTRL, 9, 1⟩
/-- `PWR_WAKE_TIMER` (R413). -/
abbrev rPWR_WAKE_TIMER : Nat := 0x40024
abbrev fPWR_WAKE_TIMER_SECONDS : Fld := ⟨rPWR_WAKE_TIMER, 0, 32⟩
/-- `PWR_ACCT_A` (R413). -/
abbrev rPWR_ACCT_A : Nat := 0x40028
abbrev fPWR_ACCT_A_REFUSALS : Fld := ⟨rPWR_ACCT_A, 0, 16⟩
abbrev fPWR_ACCT_A_LAST_BLOCK : Fld := ⟨rPWR_ACCT_A, 16, 8⟩
abbrev fPWR_ACCT_A_LAST_INDEX : Fld := ⟨rPWR_ACCT_A, 24, 4⟩
abbrev fPWR_ACCT_A_LAST_ABORT : Fld := ⟨rPWR_ACCT_A, 28, 1⟩
/-- `PWR_ACCT_B` (R413). -/
abbrev rPWR_ACCT_B : Nat := 0x4002c
abbrev fPWR_ACCT_B_WAKE_T_LO : Fld := ⟨rPWR_ACCT_B, 0, 32⟩
/-- `PWR_ACCT_C` (R413). -/
abbrev rPWR_ACCT_C : Nat := 0x40030
abbrev fPWR_ACCT_C_WAKE_T_HI : Fld := ⟨rPWR_ACCT_C, 0, 32⟩
/-- `PWR_ACCT_CNT` (R413). -/
abbrev rPWR_ACCT_CNT (i : Nat) : Nat := 0x40034 + 4 * i
abbrev fPWR_ACCT_CNT_CNT0 (i : Nat) : Fld := ⟨rPWR_ACCT_CNT i, 0, 8⟩
abbrev fPWR_ACCT_CNT_CNT1 (i : Nat) : Fld := ⟨rPWR_ACCT_CNT i, 8, 8⟩
abbrev fPWR_ACCT_CNT_CNT2 (i : Nat) : Fld := ⟨rPWR_ACCT_CNT i, 16, 8⟩
abbrev fPWR_ACCT_CNT_CNT3 (i : Nat) : Fld := ⟨rPWR_ACCT_CNT i, 24, 8⟩
/-- `PWR_RET_STATUS` (R413). -/
abbrev rPWR_RET_STATUS : Nat := 0x40044
abbrev fPWR_RET_STATUS_BANK : Fld := ⟨rPWR_RET_STATUS, 0, 16⟩
abbrev fPWR_RET_STATUS_WOKEN : Fld := ⟨rPWR_RET_STATUS, 16, 1⟩
/-- `PWR_RET_SEAL` (R413). -/
abbrev rPWR_RET_SEAL (i : Nat) : Nat := 0x40060 + 4 * i
abbrev fPWR_RET_SEAL_SEAL (i : Nat) : Fld := ⟨rPWR_RET_SEAL i, 0, 32⟩
/-- `PWR_AVS_CTRL` (R50). -/
abbrev rPWR_AVS_CTRL : Nat := 0x40100
abbrev fPWR_AVS_CTRL_AVS_EN : Fld := ⟨rPWR_AVS_CTRL, 0, 1⟩
abbrev fPWR_AVS_CTRL_HOLD : Fld := ⟨rPWR_AVS_CTRL, 1, 1⟩
/-- `PWR_AVS_STATUS` (R50). -/
abbrev rPWR_AVS_STATUS : Nat := 0x40104
abbrev fPWR_AVS_STATUS_SETPOINT : Fld := ⟨rPWR_AVS_STATUS, 0, 8⟩
abbrev fPWR_AVS_STATUS_SENSE : Fld := ⟨rPWR_AVS_STATUS, 8, 16⟩
abbrev fPWR_AVS_STATUS_READBACK_ERR : Fld := ⟨rPWR_AVS_STATUS, 24, 1⟩
abbrev fPWR_AVS_STATUS_AT_LIMIT : Fld := ⟨rPWR_AVS_STATUS, 25, 1⟩
/-- `PWR_THERM` (R62). -/
abbrev rPWR_THERM : Nat := 0x40110
abbrev fPWR_THERM_WARN_C : Fld := ⟨rPWR_THERM, 0, 8⟩
abbrev fPWR_THERM_WARN : Fld := ⟨rPWR_THERM, 8, 1⟩
abbrev fPWR_THERM_CRIT : Fld := ⟨rPWR_THERM, 9, 1⟩
abbrev fPWR_THERM_TJ_MAX : Fld := ⟨rPWR_THERM, 16, 16⟩
/-- `PWR_SHUTDOWN_CAUSE` (R62). -/
abbrev rPWR_SHUTDOWN_CAUSE : Nat := 0x40114
abbrev fPWR_SHUTDOWN_CAUSE_CAUSE : Fld := ⟨rPWR_SHUTDOWN_CAUSE, 0, 4⟩
/-- `TIM_CTRL` (R360). -/
abbrev rTIM_CTRL : Nat := 0x50000
abbrev fTIM_CTRL_MODE : Fld := ⟨rTIM_CTRL, 0, 3⟩
abbrev fTIM_CTRL_FORCE_IN : Fld := ⟨rTIM_CTRL, 4, 3⟩
abbrev fTIM_CTRL_QL_EN : Fld := ⟨rTIM_CTRL, 8, 1⟩
abbrev fTIM_CTRL_REVERTIVE : Fld := ⟨rTIM_CTRL, 9, 1⟩
abbrev fTIM_CTRL_OWN_QL : Fld := ⟨rTIM_CTRL, 12, 4⟩
abbrev fTIM_CTRL_BW : Fld := ⟨rTIM_CTRL, 16, 10⟩
/-- `TIM_HO` (R360). -/
abbrev rTIM_HO : Nat := 0x50004
abbrev fTIM_HO_HO_AVG : Fld := ⟨rTIM_HO, 0, 10⟩
/-- `TIM_OSC_CAL` (R360). -/
abbrev rTIM_OSC_CAL : Nat := 0x50008
abbrev fTIM_OSC_CAL_CAL : Fld := ⟨rTIM_OSC_CAL, 0, 28⟩
/-- `TIM_STEER` (R360). -/
abbrev rTIM_STEER : Nat := 0x5000c
abbrev fTIM_STEER_STEER : Fld := ⟨rTIM_STEER, 0, 28⟩
/-- `TIM_IN_CFG` (R360). -/
abbrev rTIM_IN_CFG (i : Nat) : Nat := 0x50020 + 4 * i
abbrev fTIM_IN_CFG_PRIO (i : Nat) : Fld := ⟨rTIM_IN_CFG i, 0, 4⟩
abbrev fTIM_IN_CFG_QL (i : Nat) : Fld := ⟨rTIM_IN_CFG i, 4, 4⟩
abbrev fTIM_IN_CFG_QL_OVR (i : Nat) : Fld := ⟨rTIM_IN_CFG i, 8, 1⟩
abbrev fTIM_IN_CFG_DIFF (i : Nat) : Fld := ⟨rTIM_IN_CFG i, 9, 1⟩
abbrev fTIM_IN_CFG_WTR (i : Nat) : Fld := ⟨rTIM_IN_CFG i, 10, 10⟩
/-- `TIM_IN_FREQ` (R360). -/
abbrev rTIM_IN_FREQ (i : Nat) : Nat := 0x50040 + 4 * i
abbrev fTIM_IN_FREQ_FREQ (i : Nat) : Fld := ⟨rTIM_IN_FREQ i, 0, 30⟩
/-- `TIM_IN_LIM` (R360). -/
abbrev rTIM_IN_LIM (i : Nat) : Nat := 0x50060 + 4 * i
abbrev fTIM_IN_LIM_SOFT (i : Nat) : Fld := ⟨rTIM_IN_LIM i, 0, 16⟩
abbrev fTIM_IN_LIM_HARD (i : Nat) : Fld := ⟨rTIM_IN_LIM i, 16, 16⟩
/-- `TIM_PPS` (R360). -/
abbrev rTIM_PPS : Nat := 0x50080
abbrev fTIM_PPS_SRC : Fld := ⟨rTIM_PPS, 0, 2⟩
abbrev fTIM_PPS_PPS_OUT_EN : Fld := ⟨rTIM_PPS, 4, 1⟩
abbrev fTIM_PPS_FP_SRC : Fld := ⟨rTIM_PPS, 8, 3⟩
abbrev fTIM_PPS_WIDTH : Fld := ⟨rTIM_PPS, 16, 16⟩
/-- `TIM_PPS_OFS` (R360). -/
abbrev rTIM_PPS_OFS : Nat := 0x50084
abbrev fTIM_PPS_OFS_OFS_NS : Fld := ⟨rTIM_PPS_OFS, 0, 30⟩
/-- `TIM_PPS_FRAC` (R360). -/
abbrev rTIM_PPS_FRAC : Nat := 0x50088
abbrev fTIM_PPS_FRAC_FRAC : Fld := ⟨rTIM_PPS_FRAC, 0, 3⟩
/-- `TIM_CLKOUT` (R360). -/
abbrev rTIM_CLKOUT (i : Nat) : Nat := 0x50090 + 4 * i
abbrev fTIM_CLKOUT_FREQ (i : Nat) : Fld := ⟨rTIM_CLKOUT i, 0, 30⟩
abbrev fTIM_CLKOUT_EN (i : Nat) : Fld := ⟨rTIM_CLKOUT i, 31, 1⟩
/-- `TIM_STATUS` (R360). -/
abbrev rTIM_STATUS : Nat := 0x500a0
abbrev fTIM_STATUS_STATE : Fld := ⟨rTIM_STATUS, 0, 3⟩
abbrev fTIM_STATUS_SEL : Fld := ⟨rTIM_STATUS, 4, 3⟩
abbrev fTIM_STATUS_SEL_VALID : Fld := ⟨rTIM_STATUS, 7, 1⟩
abbrev fTIM_STATUS_HO_SHORT : Fld := ⟨rTIM_STATUS, 8, 1⟩
abbrev fTIM_STATUS_SOFT_SEL : Fld := ⟨rTIM_STATUS, 9, 1⟩
abbrev fTIM_STATUS_PPS_LOCK : Fld := ⟨rTIM_STATUS, 10, 1⟩
abbrev fTIM_STATUS_PPS_LOS : Fld := ⟨rTIM_STATUS, 11, 1⟩
abbrev fTIM_STATUS_TOD_VALID : Fld := ⟨rTIM_STATUS, 12, 1⟩
abbrev fTIM_STATUS_EPOCH : Fld := ⟨rTIM_STATUS, 16, 4⟩
abbrev fTIM_STATUS_QL_SENT : Fld := ⟨rTIM_STATUS, 20, 4⟩
/-- `TIM_FREQ` (R360). -/
abbrev rTIM_FREQ : Nat := 0x500a4
abbrev fTIM_FREQ_OFFS : Fld := ⟨rTIM_FREQ, 0, 28⟩
/-- `TIM_HO_FREQ` (R360). -/
abbrev rTIM_HO_FREQ : Nat := 0x500a8
abbrev fTIM_HO_FREQ_OFFS : Fld := ⟨rTIM_HO_FREQ, 0, 28⟩
/-- `TIM_IN_STATUS` (R360). -/
abbrev rTIM_IN_STATUS (i : Nat) : Nat := 0x500c0 + 4 * i
abbrev fTIM_IN_STATUS_VALID (i : Nat) : Fld := ⟨rTIM_IN_STATUS i, 0, 1⟩
abbrev fTIM_IN_STATUS_LOA (i : Nat) : Fld := ⟨rTIM_IN_STATUS i, 1, 1⟩
abbrev fTIM_IN_STATUS_HARD (i : Nat) : Fld := ⟨rTIM_IN_STATUS i, 2, 1⟩
abbrev fTIM_IN_STATUS_SOFT (i : Nat) : Fld := ⟨rTIM_IN_STATUS i, 3, 1⟩
abbrev fTIM_IN_STATUS_WTR_RUN (i : Nat) : Fld := ⟨rTIM_IN_STATUS i, 4, 1⟩
abbrev fTIM_IN_STATUS_ELIGIBLE (i : Nat) : Fld := ⟨rTIM_IN_STATUS i, 5, 1⟩
abbrev fTIM_IN_STATUS_UNCONFIGURED (i : Nat) : Fld := ⟨rTIM_IN_STATUS i, 6, 1⟩
abbrev fTIM_IN_STATUS_QL (i : Nat) : Fld := ⟨rTIM_IN_STATUS i, 8, 4⟩
abbrev fTIM_IN_STATUS_WTR_LEFT (i : Nat) : Fld := ⟨rTIM_IN_STATUS i, 12, 10⟩
/-- `TIM_IN_OFFS` (R360). -/
abbrev rTIM_IN_OFFS (i : Nat) : Nat := 0x500e0 + 4 * i
abbrev fTIM_IN_OFFS_OFFS (i : Nat) : Fld := ⟨rTIM_IN_OFFS i, 0, 32⟩
/-- `TIM_TOD_LO` (R360). -/
abbrev rTIM_TOD_LO : Nat := 0x50100
abbrev fTIM_TOD_LO_SEC_LO : Fld := ⟨rTIM_TOD_LO, 0, 32⟩
/-- `TIM_TOD_HI` (R360). -/
abbrev rTIM_TOD_HI : Nat := 0x50104
abbrev fTIM_TOD_HI_SEC_HI : Fld := ⟨rTIM_TOD_HI, 0, 2⟩
/-- `TIM_TOD_NS` (R360). -/
abbrev rTIM_TOD_NS : Nat := 0x50108
abbrev fTIM_TOD_NS_NS : Fld := ⟨rTIM_TOD_NS, 0, 30⟩
/-- `MON_CTRL` (R429). -/
abbrev rMON_CTRL : Nat := 0x60000
abbrev fMON_CTRL_Q_CLEAR : Fld := ⟨rMON_CTRL, 0, 1⟩
/-- `MON_STATUS` (R429). -/
abbrev rMON_STATUS : Nat := 0x60004
abbrev fMON_STATUS_Q_COUNT : Fld := ⟨rMON_STATUS, 0, 11⟩
abbrev fMON_STATUS_Q_OVF : Fld := ⟨rMON_STATUS, 11, 1⟩
abbrev fMON_STATUS_BG_FAULT : Fld := ⟨rMON_STATUS, 12, 1⟩
abbrev fMON_STATUS_READY : Fld := ⟨rMON_STATUS, 13, 1⟩
/-- `MON_SAT_LO` (R429). -/
abbrev rMON_SAT_LO : Nat := 0x60008
abbrev fMON_SAT_LO_SAT : Fld := ⟨rMON_SAT_LO, 0, 32⟩
/-- `MON_SAT_HI` (R429). -/
abbrev rMON_SAT_HI : Nat := 0x6000c
abbrev fMON_SAT_HI_SAT : Fld := ⟨rMON_SAT_HI, 0, 32⟩
/-- `MON_Q0` (R429). -/
abbrev rMON_Q0 : Nat := 0x60010
abbrev fMON_Q0_TS_LO : Fld := ⟨rMON_Q0, 0, 32⟩
/-- `MON_Q1` (R429). -/
abbrev rMON_Q1 : Nat := 0x60014
abbrev fMON_Q1_TS_HI : Fld := ⟨rMON_Q1, 0, 32⟩
/-- `MON_Q2` (R429). -/
abbrev rMON_Q2 : Nat := 0x60018
abbrev fMON_Q2_VALUE : Fld := ⟨rMON_Q2, 0, 20⟩
abbrev fMON_Q2_INPUT : Fld := ⟨rMON_Q2, 20, 6⟩
abbrev fMON_Q2_SAT : Fld := ⟨rMON_Q2, 26, 1⟩
abbrev fMON_Q2_SETTLING : Fld := ⟨rMON_Q2, 27, 1⟩
abbrev fMON_Q2_VALID : Fld := ⟨rMON_Q2, 28, 1⟩
/-- `MON_Q3` (R429). -/
abbrev rMON_Q3 : Nat := 0x6001c
abbrev fMON_Q3_LOST_BEFORE : Fld := ⟨rMON_Q3, 0, 16⟩
/-- `MON_SEQ` (R429). -/
abbrev rMON_SEQ (i : Nat) : Nat := 0x60100 + 4 * i
abbrev fMON_SEQ_INPUT0 (i : Nat) : Fld := ⟨rMON_SEQ i, 0, 6⟩
abbrev fMON_SEQ_IDLE0 (i : Nat) : Fld := ⟨rMON_SEQ i, 7, 1⟩
abbrev fMON_SEQ_INPUT1 (i : Nat) : Fld := ⟨rMON_SEQ i, 8, 6⟩
abbrev fMON_SEQ_IDLE1 (i : Nat) : Fld := ⟨rMON_SEQ i, 15, 1⟩
abbrev fMON_SEQ_INPUT2 (i : Nat) : Fld := ⟨rMON_SEQ i, 16, 6⟩
abbrev fMON_SEQ_IDLE2 (i : Nat) : Fld := ⟨rMON_SEQ i, 23, 1⟩
abbrev fMON_SEQ_INPUT3 (i : Nat) : Fld := ⟨rMON_SEQ i, 24, 6⟩
abbrev fMON_SEQ_IDLE3 (i : Nat) : Fld := ⟨rMON_SEQ i, 31, 1⟩
/-- `MON_IN_CFG` (R429). -/
abbrev rMON_IN_CFG (i : Nat) : Nat := 0x60200 + 4 * i
abbrev fMON_IN_CFG_SINC_ORD (i : Nat) : Fld := ⟨rMON_IN_CFG i, 0, 2⟩
abbrev fMON_IN_CFG_SINC_DEC (i : Nat) : Fld := ⟨rMON_IN_CFG i, 2, 9⟩
abbrev fMON_IN_CFG_MA_LEN (i : Nat) : Fld := ⟨rMON_IN_CFG i, 11, 10⟩
abbrev fMON_IN_CFG_NOTCH_EN (i : Nat) : Fld := ⟨rMON_IN_CFG i, 21, 1⟩
abbrev fMON_IN_CFG_FIR_MIN (i : Nat) : Fld := ⟨rMON_IN_CFG i, 22, 1⟩
abbrev fMON_IN_CFG_FIR_DEC (i : Nat) : Fld := ⟨rMON_IN_CFG i, 23, 2⟩
abbrev fMON_IN_CFG_QUEUE_EN (i : Nat) : Fld := ⟨rMON_IN_CFG i, 25, 1⟩
/-- `MON_IN_NOTCH` (R429). -/
abbrev rMON_IN_NOTCH (i : Nat) : Nat := 0x60300 + 4 * i
abbrev fMON_IN_NOTCH_NOTCH_HZ (i : Nat) : Fld := ⟨rMON_IN_NOTCH i, 0, 16⟩
/-- `MON_IN_LAST` (R429). -/
abbrev rMON_IN_LAST (i : Nat) : Nat := 0x60400 + 4 * i
abbrev fMON_IN_LAST_VALUE (i : Nat) : Fld := ⟨rMON_IN_LAST i, 0, 20⟩
abbrev fMON_IN_LAST_SAT (i : Nat) : Fld := ⟨rMON_IN_LAST i, 20, 1⟩
abbrev fMON_IN_LAST_SETTLING (i : Nat) : Fld := ⟨rMON_IN_LAST i, 21, 1⟩
abbrev fMON_IN_LAST_VALID (i : Nat) : Fld := ⟨rMON_IN_LAST i, 22, 1⟩
abbrev fMON_IN_LAST_SRC_DARK (i : Nat) : Fld := ⟨rMON_IN_LAST i, 23, 1⟩
abbrev fMON_IN_LAST_NOTCH_BYPASS (i : Nat) : Fld := ⟨rMON_IN_LAST i, 24, 1⟩
/-- `MON_IN_GD` (R429). -/
abbrev rMON_IN_GD (i : Nat) : Nat := 0x60500 + 4 * i
abbrev fMON_IN_GD_TIME (i : Nat) : Fld := ⟨rMON_IN_GD i, 0, 24⟩
/-- `MON_IN_SETTLE` (R429). -/
abbrev rMON_IN_SETTLE (i : Nat) : Nat := 0x60600 + 4 * i
abbrev fMON_IN_SETTLE_TIME (i : Nat) : Fld := ⟨rMON_IN_SETTLE i, 0, 24⟩
/-- `MEM_STATUS` (R378). -/
abbrev rMEM_STATUS : Nat := 0x70000
abbrev fMEM_STATUS_HBM_READY : Fld := ⟨rMEM_STATUS, 0, 1⟩
abbrev fMEM_STATUS_HBM_FAIL : Fld := ⟨rMEM_STATUS, 1, 1⟩
abbrev fMEM_STATUS_HOT : Fld := ⟨rMEM_STATUS, 2, 1⟩
abbrev fMEM_STATUS_ERASED : Fld := ⟨rMEM_STATUS, 3, 1⟩
abbrev fMEM_STATUS_ERASED_POS : Fld := ⟨rMEM_STATUS, 4, 4⟩
abbrev fMEM_STATUS_RETIRED : Fld := ⟨rMEM_STATUS, 16, 9⟩
/-- `MEM_SCRUB` (R378). -/
abbrev rMEM_SCRUB : Nat := 0x70004
abbrev fMEM_SCRUB_PATROL_EN : Fld := ⟨rMEM_SCRUB, 0, 1⟩
abbrev fMEM_SCRUB_SRAM_EN : Fld := ⟨rMEM_SCRUB, 1, 1⟩
/-- `MEM_FAR_SLOTS` (R378). -/
abbrev rMEM_FAR_SLOTS : Nat := 0x70008
abbrev fMEM_FAR_SLOTS_SLOTS : Fld := ⟨rMEM_FAR_SLOTS, 0, 17⟩
/-- `MEM_FLIP` (R378). -/
abbrev rMEM_FLIP : Nat := 0x70010
abbrev fMEM_FLIP_MASK : Fld := ⟨rMEM_FLIP, 0, 16⟩
abbrev fMEM_FLIP_POS : Fld := ⟨rMEM_FLIP, 16, 4⟩
abbrev fMEM_FLIP_GROUP : Fld := ⟨rMEM_FLIP, 20, 1⟩
abbrev fMEM_FLIP_REGION : Fld := ⟨rMEM_FLIP, 21, 3⟩
abbrev fMEM_FLIP_ARM : Fld := ⟨rMEM_FLIP, 31, 1⟩
/-- `MEM_SFLIP` (R378). -/
abbrev rMEM_SFLIP : Nat := 0x70014
abbrev fMEM_SFLIP_BIT0 : Fld := ⟨rMEM_SFLIP, 0, 7⟩
abbrev fMEM_SFLIP_BIT1 : Fld := ⟨rMEM_SFLIP, 8, 7⟩
abbrev fMEM_SFLIP_BIT1_EN : Fld := ⟨rMEM_SFLIP, 15, 1⟩
abbrev fMEM_SFLIP_STORE : Fld := ⟨rMEM_SFLIP, 16, 4⟩
abbrev fMEM_SFLIP_ARM : Fld := ⟨rMEM_SFLIP, 31, 1⟩
/-- `ENG_CTRL` (R124). -/
abbrev rENG_CTRL (n : Nat) : Nat := chBase n + 0x1000
abbrev fENG_CTRL_TX_TARGET (n : Nat) : Fld := ⟨rENG_CTRL n, 0, 11⟩
abbrev fENG_CTRL_SETPOINT (n : Nat) : Fld := ⟨rENG_CTRL n, 16, 5⟩
abbrev fENG_CTRL_TX_MUTE (n : Nat) : Fld := ⟨rENG_CTRL n, 21, 1⟩
abbrev fENG_CTRL_BIAS_HOLD (n : Nat) : Fld := ⟨rENG_CTRL n, 22, 1⟩
/-- `ENG_FEED` (R124). -/
abbrev rENG_FEED (n : Nat) : Nat := chBase n + 0x1004
abbrev fENG_FEED_FEED_GHZ (n : Nat) : Fld := ⟨rENG_FEED n, 0, 18⟩
/-- `ENG_STATUS` (R124). -/
abbrev rENG_STATUS (n : Nat) : Nat := chBase n + 0x1008
abbrev fENG_STATUS_FEED_OK (n : Nat) : Fld := ⟨rENG_STATUS n, 0, 1⟩
abbrev fENG_STATUS_FEED_HIGH (n : Nat) : Fld := ⟨rENG_STATUS n, 1, 1⟩
abbrev fENG_STATUS_BIAS_LOCK (n : Nat) : Fld := ⟨rENG_STATUS n, 2, 1⟩
abbrev fENG_STATUS_BIAS_NEAR_LIMIT (n : Nat) : Fld := ⟨rENG_STATUS n, 3, 1⟩
abbrev fENG_STATUS_BIAS_AT_LIMIT (n : Nat) : Fld := ⟨rENG_STATUS n, 4, 1⟩
abbrev fENG_STATUS_UNREG (n : Nat) : Fld := ⟨rENG_STATUS n, 5, 1⟩
abbrev fENG_STATUS_TX_DARK (n : Nat) : Fld := ⟨rENG_STATUS n, 6, 1⟩
abbrev fENG_STATUS_RX_LOS (n : Nat) : Fld := ⟨rENG_STATUS n, 7, 1⟩
abbrev fENG_STATUS_ENG_TEMP (n : Nat) : Fld := ⟨rENG_STATUS n, 16, 8⟩
/-- `ENG_PWR_A` (R124). -/
abbrev rENG_PWR_A (n : Nat) : Nat := chBase n + 0x100c
abbrev fENG_PWR_A_TX_PWR (n : Nat) : Fld := ⟨rENG_PWR_A n, 0, 16⟩
abbrev fENG_PWR_A_RX_PWR (n : Nat) : Fld := ⟨rENG_PWR_A n, 16, 16⟩
/-- `ENG_PWR_B` (R124). -/
abbrev rENG_PWR_B (n : Nat) : Nat := chBase n + 0x1010
abbrev fENG_PWR_B_FEED_PWR (n : Nat) : Fld := ⟨rENG_PWR_B n, 0, 16⟩
/-- `CONV_CTRL` (R134). -/
abbrev rCONV_CTRL (n : Nat) : Nat := chBase n + 0x2000
abbrev fCONV_CTRL_PLACE0 (n : Nat) : Fld := ⟨rCONV_CTRL n, 0, 7⟩
abbrev fCONV_CTRL_PLACE1 (n : Nat) : Fld := ⟨rCONV_CTRL n, 8, 7⟩
abbrev fCONV_CTRL_PLACE2 (n : Nat) : Fld := ⟨rCONV_CTRL n, 16, 7⟩
abbrev fCONV_CTRL_PLACE3 (n : Nat) : Fld := ⟨rCONV_CTRL n, 24, 7⟩
/-- `CONV_CAL` (R134). -/
abbrev rCONV_CAL (n : Nat) : Nat := chBase n + 0x2004
abbrev fCONV_CAL_BG_CAL_EN (n : Nat) : Fld := ⟨rCONV_CAL n, 0, 1⟩
/-- `CONV_STATUS` (R134). -/
abbrev rCONV_STATUS (n i : Nat) : Nat := chBase n + 0x2010 + 4 * i
abbrev fCONV_STATUS_UNDERSTUDY_POS (n i : Nat) : Fld := ⟨rCONV_STATUS n i, 0, 7⟩
abbrev fCONV_STATUS_PERMANENT (n i : Nat) : Fld := ⟨rCONV_STATUS n i, 7, 1⟩
abbrev fCONV_STATUS_INTERP_POS (n i : Nat) : Fld := ⟨rCONV_STATUS n i, 8, 6⟩
abbrev fCONV_STATUS_INTERP_ACTIVE (n i : Nat) : Fld := ⟨rCONV_STATUS n i, 14, 1⟩
abbrev fCONV_STATUS_DEGRADED (n i : Nat) : Fld := ⟨rCONV_STATUS n i, 15, 1⟩
abbrev fCONV_STATUS_FAILED (n i : Nat) : Fld := ⟨rCONV_STATUS n i, 16, 1⟩
abbrev fCONV_STATUS_TRANSIENTS (n i : Nat) : Fld := ⟨rCONV_STATUS n i, 24, 8⟩
/-- `CONV_ADJ` (R134). -/
abbrev rCONV_ADJ (n i : Nat) : Nat := chBase n + 0x3000 + 4 * i
abbrev fCONV_ADJ_OFFSET_ADJ (n i : Nat) : Fld := ⟨rCONV_ADJ n i, 0, 8⟩
abbrev fCONV_ADJ_GAIN_ADJ (n i : Nat) : Fld := ⟨rCONV_ADJ n i, 8, 8⟩
abbrev fCONV_ADJ_SKEW_ADJ (n i : Nat) : Fld := ⟨rCONV_ADJ n i, 16, 8⟩
/-- `LINE_MODE` (R163). -/
abbrev rLINE_MODE (n : Nat) : Nat := chBase n + 0x4000
abbrev fLINE_MODE_NET_RATE (n : Nat) : Fld := ⟨rLINE_MODE n, 0, 6⟩
abbrev fLINE_MODE_NSC (n : Nat) : Fld := ⟨rLINE_MODE n, 8, 5⟩
abbrev fLINE_MODE_CONST (n : Nat) : Fld := ⟨rLINE_MODE n, 13, 1⟩
abbrev fLINE_MODE_ENTROPY (n : Nat) : Fld := ⟨rLINE_MODE n, 16, 10⟩
abbrev fLINE_MODE_IOP (n : Nat) : Fld := ⟨rLINE_MODE n, 28, 2⟩
/-- `LINE_SHAPE` (R163). -/
abbrev rLINE_SHAPE (n : Nat) : Nat := chBase n + 0x4004
abbrev fLINE_SHAPE_ROLLOFF (n : Nat) : Fld := ⟨rLINE_SHAPE n, 0, 5⟩
abbrev fLINE_SHAPE_MASK_EN (n : Nat) : Fld := ⟨rLINE_SHAPE n, 8, 1⟩
/-- `LINE_PREEMPH` (R163). -/
abbrev rLINE_PREEMPH (n i : Nat) : Nat := chBase n + 0x4010 + 4 * i
abbrev fLINE_PREEMPH_V0 (n i : Nat) : Fld := ⟨rLINE_PREEMPH n i, 0, 8⟩
abbrev fLINE_PREEMPH_V1 (n i : Nat) : Fld := ⟨rLINE_PREEMPH n i, 8, 8⟩
abbrev fLINE_PREEMPH_V2 (n i : Nat) : Fld := ⟨rLINE_PREEMPH n i, 16, 8⟩
abbrev fLINE_PREEMPH_V3 (n i : Nat) : Fld := ⟨rLINE_PREEMPH n i, 24, 8⟩
/-- `LINE_MASK` (R163). -/
abbrev rLINE_MASK (n i : Nat) : Nat := chBase n + 0x4020 + 4 * i
abbrev fLINE_MASK_V0 (n i : Nat) : Fld := ⟨rLINE_MASK n i, 0, 8⟩
abbrev fLINE_MASK_V1 (n i : Nat) : Fld := ⟨rLINE_MASK n i, 8, 8⟩
abbrev fLINE_MASK_V2 (n i : Nat) : Fld := ⟨rLINE_MASK n i, 16, 8⟩
abbrev fLINE_MASK_V3 (n i : Nat) : Fld := ⟨rLINE_MASK n i, 24, 8⟩
/-- `LINE_TX_SKEW` (R163). -/
abbrev rLINE_TX_SKEW (n : Nat) : Nat := chBase n + 0x4030
abbrev fLINE_TX_SKEW_SKEW_XI (n : Nat) : Fld := ⟨rLINE_TX_SKEW n, 0, 8⟩
abbrev fLINE_TX_SKEW_SKEW_XQ (n : Nat) : Fld := ⟨rLINE_TX_SKEW n, 8, 8⟩
abbrev fLINE_TX_SKEW_SKEW_YI (n : Nat) : Fld := ⟨rLINE_TX_SKEW n, 16, 8⟩
abbrev fLINE_TX_SKEW_SKEW_YQ (n : Nat) : Fld := ⟨rLINE_TX_SKEW n, 24, 8⟩
/-- `LINE_RX_CTRL` (R163). -/
abbrev rLINE_RX_CTRL (n : Nat) : Nat := chBase n + 0x4040
abbrev fLINE_RX_CTRL_CD_PRESET (n : Nat) : Fld := ⟨rLINE_RX_CTRL n, 0, 16⟩
abbrev fLINE_RX_CTRL_PRESET_EN (n : Nat) : Fld := ⟨rLINE_RX_CTRL n, 16, 1⟩
abbrev fLINE_RX_CTRL_AUTO_PRESET (n : Nat) : Fld := ⟨rLINE_RX_CTRL n, 17, 1⟩
abbrev fLINE_RX_CTRL_ACQ_RESTART (n : Nat) : Fld := ⟨rLINE_RX_CTRL n, 31, 1⟩
/-- `LINE_RX_STATUS` (R163). -/
abbrev rLINE_RX_STATUS (n : Nat) : Nat := chBase n + 0x4050
abbrev fLINE_RX_STATUS_STATE (n : Nat) : Fld := ⟨rLINE_RX_STATUS n, 0, 4⟩
abbrev fLINE_RX_STATUS_ACQUIRED (n : Nat) : Fld := ⟨rLINE_RX_STATUS n, 4, 1⟩
abbrev fLINE_RX_STATUS_HOLDING (n : Nat) : Fld := ⟨rLINE_RX_STATUS n, 5, 1⟩
abbrev fLINE_RX_STATUS_MODE_SUSPECT (n : Nat) : Fld := ⟨rLINE_RX_STATUS n, 6, 1⟩
abbrev fLINE_RX_STATUS_ACQ_FAIL (n : Nat) : Fld := ⟨rLINE_RX_STATUS n, 7, 1⟩
abbrev fLINE_RX_STATUS_RX_HALF_PENDING (n : Nat) : Fld := ⟨rLINE_RX_STATUS n, 8, 1⟩
abbrev fLINE_RX_STATUS_ACQ_COUNT (n : Nat) : Fld := ⟨rLINE_RX_STATUS n, 24, 8⟩
/-- `LINE_RX_EST0` (R163). -/
abbrev rLINE_RX_EST0 (n : Nat) : Nat := chBase n + 0x4054
abbrev fLINE_RX_EST0_CD_EST (n : Nat) : Fld := ⟨rLINE_RX_EST0 n, 0, 16⟩
abbrev fLINE_RX_EST0_DGD_EST (n : Nat) : Fld := ⟨rLINE_RX_EST0 n, 16, 8⟩
/-- `LINE_RX_EST1` (R163). -/
abbrev rLINE_RX_EST1 (n : Nat) : Nat := chBase n + 0x4058
abbrev fLINE_RX_EST1_FREQ_EST (n : Nat) : Fld := ⟨rLINE_RX_EST1 n, 0, 16⟩
abbrev fLINE_RX_EST1_SNR_EST (n : Nat) : Fld := ⟨rLINE_RX_EST1 n, 16, 16⟩
/-- `LINE_SC_SNR` (R163). -/
abbrev rLINE_SC_SNR (n i : Nat) : Nat := chBase n + 0x4060 + 4 * i
abbrev fLINE_SC_SNR_SNR0 (n i : Nat) : Fld := ⟨rLINE_SC_SNR n i, 0, 16⟩
abbrev fLINE_SC_SNR_SNR1 (n i : Nat) : Fld := ⟨rLINE_SC_SNR n i, 16, 16⟩
/-- `LINE_PREDIST` (R163). -/
abbrev rLINE_PREDIST (n i : Nat) : Nat := chBase n + 0x4400 + 4 * i
abbrev fLINE_PREDIST_CORR (n i : Nat) : Fld := ⟨rLINE_PREDIST n i, 0, 12⟩
/-- `FEC_CTRL` (R218). -/
abbrev rFEC_CTRL (n : Nat) : Nat := chBase n + 0x6000
abbrev fFEC_CTRL_LOW_LAT (n : Nat) : Fld := ⟨rFEC_CTRL n, 0, 1⟩
abbrev fFEC_CTRL_ITER_MAX (n : Nat) : Fld := ⟨rFEC_CTRL n, 4, 5⟩
/-- `FEC_SD` (R218). -/
abbrev rFEC_SD (n : Nat) : Nat := chBase n + 0x6004
abbrev fFEC_SD_SD_MANT (n : Nat) : Fld := ⟨rFEC_SD n, 0, 4⟩
abbrev fFEC_SD_SD_EXP (n : Nat) : Fld := ⟨rFEC_SD n, 4, 4⟩
abbrev fFEC_SD_SD_SET (n : Nat) : Fld := ⟨rFEC_SD n, 8, 8⟩
abbrev fFEC_SD_SD_CLR (n : Nat) : Fld := ⟨rFEC_SD n, 16, 8⟩
/-- `FEC_UNC` (R218). -/
abbrev rFEC_UNC (n : Nat) : Nat := chBase n + 0x6008
abbrev fFEC_UNC_UNC_LIMIT (n : Nat) : Fld := ⟨rFEC_UNC n, 0, 16⟩
abbrev fFEC_UNC_UNC_CLR (n : Nat) : Fld := ⟨rFEC_UNC n, 16, 8⟩
/-- `FEC_STATUS` (R218). -/
abbrev rFEC_STATUS (n : Nat) : Nat := chBase n + 0x600c
abbrev fFEC_STATUS_SD (n : Nat) : Fld := ⟨rFEC_STATUS n, 0, 1⟩
abbrev fFEC_STATUS_EXC (n : Nat) : Fld := ⟨rFEC_STATUS n, 1, 1⟩
abbrev fFEC_STATUS_INJ_ACTIVE (n : Nat) : Fld := ⟨rFEC_STATUS n, 2, 1⟩
abbrev fFEC_STATUS_DECODING (n : Nat) : Fld := ⟨rFEC_STATUS n, 3, 1⟩
abbrev fFEC_STATUS_SD_SEEN (n : Nat) : Fld := ⟨rFEC_STATUS n, 8, 1⟩
abbrev fFEC_STATUS_EXC_SEEN (n : Nat) : Fld := ⟨rFEC_STATUS n, 9, 1⟩
abbrev fFEC_STATUS_BER_LOG (n : Nat) : Fld := ⟨rFEC_STATUS n, 16, 16⟩
/-- `FEC_TEST` (R218). -/
abbrev rFEC_TEST (n : Nat) : Nat := chBase n + 0x6010
abbrev fFEC_TEST_INJ_EN (n : Nat) : Fld := ⟨rFEC_TEST n, 0, 1⟩
abbrev fFEC_TEST_INJ_LOG (n : Nat) : Fld := ⟨rFEC_TEST n, 16, 16⟩
/-- `OH_CTRL` (R251). -/
abbrev rOH_CTRL (n : Nat) : Nat := chBase n + 0x7000
abbrev fOH_CTRL_PT_EXP (n : Nat) : Fld := ⟨rOH_CTRL n, 0, 8⟩
abbrev fOH_CTRL_TIM_EN (n : Nat) : Fld := ⟨rOH_CTRL n, 8, 1⟩
/-- `OH_RX_STATUS` (R251). -/
abbrev rOH_RX_STATUS (n : Nat) : Nat := chBase n + 0x7004
abbrev fOH_RX_STATUS_DEFECTS (n : Nat) : Fld := ⟨rOH_RX_STATUS n, 0, 11⟩
abbrev fOH_RX_STATUS_SR_VALID (n : Nat) : Fld := ⟨rOH_RX_STATUS n, 11, 1⟩
abbrev fOH_RX_STATUS_FN_VALID (n : Nat) : Fld := ⟨rOH_RX_STATUS n, 12, 1⟩
abbrev fOH_RX_STATUS_PTR_BAD (n : Nat) : Fld := ⟨rOH_RX_STATUS n, 13, 1⟩
abbrev fOH_RX_STATUS_SEEN (n : Nat) : Fld := ⟨rOH_RX_STATUS n, 16, 11⟩
/-- `OH_RX_FN_LO` (R251). -/
abbrev rOH_RX_FN_LO (n : Nat) : Nat := chBase n + 0x7008
abbrev fOH_RX_FN_LO_FN_LO (n : Nat) : Fld := ⟨rOH_RX_FN_LO n, 0, 32⟩
/-- `OH_RX_FN_HI` (R251). -/
abbrev rOH_RX_FN_HI (n : Nat) : Nat := chBase n + 0x700c
abbrev fOH_RX_FN_HI_FN_HI (n : Nat) : Fld := ⟨rOH_RX_FN_HI n, 0, 16⟩
/-- `OH_TX_FN_LO` (R251). -/
abbrev rOH_TX_FN_LO (n : Nat) : Nat := chBase n + 0x7010
abbrev fOH_TX_FN_LO_FN_LO (n : Nat) : Fld := ⟨rOH_TX_FN_LO n, 0, 32⟩
/-- `OH_TX_FN_HI` (R251). -/
abbrev rOH_TX_FN_HI (n : Nat) : Nat := chBase n + 0x7014
abbrev fOH_TX_FN_HI_FN_HI (n : Nat) : Fld := ⟨rOH_TX_FN_HI n, 0, 16⟩
/-- `OH_RX_SR` (R251). -/
abbrev rOH_RX_SR (n : Nat) : Nat := chBase n + 0x7018
abbrev fOH_RX_SR_SR (n : Nat) : Fld := ⟨rOH_RX_SR n, 0, 32⟩
/-- `OH_RX_ACC` (R251). -/
abbrev rOH_RX_ACC (n : Nat) : Nat := chBase n + 0x701c
abbrev fOH_RX_ACC_PT (n : Nat) : Fld := ⟨rOH_RX_ACC n, 0, 8⟩
abbrev fOH_RX_ACC_SSM (n : Nat) : Fld := ⟨rOH_RX_ACC n, 8, 4⟩
abbrev fOH_RX_ACC_STAT (n : Nat) : Fld := ⟨rOH_RX_ACC n, 16, 8⟩
/-- `HUB_CTRL` (R196). -/
abbrev rHUB_CTRL (n : Nat) : Nat := chBase n + 0x8000
abbrev fHUB_CTRL_ROLE (n : Nat) : Fld := ⟨rHUB_CTRL n, 0, 2⟩
/-- `HUB_SD` (R196). -/
abbrev rHUB_SD (n : Nat) : Nat := chBase n + 0x8004
abbrev fHUB_SD_SD_SC (n : Nat) : Fld := ⟨rHUB_SD n, 0, 4⟩
abbrev fHUB_SD_SD_EN (n : Nat) : Fld := ⟨rHUB_SD n, 4, 1⟩
abbrev fHUB_SD_SD_WIDTH (n : Nat) : Fld := ⟨rHUB_SD n, 8, 7⟩
abbrev fHUB_SD_SD_OFFSET (n : Nat) : Fld := ⟨rHUB_SD n, 16, 11⟩
/-- `HUB_SD_PERIOD` (R196). -/
abbrev rHUB_SD_PERIOD (n : Nat) : Nat := chBase n + 0x8008
abbrev fHUB_SD_PERIOD_PERIOD (n : Nat) : Fld := ⟨rHUB_SD_PERIOD n, 0, 10⟩
/-- `HUB_PLAYOUT` (R196). -/
abbrev rHUB_PLAYOUT (n : Nat) : Nat := chBase n + 0x800c
abbrev fHUB_PLAYOUT_PLAYOUT (n : Nat) : Fld := ⟨rHUB_PLAYOUT n, 0, 11⟩
/-- `HUB_ROGUE` (R196). -/
abbrev rHUB_ROGUE (n : Nat) : Nat := chBase n + 0x8010
abbrev fHUB_ROGUE_ROGUE_LIMIT (n : Nat) : Fld := ⟨rHUB_ROGUE n, 0, 16⟩
/-- `HUB_STATUS` (R196). -/
abbrev rHUB_STATUS (n : Nat) : Nat := chBase n + 0x8014
abbrev fHUB_STATUS_HUB_LOS (n : Nat) : Fld := ⟨rHUB_STATUS n, 0, 1⟩
abbrev fHUB_STATUS_SD_OPEN (n : Nat) : Fld := ⟨rHUB_STATUS n, 1, 1⟩
abbrev fHUB_STATUS_MAP_PENDING (n : Nat) : Fld := ⟨rHUB_STATUS n, 2, 1⟩
abbrev fHUB_STATUS_POWER_DEV (n : Nat) : Fld := ⟨rHUB_STATUS n, 3, 1⟩
abbrev fHUB_STATUS_LEAVES_RANGED (n : Nat) : Fld := ⟨rHUB_STATUS n, 16, 11⟩
/-- `HUB_CYCLE` (R196). -/
abbrev rHUB_CYCLE (n : Nat) : Nat := chBase n + 0x8018
abbrev fHUB_CYCLE_CYCLE (n : Nat) : Fld := ⟨rHUB_CYCLE n, 0, 32⟩
/-- `LEAF_CTRL` (R196). -/
abbrev rLEAF_CTRL (n : Nat) : Nat := chBase n + 0x8020
abbrev fLEAF_CTRL_RTD_HINT (n : Nat) : Fld := ⟨rLEAF_CTRL n, 0, 24⟩
abbrev fLEAF_CTRL_LISTEN_SC (n : Nat) : Fld := ⟨rLEAF_CTRL n, 24, 4⟩
abbrev fLEAF_CTRL_AUTO_JOIN (n : Nat) : Fld := ⟨rLEAF_CTRL n, 28, 1⟩
/-- `LEAF_STATUS` (R196). -/
abbrev rLEAF_STATUS (n : Nat) : Nat := chBase n + 0x8024
abbrev fLEAF_STATUS_STATE (n : Nat) : Fld := ⟨rLEAF_STATUS n, 0, 3⟩
abbrev fLEAF_STATUS_LEAF_ID (n : Nat) : Fld := ⟨rLEAF_STATUS n, 4, 10⟩
abbrev fLEAF_STATUS_DS_SC (n : Nat) : Fld := ⟨rLEAF_STATUS n, 16, 16⟩
/-- `LEAF_RTD` (R196). -/
abbrev rLEAF_RTD (n : Nat) : Nat := chBase n + 0x8028
abbrev fLEAF_RTD_RTD (n : Nat) : Fld := ⟨rLEAF_RTD n, 0, 24⟩
/-- `SLOT_MAP` (R251). -/
abbrev rSLOT_MAP (n i : Nat) : Nat := chBase n + 0xa000 + 4 * i
abbrev fSLOT_MAP_CLIENT_E (n i : Nat) : Fld := ⟨rSLOT_MAP n i, 0, 9⟩
abbrev fSLOT_MAP_ASSIGNED_E (n i : Nat) : Fld := ⟨rSLOT_MAP n i, 15, 1⟩
abbrev fSLOT_MAP_CLIENT_O (n i : Nat) : Fld := ⟨rSLOT_MAP n i, 16, 9⟩
abbrev fSLOT_MAP_ASSIGNED_O (n i : Nat) : Fld := ⟨rSLOT_MAP n i, 31, 1⟩
/-- `CLIENT` (R251). -/
abbrev rCLIENT (n i : Nat) : Nat := chBase n + 0xa400 + 4 * i
abbrev fCLIENT_TYPE (n i : Nat) : Fld := ⟨rCLIENT n i, 0, 3⟩
abbrev fCLIENT_SESSION (n i : Nat) : Fld := ⟨rCLIENT n i, 16, 16⟩
/-- `XBAR_CLIENT` (R339). -/
abbrev rXBAR_CLIENT (n i : Nat) : Nat := chBase n + 0xb000 + 4 * i
abbrev fXBAR_CLIENT_LANE (n i : Nat) : Fld := ⟨rXBAR_CLIENT n i, 0, 6⟩
abbrev fXBAR_CLIENT_VALID (n i : Nat) : Fld := ⟨rXBAR_CLIENT n i, 7, 1⟩
abbrev fXBAR_CLIENT_POS_FIRST (n i : Nat) : Fld := ⟨rXBAR_CLIENT n i, 8, 10⟩
abbrev fXBAR_CLIENT_POS_COUNT (n i : Nat) : Fld := ⟨rXBAR_CLIENT n i, 18, 10⟩
/-- `TST_LOOP` (R461). -/
abbrev rTST_LOOP (n : Nat) : Nat := chBase n + 0xc000
abbrev fTST_LOOP_DEPTH (n : Nat) : Fld := ⟨rTST_LOOP n, 0, 3⟩
abbrev fTST_LOOP_LOOP_ATTEN (n : Nat) : Fld := ⟨rTST_LOOP n, 8, 5⟩
/-- `TST_PAT` (R461). -/
abbrev rTST_PAT (n : Nat) : Nat := chBase n + 0xc004
abbrev fTST_PAT_GEN (n : Nat) : Fld := ⟨rTST_PAT n, 0, 1⟩
abbrev fTST_PAT_CHK (n : Nat) : Fld := ⟨rTST_PAT n, 1, 1⟩
abbrev fTST_PAT_LOCK (n : Nat) : Fld := ⟨rTST_PAT n, 2, 1⟩
/-- `TST_PAT_ERR` (R461). -/
abbrev rTST_PAT_ERR (n : Nat) : Nat := chBase n + 0xc008
abbrev fTST_PAT_ERR_ERRORS (n : Nat) : Fld := ⟨rTST_PAT_ERR n, 0, 32⟩
/-- `GRANT_A` (R196). -/
abbrev rGRANT_A (n i : Nat) : Nat := chBase n + 0x10000 + 8 * i
abbrev fGRANT_A_START (n i : Nat) : Fld := ⟨rGRANT_A n i, 0, 11⟩
abbrev fGRANT_A_LEN (n i : Nat) : Fld := ⟨rGRANT_A n i, 16, 11⟩
abbrev fGRANT_A_SC (n i : Nat) : Fld := ⟨rGRANT_A n i, 28, 4⟩
/-- `GRANT_B` (R196). -/
abbrev rGRANT_B (n i : Nat) : Nat := chBase n + 0x10004 + 8 * i
abbrev fGRANT_B_LEAF (n i : Nat) : Fld := ⟨rGRANT_B n i, 0, 10⟩
abbrev fGRANT_B_VALID (n i : Nat) : Fld := ⟨rGRANT_B n i, 16, 1⟩
/-- `LEAF_W0` (R191). -/
abbrev rLEAF_W0 (n i : Nat) : Nat := chBase n + 0x20000 + 64 * i
abbrev fLEAF_W0_VALID (n i : Nat) : Fld := ⟨rLEAF_W0 n i, 0, 1⟩
abbrev fLEAF_W0_STATE (n i : Nat) : Fld := ⟨rLEAF_W0 n i, 1, 2⟩
abbrev fLEAF_W0_DS_SC (n i : Nat) : Fld := ⟨rLEAF_W0 n i, 16, 16⟩
/-- `LEAF_W1` (R191). -/
abbrev rLEAF_W1 (n i : Nat) : Nat := chBase n + 0x20004 + 64 * i
abbrev fLEAF_W1_RTD (n i : Nat) : Fld := ⟨rLEAF_W1 n i, 0, 24⟩
/-- `LEAF_W2` (R191). -/
abbrev rLEAF_W2 (n i : Nat) : Nat := chBase n + 0x20008 + 64 * i
abbrev fLEAF_W2_CD_PRESET (n i : Nat) : Fld := ⟨rLEAF_W2 n i, 0, 16⟩
abbrev fLEAF_W2_CD_LEARNT (n i : Nat) : Fld := ⟨rLEAF_W2 n i, 16, 16⟩
/-- `LEAF_W3` (R191). -/
abbrev rLEAF_W3 (n i : Nat) : Nat := chBase n + 0x2000c + 64 * i
abbrev fLEAF_W3_EXP_PWR (n i : Nat) : Fld := ⟨rLEAF_W3 n i, 0, 8⟩
abbrev fLEAF_W3_SESSION (n i : Nat) : Fld := ⟨rLEAF_W3 n i, 16, 16⟩
/-- `LEAF_W4` (R191). -/
abbrev rLEAF_W4 (n i : Nat) : Nat := chBase n + 0x20010 + 64 * i
abbrev fLEAF_W4_FREQ_HIST (n i : Nat) : Fld := ⟨rLEAF_W4 n i, 0, 16⟩
abbrev fLEAF_W4_POWER_LAST (n i : Nat) : Fld := ⟨rLEAF_W4 n i, 16, 16⟩
/-- `LEAF_W5` (R191). -/
abbrev rLEAF_W5 (n i : Nat) : Nat := chBase n + 0x20014 + 64 * i
abbrev fLEAF_W5_ROGUE (n i : Nat) : Fld := ⟨rLEAF_W5 n i, 0, 16⟩
abbrev fLEAF_W5_MISSED (n i : Nat) : Fld := ⟨rLEAF_W5 n i, 16, 16⟩
/-- `LEAF_W6` (R191). -/
abbrev rLEAF_W6 (n i : Nat) : Nat := chBase n + 0x20018 + 64 * i
abbrev fLEAF_W6_MISRANGED (n i : Nat) : Fld := ⟨rLEAF_W6 n i, 0, 16⟩
abbrev fLEAF_W6_WRONG_ID (n i : Nat) : Fld := ⟨rLEAF_W6 n i, 16, 16⟩
/-- `LEAF_W7` (R191). -/
abbrev rLEAF_W7 (n i : Nat) : Nat := chBase n + 0x2001c + 64 * i
abbrev fLEAF_W7_SERIAL_LO (n i : Nat) : Fld := ⟨rLEAF_W7 n i, 0, 32⟩
/-- `LEAF_W8` (R191). -/
abbrev rLEAF_W8 (n i : Nat) : Nat := chBase n + 0x20020 + 64 * i
abbrev fLEAF_W8_SERIAL_HI (n i : Nat) : Fld := ⟨rLEAF_W8 n i, 0, 32⟩
/-- `MRG_CFG` (R286). -/
abbrev rMRG_CFG (i : Nat) : Nat := 0x200000 + 256 * i
abbrev fMRG_CFG_VALID (i : Nat) : Fld := ⟨rMRG_CFG i, 0, 1⟩
abbrev fMRG_CFG_STORE (i : Nat) : Fld := ⟨rMRG_CFG i, 1, 1⟩
abbrev fMRG_CFG_CH_A (i : Nat) : Fld := ⟨rMRG_CFG i, 2, 2⟩
abbrev fMRG_CFG_CH_B (i : Nat) : Fld := ⟨rMRG_CFG i, 4, 2⟩
abbrev fMRG_CFG_HOME (i : Nat) : Fld := ⟨rMRG_CFG i, 6, 1⟩
abbrev fMRG_CFG_REVERT (i : Nat) : Fld := ⟨rMRG_CFG i, 7, 1⟩
abbrev fMRG_CFG_GUARD (i : Nat) : Fld := ⟨rMRG_CFG i, 8, 8⟩
abbrev fMRG_CFG_WTR (i : Nat) : Fld := ⟨rMRG_CFG i, 16, 10⟩
/-- `MRG_OPREQ` (R286). -/
abbrev rMRG_OPREQ (i : Nat) : Nat := 0x200004 + 256 * i
abbrev fMRG_OPREQ_OPREQ (i : Nat) : Fld := ⟨rMRG_OPREQ i, 0, 4⟩
/-- `MRG_STATUS` (R286). -/
abbrev rMRG_STATUS (i : Nat) : Nat := 0x200008 + 256 * i
abbrev fMRG_STATUS_STATE (i : Nat) : Fld := ⟨rMRG_STATUS i, 0, 3⟩
abbrev fMRG_STATUS_MEMBER_A (i : Nat) : Fld := ⟨rMRG_STATUS i, 3, 2⟩
abbrev fMRG_STATUS_MEMBER_B (i : Nat) : Fld := ⟨rMRG_STATUS i, 5, 2⟩
abbrev fMRG_STATUS_PREFERRED (i : Nat) : Fld := ⟨rMRG_STATUS i, 7, 1⟩
abbrev fMRG_STATUS_EXCLUSIVE (i : Nat) : Fld := ⟨rMRG_STATUS i, 8, 1⟩
abbrev fMRG_STATUS_REQ (i : Nat) : Fld := ⟨rMRG_STATUS i, 9, 4⟩
abbrev fMRG_STATUS_REQ_MEMBER (i : Nat) : Fld := ⟨rMRG_STATUS i, 13, 1⟩
abbrev fMRG_STATUS_REQ_FAR (i : Nat) : Fld := ⟨rMRG_STATUS i, 14, 1⟩
abbrev fMRG_STATUS_WTR_RUN (i : Nat) : Fld := ⟨rMRG_STATUS i, 15, 1⟩
abbrev fMRG_STATUS_FAR_UNPAIRED (i : Nat) : Fld := ⟨rMRG_STATUS i, 16, 1⟩
abbrev fMRG_STATUS_HOME_MISMATCH (i : Nat) : Fld := ⟨rMRG_STATUS i, 17, 1⟩
abbrev fMRG_STATUS_CROSSED (i : Nat) : Fld := ⟨rMRG_STATUS i, 18, 1⟩
abbrev fMRG_STATUS_STORE_LOST (i : Nat) : Fld := ⟨rMRG_STATUS i, 19, 1⟩
abbrev fMRG_STATUS_SR_VALID (i : Nat) : Fld := ⟨rMRG_STATUS i, 20, 1⟩
abbrev fMRG_STATUS_D_VALID (i : Nat) : Fld := ⟨rMRG_STATUS i, 21, 1⟩
/-- `MRG_SEEN` (R286). -/
abbrev rMRG_SEEN (i : Nat) : Nat := 0x20000c + 256 * i
abbrev fMRG_SEEN_OVERFLOW (i : Nat) : Fld := ⟨rMRG_SEEN i, 0, 1⟩
abbrev fMRG_SEEN_LATE_COPY (i : Nat) : Fld := ⟨rMRG_SEEN i, 1, 1⟩
abbrev fMRG_SEEN_FRAME_LOST (i : Nat) : Fld := ⟨rMRG_SEEN i, 2, 1⟩
abbrev fMRG_SEEN_SWITCHED (i : Nat) : Fld := ⟨rMRG_SEEN i, 3, 1⟩
abbrev fMRG_SEEN_CROSSED_SEEN (i : Nat) : Fld := ⟨rMRG_SEEN i, 4, 1⟩
/-- `MRG_DTRACK` (R286). -/
abbrev rMRG_DTRACK (i : Nat) : Nat := 0x200010 + 256 * i
abbrev fMRG_DTRACK_D (i : Nat) : Fld := ⟨rMRG_DTRACK i, 0, 32⟩
/-- `MRG_DMEAS` (R286). -/
abbrev rMRG_DMEAS (i : Nat) : Nat := 0x200014 + 256 * i
abbrev fMRG_DMEAS_D (i : Nat) : Fld := ⟨rMRG_DMEAS i, 0, 32⟩
/-- `MRG_OCC` (R286). -/
abbrev rMRG_OCC (i : Nat) : Nat := 0x200018 + 256 * i
abbrev fMRG_OCC_OCC (i : Nat) : Fld := ⟨rMRG_OCC i, 0, 17⟩
/-- `MRG_OCC_MAX` (R286). -/
abbrev rMRG_OCC_MAX (i : Nat) : Nat := 0x20001c + 256 * i
abbrev fMRG_OCC_MAX_OCC_MAX (i : Nat) : Fld := ⟨rMRG_OCC_MAX i, 0, 17⟩
/-- `MRG_SR_TX` (R286). -/
abbrev rMRG_SR_TX (i : Nat) : Nat := 0x200020 + 256 * i
abbrev fMRG_SR_TX_SR (i : Nat) : Fld := ⟨rMRG_SR_TX i, 0, 32⟩
/-- `MRG_SR_RX` (R286). -/
abbrev rMRG_SR_RX (i : Nat) : Nat := 0x200024 + 256 * i
abbrev fMRG_SR_RX_SR (i : Nat) : Fld := ⟨rMRG_SR_RX i, 0, 32⟩
/-- `MRG_WTR_LEFT` (R286). -/
abbrev rMRG_WTR_LEFT (i : Nat) : Nat := 0x200028 + 256 * i
abbrev fMRG_WTR_LEFT_LEFT (i : Nat) : Fld := ⟨rMRG_WTR_LEFT i, 0, 10⟩
/-- `MRG_GLOBAL` (R286). -/
abbrev rMRG_GLOBAL : Nat := 0x200800
abbrev fMRG_GLOBAL_FAR_USED : Fld := ⟨rMRG_GLOBAL, 0, 1⟩
abbrev fMRG_GLOBAL_FAR_PAIR : Fld := ⟨rMRG_GLOBAL, 1, 1⟩
abbrev fMRG_GLOBAL_HBM_READY : Fld := ⟨rMRG_GLOBAL, 2, 1⟩
/-- `CPH_CTRL` (R321). -/
abbrev rCPH_CTRL : Nat := 0x210000
abbrev fCPH_CTRL_REQUIRE : Fld := ⟨rCPH_CTRL, 0, 1⟩
abbrev fCPH_CTRL_KEY_RETAIN : Fld := ⟨rCPH_CTRL, 1, 1⟩
abbrev fCPH_CTRL_FAIL_LIMIT : Fld := ⟨rCPH_CTRL, 8, 8⟩
/-- `CPH_STATUS` (R321). -/
abbrev rCPH_STATUS : Nat := 0x210004
abbrev fCPH_STATUS_ACTIVE : Fld := ⟨rCPH_STATUS, 0, 8⟩
abbrev fCPH_STATUS_UNDERSTUDIES : Fld := ⟨rCPH_STATUS, 8, 5⟩
abbrev fCPH_STATUS_RETIRED : Fld := ⟨rCPH_STATUS, 16, 8⟩
abbrev fCPH_STATUS_SHORT : Fld := ⟨rCPH_STATUS, 24, 1⟩
abbrev fCPH_STATUS_KEK_VALID : Fld := ⟨rCPH_STATUS, 25, 1⟩
abbrev fCPH_STATUS_KEY_LOST : Fld := ⟨rCPH_STATUS, 26, 1⟩
/-- `CPH_LOAD` (R321). -/
abbrev rCPH_LOAD : Nat := 0x210008
abbrev fCPH_LOAD_LOAD : Fld := ⟨rCPH_LOAD, 0, 16⟩
abbrev fCPH_LOAD_CAPACITY : Fld := ⟨rCPH_LOAD, 16, 16⟩
/-- `CPH_CORE` (R321). -/
abbrev rCPH_CORE (i : Nat) : Nat := 0x210010 + 4 * i
abbrev fCPH_CORE_CORE (i : Nat) : Fld := ⟨rCPH_CORE i, 0, 32⟩
/-- `CPH_CTX_A` (R321). -/
abbrev rCPH_CTX_A (i : Nat) : Nat := 0x220000 + 8 * i
abbrev fCPH_CTX_A_STATE (i : Nat) : Fld := ⟨rCPH_CTX_A i, 0, 3⟩
abbrev fCPH_CTX_A_DIR (i : Nat) : Fld := ⟨rCPH_CTX_A i, 3, 1⟩
abbrev fCPH_CTX_A_CHANNEL (i : Nat) : Fld := ⟨rCPH_CTX_A i, 4, 2⟩
abbrev fCPH_CTX_A_USED (i : Nat) : Fld := ⟨rCPH_CTX_A i, 6, 1⟩
abbrev fCPH_CTX_A_SESSION (i : Nat) : Fld := ⟨rCPH_CTX_A i, 16, 16⟩
/-- `CPH_CTX_B` (R321). -/
abbrev rCPH_CTX_B (i : Nat) : Nat := 0x220004 + 8 * i
abbrev fCPH_CTX_B_LAST_MF (i : Nat) : Fld := ⟨rCPH_CTX_B i, 0, 32⟩
/-- `HL_CFG` (R339). -/
abbrev rHL_CFG (i : Nat) : Nat := 0x300000 + 4 * i
abbrev fHL_CFG_ROLE (i : Nat) : Fld := ⟨rHL_CFG i, 0, 3⟩
abbrev fHL_CFG_GROUP (i : Nat) : Fld := ⟨rHL_CFG i, 3, 1⟩
abbrev fHL_CFG_SX_EN (i : Nat) : Fld := ⟨rHL_CFG i, 4, 1⟩
abbrev fHL_CFG_TX_INV (i : Nat) : Fld := ⟨rHL_CFG i, 5, 1⟩
abbrev fHL_CFG_RX_INV (i : Nat) : Fld := ⟨rHL_CFG i, 6, 1⟩
/-- `HL_STATUS` (R339). -/
abbrev rHL_STATUS (i : Nat) : Nat := 0x300100 + 4 * i
abbrev fHL_STATUS_STATE (i : Nat) : Fld := ⟨rHL_STATUS i, 0, 3⟩
abbrev fHL_STATUS_SX (i : Nat) : Fld := ⟨rHL_STATUS i, 3, 1⟩
abbrev fHL_STATUS_LOS (i : Nat) : Fld := ⟨rHL_STATUS i, 4, 1⟩
abbrev fHL_STATUS_HOLDING (i : Nat) : Fld := ⟨rHL_STATUS i, 5, 1⟩
abbrev fHL_STATUS_SNR (i : Nat) : Fld := ⟨rHL_STATUS i, 8, 8⟩
abbrev fHL_STATUS_HL_TRANSIENTS (i : Nat) : Fld := ⟨rHL_STATUS i, 16, 8⟩
abbrev fHL_STATUS_HL_TRAIN_FAIL (i : Nat) : Fld := ⟨rHL_STATUS i, 24, 8⟩
/-- `HP_STATUS` (R339). -/
abbrev rHP_STATUS (i : Nat) : Nat := 0x300200 + 4 * i
abbrev fHP_STATUS_AM_LOCK (i : Nat) : Fld := ⟨rHP_STATUS i, 0, 1⟩
abbrev fHP_STATUS_PCS_LOCK (i : Nat) : Fld := ⟨rHP_STATUS i, 1, 1⟩
abbrev fHP_STATUS_CAL_LOCK (i : Nat) : Fld := ⟨rHP_STATUS i, 2, 1⟩
abbrev fHP_STATUS_LF_RX (i : Nat) : Fld := ⟨rHP_STATUS i, 3, 1⟩
abbrev fHP_STATUS_RF_RX (i : Nat) : Fld := ⟨rHP_STATUS i, 4, 1⟩
abbrev fHP_STATUS_LF_TX (i : Nat) : Fld := ⟨rHP_STATUS i, 5, 1⟩
abbrev fHP_STATUS_SEEN (i : Nat) : Fld := ⟨rHP_STATUS i, 8, 8⟩
abbrev fHP_STATUS_SKEW (i : Nat) : Fld := ⟨rHP_STATUS i, 16, 8⟩
/-- `HL_LOOP` (R461). -/
abbrev rHL_LOOP (i : Nat) : Nat := 0x300300 + 4 * i
abbrev fHL_LOOP_DEPTH (i : Nat) : Fld := ⟨rHL_LOOP i, 0, 2⟩
/-- `HGC_TX_DATA` (R339). -/
abbrev rHGC_TX_DATA (i : Nat) : Nat := 0x301000 + 64 * i
abbrev fHGC_TX_DATA_WORD (i : Nat) : Fld := ⟨rHGC_TX_DATA i, 0, 32⟩
/-- `HGC_TX_END` (R339). -/
abbrev rHGC_TX_END (i : Nat) : Nat := 0x301004 + 64 * i
abbrev fHGC_TX_END_WORD (i : Nat) : Fld := ⟨rHGC_TX_END i, 0, 32⟩
/-- `HGC_TX_STATUS` (R339). -/
abbrev rHGC_TX_STATUS (i : Nat) : Nat := 0x301008 + 64 * i
abbrev fHGC_TX_STATUS_CREDIT (i : Nat) : Fld := ⟨rHGC_TX_STATUS i, 0, 14⟩
abbrev fHGC_TX_STATUS_OUTSTANDING (i : Nat) : Fld := ⟨rHGC_TX_STATUS i, 16, 3⟩
abbrev fHGC_TX_STATUS_OVERRUN (i : Nat) : Fld := ⟨rHGC_TX_STATUS i, 24, 1⟩
abbrev fHGC_TX_STATUS_OPEN (i : Nat) : Fld := ⟨rHGC_TX_STATUS i, 25, 1⟩
/-- `HGC_TX_CTRL` (R339). -/
abbrev rHGC_TX_CTRL (i : Nat) : Nat := 0x30100c + 64 * i
abbrev fHGC_TX_CTRL_CANCEL (i : Nat) : Fld := ⟨rHGC_TX_CTRL i, 0, 1⟩
/-- `HGC_RX_DATA` (R339). -/
abbrev rHGC_RX_DATA (i : Nat) : Nat := 0x301020 + 64 * i
abbrev fHGC_RX_DATA_WORD (i : Nat) : Fld := ⟨rHGC_RX_DATA i, 0, 32⟩
/-- `HGC_RX_STATUS` (R339). -/
abbrev rHGC_RX_STATUS (i : Nat) : Nat := 0x301024 + 64 * i
abbrev fHGC_RX_STATUS_PACKETS (i : Nat) : Fld := ⟨rHGC_RX_STATUS i, 0, 12⟩
abbrev fHGC_RX_STATUS_END (i : Nat) : Fld := ⟨rHGC_RX_STATUS i, 12, 1⟩
abbrev fHGC_RX_STATUS_NOTICE_LOST (i : Nat) : Fld := ⟨rHGC_RX_STATUS i, 13, 1⟩
/-- `HGC_RX_CTRL` (R339). -/
abbrev rHGC_RX_CTRL (i : Nat) : Nat := 0x301028 + 64 * i
abbrev fHGC_RX_CTRL_MARK (i : Nat) : Fld := ⟨rHGC_RX_CTRL i, 0, 1⟩
abbrev fHGC_RX_CTRL_REWIND (i : Nat) : Fld := ⟨rHGC_RX_CTRL i, 1, 1⟩
abbrev fHGC_RX_CTRL_RELEASE (i : Nat) : Fld := ⟨rHGC_RX_CTRL i, 2, 1⟩
/-- `MSIX_ADDR_LO` (R470). -/
abbrev rMSIX_ADDR_LO (f i : Nat) : Nat := 0x2000 + fnBase * f + 16 * i
abbrev fMSIX_ADDR_LO_ADDR (f i : Nat) : Fld := ⟨rMSIX_ADDR_LO f i, 0, 32⟩
/-- `MSIX_ADDR_HI` (R470). -/
abbrev rMSIX_ADDR_HI (f i : Nat) : Nat := 0x2004 + fnBase * f + 16 * i
abbrev fMSIX_ADDR_HI_ADDR (f i : Nat) : Fld := ⟨rMSIX_ADDR_HI f i, 0, 32⟩
/-- `MSIX_DATA` (R470). -/
abbrev rMSIX_DATA (f i : Nat) : Nat := 0x2008 + fnBase * f + 16 * i
abbrev fMSIX_DATA_DATA (f i : Nat) : Fld := ⟨rMSIX_DATA f i, 0, 32⟩
/-- `MSIX_CTRL` (R470). -/
abbrev rMSIX_CTRL (f i : Nat) : Nat := 0x200c + fnBase * f + 16 * i
abbrev fMSIX_CTRL_MASK (f i : Nat) : Fld := ⟨rMSIX_CTRL f i, 0, 1⟩
/-- `MSIX_PBA` (R470). -/
abbrev rMSIX_PBA (f : Nat) : Nat := 0x3000 + fnBase * f
abbrev fMSIX_PBA_PENDING (f : Nat) : Fld := ⟨rMSIX_PBA f, 0, 32⟩

end Sys2Proof.Machine
end

