-- ==== Sys2Proof/Machine/State.lean ====
section
/-! DEFINITION. The state of the part: every register in one sparse map by BAR0 offset, and beside it the queues,
stores, timers and protocol state that the chapters give each unit. Plain data throughout. -/

namespace Sys2Proof.Machine

/-- A word in a queue with its end mark (R102). -/
structure QWord where
  word : Word
  last : Bool
  deriving DecidableEq, Repr

/-- The request and reply queue of one requester, or the transmit and receive queue of an HGC port (R102 to R106,
R338). In the I2C port's queues each entry is one byte (R107). -/
structure Mailbox where
  /-- entries written since the last end mark -/
  part : List Word
  /-- a word without credit was met: the rest of its packet is discarded (R103) -/
  dropping : Bool
  /-- entries of complete packets that the consumer has not released -/
  held : Nat
  /-- entries left in the draining bank of the request queue (R102) -/
  drain : Nat
  /-- entries of the reply queue not yet released -/
  rsp : List QWord
  /-- read position in `rsp` -/
  rd : Nat
  /-- marked position in `rsp` (R104) -/
  mark : Nat
  /-- end mark of the last word read -/
  lastEnd : Bool
  /-- entries left in the draining bank of the reply queue (R102) -/
  rspDrain : Nat
  /-- credit has been granted -/
  isOpen : Bool
  /-- replies and completion notices that wait for space in the reply queue, oldest first (R105) -/
  wait : List (List Word)
  deriving DecidableEq, Repr

/-- Empty queues that grant no credit. -/
def Mailbox.closed : Mailbox := ⟨[], false, 0, 0, [], 0, 0, false, 0, false, []⟩

/-- A packet in the serial order of R95: the requester, the link, its bytes, the queue entries it occupies, whether it is a request
(not a malformed packet or one of another kind), whether its requester was over the limit of R89 when it arrived, and its
arrival time. -/
structure Arrival where
  who : Who
  via : Nat
  bytes : List Byte
  size : Nat
  isRequest : Bool
  excess : Bool
  time : BitVec 64
  deriving DecidableEq, Repr

/-- An operation in progress (R89): who asked, the opcode, the resources it holds, the targets still to come, the
source block of the first target that failed, a number of its own, and whether its answer is a reply (a CUE of
mode 0) or a completion notice. -/
structure Op where
  org : Origin
  opcode : Nat
  holds : List Nat
  targets : List Nat
  failed : Option Nat
  data : Nat
  reply : Bool
  start : BitVec 64
  deriving DecidableEq, Repr

/-- Later packets of a multi-packet reply or completion notice that wait to be placed (R83, R105): whose it is, the kind without the more
flag, opcode and status of the first packet, the parameter bytes still to come. -/
structure Later where
  org : Origin
  kind : Nat
  opcode : Nat
  status : Nat
  rest : List Byte
  deriving DecidableEq, Repr

/-- A cue that awaits its boundary (R97, R99, R100): mode, frame number of mode 1. -/
structure Pending where
  mode : Nat
  frame : Nat
  org : Origin
  deriving DecidableEq, Repr

/-- An open rehearsal session (R97): the staging block, its owner, the rehearsal bank, a pending cue, and the opcode
of the command whose implicit session it is (R108, R257), if it is one. -/
structure Rehearsal where
  block : Nat
  owner : Who
  bank : SMap Word
  cue : Option Pending
  implicit : Option Nat
  deriving DecidableEq, Repr

/-- A callboard record before its seal (R439). -/
structure CbRec where
  seq : BitVec 32
  code : BitVec 16
  block : BitVec 8
  sev : BitVec 3
  todValid : Bool
  epoch : BitVec 4
  life : BitVec 64
  tod : BitVec 64
  p0 : BitVec 32
  p1 : BitVec 16
  deriving DecidableEq, Repr

/-- The callboard (R440, R441): last sequence number assigned (held in PD00), recorder input, ring, freeze area, and
the first and last sequence written to the HBM archive. -/
structure Callboard where
  seq : BitVec 32
  input : List CbRec
  ring : SMap (Option CbRec)
  newest : Option (BitVec 32)
  freeze : List CbRec
  toArchive : List CbRec
  archive : SMap (Option CbRec)
  deriving DecidableEq, Repr

/-- One entry of the MSI-X state of a function (R470): enabled, function mask, armed and pending vectors. -/
structure Msix where
  enabled : Bool
  fnMask : Bool
  armed : BitVec 32
  pend : BitVec 32
  deriving DecidableEq, Repr

/-- What the block has put out of its ports: the last word and bytes read or sent, and every MSI-X message in order. The
model's own record of outputs. -/
structure Ports where
  /-- the word a register read returns -/
  data : Word
  /-- the bytes an I2C read returns, a fabric unit, frame or burst sends, or a receiver hands to its demapper -/
  bytes : List Byte
  /-- MSI-X messages sent, as (function, vector) -/
  msix : List (Nat × Nat)
  /-- coded bits that a transmitter puts on its subcarriers, subcarrier 0 first (R146, R203) -/
  lanes : List (List Bool)
  /-- 66-bit blocks that the demapper hands to the host ports, by client (R235) -/
  blocks : List (Nat × List Blk)
  /-- 66-bit blocks that host ports send, by head lane (R333, R336) -/
  ports : List (Nat × List Blk)
  /-- the edge of `PPS_OUT` about the newest internal second, in 0.125 ns, and its high time in us (R355) -/
  pps : Option (Int × Nat)
  /-- pulses put out on `FP_OUT` at multiframe starts and internal seconds (R355) -/
  fp : Nat
  deriving DecidableEq, Repr

/-- The counter store (R431 to R435). A counter is 49 bits: the sticky WRAPPED bit above the 48-bit count. `live`
counts events; `store` is what the last tick took; `latch` is what each PCIe requester's last LO read latched. Keys
are the selectors of CNT_READ. -/
structure Counters where
  live : SMap (BitVec 49)
  store : SMap (BitVec 49)
  latch0 : SMap (BitVec 49)
  latch1 : SMap (BitVec 49)
  tick : BitVec 64
  deriving DecidableEq, Repr

/-- Straps sampled at the rise of `RESET_N` (R28), and the I2C address straps of the always-on domain (R29). -/
structure BootSt where
  resetLow : Bool
  perstLow : Bool
  /-- the PCIe link is up -/
  linkUp : Bool
  oscSel : Fin 4
  bootSel : Bool
  testEn : Bool
  asel : Fin 4
  thermtrip : Bool
  /-- gated after a thermal shutdown, until `RESET_N` is driven low (R61) -/
  gated : Bool
  /-- held in reset by a brown-out (R47) -/
  brown : Bool
  /-- powered down in the dark house (R46): wake sources no longer act -/
  powerDown : Bool
  /-- rails out of range, by monitor input number less 48 (R416) -/
  railsLow : List Nat
  /-- failed attempts of slots A and B since their last READY (R73) -/
  failA : Nat
  failB : Nat
  lastGood : Option Bool
  /-- a slot named by SYS_RESET, tried first (R76) -/
  named : Option Bool
  /-- slots the ROM has still to try: false A, true B (R73) -/
  slots : List Bool
  /-- boot log in PD00: error, stage, life timestamp (R70) -/
  log : List (Nat × Nat × BitVec 64)
  watchdog : Bool
  /-- fuses: security version and revoked root keys (R72, R75) -/
  svn : Nat
  revoked : Nat
  /-- a wake from the dark house is in progress, not a cold start (R411) -/
  waking : Bool
  /-- a warm reset has been commanded: its life-timestamp deadline and slot (R76) -/
  warm : Option Nat
  /-- requests for AVS: consecutive disagreeing read-backs (R48) -/
  avsBad : Nat
  /-- temperature alerts armed again (R60): warning and critical -/
  warnHot : Bool
  critHot : Bool
  /-- hottest since the last fall below 45 degrees exceeded 85 (R446) -/
  cycleHot : Bool
  /-- the house clock is locked (R68) -/
  clock : Bool
  /-- the download window: image bytes by offset (R74) -/
  dl : SMap Byte
  deriving DecidableEq, Repr

/-- A start waiting in the queue of R79. -/
inductive StartItem where
  | quad (q : Ch)
  | channel (n : Ch)
  | domain (d : Nat)
  deriving DecidableEq, Repr

/-- An entry to the dark house that has been accepted (R406): whose it is,
whether the HBM domains were ON before it (R407), and the leaf tables as they were, for the retention banks (R408). -/
structure Entry where
  org : Origin
  hbmOn : Bool
  leaf : SMap Word
  deriving DecidableEq, Repr

/-- The power-state machinery: start queue and the times of the last starts (R79), dark-house entry, sleep, wake
source that fired, and the retention banks (R408). -/
structure PwrSt where
  queue : List StartItem
  lastQuad : Option (BitVec 64)
  lastChan : Option (BitVec 64)
  lastAny : Option (BitVec 64)
  /-- starts dispatched whose unit has not reached its state -/
  starting : List StartItem
  /-- channels leaving INTERMISSION, one after another (R403) -/
  exits : List Nat
  /-- state of each channel before the change it makes -/
  was : Four Nat
  /-- life timestamp since which a channel is ACTIVE, for the life records (R446) -/
  since : Four (Option (BitVec 64))
  /-- commanded target state of each channel while it changes: 0 DARK, 1 INTERMISSION, 2 ACTIVE -/
  target : Four (Option Nat)
  entry : Option Entry
  asleep : Bool
  /-- wake source that fired (R410) -/
  wake : Option Nat
  commitLife : BitVec 64
  deriving DecidableEq, Repr

/-- One input of the reference selector beside its registers (R345): validation completed, had a first validation. -/
structure TimIn where
  validated : Bool
  hadFirst : Bool
  deriving DecidableEq, Repr

/-- The timing block: time of day, pending TOD_STEP of mode 0 (R358), inputs, build-out, PPS alignment (R354). -/
structure TimSt where
  sec : Nat
  ns : Nat
  pendingStep : Option (Nat × Origin)
  inputs : List TimIn
  /-- ACQUIRING bandwidth now, in 1/1,024 of 0.1 Hz (R350) -/
  bw : Nat
  /-- life timestamp of the lock, and how long the last one lasted, in ns (R351) -/
  lockAt : BitVec 64
  history : Nat
  /-- the house frequency in ppt at each evaluation while LOCKED, newest first, with its life timestamp (R351) -/
  samples : List (BitVec 64 × Int)
  /-- OSC_CAL and STEER as the last tick took them, in ppt (R352) -/
  cal : Int
  steer : Int
  /-- build-out offset, 0.125 ns (R348) -/
  buildOut : Int
  /-- consecutive pulses beyond 100 ns, consecutive good ones, consecutive missing ones; a first pulse was seen -/
  ppsBad : Nat
  ppsGood : Nat
  ppsMiss : Nat
  ppsSeen : Bool
  /-- slewing left, in 0.125 ns (R354) -/
  slew : Int
  /-- offset of PPS_OUT in force: OFS_NS and FRAC applied at an internal second (R355) -/
  ppsOfs : Int
  /-- the house frequency averaged over the holdover history at the end of the last lock, ppt (R351) -/
  avg : Int
  deriving DecidableEq, Repr

/-- A fabric link (R382 to R386). -/
structure FabLink where
  /-- packets waiting, with the leaf ID a hub link addresses (R387), 0x3FF for all -/
  txq : List (Nat × List Byte)
  /-- bytes of the head packet already sent -/
  txSent : Nat
  /-- S of R386, and the far receive credit R unwrapped against it -/
  sent : Nat
  far : Nat
  epoch : Nat
  /-- bytes of the packet being received; none while waiting for a first unit -/
  rx : Option (List Byte)
  /-- bytes released by this side's receive queue -/
  rel : Nat
  /-- epoch and domain of the last valid control unit (R385) -/
  lastCtl : Option (Nat × Nat)
  /-- the rest of a packet already discarded is coming (R383) -/
  skip : Bool
  /-- units of released frames that wait: MFAS, whether the frame's verdict lets it be used, bytes (R277, R383) -/
  units : List (Nat × Bool × List Byte)
  /-- units that wait for a frame or, on a hub, for a share: share, leaf ID, bytes -/
  staged : List (Nat × Nat × List Byte)
  deriving DecidableEq, Repr

/-- A forwarded request (R393): our tag, the requester, the opcode and DEST, the time of its arrival or of its ACCEPTED, and whether that has
come. -/
structure Fwd where
  tag : Nat
  org : Origin
  opcode : Nat
  dest : Nat
  time : BitVec 64
  accepted : Bool
  deriving DecidableEq, Repr

/-- What a route keeps beside its register (R390): advertisement number and expiry time. -/
structure RouteX where
  num : BitVec 32
  expiry : BitVec 64
  deriving DecidableEq, Repr

/-- The fabric engine. -/
structure FabSt where
  links : Four FabLink
  fwd : List Fwd
  routes : SMap (Option RouteX)
  advNum : BitVec 32
  nextTag : Nat
  /-- replies, notices, advertisements and offers that wait for the engine, in the order of their arrival (R390, R393, R395): life timestamp,
  link, packet -/
  inbox : List (BitVec 64 × Nat × List Byte)
  deriving DecidableEq, Repr

/-- An entry of the monitor's result queue (R425): timestamp, the `MON_Q2` word, results discarded before it. -/
structure MonEntry where
  ts : BitVec 64
  q2 : Word
  lost : Nat
  deriving DecidableEq, Repr

/-- A filter chain (R420 to R424): raw codes its span holds, newest first; the notch outputs of the final filter's span that were clamped,
newest first; samples since its reset; the time of the reset, none while its next conversion is to come; the sequence weight at the
reset, and whether it has changed since. -/
structure MonChain where
  codes : List Nat
  clamps : List Bool
  n : Nat
  at0 : Option (BitVec 64)
  weight : Nat
  stale : Bool
  deriving DecidableEq, Repr

/-- A chain with every stage empty. -/
def MonChain.init : MonChain := ⟨[], [], 0, some 0#64, 0, false⟩

/-- The monitor converter (R416 to R428): result queue; the slot that runs, none before the first round; the input it converts, and
whether that conversion is to be discarded; correction of offset and gain in force; chains by input; inputs whose bypassed notch has its
record; since when the check band-gap calls for another `BG_FAULT`; results discarded since the last entry, and in this second. -/
structure MonSt where
  queue : List MonEntry
  slot : Option Nat
  cur : Option Nat
  void : Bool
  cal : Int × Int
  chains : SMap MonChain
  noted : List Nat
  bgSince : Option (BitVec 64)
  lost : Nat
  lostSec : Nat
  deriving DecidableEq, Repr

/-- A monitor that is off. -/
def MonSt.init : MonSt := ⟨[], none, none, false, (0, 0), [], [], none, 0, 0⟩

/-- A monitor that goes dark: what has its record, and the results discarded in this second, are kept. -/
def MonSt.fresh (m : MonSt) : MonSt := { MonSt.init with noted := m.noted, lostSec := m.lostSec }

/-- The HGC port of a channel (R338): its queues, whole packets waiting for the line (bytes and queue words), the units
of the packet being sent, the units received that no packet has taken yet, and whether the receiver searches for a valid length. -/
structure HgcPort where
  mbx : Mailbox
  tx : List (List Byte × Nat)
  sending : List Byte
  rx : List Byte
  hunt : Bool
  deriving DecidableEq, Repr

/-- Calendar receiver of a group port (R337): the position of the next block after the last marker, markers missing in a row, whether a
marker has been seen, and calendar lock. -/
structure CalRx where
  pos : Nat
  miss : Nat
  seen : Bool
  lock : Bool
  deriving DecidableEq, Repr

/-- A calendar receiver that has seen no marker. -/
def CalRx.init : CalRx := ⟨0, 0, false, false⟩

/-- Host lane hidden state (R326 to R329): consecutive training restarts, times of losses of lock within 1 s, a
targeted test in progress, whether the lane has failed one, own and partner transmit taps, receive pre-FEC ratio; at a head lane the
calendar receiver of its port. -/
structure LaneSt where
  restarts : Nat
  losses : List (BitVec 64)
  testing : Bool
  failed : Bool
  own : List Nat
  partner : List Nat
  ber : Nat
  cal : CalRx
  deriving DecidableEq, Repr

/-- A lane before its first training. -/
def LaneSt.init : LaneSt := ⟨0, [], false, false, [], [], 0, CalRx.init⟩

/-- One ADC (R127 to R131). -/
structure AdcSt where
  /-- slices with a lasting fault, oldest first; 64 is the understudy -/
  lasting : List Nat
  /-- slices in targeted test, the first under test; `true` marks a test by `SLICE_TEST` -/
  tests : List (Nat × Bool)
  /-- slices that passed their test and return at the next boundary -/
  back : List Nat
  /-- times of transient faults by slice (R129) -/
  trans : List (Nat × BitVec 64)
  /-- the position the understudy is to take after 1 ms of alignment -/
  next : Option Nat
  deriving DecidableEq, Repr

/-- An ADC with every slice in service. -/
def AdcSt.init : AdcSt := ⟨[], [], [], [], none⟩

/-- Optical engine and converters of a channel (R111 to R132). -/
structure EngSt where
  /-- feed class last measured: 0 lost, 1 low, 2 good or high -/
  feed : Nat
  /-- lost, and not yet good again for 1 ms -/
  feedLost : Bool
  /-- bias search has locked since the start -/
  searched : Bool
  /-- bias of the six loops, 0.001 of V-pi, and error last measured, 0.01 units -/
  bias : List Int
  err : List Int
  /-- loops at 90 % and at 100 % of their range, as last recorded -/
  near : Nat
  lim : Nat
  /-- `DV_TX_ENABLE` has set the output dark -/
  dvDark : Bool
  /-- dwell of the rotation, 0 to 64 (R127) -/
  dwell : Nat
  adc : Four AdcSt
  /-- DACs under test, with the mark of a host test -/
  dacTests : List (Nat × Bool)
  /-- correction that background calibration has given since: offset 1/16 LSB, gain 1/1,024, timing 10 fs, of an ADC slice by 65c + s, of
  DAC c by 260 + c (R128) -/
  corr : SMap (Int × Int × Int)
  /-- index of the free values that the foreground calibration of this start gave (R121) -/
  cal : Option Nat
  deriving DecidableEq, Repr

/-- An engine whose channel is DARK. The feed counts as good until a measurement says otherwise. -/
def EngSt.init : EngSt :=
  ⟨2, false, false, [0, 0, 0, 0, 0, 0], [0, 0, 0, 0, 0, 0], 0, 0, false, 0, Four.all AdcSt.init, [], [], none⟩

/-- The receive half of a cue whose two halves are not both in force (R160): staging block, multiframe number of mode 1, the words that
the receiver runs on. `early`: the transmit half is not in force yet; `done`: the receive half already is. -/
structure RxHalf where
  block : Nat
  frame : Option Nat
  old : SMap Word
  early : Bool
  done : Bool
  deriving DecidableEq, Repr

/-- The native receiver of a channel (R152 to R162). -/
structure LineSt where
  /-- furthest STATE of the running acquisition, and its start -/
  furthest : Nat
  start : BitVec 64
  /-- an acquisition has begun since the channel left DARK (R153) -/
  tried : Bool
  /-- the dispersion about which the running acquisition searches, in 10 ps/nm; none in a full scan (R153, R154) -/
  centre : Option Int
  /-- the running acquisition follows a failure (R154) -/
  fullScan : Bool
  /-- the last dispersion estimate since the channel left DARK (R153, R155) -/
  est : Option Int
  /-- when holding began -/
  heldAt : BitVec 64
  /-- every codeword has failed since this time (R162) -/
  failing : Option (BitVec 64)
  /-- re-acquiring from the held values (R155) -/
  reacq : Bool
  /-- the next acquisition uses the frequency and dispersion held on entry to INTERMISSION (R156) -/
  held : Bool
  /-- frames sent into a loopback of depth 4 to 6 that the receiver has not had yet (R453, R454) -/
  loop : List (List Byte)
  deriving DecidableEq, Repr

/-- A receiver that is off. -/
def LineSt.init : LineSt := ⟨0, 0#64, false, none, false, none, 0#64, none, false, false, []⟩

/-- The decoder's windows (R210, R211, R220). -/
structure FecSt where
  bits : Nat
  errs : Nat
  corr : Nat
  cw : Nat
  unc : Nat
  frmUnc : Nat
  hist : List Nat
  lastCw : Nat
  lastUnc : Nat
  lastHist : List Nat
  sdUp : Nat
  sdDown : Nat
  excDown : Nat
  deriving DecidableEq, Repr

/-- A decoder with nothing decoded. -/
def FecSt.init : FecSt := ⟨0, 0, 0, 0, 0, 0, List.replicate 17 0, 0, 0, List.replicate 17 0, 0, 0, 0⟩

/-- A received frame: its descrambled bytes, verdict, 48-bit number, and the BIP errors it shows of the frame before it,
if that one was received (R241). -/
structure RxFrame where
  bytes : List Byte
  verdict : Nat
  fn : Nat
  bip : Option Nat
  deriving DecidableEq, Repr

/-- Acceptance filters over a stream of frames (R237, R242 to R245). -/
structure OhFilt where
  srVal : Nat
  srRun : Nat
  ssmVal : Nat
  ssmRun : Nat
  /-- STAT bits 7 to 4 last carried, and their runs -/
  statVal : Nat
  statRuns : List Nat
  /-- PT of the multiframe so far; whether its frames disagree -/
  pt : Option Nat
  ptBad : Bool
  ptVal : Nat
  ptRun : Nat
  ptAcc : Option Nat
  trace : List Byte
  trcPrev : List Byte
  trcRun : Nat
  trcAcc : List Byte
  /-- slot-map entries of the multiframe so far; whether none is missing -/
  map : List Nat
  mapOk : Bool
  /-- clients whose map differed at the last comparison, and those in SMM (R237) -/
  differ : List Nat
  smm : List Nat
  deriving DecidableEq, Repr

/-- Filters with nothing accepted. -/
def OhFilt.init : OhFilt := ⟨0, 0, 0, 0, 0, [0, 0, 0, 0], none, false, 0, 0, none, [], [], 0, [], [], true, [], []⟩

/-- The mapper of a client (R234 to R236): blocks that wait, bits of its last 257-bit block not yet sent, and whether a sub-rate client's
blocks are discarded up to the next frame start. -/
structure MapTx where
  buf : List Blk
  bits : List Bool
  skip : Bool
  deriving DecidableEq, Repr

/-- A mapper with nothing in it. -/
def MapTx.init : MapTx := ⟨[], [], false⟩

/-- The demapper of a client (R234, R235): bits of a block not yet complete, whether some of them are lost, and bits before its first
block boundary. -/
structure MapRx where
  bits : List Bool
  lost : Bool
  skip : Nat
  deriving DecidableEq, Repr

/-- A demapper at a block boundary. -/
def MapRx.init : MapRx := ⟨[], false, 0⟩

/-- Transmit side of a framer (R225, R241, R244, R246). -/
structure TxFramer where
  running : Bool
  fn : Nat
  bip : Nat
  /-- BIP-8 of each share of the previous hub frame (R230) -/
  bip8 : List Nat
  sapi : List Byte
  dest : List Byte
  oper : List Byte
  expSapi : List Byte
  /-- SAPI, destination and operator field that go out from the next multiframe (R252) -/
  pend : Option (List Byte × List Byte × List Byte)
  dmOut : Bool
  dmEcho : Bool
  /-- merge-clock start of a running delay measurement, and results of members A and B -/
  dmStart : Option Nat
  dmGot : List (Nat × Nat)
  /-- mappers by client (R234) -/
  maps : SMap MapTx
  /-- tags of the previous multiframe by slot (R302) -/
  tags : SMap (BitVec 128)
  /-- frames, or on a hub the shares of frames, that wait for the end of their interleaver block or group (R202, R203) -/
  block : List (List Byte)
  deriving DecidableEq, Repr

/-- A framer that is off. -/
def TxFramer.init : TxFramer := ⟨false, 0, 0, [], List.replicate 16 0#8, List.replicate 16 0#8, List.replicate 204 0#8,
  List.replicate 16 0#8, none, false, false, none, [], [], [], []⟩

/-- What a second has gathered for its performance latch (R249). -/
structure SecAcc where
  corr : Nat
  unc : Nat
  frames : Nat
  err : Nat
  bip : Nat
  febe : Nat
  bits : Nat
  errs : Nat
  /-- ratios of its windows, as -100 log10 -/
  wins : List Nat
  flags : Nat
  part : Bool
  /-- `HUB_LOS` was set in it (R232) -/
  hubLos : Bool
  deriving DecidableEq, Repr

/-- A second with nothing in it. -/
def SecAcc.init : SecAcc := ⟨0, 0, 0, 0, 0, 0, 0, 0, [], 0, true, false⟩

/-- A latched second that waits for its classification (R250): its life second, its time-of-day second if valid, ES, SES,
incomplete. -/
structure PmSec where
  second : Nat
  tod : Option Nat
  es : Bool
  ses : Bool
  part : Bool
  deriving DecidableEq, Repr

/-- A bin of compatibility counts (R250): start in TOD seconds, ES, SES, unavailable seconds, incomplete. -/
structure PmBin where
  start : Nat
  es : Nat
  ses : Nat
  uas : Nat
  part : Bool
  deriving DecidableEq, Repr

/-- Compatibility counts of a channel (R250, R108): seconds not yet classified, the time of day of the last one classified,
unavailability, open and last closed bins. -/
structure PmSt where
  wait : List PmSec
  lastTod : Option Nat
  unavail : Bool
  bin15 : PmBin
  last15 : PmBin
  bin24 : PmBin
  last24 : PmBin
  deriving DecidableEq, Repr

/-- No bin. -/
def PmBin.init : PmBin := ⟨0, 0, 0, 0, true⟩

/-- No counts. -/
def PmSt.init : PmSt := ⟨[], none, false, PmBin.init, PmBin.init, PmBin.init, PmBin.init⟩

/-- The hunter and the multiframe lock of a frame stream, or of one share of a hub's downstream (R227 to R230):
candidate positions with their consecutive matches; alignment and misses in a row; lock, expected MFAS, run and
mismatches; parity over the last frame or share. -/
structure Hunt where
  cands : List (Nat × Nat)
  align : Option Nat
  miss : Nat
  mfLock : Bool
  mfNext : Nat
  mfRun : Nat
  mfMiss : Nat
  par : Option Nat
  deriving DecidableEq, Repr

/-- A hunter that starts afresh. -/
def Hunt.init : Hunt := ⟨[], none, 0, false, 0, 0, 0, none⟩

/-- The deframer and framer of a channel (R222 to R250). -/
structure OhSt where
  /-- hunters by share; a point-to-point channel uses number 0 -/
  hunts : SMap Hunt
  /-- life timestamp at which HUNT or SYNC was entered (R228) -/
  since : BitVec 64
  /-- number of the next frame to arrive, the extension set, and an extension seen once -/
  fn : Nat
  extSet : Bool
  extSeen : Option Nat
  /-- the last number delivered -/
  lastFn : Nat
  /-- frames held before release, oldest first, with the FN[31:0] they carried -/
  held : List (RxFrame × Nat)
  /-- BIP errors of the two latest received frames, newest first (R240) -/
  bips : List Nat
  /-- bytes of FN[47:8] a leaf has gathered, with the position next expected (R230) -/
  svc : List Byte
  filt : OhFilt
  /-- block pointer state by client: the pointer expected next, and whether the last one disagreed (R234) -/
  ptr : SMap (Option (Nat × Bool))
  /-- demappers, and idle control blocks that the demapper is to delete, by client (R235) -/
  maps : SMap MapRx
  idleDue : SMap Nat
  /-- blocks of sub-rate clients discarded in the running second, by client (R236) -/
  subLost : SMap Nat
  ptrBad : List Nat
  tx : TxFramer
  sec : SecAcc
  pm : PmSt
  /-- records of R249 by life second -/
  latches : SMap (List Byte)
  /-- copies released toward the merge and not yet arrived there -/
  toMerge : List RxFrame
  deriving DecidableEq, Repr

/-- A frame path that is off. -/
def OhSt.init : OhSt := ⟨[], 0#64, 0, false, none, 0, [], [], [], OhFilt.init, [], [], [], [], [], TxFramer.init, SecAcc.init, PmSt.init, [], []⟩

/-- A ledger entry (R263): verdicts 0 to 3 of the two copies, decision 0 A, 1 B, 2 MISSING, 3 pending, BIP errors if
known, flags of byte 11, verdict and decision times in merge-clock cycles; whether each copy has arrived or been
declared MISSING; where the frame's place is. -/
structure Ledger where
  fn : Nat
  place : Nat
  va : Nat
  vb : Nat
  doneA : Bool
  doneB : Bool
  decision : Nat
  bipA : Option Nat
  bipB : Option Nat
  flags : Nat
  ta : Nat
  tb : Nat
  td : Nat
  deriving DecidableEq, Repr

/-- A copy that waits for its decision (R262), and whether it lies in the far store (R259). -/
structure MCopy where
  fr : RxFrame
  far : Bool
  deriving DecidableEq, Repr

/-- What the merge keeps of a member: its first and its last frame of the sequence with their verdict times (R264), copies of another
sequence in a row, copies in time in a row (R268), and copies held for decision. -/
structure MrgMem where
  first : Option (Nat × Nat)
  last : Option (Nat × Nat)
  foreign : Nat
  inTime : Nat
  store : List MCopy
  deriving DecidableEq, Repr

/-- A switching request that is present (R279, R281): code, member, and whether it is the far end's. -/
structure SwReq where
  code : Nat
  member : Nat
  far : Bool
  deriving DecidableEq, Repr

/-- A pair slot of the merge (R262 to R283). -/
structure MrgSt where
  /-- next frame number to decide -/
  next : Option Nat
  mem : Two MrgMem
  ledger : SMap (Option Ledger)
  /-- consecutive decisions forced by overflow (R268) -/
  forced : Nat
  /-- requests present, oldest first -/
  reqs : List SwReq
  /-- a fault of the home member moved the preference away (R282) -/
  moved : Bool
  /-- CROSSED: condition as last seen, and the life timestamp since when (R283) -/
  crossCond : Bool
  crossAt : BitVec 64
  /-- copies of a new sequence, with member and verdict time, held in the store until the move to it (R272) -/
  newSeq : List (Nat × RxFrame × Nat)
  /-- D in 1/65,536 merge-clock cycle (R267) -/
  dq : Int
  /-- the member that delivered alone before D was valid (R271) -/
  lead : Option Nat
  /-- time of the last decision in 1/65,536 merge-clock cycle, and of the last copy of the sequence followed in cycles (R266, R272) -/
  lastTd : Nat
  oldT : Nat
  /-- SRAM words of stored copies found uncorrectable: member, frame, byte offset (R276) -/
  badWords : List (Nat × Nat × Nat)
  /-- entries of the ledger found uncorrectable (R263) -/
  badEntries : List Nat
  /-- the number the sequence left behind would have decided next (R272) -/
  oldNext : Option Nat
  deriving DecidableEq, Repr

/-- A pair slot that is idle. -/
def MrgSt.init : MrgSt :=
  ⟨none, Two.all ⟨none, none, 0, 0, []⟩, [], 0, [], false, false, 0#64, [], 0, none, 0, 0, [], [], none⟩

/-- An entry of the retirement table (R374). -/
inductive Retire where
  | page (p : Nat)
  /-- the bank that holds a page -/
  | bank (p : Nat)
  | die (d : Nat)
  deriving DecidableEq, Repr

/-- An entry of the HBM error log (R373), without what follows from its page. -/
structure HLog where
  page : Nat
  cw : Nat
  die : Nat
  unc : Bool
  lasting : Bool
  count : Nat
  time : BitVec 64
  deriving DecidableEq, Repr

/-- Memory (R363 to R381): codewords of 16 symbols, unlisted a zero codeword; the error log; errors of the current
second by die position, region and kind, with count and first page; bits of stored SRAM words an injection has
inverted, by store and entry; a post-package repair in progress (page, die, hard); rows repaired (group, bank, die, hard); the
next codeword of the patrol. -/
structure MemSt where
  hbm : SMap (BitVec 256)
  log : List HLog
  second : List (Nat × Nat × Bool × Nat × Nat)
  flips : List (Nat × Nat × Nat)
  ppr : Option (Nat × Nat × Bool)
  repairs : List (Bool × Nat × Nat × Bool)
  patrol : Nat
  deriving DecidableEq, Repr

/-- Memory with nothing stored. -/
def MemSt.init : MemSt := ⟨[], [], [], [], none, [], 0⟩

/-- Key-bearing fields of a context (R293, R303, R312): key, salt, running GHASH, and the last multiframe number
processed. -/
structure KeyBytes where
  key : List Byte
  salt : List Byte
  hash : BitVec 128
  lastMf : Nat
  deriving DecidableEq, Repr

/-- A pending activation (R309). -/
structure Act where
  ctx : Nat
  mode : Nat
  frame : Nat
  org : Origin
  deriving DecidableEq, Repr

/-- A session in a multiframe that is received (R304): its client, the client's type and slots in that multiframe, the context that was
CURRENT for it and the one that was PENDING, and once it is over the tags that they give. -/
structure RxSess where
  sess : Nat
  client : Nat
  type : Nat
  slots : List Nat
  ctx : Option Nat
  pend : Option Nat
  tag : Option (BitVec 128)
  pendTag : Option (BitVec 128)
  deriving DecidableEq, Repr

/-- A multiframe as the receive side of the cipher knows it (R304): its number, how many of its frames have come, whether one was not CLEAN or
CORRECTED, whether it is over, the sessions of whose message a part is not there, the tags that its frames carry by slot, and the sessions
that await a verdict. -/
structure MfAcc where
  mf : Nat
  next : Nat
  bad : Bool
  closed : Bool
  short : List Nat
  tags : SMap (List Byte)
  sess : List RxSess
  deriving DecidableEq, Repr

/-- The cipher (R289 to R320). -/
structure CphSt where
  kek : Option (List Byte)
  keys : SMap (Option KeyBytes)
  acts : List Act
  /-- consecutive FAIL verdicts by session (R307) -/
  fails : SMap Nat
  authFail : List Nat
  /-- sessions that have left AUTH_FAIL and are released from the next multiframe on (R307) -/
  authLeft : List Nat
  txBlocked : List Nat
  /-- sessions whose counter set is allocated (R434) -/
  sets : List Nat
  /-- receive contexts that have made record 0x0713 since their activation (R308) -/
  nextSeen : List Nat
  /-- cores under test, with the set each came from: true active -/
  tests : List (Nat × Bool)
  trans : List (Nat × BitVec 64)
  /-- multiframes received with verdicts to come, by channel, newest first (R305) -/
  accs : Four (List MfAcc)
  /-- sessions a transmit job of whose running multiframe was dropped (R317) -/
  txDrop : List Nat
  /-- sessions whose next receive job has met its third fault (R317) -/
  rxDrop : List Nat
  deriving DecidableEq, Repr

/-- A cipher that holds no key. -/
def CphSt.init : CphSt := ⟨none, [], [], [], [], [], [], [], [], [], [], Four.all [], [], []⟩

/-- An entry of the stage-door list (R189): serial, key digest, measured RTD (0.125 ns), power (0.01 dBm), frequency (MHz),
listen subcarrier, nonce, when last heard, bursts heard. -/
structure SdEntry where
  serial : Nat
  digest : List Byte
  rtd : Nat
  power : Int
  freq : Int
  listen : Nat
  nonce : List Byte
  heard : BitVec 64
  bursts : Nat
  deriving DecidableEq, Repr

/-- What a burst descriptor says (R214). -/
structure Desc where
  first : Nat
  frames : Nat
  firstTag : Nat
  tags : Nat
  deriving DecidableEq, Repr

/-- One upstream burst receiver (R177 to R183): the grant in progress; presets loaded (expected power, dispersion,
frequency); detection time from S in 0.125 ns and its peak in 0.01 dB; whether the AFC runs its full range; arrival
error of the commit; descriptor; whether the burst is discarded or collided; codewords decoded so far. -/
structure BurstRx where
  grant : Option Nat
  presets : Int × Int × Int
  det : Option Nat
  level : Int
  fine : Bool
  commit : Option Int
  desc : Option Desc
  discard : Bool
  collided : Bool
  chunks : List (Bool × List Byte)
  deriving DecidableEq, Repr

/-- A receiver with no grant. -/
def BurstRx.init : BurstRx := ⟨none, (0, 0, 0), none, 0, true, none, none, false, false, []⟩

/-- What the hub keeps of a leaf beside its entry: bursts in a row beyond 2 ns (R179), missed grants in a row (R184),
collisions of the current second (R195), STATE before it was silenced. -/
structure LeafX where
  drift : Nat
  missRun : Nat
  rogueSec : Nat
  was : Nat
  deriving DecidableEq, Repr

/-- Nothing kept. -/
def LeafX.init : LeafX := ⟨0, 0, 0, 0⟩

/-- A hub channel (R166 to R198): when its cycle count began; burst receivers by subcarrier; stage-door list; leaves;
segments received, as frame number, entry and bytes; next upstream frame to release; false starts of the second; the
messages of types 4 to 7 that wait, with their share (R231); shares that still owe a map announcement; rotation of
the grant messages and message bytes of the current multiframe, by share. -/
structure HubSt where
  start : BitVec 64
  rx : SMap BurstRx
  list : List SdEntry
  leaves : SMap LeafX
  segs : List (Nat × Nat × List Byte)
  nextRel : Option Nat
  falseSec : Nat
  msgs : List (Nat × List Byte)
  announce : List Nat
  rot : SMap Nat
  mf : SMap (List Byte)
  /-- effective cycle of the map that is announced (R173) -/
  mapCycle : Option Nat
  /-- tags received in bursts: leaf table entry, multiframe, tag (R186) -/
  tags : List (Nat × Nat × List Byte)
  deriving DecidableEq, Repr

/-- A hub that is off. -/
def HubSt.init : HubSt := ⟨0#64, [], [], [], [], none, 0, [], [], [], [], none, []⟩

/-- A grant as a leaf knows it (R231): its index among the leaf's grants, subcarrier, start and length in quanta. -/
structure GrantMsg where
  idx : Nat
  sc : Nat
  start : Nat
  len : Nat
  deriving DecidableEq, Repr

/-- A leaf channel (R188 to R194): joined; silenced; nonce of its last discovery; first half of a join reply; grants of
the running and of the announced map with their number; effective cycle announced; ranging correction with its
effective cycle; last timeline stamp (cycle, offset in 1/256 quantum, when); when the current multiframe began;
upstream frames (number, when complete, bytes) and tags not yet sent; openings seen; next opening announced. -/
structure LeafSt where
  joined : Bool
  silenced : Bool
  nonce : List Byte
  run : List GrantMsg
  runCount : Nat
  next : List GrantMsg
  nextCount : Nat
  ann : Option Nat
  newRtd : Option (Nat × Nat)
  stamp : Option (Nat × Nat × BitVec 64)
  mf0 : BitVec 64
  up : List (Nat × Nat × List Byte)
  tags : List (Nat × List Byte)
  openings : Nat
  nextOpen : Nat
  /-- bursts have stopped for want of a timeline stamp, and record 0x0322 has said so (R193, R198) -/
  stale : Bool
  deriving DecidableEq, Repr

/-- A leaf that is off. -/
def LeafSt.init : LeafSt := ⟨false, false, [], [], 0, [], 0, none, none, none, 0#64, [], [], 0, 0, false⟩

/-- Payload test pattern of a channel (R456): generator; the checker's last 23 bits and its run of error-free bits. -/
structure PatSt where
  gen : BitVec 23
  ref : BitVec 23
  run : Nat
  deriving DecidableEq, Repr

/-- A pattern that starts. -/
def PatSt.init : PatSt := ⟨0x7FFFFF#23, 0#23, 0⟩

/-- Retirements that the life store keeps and that are reapplied at every cold start (R67): cipher cores; ADC slices
with a lasting fault by 4 x channel + converter; the retirement table of HBM (R374). -/
structure Perm where
  cores : List Nat
  slices : SMap (List Nat)
  retire : SMap (Option Retire)
  /-- when each entry of the table was made, life timestamp in us (R446) -/
  stamp : SMap Nat
  deriving DecidableEq, Repr

/-- What the life store keeps (R446): sector sequence, powered time in us, boots, power-on resets, thermal cycles, newest
hourly and monthly slots, active time of the channels in us, corrected HBM codewords by die position, fuses used,
retirements, and the bias samples by slot: 24 loops, and their extremes. -/
structure LifeImg where
  seq : Nat
  powered : Nat
  boots : Nat
  powerOns : Nat
  thermal : Nat
  hour : Nat
  month : Nat
  active : Four Nat
  ceDie : List Nat
  fuses : Nat
  perm : Perm
  hourly : SMap (List Int)
  monthly : SMap (List Int × List Int)
  deriving DecidableEq, Repr

/-- An image of a part never powered. -/
def LifeImg.init : LifeImg := ⟨0, 0, 0, 0, 0, 255, 255, Four.all 0, List.replicate 16 0, 0, ⟨[], [], [], []⟩, [], []⟩

/-- The life store (R447): the image in force, the newest sealed sector, a write in progress, and whether an event waits to be
written. -/
structure LifeStore where
  cur : LifeImg
  flash : LifeImg
  writing : Option LifeImg
  due : Bool
  deriving DecidableEq, Repr

/-- Windowed bandwidth (R438): length of the running window; `WIN_MS` was written in it; length of the window the rates are
of; the port counters at its start; the content blocks of the clients in it and the rates of the last, line-bound and host-bound, by
512 x channel + client. -/
structure WinSt where
  ms : Nat
  dirty : Bool
  len : Nat
  base : SMap Nat
  clients : SMap (Nat × Nat)
  rates : SMap (Word × Word)
  deriving DecidableEq, Repr

/-- Windows as they start. -/
def WinSt.init : WinSt := ⟨100, false, 0, [], [], []⟩

/-- A repair of an SRAM array (R457): store, array, row or column group ([15] column), and whether a fuse holds it. -/
structure Repair where
  store : Nat
  array : Nat
  what : Nat
  fuse : Bool
  deriving DecidableEq, Repr

/-- A capture and its header (R459): channel, source (false ADC, true DAC), decimation, trigger kind and value, life timestamp of
the first word, frame number at the trigger, `CONV_STATUS0` to `3`, truncated, damaged. -/
structure Capture where
  ch : Nat
  dac : Bool
  dec : Nat
  kind : Nat
  value : Nat
  life : BitVec 64
  fn : Nat
  conv : List Word
  trunc : Bool
  damaged : Bool
  /-- index of the free value that its samples are taken from -/
  seed : Nat
  /-- its place in HBM region 4; none while it lies in the buffer -/
  place : Option Nat
  deriving DecidableEq, Repr

/-- The armed or completed capture (R459, R460): its number, the pre-trigger sixteenths, and whether it is triggered. -/
structure CapArm where
  num : Nat
  cap : Capture
  pre : Nat
  triggered : Bool
  /-- callboard number and frame number as it was armed; its grant has started -/
  seq0 : BitVec 32
  fn0 : Nat
  granted : Bool
  deriving DecidableEq, Repr

/-- Self-test and repair (R449 to R460): the built-in self-test that runs, as scope and index, and the units it uses with the
power state each had before; repairs in force; the armed capture; captures held, by number; the next number. -/
structure TestSt where
  bist : Option (Nat × Nat)
  prior : List (StartItem × Nat)
  repairs : List Repair
  cap : Option CapArm
  caps : SMap (Option Capture)
  nextCap : Nat
  /-- captures drained so far, modulo the 1,495 places of region 4 -/
  nextPlace : Nat
  deriving DecidableEq, Repr

/-- No test. -/
def TestSt.init : TestSt := ⟨none, [], [], none, [], 0, 0⟩

/-- What the retention banks hold (R408): bank 0 the KEK and contexts with their words; banks 1 to 4 the leaf tables, as words;
bank 5 claims and the configuration outside the channel regions; bank 6 that of the channel regions and the traces; bank 7 callboard
records, the selector's state with its words, and the life image. -/
structure Banks where
  kek : Option (List Byte)
  keys : SMap (Option KeyBytes)
  ctx : SMap Word
  leaf : SMap Word
  claims : List (Nat × Who)
  sys : SMap Word
  chan : SMap Word
  trace : Four TxFramer
  ring : List CbRec
  tim : TimSt
  timRegs : SMap Word
  life : LifeImg
  deriving DecidableEq, Repr


/-- The state of the part. -/
structure State where
  /-- commands that wait, first in, first out -/
  pending : List Instr
  /-- every register word that differs from its reset value, by BAR0 offset -/
  regs : SMap Word
  /-- latched companion words of RL registers (R6), keyed by requester (0, 1, 2 for I2C) times 2^24 plus offset -/
  rl : SMap Word
  /-- life timestamp, ns (R359) -/
  life : BitVec 64
  /-- the two function mailboxes -/
  mbx : Two Mailbox
  /-- the I2C port's queues -/
  i2c : Mailbox
  /-- the serial order of R95 -/
  arrived : List Arrival
  /-- operations in progress -/
  ops : List Op
  /-- multi-packet answers whose later packets wait (R105) -/
  later : List Later
  /-- claims: resource and holder (R93) -/
  claims : List (Nat × Who)
  /-- open rehearsal sessions -/
  rehearsals : List Rehearsal
  cb : Callboard
  cnt : Counters
  msix : Two Msix
  out : Ports
  /-- compatibility channel of R108 -/
  dvChan : Ch
  /-- replies and notices discarded while an endpoint reset lasted (R65) -/
  epDiscards : Nat
  /-- free-value counter of the model's own: the next index of `Config` values -/
  free : Nat
  boot : BootSt
  pwr : PwrSt
  tim : TimSt
  fab : FabSt
  cph : CphSt
  mon : MonSt
  hgc : Four HgcPort
  lanes : SMap LaneSt
  eng : Four EngSt
  line : Four LineSt
  halves : List (Nat × RxHalf)
  fec : Four FecSt
  oh : Four OhSt
  mrg : Two MrgSt
  perm : Perm
  mem : MemSt
  pat : Four PatSt
  hub : Four HubSt
  leaf : Four LeafSt
  store : LifeStore
  win : WinSt
  test : TestSt
  /-- the retention banks once they are written and sealed (R408) -/
  banks : Option Banks
  deriving DecidableEq, Repr

/-- The always-on domain's own state with no strap sampled and `RESET_N` low. -/
def BootSt.init : BootSt where
  resetLow := true
  perstLow := false
  linkUp := false
  oscSel := 0
  bootSel := false
  testEn := false
  asel := 0
  thermtrip := false
  gated := false
  brown := false
  powerDown := false
  railsLow := []
  failA := 0
  failB := 0
  lastGood := none
  named := none
  slots := []
  log := []
  watchdog := false
  svn := 0
  revoked := 0
  waking := false
  warm := none
  avsBad := 0
  warnHot := false
  critHot := false
  cycleHot := false
  clock := false
  dl := []

/-- Everything dark. -/
def PwrSt.init : PwrSt where
  queue := []
  lastQuad := none
  lastChan := none
  lastAny := none
  starting := []
  exits := []
  was := Four.all 0
  since := Four.all none
  target := Four.all none
  entry := none
  asleep := false
  wake := none
  commitLife := 0#64

/-- A selector that has seen nothing: the bandwidth goal of R350 at its reset value, no build-out, a time of day of 0. -/
def TimSt.init : TimSt where
  sec := 0
  ns := 0
  pendingStep := none
  inputs := List.replicate 8 ⟨false, false⟩
  bw := 102400
  lockAt := 0#64
  history := 0
  samples := []
  cal := 0
  steer := 0
  buildOut := 0
  ppsBad := 0
  ppsGood := 0
  ppsMiss := 0
  ppsSeen := false
  slew := 0
  ppsOfs := 0
  avg := 0

/-- A fabric link that is down. -/
def FabLink.init : FabLink := ⟨[], 0, 0, 0, 0, none, 0, none, false, [], []⟩

/-- An HGC port that is shut. -/
def HgcPort.init : HgcPort := ⟨Mailbox.closed, [], [], [], false⟩

/-- A function's MSI-X state with nothing armed. -/
def Msix.init : Msix := ⟨false, false, 0#32, 0#32⟩

/-- The part as `VDD_AON` has risen (R63, R43): `RESET_N` still low, every register at its reset value but the power-on kind
and count of `SYS_RESET_CAUSE` (R67), nothing stored, no command waiting. -/
def State.reset : State where
  pending := []
  regs := [(0x44, 0x00010001#32)]
  rl := []
  life := 0#64
  mbx := Two.all Mailbox.closed
  i2c := Mailbox.closed
  arrived := []
  ops := []
  later := []
  claims := []
  rehearsals := []
  cb := ⟨0#32, [], [], none, [], [], []⟩
  cnt := ⟨[], [], [], [], 0#64⟩
  msix := Two.all Msix.init
  out := ⟨0#32, [], [], [], [], [], none, 0⟩
  dvChan := 0
  epDiscards := 0
  free := 0
  boot := BootSt.init
  pwr := PwrSt.init
  tim := TimSt.init
  fab := ⟨Four.all FabLink.init, [], [], 0#32, 0, []⟩
  cph := CphSt.init
  mon := MonSt.init
  hgc := Four.all HgcPort.init
  lanes := []
  eng := Four.all EngSt.init
  line := Four.all LineSt.init
  halves := []
  fec := Four.all FecSt.init
  oh := Four.all OhSt.init
  mrg := Two.all MrgSt.init
  perm := LifeImg.init.perm
  mem := MemSt.init
  pat := Four.all PatSt.init
  hub := Four.all HubSt.init
  leaf := Four.all LeafSt.init
  store := ⟨LifeImg.init, LifeImg.init, none, false⟩
  win := WinSt.init
  test := TestSt.init
  banks := none

/-- Why a step stops for good. -/
inductive Fault where
  /-- Raised by a request command whose parameter block is longer than 4,076 bytes: no packet of R81 carries it, so no
  such command can reach the block. Safe: the model stops where the hardware has no such input. -/
  | notAPacket
  deriving DecidableEq, Repr

/-- Why a command has no meaning. -/
inductive Refusal where
  /-- Raised by the dispatch for a command that has no meaning yet. Safe: nothing is claimed of it. -/
  | notModelled (mnemonic : String)
  deriving DecidableEq, Repr

end Sys2Proof.Machine
end

