-- ==== Sys2Proof/Machine/Ops.lean ====
section
/-! DEFINITION. The named operations over the state that every meaning is built from: register fields, counters,
callboard events, queues, answers, claims and the checks of R86. -/

namespace Sys2Proof.Machine

open Sys2Proof

/-! ### Bytes carried most significant first (R223) -/

/-- A number as k bytes, most significant first. -/
def be (k v : Nat) : List Byte := (le k v).reverse

/-- The number some bytes carry, most significant first. -/
def unbe (bs : List Byte) : Nat := unle bs.reverse

/-! ### Registers -/

/-- The stored word of a register. -/
def State.rd (s : State) (off : Nat) : Word := smGet resetWord s.regs off

/-- Store a register word. -/
def State.wr (s : State) (off : Nat) (v : Word) : State := { s with regs := smSet resetWord s.regs off v }

/-- The bits a field covers. -/
def Fld.mask (f : Fld) : Word := BitVec.ofNat 32 (2 ^ f.w - 1) <<< f.lo

/-- The value of a field of a word. -/
def Fld.of (f : Fld) (w : Word) : Nat := (w.extractLsb' f.lo f.w).toNat

/-- A word with a field replaced. -/
def Fld.put (f : Fld) (w : Word) (v : Nat) : Word := (w &&& ~~~f.mask) ||| ((BitVec.ofNat 32 v <<< f.lo) &&& f.mask)

/-- The value of a register field. -/
def State.fld (s : State) (f : Fld) : Nat := f.of (s.rd f.reg)

/-- Whether a one-bit register field is set. -/
def State.flag (s : State) (f : Fld) : Bool := s.fld f != 0

/-- Write a register field. -/
def State.setF (s : State) (f : Fld) (v : Nat) : State := s.wr f.reg (f.put (s.rd f.reg) v)

/-- Write a one-bit register field. -/
def State.setB (s : State) (f : Fld) (b : Bool) : State := s.setF f (b2n b)

/-- Raise a saturating register field by one. -/
def State.bumpF (s : State) (f : Fld) : State := s.setF f (sat (2 ^ f.w - 1) (s.fld f + 1))

/-- Return a register to its reset value. -/
def State.unreg (s : State) (off : Nat) : State := { s with regs := smDel s.regs off }

/-- The boot stage (R77). -/
def State.stage (s : State) : Nat := s.fld fSYS_BOOT_STATUS_STAGE

/-- Firmware runs: boot stages 5 to 7. -/
def State.firmware (s : State) : Bool := 5 ≤ s.stage && decide (s.stage ≤ 7)

/-- READY: stage 7 (R468). -/
def State.ready (s : State) : Bool := s.stage == 7

/-- Twos-complement value of a field. -/
def State.sfld (s : State) (f : Fld) : Int := signed f.w (s.fld f)

/-! ### Time -/

/-- The life timestamp reaches t (R359); the time of day advances with it while the house clock runs (R357), up to the end of its second.
DESIGN CHOICE, assumption 134: the second itself ends at `INTERNAL_SECOND`. -/
def passTime (t : BitVec 64) (s : State) : State :=
  let ns := if s.boot.clock && !s.pwr.asleep then min 999999999 (s.tim.ns + (t.toNat - s.life.toNat)) else s.tim.ns
  { s with life := t, tim := { s.tim with ns := ns } }

/-- The time-of-day word of R439: nanoseconds in [29:0], seconds in [63:30]. -/
def State.todWord (s : State) : BitVec 64 := BitVec.ofNat 64 (s.tim.sec % 2 ^ 34 * 2 ^ 30 + s.tim.ns % 2 ^ 30)

/-- Powered time in us (R446, R447): that of the image in force, which is its value at the last power-on, and the life timestamp
since. -/
def State.powered (s : State) : Nat := s.store.cur.powered + s.life.toNat / 1000

/-! ### Counters (R431, R432, R434) -/

/-- Counter selectors of `CNT_READ`. -/
def kDirect (k : Nat) : Nat := k
def kClient (n c k : Nat) : Nat := 0x10000000 + 0x4000000 * n + 4 * c + k
def kLeaf (n i k : Nat) : Nat := 0x20000000 + 0x4000000 * n + 8 * i + k
def kSession (x k : Nat) : Nat := 0x30000000 + 8 * x + k

/-- Direct-space numbers of the system counters (R434). -/
abbrev cPKT_BAD : Nat := 0
abbrev cREFUSED : Nat := 1
abbrev cNOTICE_LOST : Nat := 2
abbrev cCB_DROPPED : Nat := 3
abbrev cCB_RECORDS : Nat := 4
/-- Counters of channel n: FEC from 0, frame from 16, hub from 24, HGC from 32, fabric link from 40 (R434). -/
abbrev cCH (n k : Nat) : Nat := 64 + 64 * n + k
/-- Counters of pair slot p. -/
abbrev cPAIR (p k : Nat) : Nat := 320 + 16 * p + k
abbrev cCPH (k : Nat) : Nat := 352 + k
abbrev cMEM (k : Nat) : Nat := 368 + k
abbrev cSRAM (st k : Nat) : Nat := 392 + 2 * st + k
abbrev cMON_Q_LOST : Nat := 416
abbrev cHP (l k : Nat) : Nat := 448 + 8 * l + k

/-- A counter after n more events: 48 bits that wrap and set the sticky bit above them (R432). -/
def cntAdd (v : BitVec 49) (n : Nat) : BitVec 49 :=
  let c := v.toNat % 2 ^ 48 + n
  BitVec.ofNat 49 (c % 2 ^ 48 + (if v.getLsbD 48 || decide (2 ^ 48 ≤ c) then 2 ^ 48 else 0))

/-- A counter's 48-bit count. -/
def State.counter (s : State) (k : Nat) : Nat := (smGet (fun _ => 0#49) s.cnt.live k).toNat % 2 ^ 48

/-- A counter's sticky bit. -/
def State.wrapped (s : State) (k : Nat) : Bool := (smGet (fun _ => 0#49) s.cnt.live k).getLsbD 48

/-- Count n events. -/
def countN (k n : Nat) (s : State) : State :=
  { s with cnt := { s.cnt with live := smSet (fun _ => 0#49) s.cnt.live k (cntAdd (smGet (fun _ => 0#49) s.cnt.live k) n) } }

/-- Count one event. -/
def count (k : Nat) (s : State) : State := countN k 1 s

/-- A counter back to 0 with its sticky bit (R431). -/
def cntClear (k : Nat) (s : State) : State :=
  { s with cnt := { s.cnt with live := smDel s.cnt.live k, store := smDel s.cnt.store k } }

/-! ### Callboard events (R439, R440) -/

/-- Offer an event to the recorder: it takes the next sequence number, and finds room in the input of 1,024 events
or is dropped (R440). -/
def offer (code block p0 p1 : Nat) (s : State) : State :=
  let q := s.cb.seq + 1#32
  let r : CbRec := ⟨q, BitVec.ofNat 16 code, BitVec.ofNat 8 block, Config.severity code, s.flag fTIM_STATUS_TOD_VALID,
    BitVec.ofNat 4 (s.fld fTIM_STATUS_EPOCH), s.life, s.todWord, BitVec.ofNat 32 p0, BitVec.ofNat 16 p1⟩
  if s.cb.input.length < 1024 then { s with cb := { s.cb with seq := q, input := s.cb.input ++ [r] } }
  else ((count cCB_DROPPED { s with cb := { s.cb with seq := q } }).setB fCB_STATUS_DROPPED true)

/-- Source block IDs of R444. -/
abbrev bCH (n : Nat) : Nat := 0x10 + n
abbrev bHQ (q : Nat) : Nat := 0x20 + q
abbrev bSYS : Nat := 0x00
abbrev bMRG : Nat := 0x30
abbrev bCPH : Nat := 0x40
abbrev bTIM : Nat := 0x50
abbrev bHBM (k : Nat) : Nat := 0x60 + k
abbrev bMON : Nat := 0x70
abbrev bPWR : Nat := 0x80

/-! ### Packets (R81, R82) -/

/-- Status codes of R87. -/
abbrev stOK : Nat := 0x00
abbrev stACCEPTED : Nat := 0x01
abbrev stBAD_OPCODE : Nat := 0x10
abbrev stBAD_PARAM : Nat := 0x11
abbrev stCONFLICT : Nat := 0x12
abbrev stBUSY : Nat := 0x13
abbrev stREFUSED_BUDGET : Nat := 0x14
abbrev stNOT_PERMITTED : Nat := 0x15
abbrev stWRONG_STATE : Nat := 0x16
abbrev stHW_FAULT : Nat := 0x20
abbrev stTIMEOUT : Nat := 0x21
abbrev stUNREACHABLE : Nat := 0x30
abbrev stHOP_LIMIT : Nat := 0x31

/-- The part's own node address (R389). -/
def State.node (s : State) : Nat := s.fld fFAB_CTRL_ADDR

/-- The 16 header bytes of a packet (R81). -/
def header (kind hop dest src tag opcode plen status master : Nat) : List Byte :=
  [BitVec.ofNat 8 (0x10 + kind), BitVec.ofNat 8 hop] ++ le 2 dest ++ le 2 src ++ le 2 tag ++ le 2 opcode ++ le 2 plen ++
    [BitVec.ofNat 8 status, BitVec.ofNat 8 master, 0#8, 0#8]

/-- A whole packet: header, parameters, CRC-32C trailer (R81, R82). -/
def packet (kind hop dest src tag opcode status master : Nat) (params : List Byte) : List Byte :=
  let b := header kind hop dest src tag opcode params.length status master ++ params
  b ++ le 4 (crc32c b).toNat

/-- Kinds of VER_FLAGS[3:0] (R83). -/
abbrev kRequest : Nat := 1
abbrev kReply : Nat := 2
abbrev kNotice : Nat := 6
abbrev kUnsolicited : Nat := 4

/-! ### Queues (R102 to R105) -/

/-- Whole packets after the read position. -/
def Mailbox.packets (m : Mailbox) : Nat := ((m.rsp.drop m.rd).filter QWord.last).length

/-- Request credit of a queue of the given capacity (R103). -/
def Mailbox.credit (cap : Nat) (m : Mailbox) : Nat := if m.isOpen then cap - m.part.length - m.held else 0

/-- The words of a packet, the last with its end mark. -/
def marked : List Word → List QWord
  | [] => []
  | [w] => [⟨w, true⟩]
  | w :: ws => ⟨w, false⟩ :: marked ws

/-- Swap the banks of a reply queue when the draining one is empty and a whole packet waits (R102). -/
def Mailbox.swapRsp (bank : Nat) (m : Mailbox) : Mailbox :=
  if m.rspDrain = 0 && (m.rsp.any QWord.last) then { m with rspDrain := min bank m.rsp.length } else m

/-- Swap the banks of a request queue when the draining one is empty and a whole packet waits (R102). -/
def Mailbox.swapReq (bank : Nat) (m : Mailbox) : Mailbox :=
  if m.drain = 0 && decide (0 < m.held) then { m with drain := min bank (m.held + m.part.length) } else m

/-- Place a packet in a reply queue. -/
def Mailbox.push (bank : Nat) (ws : List Word) (m : Mailbox) : Mailbox :=
  ({ m with rsp := m.rsp ++ marked ws } : Mailbox).swapRsp bank

/-- Release the entries of a request packet the prompter has read (R104). -/
def Mailbox.releaseReq (bank n : Nat) (m : Mailbox) : Mailbox :=
  ({ m with held := m.held - n, drain := m.drain - n } : Mailbox).swapReq bank

/-- Same requester (R86). -/
def sameWho (a b : Who) : Bool := decide (a = b)

/-- Final answers that wait for space in a reply queue: an `ACCEPTED` is none (R87, R89). -/
def Mailbox.finals (m : Mailbox) : Nat := (m.wait.filter fun ws => (ws[3]?.getD 0#32).toNat % 256 != 1).length

/-- Final answers of a requester that wait for space (R89, R105). -/
def State.waiting (s : State) (w : Who) : Nat :=
  match w.master with
  | 1 => (s.mbx.get 0).finals
  | 2 => (s.mbx.get 1).finals
  | 3 => s.i2c.finals
  | _ => 0

/-- Requests of a requester that are outstanding: those waiting in the serial order, those in progress, those forwarded, and those
whose final status waits to be placed (R89, R393). -/
def State.outstanding (s : State) (w : Who) : Nat :=
  (s.arrived.filter fun a => a.isRequest && sameWho a.who w).length + (s.ops.filter fun o => sameWho o.org.who w).length +
    (s.fab.fwd.filter fun f => sameWho f.org.who w).length + s.waiting w

/-- Words of a reply queue reserved for outstanding requests (R105): 2,048 words each, for the four that R89 allows. -/
def State.reserved (s : State) (w : Who) : Nat := 2048 * min 4 (s.outstanding w)

/-- Place a final answer, or let it wait until unread replies are released (R105): those before it go first. -/
def Mailbox.deliver (cap bank : Nat) (ws : List Word) (m : Mailbox) : Mailbox :=
  if m.wait.isEmpty && decide (m.rsp.length + ws.length ≤ cap) then m.push bank ws else { m with wait := m.wait ++ [ws] }

/-- Place as many waiting answers as fit, in order. -/
def Mailbox.placeAll (cap bank : Nat) : List (List Word) → Mailbox → Mailbox
  | [], m => { m with wait := [] }
  | ws :: r, m => if m.rsp.length + ws.length ≤ cap then Mailbox.placeAll cap bank r (m.push bank ws) else { m with wait := ws :: r }

/-- Place a packet in the mailbox of a PCIe function (R105), or discard and count it while the mailbox is closed
(R65). An unsolicited notice uses only space neither filled nor reserved. `MBX_RSP` says that a packet was placed (R469). -/
def toMbx (f : Nat) (notice : Bool) (pkt : List Byte) (s : State) : State :=
  let m := s.mbx.get (pr2 f)
  let ws := toWords pkt
  if !m.isOpen then count cNOTICE_LOST { s with epDiscards := s.epDiscards + 1 }
  else if notice && decide (8192 < m.rsp.length + ws.length + s.reserved ⟨1 + f, 0, 0⟩) then
    (count cNOTICE_LOST s).setB (fMBX_RSP_STATUS_NOTICE_LOST f) true
  else
    let d := m.deliver 8192 4096 ws
    let t : State := { s with mbx := s.mbx.set (pr2 f) d }
    if d.wait.length = m.wait.length then t.setB (fINT_STATUS_MBX_RSP f) true else t

/-- Place a packet in the reply queue of the I2C port, one entry a byte (R107). -/
def toI2c (notice : Bool) (pkt : List Byte) (s : State) : State :=
  let bs := pkt ++ List.replicate ((4 - pkt.length % 4) % 4) 0#8
  let ws := bs.map fun b => b.setWidth 32
  if !s.i2c.isOpen then s
  else if notice && decide (32768 < s.i2c.rsp.length + ws.length + 4 * s.reserved ⟨3, 0, 0⟩) then count cNOTICE_LOST s
  else { s with i2c := s.i2c.deliver 32768 16384 ws }

/-- Capacity of a link's transmit queue in bytes: the manual gives the receive queue 32 KiB (R386) and no figure for
the transmit queue; the model takes the same. Assumption 20. -/
def txCap : Nat := 32768

/-- Bytes waiting in a link's transmit queue. -/
def FabLink.waiting (l : FabLink) : Nat := (l.txq.map fun e => e.2.length).foldl (· + ·) 0

/-- Put a packet for a leaf ID into the transmit queue of link n; no link, or no room, discards and counts it (R386). -/
def linkSendTo (n leaf : Nat) (pkt : List Byte) (s : State) : State :=
  let l := s.fab.links.get (ch4 n)
  let st := s.fld (fFAB_LINK_STATUS_STATE n)
  if (st = 2 || st = 3 || st = 4) && decide (l.waiting + pkt.length ≤ txCap) then
    { s with fab := { s.fab with links := s.fab.links.set (ch4 n) { l with txq := l.txq ++ [(leaf, pkt)] } } }
  else count (cCH n 44) s

/-- The leaf ID a packet on hub link n is addressed to: the leaf to which the hub offers its DEST (R387, R388), every
leaf otherwise. -/
def State.leafFor (s : State) (n : Nat) (pkt : List Byte) : Nat :=
  let d := unle ((pkt.drop 2).take 2)
  let b := s.fld (fFAB_LEAF_BASE_BASE n)
  if b ≤ d && decide (d < b + 1023) then d - b else 0x3FF

/-- Put a packet into the transmit queue of link n. -/
def linkSend (n : Nat) (pkt : List Byte) (s : State) : State := linkSendTo n (s.leafFor n pkt) pkt s

/-- The link of a node's valid route (R390), none without one. -/
def State.route (s : State) (node : Nat) : Option Nat :=
  if 1 ≤ node && decide (node ≤ 4096) && s.flag (fFAB_ROUTE_VALID (node - 1)) && decide (s.fld (fFAB_ROUTE_LINK (node - 1)) < 4) then
    some (s.fld (fFAB_ROUTE_LINK (node - 1))) else none

/-- Send an answer or notice to a requester over the fabric (R105, R391, R392). -/
def toFabric (o : Origin) (mk : Nat → List Byte) (s : State) : State :=
  if o.bcast || o.who.src = 0 then linkSend o.via (mk 0xFFFF) s
  else match s.route o.who.src with
    | some n => linkSend n (mk o.who.src) s
    | none => count (cCH o.via 46) s

/-- Send one packet of a reply or notice to the requester of an origin. The prompter's own actions get no answer. -/
def answerPacket (o : Origin) (kind opcode status : Nat) (params : List Byte) (s : State) : State :=
  let mk := fun dest => packet kind 32 dest s.node o.tag opcode status o.who.master params
  match o.who.master with
  | 1 => toMbx 0 (kind == kUnsolicited) (mk s.node) s
  | 2 => toMbx 1 (kind == kUnsolicited) (mk s.node) s
  | 3 => toI2c (kind == kUnsolicited) (mk s.node) s
  | 4 => toFabric o mk s
  | _ => s

/-- Send a reply or notice. One longer than a packet's 4,076 bytes goes out in several: the first now, with the more flag, the others
as space is free (R83, R105). -/
def answer (o : Origin) (kind opcode status : Nat) (params : List Byte) (s : State) : State :=
  if params.length ≤ 4076 then answerPacket o kind opcode status params s
  else
    let s := answerPacket o (kind + 8) opcode status (params.take 4076) s
    { s with later := s.later ++ [⟨o, kind, opcode, status, params.drop 4076⟩] }

/-- A refusal (R88): status, byte 0 (master holding the resource), byte 1 (block), bytes 2 and 3 (offset). -/
structure Ref where
  status : Nat
  b0 : Nat := 0xFF
  b1 : Nat := 0xFF
  off : Nat := 0xFFFF
  deriving DecidableEq, Repr

/-- The refusal parameter of R88. -/
def Ref.bytes (r : Ref) : List Byte := [BitVec.ofNat 8 r.b0, BitVec.ofNat 8 r.b1] ++ le 2 r.off

/-- Parameter 0 of a refusal record (R88). -/
def Ref.p0 (r : Ref) (master : Nat) : Nat :=
  master % 8 + r.b0 % 256 * 16 + r.b1 % 256 * 4096 + (if r.off = 0xFFFF then 0xFFF else r.off % 4096) * 1048576

/-- The record and count of a reply or notice that carries a refusal (R88, R434). -/
def refuseRecord (o : Origin) (opcode : Nat) (r : Ref) (s : State) : State :=
  count cREFUSED (offer (0x0100 + r.status) bSYS (r.p0 o.who.master) opcode s)

/-- Refuse a request: reply with the refusal parameter, record, count (R88). -/
def refuse (o : Origin) (opcode : Nat) (r : Ref) (s : State) : State :=
  answer o kReply opcode r.status r.bytes (refuseRecord o opcode r s)

/-- The final answer of an operation in progress: a completion notice, or the reply a CUE of mode 0 waits for; with
the refusal parameter and record of R88 for a status of 0x10 or above, the operation's own parameters after it: assumption 121. -/
def finish (op : Op) (r : Ref) (params : List Byte) (s : State) : State :=
  let kind := if op.reply then kReply else kNotice
  if 0x10 ≤ r.status then answer op.org kind op.opcode r.status (r.bytes ++ params) (refuseRecord op.org op.opcode r s)
  else answer op.org kind op.opcode r.status params s

/-- Remove an operation from those in progress. -/
def dropOp (op : Op) (s : State) : State := { s with ops := s.ops.filter fun x => !decide (x = op) }

/-- End an operation: it leaves the list, and its final answer is sent. -/
def endOp (op : Op) (r : Ref) (params : List Byte) (s : State) : State := finish op r params (dropOp op s)

/-- A target of the operations with an opcode has reached its end: each such operation loses the target, and ends
with OK, or with HW_FAULT naming its first failed target, when none is left (R414). -/
def targetDone (opcode target : Nat) (failed : Option Nat) (params : List Byte) (s : State) : State :=
  match s.ops.find? fun o => o.opcode == opcode && o.targets.contains target with
  | none => s
  | some op =>
    let fail := match op.failed with | some b => some b | none => failed
    let op' : Op := { op with targets := op.targets.filter (fun t => !(t == target)), failed := fail }
    let s := { s with ops := replaceFirst (fun x => decide (x = op)) (fun _ => op') s.ops }
    if op'.targets.isEmpty then
      match fail with
      | some b => endOp op' { status := stHW_FAULT, b1 := b } [] s
      | none => endOp op' { status := stOK } params s
    else s

/-- The mark of an entry to the dark house among the targets of `PWR_STATE_SET` (R414). -/
abbrev tDark : Nat := 0xC000

/-- The notice of a completed entry to the dark house (R414): placed at READY after the wake, for a remote requester once a route to
it exists. -/
def wakeNotice (s : State) : State :=
  if !s.ready || s.pwr.entry.isSome then s
  else match s.ops.find? fun o => o.targets.contains tDark with
    | none => s
    | some op =>
      if op.org.who.master = 4 && !op.org.bcast && op.org.who.src != 0 && (s.route op.org.who.src).isNone then s
      else endOp op { status := stOK } [] s

/-! ### Claims and holds (R92, R93, R89) -/

/-- Resource IDs of R92; above 0xFF the model's own names for units that operations hold (R89). -/
abbrev resCH (n : Nat) : Nat := n
abbrev resPAIR (p : Nat) : Nat := 0x10 + p
abbrev resHQ (q : Nat) : Nat := 0x20 + q
abbrev resTIM : Nat := 0x30
abbrev resKEY : Nat := 0x40
abbrev resPD (d : Nat) : Nat := 0x100 + d
abbrev resMEM : Nat := 0x200
abbrev resTEST : Nat := 0x201
abbrev resCAP : Nat := 0x202
abbrev resNONE : Nat := 0xFFF

/-- The claimable resources of R92. -/
def claimable (r : Nat) : Bool := r < 4 || r == 0x10 || r == 0x11 || (0x20 ≤ r && r ≤ 0x23) || r == 0x30 || r == 0x40

/-- The holder of a claim. -/
def State.holder (s : State) (r : Nat) : Option Who := (s.claims.find? fun c => c.1 == r).map Prod.snd

/-- Whether a resource is claimed by another requester. -/
def State.claimedByOther (s : State) (w : Who) (r : Nat) : Bool :=
  match s.holder r with
  | some h => !sameWho h w
  | none => false

/-- The operation in progress that holds a resource, if any. -/
def State.heldBy (s : State) (r : Nat) : Option Op := s.ops.find? fun o => o.holds.contains r

/-- The first of some resources that is claimed by another master or held by an operation in progress, as the master
that holds it (step 4 of R86). -/
def State.blocked (s : State) (w : Who) : List Nat → Option Nat
  | [] => none
  | r :: rs =>
    if s.claimedByOther w r then (s.holder r).map Who.master
    else match s.heldBy r with
      | some o => some o.org.who.master
      | none => s.blocked w rs

end Sys2Proof.Machine
end

