-- ==== Sys2Proof/Machine/Flags.lean ====
section
/-! DEFINITION. The summary and status words that are computed, not stored: `SYS_STATUS` (R468), `INT_STATUS` (R469),
the queue status registers (R106), and the interrupt conditions of R470 and R471. -/

namespace Sys2Proof.Machine

open Sys2Proof

/-- Some field of a word is not 0. -/
def State.any (s : State) (fs : List Fld) : Bool := fs.any fun f => s.fld f != 0

/-- `SYS_STATUS` (R468). -/
def State.sysStatus (s : State) : Nat :=
  b2n s.ready + 2 * b2n (s.flag fMEM_STATUS_HBM_READY) + 4 * b2n (s.flag fTIM_STATUS_TOD_VALID) +
  8 * b2n (s.fld fTIM_STATUS_STATE == 2) +
  16 * b2n (s.flag (fLINE_RX_STATUS_ACQUIRED 0)) + 32 * b2n (s.flag (fLINE_RX_STATUS_ACQUIRED 1)) +
  64 * b2n (s.flag (fLINE_RX_STATUS_ACQUIRED 2)) + 128 * b2n (s.flag (fLINE_RX_STATUS_ACQUIRED 3)) +
  256 * b2n (s.fld (fMRG_STATUS_STATE 0) == 4) + 512 * b2n (s.fld (fMRG_STATUS_STATE 1) == 4) +
  1024 * b2n (s.flag fCPH_STATUS_KEK_VALID) + 2048 * b2n (!s.cph.authFail.isEmpty) +
  4096 * b2n (!s.cph.txBlocked.isEmpty) + 8192 * b2n (s.flag fPWR_CH_STATE_RECEPTACLE)

/-- Summary source CHn of R469. -/
def State.chSummary (s : State) (n : Nat) : Bool :=
  s.any [fOH_RX_STATUS_SEEN n, fFEC_STATUS_SD_SEEN n, fFEC_STATUS_EXC_SEEN n, fLINE_RX_STATUS_ACQ_FAIL n,
    fENG_STATUS_UNREG n, fHUB_STATUS_POWER_DEV n]

/-- Lane l is a head lane: its ROLE is 1 to 5 (R332, R339). -/
def State.headLane (s : State) (l : Nat) : Bool := 1 ≤ s.fld (fHL_CFG_ROLE l) && decide (s.fld (fHL_CFG_ROLE l) ≤ 5)

/-- Summary source HQq of R469: `SEEN` of a head lane of the quad. -/
def State.hqSummary (s : State) (q : Nat) : Bool :=
  (span (16 * q) 16).any fun l => s.headLane l && s.fld (fHP_STATUS_SEEN l) != 0

/-- `INT_STATUS` of a function (R469): the latched bits as stored, the summary bits computed. -/
def State.intStatus (s : State) (f : Nat) : Nat :=
  b2n (s.flag (fINT_STATUS_MBX_RSP f)) + 2 * b2n (s.flag (fINT_STATUS_MBX_CREDIT f)) +
  4 * b2n (s.flag fCB_STATUS_INT && s.flag fCB_CTRL_INT_EN) +
  8 * b2n (s.any [fPWR_THERM_WARN, fPWR_THERM_CRIT]) + 16 * b2n (s.flag fPWR_AVS_STATUS_READBACK_ERR) +
  32 * b2n (s.any [fSYS_CFG_ERR_DARK_WRITE, fSYS_CFG_ERR_NO_SESSION, fSYS_CFG_ERR_CLAIMED]) +
  64 * b2n (s.flag fMON_STATUS_Q_OVF || !s.mon.queue.isEmpty) + 128 * b2n (s.flag (fINT_STATUS_TIM f)) +
  256 * b2n (s.chSummary 0) + 512 * b2n (s.chSummary 1) + 1024 * b2n (s.chSummary 2) + 2048 * b2n (s.chSummary 3) +
  4096 * b2n (s.rd (rMRG_SEEN 0) != 0#32) + 8192 * b2n (s.rd (rMRG_SEEN 1) != 0#32) +
  16384 * b2n (s.flag fCPH_STATUS_KEY_LOST) + 32768 * b2n (s.flag (fINT_STATUS_MEM f)) +
  65536 * b2n (s.hqSummary 0) + 131072 * b2n (s.hqSummary 1) + 262144 * b2n (s.hqSummary 2) + 524288 * b2n (s.hqSummary 3) +
  1048576 * b2n (s.flag fFAB_STATUS_DUP) + 2097152 * b2n (s.flag (fINT_STATUS_HGC f))

/-- `INT_N` is asserted (low) while function 0's `INT_STATUS` AND `INT_PIN_EN` is not 0; released before READY and
while the part sleeps (R471, R406). -/
def State.intN (s : State) : Bool :=
  s.ready && (BitVec.ofNat 32 (s.intStatus 0) &&& s.rd (rINT_PIN_EN 0)) != 0#32

/-- The vector a source is mapped to (R469). -/
def State.vecOf (s : State) (f src : Nat) : Nat :=
  bits (s.rd (rINT_VECTOR f (src / 4))).toNat (8 * (src % 4) + 4) (8 * (src % 4))

/-- Vector v's condition (R470): a source mapped to v is set in `INT_STATUS` and `INT_ENABLE`. -/
def State.vecCond (s : State) (f v : Nat) : Bool :=
  let on := BitVec.ofNat 32 (s.intStatus f) &&& s.rd (rINT_ENABLE f)
  (span 0 22).any fun src => on.getLsbD src && s.vecOf f src == v

/-- Vector v is masked, by itself or with its function (R470). -/
def State.vecMasked (s : State) (f v : Nat) : Bool :=
  (s.msix.get (pr2 f)).fnMask || s.flag (fMSIX_CTRL_MASK f v)

/-- One vector after an event (R470): an armed, unmasked vector whose condition holds sends one message and is
disarmed; an armed, masked one sets its pending bit. With MSI-X disabled nothing is sent. -/
def settleVec (f v : Nat) (s : State) : State :=
  let m := s.msix.get (pr2 f)
  if m.enabled && m.armed.getLsbD v && s.vecCond f v then
    if s.vecMasked f v then { s with msix := s.msix.set (pr2 f) { m with pend := m.pend ||| (1#32 <<< v) } }
    else { s with msix := s.msix.set (pr2 f) { m with armed := m.armed &&& ~~~(1#32 <<< v), pend := m.pend &&& ~~~(1#32 <<< v) },
                  out := { s.out with msix := s.out.msix ++ [(f, v)] } }
  else s

/-- Every vector of a function. A function with MSI-X disabled or nothing enabled keeps its vectors as they are. -/
def settleFn (f : Nat) (s : State) : State :=
  if s.ready && (s.msix.get (pr2 f)).enabled && s.rd (rINT_ENABLE f) != 0#32 then each (span 0 32) (settleVec f) s else s

/-- The interrupt side of every step: both functions' vectors follow their conditions (R470). -/
def settle (s : State) : State := settleFn 1 (settleFn 0 s)

/-- The outcome of a command that runs: the next state, its interrupts settled. -/
def ok (s : State) : Host.Outcome State Fault Refusal := .next (settle s)

/-- A register bit group packed from the queue status of R106. -/
def reqStatus (cap out : Nat) (m : Mailbox) : Nat :=
  m.credit cap + out * 65536 + b2n m.isOpen * 2 ^ 25

/-- The reply status word of R106. -/
def rspStatus (m : Mailbox) : Nat := sat 4095 m.packets + b2n m.lastEnd * 4096

end Sys2Proof.Machine
end

