-- ==== Sys2Proof/Machine/Serve.lean ====
section
/-! DEFINITION. Taking up a request (R84 to R95): the serial order, access levels, the six checks of R86 in their
order, and the answer. -/

namespace Sys2Proof.Machine

open Sys2Proof

/-- What OBSERVER may do with an opcode (R85). -/
inductive Obs where
  | no | yes | counters
  deriving DecidableEq, Repr

/-- The access column of an opcode table (R85). -/
structure Access where
  operator : Bool
  observer : Obs
  maint : Bool
  remote : Bool
  deriving DecidableEq, Repr

/-- Access `all`. -/
def accAll : Access := ⟨true, .yes, true, true⟩
/-- Access OPERATOR. -/
def accOp : Access := ⟨true, .no, false, false⟩
/-- Access OPERATOR, REMOTE. -/
def accOpRem : Access := ⟨true, .no, false, true⟩
/-- Access OPERATOR, OBSERVER, REMOTE. -/
def accOpObsRem : Access := ⟨true, .yes, false, true⟩
/-- Access OPERATOR, OBSERVER with counters, REMOTE. -/
def accCounters : Access := ⟨true, .counters, false, true⟩
/-- Access OPERATOR, MAINTENANCE. -/
def accOpMnt : Access := ⟨true, .no, true, false⟩
/-- Access OPERATOR, MAINTENANCE, REMOTE. -/
def accOpMntRem : Access := ⟨true, .no, true, true⟩

/-- The first valid access-list entry from index i whose range contains a source node (R394). -/
def State.aclEntry (s : State) (src : Nat) : Nat → Nat → Option Nat
  | _, 0 => none
  | i, k + 1 =>
    if s.flag (fFAB_ACL_A_VALID i) && decide (s.fld (fFAB_ACL_A_FIRST i) ≤ src) && decide (src ≤ s.fld (fFAB_ACL_A_LAST i)) then some i
    else s.aclEntry src (i + 1) k

/-- Whether the access list permits an opcode to a source node (R394): bit b of READ for a read opcode, of CHANGE for
a change opcode, b being the opcode's high byte. -/
def State.aclPermits (s : State) (src code : Nat) (acc : Access) : Bool :=
  match s.aclEntry src 0 64 with
  | none => false
  | some i =>
    let b := code / 256
    decide (b < 16) && (if acc.observer != .no then bit (s.fld (fFAB_ACL_B_READ i)) b else bit (s.fld (fFAB_ACL_B_CHANGE i)) b)

/-- Step 2 of R86: the master's access level permits the opcode (R85, R394). -/
def State.permits (s : State) (w : Who) (code : Nat) (acc : Access) : Bool :=
  match w.master with
  | 0 => true
  | 1 => acc.operator
  | 2 => acc.observer == .yes || (acc.observer == .counters && s.flag fSYS_ACCESS_OBS_COUNTERS)
  | 3 => acc.maint
  | 4 => acc.remote && s.aclPermits w.src code acc
  | _ => false

/-- How a request that passes its checks ends: a final reply, ACCEPTED with an operation in progress, an operation
whose reply waits (CUE of mode 0), or a final status of its own after its effect. -/
inductive Answer where
  | done (params : List Byte)
  | accept (op : Op)
  | defer (op : Op)
  | fail (r : Ref)
  deriving DecidableEq, Repr

/-- One opcode: its number, access, a further access condition on its parameters, the check of its parameters
(step 3 of R86: the offset of the first that offends), whether no limit and no TAG of step 4 applies to it (R97), the
resources it changes (step 4), and its state checks and effect (steps 5 and 6). -/
structure Cmd where
  code : Nat
  access : Access
  permit : Request → State → Bool := fun _ _ => true
  params : List Byte → State → Option Nat
  exempt : Request → Bool := fun _ => false
  touches : Request → State → List Nat := fun _ _ => []
  body : Request → State → Except Ref (State × Answer)

/-- Header fields of a packet in the serial order. -/
def pktField (bs : List Byte) (off n : Nat) : Nat := fld bs off n

/-- The packet of an arrival is this request. -/
def arrivalIs (q : Request) (code : Nat) (a : Arrival) : Bool :=
  decide (a.who = q.org.who) && pktField a.bytes 6 2 == q.org.tag && pktField a.bytes 8 2 == code &&
    decide ((a.bytes.drop 16).take (a.bytes.length - 20) = q.params)

/-- The prompter has read an arrived packet: its queue entries are released and their credit returns (R103, R104). A packet
whose queue an endpoint reset has emptied holds no entries any more (R65). -/
def releaseArrival (a : Arrival) (s : State) : State :=
  if a.size = 0 then s else
  match a.who.master with
  | 1 => ({ s with mbx := s.mbx.set 0 ((s.mbx.get 0).releaseReq 4096 a.size) } : State).setB (fINT_STATUS_MBX_CREDIT 0) true
  | 2 => ({ s with mbx := s.mbx.set 1 ((s.mbx.get 1).releaseReq 4096 a.size) } : State).setB (fINT_STATUS_MBX_CREDIT 1) true
  | 3 => { s with i2c := s.i2c.releaseReq 16384 a.size }
  | 4 =>
    let l := s.fab.links.get (ch4 a.via)
    { s with fab := { s.fab with links := s.fab.links.set (ch4 a.via) { l with rel := l.rel + a.size } } }
  | _ => s

/-- Whether it is the turn of a packet (R95): it heads the serial order, or none waits there. -/
def State.inTurn (p : Arrival → Bool) (s : State) : Bool :=
  match s.arrived with
  | [] => true
  | a :: _ => p a

/-- Take the packet that heads the serial order, if it matches. -/
def takeFirst (p : Arrival → Bool) (s : State) : Option Arrival × State :=
  match s.arrived with
  | [] => (none, s)
  | a :: r => if p a then (some a, releaseArrival a { s with arrived := r }) else (none, s)

/-- Take a request out of the serial order, if it waits at its head. -/
def takeArrival (q : Request) (code : Nat) (s : State) : Option Arrival × State := takeFirst (arrivalIs q code) s

/-- The requester has four other requests outstanding, at its arrival (R89). -/
def overLimit (a : Option Arrival) (q : Request) (s : State) : Bool :=
  match a with
  | some a => a.excess
  | none => decide (4 ≤ s.outstanding q.org.who)

/-- An outstanding request of the same requester carries the same TAG (step 4 of R86). -/
def tagInUse (q : Request) (s : State) : Bool :=
  (s.ops.any fun o => sameWho o.org.who q.org.who && o.org.tag == q.org.tag) ||
    (s.fab.fwd.any fun f => sameWho f.org.who q.org.who && f.org.tag == q.org.tag)

/-- The requester's own conditions of step 4 of R86: its limit and its TAGs; a forced `STAGE_ABANDON` is exempt (R97). -/
def ownBusy (c : Cmd) (excess : Bool) (q : Request) (s : State) : Bool := !c.exempt q && (excess || tagInUse q s)

/-- Steps 2 to 4 of R86, then an entry to the dark house in progress (R406), then steps 5 and 6. -/
def checks (c : Cmd) (excess : Bool) (q : Request) (s : State) : Except Ref (State × Answer) :=
  let w := q.org.who
  if !(s.permits w c.code c.access && c.permit q s) then .error { status := stNOT_PERMITTED }
  else match (if q.rsvd != 0 then some 0xFFFF else c.params q.params s) with
    | some off => .error { status := stBAD_PARAM, off := off }
    | none =>
      if ownBusy c excess q s then .error { status := stBUSY, b0 := w.master }
      else match s.blocked w (c.touches q s) with
        | some m => .error { status := stBUSY, b0 := m }
        | none => if s.pwr.entry.isSome then .error { status := stWRONG_STATE } else c.body q s

/-- Place the answer of a request that passed its checks. -/
def place (q : Request) (code : Nat) : Answer → State → State
  | .done ps, s => answer q.org kReply code stOK ps s
  | .accept op, s => answer q.org kReply code stACCEPTED [] { s with ops := s.ops ++ [op] }
  | .defer op, s => { s with ops := s.ops ++ [op] }
  | .fail r, s => refuse q.org code r s

/-- The state after a request is taken up: out of its turn it is not (R95); before READY it is discarded and counted (R78);
otherwise it is checked in the order of R86 and answered. -/
def serveState (c : Cmd) (q : Request) (s : State) : State :=
  if !s.inTurn (arrivalIs q c.code) then s else
  let (a, s) := takeArrival q c.code s
  if !s.ready then count cPKT_BAD s
  else match checks c (overLimit a q s) q s with
    | .error r => refuse q.org c.code r s
    | .ok (t, ans) => place q c.code ans t

/-- Take up a request. Parameters longer than R81 allows are no packet at all. -/
def serve (c : Cmd) (q : Request) (s : State) : Host.Outcome State Fault Refusal :=
  if 4076 < q.params.length then .fault .notAPacket else ok (serveState c q s)

/-- An operation of a request that has just been accepted. -/
def opOf (q : Request) (code : Nat) (holds targets : List Nat) (s : State) (data : Nat := 0) (reply : Bool := false) : Op :=
  ⟨q.org, code, holds, targets, none, data, reply, s.life⟩

/-- A parameter of n bytes at an offset is not complete. -/
def miss (ps : List Byte) (off n : Nat) : Bool := ps.length < off + n

/-- The first of some (bad, offset) conditions that holds. -/
def firstBad : List (Bool × Nat) → Option Nat
  | [] => none
  | (b, off) :: r => if b then some off else firstBad r

end Sys2Proof.Machine
end

