-- ==== Sys2Proof/Machine/Packets.lean ====
section
/-! DEFINITION. Packets on the way in: well-formedness (R81 to R83), the serial order (R95), and routing by DEST
(R389, R391 to R393). -/

namespace Sys2Proof.Machine

open Sys2Proof

/-- Length of a packet by its own PLEN: header, parameters, trailer (R81). -/
def pktLen (bs : List Byte) : Nat := 20 + fld bs 10 2

/-- VER_FLAGS[3:0] of a packet. -/
def pktKind (bs : List Byte) : Nat := fld bs 0 1 % 16
def pktHop (bs : List Byte) : Nat := fld bs 1 1
def pktDest (bs : List Byte) : Nat := fld bs 2 2
def pktSrc (bs : List Byte) : Nat := fld bs 4 2
def pktTag (bs : List Byte) : Nat := fld bs 6 2
def pktOpcode (bs : List Byte) : Nat := fld bs 8 2
def pktStatus (bs : List Byte) : Nat := fld bs 12 1
def pktParams (bs : List Byte) : List Byte := (bs.drop 16).take (fld bs 10 2)

/-- A packet that passes R82 and R83: delimited length, version 1, a kind of R83, and a good trailer. -/
def goodPacket (bs : List Byte) : Bool :=
  let n := pktLen bs
  decide (20 ≤ bs.length) && decide (n ≤ 4096) && decide (n ≤ bs.length) && decide (bs.length < n + 4) && decide ((n + 3) / 4 = (bs.length + 3) / 4) &&
    fld bs 0 1 / 16 == 1 && [1, 2, 10, 6, 14, 4].contains (pktKind bs) &&
    fld bs (n - 4) 4 == (crc32c (bs.take (n - 4))).toNat

/-- DEST names no node on any part (R389). -/
def unassigned (d : Nat) : Bool := 0x1001 ≤ d && d ≤ 0xFFFE

/-- The requester of a packet (R84, R86): the master of its path; on the fabric its SRC, and for SRC 0 its link. -/
def requester (master via : Nat) (bs : List Byte) : Who :=
  if master = 4 then ⟨4, pktSrc bs, if pktSrc bs = 0 then via else 0⟩ else ⟨master, 0, 0⟩

/-- A packet with its trailer computed anew after fields of its header were written (R391); in a request the receiving hardware has
written the MASTER field too (R84). -/
def resealed (bs : List Byte) (hop src tag master : Nat) : List Byte :=
  let n := pktLen bs
  let m := if pktKind bs = 1 then [BitVec.ofNat 8 master] else slice bs 13 1
  let h := (bs.take 1) ++ [BitVec.ofNat 8 hop] ++ (slice bs 2 2) ++ le 2 src ++ le 2 tag ++ slice bs 8 5 ++ m ++ (bs.drop 14).take (n - 18)
  h ++ le 4 (crc32c h).toNat

/-- Place of a requester within one cycle (R95): function 0, function 1, I2C, the fabric by receiving channel. -/
def Arrival.rank (a : Arrival) : Nat := if 1 ≤ a.who.master ∧ a.who.master ≤ 3 then a.who.master - 1 else 3 + a.via

/-- A packet in the order of the arrival times, and of R95 among those of one cycle. The life timestamp stands for the cycle:
assumption 107. -/
def insertArrival (a : Arrival) : List Arrival → List Arrival
  | [] => [a]
  | b :: r => if b.time != a.time || decide (b.rank ≤ a.rank) then b :: insertArrival a r else a :: b :: r

/-- Put a packet in the serial order (R95), noting whether its requester already has four outstanding (R89). -/
def arrive (w : Who) (via : Nat) (bs : List Byte) (size : Nat) (s : State) : State :=
  { s with arrived := insertArrival ⟨w, via, bs, size, goodPacket bs && pktKind bs == 1, decide (4 ≤ s.outstanding w), s.life⟩ s.arrived }

/-- Whether a link is UP or BOUNDARY. -/
def State.linkRuns (s : State) (n : Nat) : Bool := s.fld (fFAB_LINK_STATUS_STATE n) == 2 || s.fld (fFAB_LINK_STATUS_STATE n) == 3

/-- Send on every UP and BOUNDARY link (R391), or on every UP link but one (R390). -/
def sendAll (boundary : Bool) (but : Nat) (pkt : List Byte) (s : State) : State :=
  each (span 0 4) (fun n s =>
    if n = but then s
    else if s.fld (fFAB_LINK_STATUS_STATE n) = 2 || (boundary && s.fld (fFAB_LINK_STATUS_STATE n) = 3) then linkSend n pkt s else s) s

/-- The next tag the fabric engine allocates (R393). -/
def freshTag (s : State) : Nat := s.fab.nextTag % 65536

/-- Forward a request of a local master (R81, R391, R393): SRC becomes the part's own address, TAG the engine's; the
request is outstanding until its reply. Without a route it is answered UNREACHABLE. -/
def forwardLocal (w : Who) (bs : List Byte) (s : State) : State :=
  let o : Origin := ⟨w, 0, false, pktTag bs⟩
  let d := pktDest bs
  let tag := freshTag s
  let out := resealed bs (pktHop bs) s.node tag w.master
  let fwd := s.fab.fwd ++ [⟨tag, o, pktOpcode bs, d, s.life, false⟩]
  let held := { s with fab := { s.fab with nextTag := s.fab.nextTag + 1, fwd := fwd } }
  if 4 ≤ s.outstanding w then refuse o (pktOpcode bs) { status := stBUSY, b0 := w.master } s
  else if d = 0xFFFF then sendAll true 99 out held
  else match s.route d with
    | some n => linkSend n out held
    | none => refuse o (pktOpcode bs) { status := stUNREACHABLE, off := 2 } s

/-- A packet of a local master is for this part (R389, R391). -/
def State.forHere (s : State) (d : Nat) : Bool := d == 0 || (s.node != 0 && d == s.node)

/-- A whole packet has been written into a request queue: it takes its place in the serial order, or, when it is a
good request for another node, it goes out on the fabric and its space is released (R81, R95, R391). -/
def localPacket (master : Nat) (bs : List Byte) (size : Nat) (s : State) : State :=
  let w : Who := ⟨master, 0, 0⟩
  if s.ready && goodPacket bs && pktKind bs == 1 && !unassigned (pktDest bs) && !s.forHere (pktDest bs) then
    releaseArrival ⟨w, 0, bs, size, true, false, s.life⟩ (forwardLocal w bs s)
  else arrive w 0 (if goodPacket bs then bs.take (pktLen bs) else bs) size s

/-- Release the receive-queue space of a packet that came in on a link (R384, R386). -/
def linkRelease (n size : Nat) (s : State) : State :=
  let l := s.fab.links.get (ch4 n)
  { s with fab := { s.fab with links := s.fab.links.set (ch4 n) { l with rel := l.rel + size } } }

/-- Answer a request in transit that met a fault (R392); a reply or notice is discarded and counted. -/
def transitFault (n : Nat) (bs : List Byte) (status off cnt : Nat) (s : State) : State :=
  let s := count (cCH n cnt) s
  if pktKind bs = 1 then
    refuse ⟨⟨4, pktSrc bs, if pktSrc bs = 0 then n else 0⟩, n, pktSrc bs == 0, pktTag bs⟩ (pktOpcode bs) { status := status, off := off } s
  else s

/-- A packet for the engine takes its place: by arrival, and by link among those of one cycle (R395). -/
def insertInbox (e : BitVec 64 × Nat × List Byte) : List (BitVec 64 × Nat × List Byte) → List (BitVec 64 × Nat × List Byte)
  | [] => [e]
  | b :: r => if b.1 != e.1 || decide (b.2.1 ≤ e.2.1) then b :: insertInbox e r else e :: b :: r

/-- What the fabric engine itself takes up (R388, R390, R393): replies and notices of forwarded requests, advertisements, address offers. -/
def forEngine (bs : List Byte) : Bool :=
  [2, 10, 6, 14].contains (pktKind bs) || (pktKind bs == 4 && (pktOpcode bs == 0x0810 || pktOpcode bs == 0x0811))

/-- A checked packet from link n is carried out here, forwarded, or discarded, by its DEST (R389, R391, R392). A
packet with DEST 0 from a link has no action in the manual and is dropped; assumption 21. -/
def routePacket (n : Nat) (bs : List Byte) (s : State) : State :=
  let d := pktDest bs
  let own := d == 0xFFFF || (s.node != 0 && d == s.node)
  if own || (unassigned d && pktKind bs == 1) then
    if pktKind bs = 1 then arrive (requester 4 n bs) n bs bs.length s
    else if forEngine bs then { s with fab := { s.fab with inbox := insertInbox (s.life, n, bs) s.fab.inbox } }
    else linkRelease n bs.length s
  else
    let s := linkRelease n bs.length s
    if unassigned d || d == 0 || s.fld (fFAB_LINK_STATUS_STATE n) == 3 then count (cCH n 44) s
    else match s.route d with
      | none => transitFault n bs stUNREACHABLE 2 46 s
      | some m =>
        if pktHop bs ≤ 1 then transitFault n bs stHOP_LIMIT 1 45 s
        else count (cCH m 43) (linkSend m (resealed bs (pktHop bs - 1) (pktSrc bs) (pktTag bs) 4) s)

end Sys2Proof.Machine
end

