-- ==== Sys2Proof/Machine/Timing.lean ====
section
/-! DEFINITION. Timing, references and time of day (spec 14): input monitoring, the selector, PPS alignment, the
time of day and the timing commands. -/

namespace Sys2Proof.Machine

open Sys2Proof

/-- State of channel n in `PWR_CH_STATE` (R413). -/
abbrev fCH (n : Nat) : Fld := ⟨rPWR_CH_STATE, 2 * n, 2⟩

/-- A value taken as the nearer limit of its range (R360). -/
def clampN (lo hi v : Nat) : Nat := if v < lo then lo else if hi < v then hi else v

/-- A signed value clipped to a range. -/
def clampI (lo hi v : Int) : Int := if v < lo then lo else if hi < v then hi else v

/-- Absolute value. -/
def absN (v : Int) : Nat := v.natAbs

/-- A signed value in 32 bits, saturating. -/
def sat32 (v : Int) : Nat := unsigned 32 (clampI (-2147483648) 2147483647 v)

/-- A signed value in 16 bits, saturating. -/
def sat16 (v : Int) : Nat := unsigned 16 (clampI (-32768) 32767 v)

/-- A line input is present (R342): the channel ACTIVE, its receiver tracking, its role point-to-point or leaf. -/
def State.linePresent (s : State) (n : Nat) : Bool :=
  s.fld (fCH n) == 2 && s.fld (fLINE_RX_STATUS_STATE n) == 8 && s.fld (fHUB_CTRL_ROLE n) != 1

/-- UNCONFIGURED of input x (R345). -/
def State.unconfigured (s : State) (x : Nat) : Bool :=
  if x < 4 then s.fld (fTIM_IN_FREQ_FREQ x) == 0 else !s.linePresent (x - 4)

/-- Quality level of input x (R342): assigned, or the accepted SSM of a line input without override. -/
def State.inQl (s : State) (x : Nat) : Nat :=
  if x < 4 || s.flag (fTIM_IN_CFG_QL_OVR x) then s.fld (fTIM_IN_CFG_QL x) else s.fld (fOH_RX_ACC_SSM (x - 4))

/-- Rank of a quality level (R344): 1 PRC to 4 SEC, 5 DNU and every other code. -/
def qlRank (q : Nat) : Nat := if q = 2 then 1 else if q = 4 then 2 else if q = 8 then 3 else if q = 0xB then 4 else 5

/-- Latch the timing interrupt of both functions (R469). -/
def timIrq (s : State) : State := (s.setB (fINT_STATUS_TIM 0) true).setB (fINT_STATUS_TIM 1) true

/-- Hidden state of input x. -/
def State.timIn (s : State) (x : Nat) : TimIn := s.tim.inputs.getD x ⟨false, false⟩

/-- Replace the hidden state of input x. -/
def State.setTimIn (s : State) (x : Nat) (i : TimIn) : State :=
  { s with tim := { s.tim with inputs := s.tim.inputs.set x i } }

/-- An input leaves the valid condition: its validation and wait end, and record 0x0904 is made if it was valid. -/
def timInvalid (x : Nat) (s : State) : State :=
  let i := s.timIn x
  let was := s.flag (fTIM_IN_STATUS_VALID x)
  let s := ((s.setTimIn x { i with validated := false }).setB (fTIM_IN_STATUS_VALID x) false).setB (fTIM_IN_STATUS_WTR_RUN x) false
  let s := s.setF (fTIM_IN_STATUS_WTR_LEFT x) 0
  if was then
    timIrq (offer 0x0904 bTIM (x + 256 * b2n (s.flag (fTIM_IN_STATUS_LOA x)) + 512 * b2n (s.flag (fTIM_IN_STATUS_HARD x)) +
      1024 * b2n (s.flag (fTIM_IN_STATUS_UNCONFIGURED x))) 0 s)
  else s

/-- An input is eligible (R346). -/
def State.eligible (s : State) (x : Nat) : Bool :=
  s.flag (fTIM_IN_STATUS_VALID x) && !s.flag (fTIM_IN_STATUS_WTR_RUN x) && s.fld (fTIM_IN_CFG_PRIO x) != 0 &&
    (!s.flag fTIM_CTRL_QL_EN || decide (qlRank (s.fld (fTIM_IN_STATUS_QL x)) < 5))

/-- Bring the status flags of input x up to date (R345, R346). -/
def timInput (x : Nat) (s : State) : State :=
  let un := s.unconfigured x
  let s := if x < 4 && s.flag (fTIM_IN_STATUS_UNCONFIGURED x) && !un then s.setTimIn x { s.timIn x with hadFirst := false } else s
  let s := s.setB (fTIM_IN_STATUS_UNCONFIGURED x) un
  let q := s.inQl x
  let old := s.fld (fTIM_IN_STATUS_QL x)
  let s := if q = old then s else offer 0x0908 bTIM (x + 256 * q) old (s.setF (fTIM_IN_STATUS_QL x) q)
  let bad := un || s.flag (fTIM_IN_STATUS_LOA x) || s.flag (fTIM_IN_STATUS_HARD x)
  let s := if bad then timInvalid x s
    else if (s.timIn x).validated && !s.flag (fTIM_IN_STATUS_VALID x) then timIrq (s.setB (fTIM_IN_STATUS_VALID x) true) else s
  let el := s.eligible x
  let s' := s.setB (fTIM_IN_STATUS_ELIGIBLE x) el
  if el && !s.flag (fTIM_IN_STATUS_ELIGIBLE x) then offer 0x0906 bTIM x q s' else s'

/-- Ranking key of an eligible input (R346), smaller is better; `full` adds PRIO and index to keys 1 and 2. -/
def State.rankKey (s : State) (full : Bool) (x : Nat) : Nat :=
  let k12 := (if s.flag fTIM_CTRL_QL_EN then qlRank (s.fld (fTIM_IN_STATUS_QL x)) else 0) * 2 + b2n (s.flag (fTIM_IN_STATUS_SOFT x))
  if full then k12 * 256 + s.fld (fTIM_IN_CFG_PRIO x) * 8 + x else k12

/-- The best of some inputs. -/
def State.bestIn (s : State) : List Nat → Option Nat
  | [] => none
  | x :: xs => match s.bestIn xs with
    | none => if s.eligible x then some x else none
    | some y => if s.eligible x && decide (s.rankKey true x < s.rankKey true y) then some x else some y

/-- Automatic or forced choice (R346, R347): what the selector should follow, given what it follows now. -/
def State.wanted (s : State) (now : Option Nat) : Option Nat :=
  if s.fld fTIM_CTRL_MODE = 1 then
    let x := s.fld fTIM_CTRL_FORCE_IN
    if s.flag (fTIM_IN_STATUS_VALID x) then some x else none
  else match s.bestIn (span 0 8), now with
    | none, _ => none
    | some b, none => some b
    | some b, some c =>
      if s.flag fTIM_CTRL_REVERTIVE || !s.eligible c then some b
      else if s.rankKey false b < s.rankKey false c then some b else some c

/-- The selected input or target, if any. -/
def State.selected (s : State) : Option Nat := if s.flag fTIM_STATUS_SEL_VALID then some (s.fld fTIM_STATUS_SEL) else none

/-- The holdover value and the history it rests on, in ppt and ns (R351): while LOCKED the mean over the last `HO_AVG` seconds, ending 1 s
before the present; what the last lock left otherwise. -/
def State.hold (s : State) : Int × Nat :=
  if s.fld fTIM_STATUS_STATE ≠ 2 then (s.tim.avg, s.tim.history)
  else
    let age := fun (e : BitVec 64 × Int) => s.life.toNat - e.1.toNat
    let w := (s.tim.samples.filter fun e => decide (1000000000 ≤ age e) && decide (age e ≤ (clampN 1 1000 (s.fld fTIM_HO_HO_AVG) + 1) * 1000000000)).map Prod.snd
    (if w.isEmpty then s.sfld fTIM_FREQ_OFFS else w.foldl (· + ·) 0 / (w.length : Int), s.life.toNat - s.tim.lockAt.toNat)

/-- House clock offset clipped to 100 ppm of the uncorrected OSCIN (R352). -/
def clip100 (v : Int) : Int := clampI (-100000000) 100000000 v

/-- A lock ends and leaves its average, or begins with no history (R351). -/
def lockFollow (st : Nat) (s : State) : State :=
  let old := s.fld fTIM_STATUS_STATE
  if old = 2 && st ≠ 2 then { s with tim := { s.tim with avg := s.hold.1, history := s.hold.2, samples := [] } }
  else if old ≠ 2 && st = 2 then { s with tim := { s.tim with lockAt := s.life, history := 0, samples := [] } }
  else s

/-- Enter a selector state (R347), with record 0x0901 on a change. -/
def selState (st : Nat) (sel : Option Nat) (s : State) : State :=
  let old := s.fld fTIM_STATUS_STATE
  let s := lockFollow st s
  let s := match sel with
    | some x => (s.setF fTIM_STATUS_SEL x).setB fTIM_STATUS_SEL_VALID true
    | none => s.setB fTIM_STATUS_SEL_VALID false
  if st = old then s else timIrq (offer 0x0901 bTIM (st + 8 * old) (s.fld fTIM_STATUS_SEL) (s.setF fTIM_STATUS_STATE st))

/-- Enter HOLDOVER at the holdover value, or FREERUN with less than 1 s of history (R351). -/
def selHoldover (s : State) : State :=
  if s.fld fTIM_STATUS_STATE = 4 then s
  else if s.hold.2 < 1000000000 then selState 0 none s
  else selState 4 none ((s.setF fTIM_HO_FREQ_OFFS (unsigned 28 s.hold.1)).setB fTIM_STATUS_HO_SHORT
    (decide (s.hold.2 < clampN 1 1000 (s.fld fTIM_HO_HO_AVG) * 1000000000)))

/-- Tracking bandwidth of `TIM_CTRL.BW` (R360). -/
def State.bwGoal (s : State) : Nat := clampN 1 1000 (s.fld fTIM_CTRL_BW)

/-- Begin ACQUIRING toward an input at 50 Hz, or at BW above it (R350). -/
def selAcquire (x : Nat) (s : State) : State :=
  selState 1 (some x) { s with tim := { s.tim with bw := 1024 * max 500 s.bwGoal } }

/-- The quality level sent on the line (R353). -/
def timQl (s : State) : State :=
  let st := s.fld fTIM_STATUS_STATE
  s.setF fTIM_STATUS_QL_SENT (if st = 2 || st = 3 then s.fld (fTIM_IN_STATUS_QL (s.fld fTIM_STATUS_SEL)) else s.fld fTIM_CTRL_OWN_QL)

/-- House frequency of the state (R347): corrected nominal, followed (`freq`), held over or steered, with CAL and STEER as the last tick
took them (R352). -/
def timFreq (freq : Int) (s : State) : State :=
  let st := s.fld fTIM_STATUS_STATE
  let v := if st = 0 then -s.tim.cal else if st = 5 then s.tim.steer - s.tim.cal
    else if st = 3 || st = 4 then s.sfld fTIM_HO_FREQ_OFFS else freq
  s.setF fTIM_FREQ_OFFS (unsigned 28 (clip100 v))

/-- Mode 0 or 1: follow what is wanted (R346 to R348). Without it HOLDOVER, but from FREERUN in mode 0. -/
def selFollow (s : State) : State :=
  let st := s.fld fTIM_STATUS_STATE
  match s.wanted s.selected with
  | none => if st = 0 && s.fld fTIM_CTRL_MODE ≠ 1 then s else selHoldover s
  | some x =>
    if st = 2 then
      if s.selected = some x then s
      else
        let from_ := s.fld fTIM_STATUS_SEL
        let pre := s.eligible from_ && s.flag (fTIM_IN_STATUS_SOFT from_) && !s.flag (fTIM_IN_STATUS_SOFT x)
        let s := s.setF fTIM_HO_FREQ_OFFS (unsigned 28 s.hold.1)
        offer 0x0902 bTIM (from_ + 8 * x + 256 * b2n pre) 0 (selState 3 (some x) s)
    else if st = 1 && s.selected = some x then s
    else selAcquire x s

/-- One evaluation of the selector (R346 to R349) with the inputs' flags up to date. -/
def selEval (s : State) : State :=
  let mode := if 4 < s.fld fTIM_CTRL_MODE then 0 else s.fld fTIM_CTRL_MODE
  let st := s.fld fTIM_STATUS_STATE
  let s :=
    if st = 3 && s.flag (fTIM_IN_STATUS_VALID (s.fld fTIM_STATUS_SEL)) then s
    else
      let s := if st = 3 then selHoldover s else s
      if mode = 2 then selHoldover s
      else if mode = 3 then selState 0 none s
      else if mode = 4 then selState 5 none s
      else selFollow s
  let sel := s.fld fTIM_STATUS_SEL
  s.setB fTIM_STATUS_SOFT_SEL (s.fld fTIM_STATUS_STATE == 2 && s.flag (fTIM_IN_STATUS_SOFT sel))

/-- Bring every input up to date and evaluate. -/
def timEval (freq : Int) (s : State) : State := timQl (timFreq freq (selEval (each (span 0 8) timInput s)))

/-- The evaluation that follows a change of status or configuration, with the frequency as last shown. -/
def timChange (s : State) : State := timEval (s.sfld fTIM_FREQ_OFFS) s

/-- A line input follows its channel (R342, R346): an evaluation where its presence or quality level has changed. -/
def lineInput (n : Nat) (s : State) : State :=
  if s.flag (fTIM_IN_STATUS_UNCONFIGURED (4 + n)) == s.unconfigured (4 + n) && s.fld (fTIM_IN_STATUS_QL (4 + n)) == s.inQl (4 + n) then s
  else timChange s

/-- `SELECTOR_EVALUATION` (R346): the evaluation of each 1 ms. `freq` is the house clock's offset against the uncorrected OSCIN while an
input is followed, in ppt. OSC_CAL and STEER, within their ranges, act from here (R352, R360); the history grows while LOCKED (R351). -/
def execSelectorEvaluation (freq : Int) (s : State) : Host.Outcome State Fault Refusal :=
  let x := s.tim
  let keep := x.samples.filter fun e => decide (s.life.toNat - e.1.toNat ≤ 1001000000000)
  let l := if s.fld fTIM_STATUS_STATE = 2 then (s.life, clip100 freq) :: keep else x.samples
  ok (timEval freq { s with tim := { x with samples := l, cal := clip100 (s.sfld fTIM_OSC_CAL_CAL), steer := clip100 (s.sfld fTIM_STEER_STEER) } })

/-- `INPUT_LOA` (R345). -/
def execInputLoa (x : Fin 8) (s : State) : Host.Outcome State Fault Refusal :=
  ok (timChange (s.setB (fTIM_IN_STATUS_LOA x) true))

/-- `LOA_CLEARED` (R345). -/
def execLoaCleared (x : Fin 8) (s : State) : Host.Outcome State Fault Refusal :=
  ok (timChange (s.setB (fTIM_IN_STATUS_LOA x) false))

/-- Limits in ppt: fields count 0.1 ppm, 1 to 1,000 (R360). -/
def State.softLim (s : State) (x : Nat) : Nat := clampN 1 1000 (s.fld (fTIM_IN_LIM_SOFT x)) * 100000
def State.hardLim (s : State) (x : Nat) : Nat := clampN 1 1000 (s.fld (fTIM_IN_LIM_HARD x)) * 100000

/-- `INPUT_FREQUENCY_CHECK` (R345): offset over 1 s, 64 s average, and offset against the uncorrected OSCIN, ppt. -/
def execInputFrequencyCheck (x : Fin 8) (off1 off64 raw : Int) (s : State) : Host.Outcome State Fault Refusal :=
  let soft := s.softLim x
  let hard := if s.hardLim x < absN off1 || 100000000 < absN raw then true
    else s.flag (fTIM_IN_STATUS_HARD x) && decide (soft < absN off64)
  let was := s.flag (fTIM_IN_STATUS_SOFT x)
  let now := if soft < absN off64 then true else was && decide (soft - soft / 10 < absN off64)
  let s := ((s.setB (fTIM_IN_STATUS_HARD x) hard).setB (fTIM_IN_STATUS_SOFT x) now).setF (fTIM_IN_OFFS_OFFS x) (sat32 off64)
  let s := if was = now then s else offer 0x0907 bTIM (x + 256 * b2n now) (sat16 (off64 / 100000)) s
  ok (timChange s)

/-- `INPUT_VALIDATED` (R345): valid at once after the first validation, after its wait-to-restore otherwise. -/
def execInputValidated (x : Fin 8) (s : State) : Host.Outcome State Fault Refusal :=
  if s.flag (fTIM_IN_STATUS_LOA x) || s.flag (fTIM_IN_STATUS_HARD x) || s.unconfigured x || (s.timIn x).validated then ok s
  else
    let wtr := if (s.timIn x).hadFirst then clampN 0 720 (s.fld (fTIM_IN_CFG_WTR x)) else 0
    let s := s.setTimIn x { s.timIn x with validated := true, hadFirst := true }
    let s := (s.setB (fTIM_IN_STATUS_WTR_RUN x) (decide (0 < wtr))).setF (fTIM_IN_STATUS_WTR_LEFT x) wtr
    ok (timChange (offer 0x0905 bTIM x wtr s))

/-- `INPUT_WTR_EXPIRY` (R345). -/
def execInputWtrExpiry (x : Fin 8) (s : State) : Host.Outcome State Fault Refusal :=
  if s.flag (fTIM_IN_STATUS_WTR_RUN x) then
    ok (timChange ((s.setB (fTIM_IN_STATUS_WTR_RUN x) false).setF (fTIM_IN_STATUS_WTR_LEFT x) 0))
  else ok s

/-- `SWITCH_COMPLETE` (R348): `off` is the build-out offset, 0.125 ns. -/
def execSwitchComplete (off : Int) (s : State) : Host.Outcome State Fault Refusal :=
  if s.fld fTIM_STATUS_STATE = 3 then
    let x := s.fld fTIM_STATUS_SEL
    let s := selState 2 (some x) { s with tim := { s.tim with buildOut := off } }
    ok (timChange (offer 0x0903 bTIM x (sat16 off) s))
  else ok s

/-- `ACQUIRING_BANDWIDTH_STEP` (R350): `good` tells that the phase error has stayed within its limit. -/
def execAcquiringBandwidthStep (good : Bool) (s : State) : Host.Outcome State Fault Refusal :=
  if s.fld fTIM_STATUS_STATE = 1 && good then
    if 1024 * s.bwGoal < s.tim.bw then ok { s with tim := { s.tim with bw := max (1024 * s.bwGoal) (s.tim.bw / 2) } }
    else ok (timChange (selState 2 s.selected s))
  else ok s

/-- A step of the time of day (R357): epoch, validity, record 0x090A with the signed change in ms. -/
def todStep (sec ns cause : Nat) (s : State) : State :=
  let e := s.fld fTIM_STATUS_EPOCH
  let d : Int := ((sec : Int) * 1000000000 + ns - ((s.tim.sec : Int) * 1000000000 + s.tim.ns)).tdiv 1000000
  let s := { s with tim := { s.tim with sec := sec % 2 ^ 34, ns := ns } }
  offer 0x090A bTIM (sat32 d) (e + 256 * cause) ((s.setF fTIM_STATUS_EPOCH ((e + 1) % 16)).setB fTIM_STATUS_TOD_VALID true)

/-- Record a change of the PPS flags (R362). -/
def ppsFlags (los lock : Bool) (s : State) : State :=
  if s.flag fTIM_STATUS_PPS_LOS = los && s.flag fTIM_STATUS_PPS_LOCK = lock then s
  else offer 0x090B bTIM (b2n los + 2 * b2n lock) 0 ((s.setB fTIM_STATUS_PPS_LOS los).setB fTIM_STATUS_PPS_LOCK lock)

/-- The PPS source in use; 3 is taken as 0 (R360). -/
def State.ppsSrc (s : State) : Nat := if s.fld fTIM_PPS_SRC = 3 then 0 else s.fld fTIM_PPS_SRC

/-- Expected pulses have been missing or invalid, m in a row by now: with the third `PPS_LOS` is set (R354). -/
def ppsMissed (m : Nat) (s : State) : State :=
  let was := s.tim.ppsMiss
  let s := { s with tim := { s.tim with ppsMiss := max was m } }
  if was < 3 && 3 ≤ m then ppsFlags true (s.flag fTIM_STATUS_PPS_LOCK) s else s

/-- The internal second steps onto a pulse that is `err` away from it, in 0.125 ns (R354). -/
def ppsStep (err : Int) (s : State) : State :=
  let late := (err / 8).toNat % 1000000000
  let early := (-err / 8).toNat % 1000000000
  if err < 0 then todStep (s.tim.sec + 1) 0 1 { s with tim := { s.tim with ns := 999999999 - early } }
  else todStep s.tim.sec 0 1 { s with tim := { s.tim with ns := late } }

/-- A valid pulse with an error, in 0.125 ns, against the internal second (R354). -/
def ppsValid (err : Int) (s : State) : State :=
  let s := { s with tim := { s.tim with ppsMiss := 0, ppsSeen := true } }
  if absN err ≤ 800 then
    let g := s.tim.ppsGood + 1
    ppsFlags false (s.flag fTIM_STATUS_PPS_LOCK || decide (3 ≤ g)) { s with tim := { s.tim with ppsGood := g, ppsBad := 0, slew := err } }
  else
    let b := s.tim.ppsBad + 1
    let s := ppsFlags false false { s with tim := { s.tim with ppsGood := 0, ppsBad := b } }
    if b = 3 then ppsStep err { s with tim := { s.tim with ppsBad := 0, slew := 0 } } else s

/-- A pulse comes where one is expected (R354): whole seconds, within 10 us, after the previous valid pulse. DEDUCED, assumption 104. -/
def ppsInTime (gap : Int) : Bool := decide (999990000 ≤ gap) && decide ((gap + 10000) % 1000000000 ≤ 20000)

/-- `PPS_PULSE` (R354): input B or A, ns since the previous valid pulse, error against the internal second in 0.125 ns, positive where the
pulse is later. An invalid pulse leaves the expected ones before it missing. -/
def execPpsPulse (b : Bool) (gap err : Int) (s : State) : Host.Outcome State Fault Refusal :=
  if s.ppsSrc = 0 || s.ppsSrc ≠ (if b then 2 else 1) then ok s
  else if !s.tim.ppsSeen || ppsInTime gap then ok (ppsValid err s)
  else ok (ppsMissed ((gap - 10001) / 1000000000).toNat s)

/-- `PPS_MISSING` (R354): one more expected pulse has not come. -/
def execPpsMissing (s : State) : Host.Outcome State Fault Refusal :=
  if s.ppsSrc = 0 then ok s else ok (ppsMissed (s.tim.ppsMiss + 1) s)

/-- What a write to a timing register sets going: a new PPS source starts alignment anew (R354), and the selector
evaluates. -/
def timWritten (oldSrc : Nat) (s : State) : State :=
  let s := if s.ppsSrc = oldSrc then s
    else ppsFlags false false { s with tim := { s.tim with ppsBad := 0, ppsGood := 0, ppsMiss := 0, ppsSeen := false, slew := 0 } }
  timChange s

/-- Wait-to-restore seconds left run down (R345). -/
def wtrSecond (x : Nat) (s : State) : State := s.setF (fTIM_IN_STATUS_WTR_LEFT x) (s.fld (fTIM_IN_STATUS_WTR_LEFT x) - 1)

/-- What `FP_OUT` carries; 7 is taken as 0 (R355, R360). -/
def State.fpSrc (s : State) : Nat := if s.fld fTIM_PPS_FP_SRC = 7 then 0 else s.fld fTIM_PPS_FP_SRC

/-- A pulse leaves on `FP_OUT` (R355). -/
def fpPulse (s : State) : State := { s with out := { s.out with fp := s.out.fp + 1 } }

/-- `PPS_OUT` about an internal second with an offset in 0.125 ns: an edge and its high time (R355, R360). -/
def ppsEdge (ofs : Int) (s : State) : State :=
  if !s.flag fTIM_PPS_PPS_OUT_EN then { s with out := { s.out with pps := none } }
  else
    let s := { s with out := { s.out with pps := some (ofs, clampN 1 1000 (s.fld fTIM_PPS_WIDTH)) } }
    if s.fpSrc = 6 then fpPulse s else s

/-- Frequency of `CLKOUTA` and `CLKOUTB` in Hz, none while off (R355, R360). -/
def State.clkHz (s : State) (i : Nat) : Option Nat :=
  if s.flag (fTIM_CLKOUT_EN i) then some (clampN 1000 750000000 (s.fld (fTIM_CLKOUT_FREQ i))) else none

/-- `INTERNAL_SECOND` (R354, R355, R358): the seconds advance or the pending step takes effect; the slew and the
PPS_OUT offset move. -/
def execInternalSecond (s : State) : Host.Outcome State Fault Refusal :=
  let left := s.tim.slew - clampI (-80) 80 s.tim.slew
  let ofs := clampI (-500000000) 500000000 (s.sfld fTIM_PPS_OFS_OFS_NS) * 8 + (s.fld fTIM_PPS_FRAC_FRAC : Int)
  let s := ppsEdge ofs (each (span 0 8) wtrSecond { s with tim := { s.tim with slew := left, ppsOfs := ofs } })
  match s.tim.pendingStep with
  | none => ok { s with tim := { s.tim with sec := (s.tim.sec + 1) % 2 ^ 34, ns := 0 } }
  | some (v, o) =>
    let s := todStep v 0 0 { s with tim := { s.tim with sec := (s.tim.sec + 1) % 2 ^ 34, ns := 0, pendingStep := none } }
    match s.ops.find? fun x => x.opcode == 0x0504 && decide (x.org = o) with
    | some op => ok (endOp op { status := stOK } [] s)
    | none => ok s

/-! ### Commands (R361) -/

/-- The bits of a register word that its table defines. -/
def definedBits (off : Nat) : Nat :=
  match regAt off with
  | none => 0
  | some r => (r.spec.fields.map fun f => (2 ^ (f.hi + 1 - f.lo) - 1) * 2 ^ f.lo).foldl (· + ·) 0

/-- A value sets a reserved bit of a register (R7). -/
def setsReserved (off v : Nat) : Bool := (BitVec.ofNat 32 v &&& ~~~BitVec.ofNat 32 (definedBits off)) != 0#32

/-- Configuration registers of R360. -/
def timConfig (off : Nat) : Bool :=
  off % 4 == 0 && ((0x50000 ≤ off && off ≤ 0x5000C) || (0x50020 ≤ off && off ≤ 0x5007C) || (0x50080 ≤ off && off ≤ 0x50088) ||
    off == 0x50090 || off == 0x50094)

/-- `TIM_REPORT` (R361). -/
def cmdTimReport : Cmd where
  code := 0x0500
  access := accAll
  params := fun _ _ => none
  body := fun _ s => .ok (s, .done (le 4 (s.rd rTIM_STATUS).toNat ++ le 4 (s.rd rTIM_FREQ).toNat ++ le 4 (s.rd rTIM_HO_FREQ).toNat ++
    (span 0 8).flatMap fun x => le 4 (s.rd (rTIM_IN_STATUS x)).toNat ++ le 4 (s.rd (rTIM_IN_OFFS x)).toNat))

/-- `TIM_REPORT`. -/
def execTimReport (q : Request) (s : State) : Host.Outcome State Fault Refusal := serve cmdTimReport q s

/-- Entry k of `TIM_SET`. -/
def timEntry (ps : List Byte) (k : Nat) : Nat × Nat := (fld ps (4 + 8 * k) 4, fld ps (8 + 8 * k) 4)

/-- `TIM_SET` (R361): the entries in order, whole or not at all. -/
def cmdTimSet : Cmd where
  code := 0x0501
  access := accOpRem
  params := fun ps _ =>
    let n := fld ps 0 1
    firstBad ([(miss ps 0 1 || n == 0 || decide (32 < n), 0), (miss ps 1 3 || fld ps 1 3 != 0, 1)] ++
      (span 0 n).flatMap fun k => [(miss ps (4 + 8 * k) 4 || !timConfig (timEntry ps k).1, 4 + 8 * k),
        (miss ps (8 + 8 * k) 4 || setsReserved (timEntry ps k).1 (timEntry ps k).2, 8 + 8 * k)])
  touches := fun _ _ => [resTIM]
  body := fun q s =>
    let t := each (span 0 (fld q.params 0 1)) (fun k s => s.wr (timEntry q.params k).1 (BitVec.ofNat 32 (timEntry q.params k).2)) s
    .ok (timWritten s.ppsSrc t, .done [])

/-- `TIM_SET`. -/
def execTimSet (q : Request) (s : State) : Host.Outcome State Fault Refusal := serve cmdTimSet q s

/-- The time of day as a signed count of ns. -/
def State.todNs (s : State) : Int := (s.tim.sec : Int) * 1000000000 + s.tim.ns

/-- `TOD_STEP` (R358). -/
def cmdTodStep : Cmd where
  code := 0x0504
  access := accOpRem
  params := fun ps s =>
    let m := fld ps 0 1
    let v := fld ps 4 8
    let r := s.todNs + signed 64 v
    firstBad [(miss ps 0 1 || decide (2 < m), 0), (miss ps 1 3 || fld ps 1 3 != 0, 1),
      (miss ps 4 8 || ((m == 0 || m == 2) && decide (2 ^ 34 ≤ v)) ||
        (m == 1 && s.flag fTIM_STATUS_TOD_VALID && (decide (r < 0) || decide (2 ^ 34 * 1000000000 ≤ r))), 4),
      (miss ps 12 4 || (if m == 2 then decide (1000000000 ≤ fld ps 12 4) else fld ps 12 4 != 0), 12)]
  touches := fun _ _ => [resTIM]
  body := fun q s =>
    let m := fld q.params 0 1
    let v := fld q.params 4 8
    if m = 1 && !s.flag fTIM_STATUS_TOD_VALID then .error { status := stWRONG_STATE }
    else if m = 0 then
      .ok ({ s with tim := { s.tim with pendingStep := some (v, q.org) } }, .defer (opOf q 0x0504 [resTIM] [] s (reply := true)))
    else if m = 1 then
      let r := (s.todNs + signed 64 v).toNat
      .ok (todStep (r / 1000000000) (r % 1000000000) 0 s, .done [])
    else .ok (todStep v (fld q.params 12 4) 0 s, .done [])

/-- `TOD_STEP`. -/
def execTodStep (q : Request) (s : State) : Host.Outcome State Fault Refusal := serve cmdTodStep q s

/-- `TOD_GET` (R361). -/
def cmdTodGet : Cmd where
  code := 0x0505
  access := accAll
  params := fun _ _ => none
  body := fun _ s => .ok (s, .done (le 8 s.tim.sec ++ le 4 s.tim.ns ++
    [BitVec.ofNat 8 (b2n (s.flag fTIM_STATUS_TOD_VALID) + 16 * s.fld fTIM_STATUS_EPOCH), 0#8, 0#8, 0#8] ++ le 8 s.life.toNat))

/-- `TOD_GET`. -/
def execTodGet (q : Request) (s : State) : Host.Outcome State Fault Refusal := serve cmdTodGet q s

/-- Set the latched companion of an RL register for a requester (R6, R465). -/
def setRl (who off : Nat) (v : Word) (s : State) : State := { s with rl := smSet (fun _ => 0#32) s.rl (who * 2 ^ 24 + off) v }

/-- The latched companion of an RL register for a requester. -/
def State.rlOf (s : State) (who off : Nat) : Word := smGet (fun _ => 0#32) s.rl (who * 2 ^ 24 + off)

/-- Return a register word from a read. -/
def put (w : Word) (s : State) : State := { s with out := { s.out with data := w } }

/-- A read of `TIM_TOD_LO` (R360): seconds [31:0]; latches the high seconds and the nanoseconds for the requester. -/
def todLoRead (who : Nat) (s : State) : State :=
  put (BitVec.ofNat 32 s.tim.sec) (setRl who rTIM_TOD_HI (BitVec.ofNat 32 (s.tim.sec / 2 ^ 32 % 4)) (setRl who rTIM_TOD_NS (BitVec.ofNat 32 s.tim.ns) s))

/-- `TOD_LO_READ` by requester 0 or 1 (PCIe function) or 2 (I2C). -/
def execTodLoRead (who : Fin 3) (s : State) : Host.Outcome State Fault Refusal :=
  ok (if s.ready then todLoRead who s else put 0#32 s)

end Sys2Proof.Machine
end

