-- ==== Sys2Proof/Machine/Staging.lean ====
section
/-! DEFINITION. The rehearsal machinery shared by every staging block (R96 to R100): which fields belong to which
block, sessions, banks, and the end of a session. -/

namespace Sys2Proof.Machine

open Sys2Proof

/-- The staging block of a register that holds Cue fields (R96). -/
def cueBlockOf (r : RegAt) : Option Nat :=
  let nm := r.spec.name
  if r.spec.fields.any (fun f => f.take == .cue) then
    if nm.startsWith "LINE_" || nm == "FEC_CTRL" || nm == "HUB_CTRL" then some r.unit
    else if nm.startsWith "CONV_" then some (4 + r.unit)
    else if nm == "SLOT_MAP" || nm == "CLIENT" || nm == "XBAR_CLIENT" then some (8 + r.unit)
    else if nm == "MRG_CFG" then some (0x10 + r.idx)
    else some (12 + r.unit)
  else none

/-- The staging block an offset lies in, if any. -/
def cueBlock (off : Nat) : Option Nat := match regAt off with | some r => cueBlockOf r | none => none

/-- The bits of a word that some fields cover. -/
def bitsOf (fs : List FieldSpec) : Word :=
  fs.foldl (fun w f => w ||| (BitVec.ofNat 32 (2 ^ (f.hi + 1 - f.lo) - 1) <<< f.lo)) 0#32

/-- The Cue bits of a register. -/
def cueBits (off : Nat) : Word := match regAt off with | some r => bitsOf (r.spec.fields.filter fun f => f.take == .cue) | none => 0#32

/-- A value of a Cue field, given by its register and lowest bit, that lies outside the field's range or is reserved (R134, R159,
R196, R251, R286). -/
def valueBad (name : String) (lo v : Nat) : Bool :=
  if name == "LINE_MODE" then (if lo = 0 then v < 4 || decide (32 < v) else if lo = 8 then v < 4 || decide (16 < v) else
    if lo = 16 then v < 150 || decide (600 < v) else false)
  else if name == "LINE_SHAPE" then lo == 0 && (v < 2 || decide (20 < v))
  else if name == "LINE_PREEMPH" || name == "LINE_MASK" then decide (60 < (signed 8 v).natAbs)
  else if name == "HUB_CTRL" then v == 3
  else if name == "CONV_CTRL" then decide (64 < v)
  else if name == "CLIENT" then lo == 0 && v == 7
  else if name == "HUB_SD" then (if lo = 8 then v < 1 || decide (100 < v) else lo == 16 && decide (1999 < v))
  else if name == "HUB_SD_PERIOD" then v < 1 || decide (1000 < v)
  else if name == "HUB_PLAYOUT" then v < 180 || decide (2000 < v)
  else if name == "GRANT_A" then (if lo = 0 then decide (1999 < v) else lo == 16 && (v < 10 || decide (1280 < v)))
  else if name == "MRG_CFG" then (if lo = 8 then v < 8 else lo == 16 && decide (720 < v))
  else false

/-- Some Cue field of a word that a mask touches has a bad value. -/
def wordBad (off : Nat) (mask w : Word) : Bool :=
  match regAt off with
  | some r => r.spec.fields.any fun f => f.take == .cue && (bitsOf [f] &&& mask) != 0#32 &&
      valueBad r.spec.name f.lo ((w >>> f.lo).toNat % 2 ^ (f.hi + 1 - f.lo))
  | none => false

/-- Staging block IDs of R96. -/
def isBlock (b : Nat) : Bool := b < 0x12

/-- The channel of a channel's block, and whether a block belongs to a pair. -/
def blockCh (b : Nat) : Nat := b % 4

/-- Members named by pair slot p in a set of words. -/
def pairMembers (w : Word) : List Nat := [((fMRG_CFG_CH_A 0).of w), ((fMRG_CFG_CH_B 0).of w)]

/-- The open session of a block. -/
def State.session (s : State) (b : Nat) : Option Rehearsal := s.rehearsals.find? fun r => r.block == b

/-- A word of a set: the rehearsal bank. -/
def bankRd (bank : SMap Word) (off : Nat) : Word := smGet resetWord bank off

/-- Write a word of a bank. -/
def bankWr (bank : SMap Word) (off : Nat) (v : Word) : SMap Word := smSet resetWord bank off v

/-- A field of a set given as words. -/
def bankF (bank : SMap Word) (f : Fld) : Nat := f.of (bankRd bank f.reg)

/-- A one-bit field of a set. -/
def bankB (bank : SMap Word) (f : Fld) : Bool := bankF bank f != 0

/-- The claims a block's changes need (R96): its channel, the key store as well for slots; for a pair its slot and the
member channels of its running and rehearsed sets. -/
def State.blockClaims (s : State) (b : Nat) : List Nat :=
  if b < 8 then [resCH (b % 4)]
  else if b < 12 then [resCH (b % 4), resKEY]
  else if b < 16 then [resCH (b % 4)]
  else
    let p := b - 16
    let run := s.rd (rMRG_CFG p)
    let stg := match s.session b with | some r => bankRd r.bank (rMRG_CFG p) | none => 0#32
    resPAIR p :: ((if run.getLsbD 0 then pairMembers run else []) ++ (if stg.getLsbD 0 then pairMembers stg else []))

/-- The copy of a block's running set (R97). -/
def State.runningSet (s : State) (b : Nat) : SMap Word := s.regs.filter fun e => cueBlock e.1 == some b

/-- The mark of a pending cue of a block among the targets of operations. -/
def cueTarget (b : Nat) : Nat := 0x1000 + b

/-- The staging block as a thing an operation holds. -/
def resSTG (b : Nat) : Nat := 0x300 + b

/-- Open a session (R97). -/
def openSession (b : Nat) (w : Who) (implicit : Option Nat) (s : State) : State :=
  { s with rehearsals := s.rehearsals ++ [⟨b, w, s.runningSet b, none, implicit⟩] }

/-- Replace the session of a block. -/
def setSession (b : Nat) (f : Rehearsal → Rehearsal) (s : State) : State :=
  { s with rehearsals := replaceFirst (fun r => r.block == b) f s.rehearsals }

/-- `RX_HALF_PENDING` reads 1 while a receive half of the channel waits (R160). -/
def halfShow (n : Nat) (s : State) : State :=
  s.setB (fLINE_RX_STATUS_RX_HALF_PENDING n) (s.halves.any fun h => h.1 == n && !h.2.done)

/-- The receive half of a cue is given up with it, where the transmit half has not come into force. DESIGN CHOICE, assumption 124: one
that is already in force is taken back, and the receiver runs on the running set again. -/
def cancelHalf (b : Nat) (s : State) : State :=
  if s.halves.any fun h => h.2.block == b && h.2.early then
    halfShow (b % 4) { s with halves := s.halves.filter fun h => !(h.2.block == b && h.2.early) }
  else s

/-- The session of a block is over. -/
def dropSession (b : Nat) (s : State) : State := cancelHalf b { s with rehearsals := s.rehearsals.filter fun r => !(r.block == b) }

/-- The pending cue of a block is answered (R97, R99). -/
def answerCue (b : Nat) (r : Ref) (params : List Byte) (s : State) : State :=
  match s.ops.find? fun o => o.targets.contains (cueTarget b) with
  | some op => endOp op r params s
  | none => s

/-- The notice to the owner of a session that another party ended (R97): opcode 0x0123, status BUSY naming the master
that took it, or WRONG_STATE. -/
def sessionNotice (r : Rehearsal) (byMaster : Option Nat) (s : State) : State :=
  answer ⟨r.owner, r.owner.link, decide (r.owner.src = 0), 0⟩ kUnsolicited 0x0123
    (if byMaster.isSome then stBUSY else stWRONG_STATE)
    [BitVec.ofNat 8 r.block, BitVec.ofNat 8 (byMaster.getD 0xFF), 0#8, 0#8] s

/-- A session ends otherwise than by its owner (R97): a pending cue is answered WRONG_STATE, the owner is told. -/
def endSession (byMaster : Option Nat) (r : Rehearsal) (s : State) : State :=
  sessionNotice r byMaster (answerCue r.block { status := stWRONG_STATE } [] (dropSession r.block s))

/-- Every session that meets a condition ends (R97). -/
def endSessions (byMaster : Option Nat) (p : Rehearsal → Bool) (s : State) : State :=
  each (s.rehearsals.filter p) (endSession byMaster) s

/-- The session of a block ends because its domain is darkened (R97). -/
def endBlock (b : Nat) (s : State) : State :=
  match s.session b with
  | some r => endSession none r s
  | none => s

end Sys2Proof.Machine
end

