-- ==== Sys2Proof/Machine/Uneltus.lean ====
section
/-! DEFINITION. The Uneltus command protocol (spec 05): queues, packets, the system opcodes, claims and rehearsal
sessions; and the interrupt writes of R470. -/

namespace Sys2Proof.Machine

open Sys2Proof

/-! ### Pair membership -/

/-- The pair slot and member (0 A, 1 B) a channel belongs to (R14, R254). -/
def State.memberOf (s : State) (n : Nat) : Option (Nat × Nat) :=
  if s.flag (fMRG_CFG_VALID 0) && s.fld (fMRG_CFG_CH_A 0) == n then some (0, 0)
  else if s.flag (fMRG_CFG_VALID 0) && s.fld (fMRG_CFG_CH_B 0) == n then some (0, 1)
  else if s.flag (fMRG_CFG_VALID 1) && s.fld (fMRG_CFG_CH_A 1) == n then some (1, 0)
  else if s.flag (fMRG_CFG_VALID 1) && s.fld (fMRG_CFG_CH_B 1) == n then some (1, 1)
  else none

/-- Channel n is member B of a pair: its framer idles (R14). -/
def State.memberB (s : State) (n : Nat) : Bool := match s.memberOf n with | some (_, 1) => true | _ => false

/-- The HGC port of a channel grants credit (R338). -/
def State.hgcOpen (s : State) (n : Nat) : Bool :=
  s.ready && s.fld (fHUB_CTRL_ROLE n) == 0 && s.fld (fLINE_MODE_IOP n) == 0 && !s.memberB n

/-! ### Queue writes (R103, R106, R338) -/

/-- Write one entry into a request queue (R103): without credit it and the rest of its packet are discarded and
OVERRUN is set. Answers the queue, whether OVERRUN was met, and the packet an end mark completed. -/
def writeEntry (cap : Nat) (opened : Bool) (w : Word) (last : Bool) (m : Mailbox) : Mailbox × Bool × Option (List Word) :=
  if m.dropping then ({ m with dropping := !last }, false, none)
  else if !opened || cap ≤ m.part.length + m.held then ({ m with dropping := !last }, true, none)
  else if last then ({ m with part := [], held := m.held + m.part.length + 1 }, false, some (m.part ++ [w]))
  else ({ m with part := m.part ++ [w] }, false, none)

/-- Replace the HGC port of a channel. -/
def State.setHgc (s : State) (n : Ch) (h : HgcPort) : State := { s with hgc := s.hgc.set n h }

/-- A write to a data word of the HGC transmit queue. A packet whose data and CRC exceed 2,048 bytes cannot be sent
and is discarded; assumption 22. -/
def hgcWrite (n : Ch) (w : Word) (last : Bool) (s : State) : State :=
  let h := s.hgc.get n
  let (m, ovr, done) := writeEntry 8192 (s.hgcOpen n) w last h.mbx
  let s := s.setHgc n { h with mbx := m.swapReq 4096 }
  let s := if ovr then s.setB (fHGC_TX_STATUS_OVERRUN n) true else s
  match done with
  | none => s
  | some ws =>
    let h := s.hgc.get n
    if 2044 < 4 * ws.length then s.setHgc n { h with mbx := h.mbx.releaseReq 4096 ws.length }
    else s.setHgc n { h with tx := h.tx ++ [(ofWords ws, ws.length)] }

/-- A write to `MBX_REQ_DATA` or `MBX_REQ_END` of a function's mailbox. -/
def mbxWrite (f : Pr) (w : Word) (last : Bool) (s : State) : State :=
  let (m, ovr, done) := writeEntry 8192 (s.mbx.get f).isOpen w last (s.mbx.get f)
  let s := { s with mbx := s.mbx.set f (m.swapReq 4096) }
  let s := if ovr then s.setB (fMBX_REQ_STATUS_OVERRUN f) true else s
  match done with
  | none => s
  | some ws => localPacket (1 + f) (ofWords ws) ws.length s

/-- A word written to a mailbox before READY, once the link is up: it has no credit, so it and the rest of its packet are discarded
and OVERRUN is set (R78, R103). -/
def earlyWord (f : Pr) (last : Bool) (s : State) : State :=
  if !s.boot.linkUp || s.stage < 3 then s
  else
    let m := s.mbx.get f
    let s : State := { s with mbx := s.mbx.set f { m with dropping := !last } }
    if m.dropping then s else s.setB (fMBX_REQ_STATUS_OVERRUN f) true

/-- A queue write: before READY no word has credit (R78); the HGC port takes only function 0's writes (R85). -/
def queueWrite (f : Pr) (hgc : Option Ch) (w : Word) (last : Bool) (s : State) : State :=
  if !s.ready then (match hgc with | none => earlyWord f last s | some _ => s)
  else match hgc with
    | none => mbxWrite f w last s
    | some n => if f = 0 then hgcWrite n w last s else s

/-- `MBX_REQ_DATA_WRITE` (R103). -/
def execMbxReqDataWrite (f : Pr) (hgc : Option Ch) (w : Word) (s : State) : Host.Outcome State Fault Refusal :=
  ok (queueWrite f hgc w false s)

/-- `MBX_REQ_END_WRITE` (R95). -/
def execMbxReqEndWrite (f : Pr) (hgc : Option Ch) (w : Word) (s : State) : Host.Outcome State Fault Refusal :=
  ok (queueWrite f hgc w true s)

/-- Act on the queue a register write names: a function's mailbox, or an HGC port through function 0. -/
def onQueue (f : Pr) (hgc : Option Ch) (act : Mailbox → Mailbox) (s : State) : State :=
  match hgc with
  | none => { s with mbx := s.mbx.set f (act (s.mbx.get f)) }
  | some n => if f = 0 then s.setHgc n { s.hgc.get n with mbx := act (s.hgc.get n).mbx } else s

/-- CANCEL (R103): the words since the last end mark go, and discarding ends. -/
def cancelReq (m : Mailbox) : Mailbox := { m with part := [], dropping := false }

/-- `MBX_REQ_CANCEL` (R103). -/
def execMbxReqCancel (f : Pr) (hgc : Option Ch) (s : State) : Host.Outcome State Fault Refusal :=
  ok (if s.ready then onQueue f hgc cancelReq s else s)

/-- Read the next word (R106): with none left, 0, END 0 and no movement. -/
def readWord (m : Mailbox) : Word × Mailbox :=
  match m.rsp[m.rd]? with
  | none => (0#32, { m with lastEnd := false })
  | some q => (q.word, { m with rd := m.rd + 1, lastEnd := q.last })

/-- A read of the receive queue of an HGC port by requester 0, 1 (PCIe function) or 2 (I2C): `END` is latched for that requester
(R6, R106, R465). -/
def hgcRead (who : Nat) (n : Ch) (s : State) : State :=
  let h := s.hgc.get n
  let (w, m) := readWord h.mbx
  put w (setRl who (rHGC_RX_STATUS n) (BitVec.ofNat 32 (4096 * b2n m.lastEnd)) (s.setHgc n { h with mbx := { m with lastEnd := false } }))

/-- `MBX_RSP_DATA_READ` (R106). Function 1 reads only its own mailbox and, as every function, any HGC queue. -/
def execMbxRspDataRead (f : Pr) (hgc : Option Ch) (s : State) : Host.Outcome State Fault Refusal :=
  if !s.ready then ok (put 0#32 s)
  else match hgc with
    | none =>
      let (w, m) := readWord (s.mbx.get f)
      ok (put w { s with mbx := s.mbx.set f m })
    | some n => ok (hgcRead f.val n s)

/-- MARK (R104). -/
def markRsp (m : Mailbox) : Mailbox := { m with mark := m.rd }
/-- REWIND (R104). -/
def rewindRsp (m : Mailbox) : Mailbox := { m with rd := m.mark }
/-- RELEASE (R104): the words before the read position are freed and the mark moves to it; answers that waited for space follow
(R105). -/
def releaseRsp (bank : Nat) (m : Mailbox) : Mailbox :=
  let m := ({ m with rsp := m.rsp.drop m.rd, rd := 0, mark := 0, rspDrain := m.rspDrain - m.rd } : Mailbox).swapRsp bank
  Mailbox.placeAll (2 * bank) bank m.wait m

/-- `MBX_RSP_MARK`. -/
def execMbxRspMark (f : Pr) (hgc : Option Ch) (s : State) : Host.Outcome State Fault Refusal :=
  ok (if s.ready then onQueue f hgc markRsp s else s)
/-- `MBX_RSP_REWIND`. -/
def execMbxRspRewind (f : Pr) (hgc : Option Ch) (s : State) : Host.Outcome State Fault Refusal :=
  ok (if s.ready then onQueue f hgc rewindRsp s else s)
/-- RELEASE on the queue a register write names; an answer that is placed then sets `MBX_RSP` (R105, R469). -/
def releaseQueue (f : Pr) (hgc : Option Ch) (s : State) : State :=
  let t := onQueue f hgc (releaseRsp 4096) s
  if (t.mbx.get f).wait.length < (s.mbx.get f).wait.length then t.setB (fINT_STATUS_MBX_RSP f) true else t

/-- `MBX_RSP_RELEASE`. -/
def execMbxRspRelease (f : Pr) (hgc : Option Ch) (s : State) : Host.Outcome State Fault Refusal :=
  ok (if s.ready then releaseQueue f hgc s else s)

/-- A reply queue has n words that are neither filled nor reserved (R105). On the fabric the transmit queue's own credits act
(R386). -/
def State.room (s : State) (w : Who) (n : Nat) : Bool :=
  match w.master with
  | 1 => decide ((s.mbx.get 0).rsp.length + n + s.reserved w ≤ 8192)
  | 2 => decide ((s.mbx.get 1).rsp.length + n + s.reserved w ≤ 8192)
  | 3 => decide (s.i2c.rsp.length + 4 * n + 4 * s.reserved w ≤ 32768)
  | _ => true

/-- The next later packet of a multi-packet answer (R83): TAG, OPCODE and STATUS of the first, the more flag while others follow. -/
def placeLater (l : Later) (s : State) : State :=
  let ps := l.rest.take 4076
  let rest := l.rest.drop 4076
  let s : State := { s with later := replaceFirst (fun x => decide (x = l)) (fun _ => { l with rest := rest }) s.later }
  answerPacket l.org (if rest.isEmpty then l.kind else l.kind + 8) l.opcode l.status ps
    { s with later := s.later.filter fun x => !x.rest.isEmpty }

/-- `REPLY_PACKET_QUEUED` (R105): an unsolicited notice, discarded where it finds no room; or the next later packet of the requester's
multi-packet answer, which waits for unreserved space. -/
def execReplyPacketQueued (o : Origin) (notice : Option (Nat × Nat × List Byte)) (s : State) : Host.Outcome State Fault Refusal :=
  if !s.ready then ok s
  else match notice with
    | some (opcode, status, ps) => ok (answer { o with tag := 0 } kUnsolicited opcode status ps s)
    | none =>
      match s.later.find? fun l => decide (l.org = o) with
      | none => ok s
      | some l => if s.room o.who ((20 + min 4076 l.rest.length + 3) / 4) then ok (placeLater l s) else ok s

/-! ### Packets that are no request (R82, R83, R78, R389) -/

/-- The packet of an arrival came by this path with these bytes. -/
def arrivalHas (w : Who) (bs : List Byte) (a : Arrival) : Bool := a.who.master == w.master && decide (a.bytes = bs)

/-- Take a packet out of the head of the serial order by its requester's path and bytes. -/
def takeBytes (w : Who) (bs : List Byte) (s : State) : State := (takeFirst (arrivalHas w bs) s).2

/-- A packet waits in the serial order behind another (R95). -/
def State.outOfTurn (s : State) (w : Who) (bs : List Byte) : Bool := s.arrived.any (arrivalHas w bs) && !s.inTurn (arrivalHas w bs)

/-- A packet no request queue takes: malformed, or of another kind than a request (R82, R83). -/
def malformed (w : Who) (bs : List Byte) : Bool := !goodPacket bs || (w.master != 4 && pktKind bs != 1)

/-- `MALFORMED_PACKET` (R82, R83): discarded, counted, record 0x0104. Before READY nothing is recorded (R78). -/
def execMalformedPacket (w : Who) (bytes : List Byte) (s : State) : Host.Outcome State Fault Refusal :=
  if !malformed w bytes || s.outOfTurn w bytes then ok s
  else
    let s := count cPKT_BAD (takeBytes w bytes s)
    ok (if s.ready then offer 0x0104 bSYS w.master 0 s else s)

/-- `UNASSIGNED_DEST_PACKET` (R389): a request is refused BAD_PARAM at offset 2; another packet is discarded and
counted. -/
def execUnassignedDestPacket (w : Who) (via : Nat) (bytes : List Byte) (s : State) : Host.Outcome State Fault Refusal :=
  if !goodPacket bytes || !unassigned (pktDest bytes) || s.outOfTurn w bytes then ok s
  else
    let s := takeBytes w bytes s
    if !s.ready then ok (count cPKT_BAD s)
    else if pktKind bytes = 1 then
      ok (refuse ⟨requester w.master via bytes, via, w.master == 4 && pktSrc bytes == 0, pktTag bytes⟩ (pktOpcode bytes)
        { status := stBAD_PARAM, off := 2 } s)
    else ok (count (if w.master = 4 then cCH via 44 else cPKT_BAD) s)

/-- `PRE_READY_REQUEST` (R78). -/
def execPreReadyRequest (w : Who) (bytes : List Byte) (s : State) : Host.Outcome State Fault Refusal :=
  if s.ready || s.outOfTurn w bytes then ok s else ok (count cPKT_BAD (takeBytes w bytes s))

/-! ### The I2C port (R107) -/

/-- The address of the port (R29): `0x5A` plus the straps. -/
def State.i2cAddress (s : State) : Nat := 0x5A + s.boot.asel.val

/-- The port acknowledges its address: not while `RESET_N` is low (R26), not past the commit point or asleep (R407), not with the
pads undefined (R46, R47). DESIGN CHOICE, assumption 108: not either while a thermal shutdown gates the part with `RESET_N` still
high, a case that R77 and R78 do not name. -/
def State.i2cServed (s : State) : Bool :=
  !s.boot.resetLow && !s.pwr.asleep && !s.boot.gated && !s.boot.railsLow.contains 10

/-- The port acknowledges a transaction to an address. -/
def State.i2cAt (s : State) (addr : Nat) : Bool := s.i2cServed && addr == s.i2cAddress

/-- An enabled wake source has fired: the first one counts (R407, R410). -/
def wakeFires (code : Nat) (s : State) : State :=
  let en := if code = 1 then s.flag fPWR_WAKE_CTRL_WAKE_N_EN else if code = 2 then s.flag fPWR_WAKE_CTRL_I2C_EN else s.flag fPWR_WAKE_CTRL_TIMER_EN
  if en && s.pwr.wake.isNone && (s.pwr.entry.isSome || s.pwr.asleep) && !s.boot.powerDown && !s.boot.resetLow && !s.boot.gated then
    { s with pwr := { s.pwr with wake := some code } } else s

/-- The bytes written since the last end mark make up a packet by its own PLEN (R107). -/
def packetDone (bs : List Word) : Bool := 20 ≤ bs.length && decide (pktLen (bs.map fun w => w.setWidth 8) ≤ bs.length)

/-- Append bytes to the I2C request queue. The STOP after the last byte completes the packet where the byte count does; otherwise the
packet goes on in the next transaction (R107). It ends a discarding too: assumption 109. -/
def i2cAppend : List Byte → Bool → Mailbox → Mailbox × Option (List Word)
  | [], _, m => (m, none)
  | [b], stop, m =>
    let w : Word := b.setWidth 32
    let (m, _, d) := writeEntry 32768 m.isOpen w (stop && (m.dropping || packetDone (m.part ++ [w]))) m
    (m, d)
  | b :: bs, stop, m => i2cAppend bs stop (writeEntry 32768 m.isOpen (b.setWidth 32) false m).1

/-- `I2C_REQUEST_WRITE` (command 0x10). Before READY no byte has credit (R78, R103). -/
def execI2cRequestWrite (addr : Fin 128) (bytes : List Byte) (stop : Bool) (s : State) : Host.Outcome State Fault Refusal :=
  if !s.i2cAt addr then ok s
  else
    let s := wakeFires 2 s
    let (m, d) := i2cAppend bytes stop s.i2c
    let s := { s with i2c := m.swapReq 16384 }
    match d with
    | none => ok s
    | some ws => ok (localPacket 3 (ws.map fun w => w.setWidth 8) ws.length s)

/-- `I2C_REPLY_READ` (command 0x11): n bytes clocked; bytes beyond the queue read 0; the STOP releases what was read. -/
def execI2cReplyRead (addr : Fin 128) (n : Nat) (s : State) : Host.Outcome State Fault Refusal :=
  if !s.i2cAt addr || !s.ready then ok s
  else
    let s := wakeFires 2 s
    let got := (s.i2c.rsp.take n).map fun q => q.word.setWidth 8
    let m := releaseRsp 16384 { s.i2c with rd := min n s.i2c.rsp.length }
    ok { s with i2c := m, out := { s.out with bytes := slice got 0 n } }

/-- `I2C_CREDIT_READ` (command 0x12). -/
def execI2cCreditRead (addr : Fin 128) (s : State) : Host.Outcome State Fault Refusal :=
  if !s.i2cAt addr || !s.ready then ok s
  else
    let s := wakeFires 2 s
    ok { s with out := { s.out with bytes := le 4 (s.i2c.credit 32768 % 65536 + sat 4095 s.i2c.packets * 65536) } }

/-! ### Timeouts and the system opcodes (R89, R91) -/

/-- What the notice of an operation that passes its limit carries of its own (assumption 121): of `LINE_ACQUIRE` the furthest STATE and the
elapsed ms (R164), of `HOST_RETRAIN` the STATE of its lane (R340). -/
def lateParams (op : Op) (s : State) : List Byte :=
  match op.targets with
  | [] => []
  | t :: _ =>
    if op.opcode = 0x0210 then
      let l := s.line.get (ch4 (t - 0x6000))
      le 1 l.furthest ++ le 2 ((s.life.toNat - l.start.toNat) / 1000000)
    else if op.opcode = 0x0262 then le 1 (s.fld (fHL_STATUS_STATE (t - 0x2000)))
    else []

/-- `COMMAND_TIMEOUT` (R89): the operation of a requester with a TAG passes its limit. A completed entry to the dark
house has none (R414). -/
def execCommandTimeout (w : Who) (tag : Nat) (s : State) : Host.Outcome State Fault Refusal :=
  match s.ops.find? fun o => sameWho o.org.who w && o.org.tag == tag && !o.reply && !o.targets.contains tDark with
  | some op => ok (endOp op { status := stTIMEOUT } (lateParams op s) s)
  | none => ok s

/-- `NOP` (R91). -/
def cmdNop : Cmd where
  code := 0x0100
  access := accAll
  params := fun _ _ => none
  body := fun q s => .ok (s, .done q.params)

/-- `NOP`. -/
def execNop (q : Request) (s : State) : Host.Outcome State Fault Refusal := serve cmdNop q s

/-- `IDENTIFY` (R91, R467). -/
def cmdIdentify : Cmd where
  code := 0x0101
  access := accAll
  params := fun _ _ => none
  body := fun _ s => .ok (s, .done (le 4 (s.rd rSYS_ID_PART).toNat ++ le 1 (s.fld fSYS_ID_REV_STEPPING) ++ [0#8] ++ le 2 s.node ++
    le 4 (s.rd rSYS_ID_FW).toNat))

/-- `IDENTIFY`. -/
def execIdentify (q : Request) (s : State) : Host.Outcome State Fault Refusal := serve cmdIdentify q s

/-- Reply of a claim command: holder master ID and node. -/
def holderBytes (h : Option Who) : List Byte :=
  match h with
  | some w => [BitVec.ofNat 8 w.master] ++ le 2 w.src
  | none => [0xFF#8, 0#8, 0#8]

/-- Record a claim. -/
def setClaim (r : Nat) (w : Who) (s : State) : State := { s with claims := (s.claims.filter fun c => !(c.1 == r)) ++ [(r, w)] }

/-- FORCE is asked by another master than 0x01 (R91). -/
def forceOk (off : Nat) (q : Request) : Bool := !(bit (fld q.params off 1) 0) || q.org.who.master == 1

/-- `CLAIM` (R93): a forced claim takes the resource from its holder, who receives an unsolicited notice; the sessions that others
have on its blocks end (R97). -/
def cmdClaim : Cmd where
  code := 0x0110
  access := accOpRem
  permit := fun q _ => forceOk 1 q
  params := fun ps _ => firstBad [(miss ps 0 1 || !claimable (fld ps 0 1), 0), (miss ps 1 1 || decide (2 ≤ fld ps 1 1), 1)]
  body := fun q s =>
    let r := fld q.params 0 1
    let w := q.org.who
    match s.holder r with
    | none => .ok (setClaim r w s, .done (holderBytes (some w)))
    | some h =>
      if sameWho h w then .ok (s, .done (holderBytes (some w)))
      else if bit (fld q.params 1 1) 0 then
        let s := endSessions (some w.master) (fun x => !sameWho x.owner w && (s.blockClaims x.block).contains r) s
        let s := answer ⟨h, h.link, decide (h.src = 0), 0⟩ kUnsolicited 0x0110 stBUSY [] (setClaim r w s)
        .ok (s, .done (holderBytes (some w)))
      else .error { status := stBUSY, b0 := h.master }

/-- `CLAIM`. -/
def execClaim (q : Request) (s : State) : Host.Outcome State Fault Refusal := serve cmdClaim q s

/-- `RELEASE` (R93). -/
def cmdRelease : Cmd where
  code := 0x0111
  access := accOpRem
  params := fun ps _ => firstBad [(miss ps 0 1 || !claimable (fld ps 0 1), 0)]
  body := fun q s =>
    let r := fld q.params 0 1
    match s.holder r with
    | some h => if sameWho h q.org.who then .ok ({ s with claims := s.claims.filter fun c => !(c.1 == r) }, .done [])
      else .error { status := stWRONG_STATE }
    | none => .error { status := stWRONG_STATE }

/-- `RELEASE`. -/
def execRelease (q : Request) (s : State) : Host.Outcome State Fault Refusal := serve cmdRelease q s

/-- `CLAIM_QUERY` (R91). -/
def cmdClaimQuery : Cmd where
  code := 0x0112
  access := accAll
  params := fun ps _ => firstBad [(miss ps 0 1 || !claimable (fld ps 0 1), 0)]
  body := fun q s => .ok (s, .done (holderBytes (s.holder (fld q.params 0 1))))

/-- `CLAIM_QUERY`. -/
def execClaimQuery (q : Request) (s : State) : Host.Outcome State Fault Refusal := serve cmdClaimQuery q s

/-- `STAGE_OPEN` (R97): the bank starts as a copy of the running set. -/
def cmdStageOpen : Cmd where
  code := 0x0120
  access := accOpRem
  params := fun ps _ => firstBad [(miss ps 0 1 || !isBlock (fld ps 0 1), 0)]
  touches := fun q s => s.blockClaims (fld q.params 0 1) ++ [resSTG (fld q.params 0 1)]
  body := fun q s =>
    let b := fld q.params 0 1
    match s.session b with
    | some r => .error { status := stBUSY, b0 := r.owner.master }
    | none => .ok (openSession b q.org.who none s, .done [])

/-- `STAGE_OPEN`. -/
def execStageOpen (q : Request) (s : State) : Host.Outcome State Fault Refusal := serve cmdStageOpen q s

/-- The session conditions of R97 on a command of the owner: another master's session is BUSY, none or a cued one is
WRONG_STATE. -/
def ownSession (b : Nat) (q : Request) (s : State) (k : Rehearsal → Except Ref (State × Answer)) : Except Ref (State × Answer) :=
  match s.session b with
  | none => .error { status := stWRONG_STATE }
  | some r =>
    if !sameWho r.owner q.org.who then .error { status := stBUSY, b0 := r.owner.master }
    else if r.cue.isSome then .error { status := stWRONG_STATE }
    else k r

/-- What a command on a session changes: the claims of its block; nothing held by the requester's own pending cue stands in its
way (R89). -/
def sessionTouches (q : Request) (s : State) : List Nat :=
  let b := fld q.params 0 1
  match s.session b with
  | some r => if r.cue.isSome && sameWho r.owner q.org.who then [] else s.blockClaims b
  | none => s.blockClaims b

/-- One entry of `STAGE_SET`: offset, mask, value. -/
def stageEntry (ps : List Byte) (k : Nat) : Nat × Word × Word :=
  (fld ps (4 + 12 * k) 4, BitVec.ofNat 32 (fld ps (8 + 12 * k) 4), BitVec.ofNat 32 (fld ps (12 + 12 * k) 4))

/-- An entry that R98 refuses: a misaligned offset, one outside the block, or a bit that is no Cue field of it. -/
def badEntry (b : Nat) (e : Nat × Word × Word) : Bool :=
  e.1 % 4 != 0 || cueBlock e.1 != some b || (e.2.1 &&& ~~~cueBits e.1) != 0#32

/-- Write value AND mask into the bits selected by mask (R98). -/
def maskedWrite (bank : SMap Word) (e : Nat × Word × Word) : SMap Word :=
  bankWr bank e.1 ((bankRd bank e.1 &&& ~~~e.2.1) ||| (e.2.2 &&& e.2.1))

/-- The entries of a `STAGE_SET` in order over a bank: the offset of the first that is refused (R98, R159). -/
def firstEntry (b : Nat) (ps : List Byte) : List Nat → SMap Word → Option Nat
  | [], _ => none
  | k :: ks, bank =>
    let e := stageEntry ps k
    if miss ps (4 + 12 * k) 12 || badEntry b e then some (4 + 12 * k)
    else if wordBad e.1 e.2.1 (bankRd (maskedWrite bank e) e.1) then some (12 + 12 * k)
    else firstEntry b ps ks (maskedWrite bank e)

/-- The bank a session on a block has, or would have. -/
def State.bankOf (s : State) (b : Nat) : SMap Word := match s.session b with | some r => r.bank | none => s.runningSet b

/-- `STAGE_SET` (R98). -/
def cmdStageSet : Cmd where
  code := 0x0121
  access := accOpRem
  params := fun ps s =>
    let n := fld ps 2 2
    match firstBad [(miss ps 0 1 || !isBlock (fld ps 0 1), 0), (miss ps 1 1 || fld ps 1 1 != 0, 1),
      (miss ps 2 2 || n == 0 || decide (339 < n), 2)] with
    | some off => some off
    | none => firstEntry (fld ps 0 1) ps (span 0 n) (s.bankOf (fld ps 0 1))
  touches := sessionTouches
  body := fun q s =>
    let b := fld q.params 0 1
    ownSession b q s fun r =>
      let bank := (span 0 (fld q.params 2 2)).foldl (fun m k => maskedWrite m (stageEntry q.params k)) r.bank
      .ok (setSession b (fun r => { r with bank := bank }) s, .done [])

/-- `STAGE_SET`. -/
def execStageSet (q : Request) (s : State) : Host.Outcome State Fault Refusal := serve cmdStageSet q s

/-- `STAGE_ABANDON` (R97): FORCE passes over claims, ownership and a pending cue, and over all else
of step 4 of R86. -/
def cmdStageAbandon : Cmd where
  code := 0x0123
  access := accOpRem
  permit := fun q _ => forceOk 1 q
  params := fun ps _ => firstBad [(miss ps 0 1 || !isBlock (fld ps 0 1), 0), (miss ps 1 1 || decide (2 ≤ fld ps 1 1), 1)]
  exempt := fun q => bit (fld q.params 1 1) 0
  touches := fun q s => if bit (fld q.params 1 1) 0 then [] else sessionTouches q s
  body := fun q s =>
    let b := fld q.params 0 1
    if bit (fld q.params 1 1) 0 then
      match s.session b with
      | none => .error { status := stWRONG_STATE }
      | some r =>
        if sameWho r.owner q.org.who then .ok (answerCue b { status := stWRONG_STATE } [] (dropSession b s), .done [])
        else .ok (endSession (some q.org.who.master) r s, .done [])
    else ownSession b q s fun _ => .ok (dropSession b s, .done [])

/-- `STAGE_ABANDON`. -/
def execStageAbandon (q : Request) (s : State) : Host.Outcome State Fault Refusal := serve cmdStageAbandon q s

/-- `ACCESS_SET` (R91). -/
def cmdAccessSet : Cmd where
  code := 0x0130
  access := accOp
  params := fun ps _ => firstBad [(miss ps 0 1 || decide (2 ≤ fld ps 0 1), 0)]
  body := fun q s => .ok (s.setF fSYS_ACCESS_OBS_COUNTERS (fld q.params 0 1), .done [])

/-- `ACCESS_SET`. -/
def execAccessSet (q : Request) (s : State) : Host.Outcome State Fault Refusal := serve cmdAccessSet q s

/-- The opcodes the chapters define (R90). -/
def definedOpcodes : List Nat :=
  [0x0100, 0x0101, 0x0102, 0x0103, 0x0110, 0x0111, 0x0112, 0x0120, 0x0121, 0x0122, 0x0123, 0x0124, 0x0130,
   0x0200, 0x0201, 0x0202, 0x0210, 0x0211, 0x0212, 0x0220, 0x0221, 0x0240, 0x0241, 0x0242, 0x0243] ++
  [0x0260, 0x0261, 0x0262, 0x0280, 0x0281, 0x0282, 0x0283, 0x0284, 0x0285, 0x0288,
   0x0300, 0x0301, 0x0302, 0x0303, 0x0304, 0x0400, 0x0401, 0x0402, 0x0403, 0x0404, 0x0405, 0x0406] ++
  [0x0500, 0x0501, 0x0504, 0x0505, 0x0600, 0x0601, 0x0602, 0x0603, 0x0700, 0x0701, 0x0702, 0x0703, 0x0704, 0x0705, 0x0706,
   0x0800, 0x0801, 0x0802, 0x0803, 0x0900, 0x0901, 0x0902, 0x0903, 0x0904, 0x0A00, 0x0A01, 0x0A02, 0x0A03] ++
  [0x0F01, 0x0F02, 0x0F10, 0x0F11, 0x0F20, 0x0F30, 0x0F31]

/-- `UNDEFINED_OPCODE` (R90): step 1 of R86. A defined opcode is not this command's, and changes nothing. -/
def execUndefinedOpcode (q : Request) (opcode : Nat) (s : State) : Host.Outcome State Fault Refusal :=
  if definedOpcodes.contains opcode || !s.inTurn (arrivalIs q opcode) then ok s
  else
    let s := (takeArrival q opcode s).2
    if s.ready then ok (refuse q.org opcode { status := stBAD_OPCODE } s) else ok (count cPKT_BAD s)

/-! ### MSI-X (R470) -/

/-- Arm vectors; an armed vector whose condition holds sends when the step settles (R470). -/
def armVectors (f : Pr) (v : Word) (s : State) : State :=
  let m := s.msix.get f
  { s with msix := s.msix.set f { m with armed := m.armed ||| v } }

/-- `INT_REARM` (R470); ignored before READY (R471). -/
def execIntRearm (f : Pr) (v : Word) (s : State) : Host.Outcome State Fault Refusal :=
  ok (if s.ready then armVectors f v s else s)

/-- What the host does to a function's MSI-X capability or table (R470, PCIe Base Specification). -/
def msixEvent (f : Pr) (ev : MsixEvent) (s : State) : State :=
  let m := s.msix.get f
  match ev with
  | .vector v masked => s.setB (fMSIX_CTRL_MASK f v) masked
  | .function masked => { s with msix := s.msix.set f { m with fnMask := masked } }
  | .enable on => { s with msix := s.msix.set f { m with enabled := on } }

/-- MSI-X after such an event: a pending vector that is unmasked and whose condition is gone drops its pending bit. -/
def msixTake (f : Pr) (ev : MsixEvent) (s : State) : State :=
  let s := msixEvent f ev s
  let m := s.msix.get f
  let keep := BitVec.ofNat 32 ((span 0 32).foldl (fun a v => if s.vecMasked f v || s.vecCond f v then a + 2 ^ v else a) 0)
  { s with msix := s.msix.set f { m with pend := m.pend &&& keep } }

/-- `MSIX_UNMASK` (R470): a vector or the whole function is unmasked (or masked, or MSI-X enabled); a pending armed
vector whose condition still holds sends, and one whose condition is gone drops its pending bit. -/
def execMsixUnmask (f : Pr) (ev : MsixEvent) (s : State) : Host.Outcome State Fault Refusal :=
  ok (if s.ready then msixTake f ev s else s)

end Sys2Proof.Machine
end

