-- ==== Sys2Proof/Machine/Fabric.lean ====
section
/-! DEFINITION. The Heduost management fabric (spec 16): links, units, credits, routes, offers, forwarded requests,
and the fabric commands. -/

namespace Sys2Proof.Machine

open Sys2Proof

/-- CRC-8 of R231: polynomial 0x07, initial value 0. -/
def crc8Bit (c : BitVec 8) : BitVec 8 := if c.getLsbD 7 then (c <<< 1) ^^^ 0x07#8 else c <<< 1
/-- CRC-8 over bytes. -/
def crc8 (bs : List Byte) : BitVec 8 :=
  bs.foldl (fun c b => crc8Bit (crc8Bit (crc8Bit (crc8Bit (crc8Bit (crc8Bit (crc8Bit (crc8Bit (c ^^^ b))))))))) 0#8

/-- A link of a channel. -/
def State.link (s : State) (n : Nat) : FabLink := s.fab.links.get (ch4 n)
/-- Replace a link. -/
def State.setLink (s : State) (n : Nat) (l : FabLink) : State := { s with fab := { s.fab with links := s.fab.links.set (ch4 n) l } }
/-- State of a link (R397). -/
def State.linkSt (s : State) (n : Nat) : Nat := s.fld (fFAB_LINK_STATUS_STATE n)

/-- Form of link n under R382: 0 none, 1 two-way, 4 send-only, 5 receive-only. -/
def State.linkForm (s : State) (n : Nat) : Nat :=
  if !bit (s.fld fFAB_LINK_CTRL_LINK_EN) n || s.fld (fCH n) != 2 || s.fld (fLINE_MODE_IOP n) != 0 || s.memberB n then 0
  else if s.fld (fHUB_CTRL_ROLE n) = 1 then 4 else if s.fld (fHUB_CTRL_ROLE n) = 2 then 5 else 1

/-- Offsets of the route registers. -/
def isRouteReg (off : Nat) : Bool := 0x14000 ≤ off && off < 0x18000

/-- Bring the count of valid routes up to date. -/
def countRoutes (s : State) : State :=
  s.setF fFAB_STATUS_ROUTES ((s.regs.filter fun e => isRouteReg e.1 && (fFAB_ROUTE_VALID 0).of e.2 == 1).length)

/-- Remove every route learnt on a link (R385). -/
def dropRoutes (n : Nat) (s : State) : State :=
  let gone := fun (e : Nat × Word) => isRouteReg e.1 && (fFAB_ROUTE_LINK 0).of e.2 == n
  let idx := (s.regs.filter gone).map fun e => (e.1 - 0x14000) / 4 + 1
  countRoutes { s with regs := s.regs.filter (fun e => !gone e),
                       fab := { s.fab with routes := s.fab.routes.filter fun e => !idx.contains e.1 } }

/-- Show a link state, with record 0x0B01 on a change (R399). -/
def linkState (n st : Nat) (s : State) : State :=
  if s.linkSt n = st then s
  else
    let s := s.setF (fFAB_LINK_STATUS_STATE n) st
    offer 0x0B01 bSYS (n + 16 * st) (s.fld (fFAB_LINK_STATUS_NEIGHBOUR n)) s

/-- A link enters DOWN, or takes another form (R382, R384, R385): the transmit queue is emptied, a partly received packet
discarded, its routes removed; the epoch is raised on entry to DOWN, `st` = 1. -/
def linkDown (n st : Nat) (s : State) : State :=
  let l := s.link n
  let lost := l.txq.length + (if l.rx.isSome then 1 else 0)
  let s := s.setLink n { l with txq := [], txSent := 0, staged := [], rx := none, skip := false, lastCtl := none, epoch := if st = 1 then (l.epoch + 1) % 16 else l.epoch, sent := 0, far := 0, rel := 0 }
  linkState n st (dropRoutes n (countN (cCH n 44) lost s))

/-- Bring link n in line with the channel's configuration (R382, R395). -/
def linkRefresh (n : Nat) (s : State) : State :=
  let f := s.linkForm n
  let st := s.linkSt n
  if f = 1 then (if st = 1 || st = 2 || st = 3 then s else linkDown n 1 s)
  else if st = f then s
  else linkDown n f s

/-- Every link in line with the configuration. -/
def fabRefresh (s : State) : State := each (span 0 4) linkRefresh s

/-- Frames of the link's channel are released (R385): the deframer's frame numbers valid, the pair not WAITING. -/
def State.linkFrames (s : State) (n : Nat) : Bool :=
  match s.memberOf n with
  | some (p, _) => decide (2 ≤ s.fld (fMRG_STATUS_STATE p))
  | none => s.flag (fOH_RX_STATUS_FN_VALID n)

/-! ### Receiving -/

/-- Discard the packet being received on a link (R383); what is left of it is passed over. -/
def rxBad (n : Nat) (s : State) : State :=
  let l := s.link n
  if l.rx.isSome then count (cCH n 42) (s.setLink n { l with rx := none, skip := true }) else s

/-- A middle or last unit without its first: a packet that has lost a unit, counted once (R383). -/
def rxStray (n : Nat) (last : Bool) (s : State) : State :=
  let l := s.link n
  let s := if l.skip then s else count (cCH n 42) s
  s.setLink n { l with skip := !last }

/-- Bytes of the link's receive queue in use: 32 KiB in all (R386). -/
def State.linkHeld (s : State) (n : Nat) : Nat :=
  ((s.arrived.filter fun a => a.who.master == 4 && a.via == n).map Arrival.size).foldl (· + ·) 0 +
    ((s.fab.inbox.filter fun e => e.2.1 == n).map fun e => e.2.2.length).foldl (· + ·) 0

/-- The packet that heads the engine's queue, if it came on link n and is of a kind, and the state without it. -/
def inboxTake (n : Nat) (p : List Byte → Bool) (s : State) : Option (List Byte) × State :=
  match s.fab.inbox with
  | [] => (none, s)
  | (_, l, bs) :: r =>
    if l = n && p bs then (some bs, linkRelease n bs.length { s with fab := { s.fab with inbox := r } }) else (none, s)

/-- An unsolicited notice with an opcode. -/
def unsolicited (opcode : Nat) (bs : List Byte) : Bool := pktKind bs == 4 && pktOpcode bs == opcode

/-- A packet is whole: it is counted, checked under R82 and routed; a full receive queue drops it (R386, R387). -/
def rxPacket (n : Nat) (bs : List Byte) (s : State) : State :=
  let s := count (cCH n 41) s
  if 32768 < s.linkHeld n + bs.length then count (cCH n 44) s
  else if goodPacket bs then routePacket n (bs.take (pktLen bs)) s
  else arrive ⟨4, 0, n⟩ n bs bs.length s

/-- One unit of R383 or R387: kind, valid bytes of a last unit, data. -/
def rxUnit (n : Nat) (u : List Byte) (s : State) : State :=
  let h := fld u 0 1
  let data := u.drop 1
  let l := s.link n
  match h / 64 with
  | 0 => if l.rx.isSome then rxBad n s else s.setLink n { l with skip := false }
  | 1 => let s := rxBad n s; s.setLink n { s.link n with rx := some data, skip := false }
  | 2 => match l.rx with
    | some p => if 4096 < p.length + data.length then rxBad n s else s.setLink n { l with rx := some (p ++ data) }
    | none => rxStray n false s
  | _ => match l.rx with
    | some p => rxPacket n (p ++ data.take (h / 8 % 8 + 1)) (s.setLink n { l with rx := none })
    | none => rxStray n true s

/-- The HFB bytes of a released frame wait for the engine (R247, R277, R383); an idle unit between packets has nothing to say. -/
def unitIn (n m : Nat) (good : Bool) (u : List Byte) (s : State) : State :=
  let l := s.link n
  let idle := m % 16 != 0 && l.units.isEmpty && l.rx.isNone && !l.skip && (!good || decide (fld u 0 1 < 64))
  if s.linkForm n ≠ 1 || idle then s else s.setLink n { l with units := l.units ++ [(m, good, u)] }

/-- The oldest unit that waits is taken. -/
def unitTaken (n : Nat) (s : State) : State := s.setLink n { s.link n with units := (s.link n).units.drop 1 }

/-- Type-8 message for this leaf, or for all (R231, R387): its five fabric bytes. -/
def fabMsg (s : State) (n : Nat) (m : List Byte) : Option (List Byte) :=
  let id := fld m 0 1 % 4 * 256 + fld m 1 1
  if m.length = 8 && crc8 (m.take 7) == m.getD 7 0#8 && fld m 0 1 / 16 == 8 &&
      (id == 0x3FF || ((s.leaf.get (ch4 n)).joined && s.fld (fLEAF_STATUS_LEAF_ID n) == id)) then some (slice m 2 5) else none

/-- `FABRIC_DATA_UNIT_RECEIVED` (R383, R387): the oldest unit that released frames have brought, a data unit; on a leaf the message of type 8
that its shares have brought. -/
def execFabricDataUnitReceived (n : Ch) (msg : List Byte) (s : State) : Host.Outcome State Fault Refusal :=
  let st := s.linkSt n
  if st = 5 then ok (match fabMsg s n msg with | some u => rxUnit n u s | none => s)
  else match (s.link n).units with
    | [] => ok s
    | (m, good, u) :: _ =>
      if m % 16 = 0 then ok s
      else
        let s := unitTaken n s
        ok (if !(st = 2 || st = 3) then s else if good then rxUnit n u s else rxBad n s)

/-- Bring the link UP, or BOUNDARY where the far domain differs (R385); S and R restart at 0 (R386). -/
def linkUp (n dom : Nat) (s : State) : State :=
  let s := s.setLink n { s.link n with sent := 0, far := 0, rel := 0, rx := none }
  linkState n (if dom = s.fld fFAB_CTRL_DOMAIN then 2 else 3) s

/-- A control unit (R384, R385). One whose CRC fails is ignored. -/
def controlUnit (n : Nat) (u : List Byte) (s : State) : State :=
  let h := fld u 0 1
  let st := s.linkSt n
  if u.length ≠ 8 || crc8 (u.take 7) ≠ u.getD 7 0#8 || h / 32 ≠ 1 || !(st = 1 || st = 2 || st = 3) then s
  else
    let epoch := h / 2 % 16
    let dom := fld u 5 1
    let r := unbe (slice u 3 2)
    let s := (s.setF (fFAB_LINK_STATUS_FAR_EPOCH n) epoch).setF (fFAB_LINK_STATUS_FAR_DOMAIN n) dom
    let s := s.setF (fFAB_LINK_STATUS_NEIGHBOUR n) (if h % 2 = 1 then unbe (slice u 1 2) else 0)
    let last := (s.link n).lastCtl
    let l := s.link n
    let s :=
      if st = 1 then (if last = some (epoch, dom) then linkUp n dom s else s)
      else if last = some (epoch, dom) then s.setLink n { l with far := l.far + (r + 65536 - l.far % 65536) % 65536 }
      else linkDown n 1 s
    s.setLink n { s.link n with lastCtl := some (epoch, dom) }

/-- `FABRIC_CONTROL_UNIT_RECEIVED` (R384, R385): the oldest unit that released frames have brought, a control unit. -/
def execFabricControlUnitReceived (n : Ch) (s : State) : Host.Outcome State Fault Refusal :=
  match (s.link n).units with
  | [] => ok s
  | (m, good, u) :: _ =>
    if m % 16 ≠ 0 then ok s
    else
      let s := unitTaken n s
      ok (if good then controlUnit n u s else s)

/-- `FABRIC_LINK_DOWN` (R385): the channel's deframer no longer releases frames, or its pair is WAITING. -/
def execFabricLinkDown (n : Ch) (s : State) : Host.Outcome State Fault Refusal :=
  if (s.linkSt n = 2 || s.linkSt n = 3) && !s.linkFrames n then ok (linkDown n 1 s) else ok s

/-! ### Sending -/

/-- The unit that carries the next bytes of a packet: w data bytes a unit (R383, R387). -/
def txUnit (w sent : Nat) (pkt : List Byte) : List Byte :=
  let data := (pkt.drop sent).take w
  let kind := if sent = 0 then 1 else if pkt.length ≤ sent + w then 3 else 2
  [BitVec.ofNat 8 (64 * kind + (if kind = 3 then 8 * (data.length - 1) else 0))] ++ data ++ List.replicate (w - data.length) 0#8

/-- Credit covers every unit of the next packet (R386), whose units go out without an idle one between them (R383). -/
def creditFor (l : FabLink) (pkt : List Byte) : Bool := l.txSent != 0 || decide (l.sent + (pkt.length - 1) / 7 * 7 < 32768 + 256 * l.far)

/-- The lowest subcarrier of a set. -/
def lowestSc (set : Nat) : Nat := ((span 0 16).find? (bit set)).getD 0

/-- The shares on which a leaf ID's units go out (R387): the lowest of the leaf's downstream set; all, for every leaf. -/
def State.fabShares (s : State) (n id : Nat) : List Nat := if id = 0x3FF then span 0 16 else [lowestSc (s.fld (fLEAF_W0_DS_SC n id))]

/-- A unit of the head packet of a link is made for the line, if credit allows. -/
def stageUnit (n : Nat) (s : State) : State :=
  let l := s.link n
  let st := s.linkSt n
  match l.txq with
  | [] => s
  | (id, pkt) :: rest =>
    if !(st = 2 || st = 3 || st = 4) || (st != 4 && !creditFor l pkt) then s
    else
      let w := if st = 4 then 4 else 7
      let u := txUnit w l.txSent pkt
      let shares := if st = 4 then s.fabShares n id else [0]
      let l := { l with staged := l.staged ++ shares.map (fun k => (k, id, u)), sent := l.sent + min w (pkt.length - l.txSent) }
      let s := { s with out := { s.out with bytes := u } }
      if pkt.length ≤ l.txSent + w then count (cCH n 40) (s.setLink n { l with txq := rest, txSent := 0 })
      else s.setLink n { l with txSent := l.txSent + w }

/-- `FABRIC_UNIT_SENT` (R383, R386, R387): a unit is made, and waits for the next data frame, or for a message of its share. -/
def execFabricUnitSent (n : Ch) (s : State) : Host.Outcome State Fault Refusal := ok (stageUnit n s)

/-- The control unit of a link (R384). -/
def ctlUnit (s : State) (n : Nat) : List Byte :=
  let l := s.link n
  let b := be 1 (32 + 2 * l.epoch + b2n (s.node != 0)) ++ be 2 s.node ++ be 2 (l.rel / 256) ++ be 1 (s.fld fFAB_CTRL_DOMAIN) ++ be 1 n
  b ++ [crc8 b]

/-- The HFB bytes of the frame with MFAS m (R383): a control unit in every sixteenth frame, else the next unit that waits or the next of the
packet being sent, or an idle unit. -/
def hfbUnit (n m : Nat) (s : State) : List Byte × State :=
  if s.linkForm n ≠ 1 then (List.replicate 8 0#8, s)
  else if m % 16 = 0 then (ctlUnit s n, s)
  else
    let s := if (s.link n).staged.isEmpty && (s.link n).txSent != 0 then stageUnit n s else s
    match (s.link n).staged with
    | [] => (List.replicate 8 0#8, s)
    | (_, _, u) :: r => (slice u 0 8, s.setLink n { s.link n with staged := r })

/-! ### Advertisements and routes (R390) -/

/-- An advertisement packet (R390). -/
def advPacket (s : State) (x serial num hops dom : Nat) : List Byte :=
  packet kUnsolicited 32 0xFFFF s.node 0 0x0810 0 0 (le 2 x ++ le 8 serial ++ le 4 num ++ le 1 hops ++ le 1 dom)

/-- `ADVERTISEMENT_PERIOD` (R390). -/
def execAdvertisementPeriod (s : State) : Host.Outcome State Fault Refusal :=
  if s.node = 0 || !s.ready then ok s
  else
    let pkt := advPacket s s.node Config.serial.toNat s.fab.advNum.toNat 0 (s.fld fFAB_CTRL_DOMAIN)
    ok (sendAll false 99 pkt { s with fab := { s.fab with advNum := s.fab.advNum + 1#32 } })

/-- `newer` of R390. -/
def newer (a b : BitVec 32) : Bool := 1 ≤ (a - b).toNat && decide ((a - b).toNat < 2 ^ 31)

/-- Advertisement period in ns (R397). -/
def State.advNs (s : State) : Nat := clampN 1 100 (s.fld fFAB_LINK_CTRL_ADV_PERIOD) * 100000000

/-- Learn a route (R390). -/
def learnRoute (x n hops : Nat) (num : BitVec 32) (s : State) : State :=
  let w := (fFAB_ROUTE_VALID 0).put ((fFAB_ROUTE_HOPS 0).put ((fFAB_ROUTE_LINK 0).put 0#32 n) hops) 1
  let e : RouteX := ⟨num, s.life + BitVec.ofNat 64 (3 * s.advNs)⟩
  wakeNotice (countRoutes { s.wr (rFAB_ROUTE (x - 1)) w with fab := { s.fab with routes := smSet (fun _ => none) s.fab.routes x (some e) } })

/-- An advertisement with parameters from an UP link (R390). -/
def advert (n : Nat) (ps : List Byte) (s : State) : State :=
  let x := fld ps 0 2
  let serial := fld ps 2 8
  let num := BitVec.ofNat 32 (fld ps 10 4)
  let hops := fld ps 14 1 + 1
  if ps.length ≠ 16 || s.linkSt n ≠ 2 || x = 0 || 4096 < x then s
  else if x = s.node then
    if serial = Config.serial.toNat then s
    else offer 0x0B02 bSYS (serial % 2 ^ 32) n (s.setB fFAB_STATUS_DUP true)
  else if 255 < hops then s
  else
    let fresh := match smGet (fun _ => none) s.fab.routes x with
      | none => true
      | some e => !s.flag (fFAB_ROUTE_VALID (x - 1)) || decide (e.expiry ≤ s.life) || newer num e.num ||
          (decide (num = e.num) && decide (hops < s.fld (fFAB_ROUTE_HOPS (x - 1))))
    if fresh then sendAll false n (advPacket s x serial num.toNat hops (fld ps 15 1)) (learnRoute x n hops num s) else s

/-- `ADVERTISEMENT_RECEIVED` (R390, R395): the engine takes up an advertisement that came on link n. -/
def execAdvertisementReceived (n : Ch) (s : State) : Host.Outcome State Fault Refusal :=
  match inboxTake n (unsolicited 0x0810) s with
  | (some bs, s) => ok (advert n (pktParams bs) s)
  | (none, s) => ok s

/-- `ROUTE_EXPIRY` (R390): the route of node x, if its time has come. -/
def execRouteExpiry (x : Nat) (s : State) : Host.Outcome State Fault Refusal :=
  match smGet (fun _ => none) s.fab.routes x with
  | some e => if e.expiry ≤ s.life then
      ok (countRoutes { s.unreg (rFAB_ROUTE (x - 1)) with fab := { s.fab with routes := smDel s.fab.routes x } }) else ok s
  | none => ok s

/-! ### Address offers (R388) -/

/-- `ADDRESS_OFFER_SENT` (R388): from a hub to a leaf ID. -/
def execAddressOfferSent (n : Ch) (leaf : Fin 1024) (s : State) : Host.Outcome State Fault Refusal :=
  let a := s.fld (fFAB_LEAF_BASE_BASE n) + leaf
  if !s.flag (fFAB_LEAF_BASE_OFFER n) || s.fld (fHUB_CTRL_ROLE n) ≠ 1 || s.fld (fLEAF_W0_STATE n leaf) ≠ 2 || 0x1000 < a then ok s
  else ok (linkSendTo n leaf (packet kUnsolicited 32 0xFFFF s.node 0 0x0811 0 0
    (le 2 a ++ le 1 (s.fld fFAB_CTRL_DOMAIN) ++ [0#8] ++ le 2 s.node)) s)

/-- A new domain brings every link down, to re-form as UP or BOUNDARY (R395). -/
def domainChanged (oldDom : Nat) (s : State) : State :=
  if s.fld fFAB_CTRL_DOMAIN = oldDom then s
  else each (span 0 4) (fun n s => if s.linkSt n = 2 || s.linkSt n = 3 then linkDown n 1 s else s) s

/-- An address offer with parameters on link n: adopted only by a leaf with AUTO_ADDR set and no address. -/
def takeOffer (n : Nat) (ps : List Byte) (s : State) : State :=
  let a := fld ps 0 2
  if ps.length ≠ 6 || s.fld (fHUB_CTRL_ROLE n) ≠ 2 || !s.flag fFAB_CTRL_AUTO_ADDR || s.node ≠ 0 || a = 0 || 4096 < a then s
  else
    let t := ((s.setF fFAB_CTRL_ADDR a).setF fFAB_CTRL_DOMAIN (fld ps 2 1)).setB fFAB_STATUS_OFFERED true
    domainChanged (s.fld fFAB_CTRL_DOMAIN) (offer 0x0B03 bSYS a 0 t)

/-- `ADDRESS_OFFER_RECEIVED` (R388, R395): the engine takes up an offer that came on link n. -/
def execAddressOfferReceived (n : Ch) (s : State) : Host.Outcome State Fault Refusal :=
  match inboxTake n (unsolicited 0x0811) s with
  | (some bs, s) => ok (takeOffer n (pktParams bs) s)
  | (none, s) => ok s

/-! ### Forwarded requests (R393) -/

/-- Place a packet of the fabric in a local master's reply queue. -/
def placeLocal (w : Who) (pkt : List Byte) (s : State) : State :=
  match w.master with
  | 1 => toMbx 0 false pkt s
  | 2 => toMbx 1 false pkt s
  | 3 => toI2c false pkt s
  | _ => s

/-- A reply or notice on link n (R393): the original TAG is restored; a late one is discarded and counted. -/
def fwdReply (n : Nat) (bs : List Byte) (s : State) : State :=
  let k := pktKind bs
  match s.fab.fwd.find? fun f => f.tag == pktTag bs && f.opcode == pktOpcode bs with
  | none => count (cCH n 47) s
  | some f =>
    let acc := k = 2 && pktStatus bs = stACCEPTED
    let keep := acc || k = 10 || k = 14
    let fwd := if keep then replaceFirst (fun x => decide (x = f)) (fun x => if acc then { x with accepted := true, time := s.life } else x) s.fab.fwd
      else s.fab.fwd.filter fun x => !decide (x = f)
    placeLocal f.org.who (resealed bs (pktHop bs) (pktSrc bs) f.org.tag f.org.who.master) { s with fab := { s.fab with fwd := fwd } }

/-- `FORWARDED_REPLY_RECEIVED` (R393): the engine takes up a reply or notice that came on link n. -/
def execForwardedReplyReceived (n : Ch) (s : State) : Host.Outcome State Fault Refusal :=
  match inboxTake n (fun bs => [2, 10, 6, 14].contains (pktKind bs)) s with
  | (some bs, s) => ok (fwdReply n bs s)
  | (none, s) => ok s

/-- End a forwarded request with TIMEOUT (R393): reply, or notice after ACCEPTED; record 0x0B06. -/
def fwdTimeout (f : Fwd) (s : State) : State :=
  let s := { s with fab := { s.fab with fwd := s.fab.fwd.filter fun x => !decide (x = f) } }
  let r : Ref := { status := stTIMEOUT }
  let s := refuseRecord f.org f.opcode r (offer 0x0B06 bSYS f.dest f.opcode s)
  answer f.org (if f.accepted then kNotice else kReply) f.opcode stTIMEOUT r.bytes s

/-- The limit of a forwarded request has passed: 2 s to its answer, 60 s from an ACCEPTED to its notice (R393). -/
def Fwd.due (life : BitVec 64) (f : Fwd) : Bool := decide (f.time.toNat + (if f.accepted then 60000000000 else 2000000000) ≤ life.toNat)

/-- `FORWARDED_REQUEST_TIMEOUT` (R393): by the tag the engine allocated. -/
def execForwardedRequestTimeout (tag : Nat) (s : State) : Host.Outcome State Fault Refusal :=
  match s.fab.fwd.find? fun f => f.tag == tag && f.due s.life with
  | some f => ok (fwdTimeout f s)
  | none => ok s

/-! ### Configuration (R389, R393, R395) -/

/-- What new fabric configuration sets going: a new address ends forwarded requests and is recorded, a new domain
brings every link down, and links follow their enables. -/
def fabWritten (oldAddr oldDom : Nat) (s : State) : State :=
  let s := if s.node = oldAddr then s
    else offer 0x0B03 bSYS s.node oldAddr (each s.fab.fwd fwdTimeout s)
  fabRefresh (domainChanged oldDom s)

/-- `FAB_REPORT` (R398). -/
def cmdFabReport : Cmd where
  code := 0x0800
  access := accAll
  params := fun _ _ => none
  body := fun _ s => .ok (s, .done (le 4 (s.rd rFAB_CTRL).toNat ++ le 4 (s.rd rFAB_LINK_CTRL).toNat ++ le 4 (s.rd rFAB_STATUS).toNat ++
    (span 0 4).flatMap fun n => le 4 (s.rd (rFAB_LINK_STATUS n)).toNat))

/-- `FAB_REPORT`. -/
def execFabReport (q : Request) (s : State) : Host.Outcome State Fault Refusal := serve cmdFabReport q s

/-- `FAB_SET` (R398): only the words flagged present are read and checked. -/
def cmdFabSet : Cmd where
  code := 0x0801
  access := accOpRem
  params := fun ps _ =>
    let fl := fld ps 0 1
    firstBad ([(miss ps 0 1 || decide (8 ≤ fl), 0), (miss ps 1 3 || fld ps 1 3 != 0, 1),
      (miss ps 4 4 || (bit fl 0 && (setsReserved rFAB_CTRL (fld ps 4 4) || decide (4096 < fld ps 4 4 % 8192))), 4),
      (miss ps 8 4 || (bit fl 1 && (setsReserved rFAB_LINK_CTRL (fld ps 8 4) || fld ps 8 4 / 256 % 128 == 0 || decide (100 < fld ps 8 4 / 256 % 128))), 8)] ++
      (span 0 4).map fun n => (miss ps (12 + 4 * n) 4 || (bit fl 2 && setsReserved (rFAB_LEAF_BASE n) (fld ps (12 + 4 * n) 4)), 12 + 4 * n))
  body := fun q s =>
    let ps := q.params
    let fl := fld ps 0 1
    let t := if bit fl 0 then s.wr rFAB_CTRL (BitVec.ofNat 32 (fld ps 4 4)) else s
    let t := if bit fl 1 then t.wr rFAB_LINK_CTRL (BitVec.ofNat 32 (fld ps 8 4)) else t
    let t := if bit fl 2 then each (span 0 4) (fun n t => t.wr (rFAB_LEAF_BASE n) (BitVec.ofNat 32 (fld ps (12 + 4 * n) 4))) t else t
    .ok (fabWritten s.node (s.fld fFAB_CTRL_DOMAIN) t, .done [])

/-- `FAB_SET`. -/
def execFabSet (q : Request) (s : State) : Host.Outcome State Fault Refusal := serve cmdFabSet q s

/-- `FAB_ACL_SET` (R394, R398). -/
def cmdFabAclSet : Cmd where
  code := 0x0802
  access := accOp
  params := fun ps _ =>
    let a := fld ps 0 1
    let k := fld ps 1 1
    firstBad ([(miss ps 0 1 || (decide (1 ≤ k) && decide (k ≤ 64) && decide (64 < a + k)), 0), (miss ps 1 1 || k == 0 || decide (64 < k), 1),
      (miss ps 2 2 || fld ps 2 2 != 0, 2)] ++
      (span 0 (min k 64)).map fun j => (miss ps (4 + 8 * j) 8 || setsReserved (rFAB_ACL_A 0) (fld ps (4 + 8 * j) 4), 4 + 8 * j))
  body := fun q s =>
    let ps := q.params
    let t := each (span 0 (fld ps 1 1)) (fun j t =>
      let i := fld ps 0 1 + j
      (t.wr (rFAB_ACL_A i) (BitVec.ofNat 32 (fld ps (4 + 8 * j) 4))).wr (rFAB_ACL_B i) (BitVec.ofNat 32 (fld ps (8 + 8 * j) 4))) s
    .ok (t, .done [])

/-- `FAB_ACL_SET`. -/
def execFabAclSet (q : Request) (s : State) : Host.Outcome State Fault Refusal := serve cmdFabAclSet q s

/-- `FAB_ROUTEa` as it reads (R397): the part's own address shows LINK 7 and no route. -/
def State.routeWord (s : State) (a : Nat) : Word := if s.node = a then 7#32 else s.rd (rFAB_ROUTE (a - 1))

/-- `FAB_ROUTE_READ` (R398). -/
def cmdFabRouteRead : Cmd where
  code := 0x0803
  access := accAll
  params := fun ps _ =>
    let a := fld ps 0 2
    let k := fld ps 2 2
    firstBad [(miss ps 0 2 || a == 0 || decide (4096 < a), 0), (miss ps 2 2 || k == 0 || decide (1019 < k), 2)]
  body := fun q s => .ok (s, .done ((span (fld q.params 0 2 - 1) (fld q.params 2 2)).flatMap fun i => le 4 (s.routeWord (i + 1)).toNat))

/-- `FAB_ROUTE_READ`. -/
def execFabRouteRead (q : Request) (s : State) : Host.Outcome State Fault Refusal := serve cmdFabRouteRead q s

end Sys2Proof.Machine
end

