-- ==== Sys2Proof/Machine/Lanes.lean ====
section
/-! DEFINITION. Host lanes and ports (spec 13): training, loss of signal, lock, targeted tests and the lane commands. -/

namespace Sys2Proof.Machine

open Sys2Proof

/-- State of power domain d in `PWR_DOMAIN_A` and `PWR_DOMAIN_B` (R413): 0 DARK, 1 RETAIN, 2 ON, 3 changing. -/
abbrev fPD (d : Nat) : Fld := ⟨if d < 16 then rPWR_DOMAIN_A else rPWR_DOMAIN_B, 2 * (d % 16), 2⟩

/-- A domain is ON. -/
def State.pdOn (s : State) (d : Nat) : Bool := s.fld (fPD d) == 2

/-- A channel is ACTIVE. -/
def State.active (s : State) (n : Nat) : Bool := s.fld (fCH n) == 2

/-- A channel is DARK. -/
def State.chDark (s : State) (n : Nat) : Bool := s.fld (fCH n) == 0

/-! ### Domains and their registers (R401) -/

/-- The domain whose darkening hides a register's status: monitor, channel, quad, merge and cipher; the rest is held in `PD00`
to `PD02`. -/
def regDomain (off : Nat) : Option Nat :=
  if 0x60000 ≤ off && decide (off < 0x61000) then some 3
  else if 0x100000 ≤ off && decide (off < 0x200000) then some (16 + (off - 0x100000) / 0x40000)
  else if 0x200000 ≤ off && decide (off < 0x200800) then some 28
  else if 0x210000 ≤ off && decide (off < 0x240000) then some 29
  else if 0x300000 ≤ off && decide (off < 0x300400) then some (24 + (off % 0x100) / 64)
  else none

/-- Bits of a register that hold configuration: fields with a take-effect class (R8, R9). -/
def cfgBits (off : Nat) : Word :=
  match regAt off with
  | some r => bitsOf (r.spec.fields.filter fun f => f.take != .none)
  | none => 0#32

/-- A word with its status at reset. -/
def atReset (off : Nat) (keep w : Word) : Word := (w &&& keep) ||| (resetWord off &&& ~~~keep)

/-- A register word as it reads (R401): the status of a DARK domain reads as at reset, its configuration as the shadow. -/
def State.shown (s : State) (off : Nat) : Word :=
  match regDomain off with
  | some d => if s.fld (fPD d) = 0 then atReset off (cfgBits off) (s.rd off) else s.rd off
  | none => s.rd off

/-- Counts since the last cold start that a darkening does not end: `ACQ_COUNT`, `TRANSIENTS`, `HL_TRANSIENTS`. -/
def keptBits (off : Nat) : Word :=
  match regAt off with
  | some r =>
    if r.spec.name == "LINE_RX_STATUS" || r.spec.name == "CONV_STATUS" then 0xFF000000#32
    else if r.spec.name == "HL_STATUS" then 0x00FF0000#32
    else 0#32
  | none => 0#32

/-- The status of some registers returns to reset; their configuration and the counts of `keptBits` stay (R401). -/
def statusReset (p : Nat → Bool) (s : State) : State :=
  let f := fun (m : SMap Word) (e : Nat × Word) => if p e.1 then smSet resetWord m e.1 (atReset e.1 (cfgBits e.1 ||| keptBits e.1) e.2) else m
  { s with regs := s.regs.foldl f s.regs }

/-- Some registers return to reset altogether. -/
def dropRegs (p : Nat → Bool) (s : State) : State := { s with regs := s.regs.filter fun e => !p e.1 }

/-- The mark of a lane among the targets of operations. -/
def tLane (l : Nat) : Nat := 0x2000 + l

/-- Hidden state of a lane. -/
def State.lane (s : State) (l : Nat) : LaneSt := smGet (fun _ => LaneSt.init) s.lanes l

/-- Replace the hidden state of a lane. -/
def State.setLane (s : State) (l : Nat) (x : LaneSt) : State := { s with lanes := smSet (fun _ => LaneSt.init) s.lanes l x }

/-- STATE of a lane (R339). -/
def State.laneSt (s : State) (l : Nat) : Nat := s.fld (fHL_STATUS_STATE l)

/-- Source block of a lane's quad. -/
def bLane (l : Nat) : Nat := bHQ (l / 16)

/-- The loopback of a lane clears as it leaves L0 (R455). -/
def laneLoopClear (l : Nat) (s : State) : State :=
  let d := s.fld (fHL_LOOP_DEPTH l)
  if d = 0 then s else offer 0x0E03 (bLane l) (d + 256 * l) 0 (s.setF (fHL_LOOP_DEPTH l) 0)

/-- Enter a lane state, with record 0x0807 on a change (R341). -/
def laneTo (l st : Nat) (s : State) : State :=
  if s.laneSt l = st then s
  else
    let s := if s.laneSt l = 4 then laneLoopClear l s else s
    offer 0x0807 (bLane l) (l + 256 * st) 0 (s.setF (fHL_STATUS_STATE l) st)

/-- Lanes of a port by the role of its head (R324, R339): 0 where the lane is no head. -/
def portWidth (role : Nat) : Nat := match role with | 1 => 1 | 2 => 1 | 3 => 2 | 4 => 4 | 5 => 8 | _ => 0

/-- Lanes of the port with head h. -/
def State.portLanes (s : State) (h : Nat) : List Nat := span h (portWidth (s.fld (fHL_CFG_ROLE h)))

/-- The head of the port a lane belongs to: itself, or the nearest head below it within the quad whose width covers it. -/
def State.headOf (s : State) (l : Nat) : Option Nat := (span (16 * (l / 16)) 16).find? fun h => (s.portLanes h).contains l

/-- Every lane of the port is in L0 with its signal (R333). -/
def State.portLanesUp (s : State) (h : Nat) : Bool :=
  s.headLane h && (s.portLanes h).all fun l => s.laneSt l == 4 && !s.flag (fHL_STATUS_LOS l)

/-- The port has PCS lock, on a group port calendar lock too (R333, R337). -/
def State.pcsLock (s : State) (h : Nat) : Bool :=
  s.headLane h && s.flag (fHP_STATUS_AM_LOCK h) && s.flag (fHP_STATUS_PCS_LOCK h) &&
    (!s.flag (fHL_CFG_GROUP h) || s.flag (fHP_STATUS_CAL_LOCK h))

/-- Set the locks of a port: lost locks are remembered in SEEN, and a change makes record 0x0805 (R333, R337, R341). Without blocks the
calendar receiver begins anew. -/
def portLocks (h : Nat) (am pcs cal : Bool) (s : State) : State :=
  let s := if am && pcs then s else s.setLane h { s.lane h with cal := CalRx.init }
  let oa := s.flag (fHP_STATUS_AM_LOCK h)
  let op := s.flag (fHP_STATUS_PCS_LOCK h)
  let oc := s.flag (fHP_STATUS_CAL_LOCK h)
  if oa = am && op = pcs && oc = cal then s
  else
    let lost := b2n (oa && !am) + 2 * b2n (op && !pcs) + 4 * b2n (oc && !cal)
    let seen := (BitVec.ofNat 8 (s.fld (fHP_STATUS_SEEN h)) ||| BitVec.ofNat 8 lost).toNat
    let s := (((s.setB (fHP_STATUS_AM_LOCK h) am).setB (fHP_STATUS_PCS_LOCK h) pcs).setB (fHP_STATUS_CAL_LOCK h) cal).setF (fHP_STATUS_SEEN h) seen
    offer 0x0805 (bLane h) (h + 256 * b2n am + 512 * b2n pcs + 1024 * b2n cal) 0 s

/-- The port of a lane loses its locks when the lane no longer delivers (R329, R333). -/
def portLost (l : Nat) (s : State) : State :=
  match s.headOf l with
  | some h => if s.portLanesUp h then s else portLocks h false false false s
  | none => s

/-- A lane is in training: STATE 1, 2 or 3 (R326). -/
def State.training (s : State) (l : Nat) : Bool := s.laneSt l == 1 || s.laneSt l == 2 || s.laneSt l == 3

/-- The mark of a lane among the targets of `PWR_STATE_SET`. -/
def tPLane (l : Nat) : Nat := 0xB000 + l

/-- A lane begins training anew (R326, R330). -/
def laneTrain (l : Nat) (s : State) : State :=
  let s := s.setLane l { s.lane l with testing := false }
  portLost l (laneTo l 1 ((s.setB (fHL_STATUS_HOLDING l) false).setB (fHL_STATUS_SX l) false))

/-- `LANE_TRAINING_COMPLETE` (R326, R327): `mark` tells that the partner's training frames carried the Sorwald mark with
its extension allowed; the taps, the receive SNR (0.25 dB) and the pre-FEC ratio are what training arrived at. The lane passes the states of
R326 on its way to data. DESIGN CHOICE, assumption 132: in one event. -/
def execLaneTrainingComplete (l : Fin 64) (mark : Bool) (own partner : List Nat) (snr ber : Nat) (s : State) : Host.Outcome State Fault Refusal :=
  if !s.training l then ok s
  else
    let sx := mark && s.flag (fHL_CFG_SX_EN l)
    let s := (s.setLane l { s.lane l with restarts := 0, own := own, partner := partner, ber := ber }).setF (fHL_STATUS_SNR l) snr
    let s := ((s.setB (fHL_STATUS_SX l) sx).setB (fHL_STATUS_LOS l) false).setB (fHL_STATUS_HOLDING l) false
    let s := laneTo l 4 ((fun s => if sx then laneTo l 3 s else s) (laneTo l 2 s))
    let s := offer 0x0801 (bLane l) (l + 256 * b2n sx) (snr % 256) s
    ok (targetDone 0x0600 (tPLane l) none [] (targetDone 0x0262 (tLane l) none [4#8] s))

/-- `LANE_TRAINING_TIMEOUT` (R328): the lane has not finished within 50 ms of its first received training frame. -/
def execLaneTrainingTimeout (l : Fin 64) (s : State) : Host.Outcome State Fault Refusal :=
  if !s.training l then ok s
  else
    let r := (s.lane l).restarts + 1
    let s := (s.setLane l { s.lane l with restarts := r }).bumpF (fHL_STATUS_HL_TRAIN_FAIL l)
    ok (laneTo l 1 (if r = 3 then offer 0x0802 (bLane l) l 0 s else s))

/-- `LANE_LOS` (R329). In L1 loss of signal is ignored (R330), and so is `HRX` in a near-end loopback (R453). -/
def execLaneLos (l : Fin 64) (s : State) : Host.Outcome State Fault Refusal :=
  if s.laneSt l = 4 && s.fld (fHL_LOOP_DEPTH l) != 1 && !s.flag (fHL_STATUS_LOS l) then
    ok (portLost l (offer 0x0803 (bLane l) l 0 ((s.setB (fHL_STATUS_LOS l) true).setB (fHL_STATUS_HOLDING l) true)))
  else ok s

/-- `LANE_SIGNAL_RETURN` (R329): from the held state the lane relocks; later it trains again. -/
def execLaneSignalReturn (l : Fin 64) (s : State) : Host.Outcome State Fault Refusal :=
  if s.flag (fHL_STATUS_HOLDING l) then
    ok (offer 0x0804 (bLane l) l 0 ((s.setB (fHL_STATUS_LOS l) false).setB (fHL_STATUS_HOLDING l) false))
  else if s.training l then ok (s.setB (fHL_STATUS_LOS l) false)
  else ok s

/-- `LANE_HOLD_EXPIRY` (R329): the held state is discarded; the lane then sends training and waits for its partner. -/
def execLaneHoldExpiry (l : Fin 64) (s : State) : Host.Outcome State Fault Refusal :=
  if s.flag (fHL_STATUS_HOLDING l) then ok (laneTrain l s) else ok s

/-- `LANE_LOCK_LOST` (R329): the third loss of lock within 1 s with the signal present starts a targeted test. -/
def execLaneLockLost (l : Fin 64) (s : State) : Host.Outcome State Fault Refusal :=
  if s.laneSt l ≠ 4 || s.flag (fHL_STATUS_LOS l) || (s.lane l).testing then ok s
  else
    let recent := (s.lane l).losses.filter fun t => decide (s.life.toNat ≤ t.toNat + 1000000000)
    let all := recent ++ [s.life]
    if 3 ≤ all.length then ok (s.setLane l { s.lane l with losses := [], testing := true })
    else ok (s.setLane l { s.lane l with losses := all })

/-- `LANE_TEST_COMPLETE` (R329): a lane that passes retrains; one that fails is FAILED and its port is down. -/
def execLaneTestComplete (l : Fin 64) (pass : Bool) (s : State) : Host.Outcome State Fault Refusal :=
  if !(s.lane l).testing then ok s
  else
    let s := s.setLane l { s.lane l with testing := false, failed := !pass }
    if pass then
      let s := s.bumpF (fHL_STATUS_HL_TRANSIENTS l)
      ok (laneTrain l (offer 0x0808 (bLane l) l (s.fld (fHL_STATUS_HL_TRANSIENTS l)) s))
    else
      let s := offer 0x0808 (bLane l) (l + 256) (s.fld (fHL_STATUS_HL_TRANSIENTS l)) s
      ok (portLost l (laneTo l 7 s))

/-- `PORT_LOCK_CHANGED` (R333, R337): what the port with head lane h finds of alignment markers and blocks, and its lane skew in ns.
Without every lane of the port there is no lock; without markers no blocks, and without blocks no calendar. -/
def execPortLockChanged (h : Fin 64) (am pcs : Bool) (skew : Nat) (s : State) : Host.Outcome State Fault Refusal :=
  if !s.headLane h then ok s
  else
    let a := am && s.portLanesUp h
    let s := s.setF (fHP_STATUS_SKEW h) (if a then skew else 0)
    ok (portLocks h a (pcs && a) ((s.lane h).cal.lock && pcs && a) s)

/-- `FAULT_ORDERED_SETS_FROM_HOST` (R334): local or remote fault ordered sets from the host begin or end. -/
def execFaultOrderedSetsFromHost (h : Fin 64) (remote began : Bool) (s : State) : Host.Outcome State Fault Refusal :=
  let f := if remote then fHP_STATUS_RF_RX h else fHP_STATUS_LF_RX h
  if !s.headLane h || s.flag f = began then ok s
  else
    let seen := if began then (BitVec.ofNat 8 (s.fld (fHP_STATUS_SEEN h)) ||| (if remote then 0x10#8 else 0x08#8)).toNat else s.fld (fHP_STATUS_SEEN h)
    let s := (s.setB f began).setF (fHP_STATUS_SEEN h) seen
    ok (offer 0x0806 (bLane h) (h + 256 * b2n (!remote) + 512 * b2n remote + 1024 * b2n began) 0 s)

/-! ### Commands (R340) -/

/-- The check of a lane parameter. -/
def badLane (ps : List Byte) : Bool × Nat := (miss ps 0 1 || decide (63 < fld ps 0 1), 0)

/-- `HOST_LANE_REPORT` (R340): taps as 2-byte numbers. -/
def cmdHostLaneReport : Cmd where
  code := 0x0261
  access := accAll
  params := fun ps _ => firstBad [badLane ps]
  body := fun q s =>
    let l := fld q.params 0 1
    let x := s.lane l
    .ok (s, .done (le 4 (s.shown (rHL_STATUS l)).toNat ++ ((span 0 8).flatMap fun i => le 2 (x.own.getD i 0)) ++
      ((span 0 8).flatMap fun i => le 2 (x.partner.getD i 0)) ++ le 4 x.ber))

/-- `HOST_LANE_REPORT`. -/
def execHostLaneReport (q : Request) (s : State) : Host.Outcome State Fault Refusal := serve cmdHostLaneReport q s

end Sys2Proof.Machine
end

