-- ==== Sys2Proof/Machine/Clients.lean ====
section
/-! DEFINITION. Clients of the slot maps: slots and sessions, live lanes, what is served with fault blocks (spec 10, 12,
13), the checks of a slots staging block, and the host port commands. -/

namespace Sys2Proof.Machine

open Sys2Proof

/-- A set of words to read fields from: running registers, a rehearsal bank, a receive side. -/
abbrev Reader := Nat → Word

/-- A field of a set of words. -/
def rdF (rd : Reader) (f : Fld) : Nat := f.of (rd f.reg)

/-- The receive side of a channel (R160, R238): while a receive half waits, the words it will replace. -/
def State.rx (s : State) : Reader := fun off =>
  match cueBlock off with
  | none => s.rd off
  | some b => match s.halves.find? fun h => h.2.block == b with
    | some h => bankRd h.2.old off
    | none => s.rd off

/-- The channel of member m. -/
def State.memCh (s : State) (p m : Nat) : Nat := if m = 0 then s.fld (fMRG_CFG_CH_A p) else s.fld (fMRG_CFG_CH_B p)

/-! ### Slots and clients (R233 to R239) -/

/-- The client that slot j of channel n is assigned to. -/
def slotClient (rd : Reader) (n j : Nat) : Option Nat :=
  if j % 2 = 0 then (if rdF rd (fSLOT_MAP_ASSIGNED_E n (j / 2)) = 1 then some (rdF rd (fSLOT_MAP_CLIENT_E n (j / 2))) else none)
  else if rdF rd (fSLOT_MAP_ASSIGNED_O n (j / 2)) = 1 then some (rdF rd (fSLOT_MAP_CLIENT_O n (j / 2))) else none

/-- The slots of a client, in ascending order. -/
def clientSlots (rd : Reader) (n c : Nat) : List Nat := (span 0 512).filter fun j => slotClient rd n j == some c

/-- Clients some slot names, and in an interoperable mode the typed ones of `CLIENT0` to `CLIENT3` (R239). -/
def assignedClients (rd : Reader) (n : Nat) : List Nat :=
  ((span 0 512).filterMap (slotClient rd n)).eraseDups ++
    (if rdF rd (fLINE_MODE_IOP n) = 0 then [] else (span 0 4).filter fun c => rdF rd (fCLIENT_TYPE n c) != 0)

/-- The running slot map of a channel assigns some slot. -/
def anySlot (rd : Reader) (n : Nat) : Bool := (span 0 512).any fun j => (slotClient rd n j).isSome

/-- Nominal rate of a client type in 100 Gb/s (R233, R251). -/
def typeRate (t : Nat) : Nat := match t with | 1 => 1 | 2 => 2 | 3 => 4 | 4 => 8 | 5 => 16 | 6 => 1 | _ => 0

/-- Slots of a client of rate c on net rate n, both in 100 Gb/s: ceil(512 c / n) (R233). -/
def slotsFor (c n : Nat) : Nat := if n = 0 then 0 else (512 * c + n - 1) / n

/-- Role of the port that serves a client type (R324, R335). -/
def typeRole (t : Nat) : Nat := if t = 6 then 1 else t

/-- Sessions bound by a map, with their client (R289). -/
def boundSessions (rd : Reader) (n : Nat) : List (Nat × Nat) :=
  ((assignedClients rd n).map fun c => (rdF rd (fCLIENT_SESSION n c), c)).filter fun e => e.1 != 0

/-- Load of a map in units of 1/160 Gb/s: s x slot rate x 2 for each bound session (R316). -/
def mapLoad (rd : Reader) (n : Nat) : Nat :=
  ((boundSessions rd n).map fun e => (clientSlots rd n e.2).length * rdF rd (fLINE_MODE_NET_RATE n) * 63).foldl (· + ·) 0

/-- A lane is live (R331): it belongs to the port that a valid entry of an assigned client in a running map names. -/
def State.liveLane (s : State) (l : Nat) : Bool :=
  match s.headOf l with
  | none => false
  | some h => (span 0 4).any fun n => !s.memberB n && (assignedClients s.rd n).any fun c =>
      s.flag (fXBAR_CLIENT_VALID n c) && s.fld (fXBAR_CLIENT_LANE n c) == h

/-! ### Key contexts and sessions (R293, R294) -/

/-- Context states of R294. -/
abbrev cxINSTALLED : Nat := 1
abbrev cxPENDING : Nat := 2
abbrev cxCURRENT : Nat := 3
abbrev cxRETIRING : Nat := 4

/-- The contexts that are not EMPTY. -/
def State.contexts (s : State) : List Nat :=
  (s.regs.filter fun e => 0x220000 ≤ e.1 && decide (e.1 < 0x240000) && e.1 % 8 == 0).map fun e => (e.1 - 0x220000) / 8

/-- A context of a session and direction in a given state. -/
def State.ctxIn (s : State) (sess dir st : Nat) : Option Nat :=
  s.contexts.find? fun i => s.fld (fCPH_CTX_A_SESSION i) == sess && s.fld (fCPH_CTX_A_DIR i) == dir && s.fld (fCPH_CTX_A_STATE i) == st

/-- The CURRENT context of a session and direction. -/
def State.current (s : State) (sess dir : Nat) : Option Nat := s.ctxIn sess dir cxCURRENT

/-- Difference of two 48-bit frame numbers, signed. -/
def fnDiff (a b : Nat) : Int := signed 48 (a + 2 ^ 48 - b % 2 ^ 48)

/-- The next upstream frame of a leaf, numbered as the downstream it receives (R170): the one after the last it gathered, where that is not
further back than a group of the interleaver, else the last received. -/
def State.leafFn (s : State) (n : Nat) : Nat :=
  let o := s.oh.get (ch4 n)
  if fnDiff o.lastFn o.tx.fn < -1 || 15 < fnDiff o.lastFn o.tx.fn then o.lastFn else o.tx.fn

/-- The next frame number of a direction on channel n (R309): 0 transmitted, on a leaf gathered; 1 received, on a pair by the merge, on a hub
assembled. -/
def State.nextFn (s : State) (n dir : Nat) : Nat :=
  let o := s.oh.get (ch4 n)
  let after := (o.lastFn + 1) % 2 ^ 48
  if dir = 0 then (if s.fld (fHUB_CTRL_ROLE n) = 2 then s.leafFn n else o.tx.fn)
  else match s.memberOf n with
    | some (p, _) => (s.mrg.get (pr2 p)).next.getD after
    | none => if s.fld (fHUB_CTRL_ROLE n) = 1 then (s.hub.get (ch4 n)).nextRel.getD after else after

/-- The frame number at which a cue takes effect in a direction: the one it names in mode 1, else the next multiframe. -/
def State.cueFrame (s : State) (n : Nat) (f : Option Nat) (dir : Nat) : Nat := f.getD ((s.nextFn n dir + 255) / 256 * 256 % 2 ^ 48)

/-- A context of the session and direction will be CURRENT at the multiframe with first frame f (R291 rule 3). -/
def State.willBeCurrent (s : State) (sess dir f : Nat) : Bool :=
  (s.current sess dir).isSome || s.cph.acts.any fun a =>
    s.fld (fCPH_CTX_A_SESSION a.ctx) == sess && s.fld (fCPH_CTX_A_DIR a.ctx) == dir && (a.mode == 0 || decide (0 ≤ fnDiff f a.frame))

/-- Cores in the active set, and the capacity in 1/5 Gb/s (R316). -/
def State.activeCores (s : State) : Nat := min 128 (144 - s.perm.cores.length)

/-- Running load of the part in 1/160 Gb/s; member B of a pair has no map (R316). -/
def State.load (s : State) : Nat := ((span 0 4).map fun n => mapLoad s.rd n).foldl (· + ·) 0

/-- A load in 1/160 Gb/s exceeds the capacity. -/
def State.overload (s : State) (load : Nat) : Bool := decide (s.activeCores * 32768 < load)

/-! ### What a client is served (R235, R277, R306, R307) -/

/-- The channel serves fault blocks to every client: its defects, or frames not yet released; on a pair MERGE_LOS and
the defects PLM, UNEQ and TIM of the merged stream (R277); on a hub `HUB_LOS` (R232). -/
def State.streamFault (s : State) (n : Nat) : Bool :=
  match s.memberOf n with
  | some (p, _) => s.fld (fMRG_STATUS_STATE p) < 2 || bits (s.fld (fOH_RX_STATUS_DEFECTS n)) 6 4 != 0
  | none =>
    if s.fld (fHUB_CTRL_ROLE n) = 1 then s.flag (fHUB_STATUS_HUB_LOS n)
    else s.fld (fOH_RX_STATUS_DEFECTS n) % 0x80 != 0 || !s.flag (fOH_RX_STATUS_FN_VALID n)

/-- The filters over the stream a channel releases: on a pair the merged stream, kept with member A (R277). -/
def State.filt (s : State) (n : Nat) : OhFilt := (s.oh.get (ch4 n)).filt

/-- The demapper sends fault blocks to the host in place of a client (R235, R306, R307). -/
def State.clientFault (s : State) (n c : Nat) : Bool :=
  let x := rdF s.rx (fCLIENT_SESSION n c)
  s.streamFault n || (s.filt n).smm.contains c || (s.oh.get (ch4 n)).ptrBad.contains c ||
    (x != 0 && ((s.current x 1).isNone || s.cph.authFail.contains x || s.cph.authLeft.contains x))

/-- Fault blocks go to the host port with head h (`LF_TX`, R339). -/
def State.lfTx (s : State) (h : Nat) : Bool :=
  (span 0 4).any fun n => !s.memberB n && (assignedClients s.rx n).any fun c =>
    rdF s.rx (fXBAR_CLIENT_VALID n c) == 1 && rdF s.rx (fXBAR_CLIENT_LANE n c) == h && s.clientFault n c

/-- `HP_STATUS` as read: 0 except at a head lane (R339). -/
def State.hpStatus (s : State) (l : Nat) : Word :=
  if s.fld (fPD (24 + l / 16)) = 0 then s.shown (rHP_STATUS l)
  else if s.headLane l then (fHP_STATUS_LF_TX l).put (s.rd (rHP_STATUS l)) (b2n (s.lfTx l)) else 0#32

/-- The mapper sends fault blocks in place of an assigned client: its host port has no PCS lock (R235, R335). -/
def State.clientNoLock (s : State) (n c : Nat) : Bool :=
  !(s.flag (fXBAR_CLIENT_VALID n c) && s.pcsLock (s.fld (fXBAR_CLIENT_LANE n c)))

/-! ### The slots staging block at its cue (R238, R239, R291, R335) -/

/-- A conflict found at a cue: the refusal names the block that objects. -/
def conflict (b : Nat) : Ref := { status := stCONFLICT, b1 := b }

/-- The first of some (bad, refusal) conditions that holds. -/
def firstRef : List (Bool × Ref) → Option Ref
  | [] => none
  | (b, r) :: t => if b then some r else firstRef t

/-- Client sets allowed in an interoperable mode, as the types of `CLIENT0` to `CLIENT3` (R239). -/
def iopSet (iop : Nat) (ts : List Nat) : Bool :=
  ts == [0, 0, 0, 0] ||
    (match iop with
     | 1 => ts == [3, 0, 0, 0]
     | 2 => ts == [3, 0, 0, 0] || ts == [1, 1, 1, 1]
     | 3 => ts == [4, 0, 0, 0] || ts == [3, 3, 0, 0]
     | _ => false)

/-- Rules 1 to 3 of R238. -/
def slotShape (rd : Reader) (n : Nat) : Bool :=
  let cs := ((span 0 512).filterMap (slotClient rd n)).eraseDups
  let net := rdF rd (fLINE_MODE_NET_RATE n)
  if rdF rd (fLINE_MODE_IOP n) != 0 then
    !cs.isEmpty || !iopSet (rdF rd (fLINE_MODE_IOP n)) ((span 0 4).map fun c => rdF rd (fCLIENT_TYPE n c)) ||
      (span 4 508).any fun c => rdF rd (fCLIENT_TYPE n c) != 0
  else (span 0 512).any fun c =>
    let t := rdF rd (fCLIENT_TYPE n c)
    let k := (clientSlots rd n c).length
    (t == 0 && k != 0) || t == 7 || (1 ≤ t && t ≤ 5 && k != slotsFor (typeRate t) net) ||
      (t == 6 && (k == 0 || decide (slotsFor 1 net ≤ k)))

/-- Rule 5 of R238 on a hub: the client of leaf entry i is client i; its slots lie on the leaf's set (R169). -/
def hubSlots (rd : Reader) (n : Nat) : Bool :=
  rdF rd (fHUB_CTRL_ROLE n) == 1 && (span 0 512).any fun j => match slotClient rd n j with
    | some c => !bit (rdF rd (fLEAF_W0_DS_SC n c)) (j / 32)
    | none => false

/-- The calendar run of an entry on a group port. -/
def posRun (rd : Reader) (n c : Nat) : Nat × Nat := (rdF rd (fXBAR_CLIENT_POS_FIRST n c), rdF rd (fXBAR_CLIENT_POS_COUNT n c))

/-- Rules 1 and 2 of R335 for client c: whether its crossbar entry is bad. Rates in 1/1,000 of slot units: a position
carries 1.5625 Gb/s, a slot 63 x net / 320 Gb/s, of which 256/257 is block content. -/
def badEntryOf (s : State) (rd : Reader) (n c : Nat) : Bool :=
  let t := rdF rd (fCLIENT_TYPE n c)
  let l := rdF rd (fXBAR_CLIENT_LANE n c)
  let role := s.fld (fHL_CFG_ROLE l)
  let grp := s.flag (fHL_CFG_GROUP l)
  let (f, k) := posRun rd n c
  let need := (clientSlots rd n c).length * rdF rd (fLINE_MODE_NET_RATE n)
  rdF rd (fXBAR_CLIENT_VALID n c) == 0 ||
    (if t == 6 then !((role == 1 && !grp && k == 0) ||
        (role == 5 && grp && decide (1 ≤ f) && decide (1 ≤ k) && decide (f + k ≤ 1024) && decide (need * 63 * 256 * 10000 ≤ k * 15625 * 320 * 257)))
     else !(role == typeRole t && !grp))

/-- Ports and positions a map's clients name, as (lane, first, count); a whole port counts as all positions. -/
def portUses (s : State) (rd : Reader) (n : Nat) : List (Nat × Nat × Nat) :=
  (assignedClients rd n).map fun c =>
    let l := rdF rd (fXBAR_CLIENT_LANE n c)
    let (f, k) := posRun rd n c
    if s.flag (fHL_CFG_GROUP l) then (l, f, k) else (l, 0, 1024)

/-- Two uses share a port or a position (R335 rule 3). -/
def useClash (a b : Nat × Nat × Nat) : Bool := a.1 == b.1 && decide (a.2.1 < b.2.1 + b.2.2) && decide (b.2.1 < a.2.1 + a.2.2)

/-- Some two entries of a list stand in a relation. -/
def anyPair {α : Type} (r : α → α → Bool) : List α → Bool
  | [] => false
  | x :: xs => xs.any (r x) || anyPair r xs

/-- All running maps but that of channel n, and the staged one in its place. -/
def State.maps (s : State) (rd : Reader) (n : Nat) : List (Reader × Nat) :=
  (rd, n) :: ((span 0 4).filter fun m => m != n && !s.memberB m).map fun m => (s.rd, m)

/-- R291, rules 1 to 4, for the bindings of a staged map of channel n; f is the frame number of a mode-1 cue. -/
def badSessions (s : State) (rd : Reader) (n : Nat) (f : Option Nat) : Bool :=
  let mine := boundSessions rd n
  (s.flag fCPH_CTRL_REQUIRE && (assignedClients rd n).any fun c => rdF rd (fCLIENT_SESSION n c) == 0) ||
  anyPair (fun a b => a == b) ((s.maps rd n).flatMap fun m => (boundSessions m.1 m.2).map Prod.fst) ||
  mine.any (fun e => !(s.willBeCurrent e.1 0 (s.cueFrame n f 0) && s.willBeCurrent e.1 1 (s.cueFrame n f 1))) ||
  mine.any (fun e => match s.current e.1 0 with
    | some i => s.flag (fCPH_CTX_A_USED i) && s.fld (fCPH_CTX_A_CHANNEL i) != n
    | none => false)

/-- Rule 5 of R291: on a hub, leaf entry and client name different sessions. -/
def leafSessions (rd : Reader) (n : Nat) : Bool :=
  rdF rd (fHUB_CTRL_ROLE n) == 1 && (assignedClients rd n).any fun c => rdF rd (fLEAF_W3_SESSION n c) != rdF rd (fCLIENT_SESSION n c)

/-- The load with the map of channel n as a set of words has it exceeds the capacity (R291, R316). -/
def State.cueLoad (s : State) (rd : Reader) (n : Nat) : Bool := s.overload (((s.maps rd n).map fun m => mapLoad m.1 m.2).foldl (· + ·) 0)

/-- The slots staging block of channel n at its cue (R238): the refusal, if any. -/
def slotsCheck (n : Nat) (bank : Reader) (f : Option Nat) (s : State) : Option Ref :=
  let rd : Reader := fun off => if cueBlock off == some (8 + n) then bank off else s.rd off
  firstRef [
    (slotShape rd n, conflict (bCH n)),
    (s.memberB n && anySlot rd n, conflict bMRG),
    (hubSlots rd n, conflict (bCH n)),
    (badSessions s rd n f || leafSessions rd n || (rdF rd (fLINE_MODE_IOP n) != 0 && !(boundSessions rd n).isEmpty), conflict bCPH),
    (!s.memberB n && ((assignedClients rd n).any (badEntryOf s rd n)), conflict (bCH n)),
    (!s.memberB n && anyPair useClash ((s.maps rd n).flatMap fun m => portUses s m.1 m.2), conflict (bCH n)),
    (s.cueLoad rd n, { status := stREFUSED_BUDGET, b1 := bCPH })]

/-! ### Port layout at a start (R332) -/

/-- The 16 `HL_CFG` words of a quad are consistent (R332, rules 1 to 4). -/
def layoutOk (s : State) (q : Nat) : Bool :=
  (span (16 * q) 16).all fun l =>
    let r := s.fld (fHL_CFG_ROLE l)
    let w := portWidth r
    let covered := ((span (16 * q) 16).filter fun h => decide (h < l) && decide (l < h + portWidth (s.fld (fHL_CFG_ROLE h)))).length
    (w == 0 || (l % 16 % w == 0 && covered == 0)) && (r != 6 || covered == 1) && (r != 0 || covered == 0) && r != 7 &&
      (!s.flag (fHL_CFG_GROUP l) || w == 8)

/-- Every valid entry of an assigned client that names a port of the quad finds it there at its rate (R332, R335). -/
def layoutServes (s : State) (q : Nat) : Bool :=
  (span 0 4).all fun n => s.memberB n || (assignedClients s.rd n).all fun c =>
    !(s.flag (fXBAR_CLIENT_VALID n c) && s.fld (fXBAR_CLIENT_LANE n c) / 16 == q) || !badEntryOf s s.rd n c

/-! ### Commands (R340) -/

/-- `HOST_PORT_REPORT` (R340). -/
def cmdHostPortReport : Cmd where
  code := 0x0260
  access := accAll
  params := fun ps _ => firstBad [badLane ps]
  body := fun q s =>
    let l := fld q.params 0 1
    let ls := s.portLanes l
    .ok (s, .done (le 4 (s.hpStatus l).toNat ++
      ((span 0 4).flatMap fun k => le 6 ((smGet (fun _ => 0#49) s.cnt.store (cHP l k)).toNat % 2 ^ 48)) ++ le 4 0 ++
      ((span l 16).flatMap fun x => le 4 (if ls.contains x then (s.shown (rHL_STATUS x)).toNat else 0))))

/-- `HOST_PORT_REPORT`. -/
def execHostPortReport (q : Request) (s : State) : Host.Outcome State Fault Refusal := serve cmdHostPortReport q s

/-- Lanes that `HOST_RETRAIN` names: one, or the whole port of the lane. -/
def retrainLanes (q : Request) (s : State) : List Nat :=
  let l := fld q.params 0 1
  if bit (fld q.params 1 1) 0 then (match s.headOf l with | some h => s.portLanes h | none => [l]) else [l]

/-- `HOST_RETRAIN` (R340): refused in L1, L2 or a dark quad, and on a live lane; clears FAILED and retrains. -/
def cmdHostRetrain : Cmd where
  code := 0x0262
  access := accOpRem
  params := fun ps _ => firstBad [badLane ps, (miss ps 1 1 || decide (2 ≤ fld ps 1 1), 1)]
  touches := fun q _ => [resHQ (fld q.params 0 1 / 16)]
  body := fun q s =>
    let l := fld q.params 0 1
    let ls := retrainLanes q s
    if !s.pdOn (24 + l / 16) || ls.any (fun x => s.laneSt x == 5 || s.laneSt x == 6) then .error { status := stWRONG_STATE }
    else if ls.any s.liveLane then .error (conflict (bLane l))
    else .ok (each ls (fun x s => laneTrain x (s.setLane x { s.lane x with restarts := 0, failed := false })) s,
      .accept (opOf q 0x0262 [resHQ (l / 16)] (ls.map tLane) s))

/-- `HOST_RETRAIN`. -/
def execHostRetrain (q : Request) (s : State) : Host.Outcome State Fault Refusal := serve cmdHostRetrain q s

/-- The CRC-32C of an HGC packet of n bytes after its length: data and CRC (R338). -/
def hgcGood (body : List Byte) (n : Nat) : Bool := fld body (n - 4) 4 == (crc32c (body.take (n - 4))).toNat

/-- A good packet's data go to the receive queue, if it has room (R338). -/
def hgcDeliver (n : Nat) (data : List Byte) (s : State) : State :=
  let h := s.hgc.get (ch4 n)
  let ws := toWords data
  if 8192 < h.mbx.rsp.length + ws.length then count (cCH n 33) s
  else ((s.setHgc (ch4 n) { h with mbx := h.mbx.push 4096 ws }).setB (fINT_STATUS_HGC 0) true).setB (fINT_STATUS_HGC 1) true

/-- The receiver looks at the units that wait, k of them at most, up to the end of one packet (R338). Idle units are passed over; an
out-of-range length or a bad CRC counts once, and what follows is searched for the next valid length. -/
def hgcTake (n : Nat) : Nat → State → State
  | 0, s => s
  | k + 1, s =>
    let h := s.hgc.get (ch4 n)
    let len := unbe (h.rx.take 2)
    let size := (len + 17) / 16 * 16
    if h.rx.length < 16 then s
    else if len = 0 then hgcTake n k (s.setHgc (ch4 n) { h with rx := h.rx.drop 16 })
    else if len < 5 || 2048 < len then
      hgcTake n k ((if h.hunt then s else count (cCH n 32) s).setHgc (ch4 n) { h with rx := h.rx.drop 16, hunt := true })
    else if h.rx.length < size then s
    else
      let body := slice h.rx 2 len
      if hgcGood body len then hgcDeliver n (body.take (len - 4)) (s.setHgc (ch4 n) { h with rx := h.rx.drop size, hunt := false })
      else count (cCH n 32) (s.setHgc (ch4 n) { h with rx := h.rx.drop size, hunt := true })

/-- A channel has no HGC receiver: a hub, a leaf, an interoperable mode, member B, or not ACTIVE (R338). -/
def State.hgcNone (s : State) (n : Nat) : Bool :=
  s.fld (fHUB_CTRL_ROLE n) != 0 || s.fld (fLINE_MODE_IOP n) != 0 || s.memberB n || !s.active n

/-- The HGC bytes of a released frame (R247, R277, R338): a unit that begins with a length of 0 between packets is idle. -/
def hgcIn (n : Nat) (u : List Byte) (s : State) : State :=
  let h := s.hgc.get (ch4 n)
  if s.hgcNone n || (h.rx.isEmpty && unbe (u.take 2) == 0) then s else s.setHgc (ch4 n) { h with rx := h.rx ++ u }

/-- `HGC_PACKET_RECEIVED` (R338): the units of the frames released have brought the end of a packet. -/
def execHgcPacketReceived (n : Ch) (s : State) : Host.Outcome State Fault Refusal :=
  ok (if s.hgcNone n then s else hgcTake n ((s.hgc.get n).rx.length / 16) s)

end Sys2Proof.Machine
end

