-- ==== Sys2Proof/Machine/LineSet.lean ====
section
/-! DEFINITION. The line set and the check of the two blocks that have a receive half (specs 07 and 10): the sizing arithmetic, the words
of a bank, the line block's rules, and the refusal of a cue at its boundary. -/

namespace Sys2Proof.Machine

open Sys2Proof

/-! ### Sizing (R138 to R144) -/

/-- The entropy of a net rate (100 Gb/s) on a subcarrier count, 0.01 bit (R138). -/
def entropyOf (rate nsc : Nat) : Nat := if nsc = 0 then 0 else (rate * 100 * 4773 + 1700 * nsc - 1) / (1700 * nsc)

/-- The entropy lies in the range of its constellation: 0 PCS-16QAM, 1 PCS-64QAM (R140). -/
def entropyFits (const h : Nat) : Bool := if const = 0 then 150 ≤ h && decide (h ≤ 400) else 350 ≤ h && decide (h ≤ 600)

/-- Required SNR points in 0.01 dB at 0.50-bit steps: from 1.50 bits for PCS-16QAM, from 3.50 for PCS-64QAM (R142). -/
def snrPoints (const : Nat) : List Nat := if const = 0 then [410, 580, 750, 935, 1120, 1360] else [1060, 1215, 1375, 1530, 1660, 1890]

/-- Required SNR of an entropy, in 1/5,000 dB, interpolated linearly. -/
def snrReq (const h : Nat) : Nat :=
  let x := h - (if const = 0 then 150 else 350)
  let k := min 4 (x / 50)
  let a := (snrPoints const).getD k 0
  50 * a + ((snrPoints const).getD (k + 1) 0 - a) * (x - 50 * k)

/-- floor(50,000 log10(17 n / 10)) for n = 4 to 16: the rate term 10 log10(n x 21.25 / 12.5) in 1/5,000 dB. -/
def rateTerm (n : Nat) : Nat :=
  [41625, 46470, 50430, 53777, 56676, 59234, 61522, 63592, 65481, 67219, 68828, 70327, 71728].getD (n - 4) 0

/-- Required OSNR in 0.1 dB: the terms summed, then rounded half up (R142, R144). The rate term is never a whole multiple of
1/5,000 dB, so its floor decides the same. -/
def osnrReq (const h n rolloff : Nat) (low : Bool) : Nat :=
  (snrReq const h + rateTerm n + 150 * (rolloff - 10) + (if low then 2000 else 0) + 250) / 500

/-- Slot width in 0.1 GHz (R144). -/
def slotWidth (n : Nat) : Nat := ((n - 1) * 215 + 255 + 124) / 125 * 125

/-! ### The words of a bank -/

/-- The running words with those of a block replaced by a bank's. -/
def State.staged (s : State) (b : Nat) (bank : SMap Word) : Reader := fun off => if cueBlock off == some b then bankRd bank off else s.rd off

/-- One word of a bank comes into force: its Cue bits (R99). -/
def forceWord (bank : SMap Word) (s : State) (off : Nat) : State :=
  s.wr off ((s.rd off &&& ~~~cueBits off) ||| (bankRd bank off &&& cueBits off))

/-- Every field of a bank comes into force (R99). -/
def intoForce (b : Nat) (bank : SMap Word) (s : State) : State :=
  ((s.runningSet b).map Prod.fst ++ bank.map Prod.fst).foldl (forceWord bank) s

/-- Some listed word of a bank holds a value outside its field's range. Grants are checked by R172. -/
def bankBad (bank : SMap Word) : Bool :=
  bank.any fun e => match regAt e.1 with
    | some r => r.spec.name != "GRANT_A" && wordBad e.1 (cueBits e.1) e.2
    | none => false

/-! ### Line (R14, R147, R158, R159, R166) -/

/-- The greatest x below 2^k steps above `lo` with x^100 at most a bound. -/
def root100 (bound : Nat) : Nat → Nat → Nat
  | 0, lo => lo
  | k + 1, lo => if (lo + 2 ^ k) ^ 100 ≤ bound then root100 bound k (lo + 2 ^ k) else root100 bound k lo

/-- 10^(v/100) as a whole number of 10^-22, for v of at least -200. -/
def tenth (v : Int) : Nat :=
  let k := (v + 200).toNat
  root100 (10 ^ (k % 100 + 2000)) 70 0 * 10 ^ (k / 100)

/-- Pre-emphasis or mask limit of subcarrier k in 0.1 dB. -/
def lineV (rd : Reader) (base k : Nat) : Int := signed 8 ((rd (base + 4 * (k / 4)) >>> (8 * (k % 4))).toNat % 256)

/-- Some active subcarrier stands above its mask limit (R147): PE_k - M_k > 10 log10 of the mean of 10^(PE/10). -/
def maskBroken (rd : Reader) (n : Nat) : Bool :=
  let nsc := rdF rd (fLINE_MODE_NSC n)
  let total := ((span 0 nsc).map fun k => tenth (lineV rd (rLINE_PREEMPH n 0) k)).foldl (· + ·) 0
  (span 0 nsc).any fun k => decide (total < nsc * tenth (lineV rd (rLINE_PREEMPH n 0) k - lineV rd (rLINE_MASK n 0) k))

/-- The line block of channel n at its cue: the refusal, if any. -/
def lineCheck (n : Nat) (bank : SMap Word) (s : State) : Option Ref :=
  let rd := s.staged n bank
  let f := rdF rd
  let iop := f (fLINE_MODE_IOP n)
  let role := f (fHUB_CTRL_ROLE n)
  let rate := f (fLINE_MODE_NET_RATE n)
  let slots := anySlot s.rd n
  let other := match s.memberOf n with
    | some (p, m) => some (s.memCh p (1 - m))
    | none => none
  firstRef [
    (bankBad bank, conflict (bCH n)),
    (iop == 0 && (f (fLINE_MODE_ENTROPY n) != entropyOf rate (f (fLINE_MODE_NSC n)) || !entropyFits (f (fLINE_MODE_CONST n)) (f (fLINE_MODE_ENTROPY n))),
      conflict (bCH n)),
    (iop == 0 && f (fLINE_SHAPE_MASK_EN n) == 1 && maskBroken rd n, conflict (bCH n)),
    (slots && (rate != s.fld (fLINE_MODE_NET_RATE n) || iop != s.fld (fLINE_MODE_IOP n)), conflict (bCH n)),
    (iop != 0 && other.isSome, conflict bMRG),
    (iop != 0 && role != 0, conflict (bCH n)),
    (iop != 0 && !(boundSessions s.rd n).isEmpty, conflict bCPH),
    (match other with | some m => role != 0 || rate != s.fld (fLINE_MODE_NET_RATE m) | none => false, conflict bMRG),
    (role == 1 && (f (fLINE_MODE_NSC n) != 16 || f (fLINE_SHAPE_ROLLOFF n) != 2 || decide (rate < 9)), conflict (bCH n)),
    (role != s.fld (fHUB_CTRL_ROLE n) && slots, conflict (bCH n))]

/-- The line block (0 to 3) or the slots block (8 to 11) of a channel at its boundary: the refusal, if any. -/
def halfCheck (b : Nat) (bank : SMap Word) (p : Pending) (s : State) : Option Ref :=
  if b < 4 then lineCheck b bank s
  else if bankBad bank then some (conflict (bCH (b - 8)))
  else slotsCheck (b - 8) (bankRd bank) (if p.mode = 1 then some p.frame else none) s

/-- The cue of a session is refused at its boundary (R97, R99): the session stays open, an implicit one ends. -/
def cueRefused (b : Nat) (r : Rehearsal) (ref : Ref) (s : State) : State :=
  let s := if r.implicit.isSome then dropSession b s else cancelHalf b (setSession b (fun r => { r with cue := none }) s)
  answerCue b ref [] s

end Sys2Proof.Machine
end

