-- ==== Sys2Proof/Machine/Hbm.lean ====
section
/-! DEFINITION. Stored data (spec 15): the die-spread code, HBM codewords and their errors, retired pages, the regions,
and the SRAM stores' injected errors. -/

namespace Sys2Proof.Machine

open Sys2Proof

/-! ### The die-spread code (R363 to R365) -/

/-- Multiply by α in GF(2^16) on x^16 + x^12 + x^3 + x + 1 (R364). -/
def gfX (a : BitVec 16) : BitVec 16 := (a <<< 1) ^^^ (if a.getLsbD 15 then 0x100B#16 else 0#16)

/-- a·α^j. -/
def gfPow (a : BitVec 16) : Nat → BitVec 16
  | 0 => a
  | j + 1 => gfX (gfPow a j)

/-- Product in the field, over the low k bits of b. -/
def gfMulBits (a b : BitVec 16) : Nat → BitVec 16
  | 0 => 0#16
  | k + 1 => gfMulBits a b k ^^^ (if b.getLsbD k then gfPow a k else 0#16)

/-- Product in the field. -/
def gfMul (a b : BitVec 16) : BitVec 16 := gfMulBits a b 16

/-- Symbol i of a codeword. -/
def symOf (c : BitVec 256) (i : Nat) : BitVec 16 := c.extractLsb' (16 * i) 16

/-- A symbol in its place. -/
def symAt (i : Nat) (v : BitVec 16) : BitVec 256 := v.setWidth 256 <<< (16 * i)

/-- The syndromes S0 and S1 (R364). -/
def syndromes (c : BitVec 256) : BitVec 16 × BitVec 16 :=
  (span 0 16).foldl (fun a i => (a.1 ^^^ symOf c i, a.2 ^^^ gfPow (symOf c i) i)) (0#16, 0#16)

/-- 1 / (α^14 + α^15). -/
def gfCheck : BitVec 16 := 0x2796#16

/-- The codeword of 28 data bytes (R363, R364): data byte b in symbol b / 2, the low byte first (R3); the check symbols
make both syndromes 0. -/
def encodeCw (bs : List Byte) : BitVec 256 :=
  let d := BitVec.ofNat 256 (unle (slice bs 0 28))
  let (a, b) := syndromes d
  let c15 := gfMul gfCheck (b ^^^ gfPow a 14)
  d ||| symAt 14 (a ^^^ c15) ||| symAt 15 c15

/-- The 28 data bytes of a codeword. -/
def dataOf (c : BitVec 256) : List Byte := le 28 (c.toNat % 2 ^ 224)

/-- Outcomes of a read (R365). -/
inductive Decoded where
  | clean
  | corrected (die : Nat) (c : BitVec 256)
  | uncorrectable
  deriving DecidableEq, Repr

/-- Decode a codeword as read, with a die position erased or none (R365). -/
def decodeCw (erased : Option Nat) (c : BitVec 256) : Decoded :=
  let (s0, s1) := syndromes c
  if s0 = 0#16 && s1 = 0#16 then .clean
  else
    let js := match erased with | some e => [e] | none => span 0 16
    match (if s0 = 0#16 then none else js.find? fun j => s1 == gfPow s0 j) with
    | some j => .corrected j (c ^^^ symAt j s0)
    | none => .uncorrectable

/-! ### Regions and retirement (R366, R374, R375) -/

/-- Codewords in a page and in all (R363). -/
abbrev pageCws : Nat := 512
abbrev allCws : Nat := 1000000000
abbrev allPages : Nat := 1953125

/-- The region of a page (R366). -/
def regionOf (page : Nat) : Nat :=
  if page < 77824 then 0 else if page < 80165 then 1 else if page < 126453 then 2 else if page < 201453 then 3 else 4

/-- Pages of a region (R366). -/
def regionPages (r : Nat) : Nat := match r with | 0 => 77824 | 1 => 2341 | 2 => 46288 | 3 => 75000 | 4 => 1751672 | _ => 0

/-- Retirement entries in use, with their numbers. -/
def State.retirements (s : State) : List (Nat × Retire) := s.perm.retire.filterMap fun e => e.2.map fun r => (e.1, r)

/-- An entry takes a page out of use. -/
def Retire.covers (page : Nat) : Retire → Bool
  | .page p => p == page
  | .bank p => Config.pageGroup page == Config.pageGroup p && Config.pageBank page == Config.pageBank p
  | .die _ => false

/-- A page is retired. -/
def State.retiredPage (s : State) (page : Nat) : Bool := s.retirements.any fun e => e.2.covers page

/-- The erased die position, if any. -/
def State.erased (s : State) : Option Nat := s.retirements.findSome? fun e => match e.2 with | .die d => some d | _ => none

/-- Some page or bank is retired. -/
def State.anyRetired (s : State) : Bool := s.retirements.any fun e => match e.2 with | .die _ => false | _ => true

/-- A far-store slot's 16,576 bytes touch no retired page (R375). -/
def State.slotUsable (s : State) (k : Nat) : Bool :=
  let a := 17024 * k / 14336
  (span a ((17024 * k + 16575) / 14336 - a + 1)).all fun p => !s.retiredPage p

/-- Usable far-store slots. -/
def State.farSlots (s : State) : List Nat := (span 0 65536).filter s.slotUsable

/-- `MEM_FAR_SLOTS` (R375, R378). -/
def State.farCount (s : State) : Nat :=
  if !s.flag fMEM_STATUS_HBM_READY then 0 else if s.anyRetired then s.farSlots.length else 65536

/-- The slot the i-th place of the far store lies in. -/
def State.farSlot (s : State) (i : Nat) : Nat := if s.anyRetired then s.farSlots.getD i 65535 else i

/-- Bring the registers of the memory in line with its state (R378). -/
def memRefresh (s : State) : State :=
  let s := (s.setF fMEM_STATUS_RETIRED s.retirements.length).setF fMEM_FAR_SLOTS_SLOTS s.farCount
  match s.erased with
  | some d => (s.setB fMEM_STATUS_ERASED true).setF fMEM_STATUS_ERASED_POS d
  | none => (s.setB fMEM_STATUS_ERASED false).setF fMEM_STATUS_ERASED_POS 0

/-! ### Codewords -/

/-- Replace the memory's own state. -/
def State.setMem (s : State) (m : MemSt) : State := { s with mem := m }

/-- A stored codeword. -/
def State.cw (s : State) (k : Nat) : BitVec 256 := smGet (fun _ => 0#256) s.mem.hbm k

/-- Store a codeword as it is. -/
def putCw (k : Nat) (c : BitVec 256) (s : State) : State :=
  s.setMem { s.mem with hbm := smSet (fun _ => 0#256) s.mem.hbm k c }

/-- A write of a codeword: an armed `MEM_FLIP` that matches its region and group corrupts it, once (R372). -/
def storeCw (k : Nat) (c : BitVec 256) (s : State) : State :=
  let page := k / pageCws
  let r := s.fld fMEM_FLIP_REGION
  if s.flag fMEM_FLIP_ARM && (r == regionOf page || decide (5 ≤ r)) && s.flag fMEM_FLIP_GROUP == Config.pageGroup page then
    (putCw k (c ^^^ symAt (s.fld fMEM_FLIP_POS) (BitVec.ofNat 16 (s.fld fMEM_FLIP_MASK))) s).setB fMEM_FLIP_ARM false
  else putCw k c s

/-- A functional write of a codeword. A retired page is not written. -/
def writeCw (k : Nat) (data : List Byte) (s : State) : State :=
  if s.retiredPage (k / pageCws) || !s.flag fMEM_STATUS_HBM_READY then s else storeCw k (encodeCw data) s

/-- Count and gather an error of a codeword for the log and the records of its second (R373, R379). -/
def logErr (k die : Nat) (unc lasting : Bool) (s : State) : State :=
  let page := k / pageCws
  let r := regionOf page
  let s := if unc then count (cMEM (if r = 0 then 16 else 17)) s else count (cMEM die) s
  let same := fun (e : HLog) => e.page == page && e.cw == k % pageCws && e.die == die
  let old := s.mem.log.find? same
  let e : HLog := match old with
    | some e => { e with count := sat 65535 (e.count + 1), time := s.life, unc := unc, lasting := e.lasting || lasting }
    | none => ⟨page, k % pageCws, die, unc, lasting, 1, s.life⟩
  let log := if old.isSome then replaceFirst same (fun _ => e) s.mem.log
    else if s.mem.log.length < 1024 then s.mem.log ++ [e]
    else
      let oldest := s.mem.log.foldl (fun m x => if x.time.toNat < m.toNat then x.time else m) e.time
      replaceFirst (fun x => x.time == oldest) (fun _ => e) s.mem.log
  let inSec := fun (x : Nat × Nat × Bool × Nat × Nat) => x.1 == die && x.2.1 == r && x.2.2.1 == unc
  let sec := if s.mem.second.any inSec then replaceFirst inSec (fun x => (x.1, x.2.1, x.2.2.1, x.2.2.2.1 + 1, x.2.2.2.2)) s.mem.second
    else s.mem.second ++ [(die, r, unc, 1, page)]
  s.setMem { s.mem with log := log, second := sec }

/-- Read a codeword through the decoder, with errors of the devices `err` on what they return (R365): its 28 bytes, none
where it is uncorrectable. For an uncorrectable one the log gives die position 0. -/
def readCw (k : Nat) (err : BitVec 256) (s : State) : Option (List Byte) × State :=
  if s.retiredPage (k / pageCws) then (none, s)
  else
    let c := s.cw k ^^^ err
    match decodeCw s.erased c with
    | .clean => (some (dataOf c), s)
    | .corrected j d => (some (dataOf d), logErr k j false false s)
    | .uncorrectable => (none, logErr k 0 true false s)

/-- Write bytes from a data byte address on, codeword by codeword; the rest of a codeword keeps its data. -/
def hbmWriteFrom : Nat → Nat → List Byte → State → State
  | 0, _, _, s => s
  | fuel + 1, addr, bs, s =>
    if bs.isEmpty then s
    else
      let k := addr / 28
      let o := addr % 28
      let here := bs.take (28 - o)
      let old := dataOf (s.cw k)
      let data := old.take o ++ here ++ old.drop (o + here.length)
      hbmWriteFrom fuel (28 * (k + 1)) (bs.drop (28 - o)) (writeCw k data s)

/-- Write bytes to HBM. -/
def hbmWrite (addr : Nat) (bs : List Byte) (s : State) : State := hbmWriteFrom (bs.length / 28 + 2) addr bs s

/-- Read n bytes from a data byte address on: the bytes, zeros where a codeword gives none, and whether all were readable. -/
def hbmReadFrom (errs : List (Nat × BitVec 256)) : Nat → Nat → Nat → State → (List Byte × Bool) × State
  | 0, _, _, s => (([], true), s)
  | fuel + 1, addr, n, s =>
    if n = 0 then (([], true), s)
    else
      let k := addr / 28
      let o := addr % 28
      let m := min n (28 - o)
      let err := ((errs.find? fun e => e.1 == k).map Prod.snd).getD 0#256
      let (r, s) := readCw k err s
      let here := match r with | some d => (d.drop o).take m | none => List.replicate m 0#8
      let ((bs, ok), s) := hbmReadFrom errs fuel (28 * (k + 1)) (n - m) s
      ((here ++ bs, r.isSome && ok), s)

/-- Read n bytes of HBM, with errors of the devices by codeword. -/
def hbmRead (errs : List (Nat × BitVec 256)) (addr n : Nat) (s : State) : (List Byte × Bool) × State :=
  hbmReadFrom errs (n / 28 + 2) addr n s

/-- Data byte address of an entry of `size` bytes, `per` to a page, in a region that starts at a page (R366). -/
def entryAddr (page per size i : Nat) : Nat := 14336 * (page + i / per) + size * (i % per)

/-- The archive entry of a record (R441), and the latch record of a channel's second (R249, R366). -/
def archiveAddr (i : Nat) : Nat := entryAddr 77824 448 32 i
def latchAddr (n i : Nat) : Nat := entryAddr (80165 + 11572 * n) 224 64 (i % 2592128)

/-! ### SRAM stores (R370 to R372) -/

/-- Stores of `MEM_SFLIP.STORE`. -/
abbrev stKEYS : Nat := 0
abbrev stLEAF (n : Nat) : Nat := 1 + n
abbrev stLEDGER (p : Nat) : Nat := 5 + p
abbrev stNEAR (p : Nat) : Nat := 7 + p
abbrev stRING : Nat := 9
abbrev stCAPTURE : Nat := 10

/-- A write to entry i of an SRAM store: an armed `MEM_SFLIP` for that store inverts one or two bits of what is stored,
once (R372); any other write replaces what was inverted before. -/
def sramWrite (st i : Nat) (s : State) : State :=
  let rest := s.mem.flips.filter fun f => !(f.1 == st && f.2.1 == i)
  if s.flag fMEM_SFLIP_ARM && s.fld fMEM_SFLIP_STORE == st then
    let n := if s.flag fMEM_SFLIP_BIT1_EN && s.fld fMEM_SFLIP_BIT1 != s.fld fMEM_SFLIP_BIT0 then 2 else 1
    (s.setMem { s.mem with flips := rest ++ [(st, i, n)] }).setB fMEM_SFLIP_ARM false
  else if rest.length = s.mem.flips.length then s else s.setMem { s.mem with flips := rest }

/-- Bits an injection has inverted in entry i of a store. -/
def State.flipsIn (s : State) (st i : Nat) : Nat := ((s.mem.flips.find? fun f => f.1 == st && f.2.1 == i).map fun f => f.2.2).getD 0

/-- Source block of a store's owner (R381): cipher, channel, merge, and the prompter for ring and capture buffer. -/
def bStore (st : Nat) : Nat := if st = 0 then bCPH else if st ≤ 4 then bCH (st - 1) else if st ≤ 8 then bMRG else bSYS

/-- An SRAM word was found uncorrectable (R371, R379). -/
def sramUnc (st i : Nat) (s : State) : State := offer 0x0A10 (bStore st) (st + 256 * (i % 2 ^ 24)) 0 (count (cSRAM st 1) s)

/-- Bits of entry i of a store that read wrong. -/
def setFlips (st i n : Nat) (s : State) : State :=
  let rest := s.mem.flips.filter fun f => !(f.1 == st && f.2.1 == i)
  s.setMem { s.mem with flips := if n = 0 then rest else rest ++ [(st, i, n)] }

/-- The owner reads entry i of a store: a single wrong bit is corrected and counted (R370, R372, R379). DESIGN CHOICE, assumption 135: a key
context is read once per frame, a leaf entry once per grant. -/
def sramRead (st i : Nat) (s : State) : State := if s.flipsIn st i = 1 then count (cSRAM st 0) s else s

end Sys2Proof.Machine
end

