-- ==== Sys2Proof/Machine/Callboard.lean ====
section
/-! DEFINITION. The callboard and the counter store (spec 19): the recorder, the archive, the tick, counter reads, and
their commands. -/

namespace Sys2Proof.Machine

open Sys2Proof

/-! ### Records (R439 to R441) -/

/-- The 32 bytes of a record, with its seal (R439). -/
def CbRec.bytes (r : CbRec) : List Byte :=
  le 4 r.seq.toNat ++ le 2 r.code.toNat ++ [r.block] ++
    [BitVec.ofNat 8 (r.sev.toNat + 8 * b2n r.todValid + 16 * r.epoch.toNat)] ++ le 8 r.life.toNat ++ le 8 r.tod.toNat ++
    le 4 r.p0.toNat ++ le 2 r.p1.toNat ++ le 2 r.seq.toNat

/-- `CB_HEAD` (R443): the newest record of the ring, or the last number assigned while the ring is empty. -/
def State.cbHead (s : State) : BitVec 32 := s.cb.newest.getD s.cb.seq

/-- Latch the memory interrupt of both functions (R469). -/
def memIrq (s : State) : State := (s.setB (fINT_STATUS_MEM 0) true).setB (fINT_STATUS_MEM 1) true

/-- `CALLBOARD_RECORD_WRITTEN` (R440, R441): the next event of the input becomes a record. -/
def execCallboardRecordWritten (s : State) : Host.Outcome State Fault Refusal :=
  match s.cb.input with
  | [] => ok s
  | r :: rest =>
    let c := s.cb
    let fr := if c.freeze.length < 256 then c.freeze ++ [r] else c.freeze
    let arch := if s.flag fMEM_STATUS_HBM_READY then c.toArchive ++ [r] else c.toArchive
    let ring := smSet (fun _ => none) c.ring (r.seq.toNat % 8192) (some r)
    let s := sramWrite stRING (r.seq.toNat % 8192) { s with cb := { c with input := rest, ring := ring, newest := some r.seq, freeze := fr, toArchive := arch } }
    let s := (count cCB_RECORDS s).setF fCB_STATUS_FREEZE_COUNT fr.length
    let s := if s.fld fCB_CTRL_INT_SEV ≤ r.sev.toNat then s.setB fCB_STATUS_INT true else s
    ok (if r.code.toNat / 256 = 0x0A then memIrq s else s)

/-- `CALLBOARD_ARCHIVE_WRITE` (R441): entry s mod 1,048,576 of HBM region 1, while HBM is ready. -/
def execCallboardArchiveWrite (s : State) : Host.Outcome State Fault Refusal :=
  match s.cb.toArchive with
  | [] => ok s
  | r :: rest =>
    if s.flag fMEM_STATUS_HBM_READY then
      let a := smSet (fun _ => none) s.cb.archive (r.seq.toNat % 1048576) (some r)
      let s := hbmWrite (archiveAddr (r.seq.toNat % 1048576)) r.bytes s
      ok (({ s with cb := { s.cb with toArchive := rest, archive := a } } : State).setB fCB_STATUS_ARCHIVE true)
    else ok s

/-- The records of a ring or archive. -/
def cbList (m : SMap (Option CbRec)) : List CbRec := m.filterMap fun e => e.2

/-- The oldest sequence of some records against a head; the head plus 1 with none (R448). -/
def oldest (h : BitVec 32) (rs : List CbRec) : BitVec 32 :=
  rs.foldl (fun o r => if (h - o).toNat < (h - r.seq).toNat || o = h + 1#32 then r.seq else o) (h + 1#32)

/-- Insert a record by its distance from a first sequence, dropping a second copy. -/
def insRec (first : BitVec 32) (r : CbRec) : List CbRec → List CbRec
  | [] => [r]
  | x :: xs =>
    if (r.seq - first).toNat < (x.seq - first).toNat then r :: x :: xs
    else if r.seq = x.seq then x :: xs else x :: insRec first r xs

/-- Whether sequence a is newer than b (R440, R390). -/
def newerSeq (a b : BitVec 32) : Bool := 1 ≤ (a - b).toNat && decide ((a - b).toNat < 2 ^ 31)

/-- The ring holds a record whole: no double error stands in its word (R371). -/
def ringWhole (s : State) (r : CbRec) : Bool := decide (s.flipsIn stRING (r.seq.toNat % 8192) < 2)

/-- Read an archive record through the die-spread code: whether it is readable (R371). -/
def readArchive (r : CbRec) (s : State) : Bool × State :=
  let (b, s) := hbmRead [] (archiveAddr (r.seq.toNat % 1048576)) 32 s
  (b.2, s)

/-- Records from a first sequence to the head, in order, that the ring holds whole or the archive holds readable (R448). -/
def recordsFrom (first : BitVec 32) (s : State) : List CbRec :=
  let h := s.cbHead
  if newerSeq first h then []
  else (((cbList s.cb.ring).filter (ringWhole s) ++ (cbList s.cb.archive).filter fun r => (readArchive r s).1).filter fun r => decide ((r.seq - first).toNat ≤ (h - first).toNat)).foldl
    (fun l r => insRec first r l) []

/-- `CB_READ` (R448). -/
def cmdCbRead : Cmd where
  code := 0x0901
  access := accAll
  params := fun ps _ => firstBad [(miss ps 0 1 || decide (1 < fld ps 0 1), 0), (miss ps 1 1 || fld ps 1 1 == 0 || decide (126 < fld ps 1 1), 1),
    (miss ps 2 2 || fld ps 2 2 != 0, 2), (miss ps 4 4, 4)]
  body := fun q s =>
    let k := fld q.params 1 1
    let first := fld q.params 4 4
    let h := s.cbHead
    let rs := (if fld q.params 0 1 = 0 then recordsFrom (BitVec.ofNat 32 first) s else s.cb.freeze.drop first).take k
    let t := each (if fld q.params 0 1 = 0 then rs else []) (fun r s =>
      if (cbList s.cb.ring).contains r then sramRead stRING (r.seq.toNat % 8192) s else (readArchive r s).2) s
    .ok (t, .done (le 4 h.toNat ++ le 4 (oldest h (cbList s.cb.ring)).toNat ++ le 4 (oldest h (cbList s.cb.archive)).toNat ++
      le 4 rs.length ++ rs.flatMap CbRec.bytes))

/-- `CB_READ`. -/
def execCbRead (q : Request) (s : State) : Host.Outcome State Fault Refusal := serve cmdCbRead q s

/-! ### Counters (R431 to R437) -/

/-- A listed counter of the direct space (R434). -/
def directExists (s : State) (k : Nat) : Bool :=
  let r := (k - 64) % 64
  k ≤ 4 || (64 ≤ k && k < 320 && (r ≤ 11 || (16 ≤ r && r ≤ 20) || (24 ≤ r && r ≤ 28) || (32 ≤ r && r ≤ 33) || (40 ≤ r && r ≤ 47))) ||
  (320 ≤ k && k < 352 && (k - 320) % 16 ≤ 12) || (352 ≤ k && k ≤ 356) || (368 ≤ k && k ≤ 386) || (392 ≤ k && k ≤ 413) || k == 416 ||
  (448 ≤ k && k < 960 && s.headLane ((k - 448) / 8))

/-- Whether a selector names a counter that exists (R434). -/
def cntExists (s : State) (sel : Nat) : Bool :=
  let k := sel % 2 ^ 26
  match sel / 2 ^ 28 with
  | 0 => directExists s k
  | 1 => k < 2048
  | 2 => decide (k < 8192) && k % 8 != 7
  | 3 => s.cph.sets.contains (k / 8) && decide (k % 8 < 6)
  | _ => false

/-- A selector outside its space (R448). -/
def badSelector (sel : Nat) : Bool :=
  let k := sel % 2 ^ 26
  match sel / 2 ^ 28 with
  | 0 => 1024 ≤ k || sel / 2 ^ 26 % 4 != 0
  | 1 => 2048 ≤ k
  | 2 => 8192 ≤ k
  | 3 => 8 * 65536 ≤ k || sel / 2 ^ 26 % 4 != 0
  | _ => true

/-- The value of a counter at the last tick, with its WRAPPED bit on top; 0 where none exists. -/
def cntStored (s : State) (sel : Nat) : BitVec 49 := if cntExists s sel then smGet (fun _ => 0#49) s.cnt.store sel else 0#49

/-- Clear WRAPPED of a counter (R432). -/
def cntUnwrap (sel : Nat) (s : State) : State :=
  let f := fun (m : SMap (BitVec 49)) => smSet (fun _ => 0#49) m sel (BitVec.ofNat 49 ((smGet (fun _ => 0#49) m sel).toNat % 2 ^ 48))
  { s with cnt := { s.cnt with live := f s.cnt.live, store := f s.cnt.store } }

/-- The head lane whose port has counter k (R434), none where no port counts it: a lane that is no head, or a DARK quad, whose
counters do not advance (R431). -/
def State.portCounting (s : State) (k : Nat) : Option Nat :=
  let l := (k - 448) / 8
  if 448 ≤ k && k < 960 && s.headLane l && s.fld ⟨rPWR_DOMAIN_B, 16 + 2 * (l / 16), 2⟩ != 0 then some l else none

/-- A host port has counted n more of counter k; an uncorrectable RS codeword shows in `SEEN` too (R334, R339). -/
def portCounted (k n : Nat) (s : State) : State :=
  match s.portCounting k with
  | none => s
  | some l =>
    let s := countN k n s
    if k % 8 = 2 && decide (0 < n) then s.setF (fHP_STATUS_SEEN l) (BitVec.ofNat 8 (s.fld (fHP_STATUS_SEEN l)) ||| 0x20#8).toNat else s

/-- The counter a BAR0 offset of the counter region shows to function f (R435, R436). -/
def cntKeyAt (s : State) (f off : Nat) : Option Nat :=
  if 0x30000 ≤ off && off < 0x32000 then some ((off - 0x30000) / 8)
  else if 0x38000 ≤ off && off < 0x3C000 then
    let j := (off - 0x38000) / 8
    let n := s.fld (fCNT_PAGE_CHANNEL f)
    match s.fld (fCNT_PAGE_KIND f) with
    | 1 => some (kClient n 0 j)
    | 2 => some (kLeaf n (256 * s.fld (fCNT_PAGE_QUARTER f)) j)
    | _ => none
  else none

/-- Counter reads of a function are blocked (R437). -/
def State.cntBlocked (s : State) (f : Nat) : Bool := f == 1 && !s.flag fSYS_ACCESS_OBS_COUNTERS

/-- A read of `CNT_LO` by a function (R435): the low word, latching HI and WRAPPED. -/
def cntLoRead (f : Pr) (off : Nat) (s : State) : State :=
  match (if s.cntBlocked f then none else cntKeyAt s f off) with
  | none => put 0#32 s
  | some sel =>
    let v := cntStored s sel
    let s := if f = 0 then { s with cnt := { s.cnt with latch0 := smSet (fun _ => 0#49) s.cnt.latch0 sel v } }
      else { s with cnt := { s.cnt with latch1 := smSet (fun _ => 0#49) s.cnt.latch1 sel v } }
    put (v.setWidth 32) s

/-- `CNT_LO_READ` (R435). -/
def execCntLoRead (f : Pr) (off : Nat) (s : State) : Host.Outcome State Fault Refusal :=
  ok (if s.ready then cntLoRead f off s else put 0#32 s)

/-- Identity registers are readable (R78, R467): over BAR0 once the link is up, over I2C from READY. -/
def State.identityServed (s : State) (who : Fin 3) : Bool :=
  if who = 2 then s.i2cServed && s.ready else s.ready || (s.boot.linkUp && decide (3 ≤ s.stage))

/-- `SERIAL_LO_READ` (R467) by requester 0, 1 (PCIe function) or 2 (I2C). -/
def execSerialLoRead (who : Fin 3) (s : State) : Host.Outcome State Fault Refusal :=
  if !s.identityServed who then ok (put 0#32 s)
  else ok (put (Config.serial.setWidth 32) (setRl who rSYS_ID_SERIAL_HI ((Config.serial >>> 32).setWidth 32) s))

/-- `CNT_READ` (R448): every value at one tick; the clear flag belongs to OPERATOR only. -/
def cmdCntRead : Cmd where
  code := 0x0900
  access := accCounters
  permit := fun q _ => !bit (fld q.params 2 1) 0 || q.org.who.master == 1
  params := fun ps _ =>
    let n := fld ps 0 2
    firstBad ([(miss ps 0 2 || n == 0 || decide (508 < n), 0), (miss ps 2 1 || decide (2 ≤ fld ps 2 1), 2), (miss ps 3 1 || fld ps 3 1 != 0, 3)] ++
      (span 0 (min n 508)).map fun j => (miss ps (4 + 4 * j) 4 || badSelector (fld ps (4 + 4 * j) 4), 4 + 4 * j))
  body := fun q s =>
    let sels := (span 0 (fld q.params 0 2)).map fun j => fld q.params (4 + 4 * j) 4
    let rep := le 8 s.cnt.tick.toNat ++ sels.flatMap fun k =>
      let v := cntStored s k
      le 6 (v.toNat % 2 ^ 48) ++ [BitVec.ofNat 8 (b2n (v.getLsbD 48) + 2 * b2n (!cntExists s k)), 0#8]
    .ok (if bit (fld q.params 2 1) 0 then each sels cntUnwrap s else s, .done rep)

/-- `CNT_READ`. -/
def execCntRead (q : Request) (s : State) : Host.Outcome State Fault Refusal := serve cmdCntRead q s

end Sys2Proof.Machine
end

