-- ==== Sys2Proof/Machine/Cipher.lean ====
section
/-! DEFINITION. Line encryption (spec 12): key contexts, activation, the cipher on transmitted and received frames, tag
verdicts, cores and the key commands. -/

namespace Sys2Proof.Machine

open Sys2Proof

/-- Draw the next free value of the model. -/
def State.draw (s : State) : Nat × State := ((Config.free s.free).toNat, { s with free := s.free + 1 })

/-- The channel whose running map binds a session, with its client (R309). -/
def State.sessionAt (s : State) (x : Nat) : Option (Nat × Nat) :=
  (span 0 4).findSome? fun n =>
    if s.memberB n then none else (boundSessions s.rd n).findSome? fun e => if e.1 = x then some (n, e.2) else none

/-- Key-bearing fields of a context. -/
def State.keyOf (s : State) (i : Nat) : Option KeyBytes := smGet (fun _ => none) s.cph.keys i

/-- Store the key-bearing fields of a context. -/
def setKey (i : Nat) (k : Option KeyBytes) (s : State) : State :=
  { s with cph := { s.cph with keys := smSet (fun _ => none) s.cph.keys i k } }

/-- Replace the cipher's own state. -/
def State.setCph (s : State) (c : CphSt) : State := { s with cph := c }

/-- A session's counter set is freed when every context of it is EMPTY and no running map binds it (R434); with it goes what its frames and
verdicts have left. -/
def freeSet (x : Nat) (s : State) : State :=
  if (s.contexts.any fun i => s.fld (fCPH_CTX_A_SESSION i) == x) || (s.sessionAt x).isSome then s
  else
    let c := s.cph
    let but := fun (l : List Nat) => l.filter fun y => y != x
    each (span 0 6) (fun k s => cntClear (kSession x k) s) (s.setCph { c with
      sets := but c.sets, fails := smDel c.fails x, authFail := but c.authFail, authLeft := but c.authLeft, txBlocked := but c.txBlocked })

/-- A pending activation is abandoned, and its notice carries WRONG_STATE (R310). -/
def dropAct (i : Nat) (s : State) : State :=
  match s.cph.acts.find? fun a => a.ctx == i with
  | none => s
  | some a =>
    let s := s.setCph { s.cph with acts := s.cph.acts.filter fun b => b.ctx != i }
    match s.ops.find? fun o => o.opcode == 0x0402 && decide (o.org = a.org) with
    | some op => endOp op { status := stWRONG_STATE } [] s
    | none => s

/-- What a received multiframe holds of a context that is emptied: nothing. -/
def forgetCtx (i : Nat) (e : RxSess) : RxSess :=
  let e := if e.ctx == some i then { e with ctx := none, tag := none } else e
  if e.pend == some i then { e with pend := none, pendTag := none } else e

/-- Zeros over every key-bearing field of a context: EMPTY (R294). -/
def wipe (i : Nat) (s : State) : State :=
  let x := s.fld (fCPH_CTX_A_SESSION i)
  let forget := fun (l : List MfAcc) => l.map fun a => { a with sess := a.sess.map (forgetCtx i) }
  let s := s.setCph { s.cph with accs := Four.map forget s.cph.accs }
  freeSet x (setKey i none ((s.unreg (rCPH_CTX_A i)).unreg (rCPH_CTX_B i)))

/-- Zeroise a context (R294, R310, R319): its activation is abandoned; a CURRENT one leaves record 0x0714. -/
def zeroise (i : Nat) (s : State) : State :=
  let st := s.fld (fCPH_CTX_A_STATE i)
  let x := s.fld (fCPH_CTX_A_SESSION i)
  let d := s.fld (fCPH_CTX_A_DIR i)
  let s := wipe i (dropAct i s)
  if st = cxCURRENT then offer 0x0714 bCPH x d s else s

/-- Every context and the KEK are zeroised (R297, R319), with no record of its own. A session that stays bound keeps its count of FAIL
verdicts, AUTH_FAIL and TX_BLOCKED (R307, R313). -/
def zeroiseAll (s : State) : State :=
  let s := each s.contexts zeroise s
  (s.setCph { s.cph with kek := none }).setB fCPH_STATUS_KEK_VALID false

/-! ### Cores (R314 to R318) -/

/-- State of a core in `CPH_CORE` (R321): 0 active, 1 understudy, 2 under test, 3 retired. -/
abbrev fCore (c : Nat) : Fld := ⟨rCPH_CORE (c / 16), 2 * (c % 16), 2⟩

/-- Source block of a core (R323). -/
def bCore (c : Nat) : Nat := 0x41 + c / 16

/-- Cores in a state. -/
def State.coresIn (s : State) (st : Nat) : List Nat := (span 0 144).filter fun c => s.fld (fCore c) == st

/-- The counts and loads the registers show, while `PD29` is ON (R316, R321). -/
def cphRefresh (s : State) : State :=
  if !s.pdOn 29 then s
  else
    let load := s.load
    let short := s.overload load
    let was := s.flag fCPH_STATUS_SHORT
    let s := ((s.setF fCPH_STATUS_ACTIVE s.activeCores).setF fCPH_STATUS_UNDERSTUDIES (s.coresIn 1).length).setF fCPH_STATUS_RETIRED s.perm.cores.length
    let s := ((s.setB fCPH_STATUS_SHORT short).setF fCPH_LOAD_LOAD (load / 160)).setF fCPH_LOAD_CAPACITY (s.activeCores * 1024 / 5)
    if short && !was then offer 0x0723 bCPH (load / 160) (s.activeCores * 1024 / 5) s else s

/-- The cluster as `PD29` starts (R314): retired cores excluded, the first 128 others active, the rest understudies. -/
def startCores (s : State) : State :=
  let good := (span 0 144).filter fun c => !s.perm.cores.contains c
  let s := each (span 0 144) (fun c s => s.setF (fCore c) (if s.perm.cores.contains c then 3 else if (good.take 128).contains c then 0 else 1)) s
  cphRefresh ((s.setCph { s.cph with tests := [] }).setB fCPH_STATUS_KEK_VALID s.cph.kek.isSome)

/-- A core leaves service for its known-answer test (R315). -/
def testCore (c : Nat) (s : State) : State :=
  if 144 ≤ c || 2 ≤ s.fld (fCore c) then s
  else cphRefresh ((s.setCph { s.cph with tests := s.cph.tests ++ [(c, s.fld (fCore c) == 0)] }).setF (fCore c) 2)

/-- Retire a core (R315): written to the life store; a free understudy takes its place in the active set. -/
def retireCore (c : Nat) (active : Bool) (s : State) : State :=
  let s : State := { s with perm := { s.perm with cores := s.perm.cores ++ [c] }, store := { s.store with due := true } }
  let s := count (cCPH 3) (s.setF (fCore c) 3)
  let s := match s.coresIn 1 with
    | u :: _ => if active then s.setF (fCore u) 0 else s
    | [] => s
  cphRefresh (offer 0x0721 (bCore c) c s.perm.cores.length s)

/-- `CORE_TEST_COMPLETE` (R315): the third transient fault within 24 h is lasting. -/
def execCoreTestComplete (c : Fin 144) (pass : Bool) (s : State) : Host.Outcome State Fault Refusal :=
  match s.cph.tests.find? fun t => t.1 == c.val with
  | none => ok s
  | some (_, active) =>
    let s := s.setCph { s.cph with tests := s.cph.tests.filter fun t => t.1 != c.val }
    let past := s.cph.trans.filter fun t => t.1 == c.val && decide (s.life.toNat ≤ t.2.toNat + 86400000000000)
    if pass && past.length < 2 then
      let s := s.setCph { s.cph with trans := s.cph.trans ++ [(c.val, s.life)] }
      let s := count (cCPH 2) (s.setF (fCore c) (if active then 0 else 1))
      ok (cphRefresh (offer 0x0720 (bCore c) c ((smGet (fun _ => 0#49) s.cnt.live (cCPH 2)).toNat % 65536) s))
    else ok (retireCore c active s)

/-- `IDLE_UNDERSTUDY_TEST` (R318): idle understudies on which the known-answer test finds a fault go to the test of R315. -/
def execIdleUnderstudyTest (faulty : List Nat) (s : State) : Host.Outcome State Fault Refusal :=
  if !s.pdOn 29 then ok s
  else ok (each (faulty.filter fun c => decide (c < 144) && s.fld (fCore c) == 1) testCore s)

/-- Active cores have capacity to spare (R315). DESIGN CHOICE, assumption 131: those that are not under test carry more than the running load. -/
def State.spareCores (s : State) : Bool := decide (s.load < (s.coresIn 0).length * 32768)

/-- The faults of one job, issue by issue the cores that fault on its stripes; k issues have faulted before (R315, R317, R318). Every core that
faults goes to test. The job is issued again, once however many cores there were, to understudies or to active cores with capacity to spare; it is
dropped where there are neither, and at the third fault. Whether it is dropped. -/
def jobRounds : Nat → List (List Nat) → State → Bool × State
  | _, [], s => (false, s)
  | k, cs :: r, s =>
    let s := each cs testCore s
    if cs.isEmpty then (false, s)
    else if 2 ≤ k || ((s.coresIn 1).isEmpty && !s.spareCores) then (true, s)
    else jobRounds (k + 1) r (count (cCPH 1) s)

/-- Faults met by jobs, of a session, with 65,536 added for its receive job. Answers the jobs dropped. -/
def jobFaults : List (Nat × List (List Nat)) → State → List Nat × State
  | [], s => ([], s)
  | (x, rounds) :: r, s =>
    let (lost, s) := jobRounds 0 rounds s
    let (d, s) := jobFaults r s
    (if lost then x :: d else d, s)

/-- Sessions whose jobs no longer fit the capacity, served in ascending session ID (R316). -/
def State.starved (s : State) : List Nat :=
  let all := (span 0 4).flatMap fun n => if s.memberB n then [] else (boundSessions s.rd n).map fun e =>
    (e.1, (clientSlots s.rd n e.2).length * s.fld (fLINE_MODE_NET_RATE n) * 63)
  all.filterMap fun e =>
    if s.overload (((all.filter fun f => decide (f.1 ≤ e.1)).map Prod.snd).foldl (· + ·) 0) then some e.1 else none

/-- A job is dropped (R317). -/
def dropJob (n : Nat) (x : Nat) (s : State) : State := offer 0x0722 bCPH x n (count (cCPH 4) s)

/-! ### The cipher on a frame (R300 to R303, R313, R317) -/

/-- The IV of a message (R301). -/
def ivOf (mf x : Nat) (salt : List Byte) : List Byte := (le 6 (mf * 256)).reverse ++ (le 2 x).reverse ++ salt

/-- The additional data of a message (R301). -/
def aadOf (x type slots : Nat) : List Byte := (le 2 x).reverse ++ [BitVec.ofNat 8 type, 0#8] ++ (le 2 slots).reverse ++ [0#8, 0#8]

/-- The bytes of some slots of a payload, in ascending slot order. -/
def takeSlots (pay : List Byte) (js : List Nat) : List Byte := js.flatMap fun j => slice pay (32 * j) 32

/-- A payload with the bytes of some slots replaced, in ascending slot order. -/
def putSlots : List Byte → List Nat → List Byte → List Byte
  | pay, [], _ => pay
  | pay, j :: js, bs => putSlots (slice pay 0 (32 * j) ++ slice bs 0 32 ++ pay.drop (32 * j + 32)) js (bs.drop 32)

/-- XOR with the keystream from a position of the message. -/
def xorStream (key iv : List Byte) : Nat → List Byte → List Byte
  | _, [] => []
  | p, b :: bs => (b ^^^ Config.keystream key iv p) :: xorStream key iv (p + 1) bs

/-- The cipher reads context i: an uncorrectable word zeroises it (R371). -/
def meetCtx (i : Nat) (s : State) : State :=
  if 2 ≤ s.flipsIn stKEYS i then setFlips stKEYS i 0 (zeroise i (sramUnc stKEYS i s)) else sramRead stKEYS i s

/-- The contexts in a state that some sessions have in a direction. -/
def State.ctxsOf (s : State) (xs : List Nat) (dir st : Nat) : List Nat := xs.filterMap fun x => s.ctxIn x dir st

/-- A context has processed a frame of multiframe mf on channel n (R312, R321). -/
def useCtx (i n mf : Nat) (k : KeyBytes) (s : State) : State :=
  let s := if s.flag (fCPH_CTX_A_USED i) then s else (s.setB (fCPH_CTX_A_USED i) true).setF (fCPH_CTX_A_CHANNEL i) n
  setKey i (some { k with lastMf := mf }) (s.wr (rCPH_CTX_B i) (BitVec.ofNat 32 mf))

/-- A session cannot be encrypted for this frame: TX_BLOCKED for its multiframe (R313). -/
def blockTx (n x fn : Nat) (s : State) : State :=
  let began := !s.cph.txBlocked.contains x
  let s := if began || fn % 256 = 0 then count (kSession x 5) s else s
  if began then offer 0x0715 bCPH x n (s.setCph { s.cph with txBlocked := s.cph.txBlocked ++ [x] }) else s

/-- The transmit context may encrypt frame fn (R313): its multiframe is above the last recorded one, or is the one
being encrypted. -/
def mayEncrypt (s : State) (i x fn : Nat) (k : KeyBytes) : Bool :=
  !s.cph.txBlocked.contains x && (!s.flag (fCPH_CTX_A_USED i) || decide (k.lastMf < fn / 256) || (k.lastMf == fn / 256 && fn % 256 != 0))

/-- A transmit job of session x was dropped in the running multiframe, or none was (R317). -/
def setTxDrop (x : Nat) (on : Bool) (s : State) : State :=
  let l := s.cph.txDrop.filter fun y => y != x
  s.setCph { s.cph with txDrop := if on then l ++ [x] else l }

/-- One session of a transmitted frame: its slots encrypted, or zeros where it is blocked or its job dropped; the tag of a multiframe
encrypted whole goes to the session's slots (R302, R317). -/
def txSession (n fn : Nat) (dropped : List Nat) (e : Nat × Nat) (a : List Byte × State) : List Byte × State :=
  let (pay, s) := a
  let (x, c) := e
  let js := clientSlots s.rd n c
  let zeros := putSlots pay js []
  let s := if fn % 256 = 0 then setTxDrop x false s else s
  let tagAll := fun (t : BitVec 128) (s : State) =>
    let o := s.oh.get (ch4 n)
    { s with oh := s.oh.set (ch4 n) { o with tx := { o.tx with tags := js.foldl (fun m j => smSet (fun _ => 0#128) m (512 + j) t) o.tx.tags } } }
  match s.current x 0 with
  | none => (zeros, blockTx n x fn s)
  | some i => match s.keyOf i with
    | none => (zeros, blockTx n x fn s)
    | some k =>
      if !mayEncrypt s i x fn k then (zeros, blockTx n x fn s)
      else if dropped.contains x then (zeros, useCtx i n (fn / 256) k (dropJob n x (setTxDrop x true s)))
      else
        let iv := ivOf (fn / 256) x k.salt
        let ct := xorStream k.key iv (fn % 256 * 32 * js.length) (takeSlots pay js)
        let h := Config.ghash k.key (if fn % 256 = 0 then 0#128 else k.hash) ct
        let s := useCtx i n (fn / 256) { k with hash := h } s
        let s := if fn % 256 = 255 && !s.cph.txDrop.contains x then tagAll (Config.gcmTag k.key iv (aadOf x (s.fld (fCLIENT_TYPE n c)) js.length) h) s else s
        (putSlots pay js ct, s)

/-- A leaf has yet to send the tag of a multiframe up to mf in a burst. -/
def State.leafOwes (s : State) (n mf : Nat) : Bool := (s.leaf.get (ch4 n)).tags.any fun t => decide (t.1 ≤ mf)

/-- RETIRING transmit contexts whose last tag has been sent are EMPTY (R294): at the end of another multiframe than their last, on a leaf with
the burst that carries it. -/
def retireTx (n mf : Nat) (s : State) : State :=
  each (s.contexts.filter fun i => s.fld (fCPH_CTX_A_STATE i) == cxRETIRING && s.fld (fCPH_CTX_A_DIR i) == 0 &&
    s.fld (fCPH_CTX_A_CHANNEL i) == n && (match s.keyOf i with | some k => k.lastMf != mf && !s.leafOwes n k.lastMf | none => true)) wipe s

/-- The cipher on a transmitted frame's payload (R300, R302, R313, R317). The faults are those the cores met since the frame before,
on jobs of either direction; a receive job that is dropped is the session's next one. -/
def txCipher (n fn : Nat) (faults : List (Nat × List (List Nat))) (pay : List Byte) (s : State) : List Byte × State :=
  let (d, s) := jobFaults faults s
  let s := each (s.ctxsOf ((boundSessions s.rd n).map Prod.fst) 0 cxCURRENT) meetCtx s
  let s := s.setCph { s.cph with rxDrop := s.cph.rxDrop ++ (d.filter fun x => decide (65536 ≤ x)).map fun x => x - 65536 }
  let (p, s) := (boundSessions s.rd n).foldl (fun a e => txSession n fn (d ++ s.starved) e a) (pay, s)
  (p, if fn % 256 = 255 then retireTx n (fn / 256) s else s)

/-! ### Received multiframes (R303 to R306) -/

/-- Replace the multiframes that channel n knows. -/
def setAccs (n : Nat) (l : List MfAcc) (s : State) : State := s.setCph { s.cph with accs := s.cph.accs.set (ch4 n) l }

/-- The sessions of channel n as a received multiframe begins. -/
def State.rxSessions (s : State) (n : Nat) : List RxSess :=
  (boundSessions s.rx n).map fun e =>
    ⟨e.1, e.2, rdF s.rx (fCLIENT_TYPE n e.2), clientSlots s.rx n e.2, s.current e.1 1, s.ctxIn e.1 1 cxPENDING, none, none⟩

/-- The oldest multiframes go while no session awaits its verdict in them. -/
def trimAccs : List MfAcc → List MfAcc
  | [] => []
  | a :: r => match trimAccs r with
    | [] => if a.sess.isEmpty then [] else [a]
    | r => a :: r

/-- Newest first, the newest stays. -/
def keepAccs : List MfAcc → List MfAcc
  | [] => []
  | a :: r => a :: trimAccs r

/-- A part of a tag at MFAS m for a slot: all of it on a point-to-point line (R222), two bytes in each of eight frames of a share (R230). -/
def tagPart (m : Nat) (t : SMap (List Byte)) (e : Nat × List Byte) : SMap (List Byte) :=
  if e.2.length = 16 then smSet (fun _ => []) t e.1 e.2
  else
    let o := if m % 8 = 0 then [] else smGet (fun _ => []) t e.1
    if o.length = 2 * (m % 8) then smSet (fun _ => []) t e.1 (o ++ e.2) else t

/-- Every session of a multiframe has lost a part of its message. -/
def MfAcc.broken (a : MfAcc) : MfAcc := { a with bad := true, short := a.short ++ a.sess.map RxSess.sess }

/-- A frame of a multiframe: its verdict, the sessions whose job it lacks, the tags it carries. -/
def MfAcc.frame (m verdict : Nat) (short : List Nat) (tags : List (Nat × List Byte)) (a : MfAcc) : MfAcc :=
  let a := if verdict = 3 || a.next != m then a.broken else { a with bad := a.bad || decide (2 ≤ verdict) }
  { a with next := m + 1, short := a.short ++ short, tags := if verdict < 2 then tags.foldl (tagPart m) a.tags else a.tags }

/-- What the receive side notes of a frame of channel n for the tag verdicts (R304, R305). With a new multiframe the one before it is over,
and clients whose session has left AUTH_FAIL are released (R307). -/
def noteRx (n fn verdict : Nat) (short : List Nat) (tags : List (Nat × List Byte)) (s : State) : State :=
  let mine := (boundSessions s.rx n).map Prod.fst
  let fresh : MfAcc := ⟨fn / 256, 0, false, false, [], [], s.rxSessions n⟩
  let begin_ := fun (l : List MfAcc) =>
    setAccs n (fresh.frame (fn % 256) verdict short tags :: trimAccs l) (s.setCph { s.cph with authLeft := s.cph.authLeft.filter fun x => !mine.contains x })
  match s.cph.accs.get (ch4 n) with
  | [] => begin_ []
  | a :: r =>
    if a.mf = fn / 256 && !a.closed then setAccs n (a.frame (fn % 256) verdict short tags :: r) s
    else begin_ ((if a.closed then a else { a.broken with closed := true }) :: r)

/-- The tag of a session's multiframe under context i, if that holds a key in state st (R300, R301). -/
def State.rxTag (s : State) (mf : Nat) (e : RxSess) (st : Nat) (i : Option Nat) : Option (BitVec 128) :=
  match i with
  | none => none
  | some i => match s.keyOf i with
    | none => none
    | some k =>
      if s.fld (fCPH_CTX_A_STATE i) = st then some (Config.gcmTag k.key (ivOf mf e.sess k.salt) (aadOf e.sess e.type e.slots.length) k.hash) else none

/-- The last frame of a multiframe has come: the tags of the sessions whose message is whole. -/
def closeRx (n : Nat) (s : State) : State :=
  match s.cph.accs.get (ch4 n) with
  | [] => s
  | a :: r =>
    let tagged := fun (e : RxSess) =>
      if a.short.contains e.sess then e else { e with tag := s.rxTag a.mf e cxCURRENT e.ctx, pendTag := s.rxTag a.mf e cxPENDING e.pend }
    setAccs n ({ a with closed := true, sess := a.sess.map tagged } :: r) s

/-- A frame's ciphertext goes into the GHASH of the PENDING receive context of a session (R308). -/
def pendHash (x fn : Nat) (ct : List Byte) (s : State) : State :=
  match s.ctxIn x 1 cxPENDING with
  | none => s
  | some p => match s.keyOf p with
    | none => s
    | some k => setKey p (some { k with hash := Config.ghash k.key (if fn % 256 = 0 then 0#128 else k.hash) ct }) s

/-- One session of a received frame (R306, R317): decrypted under its CURRENT context; without one it passes as it is. A dropped job
leaves filler. -/
def rxSession (n fn : Nat) (dropped : List Nat) (e : Nat × Nat) (a : List Byte × State) : List Byte × State :=
  let (pay, s) := a
  let (x, c) := e
  let js := clientSlots s.rx n c
  match s.current x 1 with
  | none => (pay, s)
  | some i => match s.keyOf i with
    | none => (pay, s)
    | some k =>
      if dropped.contains x then (putSlots pay js [], useCtx i n (fn / 256) k (dropJob n x s))
      else
        let iv := ivOf (fn / 256) x k.salt
        let ct := takeSlots pay js
        let h := Config.ghash k.key (if fn % 256 = 0 then 0#128 else k.hash) ct
        (putSlots pay js (xorStream k.key iv (fn % 256 * 32 * js.length) ct), pendHash x fn ct (useCtx i n (fn / 256) { k with hash := h } s))

/-- The cipher on a received frame's payload, with the tags that the frame carries by slot. A MISSING frame carries no ciphertext, nor do the
slots of clients that were filled (R306). -/
def rxCipher (n fn verdict : Nat) (filled : List Nat) (tags : List (Nat × List Byte)) (pay : List Byte) (s : State) : List Byte × State :=
  let all := boundSessions s.rx n
  let xs := all.map Prod.fst
  let s := if verdict = 3 then s else each (s.ctxsOf xs 1 cxCURRENT ++ s.ctxsOf xs 1 cxPENDING) meetCtx s
  let mine := all.filter fun e => !filled.contains e.2
  let gone := (all.filter fun e => filled.contains e.2).map Prod.fst
  let drop := (s.starved ++ s.cph.rxDrop).filter fun x => mine.any fun e => e.1 == x
  let s := s.setCph { s.cph with rxDrop := s.cph.rxDrop.filter fun x => !drop.contains x }
  let s := noteRx n fn verdict (gone ++ drop) tags s
  let (plain, s) := if verdict = 3 then (pay, s) else mine.foldl (fun a e => rxSession n fn drop e a) (pay, s)
  (plain, if fn % 256 = 255 then closeRx n s else s)

/-! ### Tag verdicts (R304 to R308) -/

/-- The session leaves or enters AUTH_FAIL by a verdict (R307). -/
def authCount (x n : Nat) (pass fail : Bool) (s : State) : State :=
  if pass then
    let s := s.setCph { s.cph with fails := smDel s.cph.fails x }
    if s.cph.authFail.contains x then
      offer 0x0712 bCPH x n (s.setCph { s.cph with authFail := s.cph.authFail.filter (fun y => y != x), authLeft := s.cph.authLeft ++ [x] })
    else s
  else if fail then
    let k := smGet (fun _ => 0) s.cph.fails x + 1
    let s := s.setCph { s.cph with fails := smSet (fun _ => 0) s.cph.fails x k }
    let lim := s.fld fCPH_CTRL_FAIL_LIMIT
    if lim != 0 && decide (lim ≤ k) && !s.cph.authFail.contains x then
      offer 0x0711 bCPH x n (s.setCph { s.cph with authFail := s.cph.authFail ++ [x] }) else s
  else s

/-- The oldest multiframe whose verdict for session x is due, with the next newer one (R305): on a hub when it is past, elsewhere when the
multiframe after it is past, or has not come before a later one. -/
def dueAcc (hub : Bool) (x : Nat) : Option MfAcc → List MfAcc → Option (Option MfAcc × MfAcc × RxSess)
  | _, [] => none
  | newer, a :: r =>
    match dueAcc hub x (some a) r with
    | some d => some d
    | none =>
      let past := match newer with | some b => b.closed || b.mf != (a.mf + 1) % 2 ^ 40 | none => false
      if a.closed && (hub || past) then (a.sess.find? fun e => e.sess == x).map fun e => (newer, a, e) else none

/-- The verdict that is due for session x: its channel, the multiframe and the session in it. -/
def State.verdictDue (s : State) (x : Nat) : Option (Nat × Option MfAcc × MfAcc × RxSess) :=
  (span 0 4).findSome? fun n => (dueAcc (s.fld (fHUB_CTRL_ROLE n) == 1) x none (s.cph.accs.get (ch4 n))).map fun d => (n, d)

/-- The copy of a tag that counts (R304): the one at the lowest of the session's slots that multiframe M + 1 has brought; on a hub the tag
passed with the burst. -/
def State.tagCopy (s : State) (n : Nat) (newer : Option MfAcc) (a : MfAcc) (e : RxSess) : Option Nat :=
  if s.fld (fHUB_CTRL_ROLE n) = 1 then ((s.hub.get (ch4 n)).tags.find? fun t => t.1 == e.client && t.2.1 == a.mf).map fun t => unbe t.2.2
  else match newer with
    | none => none
    | some b =>
      if b.mf ≠ (a.mf + 1) % 2 ^ 40 then none
      else e.slots.findSome? fun j => match smLookup b.tags j with
        | some t => if t.length = 16 then some (unbe t) else none
        | none => none

/-- A copy of a tag matches a computed one. -/
def tagHit (copy : Option Nat) (t : Option (BitVec 128)) : Bool :=
  match copy, t with
  | some c, some v => v.toNat == c
  | _, _ => false

/-- The verdict of a session on a multiframe (R304): 0 PASS, 1 FAIL, 2 INCOMPLETE, 3 MISSING, 4 UNCHECKED. -/
def verdictFor (copy : Option Nat) (a : MfAcc) (e : RxSess) : Nat :=
  if e.ctx.isNone then 4 else if tagHit copy e.tag then 0 else if a.bad || a.short.contains e.sess then 2 else if copy.isNone then 3 else 1

/-- The session's tag has failed under CURRENT and matched under PENDING (R308): record 0x0713 once for the activation. -/
def nextMatch (n : Nat) (copy : Option Nat) (e : RxSess) (s : State) : State :=
  match e.pend with
  | none => s
  | some p =>
    if e.ctx.isNone || tagHit copy e.tag || !tagHit copy e.pendTag then s
    else
      let s := count (cCPH 0) s
      if s.cph.nextSeen.contains p then s else offer 0x0713 bCPH e.sess n (s.setCph { s.cph with nextSeen := s.cph.nextSeen ++ [p] })

/-- Some multiframe was received under context i and awaits its verdict. -/
def State.awaited (s : State) (i : Nat) : Bool := (span 0 4).any fun n => (s.cph.accs.get (ch4 n)).any fun a => a.sess.any fun e => e.ctx == some i

/-- RETIRING receive contexts of a session whose last multiframe is resolved are EMPTY (R294). -/
def retireRx (x : Nat) (s : State) : State :=
  each (s.contexts.filter fun i => s.fld (fCPH_CTX_A_STATE i) == cxRETIRING && s.fld (fCPH_CTX_A_DIR i) == 1 &&
    s.fld (fCPH_CTX_A_SESSION i) == x && !s.awaited i) wipe s

/-- A session's multiframe is resolved: neither it nor its tag is looked at again. -/
def resolved (n : Nat) (a : MfAcc) (e : RxSess) (s : State) : State :=
  let l := (s.cph.accs.get (ch4 n)).map fun b => if b.mf = a.mf then { b with sess := b.sess.filter fun y => y.sess != e.sess } else b
  let h := s.hub.get (ch4 n)
  setAccs n (keepAccs l) { s with hub := s.hub.set (ch4 n) { h with tags := h.tags.filter fun t => !(t.1 == e.client && decide (t.2.1 ≤ a.mf)) } }

/-- `TAG_VERDICT_RESOLVED` (R304, R305, R307, R308) for session x: the oldest of its multiframes whose verdict is due. -/
def execTagVerdictResolved (x : Nat) (s : State) : Host.Outcome State Fault Refusal :=
  match s.verdictDue x with
  | none => ok s
  | some (n, newer, a, e) =>
    let copy := s.tagCopy n newer a e
    let v := verdictFor copy a e
    ok (retireRx x (nextMatch n copy e (authCount x n (v == 0) (v == 1) (count (kSession x v) (resolved n a e s)))))

/-- Channel n goes DARK: what it has received and not resolved is gone, and with it the tags that RETIRING contexts wait for. -/
def cphChannelLost (n : Nat) (s : State) : State :=
  let s := setAccs n [] s
  each (s.contexts.filter fun i => s.fld (fCPH_CTX_A_STATE i) == cxRETIRING && s.fld (fCPH_CTX_A_CHANNEL i) == n) wipe s

/-! ### Activation (R309, R310) -/

/-- A CURRENT context that another replaces has a tag that is still to be sent, or a multiframe to be resolved (R294). -/
def State.ctxOwes (s : State) (i : Nat) : Bool :=
  let n := s.fld (fCPH_CTX_A_CHANNEL i)
  match s.keyOf i with
  | none => false
  | some k =>
    s.flag (fCPH_CTX_A_USED i) && (if s.fld (fCPH_CTX_A_DIR i) = 1 then s.awaited i
      else !s.chDark n && (s.nextFn n 0 / 256 == k.lastMf || s.nextFn n 0 / 256 == (k.lastMf + 1) % 2 ^ 40 || s.leafOwes n k.lastMf))

/-- A context becomes CURRENT at the multiframe with first frame number f (R294, R309, R313). -/
def becomeCurrent (i f : Nat) (s : State) : State :=
  let x := s.fld (fCPH_CTX_A_SESSION i)
  let d := s.fld (fCPH_CTX_A_DIR i)
  let s := match s.current x d with
    | some o => if s.ctxOwes o then s.setF (fCPH_CTX_A_STATE o) cxRETIRING else wipe o s
    | none => s
  let act := s.cph.acts.find? fun a => a.ctx == i
  let c := { s.cph with acts := s.cph.acts.filter fun a => a.ctx != i }
  let c := if d = 0 then { c with txBlocked := c.txBlocked.filter fun y => y != x } else c
  let s := offer 0x0703 bCPH (i + 65536 * x) (f / 256) ((s.setCph c).setF (fCPH_CTX_A_STATE i) cxCURRENT)
  match act with
  | none => s
  | some a => match s.ops.find? fun o => o.opcode == 0x0402 && decide (o.org = a.org) with
    | some op => endOp op { status := stOK } (le 6 f) s
    | none => s

/-- The pending activation of a context's direction is due at once: its session bound to no running client, or the
channel not ACTIVE (R309). -/
def State.actAtOnce (s : State) (i : Nat) : Bool :=
  match s.sessionAt (s.fld (fCPH_CTX_A_SESSION i)) with
  | none => true
  | some (n, _) => !s.active n

/-- `KEY_BECOMES_CURRENT` (R309, R310): the effective multiframe of a PENDING context has come. -/
def execKeyBecomesCurrent (i : Fin 16384) (s : State) : Host.Outcome State Fault Refusal :=
  match s.cph.acts.find? fun a => a.ctx == i.val with
  | none => ok s
  | some a => match (if s.actAtOnce i then none else s.sessionAt (s.fld (fCPH_CTX_A_SESSION i))) with
    | none => let (v, s) := s.draw; ok (becomeCurrent i (v % 2 ^ 48) s)
    | some (n, _) =>
      let d := s.fld (fCPH_CTX_A_DIR i)
      let f := s.nextFn n d
      let here := f % 256 = 0 && (a.mode = 0 || decide (0 ≤ fnDiff f a.frame))
      let late := a.mode = 1 && d = 1 && decide (0 < fnDiff f a.frame)
      if here || late then ok (becomeCurrent i f s) else ok s

/-- `KEY_ACTIVATE` (R309, R310). -/
def cmdKeyActivate : Cmd where
  code := 0x0402
  access := accOpRem
  params := fun ps _ => firstBad [(miss ps 0 2 || decide (16383 < fld ps 0 2), 0), (miss ps 2 1 || decide (1 < fld ps 2 1), 2),
    (miss ps 3 1 || fld ps 3 1 != 0, 3), (fld ps 2 1 == 1 && (miss ps 4 6 || fld ps 4 6 % 256 != 0), 4)]
  touches := fun q s => resKEY :: (match s.sessionAt (s.fld (fCPH_CTX_A_SESSION (fld q.params 0 2))) with | some (n, _) => [resCH n] | none => [])
  body := fun q s =>
    let i := fld q.params 0 2
    let mode := fld q.params 2 1
    let f := fld q.params 4 6
    let x := s.fld (fCPH_CTX_A_SESSION i)
    let d := s.fld (fCPH_CTX_A_DIR i)
    let soon := match s.sessionAt x with
      | none => false
      | some (n, _) => mode == 1 && s.active n && decide (fnDiff f (s.nextFn n d) + 1 < 512)
    if s.fld (fCPH_CTX_A_STATE i) ≠ cxINSTALLED || (s.ctxIn x d cxPENDING).isSome || (s.ctxIn x d cxRETIRING).isSome || soon then
      .error { status := stWRONG_STATE }
    else
      let s := (s.setF (fCPH_CTX_A_STATE i) cxPENDING).setCph { s.cph with acts := s.cph.acts ++ [⟨i, mode, f, q.org⟩], nextSeen := s.cph.nextSeen.filter fun j => j != i }
      .ok (s, .accept (opOf q 0x0402 [] [] s))

/-- `KEY_ACTIVATE`: where the activation is due at once it takes effect after the ACCEPTED. -/
def execKeyActivate (q : Request) (s : State) : Host.Outcome State Fault Refusal :=
  if 4076 < q.params.length then serve cmdKeyActivate q s
  else
    let t := serveState cmdKeyActivate q s
    let i := fld q.params 0 2
    if (t.cph.acts.any fun a => a.ctx == i && decide (a.org = q.org)) && t.actAtOnce i then
      let (v, u) := t.draw
      ok (becomeCurrent i (v % 2 ^ 48) u)
    else ok t

/-! ### Key commands (R295 to R299, R319, R322) -/

/-- `KEY_ESTABLISH` (R296, R297); it starts a dark `PD29` through the start queue (R292). -/
def cmdKeyEstablish : Cmd where
  code := 0x0400
  access := accOpRem
  params := fun ps _ => firstBad [(miss ps 0 97 || !Config.pointOk (slice ps 0 97), 0), (miss ps 97 16, 97),
    (miss ps 113 3 || fld ps 113 3 != 0, 113)]
  touches := fun _ _ => [resKEY]
  body := fun q s =>
    let (a, s) := s.draw
    let (b, s) := s.draw
    let nonce := le 8 a ++ le 8 b
    let seed := slice q.params 0 113 ++ nonce
    let s := s.setCph { s.cph with kek := some ((span 0 32).map (Config.kdf seed)) }
    let s := if s.pdOn 29 then s.setB fCPH_STATUS_KEK_VALID true
      else if s.pwr.queue.contains (.domain 29) || s.fld (fPD 29) != 0 then s
      else ({ s with pwr := { s.pwr with queue := s.pwr.queue ++ [.domain 29] } } : State).setF (fPD 29) 3
    .ok (offer 0x0701 bCPH 0 0 s, .done (nonce ++ (span 64 16).map (Config.kdf seed)))

/-- `KEY_ESTABLISH`. -/
def execKeyEstablish (q : Request) (s : State) : Host.Outcome State Fault Refusal := serve cmdKeyEstablish q s

/-- The record a blob unwraps to under the part's KEK (R298, R299). -/
def State.blob (s : State) (ps : List Byte) : Option (List Byte) :=
  match s.cph.kek with
  | none => none
  | some k => Config.unwrap k (slice ps 4 48)

/-- A record R299 refuses: byte 39, session ID, direction. -/
def badRecord (r : List Byte) : Bool := fld r 39 1 != 0 || unle (slice r 36 2).reverse == 0 || decide (1 < fld r 38 1)

/-- `KEY_INSTALL` (R299, R434). Without a KEK nothing can be unwrapped, and WRONG_STATE follows. -/
def cmdKeyInstall : Cmd where
  code := 0x0401
  access := accOpRem
  params := fun ps s => firstBad [(miss ps 0 2 || decide (16383 < fld ps 0 2), 0), (miss ps 2 2 || fld ps 2 2 != 0, 2),
    (miss ps 4 48 || (s.cph.kek.isSome && (match s.blob ps with | none => true | some r => badRecord r)), 4)]
  touches := fun _ _ => [resKEY]
  body := fun q s =>
    let i := fld q.params 0 2
    match s.blob q.params with
    | none => .error { status := stWRONG_STATE }
    | some r =>
      let x := unle (slice r 36 2).reverse
      let d := fld r 38 1
      let key := slice r 0 32
      let mine := s.contexts.filter fun j => s.fld (fCPH_CTX_A_SESSION j) == x
      if s.fld (fCPH_CTX_A_STATE i) ≠ 0 then .error { status := stWRONG_STATE }
      else if 2 ≤ (mine.filter fun j => s.fld (fCPH_CTX_A_DIR j) == d).length ||
          (mine.any fun j => s.fld (fCPH_CTX_A_DIR j) != d && (match s.keyOf j with | some k => decide (k.key = key) | none => false)) then
        .error (conflict bCPH)
      else
        let s := if s.cph.sets.contains x then s
          else each (span 0 6) (fun k s => cntClear (kSession x k) s) (s.setCph { s.cph with sets := s.cph.sets ++ [x] })
        let s := ((s.setF (fCPH_CTX_A_STATE i) cxINSTALLED).setF (fCPH_CTX_A_DIR i) d).setF (fCPH_CTX_A_SESSION i) x
        .ok (offer 0x0702 bCPH (i + 65536 * x) d (sramWrite stKEYS i (setKey i (some ⟨key, slice r 32 4, 0#128, 0⟩) s)), .done [])

/-- `KEY_INSTALL`. -/
def execKeyInstall (q : Request) (s : State) : Host.Outcome State Fault Refusal := serve cmdKeyInstall q s

/-- `KEY_IDENTITY` (R295). -/
def cmdKeyIdentity : Cmd where
  code := 0x0403
  access := accAll
  params := fun _ _ => none
  body := fun _ s => .ok (s, .done ((span 0 97).map Config.identity ++ le 8 Config.serial.toNat ++ (span 97 96).map Config.identity))

/-- `KEY_IDENTITY`. -/
def execKeyIdentity (q : Request) (s : State) : Host.Outcome State Fault Refusal := serve cmdKeyIdentity q s

/-- `KEY_ZEROISE` (R319, R322): MAINTENANCE only of everything (R85); a claim of the key store holds back only REMOTE. -/
def cmdKeyZeroise : Cmd where
  code := 0x0404
  access := accOpMntRem
  permit := fun q _ => q.org.who.master != 3 || fld q.params 0 2 == 0xFFFF
  params := fun ps _ => firstBad [(miss ps 0 2 || (decide (16383 < fld ps 0 2) && fld ps 0 2 != 0xFFFF), 0)]
  touches := fun q _ => if q.org.who.master = 4 then [resKEY] else []
  body := fun q s =>
    let i := fld q.params 0 2
    if i = 0xFFFF then .ok (offer 0x0704 bCPH (0xFFFF + 2 ^ 31) 0 (zeroiseAll s), .done [])
    else .ok (offer 0x0704 bCPH i 0 (zeroise i s), .done [])

/-- `KEY_ZEROISE`. -/
def execKeyZeroise (q : Request) (s : State) : Host.Outcome State Fault Refusal := serve cmdKeyZeroise q s

/-- `SESSION_REPORT` (R322): the session's contexts in ascending number. -/
def cmdSessionReport : Cmd where
  code := 0x0405
  access := accCounters
  params := fun ps _ => firstBad [(miss ps 0 2 || fld ps 0 2 == 0, 0)]
  body := fun q s =>
    let x := fld q.params 0 2
    let cs := s.contexts.filter fun i => s.fld (fCPH_CTX_A_SESSION i) == x
    let flags := b2n (s.sessionAt x).isSome + 2 * b2n (s.cph.authFail.contains x) + 4 * b2n (s.cph.txBlocked.contains x) + 8 * b2n (s.current x 1).isNone
    .ok (s, .done (le 1 flags ++ [0#8] ++ ((span 0 4).flatMap fun k => le 2 (cs.getD k 0xFFFF)) ++ [0#8, 0#8] ++
      ((span 0 6).flatMap fun k => le 6 ((smGet (fun _ => 0#49) s.cnt.store (kSession x k)).toNat % 2 ^ 48))))

/-- `SESSION_REPORT`. -/
def execSessionReport (q : Request) (s : State) : Host.Outcome State Fault Refusal := serve cmdSessionReport q s

/-- `CIPHER_REPORT` (R322). -/
def cmdCipherReport : Cmd where
  code := 0x0406
  access := accAll
  params := fun _ _ => none
  body := fun _ s => .ok (s, .done (le 4 (s.shown rCPH_STATUS).toNat ++ le 4 (s.shown rCPH_LOAD).toNat ++
    (span 0 9).flatMap fun k => le 4 (s.shown (rCPH_CORE k)).toNat))

/-- `CIPHER_REPORT`. -/
def execCipherReport (q : Request) (s : State) : Host.Outcome State Fault Refusal := serve cmdCipherReport q s

end Sys2Proof.Machine
end

