-- ==== Sys2Proof/Machine/Code.lean ====
section
/-! DEFINITION. The codes of spec 09 and the channel interleaver: quasi-cyclic parity checks, the systematic encoder, what a decoder
makes of a codeword, the native codewords of frames and shares, and the bits each subcarrier carries. -/

namespace Sys2Proof.Machine

open Sys2Proof

/-! ### Quasi-cyclic codes (R200, R212, R214, R215) -/

/-- A systematic quasi-cyclic LDPC code: its number, rows and columns of its base matrix, and the size of a circulant in bytes. The last
`rows` columns carry parity. -/
structure Qc where
  id : Nat
  rows : Nat
  cols : Nat
  bytes : Nat
  deriving DecidableEq, Repr

/-- The native code (R200). -/
abbrev Qc.native : Qc := ⟨0, 5, 37, 129⟩

/-- The burst code (R212). -/
abbrev Qc.burst : Qc := ⟨1, 8, 40, 32⟩

/-- The descriptor code (R214). -/
abbrev Qc.descriptor : Qc := ⟨2, 12, 16, 8⟩

/-- The discovery code (R215). -/
abbrev Qc.discovery : Qc := ⟨3, 6, 12, 6⟩

/-- Bits of a circulant. -/
def Qc.z (c : Qc) : Nat := 8 * c.bytes

/-- Bytes of information, and of a codeword. -/
def Qc.infoBytes (c : Qc) : Nat := (c.cols - c.rows) * c.bytes
def Qc.wordBytes (c : Qc) : Nat := c.cols * c.bytes

/-- Column j of a word: its first bit is the most significant. -/
def Qc.column (c : Qc) (w : List Byte) (j : Nat) : BitVec c.z := BitVec.ofNat c.z (unbe (slice w (j * c.bytes) c.bytes))

/-- What row r of the base matrix makes of a word: the sum over the columns of their shifted circulants. The shift values come with the
part in machine-readable form: `Config.shift`. -/
def Qc.check (c : Qc) (w : List Byte) (r : Nat) : BitVec c.z :=
  (span 0 c.cols).foldl (fun a j => match Config.shift c.id r j with
    | some k => a ^^^ (c.column w j).rotateLeft k
    | none => a) 0#c.z

/-- The syndrome of a whole word is zero. -/
def Qc.holds (c : Qc) (w : List Byte) : Bool := w.length == c.wordBytes && (span 0 c.rows).all fun r => c.check w r == 0#c.z

/-! ### The encoder -/

/-- A parity equation over `n` unknown bits: the unknowns it holds, and their sum. -/
abbrev ParityRow (n : Nat) := BitVec n × Bool

/-- The parity equations of some information bits: unknown z j + i is bit i of parity column j. -/
def Qc.equations (c : Qc) (info : List Byte) : List (ParityRow (c.rows * c.z)) :=
  let word := info ++ List.replicate (c.rows * c.bytes) 0#8
  (span 0 c.rows).flatMap fun r =>
    let sum := c.check word r
    (span 0 c.z).map fun i =>
      ((span 0 c.rows).foldl (fun m j => match Config.shift c.id r (c.cols - c.rows + j) with
        | some k => m ^^^ (1#(c.rows * c.z) <<< (c.z * j + (i + k) % c.z))
        | none => m) 0#(c.rows * c.z), sum.getMsbD i)

/-- A row with an unknown taken out by means of a row that holds it. -/
def takeOut {n : Nat} (v : Nat) (p r : ParityRow n) : ParityRow n := if r.1.getLsbD v then (r.1 ^^^ p.1, r.2 != p.2) else r

/-- The rows solved for some unknowns in turn: each is taken out of every other row. -/
def solveRows {n : Nat} : List Nat → List (Nat × ParityRow n) → List (ParityRow n) → List (Nat × ParityRow n)
  | [], done, _ => done
  | v :: vs, done, rest =>
    match rest.find? fun r => r.1.getLsbD v with
    | none => solveRows vs done rest
    | some p =>
      solveRows vs ((done.map fun d => (d.1, takeOut v p d.2)) ++ [(v, p)])
        ((rest.eraseP fun r => r.1.getLsbD v).map (takeOut v p))

/-- Eight bits as a byte, the first most significant. -/
def byteOf (bits : List Bool) : Byte := BitVec.ofNat 8 (bits.foldl (fun a b => 2 * a + b2n b) 0)

/-- Bits as bytes; a last part of fewer than eight is filled with zeros. -/
def packBits (bits : List Bool) : List Byte :=
  (span 0 ((bits.length + 7) / 8)).map fun i => byteOf ((span 0 8).map fun k => bits.getD (8 * i + k) false)

/-- The bits of some bytes, each byte's most significant bit first (R223). -/
def bitsOfBytes (bs : List Byte) : List Bool := bs.flatMap fun b => (span 0 8).map fun k => b.getMsbD k

/-- The parity bytes of some information bytes. -/
def Qc.parity (c : Qc) (info : List Byte) : List Byte :=
  let done := solveRows (span 0 (c.rows * c.z)) [] (c.equations info)
  packBits ((span 0 (c.rows * c.z)).map fun v => match done.find? fun d => d.1 == v with | some d => d.2.2 | none => false)

/-- The systematic codeword of some information bytes. -/
def Qc.encode (c : Qc) (info : List Byte) : List Byte :=
  let info := slice info 0 c.infoBytes
  info ++ c.parity info

/-! ### The decoder (R205, R208, R209) -/

/-- Bits in which two words differ. -/
def diffBits (a b : List Byte) : Nat :=
  (span 0 (max a.length b.length)).foldl (fun n i => n + ((bitsOfBytes [a.getD i 0#8 ^^^ b.getD i 0#8]).filter id).length) 0

/-- The iterations of a decoder: the first estimate with a zero syndrome ends them. -/
def Qc.iterate (c : Qc) (hard : List Byte) : Nat → List Byte → List (List Byte) → CwResult × List Byte
  | k, last, [] => (⟨false, k, diffBits hard last⟩, last)
  | k, _, e :: es => if c.holds e then (⟨true, k + 1, diffBits hard e⟩, e) else c.iterate hard (k + 1) e es

/-- What a decoder with an iteration limit makes of a codeword, and its output bits: no iteration where the hard decisions are a codeword
already; uncorrectable where no permitted iteration brings the syndrome to zero, the output then the last estimate. -/
def Qc.decode (c : Qc) (limit : Nat) (w : Codeword) : CwResult × List Byte :=
  if c.holds w.hard then (⟨true, 0, 0⟩, w.hard) else c.iterate w.hard 0 w.hard (w.est.take limit)

/-- A word in which the first information columns of a shortened burst codeword of r blocks stand as zeros (R212). -/
def lengthen (r : Nat) (w : List Byte) : List Byte := List.replicate ((5 - r) * 256) 0#8 ++ w

/-- The codeword of r blocks of a burst that carries some information, and what the decoder makes of one: at most 10 iterations (R212). -/
def burstEncode (r : Nat) (info : List Byte) : List Byte := (Qc.burst.encode (lengthen r (slice info 0 (1024 - (5 - r) * 256)))).drop ((5 - r) * 256)
def burstDecode (r : Nat) (w : Codeword) : CwResult × List Byte :=
  let (d, bs) := Qc.burst.decode 10 ⟨lengthen r w.hard, w.est.map (lengthen r)⟩
  (d, slice bs ((5 - r) * 256) (1024 - (5 - r) * 256))

/-! ### Codewords of frames and shares (R201, R202) -/

/-- The four codewords of a native frame: codeword i carries bytes 4,128 i to 4,128 i + 4,127. -/
def frameWords (frame : List Byte) : List (List Byte) := (span 0 4).map fun i => Qc.native.encode (slice frame (4128 * i) 4128)

/-- The codeword of a subcarrier for a group of four frames: its share of each, in frame-number order. -/
def shareWord (k : Nat) (frames : List (List Byte)) : List Byte := Qc.native.encode (frames.flatMap fun f => slice f (1032 * k) 1032)

/-! ### The channel interleaver (R203) -/

/-- The line periods of some frames' coded bits, whose first `aw` bits are the alignment word: it stays at the start of its period, the
others are spread over all the periods. Which bit goes where R203 does not say: `Config.spread`. -/
def spreadBits (low : Bool) (aw : Nat) (frames : List (List Bool)) : List Bool :=
  let pool := frames.flatMap fun f => f.drop aw
  let mixed := (span 0 pool.length).map fun i => pool.getD (Config.spread low pool.length i) false
  (frames.foldl (fun (a : List Bool × List Bool) f => (a.1 ++ f.take aw ++ a.2.take (f.length - aw), a.2.drop (f.length - aw))) ([], mixed)).1

/-- Bits dealt in turn to n subcarriers: where n does not divide their number, the lowest-numbered carry one bit more. -/
def dealt (n : Nat) (bits : List Bool) : List (List Bool) :=
  (span 0 n).map fun k => (span 0 ((bits.length + n - 1 - k) / n)).map fun i => bits.getD (n * i + k) false

/-- The bits of each subcarrier for some whole frames of a point-to-point channel, of one frame with the low-latency decoder. -/
def pointLanes (low : Bool) (nsc : Nat) (frames : List (List Byte)) : List (List Bool) :=
  dealt nsc (spreadBits low 64 (frames.map fun f => bitsOfBytes (frameWords f).flatten))

/-- The coded bits of the four frame periods of a group on subcarrier k: each share, then its quarter of the parity. -/
def groupBits (k : Nat) (frames : List (List Byte)) : List (List Bool) :=
  let parity := bitsOfBytes ((shareWord k frames).drop 4128)
  (span 0 4).map fun j => bitsOfBytes (slice (frames.getD j []) (1032 * k) 1032) ++ (parity.drop (1290 * j)).take 1290

/-- The bits of each subcarrier of a hub for some whole groups of four frames (R168, R202, R203). -/
def hubLanes (low : Bool) (frames : List (List Byte)) : List (List Bool) :=
  (span 0 16).map fun k => spreadBits low 16 ((span 0 (frames.length / 4)).flatMap fun g => groupBits k ((frames.drop (4 * g)).take 4))

end Sys2Proof.Machine
end

