-- ==== Sys2Proof/Machine/Map.lean ====
section
/-! DEFINITION. Client mapping (spec 10, R234 to R236): the 66-bit blocks, their 257-bit transcoding, the mapper that packs them into a
client's slots, and the demapper. -/

namespace Sys2Proof.Machine

open Sys2Proof

/-! ### Blocks -/

/-- An idle control block, a local-fault and a remote-fault ordered set, and an error control block. PRESUMED, assumption 41: their bits are those of the PCS
of IEEE 802.3, which R235 names them by. -/
def idleBlk : Blk := ⟨true, 0x1E#64⟩
def faultBlk : Blk := ⟨true, 0x100004B#64⟩
def remoteBlk : Blk := ⟨true, 0x200004B#64⟩
def errorBlk : Blk := ⟨true, BitVec.ofNat 64 (0x1E + (span 0 8).foldl (fun a i => a + 0x1E * 2 ^ (8 + 7 * i)) 0)⟩

/-- An idle control block; the start of an Ethernet frame. -/
def blkIdle (b : Blk) : Bool := decide (b = idleBlk)
def blkStart (b : Blk) : Bool := b.ctl && b.data.setWidth 8 == 0x78#8

/-- A content block (R438): data, or a control block that holds a start or a terminate. PRESUMED, assumption 41: the block types are those
of IEEE 802.3. -/
def blkContent (b : Blk) : Bool :=
  !b.ctl || [0x78, 0x87, 0x99, 0xAA, 0xB4, 0xCC, 0xD2, 0xE1, 0xFF].contains (b.data.toNat % 256)

/-- Content blocks among some. -/
def contents (l : List Blk) : Nat := (l.filter blkContent).length

/-- The bits of a number, least significant first. -/
def lsbBits (k v : Nat) : List Bool := (span 0 k).map (bit v)

/-- The number that bits carry, least significant first. -/
def ofLsbBits (bs : List Bool) : Nat := bs.reverse.foldl (fun a b => 2 * a + b2n b) 0

/-- Four 66-bit blocks as one of 257 bits: a 1 and the data, or a 0, which of the four are data, and the blocks without the second half
of the first control block's type. PRESUMED, assumption 41: the 256b/257b transcoding of IEEE 802.3 that R234 names. -/
def transcode (l : List Blk) : List Bool :=
  let body := l.flatMap fun b => lsbBits 64 b.data.toNat
  match l.findIdx? Blk.ctl with
  | none => true :: body
  | some c => false :: (l.map fun b => !b.ctl) ++ body.take (64 * c + 4) ++ body.drop (64 * c + 8)

/-- The second half of a control block's type, from its first half. -/
def typeHigh (low : Nat) : Option Nat :=
  ([0x1E, 0x78, 0x4B, 0x87, 0x99, 0xAA, 0xB4, 0xCC, 0xD2, 0xE1, 0xFF].find? fun t => t % 16 == low).map fun t => t / 16

/-- The four blocks of 257 bits; bits that no four blocks give are error control blocks. -/
def untranscode (bits : List Bool) : List Blk :=
  let four := fun (data : List Bool) (ctl : Nat → Bool) => (span 0 4).map fun i => (⟨ctl i, BitVec.ofNat 64 (ofLsbBits ((data.drop (64 * i)).take 64))⟩ : Blk)
  if bits.headD false then four (bits.drop 1) fun _ => false
  else
    let kinds := (bits.drop 1).take 4
    let body := bits.drop 5
    match kinds.findIdx? (fun b => !b) with
    | none => List.replicate 4 errorBlk
    | some c => match typeHigh (ofLsbBits ((body.drop (64 * c)).take 4)) with
      | none => List.replicate 4 errorBlk
      | some h => four (body.take (64 * c + 4) ++ lsbBits 4 h ++ body.drop (64 * c + 4)) fun i => !(kinds.getD i true)

/-! ### Host ports (R333, R336, R337) -/

/-- The blocks of a received RS codeword: its twenty 257-bit blocks transcoded back, or error control blocks where it is uncorrectable. -/
def cwBlocks (c : HostCw) : List Blk :=
  match c.fixed with
  | none => List.replicate 80 errorBlk
  | some _ => (span 0 20).flatMap fun i => untranscode ((bitsOfBytes c.data).drop (257 * i) |>.take 257)

/-- The calendar marker. -/
def markerBlk : Blk := ⟨true, 0xA4D43574B#64⟩

/-- The calendar receiver takes a block: lock after two consecutive markers 1,024 blocks apart, lost after four missing in a row. -/
def calBlk (b : Blk) (c : CalRx) : CalRx :=
  let on := decide (b = markerBlk)
  let after := (c.pos + 1) % 1024
  if c.lock then
    if c.pos ≠ 0 || on then { c with pos := after, miss := if c.pos = 0 then 0 else c.miss }
    else if 3 ≤ c.miss then CalRx.init
    else { c with pos := after, miss := c.miss + 1 }
  else if on then ⟨1, 0, true, c.seen && c.pos == 0⟩
  else ⟨after, 0, c.seen && c.pos != 0, false⟩

/-- Received blocks with their positions of the calendar, 0 while there is no lock, and the receiver after them. -/
def calRun : List Blk → CalRx → List (Nat × Blk) × CalRx
  | [], c => ([], c)
  | b :: bs, c =>
    let c' := calBlk b c
    let (r, e) := calRun bs c'
    ((if c.lock && c'.lock then c.pos else 0, b) :: r, e)

/-- The blocks in a run of positions. -/
def inRun (f k : Nat) (l : List (Nat × Blk)) : List Blk :=
  (l.filter fun e => decide (1 ≤ e.1) && decide (f ≤ e.1) && decide (e.1 < f + k)).map Prod.snd

/-- The block at a position of calendar cycle i, for owners with their runs and blocks: idle where none has a block to send. -/
def calAt (owners : List (Nat × Nat × List Blk)) (i p : Nat) : Blk :=
  match owners.find? fun o => decide (o.1 ≤ p) && decide (p < o.1 + o.2.1) with
  | some o => o.2.2.getD (i * o.2.1 + (p - o.1)) idleBlk
  | none => idleBlk

/-- Calendar cycles as a group port sends them, enough for what every owner has to send. DESIGN CHOICE, assumption 133: the cycles in which
no owner has a block are not shown. -/
def calCycles (owners : List (Nat × Nat × List Blk)) : List Blk :=
  let n := (owners.map fun o => if o.2.1 = 0 then 0 else (o.2.2.length + o.2.1 - 1) / o.2.1).foldl max 0
  (span 0 n).flatMap fun i => markerBlk :: (span 1 1023).map (calAt owners i)

/-! ### The mapper (R234 to R236) -/

/-- A block reaches a sub-rate client's mapper: idle control blocks are deleted while others wait; a full buffer of 64 KiB discards blocks
up to the next start of a frame and puts a filler block in their place. With the idle blocks deleted and the blocks discarded so far. -/
def subrateBlk (a : MapTx × Nat × Nat) (b : Blk) : MapTx × Nat × Nat :=
  let (m, del, lost) := a
  if m.skip && !blkStart b then (m, del, lost + 1)
  else if blkIdle b && 4 ≤ m.buf.length then (m, del + 1, lost)
  else if 8192 ≤ m.buf.length then (if m.skip then m else { m with skip := true, buf := m.buf ++ List.replicate 4 errorBlk }, del, lost + 1)
  else ({ m with skip := false, buf := m.buf ++ [b] }, del, lost)

/-- The next 257-bit blocks of a client, `q` of them: fault blocks without PCS lock, the client's own blocks, an idle block where fewer
than four wait. With the idle and the fault blocks inserted. -/
def nextBlocks (lock : Bool) : Nat → List Blk → List Bool × List Blk × Nat × Nat
  | 0, buf => ([], buf, 0, 0)
  | q + 1, buf =>
    if !lock then
      let (bits, r, i, f) := nextBlocks lock q []
      (transcode (List.replicate 4 faultBlk) ++ bits, r, i, f + 1)
    else if 4 ≤ buf.length then
      let (bits, r, i, f) := nextBlocks lock q (buf.drop 4)
      (transcode (buf.take 4) ++ bits, r, i, f)
    else
      let (bits, r, i, f) := nextBlocks lock q buf
      (transcode (List.replicate 4 idleBlk) ++ bits, r, i + 1, f)

/-- The next `need` bits of a client's container, the blocks left over waiting. -/
def packBlocks (lock : Bool) (need : Nat) (m : MapTx) : List Bool × MapTx × Nat × Nat :=
  let (bits, buf, i, f) := nextBlocks lock ((need - m.bits.length + 256) / 257) m.buf
  let all := m.bits ++ bits
  (all.take need, { m with buf := buf, bits := all.drop need }, i, f)

/-! ### The demapper -/

/-- The blocks that some more bits of a container complete; one that lost bits touch is a filler block (R235). -/
def unpackBlocks (lost : Bool) (cont : List Bool) (m : MapRx) : List Blk × MapRx :=
  let all := m.bits ++ cont.drop m.skip
  let q := all.length / 257
  let bad := fun i => lost || (m.lost && i == 0)
  let blocks := (span 0 q).flatMap fun i => if bad i then List.replicate 4 errorBlk else untranscode ((all.drop (257 * i)).take 257)
  let rest := all.drop (257 * q)
  (blocks, ⟨rest, (!rest.isEmpty) && (lost || (m.lost && q == 0)), m.skip - cont.length⟩)

/-- Idle control blocks deleted, at most k of them. -/
def deleteIdle : Nat → List Blk → List Blk
  | 0, l => l
  | _, [] => []
  | k + 1, b :: l => if blkIdle b then deleteIdle k l else b :: deleteIdle (k + 1) l

end Sys2Proof.Machine
end

