-- ==== Sys2Proof/Machine/Overhead.lean ====
section
/-! DEFINITION. The overhead of native frames (spec 10): scrambler, parity, the acceptance filters and defects of a
released stream, block pointers, and what a released frame does (R226 onward). -/

namespace Sys2Proof.Machine

open Sys2Proof

/-! ### Bytes on the line (R223, R224, R241) -/

/-- A big-endian field of a frame. -/
def fbe (bs : List Byte) (off n : Nat) : Nat := unbe (slice bs off n)

/-- The scrambler's state at byte 12: FN[29:0] followed by a 1 (R224). -/
def scrSeed (fn : Nat) : BitVec 31 := BitVec.ofNat 31 (fn % 2 ^ 30 * 2 + 1)

/-- One step of x^31 + x^28 + 1: the state's top bit goes out, the XOR of its top bit and bit 27 comes in. -/
def scrNext (g : BitVec 31) : BitVec 31 := (g <<< 1) ||| (if g.getLsbD 30 != g.getLsbD 27 then 1#31 else 0#31)

/-- The next k output bits, first bit most significant, and the state after them. -/
def scrBits : Nat → BitVec 31 → Nat → Nat × BitVec 31
  | 0, g, acc => (acc, g)
  | k + 1, g, acc => scrBits k (scrNext g) (2 * acc + b2n (g.getLsbD 30))

/-- Scramble or descramble bytes, most significant bit first (R223, R224). -/
def scramble (g : BitVec 31) : List Byte → List Byte
  | [] => []
  | b :: bs =>
    let (k, g) := scrBits 8 g 0
    (b ^^^ BitVec.ofNat 8 k) :: scramble g bs

/-- A frame with its bytes from `keep` on scrambled for its number: 12 in a frame, 3 in a share (R224, R230). -/
def scrFrame (keep fn : Nat) (bs : List Byte) : List Byte := bs.take keep ++ scramble (scrSeed fn) (bs.drop keep)

/-- Even parity over 16-bit words, the first byte of a word its high one (R241). -/
def parity16 : List Byte → Nat
  | a :: b :: r => (a.toNat * 256 + b.toNat) ^^^ parity16 r
  | [a] => a.toNat * 256
  | [] => 0

/-- Even parity over bytes (R230). -/
def parity8 : List Byte → Nat
  | [] => 0
  | b :: r => b.toNat ^^^ parity8 r

/-- Ones among the low k bits. -/
def ones (v : Nat) : Nat → Nat
  | 0 => 0
  | k + 1 => b2n (bit v k) + ones v k

/-- The merge clock's cycle count, 1.25 ns (R246). -/
def State.mclk (s : State) : Nat := s.life.toNat * 4 / 5

/-! ### Frame path state and defects (R248, R253) -/

/-- Frame path of channel n. -/
def State.ohOf (s : State) (n : Nat) : OhSt := s.oh.get (ch4 n)

/-- Replace the frame path of channel n. -/
def setOh (n : Nat) (o : OhSt) (s : State) : State := { s with oh := s.oh.set (ch4 n) o }

/-- Change the filters of channel n. -/
def setFilt (n : Nat) (f : OhFilt) (s : State) : State := setOh n { s.ohOf n with filt := f } s

/-- Gather into the second's latch (R249). -/
def gather (n : Nat) (f : SecAcc → SecAcc) (s : State) : State := setOh n { s.ohOf n with sec := f (s.ohOf n).sec } s

/-- Bits of `DEFECTS` (R251). -/
abbrev dLOS : Nat := 0
abbrev dOOF : Nat := 1
abbrev dLOF : Nat := 2
abbrev dLOM : Nat := 3
abbrev dPLM : Nat := 4
abbrev dUNEQ : Nat := 5
abbrev dTIM : Nat := 6
abbrev dSMM : Nat := 7
abbrev dBDI : Nat := 8
abbrev dSD : Nat := 9
abbrev dEXC : Nat := 10

/-- Whether channel n has a defect. -/
def State.defect (s : State) (n k : Nat) : Bool := bit (s.fld (fOH_RX_STATUS_DEFECTS n)) k

/-- A number with bit k set or clear. -/
def withBit (v k : Nat) (on : Bool) : Nat := if bit v k = on then v else if on then v + 2 ^ k else v - 2 ^ k

/-- Set or clear a defect of channel n: each change makes a record and a set is remembered (R248, R251, R253). `c` is the
client of SMM. -/
def defectRec (n k c : Nat) (on : Bool) (s : State) : State :=
  let s := if on then s.setF (fOH_RX_STATUS_SEEN n) (withBit (s.fld (fOH_RX_STATUS_SEEN n)) k true) else s
  let s := if on then gather n (fun a => { a with flags := withBit a.flags k true }) s else s
  offer (if on then 0x0501 else 0x0502) (bCH n) (k + 65536 * c) 0 s

/-- A defect of channel n is present or not. -/
def setDefect (n k : Nat) (on : Bool) (s : State) : State :=
  if s.defect n k = on then s
  else defectRec n k 0 on (s.setF (fOH_RX_STATUS_DEFECTS n) (withBit (s.fld (fOH_RX_STATUS_DEFECTS n)) k on))

/-! ### Filters of a released stream (R237, R240 to R245) -/

/-- The last value of a run and its length, after one more value. -/
def runOf (val run v : Nat) : Nat × Nat := if v = val && run != 0 then (val, run + 1) else (v, 1)

/-- The accepted SR of a stream served by channel n: in the pair's registers on a pair (R242, R277). -/
def acceptSr (n v : Nat) (s : State) : State :=
  match s.memberOf n with
  | some (p, _) => (s.wr (rMRG_SR_RX p) (BitVec.ofNat 32 v)).setB (fMRG_STATUS_SR_VALID p) true
  | none => (s.wr (rOH_RX_SR n) (BitVec.ofNat 32 v)).setB (fOH_RX_STATUS_SR_VALID n) true

/-- SR after a frame that is not UNCORRECTABLE (R242). -/
def filtSr (n : Nat) (bs : List Byte) (s : State) : State :=
  let f := s.filt n
  let (v, r) := runOf f.srVal f.srRun (fbe bs 17 4)
  let s := setFilt n { f with srVal := v, srRun := sat 3 r } s
  if 3 ≤ r then acceptSr n v s else s

/-- The members a stream reports on: the channel itself, or both members of its pair. -/
def State.streamChs (s : State) (n : Nat) : List Nat :=
  match s.memberOf n with
  | some (p, _) => [s.fld (fMRG_CFG_CH_A p), s.fld (fMRG_CFG_CH_B p)]
  | none => [n]

/-- STAT after a frame that is not UNCORRECTABLE (R240): each of bits 7 to 4 is accepted after five identical frames;
BEI counts for the member of the frame's parity. -/
def filtStat (n fn : Nat) (bs : List Byte) (s : State) : State :=
  let f := s.filt n
  let v := fbe bs 16 1
  let runs := (span 0 4).map fun k =>
    if bit f.statVal (4 + k) = bit v (4 + k) then sat 5 (f.statRuns.getD k 0 + 1) else 1
  let acc := (span 0 4).foldl (fun a k => if 5 ≤ runs.getD k 0 then withBit a (4 + k) (bit v (4 + k)) else a) (s.fld (fOH_RX_ACC_STAT n))
  let bei := v % 16
  let who := match s.streamChs n with | [a, b] => if fn % 2 = 0 then a else b | _ => n
  let s := setFilt n { f with statVal := v, statRuns := runs } s
  let s := each (s.streamChs n) (fun m s => s.setF (fOH_RX_ACC_STAT m) (acc / 16 * 16 + bei)) s
  let s := if bei = 0 then s else gather who (fun a => { a with febe := a.febe + bei }) (countN (cCH who 17) bei s)
  setDefect n dBDI (bit acc 7 || bit acc 6) s

/-- SSM after a frame that is not UNCORRECTABLE (R245). -/
def filtSsm (n : Nat) (bs : List Byte) (s : State) : State :=
  let f := s.filt n
  let (v, r) := runOf f.ssmVal f.ssmRun (fbe bs 27 1)
  let s := setFilt n { f with ssmVal := v, ssmRun := sat 5 r } s
  if 5 ≤ r then each (s.streamChs n) (fun m s => lineInput m (s.setF (fOH_RX_ACC_SSM m) (v % 16))) s else s

/-- PLM and UNEQ follow the accepted PT and `PT_EXP` (R243): PLM ends only with the expected value (R248). -/
def ptDefects (n : Nat) (s : State) : State :=
  match (s.filt n).ptAcc with
  | none => s
  | some v =>
    let s := setDefect n dUNEQ (v == 0) s
    if v = s.fld (fOH_CTRL_PT_EXP n) then setDefect n dPLM false s else if v = 0 then s else setDefect n dPLM true s

/-- PT of a frame: the multiframe has a value while its frames agree (R243). -/
def notePt (n m : Nat) (good : Bool) (bs : List Byte) (s : State) : State :=
  let f := s.filt n
  let f := if m = 0 then { f with pt := none, ptBad := false } else f
  let v := fbe bs 21 1
  let f := if !good then f else match f.pt with
    | none => { f with pt := some v }
    | some w => if w = v then f else { f with ptBad := true }
  setFilt n f s

/-- End of a multiframe for PT: accepted after five with the same value (R243). -/
def endPt (n : Nat) (s : State) : State :=
  let f := s.filt n
  match (if f.ptBad then none else f.pt) with
  | none => setFilt n { f with ptRun := 0 } s
  | some v =>
    let (v, r) := runOf f.ptVal f.ptRun v
    let f := { f with ptVal := v, ptRun := sat 5 r }
    if 5 ≤ r then ptDefects n ((setFilt n { f with ptAcc := some v } s).setF (fOH_RX_ACC_PT n) v) else setFilt n f s

/-- TIM follows the accepted and the expected SAPI while enabled (R244). -/
def timDefect (n : Nat) (s : State) : State :=
  let f := s.filt n
  setDefect n dTIM (s.flag (fOH_CTRL_TIM_EN n) && !f.trcAcc.isEmpty && !decide (f.trcAcc.take 16 = (s.ohOf n).tx.expSapi)) s

/-- The trace byte of a frame. -/
def noteTrace (n m : Nat) (good : Bool) (bs : List Byte) (s : State) : State :=
  let f := s.filt n
  let t := if m = 0 then [] else f.trace
  setFilt n { f with trace := if good && t.length == m then t ++ slice bs 26 1 else t } s

/-- End of a multiframe for the trace: accepted after three identical ones with a valid CRC (R244). -/
def endTrace (n : Nat) (s : State) : State :=
  let f := s.filt n
  let t := f.trace
  if t.length = 256 && fbe t 252 4 == (crc32c (t.take 252)).toNat then
    let r := if decide (t = f.trcPrev) then f.trcRun + 1 else 1
    let f := { f with trcPrev := t, trcRun := sat 3 r }
    timDefect n (setFilt n (if 3 ≤ r then { f with trcAcc := t } else f) s)
  else setFilt n { f with trcPrev := [], trcRun := 0 } s

/-- The slot-map entry of slot j in a set of words (R237). -/
def mapEntry (rd : Reader) (n j : Nat) : Nat :=
  match slotClient rd n j with
  | some c => 32768 + 4096 * rdF rd (fCLIENT_TYPE n c) + c
  | none => 0

/-- The map fragment of a frame (R237). -/
def noteMap (n m : Nat) (good : Bool) (bs : List Byte) (s : State) : State :=
  let f := s.filt n
  let l := if m = 0 then [] else f.map
  let ok := (m = 0 || f.mapOk) && good && l.length == 2 * m
  setFilt n { f with map := if ok then l ++ [fbe bs 22 2, fbe bs 24 2] else l, mapOk := ok } s

/-- Clients whose slots or type differ between a received map and the running receive map (R237). -/
def mapDiff (s : State) (n : Nat) (l : List Nat) : List Nat :=
  ((span 0 512).flatMap fun j =>
    let own := mapEntry s.rx n j
    let got := if bit (l.getD j 0) 15 then l.getD j 0 else 0
    if own = got then [] else (if bit own 15 then [own % 512] else []) ++ (if bit got 15 then [got % 512] else [])).eraseDups

/-- End of a multiframe for the slot map: SMM is set after two disagreeing comparisons and cleared after two agreeing
ones, client by client (R237). -/
def endMap (n : Nat) (s : State) : State :=
  let f := s.filt n
  if !(f.mapOk && f.map.length == 512) then s
  else
    let d := mapDiff s n f.map
    let up := d.filter fun c => f.differ.contains c && !f.smm.contains c
    let down := f.smm.filter fun c => !d.contains c && !f.differ.contains c
    let smm := (f.smm.filter fun c => !down.contains c) ++ up
    let s := setFilt n { f with differ := d, smm := smm } s
    let s := s.setF (fOH_RX_STATUS_DEFECTS n) (withBit (s.fld (fOH_RX_STATUS_DEFECTS n)) dSMM (!smm.isEmpty))
    each down (fun c s => defectRec n dSMM c false s) (each up (fun c s => defectRec n dSMM c true s) s)

/-- Every filter of a released frame; UNCORRECTABLE and MISSING frames neither extend nor break a run. -/
def filters (n fn verdict : Nat) (bs : List Byte) (s : State) : State :=
  let m := fn % 256
  let good := decide (verdict < 2)
  let s := if good then filtSsm n bs (filtStat n fn bs (filtSr n bs s)) else s
  let s := noteMap n m good bs (noteTrace n m good bs (notePt n m good bs s))
  if m = 255 then endMap n (endTrace n (endPt n s)) else s

/-! ### Block pointers (R234) -/

/-- The pointer that follows pointer p on a client of k slots: 65,536 k − 16 bits of 257-bit blocks lie between. -/
def nextPtr (k p : Nat) : Nat := (257 - ((65536 * k - 16 - p) % 257)) % 257

/-- The pointer state of client c of channel n. -/
def setPtr (n c : Nat) (v : Option (Nat × Bool)) (s : State) : State :=
  setOh n { s.ohOf n with ptr := smSet (fun _ => none) (s.ohOf n).ptr c v } s

/-- The pointer of a client is valid or not (`PTR_BAD`). -/
def ptrValid (n c : Nat) (valid : Bool) (s : State) : State :=
  let o := s.ohOf n
  let bad := if valid then o.ptrBad.filter (fun x => x != c) else if o.ptrBad.contains c then o.ptrBad else o.ptrBad ++ [c]
  (setOh n { o with ptrBad := bad } s).setB (fOH_RX_STATUS_PTR_BAD n) (!bad.isEmpty)

/-- The demapper of a client. -/
def State.demap (s : State) (n c : Nat) : MapRx := smGet (fun _ => MapRx.init) (s.ohOf n).maps c

/-- Replace it. -/
def setDemap (n c : Nat) (m : MapRx) (s : State) : State := setOh n { s.ohOf n with maps := smSet (fun _ => MapRx.init) (s.ohOf n).maps c m } s

/-- The demapper takes its block boundaries from pointer p of a client on k slots. -/
def rebase (n c k p : Nat) (s : State) : State :=
  setDemap n c { MapRx.init with skip := p } (ptrValid n c true (setPtr n c (some (nextPtr k p, false)) s))

/-- The pointer of client c in a frame with MFAS 0: two in a row that disagree re-base the demapper on the newer. -/
def pointer (n : Nat) (good : Bool) (pay : List Byte) (c : Nat) (s : State) : State :=
  match clientSlots s.rx n c with
  | [] => s
  | j :: js =>
    let k := js.length + 1
    let p := fbe pay (32 * j) 2
    let st := smGet (fun _ => none) (s.ohOf n).ptr c
    if !good then setPtr n c (st.map fun e => (nextPtr k e.1, e.2)) s
    else if 256 < p then ptrValid n c false (setPtr n c (st.map fun e => (nextPtr k e.1, true)) s)
    else match st with
      | none => rebase n c k p s
      | some (e, odd) =>
        if e = p then ptrValid n c true (setPtr n c (some (nextPtr k p, false)) s)
        else if odd then offer 0x0510 (bCH n) c 0 (rebase n c k p s)
        else setPtr n c (some (nextPtr k e, true)) s

/-- Content blocks of a client go into the running window: line-bound and host-bound (R438). -/
def winAdd (n c a b : Nat) (s : State) : State :=
  let v := smGet (fun _ => (0, 0)) s.win.clients (512 * n + c)
  { s with win := { s.win with clients := smSet (fun _ => (0, 0)) s.win.clients (512 * n + c) (v.1 + a, v.2 + b) } }

/-- The mapper of a client. -/
def State.mapper (s : State) (n c : Nat) : MapTx := smGet (fun _ => MapTx.init) (s.ohOf n).tx.maps c

/-- Replace it. -/
def setMapper (n c : Nat) (m : MapTx) (s : State) : State :=
  let o := s.ohOf n
  setOh n { o with tx := { o.tx with maps := smSet (fun _ => MapTx.init) o.tx.maps c m } } s

/-- Blocks of a client reach its mapper (R234, R236), which counts their content (R438); in an interoperable mode the mapping is that of its
specification. -/
def mapTake (n c : Nat) (bs : List Blk) (s : State) : State :=
  if !s.active n || s.fld (fLINE_MODE_IOP n) ≠ 0 || !(assignedClients s.rd n).contains c then s
  else
  let s := winAdd n c (contents bs) 0 s
  if s.fld (fCLIENT_TYPE n c) ≠ 6 then setMapper n c { s.mapper n c with buf := (s.mapper n c).buf ++ bs } s
  else
    let (m, del, lost) := bs.foldl subrateBlk (s.mapper n c, 0, 0)
    let s := setMapper n c m s
    let s := if del = 0 then s else countN (kClient n c 1) del s
    if lost = 0 then s
    else
      let s := countN (kClient n c 3) lost s
      setOh n { s.ohOf n with subLost := smSet (fun _ => 0) (s.ohOf n).subLost c (smGet (fun _ => 0) (s.ohOf n).subLost c + lost) } s

/-- Blocks of a client come from its host port. A loopback of depth 7 has the demapper's in their place (R453). -/
def mapIn (n : Nat) (e : Nat × List Blk) (s : State) : State := if s.fld (fTST_LOOP_DEPTH n) = 7 then s else mapTake n e.1 e.2 s

/-- The clients that a host port serves, as (channel, client) (R335). -/
def State.portClients (s : State) (h : Nat) : List (Nat × Nat) :=
  ((span 0 4).filter fun n => !s.memberB n).flatMap fun n =>
    ((assignedClients s.rd n).filter fun c => s.flag (fXBAR_CLIENT_VALID n c) && s.fld (fXBAR_CLIENT_LANE n c) == h).map fun c => (n, c)

/-- What the port with head lane h counts of the blocks it delivers: content and fault ordered sets (R434, R438). -/
def blkCount (h : Nat) (bs : List Blk) (s : State) : State :=
  let of := fun b => (bs.filter fun x => decide (x = b)).length
  portCounted (cHP h 7) (of remoteBlk) (portCounted (cHP h 6) (of faultBlk) (portCounted (cHP h 4) (contents bs) s))

/-- Blocks of the port with head lane h go through the crossbar to the mappers of its clients; on a group port by calendar position, once
the calendar is locked (R335 to R337). -/
def portBlocks (h : Nat) (bs : List Blk) (s : State) : State :=
  if s.flag (fHL_CFG_GROUP h) then
    let (at_, cal) := calRun bs (s.lane h).cal
    let s := portLocks h true true cal.lock (s.setLane h { s.lane h with cal := cal })
    each (s.portClients h) (fun e s => mapIn e.1 (e.2, inRun (posRun s.rd e.1 e.2).1 (posRun s.rd e.1 e.2).2 at_) s) s
  else each (s.portClients h) (fun e s => mapIn e.1 (e.2, bs) s) s

/-- Every lane of the port with head lane h has a loopback of depth d (R453). -/
def State.portLoop (s : State) (h d : Nat) : Bool := s.headLane h && (s.portLanes h).all fun l => s.fld (fHL_LOOP_DEPTH l) == d

/-- The port with head lane h transmits: every lane of it is in L0 (R330), and none sends back what it receives (depth 2 of R453). -/
def State.portSends (s : State) (h : Nat) : Bool :=
  s.headLane h && (s.portLanes h).all fun l => s.laneSt l == 4 && s.fld (fHL_LOOP_DEPTH l) != 2

/-- Blocks are on the transmit lanes of the port with head lane h. -/
def showPort (h : Nat) (bs : List Blk) (s : State) : State := { s with out := { s.out with ports := s.out.ports ++ [(h, bs)] } }

/-- Blocks leave through the port with head lane h, and its content blocks are counted (R434). With its lanes looped at depth 1 they are
what its receiver gets (R453). -/
def sendPort (h : Nat) (bs : List Blk) (s : State) : State :=
  if bs.isEmpty || !s.portSends h then s
  else
    let s := portCounted (cHP h 5) (contents bs) (showPort h bs s)
    if s.portLoop h 1 && s.flag (fHP_STATUS_PCS_LOCK h) then portBlocks h bs (blkCount h bs s) else s

/-- What the demappers of channel n have made goes through the crossbar to the host ports (R335): to a port of its own as it is, to a group
port in calendar cycles (R336). A port looped at depth 3 sends what its host sends instead (R453). -/
def portOut (n : Nat) (s : State) : State :=
  let named := s.out.blocks.filter fun e => rdF s.rx (fXBAR_CLIENT_VALID n e.1) == 1
  let lane := fun (e : Nat × List Blk) => rdF s.rx (fXBAR_CLIENT_LANE n e.1)
  each ((named.map lane).eraseDups.filter fun h => s.fld (fHL_LOOP_DEPTH h) != 3) (fun h s =>
    let mine := named.filter fun e => lane e == h
    sendPort h (if s.flag (fHL_CFG_GROUP h) then calCycles (mine.map fun e => ((posRun s.rx n e.1).1, (posRun s.rx n e.1).2, e.2))
      else mine.flatMap Prod.snd) s) { s with out := { s.out with ports := [] } }

/-- The container of client c in a frame goes through its demapper to the host port (R234, R235): fault blocks in its place where they are
due, else without the idle control blocks to be deleted. In a loopback of depth 7 it goes to the client's own mapper as well (R453). -/
def demapClient (n fn : Nat) (lost : Bool) (pay : List Byte) (c : Nat) (s : State) : State :=
  let slots := clientSlots s.rx n c
  if slots.isEmpty || (smGet (fun _ => none) (s.ohOf n).ptr c).isNone then s
  else
    let cont := (bitsOfBytes (takeSlots pay slots)).drop (if fn % 256 = 0 then 16 else 0)
    let (bs, m) := unpackBlocks lost cont (s.demap n c)
    let s := setDemap n c m s
    let due := smGet (fun _ => 0) (s.ohOf n).idleDue c
    let kept := deleteIdle due bs
    let (bs, gone) := if s.clientFault n c then (List.replicate bs.length faultBlk, 0) else (kept, bs.length - kept.length)
    let s := setOh n { s.ohOf n with idleDue := smSet (fun _ => 0) (s.ohOf n).idleDue c (due - gone) } s
    let s := if gone = 0 then s else countN (kClient n c 1) gone s
    let s := winAdd n c 0 (contents bs) { s with out := { s.out with blocks := s.out.blocks ++ [(c, bs)] } }
    if s.fld (fTST_LOOP_DEPTH n) = 7 then mapTake n c bs s else s

/-- Every client of a released payload goes through its demapper; `lost` are those whose content is lost. -/
def demapAll (n fn : Nat) (good : Bool) (lost : List Nat) (plain : List Byte) (s : State) : State :=
  let cs := assignedClients s.rx n
  let s := { s with out := { s.out with blocks := [] } }
  let s := if fn % 256 = 0 then each cs (fun c s => pointer n (good && !lost.contains c) plain c s) s else s
  portOut n (each cs (fun c s => demapClient n fn (lost.contains c) plain c s) s)

/-! ### The payload test pattern (R456) -/

/-- One step of PRBS23, x^23 + x^18 + 1. -/
def prbsNext (g : BitVec 23) : BitVec 23 := (g <<< 1) ||| (if g.getLsbD 22 != g.getLsbD 17 then 1#23 else 0#23)

/-- The next k bits, first most significant, and the state. -/
def prbsBits : Nat → BitVec 23 → Nat → Nat × BitVec 23
  | 0, g, acc => (acc, g)
  | k + 1, g, acc => let g' := prbsNext g; prbsBits k g' (2 * acc + b2n (g'.getLsbD 0))

/-- k bytes of the pattern. -/
def prbsBytes : Nat → BitVec 23 → List Byte × BitVec 23
  | 0, g => ([], g)
  | k + 1, g =>
    let (b, g) := prbsBits 8 g 0
    let (r, g) := prbsBytes k g
    (BitVec.ofNat 8 b :: r, g)

/-- The checker over a frame: reference, error-free run, lock, errors counted, errors in this frame. -/
structure Chk where
  ref : BitVec 23
  run : Nat
  lock : Bool
  errs : Nat
  frame : Nat

/-- One received bit: unlocked, the reference is what was received and 64 bits without error lock it; locked, it runs
free, and 1,024 errors in a frame lose the lock. -/
def chkBit (b : Bool) (c : Chk) : Chk :=
  let g := prbsNext c.ref
  let err := g.getLsbD 0 != b
  if c.lock then
    let f := c.frame + b2n err
    if 1024 ≤ f then { c with ref := g, run := 0, lock := false, errs := c.errs + b2n err, frame := f }
    else { c with ref := g, errs := c.errs + b2n err, frame := f }
  else
    let ref := (c.ref <<< 1) ||| (if b then 1#23 else 0#23)
    let r := if err then 0 else c.run + 1
    { c with ref := ref, run := r, lock := decide (64 ≤ r) }

/-- The checker over bytes, most significant bit first. -/
def chkBytes : List Byte → Chk → Chk
  | [], c => c
  | b :: bs, c => chkBytes bs ((span 0 8).foldl (fun c k => chkBit (b.getLsbD (7 - k)) c) c)

/-- The checker on a released frame's payload. -/
def checkPattern (n : Nat) (pay : List Byte) (s : State) : State :=
  if !s.flag (fTST_PAT_CHK n) then s
  else
    let p := s.pat.get (ch4 n)
    let was := s.flag (fTST_PAT_LOCK n)
    let c := chkBytes pay ⟨p.ref, p.run, was, 0, 0⟩
    let s := { s with pat := s.pat.set (ch4 n) { p with ref := c.ref, run := c.run } }
    let s := (s.setF (fTST_PAT_ERR_ERRORS n) (sat (2 ^ 32 - 1) (s.fld (fTST_PAT_ERR_ERRORS n) + c.errs))).setB (fTST_PAT_LOCK n) c.lock
    if c.lock = was then s else offer 0x0E06 (bCH n) (b2n c.lock) 0 s

/-! ### A released frame (R13, R226, R254, R275, R306) -/

/-- A released payload goes through the pattern checker and the cipher to the demappers of channel n; `lost` are the clients whose content
is filler, `tags` what the frame carries of tags, by slot. A MISSING frame has no content. -/
def releasePayload (n fn verdict : Nat) (lost : List Nat) (tags : List (Nat × List Byte)) (pay : List Byte) (s : State) : State :=
  let s := checkPattern n pay s
  let (plain, s) := rxCipher n fn verdict lost tags pay s
  let s := demapAll n fn (decide (verdict < 2)) (if verdict = 3 then assignedClients s.rx n else lost) plain s
  { s with out := { s.out with bytes := plain } }

/-- A frame leaves the deframer's bypass, or the merge, toward the cipher path and slot demapper of channel n; its HFB, HGC and TAG bytes go
with it (R247, R277). A MISSING frame has none. -/
def releaseFrame (n fn verdict : Nat) (bs : List Byte) (s : State) : State :=
  let m := fn % 256
  let s := hgcIn n (slice bs 40 16) (unitIn n m (decide (verdict < 2)) (slice bs 32 8) s)
  releasePayload n fn verdict [] [(2 * m, slice bs 96 16), (2 * m + 1, slice bs 112 16)] (bs.drop 128) (filters n fn verdict bs s)

end Sys2Proof.Machine
end

