-- ==== Sys2Proof/Machine/Merge.lean ====
section
/-! DEFINITION. The delay-equalised protection merge (spec 11): copies, ledger, decisions, tracked delay, member and pair
states, switching requests, and the pair commands that need no cue. -/

namespace Sys2Proof.Machine

open Sys2Proof

/-! ### State of a pair slot -/

/-- Pair slot p. -/
def State.pairSt (s : State) (p : Nat) : MrgSt := s.mrg.get (pr2 p)

/-- Replace the state of pair slot p. -/
def setPair (p : Nat) (m : MrgSt) (s : State) : State := { s with mrg := s.mrg.set (pr2 p) m }

/-- Number of a member 0 or 1 as an index of a pair of things. -/
def mIdx (m : Nat) : Pr := pr2 m

/-- Status field of member m. -/
abbrev fMember (p m : Nat) : Fld := if m = 0 then fMRG_STATUS_MEMBER_A p else fMRG_STATUS_MEMBER_B p

/-- Store capacity in frames (R260, R375). With the far store lost it bounds the pair's sequence still. -/
def State.pairCap (s : State) (p : Nat) : Nat := if s.flag (fMRG_CFG_STORE p) then (if s.farCount = 0 then 65536 else s.farCount) else 1536

/-- Frame time of a member in 1/65,536 merge-clock cycle (R264), measured over its deliveries; before there are two of them, that of the net
rate, 131,072 / (1.008 N) ns. -/
def State.memberT (s : State) (p m : Nat) : Nat :=
  let x := (s.pairSt p).mem.get (mIdx m)
  let due := 131072 * 65536 / (126 * max 1 (s.fld (fLINE_MODE_NET_RATE (s.memCh p 0))))
  match x.first, x.last with
  | some a, some b => if 0 < fnDiff b.1 a.1 && decide (a.2 < b.2) then (b.2 - a.2) * 65536 / (fnDiff b.1 a.1).toNat else due
  | _, _ => due

/-- Frame time of the pair: member A's while it is ALIGNED, else member B's. -/
def State.frameT (s : State) (p : Nat) : Nat := s.memberT p (if s.fld (fMRG_STATUS_MEMBER_A p) = 1 then 0 else 1)

/-- Least time between two decisions, T x 1,023 / 1,024 rounded up (R266). -/
def State.paceT (s : State) (p : Nat) : Nat := (s.frameT p * 1023 + 1023) / 1024

/-- Counters of pair slot p in the order of R286. -/
abbrev kFRAMES : Nat := 0
abbrev kSUBST : Nat := 3
abbrev kUNC_OUT : Nat := 4
abbrev kMISSING : Nat := 5
abbrev kOVF : Nat := 8
abbrev kHBM_UNC : Nat := 9
abbrev kPATCH : Nat := 10
abbrev kLEDGER_ERR : Nat := 11
abbrev kSWITCH : Nat := 12

/-- Frames that have a stored copy (R262), those of a new sequence among them (R272). -/
def MrgSt.occ (m : MrgSt) : Nat :=
  (((m.mem.p0.store ++ m.mem.p1.store).map fun c => c.fr.fn) ++ m.newSeq.map fun h => h.2.1.fn).eraseDups.length

/-- Show the occupancy (R286). -/
def mrgOcc (p : Nat) (s : State) : State :=
  let o := (s.pairSt p).occ
  let s := s.setF (fMRG_OCC_OCC p) o
  if s.fld (fMRG_OCC_MAX_OCC_MAX p) < o then s.setF (fMRG_OCC_MAX_OCC_MAX p) o else s

/-- Change what the merge keeps of member m. -/
def setMem (p m : Nat) (f : MrgMem → MrgMem) (s : State) : State :=
  let x := s.pairSt p
  setPair p { x with mem := x.mem.set (mIdx m) (f (x.mem.get (mIdx m))) } s

/-- The ledger entry of a frame number, if it is that frame's. -/
def MrgSt.entry (m : MrgSt) (fn : Nat) : Option Ledger :=
  match smGet (fun _ => none) m.ledger (fn % 65536) with
  | some e => if e.fn = fn then some e else none
  | none => none

/-- Write a ledger entry. -/
def setEntry (p : Nat) (e : Ledger) (s : State) : State :=
  let m := s.pairSt p
  sramWrite (stLEDGER p) (e.fn % 65536) (setPair p { m with ledger := smSet (fun _ => none) m.ledger (e.fn % 65536) (some e) } s)

/-- A new entry: no copy has come, the decision is pending. -/
def State.freshEntry (s : State) (p fn : Nat) : Ledger :=
  let place := if s.flag (fMRG_CFG_STORE p) then s.farSlot (fn % max 1 (s.pairCap p)) else fn % 1536
  ⟨fn, place, 3, 3, false, false, 3, none, none, 0, 0, 0, 0⟩

/-- Fields of an entry by member. -/
def Ledger.done (e : Ledger) (m : Nat) : Bool := if m = 0 then e.doneA else e.doneB
def Ledger.verdict (e : Ledger) (m : Nat) : Nat := if m = 0 then e.va else e.vb
def Ledger.time (e : Ledger) (m : Nat) : Nat := if m = 0 then e.ta else e.tb

/-- Member m's copy is there, or is declared MISSING. -/
def Ledger.mark (e : Ledger) (m v t : Nat) : Ledger :=
  if m = 0 then { e with va := v, doneA := true, ta := t } else { e with vb := v, doneB := true, tb := t }

/-- Set a flag of byte 11. -/
def Ledger.flag (e : Ledger) (k : Nat) : Ledger := { e with flags := withBit e.flags k true }

/-- Difference of two 48-bit frame numbers within a capacity. -/
def within (cap a b : Nat) : Bool := decide ((fnDiff a b).natAbs ≤ cap)

/-! ### Switching requests (R279 to R283) -/

/-- The accepted SR bytes and whether they are those of a pair. -/
def State.farPair (s : State) (p : Nat) : Bool := s.flag (fMRG_STATUS_SR_VALID p) && (s.rd (rMRG_SR_RX p)).getLsbD 15

/-- Signal fail of member m is present (R279): the later member's delay decides who is the earlier one. -/
def State.signalFail (s : State) (p m : Nat) : Bool :=
  s.fld (fMember p m) != 1 || s.flag (fFEC_STATUS_EXC (s.memCh p m)) ||
    (s.flag (fMRG_STATUS_STORE_LOST p) && s.flag (fMRG_CFG_STORE p) && (if m = 0 then decide (0 ≤ (s.pairSt p).dq) else decide ((s.pairSt p).dq < 0)))

/-- The far request (R281), a code outside the table taken as none. -/
def State.farReq (s : State) (p : Nat) : List SwReq :=
  let w := (s.rd (rMRG_SR_RX p)).toNat
  let c := bits w 31 28
  if s.farPair p && [0x5, 0x8, 0xB, 0xD, 0xE, 0xF].contains c then [⟨c, bits w 27 27, true⟩] else []

/-- Every request that is present now, local ones first, member A before member B. -/
def State.reqsNow (s : State) (p : Nat) : List SwReq :=
  let home := s.fld (fMRG_CFG_HOME p)
  let op := s.fld (fMRG_OPREQ_OPREQ p)
  (if [0x8, 0xE, 0xF].contains op then [⟨op, home, false⟩] else []) ++
    ((span 0 2).filter (s.signalFail p)).map (fun m => ⟨0xD, m, false⟩) ++
    ((span 0 2).filter fun m => s.flag (fFEC_STATUS_SD (s.memCh p m))).map (fun m => ⟨0xB, m, false⟩) ++
    (if s.flag (fMRG_STATUS_WTR_RUN p) then [⟨0x5, home, false⟩] else []) ++ s.farReq p

/-- The highest request of a list, the one present first among equals. -/
def highest (rs : List SwReq) : Option SwReq :=
  rs.foldl (fun b r => match b with
    | none => some r
    | some x => if x.code < r.code then some r else some x) none

/-- Preferred member and exclusive flag of a request in force (R279, R281). -/
def State.prefOf (s : State) (p : Nat) (r : Option SwReq) : Nat × Bool :=
  let home := match r with
    | some q => if q.far then bits (s.rd (rMRG_SR_RX p)).toNat 13 13 else s.fld (fMRG_CFG_HOME p)
    | none => s.fld (fMRG_CFG_HOME p)
  match r with
  | none => (if s.flag (fMRG_CFG_REVERT p) then home else s.fld (fMRG_STATUS_PREFERRED p), false)
  | some q =>
    if q.code = 0xF then (home, true)
    else if q.code = 0xE then (1 - home, true)
    else if q.code = 0xD || q.code = 0xB then (1 - q.member, false)
    else (1 - home, false)

/-- Set an indication of R283, with its record on a change. -/
def indicate (p k : Nat) (f : Fld) (on : Bool) (s : State) : State :=
  if s.flag f = on then s else offer 0x060B bMRG (2 ^ k + 8 * b2n on) p (s.setB f on)

/-- The condition of CROSSED (R283): one member ABSENT by loss of signal, far BDI only for the other. -/
def State.crossed (s : State) (p : Nat) : Bool :=
  let gone := (span 0 2).filter fun m => s.fld (fMember p m) == 0 && s.defect (s.memCh p m) dLOS
  let stat := s.fld (fOH_RX_ACC_STAT (s.memCh p 0))
  match gone with
  | [m] => bit stat (7 - (1 - m)) && !bit stat (7 - m)
  | _ => false

/-- No wait-to-restore runs, and none is due (R282). -/
def wtrOff (p : Nat) (s : State) : State :=
  ((setPair p { s.pairSt p with moved := false } s).setB (fMRG_STATUS_WTR_RUN p) false).setF (fMRG_WTR_LEFT_LEFT p) 0

/-- Wait-to-restore starts, is superseded, or is not needed (R282). -/
def wtrRule (p : Nat) (s : State) : State :=
  let home := s.fld (fMRG_CFG_HOME p)
  let now := s.reqsNow p
  let fault := now.any fun r => !r.far && r.member == home && (r.code == 0xD || r.code == 0xB)
  let m := s.pairSt p
  if fault then
    let moves := match highest now with | some r => !r.far && r.member == home && (r.code == 0xD || r.code == 0xB) | none => false
    ((setPair p { m with moved := m.moved || moves } s).setB (fMRG_STATUS_WTR_RUN p) false).setF (fMRG_WTR_LEFT_LEFT p) 0
  else if !m.moved && !s.flag (fMRG_STATUS_WTR_RUN p) then s
  else if !s.flag (fMRG_CFG_REVERT p) then wtrOff p s
  else if s.flag (fMRG_STATUS_WTR_RUN p) || now.any (fun r => decide (0x5 < r.code)) then s
  else if s.fld (fMRG_CFG_WTR p) = 0 then wtrOff p s
  else offer 0x060A bMRG 1 p ((s.setB (fMRG_STATUS_WTR_RUN p) true).setF (fMRG_WTR_LEFT_LEFT p) (s.fld (fMRG_CFG_WTR p)))

/-- The SR bytes sent (R280). -/
def srSent (p : Nat) (s : State) : State :=
  let l := highest ((s.pairSt p).reqs.filter fun r => !r.far)
  let b17 := match l with | some r => r.code * 16 + r.member * 8 | none => 0
  let b18 := s.fld (fMRG_STATUS_PREFERRED p) * 128 + s.fld (fMRG_STATUS_EXCLUSIVE p) * 64
  let b19 := 128 + s.fld (fMRG_CFG_STORE p) * 64 + s.fld (fMRG_CFG_HOME p) * 32
  s.wr (rMRG_SR_TX p) (BitVec.ofNat 32 (b17 * 2 ^ 24 + b18 * 2 ^ 16 + b19 * 2 ^ 8))

/-- Every request and indication of a valid pair follows its conditions (R279 to R283). A preference that has come home by any request is no
longer one that a fault of the home member has moved. -/
def mrgEval (p : Nat) (s : State) : State :=
  if s.fld (fMRG_STATUS_STATE p) = 0 then s
  else
    let s := wtrRule p s
    let now := s.reqsNow p
    let kept := (s.pairSt p).reqs.filter fun r => now.contains r
    let reqs := kept ++ now.filter fun r => !kept.contains r
    let s := setPair p { s.pairSt p with reqs := reqs } s
    let f := highest reqs
    let (pref, x) := s.prefOf p f
    let was := s.fld (fMRG_STATUS_PREFERRED p)
    let code := match f with | some r => r.code | none => 0
    let far := match f with | some r => r.far | none => false
    let s := ((s.setF (fMRG_STATUS_PREFERRED p) pref).setB (fMRG_STATUS_EXCLUSIVE p) x).setF (fMRG_STATUS_REQ p) code
    let s := (s.setF (fMRG_STATUS_REQ_MEMBER p) (match f with | some r => r.member | none => 0)).setB (fMRG_STATUS_REQ_FAR p) far
    let s := if pref = s.fld (fMRG_CFG_HOME p) then setPair p { s.pairSt p with moved := false } s else s
    let s := if pref = was then s
      else offer 0x0605 bMRG (pref + 2 * code + 32 * b2n far) p (count (cPAIR p kSWITCH) (s.setB (fMRG_SEEN_SWITCHED p) true))
    let v := s.flag (fMRG_STATUS_SR_VALID p)
    let w := s.rd (rMRG_SR_RX p)
    let s := indicate p 0 (fMRG_STATUS_FAR_UNPAIRED p) (v && !w.getLsbD 15) s
    let s := indicate p 1 (fMRG_STATUS_HOME_MISMATCH p) (v && w.getLsbD 13 != s.flag (fMRG_CFG_HOME p)) s
    let m := s.pairSt p
    let s := if s.crossed p = m.crossCond then s else setPair p { m with crossCond := s.crossed p, crossAt := s.life } s
    srSent p s

/-! ### States of members and pair (R270, R273) -/

/-- Enter a pair state (R273), with the records of the change and of slewing (R288). -/
def pairTo (p st : Nat) (s : State) : State :=
  let old := s.fld (fMRG_STATUS_STATE p)
  if old = st then s
  else
    let s := offer 0x0604 bMRG (st + 8 * old) p (s.setF (fMRG_STATUS_STATE p) st)
    let meas := (s.rd (rMRG_DMEAS p)).toNat % 2 ^ 31
    let s := if st = 3 then offer 0x0608 bMRG (1 + 2 * meas) p s else if old = 3 then offer 0x0608 bMRG (2 * meas) p s else s
    if st = 1 then setFilt (s.memCh p 0) { s.filt (s.memCh p 0) with srRun := 0 } (s.setB (fMRG_STATUS_SR_VALID p) false) else s

/-- DTRACK and DMEAS as signed numbers. -/
def State.dtrack (s : State) (p : Nat) : Int := signed 32 (s.rd (rMRG_DTRACK p)).toNat
def State.dmeas (s : State) (p : Nat) : Int := signed 32 (s.rd (rMRG_DMEAS p)).toNat

/-- The pair state that the members' statuses and the delay give (R273); WAITING comes by `PAIR_WAITING` only. -/
def pairState (p : Nat) (s : State) : State :=
  if s.fld (fMRG_STATUS_STATE p) = 0 then s
  else
    let a := s.fld (fMember p 0) == 1
    let b := s.fld (fMember p 1) == 1
    if a && b then
      if !s.flag (fMRG_STATUS_D_VALID p) then pairTo p 2 s
      else if (s.dtrack p - s.dmeas p).natAbs ≤ s.fld (fMRG_CFG_GUARD p) then pairTo p 4 s else pairTo p 3 s
    else if a || b then pairTo p 2 s else s

/-- Enter a member status (R270). -/
def memberTo (p m st : Nat) (s : State) : State :=
  if s.fld (fMember p m) = st then s
  else mrgEval p (pairState p (offer 0x0603 bMRG (m + 2 * st) p (s.setF (fMember p m) st)))

/-! ### Decisions (R265, R266, R274 to R276) -/

/-- The stored copy of a frame by a member. -/
def MrgSt.copy (x : MrgSt) (m fn : Nat) : Option MCopy := (x.mem.get (mIdx m)).store.find? fun c => c.fr.fn == fn

/-- Words of 8 bytes at some offsets taken from another copy. -/
def patchWords (other : List Byte) : List Nat → List Byte → List Byte
  | [], bs => bs
  | o :: os, bs => patchWords other os (slice bs 0 o ++ slice other o 8 ++ bs.drop (o + 8))

/-- Offsets of uncorrectable words of a stored near-store copy: found by scrub or owner, or put there by `MEM_SFLIP`. -/
def State.badOffsets (s : State) (p m fn place : Nat) : List Nat :=
  (((s.pairSt p).badWords.filter fun b => b.1 == m && b.2.1 == fn).map fun b => b.2.2) ++
    (if 2 ≤ s.flipsIn (stNEAR p) (2 * place + m) then [0] else [])

/-- The copy of member m as it is read out (R276): its bytes and verdict. A word that reads uncorrectable is taken from the other copy, where
that word is good there. -/
def readOut (p m : Nat) (e : Ledger) (c : MCopy) (s : State) : (List Byte × Nat) × State × Ledger :=
  let s := if c.far then s else sramRead (stNEAR p) (2 * e.place + m) s
  match (if c.far then [] else s.badOffsets p m e.fn e.place) with
  | [] => ((c.fr.bytes, c.fr.verdict), s, e)
  | os =>
    let s := each os (fun _ s => sramUnc (stNEAR p) (2 * e.place + m) s) s
    match (s.pairSt p).copy (1 - m) e.fn with
    | some d =>
      let lost := if d.far then [] else s.badOffsets p (1 - m) e.fn e.place
      let good := os.filter fun o => !lost.contains o
      if d.fr.verdict < 2 && !good.isEmpty then
        ((patchWords d.fr.bytes good c.fr.bytes, if good.length = os.length then c.fr.verdict else 2), countN (cPAIR p kPATCH) good.length s, e.flag 4)
      else ((c.fr.bytes, 2), s, e)
    | none => ((c.fr.bytes, 2), s, e)

/-- The member selected for a frame (R274). -/
def State.select (s : State) (p fn : Nat) : Option Nat :=
  let pr := s.fld (fMRG_STATUS_PREFERRED p)
  let el := if s.flag (fMRG_STATUS_EXCLUSIVE p) then [pr] else [pr, 1 - pr]
  let x := s.pairSt p
  match el.find? fun m => match x.copy m fn with | some c => decide (c.fr.verdict < 2) | none => false with
  | some m => some m
  | none => el.find? fun m => (x.copy m fn).isSome

/-- Drop the stored copies of a frame (R262). -/
def dropCopies (p fn : Nat) (s : State) : State :=
  let f : MrgMem → MrgMem := fun m => { m with store := m.store.filter fun c => c.fr.fn != fn }
  let s := setMem p 1 f (setMem p 0 f s)
  let x := s.pairSt p
  setPair p { x with badWords := x.badWords.filter fun b => b.2.1 != fn } s

/-- Decide the next frame at time t (R265, R266, R274, R275) and release it. -/
def decideNext (p t : Nat) (forced : Bool) (s : State) : State :=
  let x := s.pairSt p
  match x.next with
  | none => s
  | some fn =>
    let e := (x.entry fn).getD (s.freshEntry p fn)
    let pr := s.fld (fMRG_STATUS_PREFERRED p)
    let bad := x.badEntries.contains (fn % 65536) || decide (2 ≤ s.flipsIn (stLEDGER p) (fn % 65536))
    let s := if bad then sramUnc (stLEDGER p) (fn % 65536) (count (cPAIR p kLEDGER_ERR) s) else sramRead (stLEDGER p) (fn % 65536) s
    let sel := if bad then none else s.select p fn
    let ((bs, v), s, e) : (List Byte × Nat) × State × Ledger := match sel with
      | none => (([], 3), s, e)
      | some m => match x.copy m fn with
        | some c => readOut p m e c s
        | none => (([], 3), s, e)
    let td := max (t * 65536) (x.lastTd + s.paceT p)
    let e := { e with decision := sel.getD 2, td := (td + 65535) / 65536 }
    let e := if forced then e.flag 2 else e
    let s := setEntry p e s
    let s := count (cPAIR p kFRAMES) s
    let s := match sel with
      | some m => count (cPAIR p (1 + m)) s
      | none => count (cPAIR p kMISSING) s
    let subst := match sel with
      | some m => m != pr && (match x.copy m fn with | some c => decide (c.fr.verdict < 2) | none => false)
      | none => false
    let s := if subst then count (cPAIR p kSUBST) s else s
    let s := if v = 2 then count (cPAIR p kUNC_OUT) s else s
    let s := if 2 ≤ v then s.setB (fMRG_SEEN_FRAME_LOST p) true else s
    let y := s.pairSt p
    let s := setPair p { y with next := some ((fn + 1) % 2 ^ 48), lastTd := td,
                                badEntries := y.badEntries.filter fun i => i != fn % 65536 } s
    let s := if !forced && 0 < (s.pairSt p).forced then
        offer 0x0607 bMRG (2 * (s.pairSt p).occ) p (setPair p { s.pairSt p with forced := 0 } s) else s
    mrgEval p (releaseFrame (s.memCh p 0) fn v bs (mrgOcc p (dropCopies p fn s)))

/-- Declare member m's copy of a frame MISSING. -/
def declare (p m fn : Nat) (s : State) : State :=
  let e := ((s.pairSt p).entry fn).getD (s.freshEntry p fn)
  if e.done m then s else setEntry p (e.mark m 3 0) s

/-- Without a valid D, the other member's copy is not waited for: the release follows the member that leads (R271). -/
def State.unwaited (s : State) (p m : Nat) : Bool :=
  !s.flag (fMRG_STATUS_D_VALID p) && (s.fld (fMember p m) != 1 || (s.pairSt p).lead == some (1 - m))

/-- Decide frames in order for as long as both copies have arrived or been declared MISSING (R265, R266). -/
def settlePair (p t : Nat) : Nat → State → State
  | 0, s => s
  | k + 1, s =>
    let x := s.pairSt p
    match x.next with
    | none => s
    | some fn => match x.entry fn with
      | none => s
      | some e =>
        let s := if e.doneA && !e.doneB && s.unwaited p 1 then declare p 1 fn s
          else if e.doneB && !e.doneA && s.unwaited p 0 then declare p 0 fn s else s
        match (s.pairSt p).entry fn with
        | some e => if e.doneA && e.doneB && e.decision == 3 then settlePair p t k (decideNext p t false s) else s
        | none => s

/-- Decisions that may follow now. -/
def settleNow (p t : Nat) (s : State) : State := settlePair p t ((s.pairSt p).ledger.length + 1) s

/-- Member m is OUT_OF_RANGE, D held at the delay the capacity allows (R268, R271): `bLater` tells which member is the later one. -/
def outOfRange (p m : Nat) (bLater : Bool) (s : State) : State :=
  let d : Int := s.pairCap p * s.frameT p
  let d := if bLater then d else 0 - d
  let s := (setPair p { s.pairSt p with dq := d } s).setB (fMRG_STATUS_D_VALID p) true
  memberTo p m 3 ((setMem p m (fun x => { x with inTime := 0 }) s).wr (rMRG_DTRACK p) (BitVec.ofInt 32 (d / 65536)))

/-- The later member of a frame that is forced: the one whose copy has not come, or by D where neither or both have. -/
def MrgSt.laterOf (x : MrgSt) (fn : Nat) : Nat :=
  let byD := if 0 ≤ x.dq then 1 else 0
  match x.entry fn with
  | some e => if e.va != 3 && e.vb == 3 then 1 else if e.va == 3 && e.vb != 3 then 0 else byD
  | none => byD

/-- Force the oldest undecided frame (R268). -/
def forceNext (p t : Nat) (s : State) : State :=
  let x := s.pairSt p
  match x.next with
  | none => s
  | some fn =>
    let s := declare p 1 fn (declare p 0 fn s)
    let s := (count (cPAIR p kOVF) s).setB (fMRG_SEEN_OVERFLOW p) true
    let s := if x.forced = 0 then offer 0x0607 bMRG (1 + 2 * x.occ) p s else s
    let s := setPair p { s.pairSt p with forced := x.forced + 1 } s
    let s := decideNext p t true s
    if 256 ≤ x.forced + 1 && s.fld (fMember p (x.laterOf fn)) == 1 then outOfRange p (x.laterOf fn) (x.laterOf fn == 1) s else s

/-- Decide every frame up to a number, or every frame with a stored copy. -/
def forceUpTo (p t fn : Nat) : Nat → State → State
  | 0, s => s
  | k + 1, s => match (s.pairSt p).next with
    | some nx => if 0 ≤ fnDiff fn nx then forceUpTo p t fn k (forceNext p t s) else s
    | none => s

/-- Decide what is stored, each missing copy declared MISSING (R272, R273). -/
def flushPair (p t : Nat) : Nat → State → State
  | 0, s => s
  | k + 1, s =>
    let x := s.pairSt p
    match x.next with
    | none => s
    | some fn => if x.occ = 0 then s else flushPair p t k (decideNext p t false (declare p 1 fn (declare p 0 fn s)))

/-! ### The tracked delay (R264, R267, R271) -/

/-- Both copies of a frame have come, late or not: the actual delay is known, and D moves toward it. -/
def measure (p : Nat) (d : Int) (s : State) : State :=
  let s := s.wr (rMRG_DMEAS p) (BitVec.ofInt 32 d)
  let x := s.pairSt p
  let goal := d * 65536
  let held := s.fld (fMember p 0) = 3 || s.fld (fMember p 1) = 3
  let dq : Int :=
    if !s.flag (fMRG_STATUS_D_VALID p) then
      match x.lead with
      | some 0 => if d < 0 then goal else 0
      | some _ => if 0 < d then goal else 0
      | none => goal
    else if held then x.dq
    else
      let step : Int := s.frameT p / 1024
      x.dq + max (0 - step) (min step (goal - x.dq))
  let s := (setPair p { x with dq := dq } s).setB (fMRG_STATUS_D_VALID p) true
  mrgEval p (pairState p (s.wr (rMRG_DTRACK p) (BitVec.ofInt 32 ((dq + 32768) / 65536))))

/-- The delay of B behind A by the numbers and times of the members' latest deliveries, in merge-clock cycles (R271). -/
def State.numDelay (s : State) (p : Nat) : Option Int :=
  match (s.pairSt p).mem.p0.last, (s.pairSt p).mem.p1.last with
  | some a, some b => some ((b.2 : Int) - a.2 - fnDiff b.1 a.1 * (s.frameT p : Int) / 65536)
  | _, _ => none

/-- A member's delivery ends its absence or its other sequence (R270, R271): while the other delivers, the delay is known from the
numbers; a valid D is kept, and a delay beyond the store makes the member OUT_OF_RANGE from the start. -/
def joinPair (p m : Nat) (s : State) : State :=
  let o := s.fld (fMember p (1 - m))
  match (if o = 1 || o = 3 then s.numDelay p else none) with
  | none => memberTo p m 1 s
  | some d =>
    let s := if s.flag (fMRG_STATUS_D_VALID p) then s.wr (rMRG_DMEAS p) (BitVec.ofInt 32 d) else measure p d s
    if s.pairCap p * s.frameT p < d.natAbs * 65536 then outOfRange p m (decide (0 < d)) s else memberTo p m 1 s

/-- The predicted verdict time of member m's copy of a frame, in 1/65,536 cycle (R264): from its own last verdict while it delivers, else from
the other's copy and D. DEDUCED, assumption 46: while the pair is SLEWING the later member is predicted by D, since its own verdicts would
never make its copies late, as R267 has them. -/
def State.predicted (s : State) (p m fn : Nat) : Option Int :=
  let x := s.pairSt p
  let own : Option Int := (x.mem.get (mIdx m)).last.map fun l => (l.2 : Int) * 65536 + fnDiff fn l.1 * (s.memberT p m : Int)
  let d : Int := if !s.flag (fMRG_STATUS_D_VALID p) then 0 else if m = 1 then x.dq else 0 - x.dq
  let via : Option Int := match x.entry fn with
    | some e => if e.done (1 - m) && e.verdict (1 - m) != 3 then some ((e.time (1 - m) : Int) * 65536 + d) else none
    | none => none
  if s.fld (fMRG_STATUS_STATE p) = 3 && 0 ≤ d && via.isSome then via
  else if s.fld (fMember p m) = 1 && own.isSome then own
  else if via.isSome then via else own

/-! ### Copies (R262, R263, R268 to R272) -/

/-- A copy of a member is too late (R269). -/
def tooLate (p m fn : Nat) (s : State) : State :=
  let s := (count (cPAIR p (6 + m)) s).setB (fMRG_SEEN_LATE_COPY p) true
  let s := setMem p m (fun x => { x with inTime := 0 }) s
  match (s.pairSt p).entry fn with
  | some e => setEntry p (e.flag m) s
  | none => s

/-- The 17,024-byte slot's written part (R367). -/
def farImage (m : Nat) (fr : RxFrame) (t : Nat) : List Byte :=
  let b := slice fr.bytes 0 16512 ++ le 6 fr.fn ++ [BitVec.ofNat 8 (m + 4 * fr.verdict), 0#8] ++ le 4 t ++ List.replicate 48 0#8
  b ++ le 4 (crc32c b).toNat

/-- A copy of a pair on the far store is early: its decision lies more than 4 us ahead, and HBM is to hold it (R261). -/
def State.farCopy (s : State) (p m : Nat) (e : Ledger) : Bool :=
  let x := s.pairSt p
  s.flag (fMRG_CFG_STORE p) && s.flag (fMRG_STATUS_D_VALID p) && !e.done (1 - m) &&
    (if m = 0 then decide (3200 * 65536 < x.dq) else decide (x.dq < -3200 * 65536))

/-- A copy goes into the store (R261, R262): to HBM where the far store is used and its decision is not near. -/
def storeCopy (p m : Nat) (fr : RxFrame) (t : Nat) (e : Ledger) (s : State) : State :=
  let far := s.farCopy p m e
  let s := if far then hbmWrite (17024 * e.place) (farImage m fr t) s else sramWrite (stNEAR p) (2 * (fr.fn % 1536) + m) s
  mrgOcc p (setMem p m (fun x => { x with store := x.store ++ [⟨fr, far⟩], inTime := x.inTime + 1 }) s)

/-- The entry for a copy of frame fn after the three cases of R263: none where the copy is too late. -/
def entryFor (p fn t : Nat) (s : State) : Option Ledger × State :=
  match smGet (fun _ => none) (s.pairSt p).ledger (fn % 65536) with
  | none => (some (s.freshEntry p fn), s)
  | some e =>
    if e.fn = fn then (some e, s)
    else if fnDiff fn e.fn < 0 then (none, s)
    else if e.decision ≠ 3 then (some (s.freshEntry p fn), s)
    else
      let s := match (s.pairSt p).next with
        | some nx => forceUpTo p t e.fn ((fnDiff e.fn nx).toNat + 1) s
        | none => s
      (some (s.freshEntry p fn), s)

/-- The BIP errors of member m's copy of the frame before, now known, are recorded for counting (R263). -/
def noteBip (p m : Nat) (fr : RxFrame) (s : State) : State :=
  match fr.bip, (s.pairSt p).entry ((fr.fn + 2 ^ 48 - 1) % 2 ^ 48) with
  | some b, some e => setEntry p (if m = 0 then { e with bipA := some b } else { e with bipB := some b }) s
  | _, _ => s

/-- A full store makes room (R268, R272): the oldest held copy of another sequence goes first, then the oldest undecided frame is forced. -/
def makeRoom (p t : Nat) (s : State) : State :=
  let x := s.pairSt p
  if x.newSeq.isEmpty then forceNext p t s else setPair p { x with newSeq := x.newSeq.drop 1 } s

/-- A member leaves OUT_OF_RANGE when 256 consecutive copies have come in time (R268). -/
def backInRange (p m : Nat) (s : State) : State :=
  if s.fld (fMember p m) = 3 && decide (256 ≤ ((s.pairSt p).mem.get (mIdx m)).inTime) then memberTo p m 1 s else s

/-- A copy of the pair's sequence (R262 to R269). An early copy for a far store that is lost is MISSING (R285). -/
def takeCopy (p m : Nat) (fr : RxFrame) (t : Nat) (s : State) : State :=
  let s := noteBip p m fr s
  let lone := s.fld (fMember p (1 - m)) != 1
  let x := s.pairSt p
  let s := setPair p { x with next := some (x.next.getD fr.fn), oldT := t,
                              lead := if lone && !s.flag (fMRG_STATUS_D_VALID p) then some m else x.lead } s
  let s := setMem p m (fun x => { x with first := some (x.first.getD (fr.fn, t)), last := some (fr.fn, t), foreign := 0 }) s
  let st := s.fld (fMember p m)
  let s := if st = 1 || st = 3 then s else joinPair p m s
  let (e, s) := entryFor p fr.fn t s
  let byNum := fun (s : State) => match (if lone then none else s.numDelay p) with
    | some d => measure p d s
    | none => s
  let other := fun (e : Ledger) (s : State) =>
    if e.verdict (1 - m) != 3 then measure p (if m = 1 then (t : Int) - e.ta else (e.tb : Int) - t) s
    else if e.decision = 3 && fnDiff fr.fn (((s.pairSt p).next).getD 0) < 0 then byNum s else s
  match e with
  | none => byNum (tooLate p m fr.fn s)
  | some e =>
    let gone := match (s.pairSt p).next with | some nx => decide (fnDiff fr.fn nx < 0) | none => false
    if e.decision ≠ 3 || e.done m || gone then other e (tooLate p m fr.fn s)
    else
      let full := s.pairCap p ≤ (s.pairSt p).occ && !((s.pairSt p).next == some fr.fn)
      let s := if full then makeRoom p t s else s
      let gone := match (s.pairSt p).next with | some nx => decide (fnDiff fr.fn nx < 0) | none => false
      if gone then tooLate p m fr.fn s
      else if s.flag (fMRG_STATUS_STORE_LOST p) && s.farCopy p m e then
        settleNow p t (setEntry p ((e.mark m 3 t).flag 3) (count (cPAIR p kHBM_UNC) s))
      else
        let s := setEntry p (e.mark m fr.verdict t) (storeCopy p m fr t e s)
        backInRange p m (settleNow p t (other e s))

/-- The merge moves to the sequence of held copies, `HOME`'s where both members hold some (R272): what is left of the old one is decided,
then the held copies count. -/
def moveSeq (p t : Nat) (s : State) : State :=
  let held := (s.pairSt p).newSeq
  let home := s.fld (fMRG_CFG_HOME p)
  match (match held.find? fun h => h.1 == home with | some h => some h | none => held.head?) with
  | none => s
  | some (_, fr, _) =>
    let s := setPair p { s.pairSt p with newSeq := [] } s
    let s := flushPair p t (s.pairCap p + 1) s
    let clear : MrgMem → MrgMem := fun m => { m with first := none, foreign := 0 }
    let s := setMem p 1 clear (setMem p 0 clear s)
    let old := (s.pairSt p).next
    let s := setPair p { s.pairSt p with oldNext := old, next := some fr.fn } s
    let s := if old.isSome then offer 0x060D bMRG fr.fn p s else s
    each (held.filter fun h => within (s.pairCap p) h.2.1.fn fr.fn) (fun h s => takeCopy p h.1 h.2.1 h.2.2 s) s

/-- A copy of another sequence (R270, R272): held in the store, which keeps the newest where it is full. -/
def foreignCopy (p m : Nat) (fr : RxFrame) (t : Nat) (s : State) : State :=
  let s := setMem p m (fun x => { x with foreign := x.foreign + 1, first := none, last := some (fr.fn, t) }) s
  let x := s.pairSt p
  let held := x.newSeq ++ [(m, fr, t)]
  let s := mrgOcc p (setPair p { x with newSeq := if s.pairCap p < ({ x with newSeq := held } : MrgSt).occ then held.drop 1 else held } s)
  let follows := (x.newSeq.any fun h => h.1 == 1 - m && within (s.pairCap p) fr.fn h.2.1.fn)
  let stale := decide ((x.oldT + s.pairCap p * s.frameT p / 65536) < t)
  if s.fld (fMember p (1 - m)) = 0 || follows || stale then moveSeq p t s
  else if 256 ≤ (x.mem.get (mIdx m)).foreign then memberTo p m 2 s else s

/-- A copy of the sequence that the merge has left is too late; a member that goes on with it becomes MISALIGNED (R270, R272). -/
def oldCopy (p m : Nat) (fr : RxFrame) (t : Nat) (s : State) : State :=
  let s := setMem p m (fun x => { x with foreign := x.foreign + 1, last := some (fr.fn, t) }) (tooLate p m fr.fn s)
  if 256 ≤ ((s.pairSt p).mem.get (mIdx m)).foreign then memberTo p m 2 s else s

/-- A member is ABSENT (R270): no frames released, channel not ACTIVE, or receiver not tracking. -/
def State.absent (s : State) (p m : Nat) : Bool :=
  let n := s.memCh p m
  !s.flag (fOH_RX_STATUS_FN_VALID n) || !s.active n || s.fld (fLINE_RX_STATUS_STATE n) != 8

/-- A copy beyond the store capacity, but within the ledger's 65,536 frames, of a member that is OUT_OF_RANGE, or joins while the other delivers:
its delay exceeds the store (R271). DEDUCED, assumption 129: R270 alone would make it another sequence. -/
def State.outRanged (s : State) (p m fn nx : Nat) : Bool :=
  within 65536 fn nx && (s.fld (fMember p m) == 3 || (s.fld (fMember p m) == 0 && s.fld (fMember p (1 - m)) == 1))

/-- Such a copy is too late, or too early for the store. -/
def rangeCopy (p m : Nat) (fr : RxFrame) (t nx : Nat) (s : State) : State :=
  let s := setMem p m (fun x => { x with first := some (x.first.getD (fr.fn, t)), last := some (fr.fn, t), inTime := 0 }) s
  let s := if s.fld (fMember p m) = 3 then s else joinPair p m s
  if fnDiff fr.fn nx < 0 then tooLate p m fr.fn s else s

/-- A copy reaches a merge that follows a sequence. -/
def routeCopy (p m : Nat) (fr : RxFrame) (t : Nat) (s : State) : State :=
  let old := match (s.pairSt p).oldNext with
    | some o => within (s.pairCap p) fr.fn o && s.fld (fMember p m) != 2
    | none => false
  match (s.pairSt p).next with
  | none => takeCopy p m fr t s
  | some nx =>
    if within (s.pairCap p) fr.fn nx then takeCopy p m fr t s
    else if old then oldCopy p m fr t s
    else if s.outRanged p m fr.fn nx then rangeCopy p m fr t nx s
    else foreignCopy p m fr t s

/-- Copies of the other member that waited for `HOME`'s first one count, then that one: decisions start with the first of them where both
are of one sequence (R273), else with `HOME`'s (R272). -/
def firstCopy (p m : Nat) (fr : RxFrame) (t : Nat) (s : State) : State :=
  let held := (s.pairSt p).newSeq
  let start := match held with
    | h :: _ => if within (s.pairCap p) fr.fn h.2.1.fn then h.2.1.fn else fr.fn
    | [] => fr.fn
  let s := setPair p { s.pairSt p with newSeq := [], next := some start } s
  let s := if held.isEmpty || start != fr.fn then s else routeCopy p m fr t s
  let s := each held (fun h s => routeCopy p h.1 h.2.1 h.2.2 s) s
  if held.isEmpty || start != fr.fn then routeCopy p m fr t s else s

/-- A member's copy reaches the merge. With no sequence followed, copies of the other member wait while `HOME` delivers too, for at most the 8
frame times of R273, so that its sequence is taken where the two differ (R272). -/
def mergeCopy (p m : Nat) (fr : RxFrame) (t : Nat) (s : State) : State :=
  let x := s.pairSt p
  let home := s.fld (fMRG_CFG_HOME p)
  if x.next.isSome then routeCopy p m fr t s
  else if m ≠ home && !s.absent p home && decide (x.newSeq.length < 8) then setPair p { x with newSeq := x.newSeq ++ [(m, fr, t)] } s
  else firstCopy p m fr t s

/-- Members that stopped delivering become ABSENT; what they hold of another sequence goes, and a new sequence of the other one is then
followed (R270, R272). -/
def mrgRefresh (p : Nat) (s : State) : State :=
  if s.fld (fMRG_STATUS_STATE p) = 0 then s
  else
    let out := (span 0 2).filter (s.absent p)
    let gone := out.filter fun m => s.fld (fMember p m) != 0
    let s := each gone (fun m s => memberTo p m 0 (setMem p m (fun x => { x with first := none, foreign := 0, inTime := 0 }) s)) s
    let s := setPair p { s.pairSt p with newSeq := (s.pairSt p).newSeq.filter fun h => !out.contains h.1 } s
    let s := if out.isEmpty then s else moveSeq p ((s.pairSt p).lastTd / 65536) s
    mrgEval p s

/-- The pair of a channel, if any, follows a change on it. -/
def memberChanged (n : Nat) (s : State) : State :=
  match s.memberOf n with
  | some (p, _) => mrgRefresh p s
  | none => s

/-- `STORE_LOST` of a pair is set or clear (R285): with the far store lost, every early copy in it is MISSING. -/
def storeFlag (p : Nat) (lost : Bool) (s : State) : State :=
  if s.flag (fMRG_STATUS_STORE_LOST p) = lost then s
  else
    let s := offer 0x0606 bMRG (b2n lost) p (s.setB (fMRG_STATUS_STORE_LOST p) lost)
    let x := s.pairSt p
    let drop := fun (m : Nat) (s : State) =>
      each ((x.mem.get (mIdx m)).store.filter fun c => c.far) (fun c s =>
        let s := match (s.pairSt p).entry c.fr.fn with
          | some e => setEntry p (e.mark m 3 (e.time m)) s
          | none => s
        count (cPAIR p kHBM_UNC) (setMem p m (fun y => { y with store := y.store.filter fun d => d.fr.fn != c.fr.fn }) s)) s
    mrgEval p (mrgOcc p (if lost then drop 1 (drop 0 s) else s))

/-- The far store is lost or regained, for a pair that runs on it. -/
def storeLost (p : Nat) (lost : Bool) (s : State) : State :=
  if s.fld (fMRG_STATUS_STATE p) ≠ 0 && s.flag (fMRG_CFG_STORE p) then storeFlag p lost s else s

/-- A cue has moved a running pair to the near store: that ends `STORE_LOST`, provided the delay fits (R285). -/
def storeNear (p : Nat) (s : State) : State :=
  if (s.pairSt p).dq.natAbs ≤ 1536 * s.frameT p then storeFlag p false s else s

/-- `MRG_GLOBAL` (R286). -/
def mrgGlobal (s : State) : State :=
  let used := fun p => s.flag (fMRG_CFG_VALID p) && s.flag (fMRG_CFG_STORE p)
  (s.setB fMRG_GLOBAL_FAR_USED (used 0 || used 1)).setB fMRG_GLOBAL_FAR_PAIR (!used 0 && used 1)

/-- The merge takes up a valid pair (R12, R273): both members start ABSENT, the state is WAITING. -/
def mergeStart (p : Nat) (s : State) : State :=
  let s := setPair p MrgSt.init s
  let s := (((s.unreg (rMRG_STATUS p)).unreg (rMRG_DTRACK p)).unreg (rMRG_DMEAS p)).unreg (rMRG_OCC p)
  let s := s.setF (fMRG_STATUS_PREFERRED p) (s.fld (fMRG_CFG_HOME p))
  storeLost p (!s.flag fMEM_STATUS_HBM_READY) (mrgEval p (pairTo p 1 s))

/-- A pair comes into force (R255): member B's framer stops. The merge takes it up at once, or when `PD28` has started (R256). -/
def pairStart (p : Nat) (s : State) : State :=
  let a := s.memCh p 0
  let b := s.memCh p 1
  let s := setFilt a OhFilt.init (setOh b { s.ohOf b with tx := { (s.ohOf b).tx with running := false }, toMerge := [] } s)
  let s := setOh a { s.ohOf a with toMerge := [] } s
  let s := mrgGlobal (offer 0x0601 bMRG (a + 4 * b + 16 * s.fld (fMRG_CFG_STORE p)) p s)
  if s.pdOn 28 then mergeStart p s else s

/-- The first number of a framer that starts (R225). -/
def State.firstFn (s : State) : Nat := s.life.toNat / 32 % 2 ^ 48

/-- A pair of members a and b is deleted (R255): member B's framer starts again, member A goes on unpaired. -/
def pairStop (p a b : Nat) (s : State) : State :=
  let s := pairTo p 0 (setPair p MrgSt.init s)
  let s := each [rMRG_STATUS p, rMRG_DTRACK p, rMRG_DMEAS p, rMRG_OCC p, rMRG_SR_TX p, rMRG_SR_RX p, rMRG_WTR_LEFT p]
    (fun r (s : State) => s.unreg r) s
  let tx := (s.ohOf b).tx
  let s := setOh b { s.ohOf b with tx := { tx with running := s.active b, fn := s.firstFn }, toMerge := [] } s
  let s := setFilt a OhFilt.init (setOh a { s.ohOf a with toMerge := [] } s)
  mrgGlobal (offer 0x0602 bMRG 0 p s)

/-! ### Event rows -/

/-- The merge works on pair slot p: `PD28` is powered, the slot is valid (R12, R273). -/
def State.mergeUp (s : State) (p : Nat) : Bool := s.pdOn 28 && s.fld (fMRG_STATUS_STATE p) != 0

/-- `MERGE_COPY_ARRIVAL` (R262): the oldest frame that member m has delivered reaches the merge with its verdict in
merge-clock cycle t. `bad` are SRAM words of stored near copies that read uncorrectable now, as member, frame number and
byte offset; `badEntry` tells that the frame's ledger entry does. A merge that is not powered takes no copy (R12). -/
def execMergeCopyArrival (p : Pr) (m : Pr) (t : Nat) (bad : List (Nat × Nat × Nat)) (badEntry : Bool) (s : State) : Host.Outcome State Fault Refusal :=
  let n := s.memCh p m
  match (s.ohOf n).toMerge with
  | [] => ok s
  | fr :: rest =>
    let s := setOh n { s.ohOf n with toMerge := rest } s
    if !s.mergeUp p then ok s
    else
      let x := s.pairSt p
      let s := setPair p { x with badWords := x.badWords ++ bad, badEntries := if badEntry then x.badEntries ++ [fr.fn % 65536] else x.badEntries } s
      ok (mergeCopy p m fr t s)

/-- `COPY_DECLARED_MISSING` (R264): member m's copy of a frame has not come by its predicted time plus `GUARD`. -/
def execCopyDeclaredMissing (p : Pr) (m : Pr) (fn t : Nat) (s : State) : Host.Outcome State Fault Refusal :=
  let x := s.pairSt p
  match x.next, s.predicted p m fn with
  | some nx, some w =>
    let e := (x.entry fn).getD (s.freshEntry p fn)
    if s.mergeUp p && 0 ≤ fnDiff fn nx && decide (fnDiff fn nx < s.pairCap p) && !e.done m &&
        decide (w + (s.fld (fMRG_CFG_GUARD p) : Int) * 65536 ≤ (t : Int) * 65536) then
      ok (settleNow p t (declare p m fn s))
    else ok s
  | _, _ => ok s

/-- `FAR_STORE_PREFETCH` (R261, R367, R371): a far-store copy is read back; `errs` are the devices' errors by codeword. An
uncorrectable one, or one whose number or CRC disagrees, is MISSING. -/
def execFarStorePrefetch (p : Pr) (m : Pr) (fn : Nat) (errs : List (Nat × BitVec 256)) (s : State) : Host.Outcome State Fault Refusal :=
  let x := s.pairSt p
  match x.copy m fn, x.entry fn with
  | some c, some e =>
    if !c.far || !s.mergeUp p then ok s
    else
      let ((bs, good), s) := hbmRead errs (17024 * e.place) 16576 s
      let whole := good && fld bs 16512 6 == fn && fld bs 16572 4 == (crc32c (bs.take 16572)).toNat
      let rest := fun (y : MrgMem) => y.store.filter fun d => d.fr.fn != fn
      if whole then
        ok (setMem p m (fun y => { y with store := rest y ++ [⟨{ c.fr with bytes := bs.take 16512 }, false⟩] }) s)
      else
        let s := setMem p m (fun y => { y with store := rest y }) (count (cPAIR p kHBM_UNC) s)
        ok (settleNow p ((s.pairSt p).lastTd / 65536) (mrgOcc p (setEntry p ((e.mark m 3 (e.time m)).flag 3) s)))
  | _, _ => ok s

/-- `LEDGER_ENTRY_RETIRED` (R263): 1 ms after its decision. -/
def execLedgerEntryRetired (p : Pr) (fn t : Nat) (s : State) : Host.Outcome State Fault Refusal :=
  match (s.pairSt p).entry fn with
  | some e =>
    if e.decision ≠ 3 && decide (e.td + 800000 ≤ t) then
      ok (setPair p { s.pairSt p with ledger := smDel (s.pairSt p).ledger (fn % 65536) } s)
    else ok s
  | none => ok s

/-- `PAIR_WAITING` (R273): no member has been ALIGNED for 8 frame times; what is stored is decided first. -/
def execPairWaiting (p : Pr) (s : State) : Host.Outcome State Fault Refusal :=
  if !s.mergeUp p || s.fld (fMRG_STATUS_STATE p) < 2 || s.fld (fMember p 0) = 1 || s.fld (fMember p 1) = 1 then ok s
  else
    let s := flushPair p ((s.pairSt p).lastTd / 65536) (s.pairCap p + 1) (setPair p { s.pairSt p with newSeq := [] } s)
    ok (mrgEval p (pairTo p 1 (setPair p { s.pairSt p with next := none } s)))

/-- `WTR_EXPIRY` (R282). -/
def execWtrExpiry (p : Pr) (s : State) : Host.Outcome State Fault Refusal :=
  if !s.flag (fMRG_STATUS_WTR_RUN p) then ok s
  else
    let s := (s.setB (fMRG_STATUS_WTR_RUN p) false).setF (fMRG_WTR_LEFT_LEFT p) 0
    ok (mrgEval p (offer 0x060A bMRG 0 p (setPair p { s.pairSt p with moved := false } s)))

/-- `CROSSED_TIMER` (R283): the condition has been present, or absent, for 1 s. -/
def execCrossedTimer (p : Pr) (s : State) : Host.Outcome State Fault Refusal :=
  let x := s.pairSt p
  if s.fld (fMRG_STATUS_STATE p) = 0 || s.life.toNat < x.crossAt.toNat + 1000000000 then ok s
  else
    let s := if x.crossCond && !s.flag (fMRG_STATUS_CROSSED p) then s.setB (fMRG_SEEN_CROSSED_SEEN p) true else s
    ok (indicate p 2 (fMRG_STATUS_CROSSED p) x.crossCond s)

/-! ### Commands (R287) -/

/-- A pair slot parameter is bad. -/
def badPair (ps : List Byte) : Bool × Nat := (miss ps 0 1 || decide (1 < fld ps 0 1), 0)

/-- `PAIR_REQUEST` (R287): writes `OPREQ`. -/
def cmdPairRequest : Cmd where
  code := 0x0302
  access := accOpRem
  params := fun ps _ => firstBad [badPair ps, (miss ps 1 1 || !([0x0, 0x8, 0xE, 0xF].contains (fld ps 1 1)), 1)]
  touches := fun q s =>
    let p := fld q.params 0 1
    resPAIR p :: (if s.flag (fMRG_CFG_VALID p) then pairMembers (s.rd (rMRG_CFG p)) else [])
  body := fun q s =>
    let p := fld q.params 0 1
    if !s.flag (fMRG_CFG_VALID p) then .error { status := stWRONG_STATE }
    else .ok (mrgEval p (s.setF (fMRG_OPREQ_OPREQ p) (fld q.params 1 1)), .done [])

/-- `PAIR_REQUEST`. -/
def execPairRequest (q : Request) (s : State) : Host.Outcome State Fault Refusal := serve cmdPairRequest q s

/-- `PAIR_REPORT` (R287). -/
def cmdPairReport : Cmd where
  code := 0x0303
  access := accAll
  params := fun ps _ => firstBad [badPair ps]
  body := fun q s =>
    let p := fld q.params 0 1
    .ok (s, .done (([rMRG_STATUS p, rMRG_DTRACK p, rMRG_DMEAS p, rMRG_OCC p, rMRG_SR_TX p, rMRG_SR_RX p].flatMap fun r => le 4 (s.rd r).toNat) ++
      le 2 (s.rd (rMRG_WTR_LEFT p)).toNat ++ le 2 0 ++ ((span 0 13).flatMap fun k => le 6 ((cntStored s (cPAIR p k)).toNat % 2 ^ 48))))

/-- `PAIR_REPORT`. -/
def execPairReport (q : Request) (s : State) : Host.Outcome State Fault Refusal := serve cmdPairReport q s

/-- The 24 bytes of a ledger entry (R263). -/
def Ledger.bytes (e : Ledger) : List Byte :=
  let bipBits := (e.bipA.getD 0) % 32 + (e.bipB.getD 0) % 32 * 32 + 1024 * b2n e.bipA.isSome + 2048 * b2n e.bipB.isSome
  le 6 e.fn ++ le 2 e.place ++ le 1 (e.va + 4 * e.vb + 16 * e.decision) ++ le 2 bipBits ++ le 1 e.flags ++ le 4 e.ta ++ le 4 e.tb ++ le 4 e.td

/-- `PAIR_LEDGER_READ` (R287): the entries that exist from a frame number on, within the ledger's 65,536 numbers. -/
def cmdPairLedgerRead : Cmd where
  code := 0x0304
  access := ⟨true, .yes, true, true⟩
  params := fun ps _ => firstBad [badPair ps, (miss ps 1 1 || fld ps 1 1 == 0 || decide (169 < fld ps 1 1), 1), (miss ps 2 6, 2)]
  body := fun q s =>
    let x := s.pairSt (fld q.params 0 1)
    let fn := fld q.params 2 6
    match x.entry fn with
    | none => .error { status := stWRONG_STATE }
    | some _ => .ok (s, .done ((((span 0 65536).filterMap fun i => x.entry ((fn + i) % 2 ^ 48)).take (fld q.params 1 1)).flatMap Ledger.bytes))

/-- `PAIR_LEDGER_READ`. -/
def execPairLedgerRead (q : Request) (s : State) : Host.Outcome State Fault Refusal := serve cmdPairLedgerRead q s

/-- `OCC_MAX_READ` (R6, R286): the read clears. -/
def execOccMaxRead (p : Pr) (s : State) : Host.Outcome State Fault Refusal :=
  let v := s.rd (rMRG_OCC_MAX p)
  ok (if s.ready then mrgOcc p ({ s with out := { s.out with data := v } }.unreg (rMRG_OCC_MAX p)) else put 0#32 s)

end Sys2Proof.Machine
end

