-- ==== Sys2Proof/Machine/Fec.lean ====
section
/-! DEFINITION. Forward error correction (spec 09): verdicts, counters, the 10 ms windows with SD and EXC, injection, and
the FEC commands. -/

namespace Sys2Proof.Machine

open Sys2Proof

/-- The decoder's windows of channel n. -/
def State.fecOf (s : State) (n : Nat) : FecSt := s.fec.get (ch4 n)

/-- Iterations that the decoder of channel n may use (R204, R205): 6 with the low-latency decoder, which the receive half selects (R207);
else `ITER_MAX`, within its range (R218). -/
def State.iterLimit (s : State) (n : Nat) : Nat := if rdF s.rx (fFEC_CTRL_LOW_LAT n) = 1 then 6 else clampN 4 16 (s.fld (fFEC_CTRL_ITER_MAX n))

/-- What the decoder of channel n makes of a codeword. -/
def State.decoded (s : State) (n : Nat) (w : Codeword) : CwResult × List Byte := Qc.native.decode (s.iterLimit n) w

/-- Replace the decoder's windows of channel n. -/
def setFec (n : Nat) (f : FecSt) (s : State) : State := { s with fec := s.fec.set (ch4 n) f }

/-- The verdict of a frame whose bytes lie in some codewords (R208). -/
def verdictOf (cws : List CwResult) : Nat :=
  if cws.any fun c => !c.ok then 2 else if cws.any fun c => c.errs != 0 then 1 else 0

/-- Errors of the codewords that decoded, and of those that did not. -/
def okErrs (cws : List CwResult) : Nat := ((cws.filter fun c => c.ok).map CwResult.errs).foldl (· + ·) 0
def badErrs (cws : List CwResult) : Nat := ((cws.filter fun c => !c.ok).map CwResult.errs).foldl (· + ·) 0

/-- A histogram of 17 counts with some values added. -/
def histAdd (h : List Nat) (vs : List Nat) : List Nat := (span 0 17).map fun k => h.getD k 0 + (vs.filter fun v => v == k).length

/-- A native frame's verdict is counted, in its window too (R211, R219). -/
def countVerdict (n v : Nat) (s : State) : State :=
  let f := s.fecOf n
  let s := setFec n { f with frmUnc := f.frmUnc + b2n (v == 2) } s
  if v = 1 then count (cCH n 5) s else if v = 2 then count (cCH n 6) s else s

/-- Every codeword has failed since a time, until one decodes, which ends `MODE_SUSPECT` (R162). -/
def failFollow (n : Nat) (cws : List CwResult) (s : State) : State :=
  let l := s.line.get (ch4 n)
  if cws.any fun c => c.ok then ({ s with line := s.line.set (ch4 n) { l with failing := none } }).setB (fLINE_RX_STATUS_MODE_SUSPECT n) false
  else if l.failing.isSome || cws.isEmpty then s
  else { s with line := s.line.set (ch4 n) { l with failing := some s.life } }

/-- Count decoded codewords of `coded` bits in all (R209, R216, R219); their window and second gather them too. `native`
tells native codewords, whose iterations are counted, from FEC blocks of a specification, whose windows count blocks as frames. -/
def fecCount (n : Nat) (cws : List CwResult) (coded : Nat) (native : Bool) (s : State) : State :=
  let unc := (cws.filter fun c => !c.ok).length
  let s := countN (cCH n 0) coded (countN (cCH n 1) cws.length (countN (cCH n 2) unc s))
  let s := countN (cCH n 4) (badErrs cws) (countN (cCH n 3) (okErrs cws) s)
  let s := if native then countN (cCH n 7) ((cws.map CwResult.iter).foldl (· + ·) 0) s else s
  let f := s.fecOf n
  let s := setFec n { f with bits := f.bits + coded, errs := f.errs + okErrs cws + badErrs cws, corr := f.corr + okErrs cws,
                             cw := f.cw + cws.length, unc := f.unc + unc,
                             frmUnc := f.frmUnc + (if native then 0 else unc),
                             hist := histAdd f.hist (cws.map CwResult.iter) } s
  let s := gather n (fun a => { a with corr := a.corr + okErrs cws, unc := a.unc + unc, bits := a.bits + coded,
                                       errs := a.errs + okErrs cws + badErrs cws }) s
  failFollow n cws s

/-- Decoding begins with frame alignment and ends with it (R208, R221). -/
def decoding (n : Nat) (on : Bool) (s : State) : State :=
  if s.flag (fFEC_STATUS_DECODING n) = on then s else offer 0x0406 (bCH n) (b2n on) 0 (s.setB (fFEC_STATUS_DECODING n) on)

/-! ### Ratios (R210) -/

/-- −100 log10 of errs / bits is below v + 1/2. -/
def berBelow (errs bits v : Nat) : Bool := decide (bits ^ 200 < errs ^ 200 * 10 ^ (2 * v + 1))

/-- The least v from a start with `berBelow`, below the start plus 2^k. -/
def berFind (errs bits : Nat) : Nat → Nat → Nat
  | 0, v => v
  | k + 1, v => if berBelow errs bits (v + 2 ^ k - 1) then berFind errs bits k v else berFind errs bits k (v + 2 ^ k)

/-- −100 log10 of a ratio, to the nearest integer; 0xFFFF with no error or no bit (R210, R218). -/
def berLog (errs bits : Nat) : Nat := if errs = 0 || bits = 0 then 0xFFFF else berFind errs bits 12 0

/-- Set or clear SD or EXC (R211): its sticky bit, its record, the defect of the channel, and the pair's requests. -/
def setSd (n : Nat) (f seen : Fld) (k code p0 : Nat) (on : Bool) (s : State) : State :=
  if s.flag f = on then s
  else
    let s := s.setB f on
    let s := if on then s.setB seen true else s
    memberChanged n (setDefect n k on (offer code (bCH n) p0 0 s))

/-- The FEC settings, each within its range: a value outside it is taken as the nearer limit (R218). -/
def State.sdMant (s : State) (n : Nat) : Nat := clampN 1 9 (s.fld (fFEC_SD_SD_MANT n))
def State.sdExp (s : State) (n : Nat) : Nat := clampN 1 8 (s.fld (fFEC_SD_SD_EXP n))
def State.sdSet (s : State) (n : Nat) : Nat := max 1 (s.fld (fFEC_SD_SD_SET n))
def State.sdClr (s : State) (n : Nat) : Nat := max 1 (s.fld (fFEC_SD_SD_CLR n))
def State.uncClr (s : State) (n : Nat) : Nat := max 1 (s.fld (fFEC_UNC_UNC_CLR n))
def State.injLog (s : State) (n : Nat) : Nat := clampN 100 900 (s.fld (fFEC_TEST_INJ_LOG n))

/-- SD after a window with a ratio: runs toward setting and clearing. -/
def sdWindow (n : Nat) (s : State) : State :=
  let f := s.fecOf n
  let atOrAbove := decide (s.sdMant n * f.bits ≤ f.errs * 10 ^ s.sdExp n)
  let up := if atOrAbove then sat 255 (f.sdUp + 1) else 0
  let down := if atOrAbove then 0 else sat 255 (f.sdDown + 1)
  let log := berLog f.errs f.bits
  let s := setFec n { f with sdUp := up, sdDown := down } s
  if s.sdSet n ≤ up then setSd n (fFEC_STATUS_SD n) (fFEC_STATUS_SD_SEEN n) dSD 0x0401 log true s
  else if s.sdClr n ≤ down then setSd n (fFEC_STATUS_SD n) (fFEC_STATUS_SD_SEEN n) dSD 0x0402 log false s
  else s

/-- EXC after a window with decoding. An `UNC_LIMIT` of 0 disables it. -/
def excWindow (n : Nat) (s : State) : State :=
  let f := s.fecOf n
  let lim := s.fld (fFEC_UNC_UNC_LIMIT n)
  let many := lim != 0 && decide (lim ≤ f.frmUnc)
  let down := if many then 0 else sat 255 (f.excDown + 1)
  let s := setFec n { f with excDown := down } s
  if many then setSd n (fFEC_STATUS_EXC n) (fFEC_STATUS_EXC_SEEN n) dEXC 0x0403 f.frmUnc true s
  else if lim = 0 || s.uncClr n ≤ down then setSd n (fFEC_STATUS_EXC n) (fFEC_STATUS_EXC_SEEN n) dEXC 0x0404 0 false s
  else s

/-- A running acquisition has reached a stage of R152, 3 to 6. With the dispersion found, its estimate is kept; one that lies farther than
2,000 ps/nm from the centre of the search has come of the full scan (R153). -/
def acqStage (n : Nat) (e : LineEst) (s : State) : State :=
  let st := s.fld (fLINE_RX_STATUS_STATE n)
  let l := s.line.get (ch4 n)
  if s.fld (fHUB_CTRL_ROLE n) = 1 || !(2 ≤ st && st ≤ 6) || e.stage ≤ st then s
  else
    let k := min 6 e.stage
    let centre := match l.centre with
      | some c => if decide (200 < (e.cd - c).natAbs) then none else l.centre
      | none => none
    let l := if st = 2 then { l with centre := centre, est := some e.cd } else l
    ({ s with line := s.line.set (ch4 n) { l with furthest := max l.furthest k } }).setF (fLINE_RX_STATUS_STATE n) k

/-- Subcarriers that the receiver runs on; an interoperable mode has one carrier (R157). -/
def State.rxNsc (s : State) (n : Nat) : Nat := if rdF s.rx (fLINE_MODE_IOP n) = 0 then rdF s.rx (fLINE_MODE_NSC n) else 1

/-- The receiver's estimates are shown every 10 ms while it tracks (R163); the dispersion is then tracked (R149). An inactive subcarrier
has no SNR. -/
def showEst (n : Nat) (e : LineEst) (s : State) : State :=
  if s.fld (fHUB_CTRL_ROLE n) = 1 || s.fld (fLINE_RX_STATUS_STATE n) ≠ 8 then acqStage n e s
  else
    let s := { s with line := s.line.set (ch4 n) { s.line.get (ch4 n) with est := some e.cd } }
    let snr := fun k => if k < s.rxNsc n then e.sc.getD k 0 else 0
    let s := ((s.setF (fLINE_RX_EST0_CD_EST n) (unsigned 16 e.cd)).setF (fLINE_RX_EST0_DGD_EST n) e.dgd).setF (fLINE_RX_EST1_FREQ_EST n) (unsigned 16 e.freq)
    each (span 0 8) (fun m s => (s.setF (fLINE_SC_SNR_SNR0 n m) (snr (2 * m))).setF (fLINE_SC_SNR_SNR1 n m) (snr (2 * m + 1)))
      (s.setF (fLINE_RX_EST1_SNR_EST n) e.snr)

/-- `FEC_WINDOW_END` (R210, R211): a window in which no bit was decoded ends every run and leaves the defects. -/
def execFecWindowEnd (n : Ch) (est : LineEst) (s : State) : Host.Outcome State Fault Refusal :=
  let s := showEst n est s
  let f := s.fecOf n
  let last := fun (g : FecSt) => { g with bits := 0, errs := 0, corr := 0, cw := 0, unc := 0, frmUnc := 0, hist := List.replicate 17 0,
                                          lastCw := f.cw, lastUnc := f.unc, lastHist := f.hist }
  let s := s.setF (fFEC_STATUS_BER_LOG n) (berLog f.errs f.bits)
  if f.bits = 0 then ok (setFec n (last { f with sdUp := 0, sdDown := 0, excDown := 0 }) s)
  else
    let s := gather n (fun a => { a with wins := a.wins ++ [berLog f.errs f.bits] }) s
    let s := excWindow n (sdWindow n s)
    ok (setFec n (last (s.fecOf n)) s)

/-- Injection starts or stops with `INJ_EN`, except on a hub, whose upstream it does not touch (R218, R221). -/
def injFollow (n : Nat) (s : State) : State :=
  let on := s.flag (fFEC_TEST_INJ_EN n) && s.fld (fHUB_CTRL_ROLE n) != 1
  if s.flag (fFEC_STATUS_INJ_ACTIVE n) = on then s
  else offer 0x0405 (bCH n) (s.injLog n + 2 ^ 31 * b2n on) 0 (s.setB (fFEC_STATUS_INJ_ACTIVE n) on)

/-! ### Commands (R220) -/

/-- A channel parameter is bad. -/
def badCh (ps : List Byte) : Bool × Nat := (miss ps 0 1 || decide (3 < fld ps 0 1), 0)

/-- `FEC_REPORT`. -/
def cmdFecReport : Cmd where
  code := 0x0220
  access := accAll
  params := fun ps _ => firstBad [badCh ps]
  body := fun q s =>
    let n := fld q.params 0 1
    let f := s.fecOf n
    .ok (s, .done (le 4 (s.rd (rFEC_STATUS n)).toNat ++ le 4 f.lastCw ++ le 4 f.lastUnc ++ (span 0 17).flatMap fun k => le 4 (f.lastHist.getD k 0)))

/-- `FEC_REPORT`. -/
def execFecReport (q : Request) (s : State) : Host.Outcome State Fault Refusal := serve cmdFecReport q s

/-- A number outside a range. -/
def outside (lo hi v : Nat) : Bool := v < lo || decide (hi < v)

/-- The words of `FEC_SET` that are flagged present are in range and set no reserved bit. -/
def badFecSet (ps : List Byte) : List (Bool × Nat) :=
  let fl := fld ps 1 1
  let w := fun k => BitVec.ofNat 32 (fld ps (4 + 4 * k) 4)
  [(miss ps 4 4 || (bit fl 0 && (setsReserved (rFEC_CTRL 0) (fld ps 4 4) || outside 4 16 ((fFEC_CTRL_ITER_MAX 0).of (w 0)))), 4),
   (miss ps 8 4 || (bit fl 1 && (setsReserved (rFEC_SD 0) (fld ps 8 4) || outside 1 9 ((fFEC_SD_SD_MANT 0).of (w 1)) ||
      outside 1 8 ((fFEC_SD_SD_EXP 0).of (w 1)) || (fFEC_SD_SD_SET 0).of (w 1) == 0 || (fFEC_SD_SD_CLR 0).of (w 1) == 0)), 8),
   (miss ps 12 4 || (bit fl 2 && (setsReserved (rFEC_UNC 0) (fld ps 12 4) || (fFEC_UNC_UNC_CLR 0).of (w 2) == 0)), 12),
   (miss ps 16 4 || (bit fl 3 && (setsReserved (rFEC_TEST 0) (fld ps 16 4) || outside 100 900 ((fFEC_TEST_INJ_LOG 0).of (w 3)))), 16)]

/-- `FEC_SET`: the words named present are written, `LOW_LAT` excepted. -/
def cmdFecSet : Cmd where
  code := 0x0221
  access := accOpRem
  params := fun ps _ => firstBad ([badCh ps, (miss ps 1 1 || decide (16 ≤ fld ps 1 1), 1)] ++ badFecSet ps)
  touches := fun q _ => [resCH (fld q.params 0 1)]
  body := fun q s =>
    let n := fld q.params 0 1
    let fl := fld q.params 1 1
    let w := fun k => BitVec.ofNat 32 (fld q.params (4 + 4 * k) 4)
    let s := if bit fl 0 then s.setF (fFEC_CTRL_ITER_MAX n) ((fFEC_CTRL_ITER_MAX 0).of (w 0)) else s
    let s := if bit fl 1 then s.wr (rFEC_SD n) (w 1) else s
    let s := if bit fl 2 then s.wr (rFEC_UNC n) (w 2) else s
    let s := if bit fl 3 then s.wr (rFEC_TEST n) (w 3) else s
    .ok (injFollow n s, .done [])

/-- `FEC_SET`. -/
def execFecSet (q : Request) (s : State) : Host.Outcome State Fault Refusal := serve cmdFecSet q s

end Sys2Proof.Machine
end

