-- ==== Sys2Proof/Machine/Frame.lean ====
section
/-! DEFINITION. The native deframer and framer (spec 10): hunter, multiframe lock, frame numbers, the overhead that is
sent, the per-second latches with the compatibility counts, and the frame commands. -/

namespace Sys2Proof.Machine

open Sys2Proof

/-! ### Hunter and multiframe lock (R227 to R229) -/

/-- The hunter of share k of channel n. -/
def State.hunt (s : State) (n k : Nat) : Hunt := smGet (fun _ => Hunt.init) (s.ohOf n).hunts k

/-- Replace a hunter. -/
def setHunt (n k : Nat) (h : Hunt) (s : State) : State :=
  setOh n { s.ohOf n with hunts := smSet (fun _ => Hunt.init) (s.ohOf n).hunts k h } s

/-- Bits begin with a word, but for at most k of its bits. -/
def near : List Bool → List Bool → Nat → Bool
  | [], _, _ => true
  | _ :: _, [], _ => false
  | a :: aw, b :: bs, k => if a = b then near aw bs k else match k with | 0 => false | k + 1 => near aw bs k

/-- Positions, below a limit, at which bits match an alignment word in all but k of its bits (R227, R230). -/
def awHits (aw : List Bool) (k lim : Nat) : Nat → List Bool → List Nat
  | _, [] => []
  | i, b :: bs => if i < lim && near aw (b :: bs) k then i :: awHits aw k lim (i + 1) bs else awHits aw k lim (i + 1) bs

/-- Matches of the FAW in the hard decisions of a line period: a distance of 8 or fewer over its 64 bits (R227). -/
def fawHits (raw : List Byte) : List Nat := awHits (bitsOfBytes (be 8 0xF5A31C6E0B97D24D)) 8 152736 0 (bitsOfBytes raw)

/-- Matches of the SAW in those of a share: a distance of 2 or less over its 16 bits (R230). -/
def sawHits (raw : List Byte) : List Nat := awHits (bitsOfBytes (be 2 0x3B5D)) 2 9546 0 (bitsOfBytes raw)

/-- The leading candidate (R227): the alignment, else the candidate with the most matches in a row, the lower position winning a tie. -/
def Hunt.lead (h : Hunt) : Option Nat :=
  match h.align with
  | some a => some a
  | none =>
    (h.cands.foldl (fun (best : Option (Nat × Nat)) c => match best with
      | none => some c
      | some b => if b.2 < c.2 || (b.2 == c.2 && decide (c.1 < b.1)) then some c else best) none).map Prod.fst

/-- Insert a position into a rising list, once. -/
def insPos (p : Nat) : List Nat → List Nat
  | [] => [p]
  | x :: xs => if p < x then p :: x :: xs else if p = x then x :: xs else x :: insPos p xs

/-- One bit position of a line period in HUNT (R227): a candidate is tested; a new match becomes one while fewer than
eight are held; the first to match four times is the alignment. -/
def huntPos (hits : List Nat) (p : Nat) (h : Hunt) : Hunt :=
  if h.align.isSome then h
  else match h.cands.find? fun c => c.1 == p with
    | some c =>
      if !hits.contains p then { h with cands := h.cands.filter fun x => x.1 != p }
      else if 3 ≤ c.2 then { h with align := some p, cands := [], miss := 0 }
      else { h with cands := replaceFirst (fun x => x.1 == p) (fun x => (x.1, x.2 + 1)) h.cands }
    | none => if hits.contains p && decide (h.cands.length < 8) then { h with cands := h.cands ++ [(p, 1)] } else h

/-- A line period: in HUNT every position, in SYNC the alignment; five misses in a row start the hunter afresh (R228). -/
def huntPeriod (hits : List Nat) (h : Hunt) : Hunt :=
  match h.align with
  | none => ((h.cands.map Prod.fst).foldl (fun l p => insPos p l) (hits.foldl (fun l p => insPos p l) [])).foldl (fun h p => huntPos hits p h) h
  | some a => if hits.contains a then { h with miss := 0 } else if 4 ≤ h.miss then Hunt.init else { h with miss := h.miss + 1 }

/-- The multiframe lock after a frame that carries an MFAS (R229). -/
def mfFrame (good : Bool) (m : Nat) (h : Hunt) : Hunt :=
  if !good then { h with mfNext := (h.mfNext + 1) % 256 }
  else if h.mfLock then
    let k := if m = h.mfNext then 0 else h.mfMiss + 1
    if 5 ≤ k then { h with mfLock := false, mfMiss := 0, mfRun := 1, mfNext := (m + 1) % 256 }
    else { h with mfMiss := k, mfNext := (h.mfNext + 1) % 256 }
  else
    let r := if h.mfRun != 0 && m == h.mfNext then h.mfRun + 1 else 1
    { h with mfRun := sat 3 r, mfLock := decide (3 ≤ r), mfMiss := 0, mfNext := (m + 1) % 256 }

/-! ### Losing and gaining alignment -/

/-- No frame is released any more: `FN_VALID` and `SR_VALID` read 0 (R226, R242). -/
def stopRelease (n : Nat) (s : State) : State :=
  let s := (s.setB (fOH_RX_STATUS_FN_VALID n) false).setB (fOH_RX_STATUS_SR_VALID n) false
  let s := if (s.memberOf n).isNone then setFilt n { s.filt n with srRun := 0 } s else s
  memberChanged n s

/-! ### The receive halves of cues (R160, R238) -/

/-- The mark of a waiting receive half among the targets of operations. -/
def tHalf (b : Nat) : Nat := 0x1100 + b

/-- New receive words take the receiver back to the equaliser stage (R156, R161): while it acquires, a change of the modulation;
while it tracks, one of the net rate or the mode, or a subcarrier count that differs by an odd step. In an interoperable mode the
modulation fields are ignored (R157). -/
def State.rxRestarts (s : State) (n : Nat) (old new : Reader) : Bool :=
  let ch := fun f => rdF old f != rdF new f
  let st := s.fld (fLINE_RX_STATUS_STATE n)
  let iop := ch (fLINE_MODE_IOP n)
  let big := ch (fLINE_MODE_NET_RATE n) || iop
  if !iop && rdF new (fLINE_MODE_IOP n) != 0 then false
  else if st = 8 then big || (rdF old (fLINE_MODE_NSC n) + rdF new (fLINE_MODE_NSC n)) % 2 != 0
  else 2 ≤ st && decide (st ≤ 7) && (big || ch (fLINE_MODE_NSC n) || ch (fLINE_MODE_CONST n) || ch (fLINE_MODE_ENTROPY n))

/-- The receiver goes back to the equaliser stage with what it has found (R156). -/
def toEqualiser (n : Nat) (s : State) : State :=
  let l := s.line.get (ch4 n)
  let s := { s with line := s.line.set (ch4 n) { l with furthest := 5, start := s.life, reacq := false, failing := none } }
  let s := (s.setF (fLINE_RX_STATUS_STATE n) 5).setB (fLINE_RX_STATUS_ACQUIRED n) false
  if s.fld (fHUB_CTRL_ROLE n) = 1 then s else lineInput n (memberChanged n (setDefect n dLOS true s))

/-- Clients whose slots or type differ between two sets of words. -/
def slotsDiffer (a b : Reader) (n : Nat) : List Nat :=
  ((assignedClients a n) ++ (assignedClients b n)).eraseDups.filter fun c =>
    clientSlots a n c != clientSlots b n c || rdF a (fCLIENT_TYPE n c) != rdF b (fCLIENT_TYPE n c)

/-- The demapper starts afresh on the clients whose receive map changes (R234). -/
def slotsRx (n : Nat) (old new : Reader) (s : State) : State :=
  each (slotsDiffer old new n) (fun c s => ptrValid n c true (setPtr n c none s)) s

/-- The answer to a cue whose set is wholly in force: `CUE` carries the first frame number, an implicit session nothing (R91,
R108, R287). -/
def cueDone (target : Nat) (s : State) : State :=
  match s.ops.find? fun o => o.targets.contains target with
  | some op => endOp op { status := stOK } (if op.opcode = 0x0122 then le 6 op.data else []) s
  | none => s

/-- What the receive half of a block makes of its new words: the line's record (R165), the slots' demapper. -/
def halfMade (b fn : Nat) (old new : Reader) (s : State) : State :=
  if b < 4 then offer 0x0255 (bCH b) 1 (fn % 65536) s else slotsRx (b % 4) old new s

/-- The receive half of a block comes into force after its transmit half (R160, R165); the frame it begins with is fn. The set is then
wholly in force. -/
def halfDone (b fn : Nat) (s : State) : State :=
  match s.halves.find? fun h => h.2.block == b with
  | none => s
  | some (n, h) =>
    if h.early then s
    else cueDone (tHalf b) (halfMade b fn (bankRd h.old) s.rd (halfShow n { s with halves := s.halves.filter fun x => x.2.block != b }))

/-- The receive half of a block comes into force before its transmit half (R160): the bank is checked (R99), and the receiver runs on it
from now on. -/
def halfAhead (b fn : Nat) (h : RxHalf) (s : State) : State :=
  match s.session b with
  | none => s
  | some r => match r.cue with
    | none => s
    | some p => match halfCheck b r.bank p s with
      | some ref => cueRefused b r ref s
      | none =>
        let s := { s with halves := replaceFirst (fun x => x.2.block == b) (fun x => (x.1, { x.2 with old := r.bank, done := true })) s.halves }
        halfMade b fn (bankRd h.old) (bankRd r.bank) (halfShow (b % 4) s)

/-- A receive half comes into force at its boundary, or at once: whether the receiver restarts (R156, R161), and the state. -/
def halfTakes (b fn : Nat) (s : State) : Bool × State :=
  match s.halves.find? fun h => h.2.block == b with
  | none => (false, s)
  | some (n, h) =>
    if h.done then (false, s)
    else
      let t := if h.early then halfAhead b fn h s else halfDone b fn s
      (decide (b < 4) && s.rxRestarts n (bankRd h.old) t.rx, t)

/-- Alignment, or multiframe lock only, is lost: the halves that wait for a boundary of it come into force at once (R160). -/
def halvesLost (n : Nat) (oof : Bool) (s : State) : State :=
  each (s.halves.filter fun h => h.1 == n && (oof || h.2.frame.isSome || decide (4 ≤ h.2.block))) (fun h s =>
    let (again, s) := halfTakes h.2.block (((s.ohOf n).lastFn + 1) % 2 ^ 48) s
    if again then toEqualiser n s else s) s

/-- OOF is entered (R228): lock is lost with it, what is held goes, decoding ends. -/
def oofSet (n : Nat) (s : State) : State :=
  let o := s.ohOf n
  let s := setOh n { o with hunts := [], since := s.life, held := [], bips := [], extSet := false, extSeen := none, svc := [] } s
  let s := count (cCH n 19) (setDefect n dLOM true (setDefect n dOOF true s))
  halvesLost n true (stopRelease n (decoding n false s))

/-- Alignment is gained (R228, R208). -/
def syncSet (n : Nat) (s : State) : State :=
  decoding n true (setDefect n dOOF false (setOh n { s.ohOf n with since := s.life } s))

/-- Multiframe lock as the hunters have it: LOM follows (R229). -/
def lomFollow (n : Nat) (lock : Bool) (s : State) : State :=
  if s.defect n dLOM = !lock then s
  else
    let s := setDefect n dLOM (!lock) s
    if lock then s else halvesLost n false (stopRelease n s)

/-- The frame path of a channel stops delivering: its receiver is lost, darkened or held. -/
def pathLost (n : Nat) (s : State) : State :=
  if s.defect n dOOF then stopRelease n s else oofSet n s

/-! ### Frame numbers and release (R226) -/

/-- A delivered frame's DM byte (R246): DM_OUT is echoed; the awaited echo stops the counter of this member. -/
def dmFrame (n verdict : Nat) (bs : List Byte) (s : State) : State :=
  if 2 ≤ verdict then s
  else
    let (a, m, two) := match s.memberOf n with
      | some (p, m) => (s.fld (fMRG_CFG_CH_A p), m, true)
      | none => (n, 0, false)
    let o := s.ohOf a
    let v := fbe bs 28 1
    let tx := { o.tx with dmEcho := bit v 0 }
    match tx.dmStart with
    | none => setOh a { o with tx := tx } s
    | some t0 =>
      if bit v 1 != tx.dmOut || tx.dmGot.any (fun g => g.1 == m) then setOh a { o with tx := tx } s
      else
        let got := tx.dmGot ++ [(m, s.mclk - t0)]
        let of := fun k => ((got.find? fun g => g.1 == k).map Prod.snd).getD 0
        if two && got.length < 2 then setOh a { o with tx := { tx with dmGot := got } } s
        else
          let s := setOh a { o with tx := { tx with dmGot := [], dmStart := none } } s
          targetDone 0x0242 (0x4000 + a) none (le 4 (of 0) ++ le 4 (of 1)) s

/-- A frame with its number goes to the merge, or through the bypass of R13 to the cipher; only while the receiver tracks
(R155). -/
def deliver (n fn : Nat) (fr : RxFrame) (s : State) : State :=
  let o := s.ohOf n
  if s.fld (fLINE_RX_STATUS_STATE n) ≠ 8 then setOh n { o with fn := (fn + 1) % 2 ^ 48 } s else
  let s := setOh n { o with lastFn := fn, fn := (fn + 1) % 2 ^ 48 } s
  let s := gather n (fun a => { a with frames := a.frames + 1 }) (s.setB (fOH_RX_STATUS_FN_VALID n) true)
  let s := dmFrame n fr.verdict fr.bytes s
  match s.memberOf n with
  | some _ => setOh n { s.ohOf n with toMerge := (s.ohOf n).toMerge ++ [{ fr with fn := fn }] } s
  | none => releaseFrame n fn fr.verdict fr.bytes s

/-- The extension that a MFAS-0 frame carries is compared (R226 rule 3): two that agree with each other are adopted. -/
def extCheck (n fn : Nat) (fr : RxFrame) (s : State) : Nat × State :=
  let o := s.ohOf n
  if fn % 256 ≠ 0 || 2 ≤ fr.verdict then (fn, s)
  else
    let mff := fbe fr.bytes 12 2
    let low := fn % 2 ^ 32
    let ext := fn / 2 ^ 32
    if mff = ext then (fn, setOh n { o with extSeen := none } s)
    else match o.extSeen with
      | none => (fn, setOh n { o with extSeen := some (mff * 2 ^ 32 + low) } s)
      | some v =>
        let due := (v / 2 ^ 32 + (if low < v % 2 ^ 32 then 1 else 0)) % 65536
        if due = mff then (mff * 2 ^ 32 + low, offer 0x0509 (bCH n) mff ext (setOh n { o with extSeen := none } s))
        else (fn, setOh n { o with extSeen := some (mff * 2 ^ 32 + low) } s)

/-- Three frames confirm a discontinuity against an expected number (R226 rule 2). -/
def jumps (e : Nat) (h : List (RxFrame × Nat)) : Option Nat :=
  match h with
  | [a, b, c] =>
    if a.1.verdict < 2 && b.1.verdict < 2 && c.1.verdict < 2 && b.2 == (a.2 + 1) % 2 ^ 32 && c.2 == (b.2 + 1) % 2 ^ 32 && a.2 != e % 2 ^ 32
    then some a.2 else none
  | _ => none

/-- The oldest of three held frames is released with its number, or dropped while there is no lock or no extension. -/
def releaseOldest (n : Nat) (s : State) : State :=
  let o := s.ohOf n
  match o.held with
  | a :: b :: c :: r =>
    let s := setOh n { o with held := b :: c :: r } s
    let lock := (s.hunt n 0).mfLock
    if !o.extSet then
      if a.1.verdict < 2 && a.2 % 256 == 0 then
        let fn := fbe a.1.bytes 12 2 * 2 ^ 32 + a.2
        let s := setOh n { s.ohOf n with extSet := true, fn := (fn + 1) % 2 ^ 48 } s
        if lock then deliver n fn a.1 s else s
      else s
    else if !lock then setOh n { s.ohOf n with fn := (o.fn + 1) % 2 ^ 48 } s
    else
      let (e, s) := match jumps o.fn [a, b, c] with
        | some v =>
          let h := s.hunt n 0
          let s := setHunt n 0 { h with mfNext := (c.2 + 1) % 256, mfMiss := 0 } s
          (o.fn / 2 ^ 32 * 2 ^ 32 + v, offer 0x0508 (bCH n) v (o.fn % 65536) (count (cCH n 20) s))
        | none => (o.fn, s)
      let (fn, s) := extCheck n e a.1 s
      deliver n fn a.1 s
  | _ => s

/-- BIP errors are counted in every received frame (R241). -/
def bipCount (n errs : Nat) (unc : Bool) (s : State) : State :=
  let o := s.ohOf n
  let s := setOh n { o with bips := [errs] ++ o.bips.take 1 } s
  let s := countN (cCH n 16) errs s
  if unc || errs != 0 then
    count (cCH n 18) (gather n (fun a => { a with bip := a.bip + errs, err := a.err + 1 }) s)
  else s

/-- A decoded frame of a native point-to-point channel in SYNC (R224, R226, R229, R241). -/
def frameIn (n verdict : Nat) (bs : List Byte) (s : State) : State :=
  let h := s.hunt n 0
  let carried := fbe bs 8 4
  let plain := scrFrame 12 carried bs
  let errs := h.par.map fun p => ones (p ^^^ fbe plain 14 2) 16
  let h := mfFrame (verdict < 2) (carried % 256) { h with par := some (parity16 (bs.drop 12)) }
  let s := lomFollow n h.mfLock (setHunt n 0 h s)
  let s := bipCount n (errs.getD 0) (verdict == 2) s
  let s := setOh n { s.ohOf n with held := (s.ohOf n).held ++ [(⟨plain, verdict, 0, errs⟩, carried)] } s
  releaseOldest n s

/-- The receiver delivers soft bits: STATE 7 or 8 (R152); frames are delivered while tracking only (R155). -/
def State.softBits (s : State) (n : Nat) : Bool :=
  s.active n && (s.fld (fLINE_RX_STATUS_STATE n) == 7 || s.fld (fLINE_RX_STATUS_STATE n) == 8)

/-- A line period of a native point-to-point channel: its hard decisions, and the four codewords of the frame that begins at the leading
candidate. Frames, verdicts and counters come with the alignment only (R208). -/
def nativePeriod (n : Nat) (raw : List Byte) (cws : List Codeword) (s : State) : State :=
  let was := (s.hunt n 0).align.isSome
  let h := huntPeriod (fawHits raw) (s.hunt n 0)
  if was && h.align.isNone then oofSet n s
  else
    let s := setHunt n 0 h s
    if h.lead.isNone then s
    else
      let out := (span 0 4).map fun i => s.decoded n (cws.getD i ⟨[], []⟩)
      let ds := out.map Prod.fst
      if h.align.isNone then failFollow n ds s
      else
        let s := countVerdict n (verdictOf ds) (fecCount n ds 152736 true (if was then s else syncSet n s))
        frameIn n (verdictOf ds) (out.flatMap fun d => slice d.2 0 4128) s

/-- `LOF_TIMER` (R228): OOF, or SYNC, has lasted 3 ms without a break. -/
def execLofTimer (n : Ch) (s : State) : Host.Outcome State Fault Refusal :=
  if s.life.toNat < (s.ohOf n).since.toNat + 3000000 || !s.active n then ok s
  else ok (setDefect n dLOF (s.defect n dOOF) s)

/-! ### The transmit framer (R222 to R225, R240 to R247) -/

/-- STAT of the frame fn that channel a's framer sends (R240). -/
def State.statSent (s : State) (a fn : Nat) : Nat :=
  let chs := s.streamChs a
  let x := chs.headD a
  let bdi := fun m => bits (s.fld (fOH_RX_STATUS_DEFECTS m)) 3 0 != 0
  let bsd := fun m => s.flag (fFEC_STATUS_SD m) || s.flag (fFEC_STATUS_EXC m)
  let bei := fun m => sat 15 ((s.ohOf m).bips.foldl (· + ·) 0)
  match chs.tail with
  | [] => 128 * b2n (bdi x) + 32 * b2n (bsd x) + (if fn % 2 = 0 then bei x else 0)
  | y :: _ => 128 * b2n (bdi x) + 64 * b2n (bdi y) + 32 * b2n (bsd x) + 16 * b2n (bsd y) + (if fn % 2 = 0 then bei x else bei y)

/-- PT sent (R243, R456). -/
def State.ptSent (s : State) (n : Nat) : Nat :=
  if s.flag (fTST_PAT_GEN n) then 0x10 else if anySlot s.rd n then 1 else 0

/-- The quality level channel n sends (R353): DNU where the selected line input is one of its stream's. -/
def State.ssmSent (s : State) (n : Nat) : Nat :=
  match s.selected with
  | some x => if 4 ≤ x && (s.streamChs n).contains (x - 4) then 0xF else s.fld fTIM_STATUS_QL_SENT
  | none => s.fld fTIM_STATUS_QL_SENT

/-- The declared feed frequency; one outside its range is taken as the nearer limit (R124). -/
def State.feedGhz (s : State) (n : Nat) : Nat := clampN 191300 196100 (s.fld (fENG_FEED_FEED_GHZ n))

/-- The 256-byte trace channel n sends (R244), its numbers most significant byte first (R223). -/
def State.traceSent (s : State) (n : Nat) : List Byte :=
  let tx := (s.ohOf n).tx
  let pair := match s.memberOf n with | some (p, _) => p | none => 0xFF
  let b := slice tx.sapi 0 16 ++ slice tx.dest 0 16 ++ be 8 Config.serial.toNat ++ be 2 s.node ++ be 1 n ++ be 1 pair ++
    be 4 (s.feedGhz n) ++ slice tx.oper 0 204
  b ++ be 4 (crc32c b).toNat

/-- SR bytes sent (R242, R280). -/
def State.srOut (s : State) (n : Nat) : Nat :=
  match s.memberOf n with
  | some (p, _) => (s.rd (rMRG_SR_TX p)).toNat
  | none => 0

/-- The next 16 bytes of the HGC port (R338). -/
def hgcUnit (n : Nat) (s : State) : List Byte × State :=
  let h := s.hgc.get (ch4 n)
  match h.sending, h.tx with
  | [], (d, k) :: rest =>
    let b := be 2 (d.length + 4) ++ d ++ le 4 (crc32c d).toNat
    let b := b ++ List.replicate ((16 - b.length % 16) % 16) 0#8
    (b.take 16, s.setHgc (ch4 n) { h with tx := rest, sending := b.drop 16, mbx := h.mbx.releaseReq 4096 k })
  | [], [] => (List.replicate 16 0#8, s)
  | b, _ => (slice b 0 16, s.setHgc (ch4 n) { h with sending := b.drop 16 })

/-- What the port with head lane h counts of received codewords (R334). -/
def rsCount (h : Nat) (cws : List HostCw) (s : State) : State :=
  let bad := (cws.filter fun c => c.fixed.isNone).length
  let good := (cws.filterMap HostCw.fixed).filter fun k => k != 0
  portCounted (cHP h 3) (good.foldl (· + ·) 0) (portCounted (cHP h 2) bad (portCounted (cHP h 1) good.length (portCounted (cHP h 0) cws.length s)))

/-- RS codewords arrive at the port with head lane h (R333): decoded with alignment-marker lock, their blocks delivered with PCS lock. A port
looped at depth 1 ignores its host and takes only the counts of them, for its own blocks have come by `sendPort`; one looped at depth 2 or
3 sends back what it receives (R453). -/
def portIn (h : Nat) (cws : List HostCw) (s : State) : State :=
  if !s.headLane h || !s.flag (fHP_STATUS_AM_LOCK h) then s
  else
    let s := rsCount h cws s
    if !s.flag (fHP_STATUS_PCS_LOCK h) || s.portLoop h 1 then s
    else
      let bs := cws.flatMap cwBlocks
      let s := portBlocks h bs (blkCount h bs s)
      if s.fld (fHL_LOOP_DEPTH h) = 3 then sendPort h bs s else if s.portLoop h 2 then showPort h bs s else s

/-- `COUNTER_TICK` (R433): every group is taken at one instant, a whole microsecond of the life timestamp. `host` are the codewords that have
come to host ports since what was last told of them, by head lane. -/
def execCounterTick (host : List (Nat × List HostCw)) (s : State) : Host.Outcome State Fault Refusal :=
  let s := each host (fun e s => portIn e.1 e.2 s) s
  let t := BitVec.ofNat 64 ((s.life.toNat / 1000 + 1) * 1000)
  ok (passTime t { s with cnt := { s.cnt with store := s.cnt.live, tick := t } })

/-- The container of client c goes into its slots of frame fn; in a frame with MFAS 0 the block pointer comes first: the bits to the
first block boundary (R234). -/
def packClient (n fn : Nat) (a : List Byte × State) (c : Nat) : List Byte × State :=
  let (pay, s) := a
  let slots := clientSlots s.rd n c
  if slots.isEmpty then (pay, s)
  else
    let m := s.mapper n c
    let first := fn % 256 = 0
    let (bits, m', idle, fault) := packBlocks (!s.clientNoLock n c || s.fld (fTST_LOOP_DEPTH n) == 7) (256 * slots.length - (if first then 16 else 0)) m
    let cont := packBits ((if first then bitsOfBytes (be 2 m.bits.length) else []) ++ bits)
    let s := setMapper n c m' s
    let s := if idle = 0 then s else countN (kClient n c 0) idle s
    let s := if fault = 0 then s else countN (kClient n c 2) fault s
    (putSlots pay slots cont, s)

/-- The payload before the cipher: the clients' containers, zeros in unassigned slots; or the test pattern. -/
def txPayload (n fn : Nat) (s : State) : List Byte × State :=
  if s.flag (fTST_PAT_GEN n) then
    let p := s.pat.get (ch4 n)
    let (b, g) := prbsBytes 16384 p.gen
    (b, { s with pat := s.pat.set (ch4 n) { p with gen := g } })
  else (((span 0 512).filterMap (slotClient s.rd n)).eraseDups).foldl (packClient n fn) (List.replicate 16384 0#8, s)

/-- A new multiframe at the transmitter: the trace set takes effect, and the tags gathered go out (R252, R302). -/
def txMultiframe (n : Nat) (s : State) : State :=
  let o := s.ohOf n
  let tx := match o.tx.pend with
    | some (a, b, c) => { o.tx with sapi := a, dest := b, oper := c, pend := none }
    | none => o.tx
  let due := (tx.tags.filter fun e => 512 ≤ e.1).map fun e => (e.1 - 512, e.2)
  let s := if s.fpSrc = n + 1 then fpPulse s else s
  setOh n { o with tx := { tx with tags := due } } s

/-- A tag of the previous multiframe as carried for slot j. -/
def State.tagSent (s : State) (n j : Nat) : List Byte := be 16 (smGet (fun _ => 0#128) (s.ohOf n).tx.tags j).toNat

/-- Bytes 12 to 127 of a frame, and after them its payload, before scrambling (R222). -/
def txOverhead (n fn : Nat) (hfb hgc : List Byte) (s : State) : List Byte :=
  let m := fn % 256
  let tx := (s.ohOf n).tx
  be 2 (if m = 0 then fn / 2 ^ 32 else 0) ++ be 2 tx.bip ++ be 1 (s.statSent n fn) ++ be 4 (s.srOut n) ++ be 1 (s.ptSent n) ++
    be 2 (mapEntry s.rd n (2 * m)) ++ be 2 (mapEntry s.rd n (2 * m + 1)) ++ slice (s.traceSent n) m 1 ++ be 1 (s.ssmSent n) ++
    be 1 (b2n tx.dmOut + 2 * b2n tx.dmEcho) ++ List.replicate 3 0#8 ++ hfb ++ hgc ++ List.replicate 40 0#8 ++
    s.tagSent n (2 * m) ++ s.tagSent n (2 * m + 1)

/-- A frame reaches the FEC encoder (R201 to R203): the coded bits of its interleaver block, or of the frame alone with the low-latency
decoder, go to the subcarriers when the block is whole. DESIGN CHOICE, assumption 42: a block that a change of decoder leaves open is not
sent again. -/
def encodeFrame (n fn len : Nat) (lanes : Bool → List (List Byte) → List (List Bool)) (bs : List Byte) (s : State) : State :=
  let low := s.flag (fFEC_CTRL_LOW_LAT n)
  let o := s.ohOf n
  let held := (if fn % len = 0 then [] else o.tx.block) ++ [bs]
  let whole := fn % len == len - 1
  let s := setOh n { o with tx := { o.tx with block := if whole then [] else held } } s
  { s with out := { s.out with bytes := bs, lanes := if whole then lanes low held else [] } }

/-- The transmit path of channel n is looped into its receiver, at depth 4, 5 or 6 (R453). -/
def State.lineLoop (s : State) (n : Nat) : Bool := 4 ≤ s.fld (fTST_LOOP_DEPTH n) && decide (s.fld (fTST_LOOP_DEPTH n) ≤ 6)

/-- A frame is sent into a loopback. -/
def loopSend (n : Nat) (frame : List Byte) (s : State) : State :=
  if s.lineLoop n then { s with line := s.line.set (ch4 n) { s.line.get (ch4 n) with loop := (s.line.get (ch4 n)).loop ++ [frame] } } else s

/-- Bytes with some of their bits wrong. -/
def withErrors (sent errs : List Byte) : List Byte := (span 0 sent.length).map fun i => sent.getD i 0#8 ^^^ errs.getD i 0#8

/-- `FRAME_TRANSMITTED` on a native point-to-point channel: the frame goes to the encoder, on `out.bytes`. -/
def sendNative (n : Nat) (faults : List (Nat × List (List Nat))) (s : State) : State :=
  let fn := (s.ohOf n).tx.fn
  let s := if fn % 256 = 0 then txMultiframe n s else s
  let (pay, s) := txPayload n fn s
  let (ct, s) := if s.flag (fTST_PAT_GEN n) then (pay, s) else txCipher n fn faults pay s
  let (hgc, s) := hgcUnit n s
  let (hfb, s) := hfbUnit n (fn % 256) s
  let clear := be 8 0xF5A31C6E0B97D24D ++ be 4 (fn % 2 ^ 32)
  let line := scrFrame 12 fn (clear ++ txOverhead n fn hfb hgc s ++ ct)
  let o := s.ohOf n
  let s := setOh n { o with tx := { o.tx with fn := (fn + 1) % 2 ^ 48, bip := parity16 (line.drop 12) } } s
  let s := (s.wr (rOH_TX_FN_LO n) (BitVec.ofNat 32 fn)).wr (rOH_TX_FN_HI n) (BitVec.ofNat 32 (fn / 2 ^ 32))
  let s := loopSend n line s
  encodeFrame n fn (if s.flag (fFEC_CTRL_LOW_LAT n) then 1 else 16) (fun low => pointLanes low (s.fld (fLINE_MODE_NSC n))) line s

/-! ### Per-second latches and compatibility counts (R249, R250) -/

/-- Errored frames amount to at least 15 % of the frames due in a second at the running net rate (R250). -/
def sesErr (net err : Nat) : Bool := decide (15 * net * 100800000000 ≤ err * 13107200)

/-- Defects that make ES and SES: LOS, OOF, LOF, LOM, PLM (R250). -/
def sesFlags (flags : Nat) : Bool := bits flags 4 0 != 0

/-- ES and SES of the running second (R250); on a hub `HUB_LOS` stands in for OOF, LOF and LOM (R232). -/
def SecAcc.bad (a : SecAcc) : Bool := sesFlags a.flags || a.hubLos
def State.secEs (s : State) (n : Nat) : Bool := (s.ohOf n).sec.err != 0 || (s.ohOf n).sec.bad
def State.secSes (s : State) (n : Nat) : Bool := sesErr (s.fld (fLINE_MODE_NET_RATE n)) (s.ohOf n).sec.err || (s.ohOf n).sec.bad

/-- The greatest or least of some numbers; 0xFFFF with none. -/
def maxOf (l : List Nat) : Nat := if l.isEmpty then 0xFFFF else l.foldl max 0
def minOf (l : List Nat) : Nat := l.foldl min 0xFFFF

/-- The 60 bytes of a latch record before its CRC (R249). -/
def latchBody (n : Nat) (unavail : Bool) (s : State) : List Byte :=
  let a := (s.ohOf n).sec
  let es := s.secEs n
  let ses := s.secSes n
  le 8 s.life.toNat ++ le 8 s.todWord.toNat ++ le 8 a.corr ++ le 4 a.unc ++ le 4 a.frames ++ le 4 a.err ++ le 4 a.bip ++ le 4 a.febe ++
    le 2 (maxOf a.wins) ++ le 2 (berLog a.errs a.bits) ++ le 2 (minOf a.wins) ++ le 2 a.flags ++
    le 1 (b2n (s.flag fTIM_STATUS_TOD_VALID) + 2 * (s.fld fTIM_STATUS_EPOCH % 16) + 32 * b2n es + 64 * b2n ses + 128 * b2n a.part) ++
    le 1 (b2n unavail) ++ List.replicate 6 0#8

/-- A record with its CRC. -/
def sealed (b : List Byte) : List Byte := b ++ le 4 (crc32c b).toNat

/-- Keep a latch record under its life second: in HBM for 30 days, without HBM the latest only (R249). -/
def keepLatch (n sec : Nat) (b : List Byte) (s : State) : State :=
  let o := s.ohOf n
  if s.flag fMEM_STATUS_HBM_READY then
    let old := o.latches.filter fun e => decide (sec < e.1 + 2592000)
    hbmWrite (latchAddr n sec) b (setOh n { o with latches := smPut old sec b } s)
  else setOh n { o with latches := [(sec, b)] } s

/-- Record 0x0511 of the sub-rate clients that overflowed in the second (R236). -/
def subrateRecords (n : Nat) (s : State) : State :=
  let l := (s.ohOf n).subLost
  each l (fun e s => offer 0x0511 (bCH n) e.1 (sat 65535 e.2) s) (setOh n { s.ohOf n with subLost := [] } s)

/-- One channel's second is over. -/
def latchChannel (n : Nat) (s : State) : State :=
  if !s.active n then s
  else
    let s := subrateRecords n s
    let b := sealed (latchBody n false s)
    let sec := s.life.toNat / 1000000000
    let a := (s.ohOf n).sec
    let s := keepLatch n sec b s
    let o := s.ohOf n
    let tod := if s.flag fTIM_STATUS_TOD_VALID then some s.tim.sec else none
    let w : PmSec := ⟨sec, tod, s.secEs n, s.secSes n, a.part⟩
    setOh n { o with pm := { o.pm with wait := o.pm.wait ++ [w] },
                     sec := { SecAcc.init with flags := s.fld (fOH_RX_STATUS_DEFECTS n), part := false,
                                                 hubLos := s.fld (fHUB_CTRL_ROLE n) == 1 && s.flag (fHUB_STATUS_HUB_LOS n) } } s

/-- `PER_SECOND_LATCH` (R249): every running channel latches its record; wait-to-restore seconds run down (R282, R286). -/
def execPerSecondLatch (s : State) : Host.Outcome State Fault Refusal :=
  let s := each (span 0 4) latchChannel s
  ok (each (span 0 2) (fun p s => if s.flag (fMRG_STATUS_WTR_RUN p) then s.setF (fMRG_WTR_LEFT_LEFT p) (s.fld (fMRG_WTR_LEFT_LEFT p) - 1) else s) s)

/-- A bin after one more classified second (R250). -/
def binAdd (unavail bad : Bool) (w : PmSec) (b : PmBin) : PmBin :=
  { b with es := b.es + b2n (!unavail && w.es), ses := b.ses + b2n (!unavail && w.ses), uas := b.uas + b2n unavail, part := b.part || bad }

/-- The open and the last closed bin after a second; `was` is the time of day of the second before. A second of another bin closes the open
one, incomplete if the second before was not its last; the new one is incomplete if it does not begin with its first. -/
def binStep (len : Nat) (was : Option Nat) (unavail bad : Bool) (w : PmSec) (cur last : PmBin) : PmBin × PmBin :=
  match w.tod with
  | none => (binAdd unavail true w cur, last)
  | some t =>
    let start := t / len * len
    if cur.start = start then (binAdd unavail bad w cur, last)
    else (binAdd unavail (w.part || t != start) w ⟨start, 0, 0, 0, false⟩, { cur with part := cur.part || was != some (cur.start + len - 1) })

/-- The latch record of an unavailable second says so (R249 byte 53). -/
def markUnavail (n sec : Nat) (s : State) : State :=
  match smLookup (s.ohOf n).latches sec with
  | none => s
  | some b => keepLatch n sec (sealed (slice b 0 53 ++ [1#8] ++ slice b 54 6)) s

/-- `SECOND_CLASSIFIED` (R250): the oldest second that ended 10 s ago. -/
def execSecondClassified (n : Ch) (s : State) : Host.Outcome State Fault Refusal :=
  let o := s.ohOf n
  let pm := o.pm
  match pm.wait with
  | [] => ok s
  | w :: rest =>
    if pm.wait.length < 11 then ok s
    else
      let ten := pm.wait.take 10
      let un := if pm.unavail then !(ten.all fun x => !x.ses) else ten.all fun x => x.ses
      let stepped := match pm.lastTod, w.tod with
        | some a, some b => b != a + 1
        | none, some _ => true
        | _, none => true
      let bad := w.part || stepped
      let (c15, l15) := binStep 900 pm.lastTod un bad w pm.bin15 pm.last15
      let (c24, l24) := binStep 86400 pm.lastTod un bad w pm.bin24 pm.last24
      let s := setOh n { o with pm := { pm with wait := rest, lastTod := w.tod, unavail := un, bin15 := c15, last15 := l15, bin24 := c24, last24 := l24 } } s
      let s := if un then markUnavail n w.second s else s
      ok (if un = pm.unavail then s else offer (if un then 0x0520 else 0x0521) (bCH n) w.second 0 s)

/-- `SUBRATE_OVERFLOW` (R236): codewords arrive at the host port of sub-rate client c, whose blocks may overflow the client's buffer. -/
def execSubrateOverflow (n : Ch) (c : Fin 512) (cws : List HostCw) (s : State) : Host.Outcome State Fault Refusal :=
  if s.fld (fCLIENT_TYPE n c) ≠ 6 || !s.active n || !s.flag (fXBAR_CLIENT_VALID n c) then ok s else ok (portIn (s.fld (fXBAR_CLIENT_LANE n c)) cws s)

/-! ### Commands (R252) -/

/-- The channel runs an interoperable mode, or is a hub or leaf. -/
def State.notP2p (s : State) (n : Nat) : Bool := s.fld (fLINE_MODE_IOP n) != 0 || s.fld (fHUB_CTRL_ROLE n) != 0

/-- `OH_TRACE_SET`. -/
def cmdOhTraceSet : Cmd where
  code := 0x0240
  access := accOpRem
  params := fun ps _ => firstBad [badCh ps, (miss ps 1 3 || fld ps 1 3 != 0, 1), (miss ps 4 16, 4), (miss ps 20 16, 20), (miss ps 36 16, 36),
    (miss ps 52 204, 52)]
  touches := fun q _ => [resCH (fld q.params 0 1)]
  body := fun q s =>
    let n := fld q.params 0 1
    let ps := q.params
    let o := s.ohOf n
    if s.notP2p n then .error { status := stWRONG_STATE }
    else .ok (timDefect n (setOh n { o with tx := { o.tx with expSapi := slice ps 36 16, pend := some (slice ps 4 16, slice ps 20 16, slice ps 52 204) } } s), .done [])

/-- `OH_TRACE_SET`. -/
def execOhTraceSet (q : Request) (s : State) : Host.Outcome State Fault Refusal := serve cmdOhTraceSet q s

/-- `OH_TRACE_GET`. On a pair the received trace is that of the merged stream, kept with member A. -/
def cmdOhTraceGet : Cmd where
  code := 0x0241
  access := accAll
  params := fun ps _ => firstBad [badCh ps, (miss ps 1 1 || decide (1 < fld ps 1 1), 1)]
  body := fun q s =>
    let n := fld q.params 0 1
    if s.fld (fLINE_MODE_IOP n) ≠ 0 then .error { status := stWRONG_STATE }
    else .ok (s, .done (if fld q.params 1 1 = 0 then s.traceSent n else slice (s.filt ((s.streamChs n).headD n)).trcAcc 0 256))

/-- `OH_TRACE_GET`. -/
def execOhTraceGet (q : Request) (s : State) : Host.Outcome State Fault Refusal := serve cmdOhTraceGet q s

/-- `DM_RUN` (R246, R252): a pair measures through member A's framer. -/
def cmdDmRun : Cmd where
  code := 0x0242
  access := accOpRem
  params := fun ps _ => firstBad [badCh ps]
  touches := fun q _ => [resCH (fld q.params 0 1)]
  body := fun q s =>
    let n := fld q.params 0 1
    if s.notP2p n then .error { status := stWRONG_STATE }
    else
      let a := (s.streamChs n).headD n
      let o := s.ohOf a
      let s := setOh a { o with tx := { o.tx with dmOut := !o.tx.dmOut, dmStart := some s.mclk, dmGot := [] } } s
      .ok (s, .accept (opOf q 0x0242 [resCH n] [0x4000 + a] s))

/-- `DM_RUN`. -/
def execDmRun (q : Request) (s : State) : Host.Outcome State Fault Refusal := serve cmdDmRun q s

/-- Read the latch records of some life seconds through HBM, or as kept without it. -/
def readLatches (n : Nat) : List Nat → State → List Byte × State
  | [], s => ([], s)
  | k :: ks, s =>
    let (b, s) := if s.flag fMEM_STATUS_HBM_READY then
        let ((b, good), s) := hbmRead [] (latchAddr n k) 64 s
        (if good then b else slice b 0 60 ++ le 4 (2 ^ 32 - 1 - (crc32c (b.take 60)).toNat), s)
      else (slice ((smLookup (s.ohOf n).latches k).getD []) 0 64, s)
    let (r, s) := readLatches n ks s
    (b ++ r, s)

/-- `PERF_LATCH_READ`: the first record is that of the second a life timestamp lies in. -/
def cmdPerfLatchRead : Cmd where
  code := 0x0243
  access := ⟨true, .counters, true, false⟩
  params := fun ps _ => firstBad [badCh ps, (miss ps 1 1 || outside 1 63 (fld ps 1 1), 1), (miss ps 2 2 || fld ps 2 2 != 0, 2), (miss ps 4 8, 4)]
  body := fun q s =>
    let n := fld q.params 0 1
    let k := fld q.params 1 1
    let l := (s.ohOf n).latches
    let t := fld q.params 4 8
    let holds := fun (e : Nat × List Byte) => decide (t ≤ fld e.2 0 8) && decide (fld e.2 0 8 < t + 1000000000)
    let first := ((l.find? holds).map Prod.fst).getD (t / 1000000000 + 1)
    let latest := match l.reverse with | e :: _ => holds e | [] => false
    if s.fld (fLINE_MODE_IOP n) ≠ 0 || (!s.flag fMEM_STATUS_HBM_READY && !latest) then .error { status := stWRONG_STATE }
    else
      let (b, s) := readLatches n (span first k) s
      .ok (s, .done b)

/-- `PERF_LATCH_READ`. -/
def execPerfLatchRead (q : Request) (s : State) : Host.Outcome State Fault Refusal := serve cmdPerfLatchRead q s

/-- `FN_LO_READ` (R6, R251) by requester 0, 1 or 2: the low word, latching the high one. -/
def execFnLoRead (who : Fin 3) (n : Ch) (tx : Bool) (s : State) : Host.Outcome State Fault Refusal :=
  let v := if tx then (s.rd (rOH_TX_FN_LO n)).toNat + (s.rd (rOH_TX_FN_HI n)).toNat * 2 ^ 32 else (s.ohOf n).lastFn
  ok (if s.ready then put (BitVec.ofNat 32 v) (setRl who (if tx then rOH_TX_FN_HI n else rOH_RX_FN_HI n) (BitVec.ofNat 32 (v / 2 ^ 32 % 65536)) s) else put 0#32 s)

end Sys2Proof.Machine
end

