-- ==== Sys2Proof/Machine/Hub.lean ====
section
/-! DEFINITION. The burst hub (spec 08): grants, the burst receivers, the leaf table, the stage door, the assembly and
release of upstream frames, and the hub commands. Times within a grant are in 0.125 ns from its start S. -/

namespace Sys2Proof.Machine

open Sys2Proof

/-! ### The hub channel (R166 to R171) -/

/-- The hub state of channel n. -/
def State.hubOf (s : State) (n : Nat) : HubSt := s.hub.get (ch4 n)

/-- Replace it. -/
def setHub (n : Nat) (h : HubSt) (s : State) : State := { s with hub := s.hub.set (ch4 n) h }

/-- The channel is an ACTIVE hub. -/
def State.isHub (s : State) (n : Nat) : Bool := s.active n && s.fld (fHUB_CTRL_ROLE n) == 1

/-- The running hub cycle of a channel (R171): 100 us each from the channel's start. -/
def State.hubCycle (s : State) (n : Nat) : Nat := (s.life.toNat - (s.hubOf n).start.toNat) / 100000 % 2 ^ 32

/-- Offset within the cycle in 1/256 quantum. -/
def State.hubOffset (s : State) (n : Nat) : Nat := (s.life.toNat - (s.hubOf n).start.toNat) % 100000 * 256 / 50

/-- The valid grants among some register words, by number (R196). -/
def grantsIn (m : SMap Word) (n : Nat) : List Nat :=
  (m.filter fun e => rGRANT_A n 0 ≤ e.1 && decide (e.1 < rGRANT_A n 4096) && (e.1 - rGRANT_A n 0) % 8 == 4 && (fGRANT_B_VALID n 0).of e.2 == 1).map
    fun e => (e.1 - rGRANT_A n 0) / 8

/-- Entries of a leaf table whose first word is listed among some register words. -/
def entriesIn (m : SMap Word) (n : Nat) : List Nat :=
  (m.filter fun e => rLEAF_W0 n 0 ≤ e.1 && decide (e.1 < rLEAF_W0 n 1024) && (e.1 - rLEAF_W0 n 0) % 64 == 0).map
    fun e => (e.1 - rLEAF_W0 n 0) / 64

/-- The leaf a grant belongs to. -/
def grantLeaf (rd : Reader) (n g : Nat) : Nat := rdF rd (fGRANT_B_LEAF n g)

/-- A leaf is bound to an entry: it is valid and its STATE is not 0. -/
def State.leafBound (s : State) (n i : Nat) : Bool := s.flag (fLEAF_W0_VALID n i) && s.fld (fLEAF_W0_STATE n i) != 0

/-- The serial an entry is bound to. -/
def State.leafSerial (s : State) (n i : Nat) : Nat := (s.rd (rLEAF_W7 n i)).toNat + (s.rd (rLEAF_W8 n i)).toNat * 2 ^ 32

/-- The number of ranged entries follows the table. -/
def countRanged (n : Nat) (s : State) : State :=
  s.setF (fHUB_STATUS_LEAVES_RANGED n) ((entriesIn s.regs n).filter fun i => s.fld (fLEAF_W0_STATE n i) == 2).length

/-- Set the STATE of an entry (R191). -/
def setLeafState (n i st : Nat) (s : State) : State := countRanged n (s.setF (fLEAF_W0_STATE n i) st)

/-- What the hub keeps of a leaf beside its entry. -/
def State.leafX (s : State) (n i : Nat) : LeafX := smGet (fun _ => LeafX.init) (s.hubOf n).leaves i

/-- Replace it. -/
def setLeafX (n i : Nat) (x : LeafX) (s : State) : State :=
  setHub n { s.hubOf n with leaves := smSet (fun _ => LeafX.init) (s.hubOf n).leaves i x } s

/-- A leaf's counters, the 16-bit one of its entry and its 48-bit companion (R191, R434). -/
def leafCount (n i k : Nat) (f : Fld) (s : State) : State := count (kLeaf n i k) (s.bumpF f)

/-! ### Messages to leaves (R231) -/

/-- A message of a type to a leaf with a 40-bit body. -/
def leafMsg (type id body : Nat) : List Byte :=
  let b := [BitVec.ofNat 8 (type * 16 + id / 256 % 4), BitVec.ofNat 8 id] ++ be 5 body
  b ++ [crc8 b]

/-- The share that carries an entry's messages: the lowest of its downstream set. -/
def State.leafShare (s : State) (n i : Nat) : Nat := lowestSc (s.fld (fLEAF_W0_DS_SC n i))

/-- A message of types 4 to 7 waits for its share. -/
def sendMsg (n share : Nat) (m : List Byte) (s : State) : State :=
  setHub n { s.hubOf n with msgs := (s.hubOf n).msgs ++ [(share, m)] } s

/-- The join reply in the share of the listen subcarrier, by serial and nonce (R190, R231). -/
def sendJoin (n i listen serial : Nat) (nonce : List Byte) (s : State) : State :=
  let s := sendMsg n listen (leafMsg 5 i (unle nonce * 256 + serial % 256)) s
  sendMsg n listen (leafMsg 6 i (s.fld (fLEAF_W0_DS_SC n i) * 2 ^ 24 + s.fld (fLEAF_W1_RTD n i))) s

/-- A silence order or its release (R193). -/
def sendSilence (n i : Nat) (on : Bool) (s : State) : State := sendMsg n (s.leafShare n i) (leafMsg 7 i (b2n on)) s

/-! ### Loss of signal (R130, R184) -/

/-- Some ADC of the channel is FAILED: its receive path declares loss of signal for good (R130). -/
def State.adcFailed (s : State) (n : Nat) : Bool := (span 0 4).any fun c => s.flag (fCONV_STATUS_FAILED n c)

/-- The receive path of the channel delivers nothing: its feed is lost (R111), or an ADC is FAILED (R130). -/
def State.rxDead (s : State) (n : Nat) : Bool := (s.eng.get (ch4 n)).feedLost || s.adcFailed n

/-- `LINE_RX_STATUS.STATE` of a hub: 1 while `HUB_LOS` is set, 8 while it is clear (R184). -/
def hubState (n : Nat) (s : State) : State := s.setF (fLINE_RX_STATUS_STATE n) (if s.flag (fHUB_STATUS_HUB_LOS n) then 1 else 8)

/-- A hub's loss of signal (R184, R198); the second counts it in place of OOF, LOF and LOM (R232). -/
def hubLos (n : Nat) (s : State) : State :=
  if s.flag (fHUB_STATUS_HUB_LOS n) then s
  else gather n (fun a => { a with hubLos := true }) (offer 0x030B (bCH n) 0 0 (hubState n (s.setB (fHUB_STATUS_HUB_LOS n) true)))

/-- A commit ends `HUB_LOS` (R184), unless the receive path delivers nothing. -/
def hubLosClear (n : Nat) (s : State) : State :=
  if s.flag (fHUB_STATUS_HUB_LOS n) && !s.rxDead n then offer 0x030C (bCH n) 0 0 (hubState n (s.setB (fHUB_STATUS_HUB_LOS n) false)) else s

/-! ### Burst reception (R177 to R184) -/

/-- The burst receiver of subcarrier sc. -/
def State.brx (s : State) (n sc : Nat) : BurstRx := smGet (fun _ => BurstRx.init) (s.hubOf n).rx sc

/-- Replace it. -/
def setBrx (n sc : Nat) (b : BurstRx) (s : State) : State :=
  setHub n { s.hubOf n with rx := smSet (fun _ => BurstRx.init) (s.hubOf n).rx sc b } s

/-- The prompter restores a leaf table entry from its shadow (R371): a burst in its grants is not received meanwhile. -/
def restoreLeaf (n i : Nat) (s : State) : State :=
  let s := (s.setF (fLEAF_W4_FREQ_HIST n i) 0).setF (fLEAF_W2_CD_LEARNT n i) (s.fld (fLEAF_W2_CD_PRESET n i))
  each (span 0 16) (fun sc s =>
    match (s.brx n sc).grant with
    | some g => if s.fld (fGRANT_B_LEAF n g) = i then setBrx n sc { s.brx n sc with det := none, commit := none, desc := none, discard := true } s else s
    | none => s) s

/-- The receiver reads leaf entry i (R371). -/
def meetLeaf (n i : Nat) (s : State) : State :=
  if 2 ≤ s.flipsIn (stLEAF n) i then setFlips (stLEAF n) i 0 (restoreLeaf n i (sramUnc (stLEAF n) i s)) else sramRead (stLEAF n) i s

/-- A grant of entry i begins, which an armed capture may wait for (R459). -/
def capGrant (n i : Nat) (s : State) : State :=
  match s.test.cap with
  | some a => if a.cap.ch = n && a.cap.kind == 4 && a.cap.value == i then { s with test := { s.test with cap := some { a with granted := true } } } else s
  | none => s

/-- `GRANT_START` (R171, R178): the receiver of grant g's subcarrier loads the owner's presets and arms. A grant whose
entry has no leaf is not received. -/
def execGrantStart (n : Ch) (g : Fin 4096) (s : State) : Host.Outcome State Fault Refusal :=
  let i := s.fld (fGRANT_B_LEAF n g)
  if !s.isHub n || !s.flag (fGRANT_B_VALID n g) then ok s
  else if !s.leafBound n i then ok (capGrant n i s)
  else
    let s := capGrant n i s
    let s := meetLeaf n i (setBrx n (s.fld (fGRANT_A_SC n g)) { BurstRx.init with grant := some g } s)
    let pre := (s.sfld (fLEAF_W3_EXP_PWR n i), s.sfld (fLEAF_W2_CD_LEARNT n i), s.sfld (fLEAF_W4_FREQ_HIST n i))
    ok (setBrx n (s.fld (fGRANT_A_SC n g)) { s.brx n (s.fld (fGRANT_A_SC n g)) with presets := pre } s)

/-- The stage-door receiver is the one of `SD_SC` during an opening (R187). -/
def State.doorAt (s : State) (n sc : Nat) : Bool := s.flag (fHUB_STATUS_SD_OPEN n) && s.fld (fHUB_SD_SD_SC n) == sc

/-- The receiver looks for a burst: a grant or an opening is there, nothing has committed, and its leaf's entry was whole (R371). -/
def State.armed (s : State) (n sc : Nat) : Bool :=
  s.isHub n && !s.rxDead n && !(s.brx n sc).discard && ((s.brx n sc).grant.isSome || s.doorAt n sc) && (s.brx n sc).commit.isNone

/-- `BURST_DETECTED` (R178): a correlation peak of `level` (0.01 dB) at t. -/
def execBurstDetected (n : Ch) (sc : Fin 16) (t : Nat) (level : Int) (s : State) : Host.Outcome State Fault Refusal :=
  let b := s.brx n sc
  if !s.armed n sc || b.det.isSome then ok s else ok (setBrx n sc { b with det := some t, level := level, fine := true } s)

/-- `FALSE_START` (R181, R187): at t no start word has come within 64 ns of detection, 600 ns in an opening. -/
def execFalseStart (n : Ch) (sc : Fin 16) (t : Nat) (s : State) : Host.Outcome State Fault Refusal :=
  let b := s.brx n sc
  match b.det with
  | none => ok s
  | some d =>
    let lim := if b.grant.isSome then 512 else 4800
    if !s.armed n sc || decide (t < d + lim) then ok s
    else
      let s := count (cCH n 24) (setBrx n sc { b with det := none, level := 0, fine := true } s)
      ok (setHub n { s.hubOf n with falseSec := (s.hubOf n).falseSec + 1 } s)

/-- `BURST_CAPTURE` (R182): a peak at least 3 dB stronger at t restarts the reception; with less than 24 ns of the sync field,
which ends at 88 ns, left after the 8 ns in which the AGC settles, the AFC takes `FREQ_HIST` unrefined. The stage-door receiver freezes
nothing. -/
def execBurstCapture (n : Ch) (sc : Fin 16) (t : Nat) (level : Int) (s : State) : Host.Outcome State Fault Refusal :=
  let b := s.brx n sc
  if !s.armed n sc || b.det.isNone || decide (level < b.level + 300) then ok s
  else ok (count (cCH n 25) (setBrx n sc { b with det := some t, level := level, fine := b.grant.isNone || decide (t ≤ 448) } s))

/-- The hub corrects a leaf's ranging (R179): the new delay counts from the next cycle. -/
def correctRanging (n i : Nat) (e : Int) (s : State) : State :=
  let rtd := (Int.ofNat (s.fld (fLEAF_W1_RTD n i)) + e).toNat % 2 ^ 24
  let s := s.setF (fLEAF_W1_RTD n i) rtd
  sendMsg n (s.leafShare n i) (leafMsg 4 i (rtd * 2 ^ 16 + (s.hubCycle n + 1) % 2 ^ 16)) s

/-- Ranging after a burst with arrival error e: beyond 4 ns at once, beyond 2 ns after four in a row (R179). -/
def rangeFollow (n i : Nat) (e : Int) (s : State) : State :=
  let x := s.leafX n i
  let d := if 16 < e.natAbs then x.drift + 1 else 0
  if 32 < e.natAbs || 4 ≤ d then correctRanging n i e (setLeafX n i { x with drift := 0, missRun := 0 } s)
  else setLeafX n i { x with drift := d, missRun := 0 } s

/-- `BURST_COMMIT` (R179, R184): the start word ends at the nominal time plus e, in 0.125 ns. -/
def execBurstCommit (n : Ch) (sc : Fin 16) (e : Int) (s : State) : Host.Outcome State Fault Refusal :=
  let b := s.brx n sc
  match b.grant with
  | none => ok s
  | some g =>
    if !s.armed n sc || b.det.isNone then ok s
    else
      let s := hubLosClear n s
      if 192 < e.natAbs then ok (count (cCH n 26) (setBrx n sc { b with det := none, level := 0 } s))
      else
        let i := s.fld (fGRANT_B_LEAF n g)
        let s := count (kLeaf n i 6) (setBrx n sc { b with commit := some e } s)
        let s := if 64 < e.natAbs then offer 0x0306 (bCH n) i (unsigned 16 e) (leafCount n i 2 (fLEAF_W6_MISRANGED n i) s) else s
        ok (rangeFollow n i e s)

/-- A descriptor as R214 lays it out: none where its CRC or a reserved byte is bad; its leaf is read if the CRC holds. -/
def descLeaf (d : List Byte) : Nat := if fld d 28 4 = (crc32c (slice d 0 28)).toNat then fld d 0 2 % 1024 else 0x3FF

/-- Whether a descriptor is good. -/
def descGood (d : List Byte) : Bool :=
  d.length == 32 && fld d 28 4 == (crc32c (slice d 0 28)).toNat && decide (fld d 0 2 < 1024) && (slice d 16 12).all fun b => b == 0#8

/-- `BURST_DESCRIPTOR` (R183, R190, R214): the descriptor's codeword, decoded. -/
def execBurstDescriptor (n : Ch) (sc : Fin 16) (d : Codeword) (s : State) : Host.Outcome State Fault Refusal :=
  let b := s.brx n sc
  match b.grant, b.commit with
  | some g, some e =>
    if !s.isHub n || b.desc.isSome || b.discard then ok s
    else
      let i := s.fld (fGRANT_B_LEAF n g)
      let (r, out) := Qc.descriptor.decode d.est.length d
      let x := slice out 0 32
      let good := r.ok && descGood x
      if good && descLeaf x == i then
        let s := setBrx n sc { b with desc := some ⟨fld x 2 6, fld x 8 2, fld x 10 5, fld x 15 1⟩ } s
        if s.fld (fLEAF_W0_STATE n i) = 1 then ok (offer 0x0303 (bCH n) i (unsigned 16 e) (setLeafState n i 2 s)) else ok s
      else
        let s := setBrx n sc { b with discard := true } s
        let s := if good then s else count (cCH n 11) s
        let named := if r.ok then descLeaf x else 0x3FF
        ok (offer 0x0307 (bCH n) (i + 65536 * named) 0 (leafCount n i 3 (fLEAF_W6_WRONG_ID n i) s))
  | _, _ => ok s

/-- `BURST_COLLISION` (R183): an energy step (0.01 dB) over four blocks before the descriptor's length ends; more than 6 dB
marks the burst collided and is charged to the owner once. -/
def execBurstCollision (n : Ch) (sc : Fin 16) (step : Int) (s : State) : Host.Outcome State Fault Refusal :=
  let b := s.brx n sc
  match b.grant with
  | none => ok s
  | some g =>
    if !s.isHub n || b.commit.isNone || b.collided || decide (step.natAbs ≤ 600) then ok s
    else
      let i := s.fld (fGRANT_B_LEAF n g)
      let s := leafCount n i 0 (fLEAF_W5_ROGUE n i) (setBrx n sc { b with collided := true } s)
      let x := s.leafX n i
      let s := setLeafX n i { x with rogueSec := x.rogueSec + 1 } s
      ok (offer 0x0305 (bCH n) (i + 1024 * sc) (s.fld (fLEAF_W5_ROGUE n i)) s)

/-- Payload blocks of a grant of LEN quanta (R174). -/
def burstBlocks (len : Nat) : Nat := (500 * len - 1600) / 128

/-- Bytes of the codewords of a burst of m blocks, in order (R176). -/
def burstCws (m : Nat) : List Nat := List.replicate (m / 5) 1024 ++ (if 2 ≤ m % 5 then [256 * (m % 5 - 1)] else [])

/-- Payload capacity of a grant of LEN quanta, in bytes (R176). -/
def burstCap (len : Nat) : Nat := (burstCws (burstBlocks len)).foldl (· + ·) 0

/-- `BURST_CODEWORD_DECODED` (R183, R212, R213): the next codeword of a burst in a grant. -/
def execBurstCodewordDecoded (n : Ch) (sc : Fin 16) (cw : Codeword) (s : State) : Host.Outcome State Fault Refusal :=
  let b := s.brx n sc
  match b.grant with
  | none => ok s
  | some g =>
    match (burstCws (burstBlocks (s.fld (fGRANT_A_LEN n g))))[b.chunks.length]? with
    | none => ok s
    | some k =>
      if !s.isHub n || b.desc.isNone || b.discard then ok s
      else
        let i := s.fld (fGRANT_B_LEAF n g)
        let (r, bytes) := burstDecode (1 + k / 256) cw
        let s := count (kLeaf n i 4) (count (cCH n 8) (setBrx n sc { b with chunks := b.chunks ++ [(r.ok, slice bytes 0 k)] } s))
        ok (if r.ok then countN (cCH n 10) r.errs s else count (kLeaf n i 5) (count (cCH n 9) s))

/-- Bytes off to off + len of the codewords, if every codeword they touch decoded. -/
def chunkBytes : List (Bool × List Byte) → Nat → Nat → Option (List Byte)
  | [], _, len => if len = 0 then some [] else none
  | (good, bs) :: r, off, len =>
    if len = 0 then some []
    else if bs.length ≤ off then chunkBytes r (off - bs.length) len
    else
      let k := min len (bs.length - off)
      if good then (chunkBytes r 0 (len - k)).map fun t => slice bs off k ++ t else none

/-- A segment joins the upstream frame it belongs to, or is late (R186). -/
def takeSegment (n i fn : Nat) (bs : List Byte) (s : State) : State :=
  let h := s.hubOf n
  match h.nextRel with
  | some f => if fnDiff fn f < 0 then count (cCH n 28) s else setHub n { h with segs := h.segs ++ [(fn, i, bs)] } s
  | none => setHub n { h with segs := h.segs ++ [(fn, i, bs)] } s

/-- Segments of a burst: `k` from frame fn on, each of len bytes. -/
def takeSegments (n i len : Nat) (cs : List (Bool × List Byte)) : Nat → Nat → Nat → State → State
  | 0, _, _, s => s
  | k + 1, off, fn, s =>
    let s := match chunkBytes cs off len with | some bs => takeSegment n i (fn % 2 ^ 48) bs s | none => s
    takeSegments n i len cs k (off + len) (fn + 1) s

/-- Tags of a burst, `k` from multiframe m on, with the multiframe that each covers (R186); one that a bad codeword touches is discarded
(R213). -/
def takeTags (n i : Nat) (cs : List (Bool × List Byte)) : Nat → Nat → Nat → State → State
  | 0, _, _, s => s
  | k + 1, off, m, s =>
    let h := s.hubOf n
    let s := match chunkBytes cs off 16 with | some bs => setHub n { h with tags := h.tags ++ [(i, m % 2 ^ 40, bs)] } s | none => s
    takeTags n i cs k (off + 16) (m + 1) s

/-- A grant in which no burst committed (R184). -/
def grantMissed (n i : Nat) (s : State) : State :=
  let s := leafCount n i 1 (fLEAF_W5_MISSED n i) s
  let x := s.leafX n i
  let s := setLeafX n i { x with missRun := sat 10 (x.missRun + 1) } s
  if x.missRun + 1 = 10 then offer 0x0308 (bCH n) i 0 s else s

/-- `BURST_END` (R178, R180, R184, R186): the end of tail or of the grant. `power` (0.01 dBm), `afc` (MHz) and `cd`
(10 ps/nm) are what the receiver measured. -/
def execBurstEnd (n : Ch) (sc : Fin 16) (power afc cd : Int) (s : State) : Host.Outcome State Fault Refusal :=
  let b := s.brx n sc
  match b.grant with
  | none => ok s
  | some g =>
    if !s.isHub n then ok s
    else
      let i := s.fld (fGRANT_B_LEAF n g)
      let s := setBrx n sc BurstRx.init s
      if b.commit.isNone then ok (grantMissed n i s)
      else
        let old := s.sfld (fLEAF_W4_FREQ_HIST n i)
        let hist := if b.fine then (7 * old + afc) / 8 else old
        let s := ((s.setF (fLEAF_W4_FREQ_HIST n i) (sat16 hist)).setF (fLEAF_W4_POWER_LAST n i) (sat16 power)).setF (fLEAF_W2_CD_LEARNT n i) (sat16 cd)
        let dev := decide (300 < (power - 25 * s.sfld (fLEAF_W3_EXP_PWR n i)).natAbs)
        let s := if dev then s.setB (fHUB_STATUS_POWER_DEV n) true else s
        let slots := (clientSlots s.rx n i).length
        match b.desc with
        | some d =>
          let frames := if slots = 0 then 0 else d.frames
          ok (if b.discard then s
            else takeTags n i b.chunks d.tags (32 * slots * frames) d.firstTag (takeSegments n i (32 * slots) b.chunks frames 0 d.first s))
        | none => ok s

/-- `HUB_LOS_SET` (R184): no burst has committed for 1 ms in which a grant was in force. -/
def execHubLosSet (n : Ch) (s : State) : Host.Outcome State Fault Refusal :=
  if !s.isHub n || (grantsIn s.regs n).isEmpty then ok s else ok (hubLos n s)

/-! ### Upstream frames (R186, R232) -/

/-- The bytes of slot j of upstream frame f, if its segment came. -/
def upSlot (s : State) (n f j : Nat) : Option (List Byte) :=
  match slotClient s.rx n j with
  | none => none
  | some c => ((s.hubOf n).segs.find? fun e => e.1 == f && e.2.1 == c).map fun e =>
      slice e.2.2 (32 * ((clientSlots s.rx n c).filter fun k => decide (k < j)).length) 32

/-- `PLAYOUT` has passed since downstream frame f was transmitted (R186): frames since then, of 131,072 bits at 1.008 N each. -/
def State.playoutOver (s : State) (n f : Nat) : Bool :=
  decide (0 ≤ fnDiff (s.ohOf n).tx.fn f) &&
    decide (s.fld (fHUB_PLAYOUT_PLAYOUT n) * 1000 * (1008 * s.fld (fLINE_MODE_NET_RATE n)) ≤ (fnDiff (s.ohOf n).tx.fn f).toNat * 1310720)

/-- `UPSTREAM_FRAME_RELEASE` (R186, R213, R232): the next frame goes to the deframer; a slot without a segment is filled.
The overhead is 0 and nothing of it is checked. A receive path that is dead delivers no frame (R130). -/
def execUpstreamFrameRelease (n : Ch) (s : State) : Host.Outcome State Fault Refusal :=
  let h := s.hubOf n
  match h.nextRel with
  | none => ok s
  | some f =>
    if !s.isHub n || s.rxDead n || !s.playoutOver n f then ok s
    else
      let cs := assignedClients s.rx n
      let have_ := fun c => h.segs.any fun e => e.1 == f && e.2.1 == c
      let gone := cs.filter fun c => !have_ c
      let filled := !gone.isEmpty
      let pay := (span 0 512).flatMap fun j => (upSlot s n f j).getD (List.replicate 32 0#8)
      let s := setHub n { h with nextRel := some ((f + 1) % 2 ^ 48), segs := h.segs.filter fun e => e.1 != f } s
      let s := setOh n { s.ohOf n with lastFn := f, fn := (f + 1) % 2 ^ 48 } (s.setB (fOH_RX_STATUS_FN_VALID n) true)
      let s := gather n (fun a => { a with frames := a.frames + 1, err := a.err + b2n filled }) s
      let s := if filled then count (cCH n 18) s else s
      ok (releasePayload n f 0 gone [] pay s)

/-! ### The stage door (R185 to R189) -/

/-- The stage-door receiver begins afresh: a discovery burst has been received, or the opening ends. -/
def doorDone (n : Nat) (s : State) : State :=
  let sc := s.fld (fHUB_SD_SD_SC n)
  if (s.brx n sc).grant.isSome then s else setBrx n sc BurstRx.init s

/-- `STAGE_DOOR_OPENING` (R185): an opening begins, in a cycle whose number is a multiple of 10 x PERIOD, or ends. -/
def execStageDoorOpening (n : Ch) (opens : Bool) (s : State) : Host.Outcome State Fault Refusal :=
  if !s.isHub n then ok s
  else if !opens then ok ((doorDone n s).setB (fHUB_STATUS_SD_OPEN n) false)
  else if s.flag (fHUB_SD_SD_EN n) && s.hubCycle n % (10 * s.fld (fHUB_SD_PERIOD_PERIOD n)) = 0 then ok (s.setB (fHUB_STATUS_SD_OPEN n) true)
  else ok s

/-- The entry a serial is bound to. -/
def State.boundTo (s : State) (n serial : Nat) : Option Nat :=
  (entriesIn s.regs n).find? fun i => s.leafBound n i && s.leafSerial n i == serial

/-- The list without its oldest entry. -/
def dropOldest (l : List SdEntry) : List SdEntry :=
  let t := l.foldl (fun a e => min a e.heard.toNat) (2 ^ 64)
  match l.find? fun e => e.heard.toNat == t with
  | some x => l.filter fun e => e.serial != x.serial
  | none => l

/-- A serial not bound to an entry is listed or refreshed (R189). -/
def listSerial (n : Nat) (e : SdEntry) (s : State) : State :=
  let h := s.hubOf n
  match h.list.find? fun x => x.serial == e.serial with
  | some x => setHub n { h with list := replaceFirst (fun y => y.serial == e.serial) (fun _ => { e with bursts := x.bursts + 1 }) h.list } s
  | none =>
    let l := if 64 ≤ h.list.length then dropOldest h.list else h.list
    offer 0x0301 (bCH n) (e.serial % 2 ^ 32) (e.rtd / 64) (setHub n { h with list := l ++ [e] } s)

/-- `DISCOVERY_BURST_RECEIVED` (R184, R187, R189, R215): its start word has been found, a commit; the codeword of the 36-byte message, and
the measured delay (0.125 ns), power (0.01 dBm) and frequency (MHz). A collided burst counts. -/
def execDiscoveryBurstReceived (n : Ch) (msg : Codeword) (collided : Bool) (rtd : Nat) (power freq : Int) (s : State) :
    Host.Outcome State Fault Refusal :=
  if !s.isHub n || s.rxDead n || !s.flag (fHUB_STATUS_SD_OPEN n) then ok s
  else
    let s := hubLosClear n (doorDone n s)
    let s := if collided then count (cCH n 27) s else s
    let (r, out) := Qc.discovery.decode msg.est.length msg
    let m := slice out 0 36
    if !r.ok || fld m 32 4 != (crc32c (slice m 0 32)).toNat then ok s
    else
      let serial := fld m 0 8
      match s.boundTo n serial with
      | some i =>
        let s := sramWrite (stLEAF n) i (setLeafState n i 1 (s.setF (fLEAF_W1_RTD n i) rtd))
        ok (sendJoin n i (fld m 28 1 % 16) serial (slice m 24 4) (offer 0x0304 (bCH n) i 0 s))
      | none => ok (listSerial n ⟨serial, slice m 8 16, rtd, power, freq, fld m 28 1 % 16, slice m 24 4, s.life, 1⟩ s)

/-- `STAGE_DOOR_ENTRY_AGED` (R189): an entry without a burst for 10 s is dropped. -/
def execStageDoorEntryAged (n : Ch) (serial : Nat) (s : State) : Host.Outcome State Fault Refusal :=
  let h := s.hubOf n
  ok (setHub n { h with list := h.list.filter fun e => e.serial != serial || decide (s.life.toNat < e.heard.toNat + 10000000000) } s)

/-! ### Every second (R195, R198) -/

/-- Silence a leaf: its STATE, the order, the record. -/
def silenceLeaf (n i : Nat) (byLimit : Bool) (s : State) : State :=
  let x := s.leafX n i
  let was := if s.fld (fLEAF_W0_STATE n i) = 3 then x.was else s.fld (fLEAF_W0_STATE n i)
  let s := setLeafState n i 3 (setLeafX n i { x with was := was } s)
  offer 0x0309 (bCH n) (i + (if byLimit then 2 ^ 31 else 0)) 0 (sendSilence n i true s)

/-- `ROGUE_LIMIT_CHECK` (R195): leaves whose ROGUE rose by the limit within the second are silenced. -/
def execRogueLimitCheck (n : Ch) (s : State) : Host.Outcome State Fault Refusal :=
  let lim := s.fld (fHUB_ROGUE_ROGUE_LIMIT n)
  let xs := (s.hubOf n).leaves
  let bad := if lim = 0 then [] else (xs.filter fun e => decide (lim ≤ e.2.rogueSec) && s.leafBound n e.1 && s.fld (fLEAF_W0_STATE n e.1) != 3).map Prod.fst
  let s := each (xs.map Prod.fst) (fun i s => setLeafX n i { s.leafX n i with rogueSec := 0 } s) s
  ok (each bad (fun i s => silenceLeaf n i true s) s)

/-- `FALSE_START_RATE_HIGH` (R198): the second's false starts, recorded above 10,000. -/
def execFalseStartRateHigh (n : Ch) (s : State) : Host.Outcome State Fault Refusal :=
  let k := (s.hubOf n).falseSec
  let s := setHub n { s.hubOf n with falseSec := 0 } s
  ok (if 10000 < k then offer 0x0312 (bCH n) k 0 s else s)

/-! ### Hub commands (R197) -/

/-- The channel's running ROLE is not hub. -/
def State.notHub (s : State) (n : Nat) : Bool := s.fld (fHUB_CTRL_ROLE n) != 1

/-- An entry of the stage-door list as `HUB_SD_LIST` gives it. -/
def sdBytes (s : State) (e : SdEntry) : List Byte :=
  le 8 e.serial ++ slice e.digest 0 16 ++ le 4 e.rtd ++ le 2 (sat16 e.power) ++ le 2 (sat16 e.freq) ++ le 1 e.listen ++ [0#8] ++
    le 2 (sat 65535 ((s.life.toNat - e.heard.toNat) / 1000000)) ++ le 2 (sat 65535 e.bursts) ++ le 2 0

/-- `HUB_SD_LIST`. -/
def cmdHubSdList : Cmd where
  code := 0x0280
  access := accAll
  params := fun ps _ => firstBad [badCh ps]
  body := fun q s =>
    let n := fld q.params 0 1
    let l := (s.hubOf n).list
    if s.notHub n then .error { status := stWRONG_STATE }
    else .ok (s, .done ([BitVec.ofNat 8 l.length, 0#8] ++ l.flatMap (sdBytes s)))

/-- `HUB_SD_LIST`. -/
def execHubSdList (q : Request) (s : State) : Host.Outcome State Fault Refusal := serve cmdHubSdList q s

/-- The checks of a channel and entry parameter. -/
def badEntryParam (ps : List Byte) : Bool × Nat := (miss ps 2 2 || decide (1023 < fld ps 2 2), 2)

/-- The mark of a join reply of an entry among the targets of operations. -/
def tJoin (n i : Nat) : Nat := 0x10000 + 1024 * n + i

/-- `HUB_LEAF_ADMIT` (R190, R197): the reply follows the join reply. -/
def cmdHubLeafAdmit : Cmd where
  code := 0x0281
  access := accOpRem
  params := fun ps _ => firstBad [badCh ps, (miss ps 1 1 || fld ps 1 1 != 0, 1), badEntryParam ps, (miss ps 4 8, 4)]
  touches := fun q _ => [resCH (fld q.params 0 1)]
  body := fun q s =>
    let n := fld q.params 0 1
    let i := fld q.params 2 2
    let serial := fld q.params 4 8
    if s.notHub n || !s.flag (fLEAF_W0_VALID n i) || s.fld (fLEAF_W0_STATE n i) ≠ 0 then .error { status := stWRONG_STATE }
    else match (s.hubOf n).list.find? fun e => e.serial == serial with
      | none => .error { status := stWRONG_STATE }
      | some e =>
        if (s.boundTo n serial).isSome || decide (s.fld (fHUB_PLAYOUT_PLAYOUT n) * 8000 < e.rtd + 174000 * 8) then .error (conflict (bCH n))
        else
          let s := each (span 0 8) (fun k s => cntClear (kLeaf n i k) s) ((s.wr (rLEAF_W5 n i) 0#32).wr (rLEAF_W6 n i) 0#32)
          let s := (s.wr (rLEAF_W7 n i) (BitVec.ofNat 32 serial)).wr (rLEAF_W8 n i) (BitVec.ofNat 32 (serial / 2 ^ 32))
          let s := (s.setF (fLEAF_W1_RTD n i) e.rtd).setF (fLEAF_W2_CD_LEARNT n i) (s.fld (fLEAF_W2_CD_PRESET n i))
          let s := sramWrite (stLEAF n) i (setLeafState n i 1 (setLeafX n i LeafX.init s))
          let s := setHub n { s.hubOf n with list := (s.hubOf n).list.filter fun x => x.serial != serial } s
          let s := sendJoin n i e.listen serial e.nonce s
          .ok (offer 0x0302 (bCH n) (i + 1024 * (e.rtd / 64)) 0 s, .defer (opOf q 0x0281 [] [tJoin n i] s (reply := true)))

/-- `HUB_LEAF_ADMIT`. -/
def execHubLeafAdmit (q : Request) (s : State) : Host.Outcome State Fault Refusal := serve cmdHubLeafAdmit q s

/-- A grant or a slot names an entry. -/
def entryNamed (rd : Reader) (grants : List Nat) (n i : Nat) : Bool :=
  (grants.any fun g => grantLeaf rd n g == i) || (span 0 512).any fun j => slotClient rd n j == some i

/-- `HUB_LEAF_EVICT`. -/
def cmdHubLeafEvict : Cmd where
  code := 0x0282
  access := accOpRem
  params := fun ps _ => firstBad [badCh ps, (miss ps 1 1 || fld ps 1 1 != 0, 1), badEntryParam ps]
  touches := fun q _ => [resCH (fld q.params 0 1)]
  body := fun q s =>
    let n := fld q.params 0 1
    let i := fld q.params 2 2
    if s.notHub n then .error { status := stWRONG_STATE }
    else if entryNamed s.rd (grantsIn s.regs n) n i then .error (conflict (bCH n))
    else
      let s := setLeafState n i 0 (sendSilence n i true s)
      .ok ((s.wr (rLEAF_W7 n i) 0#32).wr (rLEAF_W8 n i) 0#32, .done [])

/-- `HUB_LEAF_EVICT`. -/
def execHubLeafEvict (q : Request) (s : State) : Host.Outcome State Fault Refusal := serve cmdHubLeafEvict q s

/-- `HUB_LEAF_SILENCE`: an entry without a leaf is left as it is. -/
def cmdHubLeafSilence : Cmd where
  code := 0x0283
  access := accOpRem
  params := fun ps _ => firstBad [badCh ps, (miss ps 1 1 || decide (1 < fld ps 1 1), 1), badEntryParam ps]
  touches := fun q _ => [resCH (fld q.params 0 1)]
  body := fun q s =>
    let n := fld q.params 0 1
    let i := fld q.params 2 2
    let st := s.fld (fLEAF_W0_STATE n i)
    if s.notHub n then .error { status := stWRONG_STATE }
    else if fld q.params 1 1 = 1 then .ok (if st = 0 then s else silenceLeaf n i false s, .done [])
    else if st = 3 then .ok (offer 0x030A (bCH n) i 0 (sendSilence n i false (setLeafState n i (s.leafX n i).was s)), .done [])
    else .ok (s, .done [])

/-- `HUB_LEAF_SILENCE`. -/
def execHubLeafSilence (q : Request) (s : State) : Host.Outcome State Fault Refusal := serve cmdHubLeafSilence q s

/-- `HUB_CYCLE` as read. -/
def State.hubCycleReg (s : State) (n : Nat) : Nat := if s.isHub n then s.hubCycle n else 0

/-- `HUB_REPORT`. -/
def cmdHubReport : Cmd where
  code := 0x0284
  access := accAll
  params := fun ps _ => firstBad [badCh ps]
  body := fun q s =>
    let n := fld q.params 0 1
    if s.notHub n then .error { status := stWRONG_STATE }
    else .ok (s, .done (le 4 (s.rd (rHUB_STATUS n)).toNat ++ le 4 (s.hubCycleReg n) ++
      (span 24 5).flatMap fun k => le 4 (smGet (fun _ => 0#49) s.cnt.store (cCH n k)).toNat))

/-- `HUB_REPORT`. -/
def execHubReport (q : Request) (s : State) : Host.Outcome State Fault Refusal := serve cmdHubReport q s

/-- `HUB_LEAF_REPORT`. -/
def cmdHubLeafReport : Cmd where
  code := 0x0285
  access := accAll
  params := fun ps _ => firstBad [badCh ps, (miss ps 1 1 || fld ps 1 1 != 0, 1), badEntryParam ps]
  body := fun q s =>
    let n := fld q.params 0 1
    let i := fld q.params 2 2
    if s.notHub n then .error { status := stWRONG_STATE }
    else .ok (s, .done ((span 0 16).flatMap fun k => le 4 (if k < 9 then (s.rd (rLEAF_W0 n i + 4 * k)).toNat else 0)))

/-- `HUB_LEAF_REPORT`. -/
def execHubLeafReport (q : Request) (s : State) : Host.Outcome State Fault Refusal := serve cmdHubLeafReport q s

end Sys2Proof.Machine
end

