-- ==== Sys2Proof/Machine/Leaf.lean ====
section
/-! DEFINITION. Hub downstream shares and the leaf (specs 08 and 10): the sixteen shares of a frame with their messages, a
leaf's reception, its states, bursts and messages; and the two frame commands of every channel. -/

namespace Sys2Proof.Machine

open Sys2Proof

/-! ### The hub's transmitter (R168, R230, R231) -/

/-- The message of grant g of a set of words: its owner's index and number of grants. -/
def grantMsg (rd : Reader) (gs : List Nat) (n type g : Nat) : List Byte :=
  let i := grantLeaf rd n g
  let own := gs.filter fun x => grantLeaf rd n x == i
  let idx := (own.filter fun x => decide (x < g)).length
  leafMsg type i (rdF rd (fGRANT_A_SC n g) * 2 ^ 36 + rdF rd (fGRANT_A_START n g) * 2 ^ 25 + rdF rd (fGRANT_A_LEN n g) * 2 ^ 14 +
    own.length % 32 * 2 ^ 9 + idx % 32 * 2 ^ 4)

/-- Grants of a set of words whose owners are announced on a share: the lowest subcarrier of their set. -/
def shareGrants (rd : Reader) (gs : List Nat) (n share : Nat) : List Nat :=
  gs.filter fun g => lowestSc (rdF rd (fLEAF_W0_DS_SC n (grantLeaf rd n g))) == share

/-- A list from its k-th entry on, round to it again. -/
def rotated {α : Type} (k : Nat) (l : List α) : List α := l.drop (k % (l.length + 1)) ++ l.take (k % (l.length + 1))

/-- The grant set that is announced, if any, and the running one. -/
def State.grantWords (s : State) (n : Nat) : Reader × List Nat × Nat :=
  match (s.hubOf n).mapCycle, s.session (12 + n) with
  | some _, some r => (bankRd r.bank, grantsIn r.bank n, 2)
  | _, _ => (s.rd, grantsIn s.regs n, 1)

/-- The reply of a leaf's admission follows its second part (R197). -/
def joinSent (n : Nat) (m : Nat × List Byte) (s : State) : State :=
  if fld m.2 0 1 / 16 = 6 then targetDone 0x0281 (tJoin n (fld m.2 0 1 % 4 * 256 + fld m.2 1 1)) none [] s else s

/-- The 60 messages of a share for one multiframe (R231): type 8 in positions 48 to 59, the others before it in their
order of precedence, over the free type-8 positions last. -/
def shareMessages (n : Nat) (fab : List (List Byte)) (k : Nat) (s : State) : State :=
  let h := s.hubOf n
  let pri := (h.msgs.filter fun m => m.1 == k).take 32
  let left := each pri (fun m l => l.erase m) h.msgs
  let t3 := if h.announce.contains k then [leafMsg 3 0x3FF ((h.mapCycle.getD 0) * 256)] else []
  let (rd, gs, ty) := s.grantWords n
  let mine := shareGrants rd gs n k
  let fab := fab.take 12
  let room := 60 - fab.length - pri.length - t3.length
  let at_ := smGet (fun _ => 0) h.rot k % (mine.length + 1)
  let sent := (rotated at_ mine).take room
  let next := if mine.isEmpty then 0 else (at_ + sent.length) % mine.length
  let others := pri.map Prod.snd ++ t3 ++ sent.map (grantMsg rd gs n ty)
  let all := slice (others.take 48).flatten 0 384 ++ slice (fab ++ others.drop 48).flatten 0 96
  let s := setHub n { h with msgs := left, announce := h.announce.filter (fun x => x != k), rot := smSet (fun _ => 0) h.rot k next,
                             mf := smSet (fun _ => []) h.mf k all } s
  each pri (joinSent n) s

/-- Service bytes 0 to 16 of a multiframe that begins now with frame fn (R230): frame number, grant timeline, next opening,
SSM. -/
def svcHead (s : State) (n fn : Nat) : List Byte :=
  let per := 10 * s.fld (fHUB_SD_PERIOD_PERIOD n)
  let c := s.hubCycle n
  let later := decide (s.fld (fHUB_SD_SD_OFFSET n) * 256 < s.hubOffset n)
  let open_ := if c % per = 0 && !later then c else (c / per + 1) * per
  be 5 (fn / 256) ++ be 4 c ++ be 3 (s.hubOffset n) ++ be 4 open_ ++ be 1 (s.ssmSent n)

/-- Share k of a new multiframe: its messages, twelve fabric units at most among them. -/
def hubShare (n k : Nat) (s : State) : State :=
  let l := s.link n
  let mine := (l.staged.filter fun e => e.1 == k).take 12
  let rest := mine.foldl (fun r e => r.erase e) l.staged
  shareMessages n (mine.map fun e => leafMsg 8 e.2.1 (unbe e.2.2)) k (s.setLink n { l with staged := rest })

/-- A new multiframe at a hub's transmitter. -/
def hubMultiframe (n fn : Nat) (s : State) : State :=
  let s := txMultiframe n s
  let head := svcHead s n fn
  let s := each (span 0 16) (hubShare n) s
  setHub n { s.hubOf n with mf := smSet (fun _ => []) (s.hubOf n).mf 16 head } s

/-- Service and message byte of a share at MFAS m: in each frame the service byte comes first (R230, R231). -/
def svcByte (s : State) (n k m : Nat) : List Byte :=
  let h := s.hubOf n
  let msgs := smGet (fun _ => []) h.mf k
  let head := smGet (fun _ => []) h.mf 16
  if m < 32 then slice head m 1 ++ slice msgs m 1 else slice msgs (32 + 2 * (m - 32)) 2

/-- Share k of frame fn with payload bytes, scrambled for the line (R230). -/
def shareBytes (s : State) (n k fn : Nat) (pay : List Byte) : List Byte :=
  let m := fn % 256
  scrFrame 3 fn (be 2 0x3B5D ++ be 1 m ++ be 1 ((s.ohOf n).tx.bip8.getD k 0) ++ slice (s.tagSent n (32 * k + m / 8)) (2 * (m % 8)) 2 ++
    svcByte s n k m ++ slice pay (1024 * k) 1024)

/-- A frame of a hub: the sixteen shares go out on `out.bytes`, subcarrier 0 first, and their codewords, each of the shares of four frames,
to the subcarriers (R202, R203). -/
def sendHub (n : Nat) (faults : List (Nat × List (List Nat))) (s : State) : State :=
  let fn := (s.ohOf n).tx.fn
  let s := if fn % 256 = 0 then hubMultiframe n fn s else s
  let (pay, s) := txPayload n fn s
  let (ct, s) := if s.flag (fTST_PAT_GEN n) then (pay, s) else txCipher n fn faults pay s
  let shares := (span 0 16).map fun k => shareBytes s n k fn ct
  let o := s.ohOf n
  let s := setOh n { o with tx := { o.tx with fn := (fn + 1) % 2 ^ 48, bip8 := shares.map fun b => parity8 (b.drop 3) } } s
  let s := (s.wr (rOH_TX_FN_LO n) (BitVec.ofNat 32 fn)).wr (rOH_TX_FN_HI n) (BitVec.ofNat 32 (fn / 2 ^ 32))
  encodeFrame n fn (if s.flag (fFEC_CTRL_LOW_LAT n) then 4 else 16) hubLanes shares.flatten s

/-! ### The leaf (R188 to R194) -/

/-- The leaf state of channel n. -/
def State.leafOf (s : State) (n : Nat) : LeafSt := s.leaf.get (ch4 n)

/-- Replace it. -/
def setLeaf (n : Nat) (l : LeafSt) (s : State) : State := { s with leaf := s.leaf.set (ch4 n) l }

/-- The channel is an ACTIVE leaf. -/
def State.isLeaf (s : State) (n : Nat) : Bool := s.active n && s.fld (fHUB_CTRL_ROLE n) == 2

/-- STATE of a leaf (R192). -/
def State.leafSt (s : State) (n : Nat) : Nat := s.fld (fLEAF_STATUS_STATE n)

/-- Subcarriers a leaf demodulates: its downstream set, before it has one `LISTEN_SC` (R169). -/
def State.leafSet (s : State) (n : Nat) : List Nat :=
  if s.fld (fLEAF_STATUS_DS_SC n) = 0 then [s.fld (fLEAF_CTRL_LISTEN_SC n)]
  else (span 0 16).filter (bit (s.fld (fLEAF_STATUS_DS_SC n)))

/-- Every share of the set is aligned; every share is in multiframe lock. -/
def State.leafAligned (s : State) (n : Nat) : Bool := (s.leafSet n).all fun k => (s.hunt n k).align.isSome
def State.leafLocked (s : State) (n : Nat) : Bool := (s.leafSet n).all fun k => (s.hunt n k).align.isSome && (s.hunt n k).mfLock

/-- The receiver of a leaf tracks and is in multiframe lock (R193). -/
def State.leafUp (s : State) (n : Nat) : Bool := s.isLeaf n && s.fld (fLINE_RX_STATUS_STATE n) == 8 && s.leafLocked n

/-- The state a locked leaf is in (R192). -/
def leafLockedState (l : LeafSt) : Nat := if l.silenced then 6 else if !l.joined then 2 else if l.run.isEmpty then 4 else 5

/-- STATE follows the lock: an unjoined leaf that loses it acquires again at once, a joined one after R193's 100 ms. -/
def leafFollow (n : Nat) (s : State) : State :=
  let st := s.leafSt n
  if !s.isLeaf n then s.setF (fLEAF_STATUS_STATE n) 0
  else if s.leafUp n then (if st ≤ 1 then s.setF (fLEAF_STATUS_STATE n) (leafLockedState (s.leafOf n)) else s)
  else if st < 4 then s.setF (fLEAF_STATUS_STATE n) 1 else s

/-- Multiframe time of a channel at its running net rate, ns (R172, R176). -/
def State.multiframeNs (s : State) (n : Nat) : Nat := 335544320 / (1008 * s.fld (fLINE_MODE_NET_RATE n))

/-- A scrambled share in clear: with the frame's number, as far as it is known (R224, R230). -/
def shareClear (fn : Option Nat) (b : List Byte) : List Byte := scrFrame 3 (fn.getD (Config.shareNumber b * 256 + fld b 2 1)) b

/-- One share of a frame (R229, R230): parity, multiframe lock. -/
def shareIn (n : Nat) (good : Bool) (fn : Option Nat) (b : List Byte) (k : Nat) (a : Nat × State) : Nat × State :=
  let (errs, s) := a
  let h := s.hunt n k
  let e := match h.par with | some p => ones (p ^^^ fld (shareClear fn b) 3 1) 8 | none => 0
  (errs + e, setHunt n k (mfFrame good (fld b 2 1) { h with par := some (parity8 (b.drop 3)) }) s)

/-- What the service bytes of a multiframe say: frame number, timeline stamp, next opening, SSM (R230). -/
def svcIn (n m : Nat) (b : Byte) (s : State) : State :=
  let o := s.ohOf n
  let svc := if m = 0 then [b] else if o.svc.length = m && m < 17 then o.svc ++ [b] else o.svc
  let s := setOh n { o with svc := svc } s
  let l := s.leafOf n
  let s := if m = 0 then setLeaf n { l with mf0 := s.life } s else s
  if svc.length ≠ m + 1 then s
  else if m = 4 then setOh n { s.ohOf n with extSet := true, fn := unbe (slice svc 0 5) * 256 + 4 } s
  else if m = 11 then setLeaf n { s.leafOf n with stale := false, stamp := some (unbe (slice svc 5 4), unbe (slice svc 9 3), (s.leafOf n).mf0) } s
  else if m = 15 then setLeaf n { s.leafOf n with nextOpen := unbe (slice svc 12 4) } s
  else if m = 16 then
    let f := s.filt n
    let (v, r) := runOf f.ssmVal f.ssmRun (fld svc 16 1)
    let s := setFilt n { f with ssmVal := v, ssmRun := sat 5 r } s
    if 5 ≤ r then lineInput n (s.setF (fOH_RX_ACC_SSM n) (v % 16)) else s
  else s

/-- A frame assembled by a leaf goes to the cipher and the demapper; the slots of shares outside its set are 0, and their clients' content is
lost. -/
def leafRelease (n verdict : Nat) (share : Nat → List Byte) (s : State) : State :=
  let o := s.ohOf n
  let set := s.leafSet n
  let clear := fun k => scrFrame 3 o.fn (share k)
  let pay := (span 0 16).flatMap fun k => if set.contains k then slice (clear k) 8 1024 else List.replicate 1024 0#8
  let tags := set.map fun k => (32 * k + o.fn % 256 / 8, slice (clear k) 4 2)
  let lost := (assignedClients s.rx n).filter fun c => (clientSlots s.rx n c).any fun j => !set.contains (j / 32)
  let s := setOh n { o with lastFn := o.fn, fn := (o.fn + 1) % 2 ^ 48 } s
  let s := gather n (fun a => { a with frames := a.frames + 1 }) (s.setB (fOH_RX_STATUS_FN_VALID n) true)
  releasePayload n o.fn verdict lost tags pay s

/-- A frame of a decoded group: `share k` is what came on subcarrier k (R230). Shares with different MFAS make no frame. -/
def leafFrame (n v : Nat) (share : Nat → List Byte) (s : State) : State :=
  let set := s.leafSet n
  let first := share (set.headD 0)
  let m := fld first 2 1
  let v := if set.all fun k => fld (share k) 2 1 == m then v else 2
  let o := s.ohOf n
  let fn := if o.extSet then some o.fn else none
  let (errs, s) := set.foldl (fun a k => shareIn n (decide (v < 2)) fn (share k) k a) (0, countVerdict n v s)
  let s := bipCount n errs (v == 2) (lomFollow n (s.leafLocked n) s)
  let s := if v < 2 then svcIn n m ((shareClear fn first).getD 6 0#8) s else setOh n { s.ohOf n with svc := [] } s
  let s := if s.leafLocked n then s else setOh n { s.ohOf n with extSet := false } s
  if (s.ohOf n).extSet && s.leafUp n then leafRelease n v share s else setOh n { s.ohOf n with fn := ((s.ohOf n).fn + 1) % 2 ^ 48 } s

/-- The hunters of a leaf one of whose shares has lost alignment: the others keep theirs, and multiframe lock is gained afresh (R228, R230). -/
def shareLost (n : Nat) (s : State) : State :=
  let hunts := (s.ohOf n).hunts.map fun e => (e.1, { e.2 with mfLock := false, mfRun := 0, mfMiss := 0, par := none })
  let s := oofSet n s
  setOh n { s.ohOf n with hunts := hunts } s

/-- A line period of a leaf's downstream (R202, R230): the hard decisions of each subcarrier, and at the end of a group of four frames
the codewords of the set, whose fate its frames share. -/
def leafPeriod (n : Nat) (raw : List (List Byte)) (cws : List Codeword) (s : State) : State :=
  let set := s.leafSet n
  let was := s.leafAligned n
  let s := each set (fun k s => setHunt n k (huntPeriod (sawHits (raw.getD k [])) (s.hunt n k)) s) s
  let up := s.leafAligned n
  if was && !up then shareLost n s
  else
    let s := if up && !was then syncSet n s else s
    if cws.isEmpty || !(set.all fun k => (s.hunt n k).lead.isSome) then s
    else
      let out := set.map fun k => (k, s.decoded n (cws.getD k ⟨[], []⟩))
      let ds := out.map fun e => e.2.1
      if !up then failFollow n ds s
      else
        let word := fun k => ((out.find? fun e => e.1 == k).map fun e => e.2.2).getD []
        each (span 0 4) (fun j s => leafFrame n (verdictOf ds) (fun k => slice (word k) (1032 * j) 1032) s) (fecCount n ds (38184 * ds.length) true s)

/-- Cycle and offset (1/256 quantum) of the received timeline now (R193). -/
def timeline (s : State) (l : LeafSt) : Option (Nat × Nat) :=
  l.stamp.map fun (c, o, t) =>
    let v := c * 512000 + o + (s.life.toNat - t.toNat) * 256 / 50
    (v / 512000 % 2 ^ 32, v % 512000)

/-- Cycle a has reached cycle b, both of 32 bits. -/
def cycleReached (a b : Nat) : Bool := decide ((a + 2 ^ 32 - b) % 2 ^ 32 < 2 ^ 31)

/-- The announced map of a leaf takes over: received whole it is the map in force, else none is until type 1 gives it (R173, R193). -/
def takeNext (l : LeafSt) : LeafSt :=
  if l.nextCount != 0 && l.next.length == l.nextCount then { l with run := l.next, runCount := l.nextCount, next := [], nextCount := 0, ann := none }
  else { l with run := [], runCount := 0, next := [], nextCount := 0, ann := none }

/-- The leaf's maps in cycle c: the announced one from its cycle on. -/
def mapTurn (c : Nat) (l : LeafSt) : LeafSt :=
  match l.ann with
  | some e => if cycleReached c e then takeNext l else l
  | none => l

/-- The leaf has received the whole map in force. DESIGN CHOICE, assumption 128: grants of an announced map without the announcement say that a
map is coming whose cycle it has not received. -/
def mapHeld (l : LeafSt) : Bool := !l.run.isEmpty && l.run.length == l.runCount && (l.ann.isSome || l.nextCount == 0)

/-- A leaf's ranging correction counts from its first grant in the effective cycle or later (R179). -/
def newRanging (n c : Nat) (s : State) : State :=
  let l := s.leafOf n
  match l.newRtd with
  | some (r, e) =>
    if decide ((c + 2 ^ 16 - e) % 2 ^ 16 < 2 ^ 15) then setLeaf n { l with newRtd := none } (s.setF (fLEAF_RTD_RTD n) r) else s
  | none => s

/-- The leading run of upstream frames with consecutive numbers, complete by a time, at most k. -/
def upRun (t : Nat) : Nat → Option Nat → List (Nat × Nat × List Byte) → List (Nat × Nat × List Byte)
  | 0, _, _ => []
  | _ + 1, _, [] => []
  | k + 1, p, f :: r =>
    if f.2.1 ≤ t && (match p with | some x => f.1 == (x + 1) % 2 ^ 48 | none => true) then f :: upRun t k (some f.1) r else []

/-- The descriptor of a burst (R214). -/
def descOf (id fn frames tagMf tags : Nat) : List Byte :=
  let b := le 2 id ++ le 6 fn ++ le 2 frames ++ le 5 tagMf ++ le 1 tags ++ List.replicate 12 0#8
  b ++ le 4 (crc32c b).toNat

/-- The coded bits of a burst's codewords, each of so many bytes of information (R176, R212). -/
def burstLanes : List Nat → List Byte → List (List Bool)
  | [], _ => []
  | k :: ks, body => bitsOfBytes (burstEncode (1 + k / 256) (slice body 0 k)) :: burstLanes ks (body.drop k)

/-- A burst of a grant with LEN quanta: descriptor, then frames, tags and zeros to capacity (R174, R176); coded, the descriptor first. -/
def fireBurst (n len : Nat) (s : State) : State :=
  let l := s.leafOf n
  let cap := burstCap len
  let size := 32 * ((span 0 512).filter fun j => (slotClient s.rd n j).isSome).length
  let fr := if size = 0 then [] else upRun (s.life.toNat - 1000) (cap / size) none l.up
  let tg := l.tags.take (min 255 ((cap - size * fr.length) / 16))
  let d := descOf (s.fld (fLEAF_STATUS_LEAF_ID n)) ((fr.map Prod.fst).headD 0) fr.length ((tg.map Prod.fst).headD 0) tg.length
  let body := slice ((fr.flatMap fun f => slice f.2.2 0 size) ++ tg.flatMap fun t => slice t.2 0 16) 0 cap
  let s := retireTx n (s.leafFn n / 256) (setLeaf n { l with up := l.up.drop fr.length, tags := l.tags.drop tg.length } s)
  { s with out := { s.out with bytes := d ++ body, lanes := bitsOfBytes (Qc.descriptor.encode d) :: burstLanes (burstCws (burstBlocks len)) body } }

/-- The received timeline, with the leaf's delay added, in 1/256 quantum: the arrival at the hub of what it sends now (R171, R193). -/
def arrival (n : Nat) (now : Nat × Nat) (s : State) : Nat := now.1 * 512000 + now.2 + s.fld (fLEAF_RTD_RTD n) * 16 / 25

/-- A burst sent now arrives at its grant's start. DESIGN CHOICE, assumption 125: instants are told apart to 25 ns. -/
def onTime (a : Nat) (g : GrantMsg) : Bool := decide (g.start * 256 ≤ a % 512000) && decide (a % 512000 < g.start * 256 + 128)

/-- A timeline stamp has come within the last two multiframes (R193). -/
def State.stampFresh (s : State) (n : Nat) : Bool :=
  match (s.leafOf n).stamp with | some (_, _, t) => decide (s.life.toNat ≤ t.toNat + 2 * s.multiframeNs n) | none => false

/-- `LEAF_BURST_FIRE` (R175, R193): the received timeline reads S − RTD for the leaf's grant k, in the map of the cycle of S. Without a fresh
stamp the burst does not begin, which is recorded once (R198). -/
def execLeafBurstFire (n : Ch) (k : Nat) (s : State) : Host.Outcome State Fault Refusal :=
  let l := s.leafOf n
  if !s.leafUp n || l.silenced || !l.joined || !(s.leafSt n == 4 || s.leafSt n == 5) then ok s
  else match timeline s l with
    | none => ok s
    | some now =>
      let s := newRanging n (arrival n now s / 512000) s
      let a := arrival n now s
      let l := mapTurn (a / 512000 % 2 ^ 32) (s.leafOf n)
      match l.run.find? fun g => g.idx == k with
      | none => ok (setLeaf n l s)
      | some g =>
        let s := setLeaf n l s
        if !mapHeld l || !onTime a g then ok s
        else if s.stampFresh n then ok (fireBurst n g.len (s.setF (fLEAF_STATUS_STATE n) 5))
        else if l.stale then ok s
        else ok (offer 0x0322 (bCH n) (s.fld (fLEAF_STATUS_LEAF_ID n)) (s.leafSt n) (setLeaf n { l with stale := true } s))

/-- The timeline stands at the instant at which a leaf aims its discovery burst: O − RTD_HINT + (W − 963.8 ns) / 2 (R188). DESIGN CHOICE,
assumptions 125 and 126: told apart to 25 ns; the opening's offset and width are those of the leaf's own `HUB_SD`. -/
def aimed (n : Nat) (now : Nat × Nat) (s : State) : Bool :=
  let o := Int.ofNat ((s.leafOf n).nextOpen * 512000 + s.fld (fHUB_SD_SD_OFFSET n) * 256)
  let t := o - Int.ofNat (s.fld (fLEAF_CTRL_RTD_HINT n) * 16 / 25) + (Int.ofNat (clampN 1 100 (s.fld (fHUB_SD_SD_WIDTH n))) * 5120 - 4935) / 2
  decide ((Int.ofNat (now.1 * 512000 + now.2) - t) % (2 ^ 32 * 512000) < 128)

/-- `LEAF_DISCOVERY_FIRE` (R187 to R189): an opening comes; `heard` tells that the heard list names the leaf's serial. It fires
with probability 1/4, or once heard in every 64th opening. -/
def execLeafDiscoveryFire (n : Ch) (heard : Bool) (s : State) : Host.Outcome State Fault Refusal :=
  let l := s.leafOf n
  let due := match timeline s l with | some now => aimed n now s | none => false
  if !s.leafUp n || l.silenced || l.joined || !s.flag (fLEAF_CTRL_AUTO_JOIN n) || !(s.leafSt n == 2 || s.leafSt n == 3) || !s.stampFresh n || !due then ok s
  else
    let k := l.openings + 1
    let (v, s) := s.draw
    let (w, s) := s.draw
    let nonce := le 4 w
    if (if heard then k % 64 = 0 else v % 4 = 0) then
      let pub := (span 0 97).map Config.identity
      let b := le 8 Config.serial.toNat ++ (span 0 16).map (Config.sha384 pub) ++ nonce ++ le 1 (s.fld (fLEAF_CTRL_LISTEN_SC n)) ++ [0#8] ++
        le 2 Config.capFlags.toNat
      let m := b ++ le 4 (crc32c b).toNat
      let s := (setLeaf n { l with openings := k, nonce := nonce } s).setF (fLEAF_STATUS_STATE n) 3
      ok { s with out := { s.out with bytes := m, lanes := [bitsOfBytes (Qc.discovery.encode m)] } }
    else ok (setLeaf n { l with openings := k } s)

/-! ### Messages a leaf receives (R231) -/

/-- A message of a type with a good CRC-8: its leaf ID and 40-bit body. -/
def msgOf (type : Nat) (m : List Byte) : Option (Nat × Nat) :=
  if m.length = 8 && crc8 (m.take 7) == m.getD 7 0#8 && fld m 0 1 / 16 == type then some (fld m 0 1 % 4 * 256 + fld m 1 1, unbe (slice m 2 5)) else none

/-- The message is for this leaf: it has joined and carries its ID. -/
def forLeaf (s : State) (n id : Nat) : Bool := s.isLeaf n && (s.leafOf n).joined && s.fld (fLEAF_STATUS_LEAF_ID n) == id

/-- A grant joins those received of its map. A number of grants that differs starts the map afresh. -/
def addGrant (g : GrantMsg) (cnt : Nat) (l : List GrantMsg) (old : Nat) : List GrantMsg :=
  let l := if cnt = old then l else []
  if l.any fun x => x.idx == g.idx then replaceFirst (fun x => x.idx == g.idx) (fun _ => g) l else l ++ [g]

/-- `LEAF_GRANT_MESSAGE`: types 1 and 2. Type 1 comes while no announcement is in progress: an announced map is then in force (R231). -/
def execLeafGrantMessage (n : Ch) (msg : List Byte) (s : State) : Host.Outcome State Fault Refusal :=
  let read := fun (b : Nat) => (⟨bits b 8 4, bits b 39 36, bits b 35 25, bits b 24 14⟩, bits b 13 9)
  let l := s.leafOf n
  match msgOf 1 msg, msgOf 2 msg with
  | some (id, b), _ =>
    if !forLeaf s n id then ok s
    else
      let l := match timeline s l with | some (c, _) => mapTurn c l | none => l
      let l := if l.ann.isNone && l.nextCount != 0 then takeNext l else l
      let (g, cnt) : GrantMsg × Nat := read b
      let s := setLeaf n { l with run := addGrant g cnt l.run l.runCount, runCount := cnt } s
      ok (if s.leafSt n = 4 then s.setF (fLEAF_STATUS_STATE n) 5 else s)
  | none, some (id, b) =>
    if !forLeaf s n id then ok s
    else
      let (g, cnt) : GrantMsg × Nat := read b
      ok (setLeaf n { l with next := addGrant g cnt l.next l.nextCount, nextCount := cnt } s)
  | none, none => ok s

/-- `LEAF_MAP_ANNOUNCEMENT`: type 3, to every leaf. -/
def execLeafMapAnnouncement (n : Ch) (msg : List Byte) (s : State) : Host.Outcome State Fault Refusal :=
  let l := s.leafOf n
  match msgOf 3 msg with
  | some (id, b) =>
    let e := bits b 39 8
    if !s.isLeaf n || id ≠ 0x3FF || l.ann = some e then ok s
    else ok (setLeaf n { l with ann := some e, next := [], nextCount := 0 } s)
  | none => ok s

/-- `LEAF_RANGING_CORRECTION`: type 4. -/
def execLeafRangingCorrection (n : Ch) (msg : List Byte) (s : State) : Host.Outcome State Fault Refusal :=
  match msgOf 4 msg with
  | some (id, b) => if forLeaf s n id then ok (setLeaf n { s.leafOf n with newRtd := some (bits b 39 16, bits b 15 0) } s) else ok s
  | none => ok s

/-- `LEAF_JOIN_REPLY` (R190, R192): types 5 and 6, by nonce and serial. -/
def execLeafJoinReply (n : Ch) (a b : List Byte) (s : State) : Host.Outcome State Fault Refusal :=
  let l := s.leafOf n
  match msgOf 5 a, msgOf 6 b with
  | some (id, x), some (id', y) =>
    if !s.isLeaf n || s.leafSt n ≠ 3 || id ≠ id' || decide (bits x 39 8 ≠ unle l.nonce) || bits x 7 0 ≠ Config.serial.toNat % 256 then ok s
    else
      let s := setLeaf n { l with joined := true, run := [], runCount := 0, next := [], nextCount := 0, ann := none, newRtd := none } s
      let s := ((s.setF (fLEAF_STATUS_LEAF_ID n) id).setF (fLEAF_STATUS_DS_SC n) (bits y 39 24)).setF (fLEAF_RTD_RTD n) (bits y 23 0)
      let s := s.setF (fLEAF_STATUS_STATE n) (if s.leafUp n then 4 else 1)
      ok (offer 0x0320 (bCH n) id 0 s)
  | _, _ => ok s

/-- `LEAF_SILENCE_ORDER` (R193): type 7; a released leaf is again in the state its lock and grants give. A silenced leaf keeps its ID without
having rejoined, and is released by it. -/
def execLeafSilenceOrder (n : Ch) (msg : List Byte) (s : State) : Host.Outcome State Fault Refusal :=
  let l := s.leafOf n
  match msgOf 7 msg with
  | some (id, b) =>
    if !(s.isLeaf n && (l.joined || l.silenced) && s.fld (fLEAF_STATUS_LEAF_ID n) == id) then ok s
    else if bit b 0 then
      if l.silenced then ok s
      else ok (offer 0x0321 (bCH n) id 0 ((setLeaf n { l with silenced := true } s).setF (fLEAF_STATUS_STATE n) 6))
    else if !l.silenced then ok s
    else
      let l := { l with silenced := false }
      ok ((setLeaf n l s).setF (fLEAF_STATUS_STATE n) (if s.leafUp n then leafLockedState l else 1))
  | none => ok s

/-- The leaf leaves the network of its hub: grants and downstream set go, its ID and delay stay (R193, R194). -/
def leafOut (n st : Nat) (s : State) : State :=
  let l := s.leafOf n
  let s := setLeaf n { l with joined := false, run := [], runCount := 0, next := [], nextCount := 0, ann := none, newRtd := none, up := [], tags := [] } s
  let s := retireTx n (s.leafFn n / 256) s
  (s.setF (fLEAF_STATUS_DS_SC n) 0).setF (fLEAF_STATUS_STATE n) st

/-- `LEAF_DOWNSTREAM_LOST` (R193): the downstream has been lost for longer than 100 ms. -/
def execLeafDownstreamLost (n : Ch) (s : State) : Host.Outcome State Fault Refusal :=
  let st := s.leafSt n
  if !s.isLeaf n || st ≤ 1 || s.leafUp n then ok s
  else ok (offer 0x0322 (bCH n) (s.fld (fLEAF_STATUS_LEAF_ID n)) st (leafOut n 1 s))

/-- `LEAF_JOIN` (R194, R197). DESIGN CHOICE, assumption 127: a silenced leaf that leaves stays SILENCED. -/
def cmdLeafJoin : Cmd where
  code := 0x0288
  access := accOpRem
  params := fun ps _ => firstBad [badCh ps, (miss ps 1 1 || decide (1 < fld ps 1 1), 1)]
  touches := fun q _ => [resCH (fld q.params 0 1)]
  body := fun q s =>
    let n := fld q.params 0 1
    if s.fld (fHUB_CTRL_ROLE n) ≠ 2 then .error { status := stWRONG_STATE }
    else if fld q.params 1 1 = 1 then
      if s.leafSt n = 6 then .error { status := stWRONG_STATE } else .ok (s.setB (fLEAF_CTRL_AUTO_JOIN n) true, .done [])
    else .ok (leafOut n (if s.leafSt n ≤ 1 || (s.leafOf n).silenced then s.leafSt n else 2) (s.setB (fLEAF_CTRL_AUTO_JOIN n) false), .done [])

/-- `LEAF_JOIN`. -/
def execLeafJoin (q : Request) (s : State) : Host.Outcome State Fault Refusal := serve cmdLeafJoin q s

/-- The completed tag of the leaf's session, taken from the tags its transmitter gathers (R176, R302). -/
def leafTag (n fn : Nat) (s : State) : State :=
  let o := s.ohOf n
  match o.tx.tags with
  | [] => s
  | e :: _ =>
    let l := s.leafOf n
    setOh n { o with tx := { o.tx with tags := [] } } (setLeaf n { l with tags := l.tags ++ [(fn / 256, be 16 e.2.toNat)] } s)

/-- A leaf's upstream frame (R170, R176): numbered as the downstream frame it receives; its slots wait for a grant. -/
def sendLeaf (n : Nat) (faults : List (Nat × List (List Nat))) (s : State) : State :=
  let fn := s.leafFn n
  if s.leafSt n ≠ 5 || !s.leafUp n || fn == ((s.ohOf n).lastFn + 1) % 2 ^ 48 then s
  else
    let (pay, s) := txPayload n fn s
    let (ct, s) := if s.flag (fTST_PAT_GEN n) then (pay, s) else txCipher n fn faults pay s
    let js := (span 0 512).filter fun j => (slotClient s.rd n j).isSome
    let l := s.leafOf n
    let s := setLeaf n { l with up := l.up ++ [(fn, s.life.toNat, takeSlots ct js)] } s
    let o := s.ohOf n
    let s := setOh n { o with tx := { o.tx with fn := (fn + 1) % 2 ^ 48 } } s
    let s := if fn % 256 = 255 then leafTag n fn s else s
    (s.wr (rOH_TX_FN_LO n) (BitVec.ofNat 32 fn)).wr (rOH_TX_FN_HI n) (BitVec.ofNat 32 (fn / 2 ^ 32))

/-! ### The two frame commands -/

/-- Mapper counters of clients rise in an interoperable mode, whose mapping is that of the mode's specification (R157): pairs of 4c + k and
how many (R434). -/
def mapCounts (n : Nat) (l : List (Nat × Nat)) (s : State) : State :=
  each (l.filter fun e => decide (e.1 < 2048)) (fun e s => countN (kClient n 0 0 + e.1) e.2 s) s

/-- `FRAME_TRANSMITTED` (R168, R170, R225): `host` are the codewords that have come to host ports meanwhile, by head lane, `faults` the cipher cores that fault on jobs,
issue by issue; `maps` are the mapper counts of an interoperable mode. Member B's framer is idle (R14). -/
def execFrameTransmitted (n : Ch) (host : List (Nat × List HostCw)) (faults : List (Nat × List (List Nat))) (maps : List (Nat × Nat))
    (s : State) : Host.Outcome State Fault Refusal :=
  let s := each host (fun e s => portIn e.1 e.2 s) s
  if !s.active n || s.memberB n then ok s
  else if s.fld (fLINE_MODE_IOP n) ≠ 0 then ok (mapCounts n maps s)
  else if s.fld (fHUB_CTRL_ROLE n) = 1 then ok (sendHub n faults s)
  else if s.fld (fHUB_CTRL_ROLE n) = 2 then ok (sendLeaf n faults s)
  else ok (sendNative n faults s)

/-- Soft bits are delivered: STATE 7 (R152). -/
def softIn (n : Nat) (s : State) : State :=
  let l := s.line.get (ch4 n)
  ({ s with line := s.line.set (ch4 n) { l with furthest := max l.furthest 7 } }).setF (fLINE_RX_STATUS_STATE n) 7

/-- The demapper of a stream is to delete idle control blocks of its clients (R235). -/
def idleDueAdd (n : Nat) (l : List (Nat × Nat)) (s : State) : State :=
  let m := (s.streamChs n).headD n
  each l (fun e s => setOh m { s.ohOf m with idleDue := smSet (fun _ => 0) (s.ohOf m).idleDue e.1 (smGet (fun _ => 0) (s.ohOf m).idleDue e.1 + e.2) } s) s

/-- `LINE_FRAME_RECEIVED` (R158, R168, R226 to R230): a line period. `raw` are its hard decisions, by subcarrier on a leaf; `cws` the codewords that
it completes, by subcarrier on a leaf; `blocks` what the decoder of an interoperable mode makes of its FEC blocks, `coded` their bits; `deleted`
the idle blocks that the demapper is to delete, by client, and in an interoperable mode its counts. Its arrival in an acquiring
receiver means that soft bits are delivered: STATE 7 (R152). In a loopback of depth 4 to 6 the receiver has the frames sent, and `raw` and
`cws` are the errors of the looped path on them (R453, R454). -/
def execLineFrameReceived (n : Ch) (raw : List (List Byte)) (cws : List Codeword) (blocks : List CwResult) (coded : Nat)
    (deleted : List (Nat × Nat)) (s : State) : Host.Outcome State Fault Refusal :=
  let st := s.fld (fLINE_RX_STATUS_STATE n)
  let l := s.line.get (ch4 n)
  let looped := s.lineLoop n && s.fld (fLINE_MODE_IOP n) == 0
  if looped && l.loop.isEmpty then ok s
  else
    let words := frameWords (l.loop.headD [])
    let s := if looped then { s with line := s.line.set (ch4 n) { l with loop := l.loop.drop 1 } } else s
    let s := if s.active n && decide (2 ≤ st) && decide (st ≤ 6) then softIn n s else s
    if !s.softBits n || s.fld (fHUB_CTRL_ROLE n) = 1 then ok s
    else if s.fld (fLINE_MODE_IOP n) ≠ 0 then ok (fecCount n blocks coded false (decoding n true (mapCounts n deleted s)))
    else
      let s := idleDueAdd n deleted s
      if s.fld (fHUB_CTRL_ROLE n) = 2 then ok (leafFollow n (leafPeriod n raw cws s))
      else if looped then
        ok (nativePeriod n (withErrors words.flatten (raw.headD [])) ((span 0 4).map fun i =>
          let w := words.getD i []
          let c := cws.getD i ⟨[], []⟩
          ⟨withErrors w c.hard, c.est.map (withErrors w)⟩) s)
      else ok (nativePeriod n (raw.headD []) cws s)

end Sys2Proof.Machine
end

