-- ==== Sys2Proof/Machine/Line.lean ====
section
/-! DEFINITION. The native receiver (spec 07): acquisition, tracking, holding, loss of signal, `MODE_SUSPECT`, and the line
commands with the sizing arithmetic. -/

namespace Sys2Proof.Machine

open Sys2Proof

/-! ### The receiver (R152 to R156) -/

/-- The receiver of channel n. -/
def State.lineOf (s : State) (n : Nat) : LineSt := s.line.get (ch4 n)

/-- Replace it. -/
def setLine (n : Nat) (l : LineSt) (s : State) : State := { s with line := s.line.set (ch4 n) l }

/-- STATE of the receiver (R163). -/
def State.rxSt (s : State) (n : Nat) : Nat := s.fld (fLINE_RX_STATUS_STATE n)

/-- LOS is present while `RX_LOS` is set or the receiver does not track (R248). A hub has `HUB_LOS` in its place. -/
def losFollow (n : Nat) (s : State) : State :=
  if s.fld (fHUB_CTRL_ROLE n) = 1 then s
  else lineInput n (memberChanged n (setDefect n dLOS (s.flag (fENG_STATUS_RX_LOS n) || s.rxSt n != 8) s))

/-- The receiver stops delivering frames (R155): alignment goes with it. -/
def rxDown (n : Nat) (s : State) : State :=
  if s.fld (fLINE_MODE_IOP n) = 0 then pathLost n s else decoding n false s

/-- Enter a receiver state; `ACQUIRED` is set in tracking only. -/
def rxTo (n st : Nat) (s : State) : State :=
  let was := s.rxSt n == 8
  let l := s.lineOf n
  let s := setLine n { l with furthest := if st ≤ 8 then max l.furthest st else l.furthest } s
  let s := (s.setF (fLINE_RX_STATUS_STATE n) st).setB (fLINE_RX_STATUS_ACQUIRED n) (st == 8)
  let s := if was && st != 8 then rxDown n s else s
  losFollow n s

/-- The dispersion about which an acquisition that begins now searches (R153, R156), in 10 ps/nm: the last estimate on leaving
INTERMISSION, and with `AUTO_PRESET` in every acquisition after the first; else `CD_PRESET` with `PRESET_EN`; else none. -/
def State.searchCentre (s : State) (n : Nat) : Option Int :=
  let l := s.lineOf n
  if l.est.isSome && (l.held || (s.flag (fLINE_RX_CTRL_AUTO_PRESET n) && l.tried)) then l.est
  else if s.flag (fLINE_RX_CTRL_PRESET_EN n) then some (s.sfld (fLINE_RX_CTRL_CD_PRESET n)) else none

/-- Start an acquisition at a stage: `full` scans every dispersion. -/
def startAcq (n stage : Nat) (full reacq : Bool) (s : State) : State :=
  let l := s.lineOf n
  let centre := if full then none else s.searchCentre n
  let s := setLine n { l with furthest := 0, start := s.life, tried := true, centre := centre, fullScan := full, reacq := reacq, failing := none, held := false } s
  rxTo n stage (s.setB (fLINE_RX_STATUS_HOLDING n) false)

/-- The conditions of R152: ACTIVE, `BIAS_LOCK`, no `RX_LOS`. A hub's bursts have receivers of their own. -/
def State.canAcquire (s : State) (n : Nat) : Bool :=
  s.active n && s.flag (fENG_STATUS_BIAS_LOCK n) && !s.flag (fENG_STATUS_RX_LOS n) && s.fld (fHUB_CTRL_ROLE n) != 1

/-- `ACQUISITION_START` (R152). -/
def execAcquisitionStart (n : Ch) (s : State) : Host.Outcome State Fault Refusal :=
  if s.canAcquire n && decide (s.rxSt n ≤ 1) then ok (startAcq n 2 false false s) else ok s

/-- The mark of `LINE_ACQUIRE` among the targets of operations. -/
def tLine (n : Nat) : Nat := 0x6000 + n

/-- Milliseconds since the acquisition began. -/
def State.acqMs (s : State) (n : Nat) : Nat := (s.life.toNat - (s.lineOf n).start.toNat) / 1000000

/-- `ACQUIRED` (R152): frame and multiframe alignment are there while the receiver delivers soft bits. -/
def execAcquired (n : Ch) (s : State) : Host.Outcome State Fault Refusal :=
  let st := s.rxSt n
  let aligned := s.fld (fLINE_MODE_IOP n) != 0 || (!s.defect n dOOF && !s.defect n dLOM)
  if s.fld (fHUB_CTRL_ROLE n) = 1 || st ≠ 7 || !aligned || (s.lineOf n).reacq then ok s
  else
    let s := s.bumpF (fLINE_RX_STATUS_ACQ_COUNT n)
    let s := offer 0x0250 (bCH n) (s.acqMs n) (s.fld (fLINE_RX_STATUS_ACQ_COUNT n)) (rxTo n 8 s)
    ok (leafFollow n (targetDone 0x0210 (tLine n) none (le 1 8 ++ le 2 (s.acqMs n)) s))

/-- An operation with a target ends with a refusal status, and the notice's own parameters. -/
def targetFails (target : Nat) (r : Ref) (params : List Byte) (s : State) : State :=
  match s.ops.find? fun o => o.targets.contains target with
  | some op => endOp op r params s
  | none => s

/-- `ACQ_FAIL` (R154, R155): not acquired within its time, having reached stage `far`; a re-acquisition from holding becomes an
acquisition about its preset, any other starts again with a full scan. -/
def execAcqFail (n : Ch) (far : Nat) (s : State) : Host.Outcome State Fault Refusal :=
  let st := s.rxSt n
  let l := s.lineOf n
  let lim := if l.reacq then 20000000 else 2000000000
  if st < 2 || 7 < st || decide (s.life.toNat < l.start.toNat + lim) then ok s
  else if l.reacq then ok (if s.canAcquire n then startAcq n 2 false false s else rxTo n 1 (setLine n { l with reacq := false } s))
  else
    let far := max (max st l.furthest) (min far 7)
    let s := offer 0x0251 (bCH n) far 0 (s.setB (fLINE_RX_STATUS_ACQ_FAIL n) true)
    let s := targetFails (tLine n) { status := stTIMEOUT } (le 1 far ++ le 2 (s.acqMs n)) s
    ok (if s.canAcquire n then startAcq n 2 true false s else rxTo n 1 s)

/-- `HOLDING_EXPIRY` (R155): 100 ms of holding have passed. -/
def execHoldingExpiry (n : Ch) (s : State) : Host.Outcome State Fault Refusal :=
  if s.rxSt n ≠ 9 || decide (s.life.toNat < (s.lineOf n).heldAt.toNat + 100000000) then ok s
  else ok (rxTo n 1 (s.setB (fLINE_RX_STATUS_HOLDING n) false))

/-- `REACQUIRED_FROM_HOLDING` (R155). -/
def execReacquiredFromHolding (n : Ch) (s : State) : Host.Outcome State Fault Refusal :=
  let l := s.lineOf n
  let aligned := s.fld (fLINE_MODE_IOP n) != 0 || (!s.defect n dOOF && !s.defect n dLOM)
  if !l.reacq || s.fld (fHUB_CTRL_ROLE n) = 1 || s.rxSt n ≠ 7 || !aligned then ok s
  else
    let us := (s.life.toNat - l.start.toNat) / 1000
    ok (leafFollow n (offer 0x0253 (bCH n) us 0 (rxTo n 8 (setLine n { l with reacq := false } s))))

/-- `MODE_SUSPECT` (R162): carrier lock with every codeword failing for 10 ms. -/
def execModeSuspect (n : Ch) (s : State) : Host.Outcome State Fault Refusal :=
  let st := s.rxSt n
  match (s.lineOf n).failing with
  | none => ok s
  | some t =>
    if !(6 ≤ st && st ≤ 8) || s.flag (fLINE_RX_STATUS_MODE_SUSPECT n) || decide (s.life.toNat < t.toNat + 10000000) then ok s
    else ok (offer 0x0254 (bCH n) (s.fld (fLINE_RX_EST1_FREQ_EST n)) 0 (s.setB (fLINE_RX_STATUS_MODE_SUSPECT n) true))

/-- `FREQUENCY_TRACKING_LOST` (R150): the offset (MHz) has left 3.6 GHz while tracking. -/
def execFrequencyTrackingLost (n : Ch) (freq : Int) (s : State) : Host.Outcome State Fault Refusal :=
  if s.rxSt n ≠ 8 || s.fld (fHUB_CTRL_ROLE n) = 1 || decide (freq.natAbs ≤ 3600) then ok s
  else
    let s := s.setF (fLINE_RX_EST1_FREQ_EST n) (sat16 freq)
    let s := offer 0x0256 (bCH n) (s.fld (fLINE_RX_EST1_FREQ_EST n)) 0 s
    ok (if s.canAcquire n then startAcq n 2 false false s else rxTo n 1 s)

/-- Restart acquisition (R152); with `RX_LOS` set the receiver waits (R154). DESIGN CHOICE, assumption 123: on a hub there is none to
restart, and `LINE_ACQUIRE` ends by its completion limit; the rules do not say. -/
def acqRestart (n : Nat) (s : State) : State :=
  if !s.active n || !s.flag (fENG_STATUS_BIAS_LOCK n) || s.fld (fHUB_CTRL_ROLE n) = 1 then s
  else if s.flag (fENG_STATUS_RX_LOS n) then rxTo n 1 (s.setB (fLINE_RX_STATUS_HOLDING n) false)
  else startAcq n 2 false false s

/-- `ACQ_RESTART` (R152). -/
def execAcqRestart (n : Ch) (s : State) : Host.Outcome State Fault Refusal := ok (acqRestart n s)

/-- `RX_LOS` is set (R120, R154, R155): tracking turns into holding, acquisition into waiting. Loopbacks of depth 4 and 5 hold it
clear (R454). -/
def rxLosSet (n : Nat) (s : State) : State :=
  if s.flag (fENG_STATUS_RX_LOS n) || s.fld (fTST_LOOP_DEPTH n) == 4 || s.fld (fTST_LOOP_DEPTH n) == 5 then s
  else
    let s := s.setB (fENG_STATUS_RX_LOS n) true
    if s.rxSt n = 8 then
      let s := offer 0x0252 (bCH n) (s.fld (fLINE_RX_EST1_SNR_EST n)) 0 (s.setB (fLINE_RX_STATUS_HOLDING n) true)
      rxTo n 9 (setLine n { s.lineOf n with heldAt := s.life } s)
    else if 2 ≤ s.rxSt n && s.rxSt n ≤ 7 then rxTo n 1 (setLine n { s.lineOf n with reacq := false } s)
    else losFollow n s

/-- `RX_LOS` is cleared: a holding receiver re-acquires from the held values (R155). -/
def rxLosClear (n : Nat) (s : State) : State :=
  if !s.flag (fENG_STATUS_RX_LOS n) then s
  else
    let s := s.setB (fENG_STATUS_RX_LOS n) false
    if s.rxSt n = 9 then startAcq n 5 false true s else losFollow n s

/-! ### Commands (R164) -/

/-- `LINE_ACQUIRE`. -/
def cmdLineAcquire : Cmd where
  code := 0x0210
  access := accOpRem
  params := fun ps _ => firstBad [badCh ps]
  touches := fun q _ => [resCH (fld q.params 0 1)]
  body := fun q s =>
    let n := fld q.params 0 1
    if !s.active n || !s.flag (fENG_STATUS_BIAS_LOCK n) then .error { status := stWRONG_STATE }
    else .ok (acqRestart n s, .accept (opOf q 0x0210 [resCH n] [tLine n] s))

/-- `LINE_ACQUIRE`. -/
def execLineAcquire (q : Request) (s : State) : Host.Outcome State Fault Refusal := serve cmdLineAcquire q s

/-- `LINE_REPORT`. -/
def cmdLineReport : Cmd where
  code := 0x0211
  access := accAll
  params := fun ps _ => firstBad [badCh ps]
  body := fun q s =>
    let n := fld q.params 0 1
    .ok (s, .done (le 4 (s.shown (rLINE_RX_STATUS n)).toNat ++ le 4 (s.shown (rLINE_RX_EST0 n)).toNat ++ le 4 (s.shown (rLINE_RX_EST1 n)).toNat ++
      (span 0 8).flatMap fun m => le 4 (s.shown (rLINE_SC_SNR n m)).toNat))

/-- `LINE_REPORT`. -/
def execLineReport (q : Request) (s : State) : Host.Outcome State Fault Refusal := serve cmdLineReport q s

/-- `LINE_PLAN`. -/
def cmdLinePlan : Cmd where
  code := 0x0212
  access := accAll
  params := fun ps _ => firstBad [(miss ps 0 1 || outside 4 32 (fld ps 0 1), 0), (miss ps 1 1 || outside 4 16 (fld ps 1 1), 1),
    (miss ps 2 1 || outside 0 1 (fld ps 2 1), 2), (miss ps 3 1 || outside 2 20 (fld ps 3 1), 3), (miss ps 4 1 || outside 0 1 (fld ps 4 1), 4)]
  body := fun q s =>
    let ps := q.params
    let nsc := fld ps 1 1
    let c := fld ps 2 1
    let h := entropyOf (fld ps 0 1) nsc
    if !entropyFits c h then .error { status := stCONFLICT, off := 1 }
    else .ok (s, .done (le 2 h ++ le 2 (osnrReq c h nsc (fld ps 3 1) (fld ps 4 1 == 1)) ++ le 2 (slotWidth nsc)))

/-- `LINE_PLAN`. -/
def execLinePlan (q : Request) (s : State) : Host.Outcome State Fault Refusal := serve cmdLinePlan q s

end Sys2Proof.Machine
end

