-- ==== Sys2Proof/Machine/Engine.lean ====
section
/-! DEFINITION. Optical engines and converters (spec 06): feed, bias loops, transmit muting, loss of signal, the understudy
rotation, slice and DAC faults, and the engine commands. -/

namespace Sys2Proof.Machine

open Sys2Proof

/-- The engine and converters of channel n. -/
def State.engOf (s : State) (n : Nat) : EngSt := s.eng.get (ch4 n)

/-- Replace them. -/
def setEng (n : Nat) (e : EngSt) (s : State) : State := { s with eng := s.eng.set (ch4 n) e }

/-- A retirement is to be written to the life store at once (R447). -/
def lifeDue (s : State) : State := { s with store := { s.store with due := true } }

/-! ### Muting, feed, bias (R111 to R118) -/

/-- A DAC of the channel has a lasting fault (R132). -/
def State.dacFailed (s : State) (n : Nat) : Bool := (span 4 4).any fun c => s.flag (fCONV_STATUS_FAILED n c)

/-- The engine of a channel may emit: it is ACTIVE, or starts from DARK (R118, R121). -/
def State.engineUp (s : State) (n : Nat) : Bool := s.active n || s.pwr.starting.contains (.channel (ch4 n))

/-- The transmit output is muted (R118). -/
def State.muted (s : State) (n : Nat) : Bool :=
  s.flag (fENG_CTRL_TX_MUTE n) || !s.engineUp n || (s.engOf n).feedLost || !(s.engOf n).searched || s.fld (fTST_LOOP_DEPTH n) == 6 ||
    s.dacFailed n || (s.engOf n).dvDark

/-- `TX_DARK` follows the causes of muting. -/
def muteFollow (n : Nat) (s : State) : State := s.setB (fENG_STATUS_TX_DARK n) (s.muted n)

/-- The loops step: a feed is there, `BIAS_HOLD` is clear, and the channel is ACTIVE or on its way there, for bias search (R113, R121,
R122, R136). -/
def State.loopsRun (s : State) (n : Nat) : Bool :=
  s.engineUp n && !(s.engOf n).feedLost && !s.flag (fENG_CTRL_BIAS_HOLD n)

/-- Loops whose bias is at or beyond a limit in 0.001 V-pi, as bits. -/
def loopsAt (lim : Nat) (bias : List Int) : Nat :=
  (span 0 6).foldl (fun a j => if lim ≤ (bias.getD j 0).natAbs then withBit a j true else a) 0

/-- Bits of a not in b. -/
def newBits (a b : Nat) : Nat := (BitVec.ofNat 8 a &&& ~~~(BitVec.ofNat 8 b)).toNat

/-- The limit flags follow the biases: 90 % of 2.5 V-pi is near, 100 % the limit; a loop that gets there is recorded (R115). -/
def biasLimits (n : Nat) (s : State) : State :=
  let e := s.engOf n
  let near := loopsAt 2250 e.bias
  let lim := loopsAt 2500 e.bias
  let s := (s.setB (fENG_STATUS_BIAS_NEAR_LIMIT n) (near != 0)).setB (fENG_STATUS_BIAS_AT_LIMIT n) (lim != 0)
  let s := setEng n { e with near := near, lim := lim } s
  let s := if newBits near e.near = 0 then s else offer 0x0221 (bCH n) (newBits near e.near) 0 s
  if newBits lim e.lim = 0 then s else offer 0x0221 (bCH n) (newBits lim e.lim + 256) 0 s

/-- Biases and errors as the loops now have them; a loop never leaves its range. -/
def biasFollow (n : Nat) (bias err : List Int) (s : State) : State :=
  if !s.loopsRun n then s
  else
    let b := (span 0 6).map fun j => clampI (-2500) 2500 (bias.getD j 0)
    biasLimits n (setEng n { s.engOf n with bias := b, err := (span 0 6).map fun j => err.getD j 0 } s)

/-- A reading as the power registers show it: 0.01 dBm, not below −40.00 (R124). -/
def pwrReading (v : Int) : Nat := sat16 (if v < -4000 then -4000 else v)

/-- The receive path declares loss of signal: `RX_LOS`, on a hub `HUB_LOS` in its place (R111, R130, R184). -/
def declareLos (n : Nat) (s : State) : State := if s.fld (fHUB_CTRL_ROLE n) = 1 then hubLos n s else rxLosSet n s

/-- The feed is lost (R111): bias held, transmit muted, loss of signal. -/
def feedGone (n : Nat) (feed : Int) (s : State) : State :=
  let s := setEng n { s.engOf n with feedLost := true } s
  let s := offer 0x0210 (bCH n) (unsigned 32 feed) 0 (s.setB (fENG_STATUS_BIAS_LOCK n) false)
  declareLos n (muteFollow n s)

/-- `FEED_MEASUREMENT` (R111, R115, R124): feed, transmit and receive power in 0.01 dBm, and the six loops' biases (0.001 V-pi)
and errors (0.01 %, 0.01 degree), and the engine temperature (0.5 degrees). Two measurements 10 us apart below +8 dBm make the feed lost. -/
def execFeedMeasurement (n : Ch) (feed tx rx : Int) (temp : Nat) (bias err : List Int) (s : State) : Host.Outcome State Fault Refusal :=
  if s.chDark n then ok s
  else
    let e := s.engOf n
    let s := ((s.setF (fENG_PWR_A_TX_PWR n) (pwrReading tx)).setF (fENG_PWR_A_RX_PWR n) (pwrReading rx)).setF (fENG_PWR_B_FEED_PWR n) (pwrReading feed)
    let s := s.setF (fENG_STATUS_ENG_TEMP n) temp
    let cls := if 1500 ≤ feed then 2 else if 800 ≤ feed then 1 else 0
    let high := decide (2050 < feed)
    let rises := high && !s.flag (fENG_STATUS_FEED_HIGH n)
    let s := setEng n { e with feed := cls } ((s.setB (fENG_STATUS_FEED_HIGH n) high).setB (fENG_STATUS_FEED_OK n) (cls == 2))
    let s := if rises then offer 0x0212 (bCH n) (unsigned 32 feed) 0 s else s
    let s := if cls = 0 && e.feed == 0 && !e.feedLost then feedGone n feed s else s
    ok (biasFollow n bias err s)

/-- `FEED_GOOD_AGAIN` (R111): the feed has been good for 1 ms after a loss. -/
def execFeedGoodAgain (n : Ch) (s : State) : Host.Outcome State Fault Refusal :=
  if s.chDark n || !(s.engOf n).feedLost || !s.flag (fENG_STATUS_FEED_OK n) then ok s
  else
    let s := muteFollow n (setEng n { s.engOf n with feedLost := false } s)
    ok (offer 0x0211 (bCH n) (unsigned 32 (s.sfld (fENG_PWR_B_FEED_PWR n))) 0 s)

/-- `BIAS_SEARCH_LOCKED` (R113, R121): all six loops hold their errors, after a search, which asks for a good feed, or on resuming. -/
def execBiasSearchLocked (n : Ch) (s : State) : Host.Outcome State Fault Refusal :=
  if !s.loopsRun n || (!(s.engOf n).searched && !s.flag (fENG_STATUS_FEED_OK n)) then ok s
  else ok (muteFollow n (setEng n { s.engOf n with searched := true } (s.setB (fENG_STATUS_BIAS_LOCK n) true)))

/-- `BIAS_LOCK_LOST` (R113): loops (bits) whose error has left the limits. -/
def execBiasLockLost (n : Ch) (loops : Nat) (s : State) : Host.Outcome State Fault Refusal :=
  if !s.flag (fENG_STATUS_BIAS_LOCK n) || loops % 64 = 0 then ok s
  else ok (offer 0x0220 (bCH n) (loops % 64) 0 (s.setB (fENG_STATUS_BIAS_LOCK n) false))

/-- The transmit target in 0.1 dBm within its limits (R117). -/
def State.txTarget (s : State) (n : Nat) : Int := clampI (-140) 10 (s.sfld (fENG_CTRL_TX_TARGET n))

/-- `TX_RAMP_COMPLETE` (R117): the measured output equals the target. -/
def execTxRampComplete (n : Ch) (s : State) : Host.Outcome State Fault Refusal :=
  if s.muted n then ok s else ok (s.setF (fENG_PWR_A_TX_PWR n) (unsigned 16 (10 * s.txTarget n)))

/-- `RX_LOS_SET` (R120): not on a hub. -/
def execRxLosSet (n : Ch) (s : State) : Host.Outcome State Fault Refusal :=
  if s.chDark n || s.fld (fHUB_CTRL_ROLE n) = 1 then ok s else ok (rxLosSet n s)

/-- `RX_LOS_CLEARED` (R111, R120, R130): not while the feed is lost or an ADC is FAILED. -/
def execRxLosCleared (n : Ch) (s : State) : Host.Outcome State Fault Refusal :=
  if s.chDark n || s.fld (fHUB_CTRL_ROLE n) = 1 || s.rxDead n then ok s else ok (rxLosClear n s)

/-- The 24 biases sampled: a DARK channel's bias DACs are at 0 V (R115, R400). -/
def biasSample (s : State) : List Int :=
  (span 0 4).flatMap fun n => (span 0 6).map fun j => if s.chDark n then 0 else (s.engOf n).bias.getD j 0

/-- `BIAS_SAMPLE_HOURLY` (R115, R446): the next of 256 hourly slots takes the sample; the monthly slot of the running
2,592,000 s of powered time takes its extremes. -/
def execBiasSampleHourly (s : State) : Host.Outcome State Fault Refusal :=
  let b := biasSample s
  let i := s.store.cur
  let h := (i.hour + 1) % 256
  let month := s.powered / 2592000000000 % 256
  let (lo, hi) := if month = i.month then smGet (fun _ => (b, b)) i.monthly month else (b, b)
  let lo := (span 0 24).map fun j => min (lo.getD j 0) (b.getD j 0)
  let hi := (span 0 24).map fun j => max (hi.getD j 0) (b.getD j 0)
  ok { s with store := { s.store with cur := { i with hour := h, hourly := smPut i.hourly h b, month := month, monthly := smPut i.monthly month (lo, hi) } } }

/-! ### Slices (R127 to R131) -/

/-- ADC c of channel n. -/
def State.adc (s : State) (n c : Nat) : AdcSt := (s.engOf n).adc.get (ch4 c)

/-- Replace it. -/
def setAdc (n c : Nat) (a : AdcSt) (s : State) : State := setEng n { s.engOf n with adc := (s.engOf n).adc.set (ch4 c) a } s

/-- The placement field of ADC c (R134). -/
def fPLACE (n c : Nat) : Fld := ⟨rCONV_CTRL n, 8 * c, 7⟩

/-- Position of the understudy of ADC c (R134). -/
def State.upos (s : State) (n c : Nat) : Nat := s.fld (fCONV_STATUS_UNDERSTUDY_POS n c)

/-- The understudy of ADC c can cover a position: not permanent, not retired, not under test. -/
def State.understudyFree (s : State) (n c : Nat) : Bool :=
  !s.flag (fCONV_STATUS_PERMANENT n c) && s.upos n c != 127 && !(s.adc n c).tests.any (fun t => t.1 == 64)

/-- What lasting faults of an ADC make of its status (R130), by the order in which they came; 64 is the understudy: understudy
position (127 retired, 64 none), interpolated position, `DEGRADED`, `FAILED`. -/
def convOutcome : List Nat → Nat × Nat × Bool × Bool
  | [] => (64, 0, false, false)
  | [k] => (if k = 64 then 127 else k, 0, false, false)
  | a :: b :: r => (if a = 64 || b = 64 then 127 else a, if b = 64 then a else b, true, !r.isEmpty)

/-- The position a second lasting fault leaves interpolated. -/
def AdcSt.interpPos (a : AdcSt) : Nat := (convOutcome a.lasting).2.1

/-- A position is interpolated. DESIGN CHOICE, assumption 118: of several the register names the newest, after a lasting fault's test
the first still under test, and with none under test the one that DEGRADED leaves. -/
def interpolate (n c k : Nat) (s : State) : State :=
  (s.setF (fCONV_STATUS_INTERP_POS n c) k).setB (fCONV_STATUS_INTERP_ACTIVE n c) true

/-- The understudy leaves a position it holds, for a test of its own (R131): the position's slice takes it back, unless that slice has
the lasting fault that the understudy covers, whose position is then interpolated. -/
def understudyOut (n c : Nat) (s : State) : State :=
  let pos := s.upos n c
  if 64 ≤ pos then s
  else
    let t := s.setF (fCONV_STATUS_UNDERSTUDY_POS n c) 64
    if s.flag (fCONV_STATUS_PERMANENT n c) then interpolate n c pos t else t

/-- Cover the position of a slice that leaves service (R131). The first under test is covered by the understudy 1 ms later,
others wait interpolated. -/
def coverSlice (n c k : Nat) (first : Bool) (s : State) : State :=
  if k = 64 then understudyOut n c s
  else if s.understudyFree n c && s.upos n c == k then s
  else if s.understudyFree n c && first then
    setAdc n c { s.adc n c with next := some k } (interpolate n c k (s.setF (fCONV_STATUS_UNDERSTUDY_POS n c) 64))
  else interpolate n c k s

/-- A slice leaves its position for a targeted test; `host` marks one of `SLICE_TEST`, which takes a running test over. -/
def testSlice (n c k : Nat) (host : Bool) (s : State) : State :=
  let a := s.adc n c
  if a.tests.any fun t => t.1 == k then
    setAdc n c { a with tests := a.tests.map fun t => if t.1 == k then (k, t.2 || host) else t } s
  else
    let s := coverSlice n c k a.tests.isEmpty s
    setAdc n c { s.adc n c with tests := a.tests ++ [(k, host)], back := a.back.filter fun x => x != k } s

/-- Interpolation ends, unless another slice is still under test, whose position keeps it (R131), or a second lasting fault
keeps it for good (R130). -/
def endInterp (n c : Nat) (s : State) : State :=
  match (s.adc n c).tests.find? fun t => t.1 != 64 with
  | some t => interpolate n c t.1 s
  | none =>
    if s.flag (fCONV_STATUS_DEGRADED n c) then interpolate n c (s.adc n c).interpPos s else s.setB (fCONV_STATUS_INTERP_ACTIVE n c) false

/-- A lasting fault of slice k in ADC c (R130, R131, R137): the action it leads to, as `SLICE_TEST` names it. The placement is made in
the running set as well. -/
def lastingSlice (n c k : Nat) (s : State) : Nat × State :=
  let a := s.adc n c
  let l := a.lasting ++ [k]
  let p := (convOutcome l).2.1
  let s := setAdc n c { a with lasting := l, next := none } s
  let s := lifeDue { s with perm := { s.perm with slices := smSet (fun _ => []) s.perm.slices (4 * n + c) l } }
  match a.lasting.length with
  | 0 =>
    if k = 64 then (0, offer 0x0234 (bCH n) c 0 (endInterp n c (s.setF (fCONV_STATUS_UNDERSTUDY_POS n c) 127)))
    else
      let s := ((s.setF (fCONV_STATUS_UNDERSTUDY_POS n c) k).setB (fCONV_STATUS_PERMANENT n c) true).setF (fPLACE n c) k
      (1, offer 0x0231 (bCH n) (c + 256 * k) 0 (endInterp n c s))
  | 1 =>
    let s := if k = 64 then (s.setF (fCONV_STATUS_UNDERSTUDY_POS n c) 127).setB (fCONV_STATUS_PERMANENT n c) false else s
    let s := (interpolate n c p s).setB (fCONV_STATUS_DEGRADED n c) true
    (2, offer 0x0232 (bCH n) (c + 256 * p) 0 s)
  | _ => (3, declareLos n (offer 0x0233 (bCH n) (c + 256 * (if k = 64 then (convOutcome a.lasting).1 % 64 else k)) 0 (s.setB (fCONV_STATUS_FAILED n c) true)))

/-- Faults of slice k of the last 24 h that proved transient. -/
def recentTransients (s : State) (n c k : Nat) : Nat :=
  ((s.adc n c).trans.filter fun t => t.1 == k && decide (s.life.toNat ≤ t.2.toNat + 86400000000000)).length

/-- Slice k of ADC c is found faulted (R129): it leaves its position for a test; a third transient fault in 24 h is lasting without a
further test. -/
def sliceFault (n c k : Nat) (s : State) : State :=
  let a := s.adc n c
  if s.flag (fCONV_STATUS_FAILED n c) || a.lasting.contains k || a.tests.any (fun t => t.1 == k) then s
  else if 2 ≤ recentTransients s n c k then (lastingSlice n c k (coverSlice n c k a.tests.isEmpty s)).2
  else testSlice n c k false s

/-- `SLICE_COMPARE` (R129 to R131): the comparison finds slice `found` faulted, or none. -/
def execSliceCompare (n c : Ch) (found : Option (Fin 65)) (s : State) : Host.Outcome State Fault Refusal :=
  match found with
  | none => ok s
  | some k => if s.active n then ok (sliceFault n c k s) else ok s

/-- The test that follows when one has ended: its position is covered in turn. -/
def nextTest (n c : Nat) (s : State) : State :=
  match (s.adc n c).tests with
  | t :: _ => if s.understudyFree n c && t.1 != 64 && s.upos n c != t.1 then setAdc n c { s.adc n c with next := some t.1 } s else s
  | [] => s

/-- The mark of a host test of converter c among the targets of operations. -/
def tConv (n c : Nat) : Nat := 0x7000 + 8 * n + c

/-- `SLICE_TEST_COMPLETE` (R129, R130): the first slice under test. -/
def execSliceTestComplete (n c : Ch) (pass : Bool) (s : State) : Host.Outcome State Fault Refusal :=
  let a := s.adc n c
  match a.tests with
  | [] => ok s
  | (k, host) :: rest =>
    let s := setAdc n c { a with tests := rest } s
    let (act, s) :=
      if !pass then lastingSlice n c k s
      else
        let s := setAdc n c { s.adc n c with back := (s.adc n c).back ++ [k] } s
        if host then (0, s)
        else
          let s := setAdc n c { s.adc n c with trans := (s.adc n c).trans ++ [(k, s.life)] } (s.bumpF (fCONV_STATUS_TRANSIENTS n c))
          (0, offer 0x0230 (bCH n) (c + 256 * k) (s.fld (fCONV_STATUS_TRANSIENTS n c)) s)
    let s := nextTest n c s
    ok (if host then targetDone 0x0201 (tConv n c) none (le 1 (b2n (!pass)) ++ le 1 act) s else s)

/-- The calibrated correction of an ADC slice (by 65c + s) or a DAC (260 + c): the last that background calibration gave, else that of
the start (R121, R128). -/
def State.corrOf (s : State) (n i : Nat) : Int × Int × Int :=
  match smLookup (s.engOf n).corr i with
  | some v => v
  | none => match (s.engOf n).cal with
    | some k => Config.calibrated k i
    | none => (0, 0, 0)

/-- A correction and a `CONV_ADJ` word take a slice outside the correctable range (R129): 16 LSB, 0.90 to 1.10, 2.0 ps in all. -/
def outOfRangeAdj (v : Int × Int × Int) (w : Word) : Bool :=
  decide (256 < (v.1 + signed 8 (w.toNat % 256)).natAbs) || decide (1024 < 10 * (v.2.1 + signed 8 ((w >>> 8).toNat % 256)).natAbs) ||
    decide (200 < (v.2.2 + signed 8 ((w >>> 16).toNat % 256)).natAbs)

/-- A correction that background calibration has produced comes into force (R128); one that would leave the correctable range shows a
faulted slice in its place (R129). -/
def takeCorr (n : Nat) (x : Nat × Int × Int × Int) (s : State) : State :=
  if 264 ≤ x.1 then s
  else if x.1 < 260 && outOfRangeAdj x.2 (s.rd (rCONV_ADJ n x.1)) then sliceFault n (x.1 / 65) (x.1 % 65) s
  else setEng n { s.engOf n with corr := smPut (s.engOf n).corr x.1 x.2 } s

/-- Rotation runs for ADC c: ACTIVE, placement 64, no lasting fault, no slice under test (R127, R130). -/
def State.rotates (s : State) (n c : Nat) : Bool :=
  s.active n && s.fld (fPLACE n c) == 64 && (s.adc n c).lasting.isEmpty && (s.adc n c).tests.isEmpty

/-- A rotation boundary for ADC c: slices that passed return, the understudy to the position it covers for good; otherwise it leaves its
position for the next one, of the dwell or of a host placement. It takes a position 1 ms later. -/
def adcBoundary (n c dwell : Nat) (s : State) : State :=
  let a := s.adc n c
  let s := if a.back.isEmpty then s else setAdc n c { a with back := [] } s
  let s := if a.back.any (fun k => k != 64) then endInterp n c s else s
  if s.flag (fCONV_STATUS_PERMANENT n c) then
    if a.back.contains 64 then setAdc n c { s.adc n c with next := (s.adc n c).lasting.head? } s else s
  else if s.rotates n c && s.upos n c == dwell then s
  else if s.rotates n c then
    let s := s.setF (fCONV_STATUS_UNDERSTUDY_POS n c) 64
    setAdc n c { s.adc n c with next := if dwell < 64 then some dwell else none } s
  else if s.active n && s.fld (fPLACE n c) < 64 && (s.adc n c).lasting.isEmpty && (s.adc n c).tests.isEmpty && s.upos n c != s.fld (fPLACE n c) then
    setAdc n c { s.adc n c with next := some (s.fld (fPLACE n c)) } (s.setF (fCONV_STATUS_UNDERSTUDY_POS n c) 64)
  else s

/-- A dwell begins. -/
def beginDwell (n d : Nat) (s : State) : State := each (span 0 4) (fun c s => adcBoundary n c d s) (setEng n { s.engOf n with dwell := d } s)

/-- A rotation boundary of channel n (R127, R128): the corrections that background calibration has produced, ADC and DAC alike, come
into force; the next dwell begins. -/
def rotationBoundary (n : Nat) (corr : List (Nat × Int × Int × Int)) (s : State) : State :=
  if !s.active n then s
  else beginDwell n (((s.engOf n).dwell + 1) % 65) (if s.flag (fCONV_CAL_BG_CAL_EN n) then each corr (takeCorr n) s else s)

/-- `UNDERSTUDY_HANDOVER` (R127, R131): the understudy takes the position meant for it after 1 ms of alignment. -/
def execUnderstudyHandover (n c : Ch) (s : State) : Host.Outcome State Fault Refusal :=
  let a := s.adc n c
  match a.next with
  | none => ok s
  | some k =>
    if !s.active n || s.upos n c = 127 || a.tests.any (fun t => t.1 == 64) then ok s
    else
      let s := setAdc n c { a with next := none } (s.setF (fCONV_STATUS_UNDERSTUDY_POS n c) k)
      let other := s.flag (fCONV_STATUS_DEGRADED n c) || a.tests.any fun t => t.1 != k && t.1 != 64
      let t := setAdc n c { s.adc n c with tests := a.tests.filter fun t => t.1 != k } s
      ok (if !s.flag (fCONV_STATUS_INTERP_ACTIVE n c) || s.fld (fCONV_STATUS_INTERP_POS n c) != k then s
        else if other then setAdc n c { s.adc n c with tests := a.tests } (endInterp n c t)
        else s.setB (fCONV_STATUS_INTERP_ACTIVE n c) false)

/-! ### DACs (R132) -/

/-- `DAC_FAULT`: the DAC keeps transmitting while it is tested. -/
def execDacFault (n c : Ch) (s : State) : Host.Outcome State Fault Refusal :=
  let e := s.engOf n
  if s.chDark n || s.flag (fCONV_STATUS_FAILED n (4 + c)) || e.dacTests.any (fun t => t.1 == c.val) then ok s
  else ok (setEng n { e with dacTests := e.dacTests ++ [(c.val, false)] } s)

/-- `DAC_TEST_COMPLETE`: of DAC c. -/
def execDacTestComplete (n c : Ch) (pass : Bool) (s : State) : Host.Outcome State Fault Refusal :=
  let e := s.engOf n
  match e.dacTests.find? fun t => t.1 == c.val with
  | none => ok s
  | some (_, host) =>
    let s := setEng n { e with dacTests := e.dacTests.filter fun t => t.1 != c.val } s
    let s :=
      if pass then
        if host then s
        else
          let s := s.bumpF (fCONV_STATUS_TRANSIENTS n (4 + c))
          offer 0x0240 (bCH n) (4 + c) (s.fld (fCONV_STATUS_TRANSIENTS n (4 + c))) s
      else muteFollow n (offer 0x0241 (bCH n) (4 + c) 0 (s.setB (fCONV_STATUS_FAILED n (4 + c)) true))
    ok (if host then targetDone 0x0201 (tConv n (4 + c)) none (le 1 (b2n (!pass)) ++ le 1 (if pass then 0 else 4)) s else s)

/-! ### Commands (R136) -/

/-- A named loop stands at 90 % of its range or more (R136). -/
def someNear (s : State) (n named : Nat) : Bool :=
  (span 0 6).any fun j => bit named j && decide (2250 ≤ ((s.engOf n).bias.getD j 0).natAbs)

/-- Move loops by 2 V-pi towards the centre (R115); a loop at the centre goes down: assumption 63. -/
def recentre (n : Nat) (js : List Nat) (s : State) : State :=
  let e := s.engOf n
  let b := (span 0 6).map fun j =>
    let v := e.bias.getD j 0
    if js.contains j then (if v < 0 then v + 2000 else v - 2000) else v
  let moved := js.foldl (fun a j => withBit a j true) 0
  biasLimits n (offer 0x0222 (bCH n) moved 0 (setEng n { e with bias := b } s))

/-- `BIAS_RECENTRE`. -/
def cmdBiasRecentre : Cmd where
  code := 0x0200
  access := accOpRem
  params := fun ps _ => firstBad [badCh ps, (miss ps 1 1 || decide (64 ≤ fld ps 1 1), 1)]
  touches := fun q _ => [resCH (fld q.params 0 1)]
  body := fun q s =>
    let n := fld q.params 0 1
    let named := fld q.params 1 1
    if s.chDark n || !someNear s n named then .error { status := stWRONG_STATE }
    else .ok (s, .accept (opOf q 0x0200 [resCH n] [0x5000 + n] s (data := named)))

/-- `BIAS_RECENTRE`: accepted, the named loops move and the notice follows. -/
def execBiasRecentre (q : Request) (s : State) : Host.Outcome State Fault Refusal :=
  if 4076 < q.params.length then serve cmdBiasRecentre q s
  else
    let t := serveState cmdBiasRecentre q s
    let n := fld q.params 0 1
    match t.ops.find? fun o => o.opcode == 0x0200 && o.targets.contains (0x5000 + n) && decide (o.org = q.org) with
    | none => ok t
    | some op => ok (endOp op { status := stOK } (le 1 op.data) (recentre n ((span 0 6).filter (bit op.data)) t))

/-- `SLICE_TEST` has no cover for the slice (R136): the understudy is permanent, retired or under test. -/
def noCover (s : State) (n c : Nat) : Bool := !s.understudyFree n c

/-- `SLICE_TEST`. -/
def cmdSliceTest : Cmd where
  code := 0x0201
  access := accOpRem
  params := fun ps _ => firstBad [badCh ps, (miss ps 1 1 || decide (7 < fld ps 1 1), 1),
    (miss ps 2 1 || decide ((if fld ps 1 1 < 4 then 64 else 0) < fld ps 2 1), 2)]
  touches := fun q _ => [resCH (fld q.params 0 1)]
  body := fun q s =>
    let n := fld q.params 0 1
    let c := fld q.params 1 1
    let op := opOf q 0x0201 [resCH n] [tConv n c] s
    if !s.active n || s.flag (fCONV_STATUS_FAILED n c) then .error { status := stWRONG_STATE }
    else if c < 4 then
      if noCover s n c then .error { status := stWRONG_STATE } else .ok (testSlice n c (fld q.params 2 1) true s, .accept op)
    else
      let e := s.engOf n
      let rest := e.dacTests.filter fun t => t.1 != c - 4
      .ok (setEng n { e with dacTests := rest ++ [(c - 4, true)] } s, .accept op)

/-- `SLICE_TEST`. -/
def execSliceTest (q : Request) (s : State) : Host.Outcome State Fault Refusal := serve cmdSliceTest q s

/-- One loop of `ENG_REPORT`: its bias, and its error where it regulates. -/
def loopBytes (s : State) (n j : Nat) : List Byte :=
  let e := s.engOf n
  le 2 (if s.chDark n then 0 else unsigned 16 (e.bias.getD j 0)) ++ le 2 (if s.loopsRun n then sat16 (e.err.getD j 0) else 0x8000)

/-- `ENG_REPORT`. -/
def cmdEngReport : Cmd where
  code := 0x0202
  access := accAll
  params := fun ps _ => firstBad [badCh ps]
  body := fun q s =>
    let n := fld q.params 0 1
    .ok (s, .done (((span 0 6).flatMap (loopBytes s n)) ++ le 4 (s.shown (rENG_STATUS n)).toNat ++
      (span 0 8).flatMap fun c => le 4 (s.shown (rCONV_STATUS n c)).toNat))

/-- `ENG_REPORT`. -/
def execEngReport (q : Request) (s : State) : Host.Outcome State Fault Refusal := serve cmdEngReport q s

end Sys2Proof.Machine
end

