-- ==== Sys2Proof/Machine/Memory.lean ====
section
/-! DEFINITION. Memory protection (spec 15): patrol and SRAM scrub, error injection, retirement, post-package repair, and the
memory commands. -/

namespace Sys2Proof.Machine

open Sys2Proof

/-- Source block of the stack that holds a die position (R363, R381). -/
def bDie (die : Nat) : Nat := bHBM (die / 8)

/-- A running pair uses the far store. -/
def State.farInUse (s : State) : Bool := s.flag fMRG_GLOBAL_FAR_USED

/-! ### Scrub (R369, R370) -/

/-- The codeword patrolled after k: region 0 is left out while a far-store pair runs. -/
def nextPatrol (s : State) (k : Nat) : Nat :=
  let n := if k + 1 < allCws then k + 1 else 0
  if s.farInUse && regionOf (n / pageCws) == 0 then 77824 * pageCws else n

/-- A codeword that scrub has corrected is written back, which an armed injection may meet (R372), and read again, with
errors of the devices `err`. -/
def scrubBack (k : Nat) (c : BitVec 256) (err : BitVec 256) (s : State) : State :=
  let s := storeCw k c s
  match decodeCw s.erased (s.cw k ^^^ err) with
  | .clean => s
  | .corrected j _ => offer 0x0A03 (bDie j) (k / pageCws) j (logErr k j false true s)
  | .uncorrectable => logErr k 0 true false (putCw k (s.cw k ^^^ err) s)

/-- `PATROL_SCRUB` (R369): the next codeword is read with errors of the devices `e1`; a corrected one is written back, unless a
write reached it meanwhile, and read again with `e2`. -/
def execPatrolScrub (e1 e2 : BitVec 256) (written : Bool) (s : State) : Host.Outcome State Fault Refusal :=
  let k := s.mem.patrol
  if !s.flag fMEM_SCRUB_PATROL_EN || !s.flag fMEM_STATUS_HBM_READY then ok s
  else
    let s := s.setMem { s.mem with patrol := nextPatrol s k }
    if s.retiredPage (k / pageCws) || (s.farInUse && regionOf (k / pageCws) == 0) then ok s
    else
      let s := count (cMEM 18) s
      match decodeCw s.erased (s.cw k ^^^ e1) with
      | .clean => ok s
      | .corrected j d =>
        let s := logErr k j false false s
        ok (if written then s else scrubBack k d e2 s)
      | .uncorrectable => ok (logErr k 0 true false s)

/-- What follows an uncorrectable word of a store (R371): a context is zeroised, a leaf entry restored; a ledger entry, a
near-store copy, a ring record and a capture stay damaged for their reader. -/
def sramOutcome (st i : Nat) (s : State) : State :=
  let s := sramUnc st i s
  if st = 0 then setFlips st i 0 (zeroise i s)
  else if st ≤ 4 then setFlips st i 0 (restoreLeaf (st - 1) i s)
  else setFlips st i 2 s

/-- `SRAM_SCRUB` (R370): entry k of a store reads with `bad` wrong bits beside those an injection has left; a single one is
corrected, written back unless a functional write has replaced it meanwhile, which an armed injection may meet (R372), and is lasting when it
is there again on the re-read. -/
def execSramScrub (st : Fin 11) (k bad : Nat) (written lasting : Bool) (s : State) : Host.Outcome State Fault Refusal :=
  if !s.flag fMEM_SCRUB_SRAM_EN then ok s
  else
    let n := s.flipsIn st k + bad
    if n = 0 then ok s
    else if n = 1 && written then ok (setFlips st k 0 (count (cSRAM st 0) s))
    else if n = 1 then
      let s := sramWrite st k (setFlips st k 0 (count (cSRAM st 0) s))
      let left := s.flipsIn st k
      ok (if 2 ≤ left then sramOutcome st k s
        else if lasting || left = 1 then offer 0x0A11 (bStore st) (st + 256 * (k % 2 ^ 24)) 0 s else s)
    else ok (sramOutcome st k s)

/-- The record of a combination seen in the last second (R373, R381). -/
def secondRecord (x : Nat × Nat × Bool × Nat × Nat) (s : State) : State :=
  let (die, r, unc, cnt, page) := x
  offer (if unc then 0x0A02 else 0x0A01) (bDie die) (die + 16 * r + 256 * sat (2 ^ 24 - 1) cnt) (page % 65536) s

/-- `MEMORY_ERROR_RECORDS` (R373). -/
def execMemoryErrorRecords (s : State) : Host.Outcome State Fault Refusal :=
  ok (each s.mem.second secondRecord (s.setMem { s.mem with second := [] }))

/-! ### Injection (R372) -/

/-- `MEM_FLIP_ARM`: a write of `MEM_FLIP` that sets ARM replaces a pending injection. -/
def execMemFlipArm (w : Word) (s : State) : Host.Outcome State Fault Refusal :=
  ok (if s.ready then s.wr rMEM_FLIP ((w &&& 0x00FFFFFF#32) ||| 0x80000000#32) else s)

/-- `MEM_SFLIP_ARM`. -/
def execMemSflipArm (w : Word) (s : State) : Host.Outcome State Fault Refusal :=
  ok (if s.ready then s.wr rMEM_SFLIP ((w &&& 0x000FFF7F#32) ||| 0x80000000#32) else s)

/-! ### Commands (R380) -/

/-- Contents of pages that meet a condition are gone. -/
def dropPages (p : Nat → Bool) (s : State) : State :=
  s.setMem { s.mem with hbm := s.mem.hbm.filter fun e => !p (e.1 / pageCws) }

/-- A free page of region 3: in use, left by a retirement, and with nothing stored. DESIGN CHOICE, assumption 136: the lowest. -/
def State.freePage (s : State) (r : Retire) : Option Nat :=
  (span 126453 75000).find? fun p => !s.retiredPage p && !r.covers p && s.mem.hbm.all fun e => e.1 / pageCws != p

/-- The readable codewords of a firmware page go to a free page (R374). -/
def savePage (r : Retire) (page : Nat) (s : State) : State :=
  match s.freePage r with
  | none => s
  | some to_ => each ((s.mem.hbm.map Prod.fst).filter fun k => k / pageCws == page) (fun k s => match readCw k 0#256 s with
    | (some d, s) => writeCw (pageCws * to_ + k % pageCws) d s
    | (none, s) => s) s

/-- The firmware pages that a retirement takes are saved first. -/
def saveFirmware (r : Retire) (s : State) : State :=
  each (((s.mem.hbm.map fun e => e.1 / pageCws).filter fun p => regionOf p == 3 && r.covers p).eraseDups) (savePage r) s

/-- Pages in use in a region. -/
def State.pagesIn (s : State) (r : Nat) : Nat :=
  if !s.flag fMEM_STATUS_HBM_READY then 0
  else if !s.anyRetired then regionPages r
  else ((span 0 allPages).filter fun p => regionOf p == r && !s.retiredPage p).length

/-- Pages an entry alone takes out of use. -/
def pagesOf (s : State) (r : Retire) : Nat :=
  match r with
  | .page p => if s.retiredPage p then 0 else 1
  | .bank .. => ((span 0 allPages).filter fun p => r.covers p && !s.retiredPage p).length
  | .die _ => 0

/-- The retirement that parameters name: page, bank of the page, or die. -/
def retireOf (ps : List Byte) : Retire :=
  let page := fld ps 4 4
  match fld ps 0 1 with
  | 0 => .page page
  | 1 => .bank page
  | _ => .die (fld ps 1 1)

/-- A retirement that is already there, or a second die erasure (R380). -/
def retireClash (s : State) (r : Retire) : Bool :=
  match r with
  | .page p => s.retiredPage p
  | .die _ => s.erased.isSome
  | .bank p => s.retirements.any fun e => match e.2 with
    | .bank p' => Config.pageGroup p == Config.pageGroup p' && Config.pageBank p == Config.pageBank p'
    | _ => false

/-- The lowest unused entry of the table. -/
def freeEntry (s : State) : Option Nat := (span 0 256).find? fun i => (smGet (fun _ => none) s.perm.retire i).isNone

/-- Set or clear an entry; the registers, the far store and the life store follow. -/
def setRetire (i : Nat) (r : Option Retire) (s : State) : State :=
  let s := { s with perm := { s.perm with retire := smSet (fun _ => none) s.perm.retire i r, stamp := smSet (fun _ => 0) s.perm.stamp i (if r.isSome then s.life.toNat / 1000 else 0) }, store := { s.store with due := true } }
  memRefresh s

/-- The stack an entry's record names. -/
def bRetire (r : Retire) : Nat := match r with | .die d => bDie d | _ => bHBM 0

/-- The reply of `MEM_RETIRE`. -/
def retireReply (i pages : Nat) (s : State) : List Byte := le 2 i ++ le 4 pages ++ le 4 (s.rd rMEM_FAR_SLOTS).toNat

/-- `MEM_RETIRE` (R374, R375). -/
def cmdMemRetire : Cmd where
  code := 0x0A00
  access := accOpRem
  params := fun ps s =>
    let a := fld ps 0 1
    firstBad [(miss ps 0 1 || decide (3 < a), 0), (a == 2 && (miss ps 1 1 || decide (15 < fld ps 1 1)), 1),
      (a == 3 && (miss ps 2 2 || (smGet (fun _ => none) s.perm.retire (fld ps 2 2)).isNone), 2),
      (decide (a < 2) && (miss ps 4 4 || decide (allPages ≤ fld ps 4 4)), 4)]
  body := fun q s =>
    let ps := q.params
    let a := fld ps 0 1
    if !s.flag fMEM_STATUS_HBM_READY then .error { status := stWRONG_STATE }
    else if a = 3 then
      let i := fld ps 2 2
      match smGet (fun _ => none) s.perm.retire i with
      | none => .error { status := stBAD_PARAM, off := 2 }
      | some r =>
        let s := setRetire i none s
        .ok (offer 0x0A04 (bRetire r) i 3 s, .done (retireReply i (pagesOf s r) s))
    else
      let r := retireOf ps
      if retireClash s r then .error (conflict (bRetire r))
      else match freeEntry s with
        | none => .error { status := stREFUSED_BUDGET, b1 := bRetire r }
        | some i =>
          let k := pagesOf s r
          let s := dropPages r.covers (setRetire i (some r) (saveFirmware r s))
          .ok (offer 0x0A04 (bRetire r) i a s, .done (retireReply i k s))

/-- `MEM_RETIRE`. -/
def execMemRetire (q : Request) (s : State) : Host.Outcome State Fault Refusal := serve cmdMemRetire q s

/-- An entry of the error log (R373). -/
def HLog.bytes (e : HLog) : List Byte :=
  le 4 e.page ++ le 2 (e.cw + 512 * e.die + 8192 * b2n (Config.pageGroup e.page) + 16384 * b2n e.unc + 32768 * b2n e.lasting) ++
    le 1 (Config.pageBank e.page) ++ le 1 (regionOf e.page) ++ le 2 e.count ++ le 6 (e.time.toNat / 1000)

/-- `MEM_LOG_READ`: an entry not in use reads as zeros. -/
def cmdMemLogRead : Cmd where
  code := 0x0A01
  access := accAll
  params := fun ps _ => firstBad [(miss ps 0 2 || decide (1023 < fld ps 0 2), 0),
    (miss ps 2 2 || outside 1 254 (fld ps 2 2) || decide (1024 < fld ps 0 2 + fld ps 2 2), 2)]
  body := fun q s =>
    if !s.flag fMEM_STATUS_HBM_READY then .error { status := stWRONG_STATE }
    else .ok (s, .done ((span (fld q.params 0 2) (fld q.params 2 2)).flatMap fun i =>
      match s.mem.log[i]? with | some e => e.bytes | none => List.replicate 16 0#8))

/-- `MEM_LOG_READ`. -/
def execMemLogRead (q : Request) (s : State) : Host.Outcome State Fault Refusal := serve cmdMemLogRead q s

/-- Rows that repairs have used up for a page's bank and a die, and those left. -/
def rowsLeft (s : State) (page die : Nat) (hard : Bool) : Nat :=
  Config.spareRows (Config.pageGroup page) (Config.pageBank page) die hard -
    (s.mem.repairs.filter fun r => decide (r = (Config.pageGroup page, Config.pageBank page, die, hard))).length

/-- The mark of a repair among the targets of operations. -/
abbrev tPpr : Nat := 0x8000

/-- `MEM_PPR` (R376, R380). -/
def cmdMemPpr : Cmd where
  code := 0x0A02
  access := accOpRem
  params := fun ps _ => firstBad [(miss ps 0 1 || decide (1 < fld ps 0 1), 0), (miss ps 1 1 || decide (15 < fld ps 1 1), 1),
    (miss ps 2 2 || fld ps 2 2 != 0, 2), (miss ps 4 4 || decide (allPages ≤ fld ps 4 4), 4)]
  touches := fun _ _ => [resMEM]
  body := fun q s =>
    let hard := fld q.params 0 1 == 1
    let die := fld q.params 1 1
    let page := fld q.params 4 4
    if !s.flag fMEM_STATUS_HBM_READY then .error { status := stWRONG_STATE }
    else if s.farInUse then .error (conflict bMRG)
    else if rowsLeft s page die hard = 0 then .error { status := stREFUSED_BUDGET, b1 := bDie die }
    else .ok (s.setMem { s.mem with ppr := some (page, die, hard) }, .accept (opOf q 0x0A02 [resMEM] [tPpr] s))

/-- `MEM_PPR`. -/
def execMemPpr (q : Request) (s : State) : Host.Outcome State Fault Refusal := serve cmdMemPpr q s

/-- `PPR_COMPLETE` (R376): the page is unlocked with its codewords as they were. -/
def execPprComplete (failed : Bool) (s : State) : Host.Outcome State Fault Refusal :=
  match s.mem.ppr with
  | none => ok s
  | some (page, die, hard) =>
    let row := (Config.pageGroup page, Config.pageBank page, die, hard)
    let s := s.setMem { s.mem with ppr := none, repairs := if failed then s.mem.repairs else s.mem.repairs ++ [row] }
    let s := offer 0x0A05 (bDie die) page (b2n hard + 2 * b2n failed) s
    ok (targetDone 0x0A02 tPpr none (le 1 (b2n failed) ++ le 1 (sat 255 (rowsLeft s page die true))) s)

/-- `MEM_REPORT`. -/
def cmdMemReport : Cmd where
  code := 0x0A03
  access := accAll
  params := fun _ _ => none
  body := fun _ s => .ok (s, .done (le 4 (s.rd rMEM_STATUS).toNat ++ le 4 (s.rd rMEM_FAR_SLOTS).toNat ++
    ((span 0 5).flatMap fun r => le 4 (s.pagesIn r)) ++ (span 0 18).flatMap fun k => le 6 ((smGet (fun _ => 0#49) s.cnt.store (cMEM k)).toNat % 2 ^ 48)))

/-- `MEM_REPORT`. -/
def execMemReport (q : Request) (s : State) : Host.Outcome State Fault Refusal := serve cmdMemReport q s

end Sys2Proof.Machine
end

