-- ==== Sys2Proof/Machine/Monitor.lean ====
section
/-! DEFINITION. The monitor converter and its filter chains (spec 18). -/

namespace Sys2Proof.Machine

open Sys2Proof

/-- Replace the monitor's own state. -/
def State.setMon (s : State) (m : MonSt) : State := { s with mon := m }

/-- Entry k of the sequence: its input, none where it is idle (R417). -/
def State.monSlot (s : State) (k : Nat) : Option Nat :=
  let w := (s.rd (rMON_SEQ (k / 4))).toNat / 2 ^ (8 * (k % 4))
  if bit w 7 then none else some (w % 64)

/-- Entries that name an input: its weight w (R417). -/
def State.monWeight (s : State) (i : Nat) : Nat := ((span 0 64).filter fun k => s.monSlot k == some i).length

/-- The source domain of an input is DARK (R416, R418). -/
def State.srcDark (s : State) (i : Nat) : Bool :=
  if i < 48 then s.fld (fPD (16 + i / 12)) == 0 else if i = 61 then s.fld (fPD 30) == 0 else if i = 62 then s.fld (fPD 31) == 0 else false

/-! ### Settings, group delay, settling (R420 to R423) -/

/-- Order N of the sinc stage. -/
def State.monN (s : State) (i : Nat) : Nat := s.fld (fMON_IN_CFG_SINC_ORD i) + 1
/-- Decimation R of the sinc stage. -/
def State.monR (s : State) (i : Nat) : Nat := clampN 2 256 (s.fld (fMON_IN_CFG_SINC_DEC i))
/-- Length L of the moving average. -/
def State.monL (s : State) (i : Nat) : Nat := s.fld (fMON_IN_CFG_MA_LEN i) + 1
/-- Output decimation D. -/
def State.monD (s : State) (i : Nat) : Nat := match s.fld (fMON_IN_CFG_FIR_DEC i) with | 0 => 1 | 1 => 2 | _ => 4
/-- Notch frequency f0, Hz. -/
def State.monF0 (s : State) (i : Nat) : Nat := clampN 100 50000 (s.fld (fMON_IN_NOTCH_NOTCH_HZ i))

/-- The notch is on and f0 is at or above 0.45 fs1: it is bypassed (R421). -/
def State.notchOut (s : State) (i : Nat) : Bool :=
  s.flag (fMON_IN_CFG_NOTCH_EN i) && decide (45 * 31250 * s.monWeight i ≤ 100 * s.monF0 i * s.monR i)

/-- The notch acts. -/
def State.notchOn (s : State) (i : Nat) : Bool := s.flag (fMON_IN_CFG_NOTCH_EN i) && !s.notchOut i

/-- Group delay at DC in us, rounded down (R423). -/
def State.monGd (s : State) (i : Nat) : Nat :=
  let w := s.monWeight i
  let r := s.monR i
  let t := s.monN i * (r - 1) + r * (s.monL i - 1) + 2 * r * (if s.flag (fMON_IN_CFG_FIR_MIN i) then 3 else 15) + (if s.notchOn i then 2 * r else 0)
  if w = 0 then 0
  else if s.notchOn i then (16 * t * s.monF0 i + 16000 * w) / (w * s.monF0 i)
  else 16 * t / w

/-- Settling time in us, rounded up (R423). -/
def State.monSettle (s : State) (i : Nat) : Nat :=
  let w := s.monWeight i
  let t := 32 * s.monR i * (s.monN i + s.monL i + 31)
  if w = 0 then 0
  else if s.notchOn i then (t * s.monF0 i + 22000000 * w + w * s.monF0 i - 1) / (w * s.monF0 i)
  else (t + w - 1) / w

/-- Raw samples that a result's span holds. -/
def State.monSpan (s : State) (i : Nat) : Nat :=
  let r := s.monR i
  s.monN i * (r - 1) + 1 + r * (s.monL i - 1) + 30 * r +
    (if s.notchOn i then (22 * 31250 * s.monWeight i + s.monF0 i - 1) / s.monF0 i else 0)

/-- The figures of an input follow its configuration: delay, settling, the bypass of the notch, which is recorded once for each
configuration (R421, R423). -/
def monFigures (i : Nat) (s : State) : State :=
  let s := (s.setF (fMON_IN_GD_TIME i) (s.monGd i)).setF (fMON_IN_SETTLE_TIME i) (s.monSettle i)
  let s := s.setB (fMON_IN_LAST_NOTCH_BYPASS i) (s.notchOut i)
  if !s.notchOut i then s.setMon { s.mon with noted := s.mon.noted.filter fun j => j != i }
  else if s.mon.noted.contains i then s
  else offer 0x0D04 bMON i (s.monF0 i) (s.setMon { s.mon with noted := s.mon.noted ++ [i] })

/-- The chain of an input. -/
def State.chain (s : State) (i : Nat) : MonChain := smGet (fun _ => MonChain.init) s.mon.chains i

/-- Replace the chain of an input. -/
def State.setChain (s : State) (i : Nat) (c : MonChain) : State :=
  s.setMon { s.mon with chains := smSet (fun _ => MonChain.init) s.mon.chains i c }

/-- The band-gap check of input 63 has to begin anew (R427). -/
def gapAnew (i : Nat) (s : State) : State := if i = 63 then s.setMon { s.mon with bgSince := none } else s

/-- A chain is emptied, at a time or from its next conversion; a conversion in progress is discarded (R423). -/
def monReset (i : Nat) (at0 : Option (BitVec 64)) (s : State) : State :=
  let s := gapAnew i (s.setMon { s.mon with void := s.mon.void || s.mon.cur == some i })
  (s.setChain i ⟨[], [], 0, at0, s.monWeight i, false⟩).setB (fMON_IN_LAST_VALID i) false

/-- The source domains have changed (R418): a dark one shows; one that is back resets its chain. -/
def monSources (s : State) : State :=
  if !s.pdOn 3 then s
  else each (span 0 64) (fun i s =>
    let d := s.srcDark i
    if d = s.flag (fMON_IN_LAST_SRC_DARK i) then s
    else
      let s := s.setB (fMON_IN_LAST_SRC_DARK i) d
      if d then s else monReset i (some s.life) s) s

/-- `PD03` has its supply: every chain empty and every figure computed (R423, R428). -/
def monStart (s : State) : State :=
  monSources (each (span 0 64) (fun i s => monFigures i (monReset i (some s.life) s)) (s.setMon s.mon.fresh))

/-- An input's configuration has changed (R421, R423): its record may be made again. -/
def monConfigured (i : Nat) (s : State) : State :=
  let s := s.setMon { s.mon with noted := s.mon.noted.filter fun j => j != i }
  if s.pdOn 3 then monReset i none (monFigures i s) else s

/-- The weight of an input may have changed (R423): from then until the next reset its results are not what its stages give. -/
def monWeighed (i : Nat) (s : State) : State :=
  let c := s.chain i
  let s := if s.monWeight i = 0 then gapAnew i s else s
  monFigures i (if s.monWeight i = c.weight then s else s.setChain i { c with stale := true })

/-- A monitor register has been written (R417, R421, R423). -/
def monWritten (off : Nat) (s : State) : State :=
  if rMON_SEQ 0 ≤ off && off ≤ rMON_SEQ 15 then if s.pdOn 3 then each (span 0 64) monWeighed s else s
  else if rMON_IN_CFG 0 ≤ off && off ≤ rMON_IN_CFG 63 then monConfigured ((off - rMON_IN_CFG 0) / 4) s
  else if rMON_IN_NOTCH 0 ≤ off && off ≤ rMON_IN_NOTCH 63 then monConfigured ((off - rMON_IN_NOTCH 0) / 4) s
  else s

/-! ### Conversion and results (R417, R420, R424, R425) -/

/-- The sticky saturation bit of an input. -/
abbrev fSat (i : Nat) : Fld := if i < 32 then ⟨rMON_SAT_LO, i, 1⟩ else ⟨rMON_SAT_HI, i - 32, 1⟩

/-- An input has saturated (R424). -/
def saturated (i code : Nat) (s : State) : State :=
  if s.flag (fSat i) then s else offer 0x0D01 bMON i code (s.setB (fSat i) true)

/-- `Q_COUNT` follows the queue. -/
def monCount (s : State) : State := s.setF fMON_STATUS_Q_COUNT s.mon.queue.length

/-- A result enters the queue, or is discarded when the queue is full (R425). -/
def monQueue (e : MonEntry) (s : State) : State :=
  let m := s.mon
  if 1024 ≤ m.queue.length then
    (count cMON_Q_LOST (s.setMon { m with lost := m.lost + 1, lostSec := m.lostSec + 1 })).setB fMON_STATUS_Q_OVF true
  else monCount (s.setMon { m with queue := m.queue ++ [{ e with lost := sat 65535 m.lost }], lost := 0 })

/-- The sums of r successive values, newest first: a sliding window (R420). -/
def sums (r : Nat) (xs : List Nat) : List Nat := (span 0 (xs.length + 1 - r)).map fun k => ((xs.drop k).take r).sum

/-- Every r-th value from the newest on: decimation (R420). -/
def decimate (r : Nat) (xs : List Nat) : List Nat := (span 0 ((xs.length + r - 1) / r)).map fun k => xs.getD (r * k) 0

/-- A sinc stage of order n (R420): n sliding windows of r, decimated by r. -/
def sinc (n r : Nat) (xs : List Nat) : List Nat := decimate r (each (span 0 n) (fun _ ys => sums r ys) xs)

/-- The moving averages that a chain's codes give, newest first, in units of 1 / (R^N L) code (R420). -/
def State.averages (s : State) (i : Nat) (codes : List Nat) : List Nat := sums (s.monL i) (sinc (s.monN i) (s.monR i) codes)

/-- What the last two stages make of the averages (R421, R422): with unity DC gain, 31 equal averages and no notch give that average;
otherwise, or where the weight has changed since the reset (R423), a value the manual does not give. -/
def chainOut (s : State) (i : Nat) (c : MonChain) : Int :=
  let m := s.averages i c.codes
  let unit := s.monR i ^ s.monN i * s.monL i
  let v := 256 * m.headD 0
  if !c.stale && !s.notchOn i && decide (31 ≤ m.length) && (m.take 31).all (fun x => 256 * x == v) && decide (v % unit = 0) then (v / unit : Nat)
  else Config.monFilter (s.rd (rMON_IN_CFG i)) (s.rd (rMON_IN_NOTCH i)) (s.monWeight i) m

/-- The notch's newest output is clamped (R424). -/
def notchClamped (s : State) (i : Nat) (codes : List Nat) : Bool :=
  s.notchOn i && Config.monClamped (s.rd (rMON_IN_CFG i)) (s.rd (rMON_IN_NOTCH i)) (s.monWeight i) (s.averages i codes)

/-- The distance of input 63 from 1.200 V of its 1.5 V, as |5 v - 4,194,304| against 0.5 % and 0.4 % of 4,194,304. -/
def bandgapOff (v : Nat) : Nat := (5 * (v : Int) - 4194304).natAbs

/-- A result of input 63 calls for another `BG_FAULT` (R427): beyond 0.5 % while it is clear, within 0.4 % while it is set. -/
def State.gapTurns (s : State) : Bool :=
  let d := bandgapOff (s.fld (fMON_IN_LAST_VALUE 63))
  if s.flag fMON_STATUS_BG_FAULT then decide (1000 * d ≤ 4194304 * 4) else decide (4194304 * 5 < 1000 * d)

/-- A new result of input 63 counts toward the second of R427, once it is settled. -/
def gapFollow (s : State) : State :=
  let m := s.mon
  s.setMon { m with bgSince :=
    if s.gapTurns && !s.flag (fMON_IN_LAST_SETTLING 63) then some (m.bgSince.getD s.life) else none }

/-- A result of input i (R420, R423 to R425). -/
def monResult (i code : Nat) (s : State) : State :=
  let ch := s.chain i
  let v := chainOut s i ch
  let bad := decide (v < 0) || decide (1048575 < v)
  let satd := bad || (ch.clamps.any fun b => b) || ch.codes.any fun c => c == 0 || c == 4095
  let val := (clampI 0 1048575 v).toNat
  let settling := decide (s.life.toNat < (ch.at0.getD s.life).toNat + 1000 * s.fld (fMON_IN_SETTLE_TIME i))
  let s := if bad then saturated i code s else s
  let s := ((s.setF (fMON_IN_LAST_VALUE i) val).setB (fMON_IN_LAST_SAT i) satd).setB (fMON_IN_LAST_SETTLING i) settling
  let s := s.setB (fMON_IN_LAST_VALID i) true
  let s := if i = 63 then gapFollow s else s
  if s.flag (fMON_IN_CFG_QUEUE_EN i) then
    monQueue ⟨s.life, BitVec.ofNat 32 (val + 2 ^ 20 * i + 2 ^ 26 * b2n satd + 2 ^ 27 * b2n settling + 2 ^ 28), 0⟩ s
  else s

/-- A raw conversion enters its chain; every R of them make an average, every R x D a result (R420). A saturated code, or a clamped output
of the notch, is shown (R424). -/
def monSample (i code : Nat) (s : State) : State :=
  let ch := s.chain i
  let codes := (code :: ch.codes).take (s.monSpan i)
  let tick := decide ((ch.n + 1) % s.monR i = 0)
  let clamp := tick && notchClamped s i codes
  let ch : MonChain := { ch with
    codes := codes, n := ch.n + 1, at0 := some (ch.at0.getD s.life)
    clamps := if tick then (clamp :: ch.clamps).take 31 else ch.clamps }
  let s := s.setChain i ch
  let s := if code = 0 || code = 4095 || clamp then saturated i code s else s
  if ch.n % (s.monR i * s.monD i) = 0 then monResult i code s else s

/-- A slot begins (R417, R418): it converts the input its entry names now, unless the entry is idle or the source domain is DARK. -/
def slotBegin (k : Nat) (s : State) : State :=
  s.setMon { s.mon with slot := some k, cur := (s.monSlot k).filter fun i => !s.srcDark i, void := false }

/-- `MONITOR_CONVERSION` (R417, R418): the slot ends; `code` is what the converter reads. A write to its entry since it began acts the next
time; a conversion whose chain was reset, or whose source has gone DARK, is discarded (R423). -/
def execMonitorConversion (code : Fin 4096) (s : State) : Host.Outcome State Fault Refusal :=
  match s.mon.slot with
  | none => ok s
  | some k =>
    if !s.pdOn 3 || !s.flag fMON_STATUS_READY then ok s
    else
      let t := match s.mon.cur with
        | some i => if s.mon.void || s.srcDark i then s else monSample i code s
        | none => s
      ok (slotBegin ((k + 1) % 64) t)

/-- `MONITOR_ROUND_BOUNDARY` (R427, R428): the corrections of background calibration come into force. The first round begins with every chain
reset. -/
def execMonitorRoundBoundary (offs gain : Int) (s : State) : Host.Outcome State Fault Refusal :=
  if !s.pdOn 3 || !s.flag fMON_STATUS_READY then ok s
  else
    let t := s.setMon { s.mon with cal := (offs, gain) }
    match s.mon.slot with
    | none => ok (slotBegin 0 (each (span 0 64) (fun i s => monReset i (some s.life) s) t))
    | some 0 => ok t
    | some _ => ok s

/-- `MONITOR_CALIBRATION_COMPLETE` (R427, R428). -/
def execMonitorCalibrationComplete (s : State) : Host.Outcome State Fault Refusal :=
  if !s.pdOn 3 || s.flag fMON_STATUS_READY then ok s
  else ok (offer 0x0D05 bMON 0 0 (s.setB fMON_STATUS_READY true))

/-- `BANDGAP_CHECK` (R427): input 63 has been out of, or back within, tolerance for 1 s. -/
def execBandgapCheck (s : State) : Host.Outcome State Fault Refusal :=
  let v := s.fld (fMON_IN_LAST_VALUE 63)
  let on := s.flag fMON_STATUS_BG_FAULT
  match s.mon.bgSince with
  | none => ok s
  | some t =>
    if !s.pdOn 3 || !s.flag (fMON_IN_LAST_VALID 63) || decide (s.life.toNat < t.toNat + 1000000000) then ok s
    else ok (gapAnew 63 (offer 0x0D03 bMON (b2n (!on) + 256 * v) 0 (s.setB fMON_STATUS_BG_FAULT (!on))))

/-- `MONITOR_DISCARD_RECORD` (R425). -/
def execMonitorDiscardRecord (s : State) : Host.Outcome State Fault Refusal :=
  if s.mon.lostSec = 0 then ok s
  else ok (offer 0x0D02 bMON (sat (2 ^ 32 - 1) s.mon.lostSec) 0 (s.setMon { s.mon with lostSec := 0 }))

/-- Take the head entry, if any. -/
def monPop (s : State) : Option MonEntry × State :=
  match s.mon.queue with
  | [] => (none, s)
  | e :: r => (some e, monCount (s.setMon { s.mon with queue := r }))

/-- The read of `MON_Q0` (R425) by requester 0, 1 (PCIe function) or 2 (I2C). -/
def monQ0Read (who : Nat) (s : State) : State :=
  match monPop s with
  | (none, s) => put 0#32 (setRl who rMON_Q1 0#32 (setRl who rMON_Q2 0#32 (setRl who rMON_Q3 0#32 s)))
  | (some e, s) => put (e.ts.setWidth 32) (setRl who rMON_Q1 ((e.ts >>> 32).setWidth 32) (setRl who rMON_Q2 e.q2 (setRl who rMON_Q3 (BitVec.ofNat 32 e.lost) s)))

/-- `MON_Q0_READ`. -/
def execMonQ0Read (who : Fin 3) (s : State) : Host.Outcome State Fault Refusal :=
  ok (if s.ready then monQ0Read who s else put 0#32 s)

/-- `MON_CTRL.Q_CLEAR` (R426, R429). -/
def monClear (s : State) : State := monCount (s.setMon { s.mon with queue := [] })

/-- `Q_CLEAR`: through function 0. -/
def execQClear (s : State) : Host.Outcome State Fault Refusal := ok (if s.ready then monClear s else s)

/-- The 16 bytes of an entry (R425). -/
def MonEntry.bytes (e : MonEntry) : List Byte := le 8 e.ts.toNat ++ le 4 e.q2.toNat ++ le 4 e.lost

/-- `MON_Q_READ` (R448). -/
def cmdMonQRead : Cmd where
  code := 0x0904
  access := accOpRem
  params := fun ps _ => firstBad [(miss ps 0 2 || fld ps 0 2 == 0 || decide (254 < fld ps 0 2), 0)]
  body := fun q s =>
    if s.fld (fPD 3) = 0 then .error { status := stWRONG_STATE }
    else
      let es := s.mon.queue.take (fld q.params 0 2)
      let s := monCount (s.setMon { s.mon with queue := s.mon.queue.drop (fld q.params 0 2) })
      .ok (s, .done (le 2 es.length ++ le 2 s.mon.queue.length ++ es.flatMap MonEntry.bytes))

/-- `MON_Q_READ`. -/
def execMonQRead (q : Request) (s : State) : Host.Outcome State Fault Refusal := serve cmdMonQRead q s

end Sys2Proof.Machine
end

