-- ==== Sys2Proof/Machine/Observe.lean ====
section
/-! DEFINITION. Windowed bandwidth and the life records (spec 19): `BANDWIDTH_WINDOW_END`, `CNT_WINDOW_READ`, the life image,
the life store and `LIFE_READ`. -/

namespace Sys2Proof.Machine

open Sys2Proof

/-! ### Windowed bandwidth (R438) -/

/-- Rate in Mb/s of content blocks of 64 bits counted over some milliseconds. -/
def winRate (blocks ms : Nat) : Nat := blocks * 64 / (ms * 1000)

/-- A rate word: rate, and OVER where the exact rate exceeds the capacity in 1/257 Mb/s. -/
def winWord (blocks ms cap257 : Nat) : Word :=
  let r := sat (2 ^ 21 - 1) (winRate blocks ms)
  BitVec.ofNat 32 (r + (if cap257 * ms * 1000 < blocks * 64 * 257 then 2 ^ 31 else 0))

/-- Capacity of a client in 1/257 Mb/s: its nominal rate, or the container data rate of a sub-rate client (R236). -/
def clientCap (s : State) (n c : Nat) : Nat :=
  let t := s.fld (fCLIENT_TYPE n c)
  if t = 6 then (clientSlots s.rd n c).length * s.fld (fLINE_MODE_NET_RATE n) * 50400 else typeRate t * 100000 * 257

/-- Capacity of the port with a head lane in 1/257 Mb/s (R324). -/
def portCap (s : State) (h : Nat) : Nat := typeRate (s.fld (fHL_CFG_ROLE h)) * 100000 * 257

/-- A counter without its sticky bit. -/
def cntNow (s : State) (k : Nat) : Nat := (smGet (fun _ => 0#49) s.cnt.live k).toNat % 2 ^ 48

/-- Content blocks of a port counter in the window. -/
def winBlocks (s : State) (k : Nat) : Nat := (cntNow s k + 2 ^ 48 - smGet (fun _ => 0) s.win.base k) % 2 ^ 48

/-- The rates of the port with head lane l; 0 where the lane is no head. -/
def winPort (l : Nat) (s : State) : State :=
  if s.headLane l then
    (s.wr (rHP_WIN_RX l) (winWord (winBlocks s (cHP l 4)) s.win.ms (portCap s l))).wr (rHP_WIN_TX l)
      (winWord (winBlocks s (cHP l 5)) s.win.ms (portCap s l))
  else (s.wr (rHP_WIN_RX l) 0#32).wr (rHP_WIN_TX l) 0#32

/-- The content blocks of client c of channel n in the window, line-bound and host-bound; in an interoperable mode as the mode's own mappers
saw them, given as (channel, client, line-bound, host-bound). -/
def winCount (s : State) (clients : List (Nat × Nat × Nat × Nat)) (n c : Nat) : Nat × Nat :=
  if s.fld (fLINE_MODE_IOP n) = 0 then smGet (fun _ => (0, 0)) s.win.clients (512 * n + c)
  else match clients.find? fun x => x.1 == n && x.2.1 == c with
    | some x => x.2.2
    | none => (0, 0)

/-- The rates of the assigned clients. -/
def winClients (s : State) (clients : List (Nat × Nat × Nat × Nat)) : SMap (Word × Word) :=
  ((span 0 4).flatMap fun n => (assignedClients s.rd n).map fun c => (n, c)).foldl (fun m e =>
    let v := winCount s clients e.1 e.2
    smSet (fun _ => (0#32, 0#32)) m (512 * e.1 + e.2) (winWord v.1 s.win.ms (clientCap s e.1 e.2), winWord v.2 s.win.ms (clientCap s e.1 e.2))) []

/-- `WIN_MS` as taken: 1 to 1,000. -/
def State.winMs (s : State) : Nat := sat 1000 (max 1 (s.fld fHP_WIN_CTRL_WIN_MS))

/-- `BANDWIDTH_WINDOW_END` (R438): the running window ends and the next begins. A window in which `WIN_MS` was written yields no rates. -/
def execBandwidthWindowEnd (clients : List (Nat × Nat × Nat × Nat)) (s : State) : Host.Outcome State Fault Refusal :=
  if !s.ready then ok s
  else
    let s := if s.win.dirty then s
      else each (span 0 64) winPort { s with win := { s.win with len := s.win.ms, rates := winClients s clients } }
    let base := (span 0 64).foldl (fun m l => smSet (fun _ => 0) (smSet (fun _ => 0) m (cHP l 4) (cntNow s (cHP l 4))) (cHP l 5) (cntNow s (cHP l 5))) []
    ok { s with win := { s.win with ms := s.winMs, dirty := false, base := base, clients := [] } }

/-- The two rates of a client as `CNT_WINDOW_READ` gives them: 0 for `TYPE` 0. -/
def windowBytes (s : State) (n c : Nat) : List Byte :=
  let r := if s.fld (fCLIENT_TYPE n c) = 0 then (0#32, 0#32) else smGet (fun _ => (0#32, 0#32)) s.win.rates (512 * n + c)
  le 4 r.1.toNat ++ le 4 r.2.toNat

/-- `CNT_WINDOW_READ` (R448). -/
def cmdCntWindowRead : Cmd where
  code := 0x0902
  access := accCounters
  params := fun ps _ => firstBad [badCh ps, (miss ps 1 1 || fld ps 1 1 != 0, 1), (miss ps 2 2 || decide (511 < fld ps 2 2), 2),
    (miss ps 4 2 || outside 1 509 (fld ps 4 2) || decide (512 < fld ps 2 2 + fld ps 4 2), 4)]
  body := fun q s =>
    .ok (s, .done (le 4 s.win.len ++ (span (fld q.params 2 2) (fld q.params 4 2)).flatMap (windowBytes s (fld q.params 0 1))))

/-- `CNT_WINDOW_READ`. -/
def execCntWindowRead (q : Request) (s : State) : Host.Outcome State Fault Refusal := serve cmdCntWindowRead q s

/-! ### The life image (R446) -/

/-- Active time of channel n in us, with the time since it last became ACTIVE. -/
def activeTime (s : State) (n : Nat) : Nat :=
  s.store.cur.active.get (ch4 n) + (match s.pwr.since.get (ch4 n) with | some t => (s.life.toNat - t.toNat) / 1000 | none => 0)

/-- The life records as they stand, with the accumulators not yet written. -/
def lifeNow (s : State) : LifeImg :=
  let i := s.store.cur
  { i with
    powered := s.powered
    active := ⟨activeTime s 0, activeTime s 1, activeTime s 2, activeTime s 3⟩
    ceDie := (span 0 16).map fun d => i.ceDie.getD d 0 + cntNow s (cMEM d)
    perm := s.perm }

/-- The ADC word of the image. -/
def adcWord (lasting : List Nat) : Nat :=
  let (u, i, d, f) := convOutcome lasting
  u % 128 + 256 * (i % 64) + 16384 * b2n d + 32768 * b2n f

/-- n bytes of the image that have never been written. -/
def blanks (off n : Nat) : List Byte := (span off n).map Config.lifeBlank

/-- The entry of the retirement table (R374). -/
def retireBytes (p : Perm) (i : Nat) : List Byte :=
  let t := le 8 (smGet (fun _ => 0) p.stamp i)
  match smGet (fun _ => none) p.retire i with
  | none => blanks (272 + 16 * i) 16
  | some (.page g) => le 4 0 ++ le 4 g ++ t
  | some (.bank g) => le 4 1 ++ le 4 g ++ t
  | some (.die d) => le 1 2 ++ le 1 d ++ le 6 0 ++ t

/-- 24 biases of 2 bytes. -/
def biasBytes (b : List Int) : List Byte := (span 0 24).flatMap fun j => le 2 (unsigned 16 (b.getD j 0))

/-- The 65,532 bytes of an image before its CRC. -/
def lifeBody (s : State) (i : LifeImg) : List Byte :=
  [0x57#8, 0x4C#8, 0x49#8, 0x46#8] ++ le 4 i.seq ++ le 8 Config.serial.toNat ++ le 8 i.powered ++ le 4 i.boots ++ le 4 i.powerOns ++
  le 4 i.thermal ++ le 2 i.hour ++ le 2 i.month ++ ((span 0 4).flatMap fun n => le 8 (i.active.get (ch4 n))) ++
  ((span 0 16).flatMap fun d => le 8 (i.ceDie.getD d 0)) ++ le 2 i.fuses ++ le 2 256 ++ le 1 s.boot.svn ++ le 1 (s.boot.revoked % 16) ++
  le 10 0 ++ ((span 0 16).flatMap fun a => le 2 (adcWord (smGet (fun _ => []) i.perm.slices a))) ++
  le 18 (i.perm.cores.foldl (fun v c => withBit v c true) 0) ++ le 6 0 ++ ((span 0 256).flatMap (retireBytes i.perm)) ++
  ((span 0 256).flatMap fun k => match smLookup i.hourly k with | some b => biasBytes b | none => blanks (4368 + 48 * k) 48) ++
  ((span 0 256).flatMap fun k => match smLookup i.monthly k with
    | some (lo, hi) => biasBytes lo ++ biasBytes hi
    | none => blanks (16656 + 96 * k) 96) ++
  List.replicate 24300 0#8

/-- The life image. -/
def lifeBytes (s : State) (i : LifeImg) : List Byte :=
  let b := lifeBody s i
  b ++ le 4 (crc32c b).toNat

/-- `LIFE_READ` (R448). -/
def cmdLifeRead : Cmd where
  code := 0x0903
  access := accAll
  params := fun ps _ => firstBad [(miss ps 0 4 || decide (65535 < fld ps 0 4), 0),
    (miss ps 4 2 || outside 1 4076 (fld ps 4 2) || decide (65536 < fld ps 0 4 + fld ps 4 2), 4)]
  body := fun q s => .ok (s, .done (slice (lifeBytes s (lifeNow s)) (fld q.params 0 4) (fld q.params 4 2)))

/-- `LIFE_READ`. -/
def execLifeRead (q : Request) (s : State) : Host.Outcome State Fault Refusal := serve cmdLifeRead q s

/-! ### The life store (R447) -/

/-- A write of the whole image into the next sector begins. -/
def lifeWrite (s : State) : State :=
  { s with store := { s.store with writing := some { lifeNow s with seq := s.store.cur.seq + 1 }, due := false } }

/-- `LIFE_STORE_WRITE` (R447): the 15-minute write, or the one an event calls for. A write in progress is followed by another when
the event comes during it. Firmware makes it: none in the dark house, and none in download wait (R74). -/
def execLifeStoreWrite (s : State) : Host.Outcome State Fault Refusal :=
  if !s.firmware then ok s
  else if s.store.writing.isSome then ok (lifeDue s)
  else ok (lifeWrite s)

/-- `LIFE_STORE_WRITE_COMPLETE` (R447): the sector is sealed; an event that came meanwhile is carried by a write that begins now. -/
def execLifeStoreWriteComplete (s : State) : Host.Outcome State Fault Refusal :=
  match s.store.writing with
  | none => ok s
  | some i =>
    let s := { s with store := { s.store with cur := { s.store.cur with seq := i.seq }, flash := i, writing := none } }
    ok (if s.store.due then lifeWrite s else s)

end Sys2Proof.Machine
end

