-- ==== Sys2Proof/Machine/Units.lean ====
section
/-! DEFINITION. Units as they start, stop and go dark (spec 17, with what each chapter says of it): channels, quads, the monitor,
merge, cipher and HBM domains; the start queue's bookkeeping. -/

namespace Sys2Proof.Machine

open Sys2Proof

/-- Replace the power-state machinery. -/
def State.setPwr (s : State) (p : PwrSt) : State := { s with pwr := p }

/-- Marks of a channel and a domain (quad q is domain 24 + q) among the targets of `PWR_STATE_SET`. -/
def tChan (n : Nat) : Nat := 0x9000 + n
def tDom (d : Nat) : Nat := 0xA000 + d

/-- The five domains of a channel (R402): the engine first. -/
def chPds (n : Nat) : List Nat := [16 + n, 4 + n, 8 + n, 12 + n, 20 + n]

/-- Source block of a domain. -/
def bDom (d : Nat) : Nat :=
  if d = 3 then bMON else if d = 28 then bMRG else if d = 29 then bCPH else if 24 ≤ d && decide (d < 28) then bHQ (d - 24)
  else if d = 30 then bHBM 0 else if d = 31 then bHBM 1 else bSYS

/-- Set the state of a domain. -/
def setPD (d v : Nat) (s : State) : State := s.setF (fPD d) v

/-- Registers of a channel region, of its leaf table, and of a quad. -/
def inCh (n off : Nat) : Bool := chBase n ≤ off && decide (off < chBase n + 0x40000)
def inLeaf (n off : Nat) : Bool := rLEAF_W0 n 0 ≤ off && decide (off < chBase n + 0x30000)
def inQuad (q off : Nat) : Bool := regDomain off == some (24 + q)

/-- Timing, monitor, fabric and merge follow a change of a channel's state. -/
def chFollow (n : Nat) (s : State) : State := timChange (monSources (memberChanged n (fabRefresh s)))

/-! ### Channels (R402, R403) -/

/-- A channel's loopback clears (R455). -/
def loopClear (n : Nat) (s : State) : State :=
  let d := s.fld (fTST_LOOP_DEPTH n)
  if d = 0 then s else offer 0x0E03 (bCH n) (d + 256 * n) 0 (s.unreg (rTST_LOOP n))

/-- A capture that has not completed ends truncated as its channel leaves ACTIVE (R459). -/
def capTruncate (n : Nat) (s : State) : State :=
  match s.test.cap with
  | some a => if a.cap.ch = n then { s with test := { s.test with cap := some { a with triggered := true, cap := { a.cap with trunc := true } } } } else s
  | none => s

/-- Time in ACTIVE goes into the life records (R446). -/
def accrue (n : Nat) (s : State) : State :=
  let c := s.store.cur
  { s with
    store := { s.store with cur := { c with active := c.active.set (ch4 n) (activeTime s n) } }
    pwr := { s.pwr with since := s.pwr.since.set (ch4 n) none } }

/-- A channel stops being ACTIVE: output muted, receiver off, framer stopped (R403). Its state reads changing. -/
def chStop (n : Nat) (s : State) : State :=
  let s := capTruncate n (loopClear n (accrue n s))
  let s := each (chPds n) (fun d s => setPD d 3 s) (s.setF (fCH n) 3)
  let o := s.ohOf n
  let s := setOh n { o with tx := { o.tx with running := false }, sec := { o.sec with part := true } } s
  let s := setHub n { s.hubOf n with rx := [], segs := [], tags := [] } s
  let s := setLine n { s.lineOf n with reacq := false, failing := none } s
  let s := rxTo n 0 ((s.setB (fENG_STATUS_BIAS_LOCK n) false).setB (fLINE_RX_STATUS_HOLDING n) false)
  chFollow n (muteFollow n s)

/-- The registers of an ADC that its lasting faults determine (R67, R130). -/
def convRestore (n : Nat) (s : State) : State :=
  each (span 0 4) (fun c s =>
    let l := smGet (fun _ => []) s.perm.slices (4 * n + c)
    let (u, i, d, f) := convOutcome l
    let s := ((s.setF (fCONV_STATUS_UNDERSTUDY_POS n c) u).setB (fCONV_STATUS_PERMANENT n c) (decide (u < 64))).setF (fCONV_STATUS_INTERP_POS n c) i
    let s := ((s.setB (fCONV_STATUS_INTERP_ACTIVE n c) d).setB (fCONV_STATUS_DEGRADED n c) d).setB (fCONV_STATUS_FAILED n c) f
    let s := if u < 64 then s.setF (fPLACE n c) u else s
    setAdc n c { AdcSt.init with lasting := l, trans := (s.adc n c).trans } s) s

/-- The frame path of a channel that starts from DARK: everything at its start but the trace, the compatibility counts and the
latches. -/
def ohFresh (o : OhSt) : OhSt :=
  { OhSt.init with
    tx := { TxFramer.init with sapi := o.tx.sapi, dest := o.tx.dest, oper := o.tx.oper, expSapi := o.tx.expSapi, pend := o.tx.pend }
    pm := o.pm
    latches := o.latches }

/-- The engine of a channel that goes DARK: only the transient faults of the last 24 h count on (R129). DESIGN CHOICE, assumption 119:
the darkness that `DV_TX_ENABLE` has set ends with it; R118 does not say. -/
def engFresh (e : EngSt) : EngSt :=
  let a := fun (x : AdcSt) => { AdcSt.init with trans := x.trans }
  { EngSt.init with adc := ⟨a e.adc.c0, a e.adc.c1, a e.adc.c2, a e.adc.c3⟩ }

/-- What a channel holds is gone as its domains go DARK (R401): status, leaf table, buffers; open sessions on its blocks end
(R97). -/
def chContentsLost (n : Nat) (s : State) : State :=
  let s := each (s.halves.filter fun h => h.1 == n && !h.2.early) (fun h s => halfDone h.2.block 0 s) s
  let s := setEng n (engFresh (s.engOf n)) (setLine n LineSt.init (setFec n FecSt.init (setOh n (ohFresh (s.ohOf n)) s)))
  let s := setHub n HubSt.init (setLeaf n LeafSt.init (cphChannelLost n s))
  let s := { s with hgc := s.hgc.set (ch4 n) HgcPort.init, pat := s.pat.set (ch4 n) PatSt.init }
  let s := s.setMem { s.mem with flips := s.mem.flips.filter fun f => f.1 != stLEAF n }
  let s := statusReset (inCh n) (dropRegs (inLeaf n) s)
  each [n, 4 + n, 8 + n, 12 + n] endBlock s

/-- Record 0x0C10 (R415): channel, new state, old state. -/
def chRecord (n new : Nat) (s : State) : State := offer 0x0C10 bPWR (n + 4 * new) (s.pwr.was.get (ch4 n)) s

/-- A channel has reached a state: no change of its own is left. -/
def chReached (n : Nat) (s : State) : State :=
  s.setPwr { s.pwr with target := s.pwr.target.set (ch4 n) none, exits := s.pwr.exits.filter fun x => x != n }

/-- A channel is DARK. -/
def chDarkened (n : Nat) (s : State) : State :=
  let s := each (chPds n) (fun d s => setPD d 0 s) (s.setF (fCH n) 0)
  chFollow n (chRecord n 0 (chReached n (chContentsLost n s)))

/-- A channel is in INTERMISSION. -/
def chResting (n : Nat) (s : State) : State :=
  let s := each [4 + n, 8 + n, 12 + n, 20 + n] (fun d s => setPD d 1 s) (setPD (16 + n) 2 (s.setF (fCH n) 1))
  chFollow n (chRecord n 1 (chReached n (muteFollow n s)))

/-- The framer of a channel starts (R225); member B of a pair sends the merge's frames (R14). -/
def framerStart (n : Nat) (s : State) : State :=
  let o := s.ohOf n
  setOh n { o with tx := { o.tx with running := !s.memberB n, fn := s.firstFn, maps := [], block := [] }, sec := SecAcc.init } s

/-- A receiver starts. A hub shows `HUB_LOS` and has none of the defects of a point-to-point channel (R184, R232); the first upstream frame it
releases is that of the downstream frame it transmits next (R186). Any other waits for its acquisition. -/
def rxStart (n : Nat) (s : State) : State :=
  if s.fld (fHUB_CTRL_ROLE n) = 1 then
    setHub n { s.hubOf n with start := s.life, nextRel := some (s.ohOf n).tx.fn } (hubState n (s.setF (fOH_RX_STATUS_DEFECTS n) 0))
  else rxTo n 1 s

/-- A channel is ACTIVE. The rotation begins with dwell 0: DESIGN CHOICE, assumption 120. -/
def chActive (n : Nat) (s : State) : State :=
  let s := each (chPds n) (fun d s => setPD d 2 s) (s.setF (fCH n) 2)
  let s := s.setPwr { s.pwr with since := s.pwr.since.set (ch4 n) (some s.life) }
  let s := rxStart n (beginDwell n 0 (framerStart n s))
  chFollow n (muteFollow n (chRecord n 2 (chReached n s)))

/-- A channel leaves INTERMISSION (R122, R156): frame numbers run on, the dwell in progress begins afresh, and the receiver uses the
frequency and dispersion it held. -/
def chExit (n : Nat) (s : State) : State :=
  let s := each (chPds n) (fun d s => setPD d 2 s) (s.setF (fCH n) 2)
  let s := s.setPwr { s.pwr with since := s.pwr.since.set (ch4 n) (some s.life) }
  let o := s.ohOf n
  let s := setOh n { o with tx := { o.tx with running := !s.memberB n }, sec := SecAcc.init } s
  let e := s.engOf n
  let s := setEng n { e with dwell := (e.dwell + 64) % 65 } s
  let s := setLine n { s.lineOf n with held := true } s
  let s := rxStart n s
  chFollow n (muteFollow n (chRecord n 2 (chReached n s)))

/-- A channel's engine and converters come up (R121): the foreground calibration gives every slice and DAC its corrections, and retired
slices are left out. -/
def chStart (n : Nat) (s : State) : State :=
  let s : State := { setEng n { s.engOf n with cal := some s.free, corr := [] } s with free := s.free + 1 }
  convRestore n (each (chPds n) (fun d s => setPD d 3 s) (s.setF (fCH n) 3))

/-- A start is placed in the queue: the unit reads changing. -/
def enqueue (i : StartItem) (s : State) : State := s.setPwr { s.pwr with queue := s.pwr.queue ++ [i] }

/-- A domain is to start (3, 28, 29, or 30 for both stacks), unless it is on or on its way. -/
def queueDomain (d : Nat) (s : State) : State :=
  if s.fld (fPD d) != 0 || s.pwr.queue.contains (.domain d) then s
  else enqueue (.domain d) (if d = 30 then setPD 31 3 (setPD 30 3 s) else setPD d 3 s)

/-- Take a unit out of the start queue. -/
def unqueue (i : StartItem) (s : State) : State :=
  s.setPwr { s.pwr with queue := s.pwr.queue.filter fun x => !decide (x = i), starting := s.pwr.starting.filter fun x => !decide (x = i) }

/-- A channel is forced DARK (R36, R47, R59, R414): an operation that wanted another state ends for it with HW_FAULT. -/
def chForce (n : Nat) (s : State) : State :=
  if s.fld (fCH n) = 0 || (s.pwr.target.get (ch4 n)) == some 0 then s
  else
    let was := if s.fld (fCH n) = 3 then s.pwr.was.get (ch4 n) else s.fld (fCH n)
    let s := if s.active n then chStop n s else (each (chPds n) (fun d s => setPD d 3 s) (s.setF (fCH n) 3))
    let s := unqueue (.channel (ch4 n)) s
    let s := s.setPwr { s.pwr with was := s.pwr.was.set (ch4 n) was, target := s.pwr.target.set (ch4 n) (some 0), exits := s.pwr.exits.filter fun x => x != n }
    targetDone 0x0600 (tChan n) (some (bCH n)) [] (muteFollow n s)

/-! ### Quads (R326, R404) -/

/-- Record 0x0C11 (R415). -/
def domRecord (d : Nat) (started : Bool) (s : State) : State := offer 0x0C11 bPWR (d + 256 * b2n started) 0 s

/-- The lanes of a quad. -/
def quadLanes (q : Nat) : List Nat := span (16 * q) 16

/-- A lane's working state is gone; that it has FAILED stays until a cold start (R329). -/
def laneFresh (l : Nat) (s : State) : State := s.setLane l { LaneSt.init with failed := (s.lane l).failed }

/-- A quad starts (R326): its lanes transmit training frames; those of ROLE 0 stay in L2, those that have FAILED stay quiet (R329). -/
def quadStart (q : Nat) (s : State) : State :=
  let s := setPD (24 + q) 2 s
  let s := each (quadLanes q) (fun l s => laneTo l (if s.fld (fHL_CFG_ROLE l) = 0 then 6 else if (s.lane l).failed then 7 else 1) (laneFresh l s)) s
  monSources (domRecord (24 + q) true s)

/-- The lanes of a quad stop: its ports have no lock. -/
def quadStop (q : Nat) (s : State) : State :=
  each (quadLanes q) (fun l s => if s.headLane l then portLocks l false false false s else s) (each (quadLanes q) laneLoopClear s)

/-- A quad is DARK. -/
def quadDark (q : Nat) (s : State) : State :=
  let s := each (quadLanes q) laneFresh (setPD (24 + q) 0 s)
  monSources (domRecord (24 + q) false (statusReset (inQuad q) s))

/-! ### Monitor, merge, cipher (R400, R401) -/

/-- A domain among 3, 28, 29 has its supply. The merge takes up the pairs that wait for it (R256). -/
def domOn (d : Nat) (s : State) : State :=
  let s := domRecord d true (setPD d 2 s)
  if d = 3 then monStart s
  else if d = 29 then startCores s
  else monSources (each ((span 0 2).filter fun p => s.flag (fMRG_CFG_VALID p)) mergeStart s)

/-- The words of the key contexts (R321). -/
def ctxReg (off : Nat) : Bool := 0x220000 ≤ off && decide (off < 0x240000)

/-- The cluster is gone with `PD29`; contexts are another matter (R292, R407). -/
def cphGate (s : State) : State :=
  let s := statusReset (fun off => regDomain off == some 29 && !ctxReg off) s
  s.setCph { s.cph with
    tests := [], accs := CphSt.init.accs, txDrop := [], rxDrop := [], fails := [], authFail := [], authLeft := [], txBlocked := [], nextSeen := [] }

/-- Contexts, KEK and cluster are gone with `PD29` (R292, R297, R401), whatever came after the zeroisation at the command. DESIGN CHOICE,
assumption 130: a KEK that was established since then has `PD29` start again. -/
def cphLost (s : State) : State :=
  let again := s.cph.kek.isSome
  let s := cphGate (dropRegs ctxReg (zeroiseAll s))
  if again then queueDomain 29 s else s

/-- A domain among 3, 28, 29 is DARK. Open sessions on the pair blocks end with `PD28` (R97). -/
def domDark (d : Nat) (s : State) : State :=
  let s := setPD d 0 s
  let s :=
    if d = 3 then statusReset (fun off => regDomain off == some 3) (s.setMon s.mon.fresh)
    else if d = 28 then
      let s := endBlock 0x11 (endBlock 0x10 { s with mrg := Two.all MrgSt.init })
      statusReset (fun off => regDomain off == some 28) (s.setMem { s.mem with flips := s.mem.flips.filter fun f => f.1 < 5 || decide (8 < f.1) })
    else cphLost (s.setMem { s.mem with flips := s.mem.flips.filter fun f => f.1 != stKEYS })
  monSources (domRecord d false s)

/-! ### HBM (R377) -/

/-- Both stacks stop: every word in them is lost. -/
def hbmLost (s : State) : State :=
  let s := (((s.setB fMEM_STATUS_HBM_READY false).setB fMRG_GLOBAL_HBM_READY false).setF fMEM_FAR_SLOTS_SLOTS 0).setB fMEM_STATUS_HOT false
  let s := if s.mem.ppr.isSome then targetDone 0x0A02 tPpr (some (bHBM 0)) [] s else s
  let s := s.setMem { s.mem with hbm := [], ppr := none, patrol := 0 }
  let s := ({ s with cb := { s.cb with archive := [], toArchive := [] } } : State).setB fCB_STATUS_ARCHIVE false
  let s := { s with test := { s.test with caps := s.test.caps.filter fun e => (e.2.map fun c => c.place.isNone).getD false } }
  let s := each (span 0 4) (fun n s =>
    let o := s.ohOf n
    setOh n { o with latches := o.latches.drop (o.latches.length - 1) } s) s
  each (span 0 2) (fun p s => storeLost p true s) s

/-- Both stacks are DARK. -/
def hbmDark (s : State) : State :=
  let s := setPD 31 0 (setPD 30 0 (hbmLost s))
  monSources (domRecord 31 false (domRecord 30 false s))

/-- Both stacks are trained and initialised (R377). -/
def hbmReady (s : State) : State :=
  let s := setPD 31 2 (setPD 30 2 s)
  let s := s.setMem { s.mem with hbm := [], patrol := 0 }
  let s := (s.setB fMEM_STATUS_HBM_READY true).setB fMRG_GLOBAL_HBM_READY true
  let s := memRefresh (domRecord 31 true (domRecord 30 true s))
  let pages := ((span 0 5).map s.pagesIn).foldl (· + ·) 0
  let s := offer 0x0A20 (bHBM 0) pages (s.fld fMEM_FAR_SLOTS_SLOTS % 65536) s
  monSources (each (span 0 2) (fun p s => storeLost p false s) s)

/-! ### The start queue (R79) -/

/-- Nanoseconds since a time. -/
def State.sinceNs (s : State) (t : Option (BitVec 64)) (ns : Nat) : Bool :=
  match t with
  | some t => decide (t.toNat + ns ≤ s.life.toNat)
  | none => true

/-- The spacing of a start is met (R79): 2 ms from any other, 10 ms between quads, 40 ms between channels. -/
def State.spaced (s : State) (i : StartItem) : Bool :=
  s.sinceNs s.pwr.lastAny 2000000 &&
    (match i with
     | .quad _ => s.sinceNs s.pwr.lastQuad 10000000
     | .channel _ => s.sinceNs s.pwr.lastChan 40000000
     | .domain _ => true)

/-- A unit leaves the queue and starts. -/
def dispatch (i : StartItem) (s : State) : State :=
  let p := s.pwr
  let s := s.setPwr { p with queue := p.queue.filter (fun x => !decide (x = i)), starting := p.starting ++ [i], lastAny := some s.life }
  match i with
  | .quad q => quadStart q (s.setPwr { s.pwr with lastQuad := some s.life })
  | .channel n => chStart n (s.setPwr { s.pwr with lastChan := some s.life })
  | .domain _ => s

/-- `START_QUEUE_DISPATCH` (R79): the first waiting start whose spacing is met. -/
def execStartQueueDispatch (s : State) : Host.Outcome State Fault Refusal :=
  match s.pwr.queue.find? s.spaced with
  | none => ok s
  | some i => ok (dispatch i s)

/-- A unit has started. -/
def State.isStarting (s : State) (i : StartItem) : Bool := s.pwr.starting.contains i

/-- `QUAD_REACHES_L0` (R80): every lane of the started quad that has a role is in L0. -/
def execQuadReachesL0 (c : Ch) (s : State) : Host.Outcome State Fault Refusal :=
  if !s.isStarting (.quad c) || !((quadLanes c).all fun l => s.laneSt l == 4 || s.fld (fHL_CFG_ROLE l) == 0) then ok s
  else ok (targetDone 0x0600 (tDom (24 + c)) none [] (unqueue (.quad c) s))

/-- `CHANNEL_ACTIVE` (R121, R80): a channel started from DARK. -/
def execChannelActive (n : Ch) (s : State) : Host.Outcome State Fault Refusal :=
  if !s.isStarting (.channel n) then ok s
  else ok (targetDone 0x0600 (tChan n) none [] (chActive n (unqueue (.channel n) s)))

end Sys2Proof.Machine
end

