-- ==== Sys2Proof/Machine/Boot.lean ====
section
/-! DEFINITION. Resets and boot (spec 04): what each kind of reset clears, the boot stages, images, READY, and the endpoint reset. -/

namespace Sys2Proof.Machine

open Sys2Proof

/-- Replace the always-on domain's own state. -/
def State.setBoot (s : State) (b : BootSt) : State := { s with boot := b }

/-! ### Cold starts (R63) -/

/-- Registers held in `PD00` (R62, R77, R413): boot registers, wake control, accounting, seals, shutdown cause. -/
def coldKeeps (off : Nat) : Bool :=
  off == 0x40 || off == 0x44 || off == 0x4C || (0x40020 ≤ off && decide (off < 0x40080) && off != 0x40044) || off == 0x40114

/-- The life records as the flash has them (R447), on the powered time of the last power-on; fuses stay blown. -/
def lifeReload (st : LifeStore) : LifeStore :=
  { cur := { st.flash with powered := st.cur.powered, fuses := st.cur.fuses }, flash := st.flash, writing := none, due := false }

/-- Everything but `PD00` at its reset value (R63): what waits, the life timestamp, the callboard number (R440), the time-of-day epoch
(R357), the straps and boot records, fuses and repairs stay. -/
def coldBase (s : State) : State :=
  let t : State := { State.reset with
    pending := s.pending
    regs := s.regs.filter fun e => coldKeeps e.1
    life := s.life
    free := s.free
    out := s.out
    cb := { State.reset.cb with seq := s.cb.seq }
    boot := { s.boot with perstLow := false, watchdog := false, waking := false, warm := none, slots := [], avsBad := 0,
                          warnHot := false, critHot := false, clock := false, dl := [] }
    store := lifeReload s.store
    perm := s.store.flash.perm
    mem := { MemSt.init with repairs := s.mem.repairs }
    test := { TestSt.init with repairs := s.test.repairs } }
  let t := (t.setF fSYS_BOOT_STATUS_STAGE 0).setB fSYS_BOOT_STATUS_HBM_FAIL false
  (t.setB fPWR_CH_STATE_RECEPTACLE (s.flag fPWR_CH_STATE_RECEPTACLE)).setF fTIM_STATUS_EPOCH (s.fld fTIM_STATUS_EPOCH)

/-- Soft repairs lapse (R63, R376, R457). -/
def dropSoft (s : State) : State :=
  { s with
    mem := { s.mem with repairs := s.mem.repairs.filter fun r => r.2.2.2 }
    test := { s.test with repairs := s.test.repairs.filter fun r => r.fuse } }

/-- A cold start (R63): 2 pin, 3 brown-out, 4 warm, 5 watchdog. The last two keep the PCIe link, the soft repairs and
the house clock, and what was loaded of the fuses. -/
def coldStart (kind : Nat) (s : State) : State :=
  let t := coldBase s
  let t := (t.setF fSYS_RESET_CAUSE_KIND kind).bumpF fSYS_RESET_CAUSE_SINCE_POWER_ON
  if 4 ≤ kind then
    let t := (t.setBoot { t.boot with clock := s.boot.clock }).setF fTST_STATUS_FUSES_LEFT (256 - t.store.cur.fuses)
    { t with msix := ⟨{ Msix.init with enabled := s.msix.p0.enabled, fnMask := s.msix.p0.fnMask }, { Msix.init with enabled := s.msix.p1.enabled, fnMask := s.msix.p1.fnMask }⟩ }
  else dropSoft (t.setBoot { t.boot with linkUp := false, named := none })

/-- The part as `VDD_AON` has risen (R63): records of `PD00` are cleared and the life timestamp starts at 0 (R359); fuses, hard repairs
and the flash are permanent. -/
def powerOn (asel : Fin 4) (s : State) : State :=
  let cur := { s.store.flash with fuses := s.store.cur.fuses }
  let t : State := { State.reset with
    pending := s.pending
    free := s.free
    out := s.out
    boot := { BootSt.init with asel := asel, svn := s.boot.svn, revoked := s.boot.revoked, railsLow := s.boot.railsLow.filter fun r => r != 11 }
    store := ⟨cur, s.store.flash, none, false⟩
    perm := cur.perm
    mem := { MemSt.init with repairs := s.mem.repairs }
    test := { TestSt.init with repairs := s.test.repairs } }
  dropSoft (t.setB fPWR_CH_STATE_RECEPTACLE (s.flag fPWR_CH_STATE_RECEPTACLE))

/-- `POWER_ON_RESET` (R63, R29): `RESET_N` is low while the rails rise (R44). -/
def execPowerOnReset (asel : Fin 4) (s : State) : Host.Outcome State Fault Refusal := ok (powerOn asel s)

/-- `VDD_CORE` or `VDD_SRAM` is out of range: the reset of R47 holds. -/
def State.coreLow (s : State) : Bool := s.boot.railsLow.contains 0 || s.boot.railsLow.contains 1

/-- A rail other than `VDD_IO18` is out of range, so that a power-down in the dark house lasts (R46). -/
def State.railsOut (s : State) : Bool := s.boot.railsLow.any fun r => r != 10

/-- `RESET_N_LOW` (R64): low for at least 10 us, as the part takes the pin. `THERMTRIP_N` is released (R26). A powered-down part starts
nothing yet (R46). DESIGN CHOICE, assumption 110: R30, R46 and R47 give the pad no defined state while `VDD_IO18` is absent; the
command stands for a level that the part has taken, whatever the pad does. -/
def execResetNLow (s : State) : Host.Outcome State Fault Refusal :=
  if s.boot.resetLow then ok s
  else
    let t := if s.boot.powerDown then s else coldStart 2 s
    ok (t.setBoot { t.boot with resetLow := true, thermtrip := false, gated := false })

/-- `PD01` and `PD02` are powered in one step, and boot begins at the clock stage (R68). -/
def clockStage (s : State) : State := setPD 2 2 (setPD 1 2 (s.setF fSYS_BOOT_STATUS_STAGE 1))

/-- `RESET_N_RELEASE` (R68): straps are sampled (R28, R29). A powered-down part starts only with its rails in range (R46), a part in
brown-out only after its hold (R47). With `VDD_IO18` absent as for `RESET_N_LOW`: assumption 110. -/
def execResetNRelease (straps : Straps) (s : State) : Host.Outcome State Fault Refusal :=
  if !s.boot.resetLow || s.boot.railsLow.contains 11 then ok s
  else
    let down := s.boot.powerDown && s.railsOut
    let t := if s.boot.powerDown && !down then coldStart 2 s else s
    let t := t.setBoot { t.boot with resetLow := false, oscSel := straps.osc, bootSel := straps.bootSel, asel := straps.asel,
                                     testEn := straps.testEn, powerDown := down }
    if down then ok t
    else if t.boot.brown || t.coreLow then ok (t.setBoot { t.boot with brown := true })
    else ok (clockStage t)

/-! ### The endpoint reset (R65) -/

/-- Interrupt registers and MSI-X tables of both functions (R472). -/
def intReg (off : Nat) : Bool :=
  let o := off % 0x400000
  (0x100 ≤ o && decide (o < 0x200)) || (0x2000 ≤ o && decide (o < 0x4000))

/-- The interrupt side of both functions returns to its reset values (R472). -/
def intReset (s : State) : State := { dropRegs intReg s with msix := Two.all Msix.init }

/-- An open mailbox with full credit. -/
def Mailbox.fresh : Mailbox := { Mailbox.closed with isOpen := true }

/-- A mailbox opens with full credit; a packet whose first words had none is discarded to its end (R78, R103). -/
def Mailbox.opened (m : Mailbox) : Mailbox := { Mailbox.fresh with dropping := m.dropping }

/-- An answer belongs to a PCIe function. -/
def toPcie (o : Origin) : Bool := o.who.master == 1 || o.who.master == 2

/-- Answers to the PCIe functions that an endpoint reset discards at once: those that wait for space, and the later packets of one
under way (R65). -/
def State.pciePending (s : State) : Nat :=
  (s.mbx.get 0).wait.length + (s.mbx.get 1).wait.length + (s.later.filter fun l => toPcie l.org).length

/-- `PERST_N_LOW` (R64, R65): after READY the queues empty and the mailboxes close; before it only the link is down. Ignored in the
dark house (R26). -/
def execPerstNLow (s : State) : Host.Outcome State Fault Refusal :=
  let s := s.setBoot { s.boot with linkUp := false }
  if !s.ready || s.boot.perstLow then ok s
  else ok { countN cNOTICE_LOST s.pciePending (intReset (s.setBoot { s.boot with perstLow := true })) with
    mbx := Two.all Mailbox.closed, epDiscards := s.pciePending
    later := s.later.filter fun l => !toPcie l.org
    arrived := s.arrived.map fun a => if a.who.master = 1 ∨ a.who.master = 2 then { a with size := 0 } else a }

/-- Every vector of both functions is armed (R472). -/
def armAll (s : State) : State :=
  { s with msix := ⟨{ s.msix.p0 with armed := BitVec.allOnes 32, pend := 0#32 }, { s.msix.p1 with armed := BitVec.allOnes 32, pend := 0#32 }⟩ }

/-- `LINK_UP_AFTER_ENDPOINT_RESET` (R65). -/
def execLinkUpAfterEndpointReset (s : State) : Host.Outcome State Fault Refusal :=
  if !s.ready || !s.boot.perstLow then ok s
  else
    let s := armAll (s.setBoot { s.boot with perstLow := false, linkUp := true })
    let s : State := { s with mbx := Two.all Mailbox.fresh }
    let s := (s.setB (fMBX_RSP_STATUS_NOTICE_LOST 0) true).setB (fMBX_RSP_STATUS_NOTICE_LOST 1) true
    ok { offer 0x0106 bSYS (sat (2 ^ 32 - 1) s.epDiscards) 0 s with epDiscards := 0 }

/-- `PCIE_LINK_UP` (R68): at boot, and after a `PERST_N` pulse before READY (R64). -/
def execPcieLinkUp (s : State) : Host.Outcome State Fault Refusal :=
  if s.stage = 0 || s.boot.perstLow then ok s else ok (s.setBoot { s.boot with linkUp := true })

/-! ### Stages (R68 to R74) -/

/-- The last n of a list. -/
def lastN {α : Type} (n : Nat) (l : List α) : List α := l.drop (l.length - n)

/-- An error of the boot ROM goes into the status and the 16-entry log (R70). -/
def bootError (e : Nat) (s : State) : State :=
  (s.setBoot { s.boot with log := lastN 16 (s.boot.log ++ [(e, s.stage, s.life)]) }).setF fSYS_BOOT_STATUS_ERR e

/-- A failed attempt of a slot (R73). -/
def failSlot (b : Bool) (s : State) : State :=
  s.setBoot (if b then { s.boot with failB := s.boot.failB + 1 } else { s.boot with failA := s.boot.failA + 1 })

/-- The slots the ROM tries, in order (R73, R76). -/
def State.slotOrder (s : State) : List Bool :=
  let b := s.boot
  let first := b.lastGood.getD false
  let usable := [first, !first].filter fun x => decide ((if x then b.failB else b.failA) < 2)
  match b.named with
  | some n => n :: usable.filter fun x => x != n
  | none => usable

/-- The next slot is read, or download wait entered (R73, R74). -/
def nextSlot (l : List Bool) (s : State) : State :=
  (s.setBoot { s.boot with slots := l, named := none }).setF fSYS_BOOT_STATUS_STAGE (if l.isEmpty then 8 else 3)

/-- The image stage begins (R73, R74). DESIGN CHOICE, assumption 111: with `BOOT_SEL` = 1 a slot named by `SYS_RESET` is not tried, for
R74 sends such a part to download wait and R76 says nothing of that case. -/
def imageStage (s : State) : State := nextSlot (if s.boot.bootSel then [] else s.slotOrder) s

/-- `HOUSE_CLOCK_LOCKED` (R68). -/
def execHouseClockLocked (locked : Bool) (s : State) : Host.Outcome State Fault Refusal :=
  if s.stage ≠ 1 || s.boot.clock then ok s
  else if locked then ok (s.setBoot { s.boot with clock := true })
  else ok ((bootError 1 s).setF fSYS_BOOT_STATUS_STAGE 15)

/-- Set the boot stage. -/
def State.setStage (s : State) (k : Nat) : State := s.setF fSYS_BOOT_STATUS_STAGE k

/-- `FUSES_LOADED` (R68): fused repairs are in force and the security version is known (STAGE 2, which an error keeps in its log); the
image stage follows, in which the first image is read (STAGE 3) or a download awaited. -/
def execFusesLoaded (good : Bool) (s : State) : Host.Outcome State Fault Refusal :=
  if s.stage ≠ 1 || !s.boot.clock then ok s
  else if !good then ok ((bootError 2 (s.setStage 2)).setStage 15)
  else ok (imageStage (((s.setStage 2).setF fSYS_BOOT_STATUS_FUSED_SVN s.boot.svn).setF fTST_STATUS_FUSES_LEFT (256 - s.store.cur.fuses)))

/-- The root key digest of the fuses equals the SHA-384 digest of a header's public key (R72, check 3). -/
def keyOk (h : List Byte) : Bool := (span 0 48).all fun i => Config.rootKey (fld h 7 1) i == Config.sha384 (slice h 64 97) i

/-- The signature over header bytes 0 to 167 verifies (R71, R72, check 4). -/
def sigOk (h : List Byte) : Bool := Config.ecdsaOk (slice h 64 97) (slice h 168 96) (slice h 0 168)

/-- The body's digest is the header's (R71, R72, check 5). -/
def bodyOk (h body : List Byte) : Bool := (span 0 48).all fun i => slice h (16 + i) 1 == [Config.sha384 (body.take (fld h 8 4)) i]

/-- The checks of R72 in their order: the error code of the first that fails. -/
def imageError (svn revoked : Nat) (img : Image) : Option Nat :=
  let h := img.header
  let reserved := slice h 161 7 ++ slice h 264 248
  if !img.responds then some 3
  else if h.length ≠ 512 || h.take 4 != [0x57#8, 0x54#8, 0x41#8, 0x46#8] || fld h 4 2 != 1 then some 4
  else if reserved.any (fun b => b != 0#8) || decide (2 ^ 24 - 512 < fld h 8 4) then some 4
  else if decide (3 < fld h 7 1) || bit revoked (fld h 7 1) || !keyOk h then some 5
  else if !sigOk h || !bodyOk h img.body then some 5
  else if fld h 6 1 < svn then some 6
  else none

/-- The stage an image has come to when an error meets it (R77): being read, where the flash does not respond, or verified. -/
def imageStageOf (e : Nat) : Nat := if e = 3 then 3 else 4

/-- Firmware starts (R68): the watchdog is armed; the boot log becomes the first records of the freeze area (R70). At a boot the
stacks start at once; after a wake they wait for the banks (R411). -/
def startFirmware (download slot : Bool) (header : List Byte) (s : State) : State :=
  let s := (s.setF fSYS_BOOT_STATUS_STAGE 5).setF fSYS_BOOT_STATUS_IMAGE_SVN (fld header 6 1)
  let s := (s.setB fSYS_BOOT_STATUS_SOURCE download).setF fSYS_ID_FW_FW_VERSION (fld header 12 4)
  let s := if download then s else s.setB fSYS_BOOT_STATUS_SLOT slot
  let logged := s.boot.log
  let s := s.setBoot { s.boot with watchdog := true, slots := [], log := [] }
  let now := s.life
  let s := each logged (fun e s => offer 0x0101 bSYS e.1 e.2.1 { s with life := e.2.2 }) s
  let s : State := { s with life := now, cb := { s.cb with input := s.cb.input.map fun r => if r.code == 0x0101#16 then { r with todValid := false } else r } }
  if s.boot.waking then s else setPD 31 3 (setPD 30 3 s)

/-- `IMAGE_VERIFIED` (R72, R73): of the slot the ROM reads. -/
def execImageVerified (img : Image) (s : State) : Host.Outcome State Fault Refusal :=
  if s.stage ≠ 3 then ok s
  else match s.boot.slots with
    | [] => ok s
    | x :: r =>
      match imageError s.boot.svn s.boot.revoked img with
      | none => ok (startFirmware false x img.header s)
      | some e => ok (nextSlot r (failSlot x (bootError e (s.setStage (imageStageOf e)))))

/-- The image in the download window (R74). -/
def downloaded (s : State) : Image :=
  let at1 := fun a n => (span a n).map fun i => smGet (fun _ => 0#8) s.boot.dl i
  let h := at1 0 512
  ⟨true, h, if fld h 8 4 ≤ 2 ^ 24 - 512 then at1 512 (fld h 8 4) else []⟩

/-- `DOWNLOAD_GO` (R74): a failed check returns to download wait. -/
def execDownloadGo (s : State) : Host.Outcome State Fault Refusal :=
  if s.stage ≠ 8 || !s.boot.linkUp then ok s
  else match imageError s.boot.svn s.boot.revoked (downloaded s) with
    | none => ok (startFirmware true false (downloaded s).header s)
    | some e => ok ((bootError e (s.setStage 4)).setStage 8)

/-- A supply of the stacks is out of range (R47). -/
def State.hbmLow (s : State) : Bool := s.boot.railsLow.contains 8 || s.boot.railsLow.contains 9

/-- The memory stage of a boot or wake has failed (R69). Record 0x0A21 tells of it, once: a rail that stopped the training has made
its own (R47). -/
def hbmBootFail (s : State) : State :=
  let t := if s.fld (fPD 30) = 0 then s else offer 0x0A21 (bHBM 0) 3 0 (setPD 31 0 (setPD 30 0 s))
  ((t.setB fSYS_BOOT_STATUS_HBM_FAIL true).setB fMEM_STATUS_HBM_FAIL true).setF fSYS_BOOT_STATUS_ERR 9

/-- `HBM_START_COMPLETE` (R377, R69): at a boot or a wake, after its banks are read, or of a start commanded later. With a supply out of
range the stacks have no power to train with (R47), so that they fail. -/
def execHbmStartComplete (good : Bool) (s : State) : Host.Outcome State Fault Refusal :=
  if s.stage = 5 && !(s.boot.waking && s.banks.isSome) then
    ok ((if good && !s.hbmLow && s.fld (fPD 30) == 3 then hbmReady s else hbmBootFail s).setStage 6)
  else if s.ready && s.isStarting (.domain 30) then
    let s := unqueue (.domain 30) s
    if good && !s.hbmLow then ok (targetDone 0x0600 (tDom 30) none [] (hbmReady s))
    else ok (targetDone 0x0600 (tDom 30) (some (bHBM 0)) [] (monSources (offer 0x0A21 (bHBM 0) 3 0 (setPD 31 0 (setPD 30 0 s)))))
  else ok s

/-- `READY` (R78): the mailboxes and the I2C port open, vectors are armed (R472), the slot is good (R73), the boot is counted, and a
wake ends with the answer of the entry (R414). -/
def execReady (s : State) : Host.Outcome State Fault Refusal :=
  if s.stage ≠ 6 then ok s
  else
    let b := s.boot
    let kind := s.fld fSYS_RESET_CAUSE_KIND
    let slot := s.flag fSYS_BOOT_STATUS_SLOT
    let b' := if s.flag fSYS_BOOT_STATUS_SOURCE then b
      else if slot then { b with failB := 0, lastGood := some true } else { b with failA := 0, lastGood := some false }
    let c := s.store.cur
    let c := { c with boots := c.boots + 1, powerOns := c.powerOns + b2n (kind == 1 && !b.waking) }
    let s : State := armAll { s with
      boot := { b' with waking := false }
      mbx := ⟨s.mbx.p0.opened, s.mbx.p1.opened⟩
      i2c := s.i2c.opened
      store := { s.store with cur := c } }
    let s := s.setF fSYS_BOOT_STATUS_STAGE 7
    let s := offer 0x0102 bSYS (b2n slot + 256 * s.fld fSYS_BOOT_STATUS_IMAGE_SVN + 65536 * kind) (s.fld fSYS_RESET_CAUSE_SINCE_POWER_ON) s
    let s := s.setB (fINT_STATUS_MBX_CREDIT 0) true
    let s := s.setB (fINT_STATUS_MBX_CREDIT 1) true
    if !b.waking then ok s
    else
      let secs := sat 65535 ((s.life.toNat - s.pwr.commitLife.toNat) / 1000000000)
      let s := offer 0x0C23 bPWR (s.pwr.wake.getD 0) secs s
      ok (wakeNotice (s.setPwr { s.pwr with wake := none }))

/-- `WATCHDOG_EXPIRY` (R66): before READY it is also a failed attempt of the slot. -/
def execWatchdogExpiry (s : State) : Host.Outcome State Fault Refusal :=
  if !s.boot.watchdog then ok s
  else
    let s := if s.ready then s
      else
        let t := bootError 8 s
        if s.flag fSYS_BOOT_STATUS_SOURCE then t else failSlot (s.flag fSYS_BOOT_STATUS_SLOT) t
    ok (imageStage (coldStart 5 s))

/-! ### Commands (R75, R76) -/

/-- `SYS_RESET` (R76): the reply is sent before the reset begins. -/
def cmdSysReset : Cmd where
  code := 0x0102
  access := accOpMnt
  params := fun ps _ => firstBad [(miss ps 0 1 || fld ps 0 1 != 0, 0), (miss ps 1 1 || decide (2 < fld ps 1 1), 1)]
  body := fun q s => .ok (s.setBoot { s.boot with warm := some (fld q.params 1 1) }, .done [])

/-- `SYS_RESET`. -/
def execSysReset (q : Request) (s : State) : Host.Outcome State Fault Refusal := serve cmdSysReset q s

/-- `WARM_RESET` (R76): 1 ms after the reply; the image stage tries the named slot first. -/
def execWarmReset (s : State) : Host.Outcome State Fault Refusal :=
  match s.boot.warm with
  | none => ok s
  | some k =>
    let t := coldStart 4 s
    ok (imageStage (t.setBoot { t.boot with named := if k = 0 then none else some (k == 2) }))

/-- `FW_SVN_COMMIT` (R75, R76): `blown` is how many of the fuses it has to blow read back blown before one does not. There are 64: an
image of a higher version finds a fuse that cannot be blown (assumption 112). -/
def cmdFwSvnCommit (blown : Nat) : Cmd where
  code := 0x0103
  access := accOp
  params := fun _ _ => none
  body := fun _ s =>
    if s.flag fSYS_BOOT_STATUS_SOURCE then .error { status := stWRONG_STATE }
    else
      let goal := s.fld fSYS_BOOT_STATUS_IMAGE_SVN
      let v := s.boot.svn + min blown (min 64 goal - s.boot.svn)
      let t := lifeDue ((s.setBoot { s.boot with svn := v }).setF fSYS_BOOT_STATUS_FUSED_SVN v)
      if v < goal then .ok (t, .fail { status := stHW_FAULT }) else .ok (t, .done (le 1 v))

/-- `FW_SVN_COMMIT`. -/
def execFwSvnCommit (q : Request) (blown : Nat) (s : State) : Host.Outcome State Fault Refusal := serve (cmdFwSvnCommit blown) q s

end Sys2Proof.Machine
end

