-- ==== Sys2Proof/Machine/Supply.lean ====
section
/-! DEFINITION. Supplies and temperature (spec 03): rail monitors, brown-out, power-down in the dark house, receptacle, thermal limits,
the adaptive core voltage. Rails are numbered as the monitor inputs 48 to 59 of R416, less 48. -/

namespace Sys2Proof.Machine

open Sys2Proof

/-! ### Rails (R46, R47) -/

/-- Note a rail out of range. -/
def railOut (r : Nat) (s : State) : State :=
  if s.boot.railsLow.contains r then s else s.setBoot { s.boot with railsLow := s.boot.railsLow ++ [r] }

/-- A channel is darkened by a rail monitor (R47). -/
def railChannel (r n : Nat) (s : State) : State :=
  if s.fld (fCH n) = 0 || s.pwr.target.get (ch4 n) == some 0 then s else offer 0x0260 (bCH n) (48 + r) 0 (chForce n s)

/-- A quad is stopped by a rail monitor (R47): an operation that wanted it on ends for it with HW_FAULT, one that darkens it is done. -/
def railQuad (r q : Nat) (s : State) : State :=
  if s.fld (fPD (24 + q)) = 0 then s
  else
    let rising := s.fld (fPD (24 + q)) == 2 || s.pwr.queue.contains (.quad (ch4 q)) || s.isStarting (.quad (ch4 q))
    let s := quadDark q (quadStop q (unqueue (.quad (ch4 q)) s))
    targetDone 0x0600 (tDom (24 + q)) (if rising then some (bHQ q) else none) [] (offer 0x0809 (bHQ q) (48 + r) 0 s)

/-- HBM stops (R47, R381): both domains are darkened together, in training too. -/
def railHbm (s : State) : State :=
  let s : State := { s with mem := { s.mem with repairs := s.mem.repairs.filter fun r => r.2.2.2 } }
  if s.fld (fPD 30) = 0 then s
  else
    let rising := s.fld (fPD 30) == 2 || s.pwr.queue.contains (.domain 30) || s.isStarting (.domain 30)
    let s := offer 0x0A21 (bHBM 0) 2 0 (hbmDark (unqueue (.domain 30) s))
    targetDone 0x0600 (tDom 30) (if rising then some (bHBM 0) else none) [] s

/-- Brown-out (R47): everything but `PD00` is held in reset, and the cause is recorded. A part that is in reset already makes no second
cold start: assumption 113. -/
def brownOut (s : State) : State :=
  let t := (if s.stage = 0 then s else coldStart 3 s).setF fPWR_SHUTDOWN_CAUSE_CAUSE 3
  t.setBoot { t.boot with brown := true }

/-- A rail is removed in the dark house (R46). `VDD_AON` takes the whole part down; `VDD_IO18` only the pads; any other is a power-down,
which ends the entry's request without a notice (R414). -/
def darkRail (r : Nat) (s : State) : State :=
  if r = 11 then railOut 11 (powerOn s.boot.asel s)
  else if r = 10 then railOut 10 s
  else
    let t := railOut r s
    { t with boot := { t.boot with powerDown := true }, ops := [], pwr := { t.pwr with wake := none } }

/-- `RAIL_BELOW_THRESHOLD` (R47). Without `VDD_IO18` the pads have no defined state and the part goes on. DESIGN CHOICE, assumption 110:
`INT_N`, `THERMTRIP_N` and `RESET_N` act inside the part as ever; what their pads show is `State.pin`. -/
def execRailBelowThreshold (r : Fin 12) (s : State) : Host.Outcome State Fault Refusal :=
  if s.pwr.asleep then ok (darkRail r s)
  else
    let t := railOut r s
    ok (if r = 11 then railOut 11 (powerOn s.boot.asel s)
      else if r < 2 then brownOut t
      else if r < 6 then each (span 0 4) (fun n s => railChannel r n s) t
      else if r < 8 then each (span 0 4) (fun q s => railQuad r q s) t
      else if r < 10 then railHbm t
      else t)

/-- `RAIL_REMOVED_IN_DARK_HOUSE` (R46). -/
def execRailRemovedInDarkHouse (r : Fin 12) (s : State) : Host.Outcome State Fault Refusal :=
  if s.pwr.asleep then ok (darkRail r s) else ok s

/-- `RAIL_BACK_IN_RANGE` (R46): nothing restarts on its own. As `VDD_IO18` returns in the dark house an edge on `WAKE_N` or on the I2C
pins may wake the part or may not: a free choice. -/
def execRailBackInRange (r : Fin 12) (s : State) : Host.Outcome State Fault Refusal :=
  if !s.boot.railsLow.contains r.val then ok s
  else
    let t := s.setBoot { s.boot with railsLow := s.boot.railsLow.filter fun x => x != r.val }
    if r = 10 && s.pwr.asleep then
      let (v, t) := t.draw
      ok (if v % 3 = 0 then t else wakeFires (v % 3) t)
    else ok t

/-- `BROWN_OUT_HOLD_END` (R68): the rails have been back in range for 10 ms; boot resumes at the clock stage. -/
def execBrownOutHoldEnd (s : State) : Host.Outcome State Fault Refusal :=
  if !s.boot.brown || s.coreLow then ok s
  else
    let s := s.setBoot { s.boot with brown := false }
    ok (if s.boot.resetLow || s.boot.gated then s else clockStage s)

/-! ### The receptacle (R36) -/

/-- `RECEPTACLE_REMOVED` (R36): every channel goes DARK; what depends on it loses its line. -/
def execReceptacleRemoved (s : State) : Host.Outcome State Fault Refusal :=
  if !s.flag fPWR_CH_STATE_RECEPTACLE then ok s
  else
    let running := (span 0 4).foldl (fun v n => withBit v n (s.fld (fCH n) != 0)) 0
    let s := s.setB fPWR_CH_STATE_RECEPTACLE false
    let s := if s.firmware then offer 0x0105 bSYS running 0 s else s
    ok (each (span 0 4) chForce s)

/-- `RECEPTACLE_FITTED` (R36): no channel restarts. -/
def execReceptacleFitted (s : State) : Host.Outcome State Fault Refusal := ok (s.setB fPWR_CH_STATE_RECEPTACLE true)

/-! ### Temperature (R59 to R61) -/

/-- A thermal shutdown (R61): everything but `PD00` is gated, keys are zeroised, nothing in progress is answered. -/
def thermalShutdown (cause : Nat) (s : State) : State :=
  let t := setPD 2 0 (setPD 1 0 ((coldBase s).setF fPWR_SHUTDOWN_CAUSE_CAUSE cause))
  t.setBoot { t.boot with thermtrip := true, gated := true, linkUp := false, named := none }

/-- The cause of a thermal shutdown, if a sensor is at its threshold (R60). -/
def tripCause (t : Temps) : Option Nat :=
  if 115 * 8 ≤ t.die then some 1 else if 105 * 8 ≤ t.hbmA || 105 * 8 ≤ t.hbmB then some 2 else none

/-- Thermal cycles of the life records (R446), which firmware keeps. -/
def thermalCycle (die : Int) (s : State) : State :=
  if !s.firmware then s
  else if die < 45 * 8 then
    let s := if s.boot.cycleHot then { s with store := { s.store with cur := { s.store.cur with thermal := s.store.cur.thermal + 1 } } } else s
    s.setBoot { s.boot with cycleHot := false }
  else if 85 * 8 < die then s.setBoot { s.boot with cycleHot := true }
  else s

/-- A record of a comparison: none before firmware runs (R70). -/
def thermRecord (code : Nat) (die : Int) (s : State) : State := if s.firmware then offer code bPWR (unsigned 16 die) 0 s else s

/-- The warning threshold (R60), with 3 degrees of hysteresis. DESIGN CHOICE, assumption 114: a reading equal to the threshold has
crossed it; R60 speaks of crossing. -/
def thermWarn (die : Int) (s : State) : State :=
  let w : Int := s.fld fPWR_THERM_WARN_C
  if w * 8 ≤ die && !s.boot.warnHot then
    thermRecord 0x0C02 die ((s.setB fPWR_THERM_WARN true).setBoot { s.boot with warnHot := true })
  else if die < (w - 3) * 8 then s.setBoot { s.boot with warnHot := false }
  else s

/-- The critical threshold (R60): armed again only below 102 degrees. DESIGN CHOICE, assumption 114: a reading of 105 degrees has crossed
it. -/
def thermCrit (die : Int) (s : State) : State :=
  if 105 * 8 ≤ die && !s.boot.critHot then
    thermRecord 0x0C03 die ((s.setB fPWR_THERM_CRIT true).setBoot { s.boot with critHot := true })
  else if die < 102 * 8 then s.setBoot { s.boot with critHot := false }
  else s

/-- `MEM_STATUS.HOT` (R58, R378): a stack that has its supply is above 85 degrees. -/
def stackHot (t : Temps) (s : State) : State :=
  s.setB fMEM_STATUS_HOT ((s.fld (fPD 30) != 0 && decide (85 * 8 < t.hbmA)) || (s.fld (fPD 31) != 0 && decide (85 * 8 < t.hbmB)))

/-- `TEMPERATURE_COMPARE` (R60, R61): in hardware, in every stage from the release of `RESET_N` on. -/
def execTemperatureCompare (t : Temps) (s : State) : Host.Outcome State Fault Refusal :=
  if s.stage = 0 then ok s
  else match tripCause t with
    | some c => ok (thermalShutdown c s)
    | none => ok (thermalCycle t.die (thermCrit t.die (thermWarn t.die (stackHot t (s.setF fPWR_THERM_TJ_MAX (unsigned 16 t.die))))))

/-- `THERMTRIP_RECHECK` (R26, R61): 10 us after the release of `RESET_N`. -/
def execThermtripRecheck (t : Temps) (s : State) : Host.Outcome State Fault Refusal :=
  match tripCause t with
  | some c => if s.stage = 1 then ok (thermalShutdown c s) else ok s
  | none => ok s

/-- `HEATER_UNREGULATED` (R59): `temp` is the engine temperature, 0.5 degrees. -/
def execHeaterUnregulated (n : Ch) (temp : Nat) (s : State) : Host.Outcome State Fault Refusal :=
  if s.chDark n then ok s
  else ok (offer 0x0223 (bCH n) (temp % 256) 0 ((s.setF (fENG_STATUS_ENG_TEMP n) temp).setB (fENG_STATUS_UNREG n) true))

/-- `ENGINE_OVERTEMPERATURE` (R59): at 82 degrees. -/
def execEngineOvertemperature (n : Ch) (temp : Nat) (s : State) : Host.Outcome State Fault Refusal :=
  if s.chDark n || temp < 164 then ok s
  else ok (chForce n (offer 0x0224 (bCH n) (temp % 256) 0 (s.setF (fENG_STATUS_ENG_TEMP n) temp)))

/-- `SHUTDOWN_CAUSE_READ` (R62, R77) by requester 0 or 1 (PCIe function) or 2 (I2C): the read clears. -/
def execShutdownCauseRead (who : Fin 3) (s : State) : Host.Outcome State Fault Refusal :=
  let served := if who = 2 then s.i2cServed else s.ready
  if !served then ok (put 0#32 s)
  else
    let v := s.rd rPWR_SHUTDOWN_CAUSE
    let s := s.unreg rPWR_SHUTDOWN_CAUSE
    ok (if who = 2 then { wakeFires 2 s with out := { s.out with data := v, bytes := le 4 v.toNat } } else put v s)

/-! ### The adaptive core voltage (R48) -/

/-- The step the loop takes (R48): at most one of 5 mV, within 0 to 32; during a self-test toward the window 12 to 26. -/
def avsMove (bist : Bool) (sp : Nat) (move : Int) : Nat :=
  if bist then (if sp < 12 then sp + 1 else if 26 < sp then sp - 1 else sp)
  else (clampI 0 32 ((sp : Int) + clampI (-1) 1 move)).toNat

/-- `AVS_EVALUATION` (R48): the monitors ask for a move; `sense` is the voltage at the sense pins and `readback` the regulator's output
read back after a write, both in 0.1 mV. -/
def execAvsEvaluation (move : Int) (sense readback : Nat) (s : State) : Host.Outcome State Fault Refusal :=
  if !s.ready || !s.flag fPWR_AVS_CTRL_AVS_EN then ok s
  else
    let sp := s.fld fPWR_AVS_STATUS_SETPOINT
    let s := (s.setF fPWR_AVS_STATUS_SENSE (sat 65535 sense)).setB fPWR_AVS_STATUS_AT_LIMIT (sp == 32 && decide (0 < move))
    let held := s.flag fPWR_AVS_CTRL_HOLD || s.flag fPWR_AVS_STATUS_READBACK_ERR
    let v := if held then sp else avsMove s.test.bist.isSome sp move
    if v = sp then ok s
    else
      let s := s.setF fPWR_AVS_STATUS_SETPOINT v
      let off := ((readback : Int) - (6200 + 50 * (v : Int))).natAbs
      if off ≤ 150 then ok (s.setBoot { s.boot with avsBad := 0 })
      else if s.boot.avsBad < 2 then ok (s.setBoot { s.boot with avsBad := s.boot.avsBad + 1 })
      else
        let s := (s.setBoot { s.boot with avsBad := 0 }).setB fPWR_AVS_STATUS_READBACK_ERR true
        ok (offer 0x0C01 bPWR v (sat 65535 sense) s)

end Sys2Proof.Machine
end

