-- ==== Sys2Proof/Machine/Power.lean ====
section
/-! DEFINITION. Power states on command (spec 17): `PWR_STATE_SET` for channels, lanes, quads and domains, and the ends of their
transitions. -/

namespace Sys2Proof.Machine

open Sys2Proof

/-! ### Dependants (R18, R194, R256, R292, R331) -/

/-- A valid pair slot (R256). -/
def State.pairValid (s : State) (p : Nat) : Bool := s.flag (fMRG_CFG_VALID p)

/-- A channel holds live grants: a hub with a valid grant, a leaf that is OPERATING (R194). -/
def State.grantLive (s : State) (n : Nat) : Bool :=
  (s.fld (fHUB_CTRL_ROLE n) == 1 && !(grantsIn s.regs n).isEmpty) || (s.isLeaf n && s.leafSt n == 5)

/-- A session is live on a channel (R292). -/
def State.sessionLive (s : State) (n : Nat) : Bool := s.active n && !s.memberB n && !(boundSessions s.rd n).isEmpty

/-- The first of some channels that meets a condition, as a source block. -/
def firstCh (ns : List Nat) (p : Nat → Bool) : Option Nat := (ns.find? p).map fun n => bCH n

/-- A channel is a member of a valid pair, whose dependants lie in every domain of R2 (R256). -/
def State.paired (s : State) (n : Nat) : Bool := (s.memberOf n).isSome

/-- The first dependant of some channels, in the order of R405. -/
def State.chDependant (s : State) (ns : List Nat) : Option Nat :=
  match firstCh ns s.grantLive with
  | some b => some b
  | none =>
    if ns.any s.paired then some bMRG
    else if ns.any s.sessionLive then some bCPH
    else none

/-- Member A of a valid pair carries a session (R256). -/
def State.pairSession (s : State) (p : Nat) : Bool := s.pairValid p && !(boundSessions s.rd (s.fld (fMRG_CFG_CH_A p))).isEmpty

/-- The first dependant of a domain: 3, 28, 29 or 30 for both stacks. -/
def State.domDependant (s : State) (d : Nat) : Option Nat :=
  if d = 28 then (if s.pairValid 0 || s.pairValid 1 then some bMRG else none)
  else if d = 29 then
    if (span 0 2).any s.pairSession then some bMRG
    else if (span 0 4).any s.sessionLive then some bCPH
    else none
  else if d = 30 then (if (span 0 2).any fun p => s.pairValid p && s.flag (fMRG_CFG_STORE p) then some bMRG else none)
  else none

/-! ### Parameters (R414) -/

/-- The targets a mask names. -/
def maskOf (m : Nat) (w : Nat) : List Nat := (span 0 w).filter (bit m)

/-- Domains of a kind-3 mask: 3, 28, 29, and 30 for `PD30` with `PD31`. -/
def domMask (m : Nat) : List Nat := [3, 28, 29, 30].filter (bit m)

/-- A kind-3 mask that names a domain not among them, or one stack alone (R17). -/
def badDomMask (m : Nat) : Bool :=
  m == 0 || (maskOf m 64).any (fun d => !([3, 28, 29, 30, 31].contains d)) || bit m 30 != bit m 31

/-- The parameter check. -/
def badPwr (ps : List Byte) : Option Nat :=
  let k := fld ps 0 1
  let st := fld ps 1 1
  let m := fld ps 4 8
  firstBad [(miss ps 0 1 || decide (4 < k), 0), (miss ps 1 1 || (if k < 2 then decide (2 < st) else if k < 4 then decide (1 < st) else st != 1), 1),
    (miss ps 2 2 || fld ps 2 2 != 0, 2),
    (miss ps 4 8 || (if k = 0 then m == 0 || decide (16 ≤ m) else if k = 1 then m == 0 else if k = 2 then m == 0 || decide (16 ≤ m)
      else if k = 3 then badDomMask m else m != 0), 4)]

/-- The resources the targets are (R93). -/
def pwrTouches (ps : List Byte) : List Nat :=
  let m := fld ps 4 8
  match fld ps 0 1 with
  | 0 => (maskOf m 4).map resCH
  | 1 => ((maskOf m 64).map fun l => resHQ (l / 16)).eraseDups
  | 2 => (maskOf m 4).map resHQ
  | 3 => (domMask m).map resPD
  | _ => []

/-! ### The four kinds -/

/-- The operation of an accepted request. -/
def pwrOp (q : Request) (targets : List Nat) (s : State) : Op := opOf q 0x0600 (pwrTouches q.params) targets s

/-- Refusals of a change of channels (R402): a channel changing on its own account, INTERMISSION from DARK, no receptacle, a
dependant of one that the command would move (R18). -/
def chRefuse (st : Nat) (ns : List Nat) (s : State) : Option Ref :=
  firstRef ([(ns.any (fun n => s.fld (fCH n) == 3), { status := stBUSY, b0 := 0 }),
    (st == 1 && ns.any s.chDark, { status := stWRONG_STATE }),
    (st == 0 && ns.any s.chDark && !s.flag fPWR_CH_STATE_RECEPTACLE, { status := stWRONG_STATE })] ++
    (if st = 0 then [] else match s.chDependant (ns.filter fun n => s.fld (fCH n) != 2 - st) with | some b => [(true, conflict b)] | none => []))

/-- A channel starts toward a state (R403): 0 ACTIVE, 1 INTERMISSION, 2 DARK. -/
def chBegin (st n : Nat) (s : State) : State :=
  let old := s.fld (fCH n)
  let goal := 2 - st
  let s := s.setPwr { s.pwr with was := s.pwr.was.set (ch4 n) old, target := s.pwr.target.set (ch4 n) (some goal) }
  if st = 0 then
    if old = 0 then enqueue (.channel (ch4 n)) (s.setF (fCH n) 3)
    else each (chPds n) (fun d s => setPD d 3 s) ((s.setPwr { s.pwr with exits := s.pwr.exits ++ [n] }).setF (fCH n) 3)
  else if old = 2 then chStop n s
  else each (chPds n) (fun d s => setPD d 3 s) (s.setF (fCH n) 3)

/-- Kind 0. -/
def setChannels (q : Request) (st : Nat) (ns : List Nat) (s : State) : Except Ref (State × Answer) :=
  match chRefuse st ns s with
  | some r => .error r
  | none =>
    let go := ns.filter fun n => s.fld (fCH n) != 2 - st
    .ok (each go (chBegin st) s, .accept (pwrOp q (go.map tChan) s))

/-- A lane takes a state (R330, R404): 0 L0, 1 L1, 2 L2. One that has FAILED stays quiet (R329). -/
def laneSet (st l : Nat) (s : State) : State :=
  if st = 0 then
    if (s.lane l).failed then laneTo l 7 s
    else if s.laneSt l = 5 then laneTo l 4 s
    else if s.laneSt l = 6 then laneTrain l s
    else s
  else if s.laneSt l = 4 + st then s
  else portLost l (laneTo l (4 + st) (((s.setB (fHL_STATUS_LOS l) false).setB (fHL_STATUS_HOLDING l) false).setLane l { s.lane l with testing := false }))

/-- Kind 1. A lane that trains is a target until it reaches L0; every other change is complete at once. -/
def setLanes (q : Request) (st : Nat) (ls : List Nat) (s : State) : Except Ref (State × Answer) :=
  let pd := fun l => s.fld (fPD (24 + l / 16))
  if ls.any fun l => pd l == 3 then .error { status := stBUSY, b0 := 0 }
  else if ls.any (fun l => pd l == 0) || (st = 1 && ls.any fun l => s.laneSt l == 6) then .error { status := stWRONG_STATE }
  else match (if st = 0 then none else ls.find? s.liveLane) with
    | some l => .error (conflict (bLane l))
    | none =>
      let t := each ls (laneSet st) s
      .ok (t, .accept (pwrOp q ((if st = 0 then ls.filter fun l => t.laneSt l != 4 else []).map tPLane) s))

/-- Kind 2. The default quad of a pair's member is held (R256), then one with a live lane (R331). -/
def setQuads (q : Request) (st : Nat) (qs : List Nat) (s : State) : Except Ref (State × Answer) :=
  let pd := fun x => s.fld (fPD (24 + x))
  if qs.any fun x => pd x == 3 then .error { status := stBUSY, b0 := 0 }
  else if st = 0 then
    let go := qs.filter fun x => pd x == 0
    match go.find? fun x => !(layoutOk s x && layoutServes s x) with
    | some x => .error (conflict (bHQ x))
    | none => .ok (each go (fun x s => enqueue (.quad (ch4 x)) (setPD (24 + x) 3 s)) s, .accept (pwrOp q (go.map fun x => tDom (24 + x)) s))
  else
    let go := qs.filter fun x => pd x == 2
    if go.any s.paired then .error (conflict bMRG)
    else match (go.flatMap quadLanes).find? s.liveLane with
    | some l => .error (conflict (bLane l))
    | none => .ok (each go (fun x s => quadStop x (setPD (24 + x) 3 s)) s, .accept (pwrOp q (go.map fun x => tDom (24 + x)) s))

/-- A domain begins to darken: the cipher's keys are zeroised first (R292), HBM contents are lost (R377). -/
def domBegin (d : Nat) (s : State) : State :=
  if d = 30 then setPD 31 3 (setPD 30 3 (hbmLost s))
  else if d = 29 then setPD 29 3 (offer 0x0704 bCPH (0xFFFF + 2 ^ 31) 0 (zeroiseAll s))
  else setPD d 3 s

/-- Kind 3. -/
def setDomains (q : Request) (st : Nat) (ds : List Nat) (s : State) : Except Ref (State × Answer) :=
  if ds.any fun d => s.fld (fPD d) == 3 then .error { status := stBUSY, b0 := 0 }
  else if st = 0 then
    let go := ds.filter fun d => s.fld (fPD d) == 0
    .ok (each go queueDomain s, .accept (pwrOp q (go.map tDom) s))
  else
    let go := ds.filter fun d => s.fld (fPD d) == 2
    match go.findSome? s.domDependant with
    | some b => .error (conflict b)
    | none => .ok (each go domBegin s, .accept (pwrOp q (go.map tDom) s))

/-! ### The ends of transitions (R403, R404) -/

/-- `CHANNEL_TRANSITION_COMPLETE` (R403): a channel that changes without the start queue reaches its state; exits from INTERMISSION
come one after another. -/
def execChannelTransitionComplete (n : Ch) (s : State) : Host.Outcome State Fault Refusal :=
  let done := targetDone 0x0600 (tChan n) none []
  match s.pwr.target.get n with
  | some 0 => ok (done (chDarkened n s))
  | some 1 => ok (done (chResting n s))
  | some _ => if s.pwr.exits.head? = some n.val then ok (done (chExit n s)) else ok s
  | none => ok s

/-- A domain or quad has gone DARK on command. -/
def wentDark (d : Nat) (s : State) : State :=
  if d = 30 then offer 0x0A21 (bHBM 0) 2 0 (hbmDark s) else if 24 ≤ d && decide (d < 28) then quadDark (d - 24) s else domDark d s

/-- `DOMAIN_TRANSITION_COMPLETE` (R404): a started domain has its supply and is out of reset, or a quad or domain is gated.
Lanes reach their states in the command itself or at `LANE_TRAINING_COMPLETE`; quads start at `QUAD_REACHES_L0`, HBM at
`HBM_START_COMPLETE`. -/
def execDomainTransitionComplete (d : Fin 32) (s : State) : Host.Outcome State Fault Refusal :=
  if !(d.val = 3 || (24 ≤ d.val && d.val < 31)) || s.fld (fPD d) ≠ 3 || s.stage < 5 then ok s
  else if s.isStarting (.domain d) then
    if d.val = 30 then ok s else ok (targetDone 0x0600 (tDom d) none [] (domOn d (unqueue (.domain d) s)))
  else if s.pwr.queue.contains (.domain d) || (24 ≤ d.val && d.val < 28 && s.pwr.queue.contains (.quad (ch4 (d.val - 24)))) ||
      (d.val = 30 && !s.ready) then ok s
  else ok (targetDone 0x0600 (tDom d) none [] (wentDark d s))

end Sys2Proof.Machine
end

