-- ==== Sys2Proof/Machine/DarkHouse.lean ====
section
/-! DEFINITION. The dark house (spec 17): entry, abort, commit, retention banks, wake, accounting, and the power commands. -/

namespace Sys2Proof.Machine

open Sys2Proof

/-! ### Accounting (R412) -/

/-- The record is cleared. -/
def acctClear (s : State) : State :=
  each [rPWR_ACCT_A, rPWR_ACCT_B, rPWR_ACCT_C, rPWR_ACCT_CNT 0, rPWR_ACCT_CNT 1, rPWR_ACCT_CNT 2, rPWR_ACCT_CNT 3] (fun r (s : State) => s.unreg r) s

/-- `CNT(i)` of the refusal ledger. -/
abbrev fCNT (i : Nat) : Fld := ⟨rPWR_ACCT_CNT (i / 4), 8 * (i % 4), 8⟩

/-- An entry refused with CONFLICT, or aborted, goes into the ledger in mode 0. -/
def ledger (idx block : Nat) (abort : Bool) (s : State) : State :=
  if s.flag fPWR_WAKE_CTRL_ACCT_MODE then s
  else
    let s := ((s.bumpF fPWR_ACCT_A_REFUSALS).setF fPWR_ACCT_A_LAST_BLOCK block).setF fPWR_ACCT_A_LAST_INDEX idx
    (s.setB fPWR_ACCT_A_LAST_ABORT abort).bumpF (fCNT idx)

/-- The refuser index of a block ID. -/
def refuser (b : Nat) : Nat :=
  if b = bMRG then 8 else if b = bCPH then 9 else if b = bHBM 0 then 10 else if b = bSYS then 11
  else if 0x20 ≤ b && decide (b < 0x24) then 4 + (b - 0x20) else b - 0x10

/-- `PWR_WAKE_CTRL` takes a value (R412, R413): a change of mode or `ACCT_CLEAR` clears the record. -/
def wakeCtrl (v : Word) (s : State) : State :=
  let mode := fPWR_WAKE_CTRL_ACCT_MODE.of v
  let clear := mode != s.fld fPWR_WAKE_CTRL_ACCT_MODE || fPWR_WAKE_CTRL_ACCT_CLEAR.of v == 1
  let s := s.wr rPWR_WAKE_CTRL (v &&& 0x107#32)
  if clear then acctClear s else s

/-! ### Entry (R405, R406) -/

/-- No wake source is enabled. -/
def State.noWake (s : State) : Bool :=
  !(s.flag fPWR_WAKE_CTRL_WAKE_N_EN || s.flag fPWR_WAKE_CTRL_I2C_EN || s.flag fPWR_WAKE_CTRL_TIMER_EN)

/-- Contexts that the retention bank keeps: INSTALLED, CURRENT, and PENDING, whose activation is abandoned (R320). -/
def State.kept (s : State) : List Nat :=
  s.contexts.filter fun i => let st := s.fld (fCPH_CTX_A_STATE i); st == cxINSTALLED || st == cxCURRENT || st == cxPENDING

/-- Contexts INSTALLED or CURRENT, which the bank must have room for (R405, check 6). -/
def State.heldKeys (s : State) : List Nat :=
  s.contexts.filter fun i => let st := s.fld (fCPH_CTX_A_STATE i); st == cxINSTALLED || st == cxCURRENT

/-- Checks 2 to 8 of R405: the block that the first that fails names. -/
def State.entryConflict (s : State) : Option Nat :=
  match firstCh (span 0 4) s.grantLive with
  | some b => some b
  | none =>
    if s.pairValid 0 || s.pairValid 1 then some bMRG
    else if (span 0 4).any s.sessionLive then some bCPH
    else match (span 0 64).find? s.liveLane with
      | some l => some (bLane l)
      | none =>
        if s.flag fCPH_CTRL_KEY_RETAIN && decide (1023 < s.heldKeys.length) then some bCPH
        else if !s.ops.isEmpty || !s.halves.isEmpty || (s.rehearsals.any fun r => r.cue.isSome) || s.tim.pendingStep.isSome || s.test.bist.isSome then some bSYS
        else if s.mem.ppr.isSome then some (bHBM 0)
        else none

/-- Everything from `PD03` on goes DARK (R406), in the reverse of the start order; keys stay until the commit point (R407). -/
def darken (s : State) : State :=
  let s := s.setPwr { s.pwr with queue := [], starting := [], exits := [] }
  let s := each (span 0 4) (fun n s =>
    if s.chDark n then s
    else
      let was := if s.fld (fCH n) = 3 then s.pwr.was.get (ch4 n) else s.fld (fCH n)
      let s := if s.active n then chStop n s else s
      chDarkened n (s.setPwr { s.pwr with was := s.pwr.was.set (ch4 n) was })) s
  let s := each (span 0 4) (fun q s => if s.fld (fPD (24 + q)) = 0 then s else quadDark q (quadStop q s)) s
  let s := if s.fld (fPD 29) = 0 then s else domRecord 29 false (cphGate (setPD 29 0 s))
  let s := if s.fld (fPD 28) = 0 then s else domDark 28 s
  let s := if s.fld (fPD 3) = 0 then s else domDark 3 s
  if s.fld (fPD 30) = 0 then s else offer 0x0A21 (bHBM 0) 2 0 (hbmDark s)

/-- Kind 4 of `PWR_STATE_SET`: an entry is refused with record 0x0C20, or accepted, which ends every rehearsal session (R405). -/
def enterDark (q : Request) (s : State) : Except Ref (State × Answer) :=
  if s.noWake then .ok (offer 0x0C20 bPWR 0xFF stWRONG_STATE s, .fail { status := stWRONG_STATE })
  else match s.entryConflict with
    | some b => .ok (ledger (refuser b) b false (offer 0x0C20 bPWR b stCONFLICT s), .fail (conflict b))
    | none =>
      let e : Entry := ⟨q.org, s.pdOn 30, s.regs.filter fun x => (span 0 4).any fun n => inLeaf n x.1⟩
      let t := darken (endSessions none (fun _ => true) s)
      .ok (t.setPwr { t.pwr with entry := some e, wake := none }, .accept (pwrOp q [tDark] s))

/-- `PWR_STATE_SET` (R414). -/
def cmdPwrStateSet : Cmd where
  code := 0x0600
  access := accOpMntRem
  params := fun ps _ => badPwr ps
  touches := fun q _ => pwrTouches q.params
  body := fun q s =>
    let st := fld q.params 1 1
    let m := fld q.params 4 8
    match fld q.params 0 1 with
    | 0 => setChannels q st (maskOf m 4) s
    | 1 => setLanes q st (maskOf m 64) s
    | 2 => setQuads q st (maskOf m 4) s
    | 3 => setDomains q st (domMask m) s
    | _ => enterDark q s

/-- `PWR_STATE_SET`: an operation whose every target is already in its state ends at once. -/
def execPwrStateSet (q : Request) (s : State) : Host.Outcome State Fault Refusal :=
  if 4076 < q.params.length then serve cmdPwrStateSet q s
  else
    let t := serveState cmdPwrStateSet q s
    match t.ops.find? fun o => o.opcode == 0x0600 && o.targets.isEmpty && decide (o.org = q.org) with
    | none => ok t
    | some op => ok (endOp op { status := stOK } [] t)

/-- `DARK_HOUSE_ABORT` (R407): a wake source fired before the commit point. -/
def execDarkHouseAbort (s : State) : Host.Outcome State Fault Refusal :=
  match s.pwr.entry, s.pwr.wake with
  | some e, some c =>
    let s := s.setPwr { s.pwr with entry := none, wake := none }
    let s := ledger (11 + c) 0x80 true (offer 0x0C21 bPWR c 0 s)
    let s := match s.ops.find? fun o => o.targets.contains tDark with
      | some op => endOp op { status := stCONFLICT, b0 := 11 + c, b1 := 0x80 } [] s
      | none => s
    let s := queueDomain 3 s
    ok (if e.hbmOn then queueDomain 30 s else s)
  | _, _ => ok s

/-! ### The commit point (R406, R408, R320) -/

/-- Words with only their configuration (R408), those that a condition names. -/
def cfgWords (p : Nat → Bool) (m : SMap Word) : SMap Word :=
  (m.filter fun e => p e.1).filterMap fun e =>
    let w := atReset e.1 (cfgBits e.1) e.2
    if w = resetWord e.1 then none else some (e.1, w)

/-- A word lies in a channel region (R2). -/
def inChannels (off : Nat) : Bool := 0x100000 ≤ off && decide (off < 0x200000)

/-- Grant maps (R196). -/
def inGrants (off : Nat) : Bool := (span 0 4).any fun n => rGRANT_A n 0 ≤ off && decide (off < rGRANT_A n 4096)

/-- What the banks hold (R408); `keys` are the contexts kept. -/
def banksOf (leaf : SMap Word) (keys : List Nat) (s : State) : Banks where
  kek := if s.flag fCPH_CTRL_KEY_RETAIN then s.cph.kek else none
  keys := s.cph.keys.filter fun e => keys.contains e.1
  ctx := (s.regs.filter fun e => ctxReg e.1 && keys.contains ((e.1 - 0x220000) / 8)).map fun e =>
    if e.1 % 8 = 0 && (fCPH_CTX_A_STATE 0).of e.2 == cxPENDING then (e.1, (fCPH_CTX_A_STATE 0).put e.2 cxINSTALLED) else e
  leaf := leaf
  claims := s.claims
  sys := cfgWords (fun off => !inChannels off && !ctxReg off && !coldKeeps off) s.regs
  chan := cfgWords (fun off => inChannels off && !((span 0 4).any fun n => inLeaf n off) && !inGrants off) s.regs
  trace := ⟨(s.ohOf 0).tx, (s.ohOf 1).tx, (s.ohOf 2).tx, (s.ohOf 3).tx⟩
  ring := lastN 1024 (((cbList s.cb.ring).foldl (fun l r => insRec (s.cbHead - 8191#32) r l) []) ++ s.cb.input)
  tim := s.tim
  timRegs := s.regs.filter fun e => 0x50000 ≤ e.1 && decide (e.1 < 0x51000)
  life := lifeNow s

/-- The part asleep: only `PD00` is left, with the request of the entry and the sealed banks (R406, R414). That a lane
has FAILED lasts until a cold start, which a wake is not (R329, R411). -/
def asleep (b : Banks) (op : List Op) (s : State) : State :=
  let t := coldBase s
  let retain := s.flag fCPH_CTRL_KEY_RETAIN
  let t : State := { t with
    ops := op
    lanes := s.lanes.filter fun e => e.2.failed
    boot := { t.boot with linkUp := false, named := none }
    pwr := { PwrSt.init with asleep := true, commitLife := s.life }
    banks := some b }
  let t := t.wr rPWR_RET_STATUS (if retain then 0x5555#32 else 0x5554#32)
  let t := each (span 0 8) (fun i (t : State) => t.wr (rPWR_RET_SEAL i) (Config.bankSeal i s.free)) t
  setPD 2 0 (setPD 1 0 { t with free := s.free + 1 })

/-- `DARK_HOUSE_COMMIT` (R406): no wake source has fired. With `KEY_RETAIN` clear every key is zeroised and bank 0 stays empty. -/
def execDarkHouseCommit (s : State) : Host.Outcome State Fault Refusal :=
  match s.pwr.entry, s.pwr.wake with
  | some e, none =>
    let retain := s.flag fCPH_CTRL_KEY_RETAIN
    let s := offer 0x0C22 bPWR (if retain then 0xFF else 0xFE) (b2n retain) s
    ok (asleep (banksOf e.leaf (if retain then s.kept else []) s) (s.ops.filter fun o => o.targets.contains tDark) s)
  | _, _ => ok s

/-! ### Wake (R410, R411) -/

/-- `WAKE_N_LOW` (R410). With the pads undefined it may be missed: a free choice (R46). -/
def execWakeNLow (s : State) : Host.Outcome State Fault Refusal :=
  if s.boot.railsLow.contains 10 then
    let (v, t) := s.draw
    ok (if v % 2 = 0 then t else wakeFires 1 t)
  else ok (wakeFires 1 s)

/-- `I2C_ADDRESS_MATCH` (R410): an address byte that equals the part's own (R29). With the pads undefined it may be missed: a free
choice (R46). -/
def execI2cAddressMatch (addr : Fin 128) (s : State) : Host.Outcome State Fault Refusal :=
  if addr.val ≠ s.i2cAddress then ok s
  else if s.boot.railsLow.contains 10 then
    let (v, t) := s.draw
    ok (if v % 2 = 0 then t else wakeFires 2 t)
  else ok (wakeFires 2 s)

/-- `WAKE_TIMER_EXPIRY` (R410): `PWR_WAKE_TIMER` seconds from the commit point, 0 taken as 1. -/
def execWakeTimerExpiry (s : State) : Host.Outcome State Fault Refusal :=
  if s.pwr.asleep && decide (s.pwr.commitLife.toNat + max 1 (s.fld fPWR_WAKE_TIMER_SECONDS) * 1000000000 ≤ s.life.toNat) then ok (wakeFires 3 s)
  else ok s

/-- `WAKE` (R411): the last-wake record is written in its mode, and boot begins at the clock stage. -/
def execWake (s : State) : Host.Outcome State Fault Refusal :=
  match s.pwr.wake with
  | none => ok s
  | some c =>
    if !s.pwr.asleep || s.boot.powerDown then ok s
    else
      let s := if s.flag fPWR_WAKE_CTRL_ACCT_MODE then
          ((s.setF fPWR_ACCT_A_REFUSALS c).setF fPWR_ACCT_B_WAKE_T_LO s.life.toNat).setF fPWR_ACCT_C_WAKE_T_HI (s.life.toNat / 2 ^ 32)
        else s
      let s := s.setBoot { s.boot with waking := true }
      ok (clockStage ((s.setPwr { s.pwr with asleep := false }).setB fPWR_RET_STATUS_WOKEN true))

/-- Status of a bank in `PWR_RET_STATUS`. -/
abbrev fBANK (i : Nat) : Fld := ⟨rPWR_RET_STATUS, 2 * i, 2⟩

/-- Words come back. -/
def putWords (m : SMap Word) (s : State) : State := each m (fun e (s : State) => s.wr e.1 e.2) s

/-- Bank 0 is restored. -/
def restoreKeys (b : Banks) (s : State) : State :=
  let s := putWords b.ctx s
  let ss := (b.ctx.filter fun e => e.1 % 8 == 0).map fun e => (fCPH_CTX_A_SESSION 0).of e.2
  s.setCph { s.cph with kek := b.kek, keys := b.keys, sets := ss.eraseDups }

/-- Bank 0 is lost (R320): `KEY_LOST`, and record 0x0714 for each session and direction that held a context. -/
def loseKeys (b : Banks) (s : State) : State :=
  let held := ((b.ctx.filter fun e => e.1 % 8 == 0).map fun e => ((fCPH_CTX_A_SESSION 0).of e.2, (fCPH_CTX_A_DIR 0).of e.2)).eraseDups
  each held (fun h s => offer 0x0714 bCPH (h.1 + 2 ^ 31) h.2 s) (s.setB fCPH_STATUS_KEY_LOST true)

/-- Bank 7 is restored (R411): records at their own slots; the selector but not the time of day; the life records. -/
def restoreRecords (b : Banks) (s : State) : State :=
  let ring := b.ring.foldl (fun m r => smSet (fun _ => none) m (r.seq.toNat % 8192) (some r)) s.cb.ring
  let epoch := s.fld fTIM_STATUS_EPOCH
  let s := each b.timRegs (fun e (s : State) => s.wr e.1 ((s.rd e.1 &&& cfgBits e.1) ||| (e.2 &&& ~~~cfgBits e.1))) s
  let s := (s.setB fTIM_STATUS_TOD_VALID false).setF fTIM_STATUS_EPOCH epoch
  { s with
    cb := { s.cb with ring := ring, newest := match b.ring.getLast? with | some r => some r.seq | none => s.cb.newest }
    tim := { b.tim with sec := 0, ns := 0, pendingStep := none }
    store := { s.store with cur := { b.life with powered := s.store.cur.powered, fuses := s.store.cur.fuses } }
    perm := b.life.perm }

/-- The traces of a channel come back with bank 6. -/
def restoreTrace (b : Banks) (s : State) : State :=
  each (span 0 4) (fun n s =>
    let t := b.trace.get (ch4 n)
    setOh n { s.ohOf n with tx := { TxFramer.init with sapi := t.sapi, dest := t.dest, oper := t.oper, expSapi := t.expSapi, pend := t.pend } } s) s

/-- A bank whose seal holds is restored (R409). -/
def restoreBank (b : Banks) (i : Nat) (s : State) : State :=
  let s := s.setF (fBANK i) 2
  if i = 0 then restoreKeys b s
  else if i < 5 then putWords (b.leaf.filter fun e => inLeaf (i - 1) e.1) s
  else if i = 5 then putWords b.sys { s with claims := b.claims }
  else if i = 6 then restoreTrace b (putWords b.chan s)
  else restoreRecords b s

/-- Owner of a bank (R408). -/
def bankOwner (i : Nat) : Nat := if i = 0 then bCPH else if i < 5 then bCH (i - 1) else bSYS

/-- A bank whose seal fails is discarded (R409). -/
def loseBank (b : Banks) (i : Nat) (s : State) : State :=
  let s := offer 0x0C24 bPWR i (bankOwner i) (s.setF (fBANK i) 3)
  if i = 0 then loseKeys b s else s

/-- `RETENTION_BANKS_RESTORED` (R409): `bad` are the banks that fail their seals. Then the stacks and the monitor start (R411). -/
def execRetentionBanksRestored (bad : List Nat) (s : State) : Host.Outcome State Fault Refusal :=
  match s.banks with
  | none => ok s
  | some b =>
    if !s.boot.waking || s.stage ≠ 5 then ok s
    else
      let s := each (span 0 8) (fun i s => if s.fld (fBANK i) != 1 then s else if bad.contains i then loseBank b i s else restoreBank b i s) s
      let s : State := { s with banks := none }
      ok (timChange (fabRefresh (memRefresh (queueDomain 3 (setPD 31 3 (setPD 30 3 s))))))

/-! ### Commands (R414) -/

/-- `PWR_REPORT`. -/
def cmdPwrReport : Cmd where
  code := 0x0601
  access := accAll
  params := fun _ _ => none
  body := fun _ s => .ok (s, .done ([rPWR_DOMAIN_A, rPWR_DOMAIN_B, rPWR_CH_STATE, rPWR_RET_STATUS].flatMap fun r => le 4 (s.rd r).toNat))

/-- `PWR_REPORT`. -/
def execPwrReport (q : Request) (s : State) : Host.Outcome State Fault Refusal := serve cmdPwrReport q s

/-- `PWR_WAKE_SET`: reserved bits of the image are refused (R7). -/
def cmdPwrWakeSet : Cmd where
  code := 0x0602
  access := accOpMnt
  params := fun ps _ => firstBad [(miss ps 0 4 || setsReserved rPWR_WAKE_CTRL (fld ps 0 4), 0), (miss ps 4 4, 4)]
  body := fun q s =>
    .ok ((wakeCtrl (BitVec.ofNat 32 (fld q.params 0 4)) s).wr rPWR_WAKE_TIMER (BitVec.ofNat 32 (fld q.params 4 4)), .done [])

/-- `PWR_WAKE_SET`. -/
def execPwrWakeSet (q : Request) (s : State) : Host.Outcome State Fault Refusal := serve cmdPwrWakeSet q s

/-- `PWR_ACCT_READ`: clearing belongs to OPERATOR. -/
def cmdPwrAcctRead : Cmd where
  code := 0x0603
  access := accOpMnt
  permit := fun q _ => !bit (fld q.params 0 1) 0 || q.org.who.master == 1
  params := fun ps _ => firstBad [(miss ps 0 1 || decide (1 < fld ps 0 1), 0)]
  body := fun q s =>
    let ws := [rPWR_ACCT_A, rPWR_ACCT_B, rPWR_ACCT_C, rPWR_ACCT_CNT 0, rPWR_ACCT_CNT 1, rPWR_ACCT_CNT 2, rPWR_ACCT_CNT 3]
    .ok (if bit (fld q.params 0 1) 0 then acctClear s else s, .done (ws.flatMap fun r => le 4 (s.rd r).toNat))

/-- `PWR_ACCT_READ`. -/
def execPwrAcctRead (q : Request) (s : State) : Host.Outcome State Fault Refusal := serve cmdPwrAcctRead q s

/-- `ACCT_CLEAR` (R412): a 1 written to `PWR_WAKE_CTRL.ACCT_CLEAR` through BAR0, which is there from READY on (R78). -/
def execAcctClear (s : State) : Host.Outcome State Fault Refusal := ok (if s.ready then acctClear s else s)

end Sys2Proof.Machine
end

