-- ==== Sys2Proof/Machine/SelfTest.lean ====
section
/-! DEFINITION. Self-test, loopbacks, test pattern, SRAM repair and converter capture (spec 20). -/

namespace Sys2Proof.Machine

open Sys2Proof

/-- Replace the self-test state. -/
def State.setTest (s : State) (t : TestSt) : State := { s with test := t }

/-- The mark of a self-test, and of a capture, among the targets of operations. -/
def tBist : Nat := 0xD000
def tCap : Nat := 0xD001

/-! ### Built-in self-tests (R449 to R451) -/

/-- Units of a scope: channels, quads, domains. 0 is the device, 1 channel, 2 quad, 3 cipher, 4 merge and control, 5 HBM. -/
def scopeUnits (scope idx : Nat) : List Nat × List Nat × List Nat :=
  match scope with
  | 0 => ([0, 1, 2, 3], [0, 1, 2, 3], [29, 28, 30])
  | 1 => ([idx], [], [])
  | 2 => ([], [idx], [])
  | 3 => ([], [], [29])
  | 4 => ([], [], [28])
  | _ => ([], [], [30])

/-- Resources a scope's units are. -/
def scopeRes (scope idx : Nat) : List Nat :=
  let (cs, qs, ds) := scopeUnits scope idx
  cs.map resCH ++ qs.map resHQ ++ ds.map resPD ++ (if ds.contains 29 then [resKEY] else []) ++
    (if ds.contains 28 then [resPAIR 0, resPAIR 1] else []) ++ (if ds.contains 30 then [resMEM] else [])

/-- Clock, selector and core voltage meet R450. -/
def State.bistFit (s : State) : Bool :=
  let st := s.fld fTIM_STATUS_STATE
  let sp := s.fld fPWR_AVS_STATUS_SETPOINT
  let stuck := s.flag fPWR_AVS_CTRL_AVS_EN && (s.flag fPWR_AVS_CTRL_HOLD || s.flag fPWR_AVS_STATUS_READBACK_ERR) && outside 12 26 sp
  decide ((s.sfld fTIM_FREQ_OFFS).natAbs ≤ 50000000) && st != 1 && st != 3 && !stuck

/-- A channel serves traffic, is paired, or is a hub or leaf (R450). -/
def State.chEngaged (s : State) (n : Nat) : Bool :=
  s.grantLive n || (s.memberOf n).isSome || s.sessionLive n || anySlot s.rd n || s.fld (fHUB_CTRL_ROLE n) != 0

/-- A loopback or an armed capture is set on a channel. -/
def State.chTapped (s : State) (n : Nat) : Bool :=
  s.fld (fTST_LOOP_DEPTH n) != 0 || (match s.test.cap with | some a => a.cap.ch == n | none => false)

/-- The refusal of a self-test (R450, R36, R332). -/
def bistRefuse (scope idx : Nat) (s : State) : Option Ref :=
  let (cs, qs, ds) := scopeUnits scope idx
  let busy := cs.any (fun n => s.fld (fCH n) == 3) || qs.any (fun q => s.fld (fPD (24 + q)) == 3) || ds.any (fun d => s.fld (fPD d) == 3)
  let firsts := fun (l : List Nat) (p : Nat → Bool) (b : Nat → Nat) => match l.find? p with | some x => [(true, conflict (b x))] | none => []
  firstRef ([(busy || s.test.bist.isSome, ({ status := stBUSY, b0 := 0 } : Ref)), (!s.bistFit, { status := stWRONG_STATE }),
      (ds.contains 30 && s.flag fMRG_GLOBAL_FAR_USED, { status := stWRONG_STATE }),
      (cs.any s.chDark && !s.flag fPWR_CH_STATE_RECEPTACLE, { status := stWRONG_STATE })] ++
    firsts cs s.chEngaged bCH ++ firsts cs s.chTapped bCH ++
    firsts qs (fun q => s.paired q || (quadLanes q).any s.liveLane || (s.fld (fPD (24 + q)) == 0 && !layoutOk s q)) bHQ ++
    firsts ds (fun d => (s.domDependant d).isSome) bDom)

/-- The units of a scope with the power state each has (R451). -/
def priorOf (scope idx : Nat) (s : State) : List (StartItem × Nat) :=
  let (cs, qs, ds) := scopeUnits scope idx
  qs.map (fun q => (.quad (ch4 q), s.fld (fPD (24 + q)))) ++ cs.map (fun n => (.channel (ch4 n), s.fld (fCH n))) ++
    ds.map (fun d => (.domain d, s.fld (fPD d)))

/-- A DARK unit is started through the start queue (R451). -/
def bistStart (u : StartItem × Nat) (s : State) : State :=
  if u.2 != 0 then s
  else match u.1 with
    | .quad q => enqueue (.quad q) (setPD (24 + q) 3 s)
    | .channel n => chBegin 0 n s
    | .domain d => queueDomain d s

/-- `BIST_RUN` (R462). -/
def cmdBistRun : Cmd where
  code := 0x0700
  access := accOpRem
  params := fun ps _ => firstBad [(miss ps 0 1 || decide (5 < fld ps 0 1), 0),
    (miss ps 1 1 || ((fld ps 0 1 == 1 || fld ps 0 1 == 2) && decide (3 < fld ps 1 1)), 1), (miss ps 2 2 || fld ps 2 2 != 0, 2)]
  touches := fun q _ => resTEST :: scopeRes (fld q.params 0 1) (fld q.params 1 1)
  body := fun q s =>
    let scope := fld q.params 0 1
    let idx := if scope = 1 || scope = 2 then fld q.params 1 1 else 0
    match bistRefuse scope idx s with
    | some r => .error r
    | none =>
      let p := priorOf scope idx s
      let t := each p bistStart (s.setTest { s.test with bist := some (scope, idx), prior := p })
      let t := (t.setB fTST_STATUS_BIST_RUN true).setF fTST_STATUS_SCOPE scope
      .ok (offer 0x0E01 bSYS (scope + 256 * idx) 0 t, .accept (opOf q 0x0700 (resTEST :: scopeRes scope idx) [tBist] s))

/-- `BIST_RUN`. -/
def execBistRun (q : Request) (s : State) : Host.Outcome State Fault Refusal := serve cmdBistRun q s

/-- What a channel that was running holds starts afresh after its test; its leaf table is at reset. -/
def chRetest (n : Nat) (s : State) : State :=
  let s := setOh n (ohFresh (s.ohOf n)) (setLine n LineSt.init (setFec n FecSt.init (dropRegs (inLeaf n) s)))
  let s := setHub n { HubSt.init with start := s.life } (setLeaf n LeafSt.init s)
  let s := s.setMem { s.mem with flips := s.mem.flips.filter fun f => f.1 != stLEAF n }
  if s.active n then rxTo n 1 (framerStart n s) else s

/-- A unit returns to the power state it had (R451). -/
def bistReturn (u : StartItem × Nat) (s : State) : State :=
  match u.1 with
  | .quad q =>
    if s.fld (fPD (24 + q)) = 0 then s
    else if u.2 = 0 then quadDark q (quadStop q (unqueue u.1 s))
    else each (quadLanes q) (fun l s => if s.laneSt l = 4 then laneTrain l s else s) s
  | .channel n =>
    if s.chDark n then s
    else if u.2 = 0 then chDarkened n (if s.active n then chStop n (unqueue u.1 s) else unqueue u.1 s)
    else chRetest n s
  | .domain d =>
    if s.fld (fPD d) = 0 || u.2 ≠ 0 then s
    else if d = 30 then wentDark 30 (unqueue u.1 s) else domDark d (unqueue u.1 s)

/-- Storage that a scope's march tested is left at reset values (R451). -/
def bistStores (scope : Nat) (s : State) : State :=
  let s := if scope = 0 || scope = 4 then
      let s : State := { s with mrg := Two.all MrgSt.init, cb := { s.cb with ring := [], newest := none } }
      let s := s.setTest { s.test with caps := s.test.caps.filter fun e => ((e.2.map fun c => c.place.isSome).getD false) }
      s.setMem { s.mem with flips := s.mem.flips.filter fun f => f.1 < 5 }
    else s
  if scope = 0 || scope = 5 then s.setMem { s.mem with hbm := s.mem.hbm.filter fun e => decide (77824 * 512 ≤ e.1) } else s

/-- A self-test ends: units return, the record is made, the notice sent. -/
def bistEnd (result : Nat) (r : Ref) (entries : List (Nat × Nat × Nat × Nat × Nat × Nat)) (s : State) : State :=
  match s.test.bist with
  | none => s
  | some (scope, _) =>
    let es := entries.take 64
    let prior := s.test.prior
    let s := bistStores scope (each prior bistReturn s)
    let s := ((s.setTest { s.test with bist := none, prior := [] }).setB fTST_STATUS_BIST_RUN false).setF fTST_STATUS_SCOPE 0
    let failed := (es.filter fun e => e.2.2.2.1 == 1).length
    let s := offer 0x0E02 bSYS (result + 256 * es.length) failed s
    let bytes := es.flatMap fun e => le 1 e.1 ++ le 1 e.2.1 ++ le 1 e.2.2.1 ++ le 1 e.2.2.2.1 ++ le 2 e.2.2.2.2.1 ++ le 2 e.2.2.2.2.2
    match s.ops.find? fun o => o.targets.contains tBist with
    | some op => endOp op r (le 1 result ++ [0#8] ++ le 2 es.length ++ bytes) s
    | none => s

/-- Every unit of the running test has started. -/
def State.bistReady (s : State) : Bool :=
  s.test.bist.isSome && s.test.prior.all fun u => !s.pwr.queue.contains u.1 && !s.isStarting u.1

/-- `BIST_COMPLETE` (R451): the entries of the notice are (test, unit, store, outcome, array, row or column); outcome 1 is a failure,
2 not run. -/
def execBistComplete (entries : List (Nat × Nat × Nat × Nat × Nat × Nat)) (s : State) : Host.Outcome State Fault Refusal :=
  if !s.bistReady then ok s
  else ok (bistEnd (b2n ((entries.take 64).any fun e => e.2.2.2.1 == 1)) { status := stOK } entries s)

/-- `BIST_ABORT` (R450): core voltage or house clock left the window. -/
def execBistAbort (s : State) : Host.Outcome State Fault Refusal := ok (bistEnd 2 { status := stWRONG_STATE } [] s)

/-! ### Loopbacks (R453 to R455) -/

/-- A running self-test holds a resource. -/
def State.bistHolds (s : State) (r : Nat) : Bool :=
  match s.test.bist with
  | some (sc, i) => (scopeRes sc i).contains r
  | none => false

/-- A loopback of a channel is set or replaced: depths 4 and 5 hold `RX_LOS` clear, depth 6 mutes the output, and the receiver
acquires what it now receives (R454). -/
def chLoop (n d atten : Nat) (s : State) : State :=
  let was := s.fld (fTST_LOOP_DEPTH n)
  let s := (s.setF (fTST_LOOP_DEPTH n) d).setF (fTST_LOOP_LOOP_ATTEN n) (if d = 6 then atten else 0)
  let s := setLine n { s.lineOf n with loop := [] } s
  let s := if d = 4 || d = 5 then rxLosClear n s else s
  let s := muteFollow n s
  if (d = 7 || d = 0) && (was = 7 || was = 0) then s else acqRestart n s

/-- Loopbacks that depth 0 clears: that of lane x, and for x up to 3 that of channel x. -/
def clearedBy (x : Nat) (s : State) : List Nat :=
  (if s.fld (fHL_LOOP_DEPTH x) = 0 then [] else [resHQ (x / 16)]) ++ (if x < 4 && s.fld (fTST_LOOP_DEPTH x) != 0 then [resCH x] else [])

/-- The state checks of R455. -/
def loopRefuse (d x : Nat) (s : State) : Option Ref :=
  if d = 0 then none
  else if d ≤ 3 then
    firstRef [(s.laneSt x != 4 || (d == 3 && !s.headLane x), { status := stWRONG_STATE }),
      (d == 3 && s.flag (fHL_CFG_GROUP x), conflict (bLane x)), (s.bistHolds (resHQ (x / 16)), conflict (bLane x))]
  else
    firstRef [(!s.active x || (d == 7 && s.fld (fLINE_MODE_IOP x) != 0), { status := stWRONG_STATE }),
      ((s.memberOf x).isSome, conflict bMRG), (s.fld (fHUB_CTRL_ROLE x) != 0, conflict (bCH x)),
      (s.bistHolds (resCH x) || (match s.test.cap with | some a => a.cap.ch == x | none => false), conflict (bCH x))]

/-- `LOOPBACK_SET` (R462). -/
def cmdLoopbackSet : Cmd where
  code := 0x0701
  access := accOpRem
  params := fun ps _ =>
    let d := fld ps 0 1
    firstBad [(miss ps 0 1 || decide (7 < d), 0), (miss ps 1 1 || (if 4 ≤ d then decide (3 < fld ps 1 1) else decide (63 < fld ps 1 1)), 1),
      (miss ps 2 1 || (d == 6 && decide (25 < fld ps 2 1)), 2), (miss ps 3 1 || fld ps 3 1 != 0, 3)]
  touches := fun q s =>
    let d := fld q.params 0 1
    let x := fld q.params 1 1
    if d = 0 then clearedBy x s else if d ≤ 3 then [resHQ (x / 16)] else [resCH x]
  body := fun q s =>
    let d := fld q.params 0 1
    let x := fld q.params 1 1
    match loopRefuse d x s with
    | some r => .error r
    | none =>
      if d = 0 then
        let t := laneLoopClear x s
        .ok (if x < 4 && s.fld (fTST_LOOP_DEPTH x) != 0 then
            offer 0x0E03 (bCH x) (s.fld (fTST_LOOP_DEPTH x) + 256 * x) 0 (chLoop x 0 0 t) else t, .done [])
      else if d ≤ 3 then .ok (offer 0x0E03 (bLane x) (d + 256 * x + 65536) 0 (s.setF (fHL_LOOP_DEPTH x) d), .done [])
      else .ok (offer 0x0E03 (bCH x) (d + 256 * x + 65536) 0 (chLoop x d (fld q.params 2 1) s), .done [])

/-- `LOOPBACK_SET`. -/
def execLoopbackSet (q : Request) (s : State) : Host.Outcome State Fault Refusal := serve cmdLoopbackSet q s

/-! ### The payload test pattern (R456) -/

/-- The generator of a channel stops: its frames carry PT 0x00 again. -/
def patStop (n : Nat) (s : State) : State := s.setB (fTST_PAT_GEN n) false

/-- The register of a generator that starts: R456 does not say where in the sequence, so a free value other than 0, at which
the sequence would stand still (assumption 5). -/
def patStart (v : Nat) : BitVec 23 := if BitVec.ofNat 23 v = 0#23 then PatSt.init.gen else BitVec.ofNat 23 v

/-- Generator and checker are set; a checker that starts has no lock, one that stops loses it. -/
def patSet (n : Nat) (gen chk : Bool) (s : State) : State :=
  let starts := gen && !s.flag (fTST_PAT_GEN n)
  let s := if starts then { s with free := s.free + 1 } else s
  let p := s.pat.get (ch4 n)
  let p := if starts then { p with gen := patStart (Config.free (s.free - 1)).toNat } else p
  let p := if chk && !s.flag (fTST_PAT_CHK n) then { p with ref := PatSt.init.ref, run := 0 } else p
  let s : State := { s with pat := s.pat.set (ch4 n) p }
  let s := (s.setB (fTST_PAT_GEN n) gen).setB (fTST_PAT_CHK n) chk
  if !chk && s.flag (fTST_PAT_LOCK n) then offer 0x0E06 (bCH n) 0 0 (s.setB (fTST_PAT_LOCK n) false) else s

/-- `PATTERN_SET` (R456, R462): on an ACTIVE native point-to-point channel. -/
def cmdPatternSet : Cmd where
  code := 0x0702
  access := accOpRem
  params := fun ps _ => firstBad [badCh ps, (miss ps 1 1 || decide (3 < fld ps 1 1), 1)]
  touches := fun q _ => [resCH (fld q.params 0 1)]
  body := fun q s =>
    let n := fld q.params 0 1
    let v := fld q.params 1 1
    if !s.active n || s.fld (fHUB_CTRL_ROLE n) != 0 || s.fld (fLINE_MODE_IOP n) != 0 then .error { status := stWRONG_STATE }
    else if v != 0 && anySlot s.rd n then .error (conflict (bCH n))
    else .ok (patSet n (bit v 0) (bit v 1) s, .done [])

/-- `PATTERN_SET`. -/
def execPatternSet (q : Request) (s : State) : Host.Outcome State Fault Refusal := serve cmdPatternSet q s

/-- `PAT_ERR_READ` (R461): the read clears. -/
def execPatErrRead (n : Ch) (s : State) : Host.Outcome State Fault Refusal :=
  ok (if s.ready then put (s.rd (rTST_PAT_ERR n)) (s.unreg (rTST_PAT_ERR n)) else put 0#32 s)

/-! ### SRAM repair (R457, R458) -/

/-- The domain of a store's arrays is ON. -/
def State.storeOn (s : State) (st : Nat) : Bool :=
  if st = 0 then s.pdOn 29 else if st ≤ 4 then s.pdOn (20 + (st - 1)) else if st ≤ 8 then s.pdOn 28 else true

/-- The resource a store belongs to. -/
def storeRes (st : Nat) : List Nat :=
  if st = 0 then [resKEY] else if st ≤ 4 then [resCH (st - 1)] else if st ≤ 8 then [resPAIR ((st - 5) % 2)] else []

/-- Spares of a kind that an array has left: 4 rows, 2 column groups. -/
def sparesLeft (s : State) (st arr : Nat) (col : Bool) : Nat :=
  (if col then 2 else 4) - (s.test.repairs.filter fun r => r.store == st && r.array == arr && bit r.what 15 == col).length

/-- Fuse sets left of the budget of 256. -/
def State.fusesLeft (s : State) : Nat := 256 - s.store.cur.fuses

/-- A fuse set is used: the life store is written (R447). -/
def useFuse (s : State) : State :=
  let s := { s with store := { s.store with cur := { s.store.cur with fuses := s.store.cur.fuses + 1 } } }
  (lifeDue s).setF fTST_STATUS_FUSES_LEFT s.fusesLeft

/-- `REPAIR_APPLY` (R458, R462): `blown` tells that the fuse of a fuse repair reads back blown. The manual gives no number of arrays or
rows to a store, and every number is taken as one. -/
def cmdRepairApply (blown : Bool) : Cmd where
  code := 0x0703
  access := accOp
  params := fun ps _ => firstBad [(miss ps 0 1 || decide (2 < fld ps 0 1), 0), (miss ps 1 1 || decide (10 < fld ps 1 1), 1), (miss ps 2 2, 2), (miss ps 4 2, 4)]
  touches := fun q _ => storeRes (fld q.params 1 1)
  body := fun q s =>
    let k := fld q.params 0 1
    let st := fld q.params 1 1
    let arr := fld q.params 2 2
    let w := fld q.params 4 2
    let same := fun (r : Repair) => r.store == st && r.array == arr && r.what == w
    let soft := s.test.repairs.any fun r => same r && !r.fuse
    let fused := s.test.repairs.any fun r => same r && r.fuse
    let left := sparesLeft s st arr (bit w 15)
    let rest := s.test.repairs.filter fun r => !same r
    let rec0 := fun (s : State) => offer 0x0E05 bSYS (k + 16 * st + 65536 * arr) w s
    let done := fun (t : State) => (Except.ok (rec0 t, Answer.done (le 2 t.fusesLeft ++ le 1 (sparesLeft t st arr (bit w 15)))) : Except Ref (State × Answer))
    if !s.storeOn st || (k == 2 && !soft) then .error { status := stWRONG_STATE }
    else if (k == 0 && (soft || fused)) || (k == 1 && fused) then .error (conflict (bStore st))
    else if (k != 2 && !soft && left == 0) || (k == 1 && s.fusesLeft == 0) then .error { status := stREFUSED_BUDGET }
    else if k = 2 then done (s.setTest { s.test with repairs := rest })
    else if k = 0 then done (s.setTest { s.test with repairs := s.test.repairs ++ [⟨st, arr, w, false⟩] })
    else if !blown then .ok (useFuse s, .fail { status := stHW_FAULT })
    else done (useFuse (s.setTest { s.test with repairs := rest ++ [⟨st, arr, w, true⟩] }))

/-- `REPAIR_APPLY`. -/
def execRepairApply (q : Request) (blown : Bool) (s : State) : Host.Outcome State Fault Refusal := serve (cmdRepairApply blown) q s

/-! ### Converter capture (R459, R460) -/

/-- A hub's leaf entry has a valid grant. -/
def State.hasGrant (s : State) (n e : Nat) : Bool := (grantsIn s.regs n).any fun g => s.fld (fGRANT_B_LEAF n g) == e

/-- The last frame number that a capture's trigger looks at: transmitted or received. -/
def capFn (c : Capture) (s : State) : Nat :=
  if c.kind = 2 then ((s.ohOf c.ch).tx.fn + 2 ^ 48 - 1) % 2 ^ 48 else (s.ohOf c.ch).lastFn

/-- The trigger of an armed capture has come since it was armed (R459): an event with the code (bytes 4 and 5 of the parameters) and block ID
(byte 6) has been offered to the recorder, the frame number has been reached, or the grant has begun. The parameter's layout is that of a
record's bytes 4 to 6 (R439): assumption 138. -/
def State.capDue (s : State) (a : CapArm) : Bool :=
  let v := a.cap.value
  match a.cap.kind with
  | 1 => (s.cb.input ++ cbList s.cb.ring).any fun r => r.code.toNat == v % 65536 && r.block.toNat == v / 65536 % 256 && newerSeq r.seq a.seq0
  | 2 => decide (1 ≤ (v + 2 ^ 48 - a.fn0) % 2 ^ 48) && decide ((v + 2 ^ 48 - a.fn0) % 2 ^ 48 ≤ (capFn a.cap s + 2 ^ 48 - a.fn0) % 2 ^ 48)
  | 3 => decide (1 ≤ (v + 2 ^ 48 - a.fn0) % 2 ^ 48) && decide ((v + 2 ^ 48 - a.fn0) % 2 ^ 48 ≤ (capFn a.cap s + 2 ^ 48 - a.fn0) % 2 ^ 48)
  | 4 => a.granted
  | _ => false

/-- The trigger of an armed capture occurs: the header takes the time of the first word, the frame number and the converter status. A
word is 256 samples at 382.5 GS/s. -/
def capFire (a : CapArm) (s : State) : State :=
  let n := a.cap.ch
  let before := a.pre * 1024 * 2 ^ a.cap.dec * 2560 / 3825
  let fn := if a.cap.kind = 2 || a.cap.kind = 3 then a.cap.value else if a.cap.dac then (s.ohOf n).tx.fn else (s.ohOf n).lastFn
  let c := { a.cap with life := BitVec.ofNat 64 (s.life.toNat - before), fn := fn, conv := (span 0 4).map fun c => s.rd (rCONV_STATUS n c) }
  s.setTest { s.test with cap := some { a with cap := c, triggered := true } }

/-- `CAPTURE_ARM` (R460, R462). -/
def cmdCaptureArm : Cmd where
  code := 0x0704
  access := accOpRem
  params := fun ps _ => firstBad [badCh ps, (miss ps 1 1 || bits (fld ps 1 1) 3 1 != 0, 1), (miss ps 2 1 || decide (4 < fld ps 2 1), 2),
    (miss ps 3 1 || decide (15 < fld ps 3 1), 3),
    (miss ps 4 8 || ((fld ps 2 1 == 2 || fld ps 2 1 == 3) && decide (2 ^ 48 ≤ fld ps 4 8)) || (fld ps 2 1 == 4 && decide (1023 < fld ps 4 8)), 4)]
  touches := fun q _ => [resCAP, resCH (fld q.params 0 1)]
  body := fun q s =>
    let n := fld q.params 0 1
    let b := fld q.params 1 1
    let k := fld q.params 2 1
    let v := fld q.params 4 8
    if s.test.cap.isSome then .error { status := stBUSY, b0 := 0 }
    else if !s.active n || (k == 4 && !(s.fld (fHUB_CTRL_ROLE n) == 1 && s.hasGrant n v)) || s.bistHolds (resCH n) then .error { status := stWRONG_STATE }
    else
      let c : Capture := ⟨n, bit b 0, bits b 7 4, k, v, 0, 0, [], false, false, s.free, none⟩
      let a : CapArm := ⟨s.test.nextCap, c, fld q.params 3 1, false, s.cb.seq, capFn c s, false⟩
      let held := (s.test.caps.filter fun e => e.1 != a.num && ((e.2.map fun x => x.place.isSome).getD false))
      let t : State := { s with free := s.free + 1, test := { s.test with cap := some a, caps := held, nextCap := (s.test.nextCap + 1) % 4096 } }
      let t := (t.setMem { t.mem with flips := t.mem.flips.filter fun f => f.1 != stCAPTURE }).setB fTST_STATUS_CAP_ARMED true
      .ok (if k = 0 then capFire a t else t, .accept (opOf q 0x0704 [resCAP] [tCap] s (data := a.num)))

/-- `CAPTURE_ARM`. -/
def execCaptureArm (q : Request) (s : State) : Host.Outcome State Fault Refusal := serve cmdCaptureArm q s

/-- `CAPTURE_TRIGGER` (R459): the event, frame number or grant that was named has come. -/
def execCaptureTrigger (s : State) : Host.Outcome State Fault Refusal :=
  match s.test.cap with
  | some a => if a.triggered || !s.capDue a then ok s else ok (capFire a s)
  | none => ok s

/-- Header flags: truncated, damaged. -/
def Capture.flags (c : Capture) : Nat := b2n c.trunc + 2 * b2n c.damaged

/-- The notice of a capture's operation. -/
def capNotice (num flags : Nat) (s : State) : State :=
  match s.ops.find? fun o => o.targets.contains tCap with
  | some op => endOp op { status := stOK } (le 2 num ++ le 1 flags) s
  | none => s

/-- `CAPTURE_DRAINED` (R459): to region 4, or without HBM to stay in the buffer. -/
def execCaptureDrained (s : State) : Host.Outcome State Fault Refusal :=
  match s.test.cap with
  | none => ok s
  | some a =>
    if !a.triggered then ok s
    else
      let hbm := s.flag fMEM_STATUS_HBM_READY
      let place := if hbm then some s.test.nextPlace else none
      let c := { a.cap with place := place, damaged := s.mem.flips.any fun f => f.1 == stCAPTURE && decide (2 ≤ f.2.2) }
      let rest := s.test.caps.filter fun e => !(hbm && (e.2.map fun x => x.place == place).getD false)
      let caps := smSet (fun _ => none) rest a.num (some c)
      let s := s.setTest { s.test with cap := none, caps := caps, nextPlace := if hbm then (s.test.nextPlace + 1) % 1495 else s.test.nextPlace }
      ok (capNotice a.num c.flags (offer 0x0E04 bSYS a.num c.flags (s.setB fTST_STATUS_CAP_ARMED false)))

/-- The 64 header bytes: the manual lists the fields and not their places (R459). -/
def Capture.header (c : Capture) : List Byte :=
  (span 0 64).map (Config.capHeader ([c.ch, b2n c.dac, c.dec, c.kind, c.value, c.life.toNat, c.fn] ++ c.conv.map BitVec.toNat ++ [c.flags]))

/-- Bytes of a capture from an offset, header first. -/
def Capture.slice (c : Capture) (off n : Nat) : List Byte :=
  let h := c.header
  (span off n).map fun i => if i < 64 then h.getD i 0#8 else Config.capSample c.seed (i - 64)

/-- `CAPTURE_READ` (R462). -/
def cmdCaptureRead : Cmd where
  code := 0x0705
  access := accOpObsRem
  params := fun ps _ => firstBad [(miss ps 0 2 || decide (4095 < fld ps 0 2), 0), (miss ps 2 2 || outside 1 4000 (fld ps 2 2), 2),
    (miss ps 4 4 || decide (64 + 16777216 < fld ps 4 4 + fld ps 2 2), 4)]
  body := fun q s =>
    match smGet (fun _ => none) s.test.caps (fld q.params 0 2) with
    | some c => .ok (s, .done (c.slice (fld q.params 4 4) (fld q.params 2 2)))
    | none => .error { status := stWRONG_STATE }

/-- `CAPTURE_READ`. -/
def execCaptureRead (q : Request) (s : State) : Host.Outcome State Fault Refusal := serve cmdCaptureRead q s

/-- `CAPTURE_CANCEL` (R462): an untriggered capture ends; a triggered one completes. -/
def cmdCaptureCancel : Cmd where
  code := 0x0706
  access := accOpRem
  params := fun _ _ => none
  touches := fun _ s => match s.test.cap with | some a => [resCH a.cap.ch] | none => []
  body := fun _ s =>
    match s.test.cap with
    | none => .error { status := stWRONG_STATE }
    | some a =>
      if a.triggered then .ok (s, .done [])
      else .ok (capNotice a.num 0 ((s.setTest { s.test with cap := none }).setB fTST_STATUS_CAP_ARMED false), .done [])

/-- `CAPTURE_CANCEL`. -/
def execCaptureCancel (q : Request) (s : State) : Host.Outcome State Fault Refusal := serve cmdCaptureCancel q s

end Sys2Proof.Machine
end

