-- ==== Sys2Proof/Machine/Cue.lean ====
section
/-! DEFINITION. Cues (R99, R100): the consistency rules of every staging block, the step that brings a bank into force, the commands
`CUE` and `STAGE_GET`, the pairs' implicit sessions (R257), and the compatibility commands (R108). -/

namespace Sys2Proof.Machine

open Sys2Proof

/-! ### Converters (R129, R135) -/

/-- Understudy position, interpolated position, `DEGRADED` and `FAILED` that the lasting faults of ADC c give. -/
def State.convState (s : State) (n c : Nat) : Nat × Nat × Bool × Bool := convOutcome (smGet (fun _ => []) s.perm.slices (4 * n + c))

/-- A placement of ADC c is bad (R135). -/
def placeBad (s : State) (n c p : Nat) : Bool :=
  let lasting := !(smGet (fun _ => []) s.perm.slices (4 * n + c)).isEmpty
  let (u, i, d, f) := s.convState n c
  if p = 64 then lasting
  else 64 < p || (d && i == p) || (s.flag (fCONV_STATUS_INTERP_ACTIVE n c) && s.fld (fCONV_STATUS_INTERP_POS n c) == p) || f || u == 127 ||
    (lasting && p != u)

/-- A `CONV_ADJ` word takes its slice outside the correctable range (R129, R135). -/
def adjBad (s : State) (n i : Nat) (w : Word) : Bool := outOfRangeAdj (s.corrOf n i) w

/-- The converter block of channel n at its cue. -/
def convCheck (n : Nat) (bank : SMap Word) (s : State) : Option Ref :=
  firstRef [
    ((span 0 4).any fun c => placeBad s n c (bankF bank (fPLACE n c)), conflict (bCH n)),
    ((span 0 260).any fun i => adjBad s n i (bankRd bank (rCONV_ADJ n i)), conflict (bCH n))]

/-! ### Grants (R167, R172, R191, R231, R291) -/

/-- Two grants of a set share a quantum of a subcarrier. -/
def grantsClash (rd : Reader) (n a b : Nat) : Bool :=
  let f := fun (x : Nat → Nat → Fld) g => rdF rd (x n g)
  f fGRANT_A_SC a == f fGRANT_A_SC b && decide (f fGRANT_A_START a < f fGRANT_A_START b + f fGRANT_A_LEN b) &&
    decide (f fGRANT_A_START b < f fGRANT_A_START a + f fGRANT_A_LEN a)

/-- Bits that a leaf with k upstream slots needs in a cycle of 100 us (R176), on a net rate in 100 Gb/s. -/
def leafNeed (k rate : Nat) : Nat :=
  let up := fun (a b : Nat) => (a + b - 1) / b
  256 * k * up (100000 * 1008 * rate) 1310720 + 128 * (up (100000 * 1008 * rate) 335544320 + 1)

/-- The grants block of channel n at its cue. -/
def grantsCheck (n : Nat) (bank : SMap Word) (s : State) : Option Ref :=
  let rd := s.staged (12 + n) bank
  let gs := grantsIn bank n
  let f := fun (x : Nat → Nat → Fld) g => rdF rd (x n g)
  let es := (entriesIn bank n).filter fun i => f fLEAF_W0_VALID i == 1
  let bound := es.filter fun i => s.fld (fLEAF_W0_STATE n i) != 0
  let role := s.fld (fHUB_CTRL_ROLE n) == 1
  let door := rdF rd (fHUB_SD_SD_OFFSET n)
  let stop := door + 20 * rdF rd (fHUB_SD_SD_WIDTH n)
  let sc := rdF rd (fHUB_SD_SD_SC n)
  let cap := fun i => ((gs.filter fun g => f fGRANT_B_LEAF g == i).map fun g => 8 * burstCap (f fGRANT_A_LEN g)).foldl (· + ·) 0
  firstRef [
    (bankBad bank || gs.any (fun g => wordBad (rGRANT_A n g) (cueBits (rGRANT_A n g)) (rd (rGRANT_A n g))), conflict (bCH n)),
    (anyPair (grantsClash rd n) gs || gs.any (fun g => decide (2000 < f fGRANT_A_START g + f fGRANT_A_LEN g)), conflict (bCH n)),
    (gs.any fun g => f fGRANT_A_SC g == sc && decide (f fGRANT_A_START g < stop) && decide (door < f fGRANT_A_START g + f fGRANT_A_LEN g), conflict (bCH n)),
    (gs.any fun g => !bound.contains (f fGRANT_B_LEAF g), conflict (bCH n)),
    (es.any fun i => f fLEAF_W0_DS_SC i == 0, conflict (bCH n)),
    (role && (assignedClients s.rd n).any fun i => s.flag (fLEAF_W0_VALID n i) && !es.contains i, conflict (bCH n)),
    (bound.any fun i =>
      let k := (clientSlots s.rd n i).length
      k != 0 && decide (cap i < leafNeed k (s.fld (fLINE_MODE_NET_RATE n))), conflict (bCH n)),
    (bound.any fun i => decide (8000 * rdF rd (fHUB_PLAYOUT_PLAYOUT n) < s.fld (fLEAF_W1_RTD n i) + 174 * 8000), conflict (bCH n)),
    ((span 0 16).any fun k => decide (128 < (es.filter fun i => bit (f fLEAF_W0_DS_SC i) k).length), conflict (bCH n)),
    (decide (2000 < stop), conflict (bCH n)),
    ((span 0 16).any fun k => decide (128 < (shareGrants rd gs n k).length), conflict (bCH n)),
    (role && (badSessions s rd n none || leafSessions rd n), conflict bCPH),
    (role && s.cueLoad rd n, { status := stREFUSED_BUDGET, b1 := bCPH })]

/-! ### Pairs (R14, R258) -/

/-- The pair block at its cue: two of its rules ask for `VALID` (R258). -/
def pairCheck (p : Nat) (bank : SMap Word) (s : State) : Option Ref :=
  let a := bankF bank (fMRG_CFG_CH_A p)
  let b := bankF bank (fMRG_CFG_CH_B p)
  let far := bankB bank (fMRG_CFG_STORE p)
  let q := 1 - p
  let taken := fun m => s.flag (fMRG_CFG_VALID q) && (s.memCh q 0 == m || s.memCh q 1 == m)
  let run := s.flag (fMRG_CFG_VALID p)
  let unfit := fun m => s.fld (fLINE_MODE_IOP m) != 0 || s.fld (fHUB_CTRL_ROLE m) != 0
  let valid := bankB bank (fMRG_CFG_VALID p)
  firstRef [
    (bankBad bank || (valid && decide (b ≤ a)), conflict bMRG),
    (taken a || taken b, conflict bMRG),
    (unfit a, conflict (bCH a)),
    (unfit b || s.fld (fLINE_MODE_NET_RATE a) != s.fld (fLINE_MODE_NET_RATE b), conflict (bCH b)),
    (anySlot s.rd b, conflict (bCH b)),
    (run && valid && (s.memCh p 0 != a || s.memCh p 1 != b), conflict bMRG),
    (far && s.flag fSYS_BOOT_STATUS_HBM_FAIL, conflict (bHBM 0)),
    (!far && run && decide (1536 < (s.pairSt p).occ), conflict bMRG),
    (far && s.flag (fMRG_CFG_VALID q) && s.flag (fMRG_CFG_STORE q), { status := stREFUSED_BUDGET, b1 := bMRG })]

/-! ### The check of a bank -/

/-- The whole bank of a block against the rules of its chapter, the dependants and budgets of others (R99). -/
def cueCheck (b : Nat) (bank : SMap Word) (p : Pending) (s : State) : Option Ref :=
  if b < 4 || (8 ≤ b && decide (b < 12)) then halfCheck b bank p s
  else if b < 8 then convCheck (b - 4) bank s
  else if b < 16 then grantsCheck (b - 12) bank s
  else pairCheck (b - 16) bank s

/-! ### Coming into force -/

/-- The pending cue of a block has its set wholly in force. -/
def cueOver (b fn : Nat) (s : State) : State :=
  let f := fun (o : Op) => if o.targets.contains (cueTarget b) then { o with data := fn } else o
  cueDone (cueTarget b) { s with ops := s.ops.map f }

/-- A receive half comes into force at its boundary, with what that does to acquisition (R156, R160, R161). -/
def halfRun (b fn : Nat) (s : State) : State :=
  let n := b % 4
  let (again, s) := halfTakes b fn s
  if !again then s else toEqualiser n (if s.rxSt n = 8 then rxDown n s else s)

/-- The receiver has the alignment that a receive half waits for: multiframe lock for a multiframe, of mode 1 or of slots (R160, R238). -/
def State.halfMay (s : State) (b : Nat) (p : Pending) : Bool :=
  let n := b % 4
  s.active n && s.fld (fLINE_MODE_IOP n) == 0 && s.fld (fHUB_CTRL_ROLE n) != 1 && !s.defect n dOOF &&
    !((p.mode == 1 || decide (8 ≤ b)) && s.defect n dLOM)

/-- A cue of a line or slots block is accepted: its receive half waits for a boundary of its own from now on, if the receiver has the
alignment for it (R160). -/
def startHalf (b : Nat) (p : Pending) (s : State) : State :=
  if !(b < 4 || (8 ≤ b && decide (b < 12))) || !s.halfMay b p then s
  else
    let h : RxHalf := ⟨b, if p.mode = 1 then some p.frame else none, s.runningSet b, true, false⟩
    halfShow (b % 4) { s with halves := s.halves.filter (fun x => x.2.block != b) ++ [(b % 4, h)] }

/-- The transmit half of a set comes into force (R160): a receive half that already is so completes the set; one that waits goes on
waiting, the operation with it; one that has not waited, for want of alignment, comes into force together with it. `was` is the state
before. -/
def placeHalf (b fn : Nat) (p : Pending) (was s : State) : State :=
  let n := b % 4
  let f := fun (o : Op) => if o.targets.contains (cueTarget b) then { o with data := fn, targets := [tHalf b] } else o
  let put := fun (h : RxHalf) => halfShow n { s with ops := s.ops.map f, halves := s.halves.filter (fun x => x.2.block != b) ++ [(n, { h with early := false })] }
  match was.halves.find? fun h => h.2.block == b with
  | some (_, h) => if h.done then cueOver b fn s else put h
  | none => halfRun b (((s.ohOf n).lastFn + 1) % 2 ^ 48) (put ⟨b, if p.mode = 1 then some p.frame else none, was.runningSet b, false, false⟩)

/-- A channel that is no longer a hub has no alignment (R228). -/
def pathFresh (n : Nat) (s : State) : State :=
  setDefect n dLOM true (setDefect n dOOF true (setOh n { s.ohOf n with hunts := [], since := s.life, held := [], extSet := false } s))

/-- A channel's role has changed while it runs (R166): hub, leaf and receiver start as such. -/
def roleFollow (n was : Nat) (s : State) : State :=
  let role := s.fld (fHUB_CTRL_ROLE n)
  if role = was then s
  else
    let s := setLeaf n LeafSt.init (setHub n HubSt.init s)
    let s := ((s.unreg (rHUB_STATUS n)).unreg (rLEAF_STATUS n)).unreg (rLEAF_RTD n)
    let s := countRanged n s
    if !s.active n then s
    else if role = 1 then rxStart n (rxTo n 0 s)
    else leafFollow n (if was = 1 then pathFresh n (rxTo n 1 s) else s)

/-- What follows a change of a channel's line, slots or pair. -/
def chanFollow (n : Nat) (s : State) : State :=
  cphRefresh (timChange (injFollow n (muteFollow n (fabRefresh s))))

/-- The line block comes into force (R160): the transmit half at frame fn, with record 0x0255 on a channel that runs; a second in which the net
rate changes is partial (R249). DESIGN CHOICE,
assumption 122: on a DARK channel, whose set only comes to be used when it starts (R99), neither half makes the record. -/
def lineForce (n fn : Nat) (r : Rehearsal) (p : Pending) (s : State) : State :=
  let was := s
  let role := s.fld (fHUB_CTRL_ROLE n)
  let s := dropSession n (intoForce n r.bank s)
  if s.chDark n then chanFollow n (cueOver n 0 s)
  else
    let moved := s.fld (fLINE_MODE_NET_RATE n) != was.fld (fLINE_MODE_NET_RATE n)
    let s := if moved then gather n (fun a => { a with part := true }) s else s
    let s := chanFollow n (roleFollow n role (offer 0x0255 (bCH n) 0 (fn % 65536) s))
    placeHalf n fn p was s

/-- The slots block comes into force (R238): a client whose type changes starts its counters afresh (R431); the first session that
is bound starts `PD29` (R292); a payload pattern ends with the first slot (R456). -/
def slotsForce (n fn : Nat) (r : Rehearsal) (p : Pending) (s : State) : State :=
  let b := 8 + n
  let s' := dropSession b (intoForce b r.bank s)
  let differ := slotsDiffer s.rd s'.rd n
  let types := (span 0 512).filter fun c => s.fld (fCLIENT_TYPE n c) != s'.fld (fCLIENT_TYPE n c)
  let t := each types (fun c t => each (span 0 4) (fun k t => cntClear (kClient n c k) t) t) s'
  let o := t.ohOf n
  let t := setOh n { o with tx := { o.tx with maps := differ.foldl (fun m c => smDel m c) o.tx.maps } } t
  let t := if anySlot t.rd n then patStop n t else t
  let t := each ((boundSessions s.rd n).map Prod.fst) freeSet t
  let t := if (boundSessions t.rd n).isEmpty || t.fld (fPD 29) != 0 then t else queueDomain 29 t
  if t.chDark n then chanFollow n (slotsRx n s.rd t.rd (cueOver b 0 t))
  else placeHalf b fn p s (chanFollow n t)

/-- The grants block comes into force (R173): record 0x030D on a running hub. -/
def grantsForce (n : Nat) (r : Rehearsal) (s : State) : State :=
  let s := countRanged n (dropSession (12 + n) (intoForce (12 + n) r.bank s))
  let s := match (s.hubOf n).mapCycle with
    | some c => offer 0x030D (bCH n) c (grantsIn s.regs n).length s
    | none => s
  cueOver (12 + n) 0 ((setHub n { s.hubOf n with mapCycle := none, announce := [] } s).setB (fHUB_STATUS_MAP_PENDING n) false)

/-- The pair block comes into force (R255, R256, R259). -/
def pairForce (p fn : Nat) (r : Rehearsal) (s : State) : State :=
  let was := s.flag (fMRG_CFG_VALID p)
  let a := s.memCh p 0
  let b := s.memCh p 1
  let far := s.fld (fMRG_CFG_STORE p)
  let wtr := s.fld (fMRG_CFG_WTR p)
  let s := dropSession (16 + p) (intoForce (16 + p) r.bank s)
  let now := s.flag (fMRG_CFG_VALID p)
  let s :=
    if !was && now then pairStart p (if s.fld (fPD 28) = 0 then queueDomain 28 s else s)
    else if was && !now then pairStop p a b s
    else if was then
      let s := if s.fld (fMRG_CFG_STORE p) = far then s
        else
          let s := offer 0x0609 bMRG (s.fld (fMRG_CFG_STORE p)) p s
          if s.flag (fMRG_CFG_STORE p) then storeLost p (!s.flag fMEM_STATUS_HBM_READY) s else storeNear p s
      let s := if !s.flag (fMRG_STATUS_WTR_RUN p) || s.fld (fMRG_CFG_WTR p) = wtr then s
        else if s.fld (fMRG_CFG_WTR p) = 0 then offer 0x060A bMRG 0 p (wtrOff p s)
        else s.setF (fMRG_WTR_LEFT_LEFT p) (s.fld (fMRG_CFG_WTR p))
      mrgEval p (mrgGlobal s)
    else s
  cueOver (16 + p) fn (chanFollow b (chanFollow a (if was || !now then s else chanFollow (s.memCh p 1) (chanFollow (s.memCh p 0) s))))

/-- The bank of a block comes into force, its session over. -/
def cueForce (b fn : Nat) (r : Rehearsal) (p : Pending) (s : State) : State :=
  if b < 4 then lineForce b fn r p s
  else if b < 8 then cueOver b 0 (dropSession b (intoForce b r.bank s))
  else if b < 12 then slotsForce (b - 8) fn r p s
  else if b < 16 then grantsForce (b - 12) r s
  else pairForce (b - 16) fn r s

/-- The pending cue of a block is carried out (R99): checked whole, then in force or refused. A grant map was checked when it was
announced (R173), a set whose receive half is in force with that half (R160). -/
def carryOut (b fn : Nat) (s : State) : State :=
  match s.session b with
  | none => s
  | some r =>
    match r.cue with
    | none => s
    | some p =>
      let announced := 12 ≤ b && decide (b < 16)
      let ahead := s.halves.any fun h => h.2.block == b && h.2.done
      match (if announced || ahead then none else cueCheck b r.bank p s) with
      | some ref => cueRefused b r ref s
      | none => cueForce b fn r p s

/-! ### Boundaries -/

/-- The channel whose framer paces a block: member A of a pair for member B and for the pair (R14, R100). -/
def State.pacer (s : State) (b : Nat) (bank : SMap Word) : Nat :=
  if b < 16 then (match s.memberOf (b % 4) with | some (p, 1) => s.memCh p 0 | _ => b % 4)
  else if s.flag (fMRG_CFG_VALID (b - 16)) then s.memCh (b - 16) 0 else bankF bank (fMRG_CFG_CH_A (b - 16))

/-- The block is paced by a framer (R100). -/
def framerPaced (b : Nat) : Bool := b < 4 || (8 ≤ b && decide (b < 12)) || 16 ≤ b

/-- The domain of a block is DARK, or the block has no boundary to wait for: its cue takes effect at once (R99). -/
def State.atOnce (s : State) (b : Nat) : Bool :=
  if b < 12 then s.chDark (b % 4) else if b < 16 then !s.isHub (b - 12) else s.fld (fPD 28) == 0

/-- The framer of a channel numbers native frames now. -/
def State.numbers (s : State) (n : Nat) : Bool :=
  (s.ohOf n).tx.running && s.fld (fLINE_MODE_IOP n) == 0 && s.fld (fHUB_CTRL_ROLE n) != 2

/-- A frame number is the boundary that the pending cue of a block awaits: the one named in mode 1, the frame next to be
transmitted; a multiframe for slots. -/
def State.boundary (s : State) (b fn : Nat) (r : Rehearsal) (p : Pending) : Bool :=
  let n := s.pacer b r.bank
  (p.mode == 0 || fn == p.frame) && (!s.numbers n || fn == (s.ohOf n).tx.fn) &&
    !(8 ≤ b && decide (b < 12) && s.fld (fLINE_MODE_IOP n) == 0 && fn % 256 != 0)

/-- Another pending cue comes at the same boundary of the same framer and has a lower block ID: it is checked first (R100). -/
def State.cueBefore (s : State) (b fn n : Nat) : Bool :=
  s.rehearsals.any fun r => r.block < b && framerPaced r.block && s.pacer r.block r.bank == n &&
    match r.cue with | some p => s.boundary r.block fn r p | none => false

/-- `CUE_CARRIED_OUT` (R99) at the boundary of a block: for a framer-paced block the first frame under the new set, in the order of
R100. The cue of a grant map has its boundary in `GRANT_MAP_IN_FORCE`. -/
def execCueCarriedOut (block frame : Nat) (s : State) : Host.Outcome State Fault Refusal :=
  if !isBlock block || (12 ≤ block && block < 16) then ok s
  else match s.session block with
    | none => ok s
    | some r =>
      match r.cue with
      | none => ok s
      | some p =>
        if framerPaced block && (!s.boundary block frame r p || s.cueBefore block frame (s.pacer block r.bank)) then ok s
        else ok (carryOut block frame s)

/-- `LINE_CUE_RX_HALF` (R160, R238): at the received frame or multiframe that begins with frame number `frame`. -/
def execLineCueRxHalf (n : Ch) (slots : Bool) (frame : Nat) (s : State) : Host.Outcome State Fault Refusal :=
  let b := if slots then 8 + n.val else n.val
  match s.halves.find? fun h => h.2.block == b with
  | none => ok s
  | some (_, h) =>
    let due := match h.frame with
      | some f => frame % 256 == 0 && decide (0 ≤ fnDiff frame f)
      | none => !slots || frame % 256 == 0
    ok (if due then halfRun b frame s else s)

/-- `ROTATION_BOUNDARY` (R127, R128): a pending cue of the converters comes into force first, then the corrections and placements. -/
def execRotationBoundary (n : Ch) (corr : List (Nat × Int × Int × Int)) (s : State) : Host.Outcome State Fault Refusal :=
  ok (rotationBoundary n corr (carryOut (4 + n.val) 0 s))

/-- `GRANT_MAP_IN_FORCE` (R173): the effective cycle of the announced map has come. -/
def execGrantMapInForce (n : Ch) (s : State) : Host.Outcome State Fault Refusal :=
  match (s.hubOf n).mapCycle with
  | none => ok s
  | some c => if !s.isHub n || !cycleReached (s.hubCycle n) c then ok s else ok (carryOut (12 + n.val) 0 s)

/-! ### `CUE` -/

/-- A mode-1 cue comes less than two multiframes before its frame number (R100, R160): after the frame being transmitted and, for
line and slots, after the last frame received. -/
def State.tooSoon (s : State) (b f : Nat) (bank : SMap Word) : Bool :=
  let n := s.pacer b bank
  (s.numbers n && decide (fnDiff f (s.nextFn n 0) + 1 < 512)) ||
    (b < 12 && s.flag (fOH_RX_STATUS_FN_VALID (b % 4)) && decide (fnDiff f (s.ohOf (b % 4)).lastFn < 512))

/-- The effective cycle of a map announced now (R173): the first grant gap after 10 downstream multiframes. -/
def State.mapCycleFor (s : State) (n : Nat) : Nat :=
  ((s.life.toNat - (s.hubOf n).start.toNat + 10 * (s.multiframeNs n + 1) + 99999) / 100000) % 2 ^ 32

/-- An announced map (R173): every share owes its announcement. -/
def announceMap (n : Nat) (s : State) : State :=
  (setHub n { s.hubOf n with mapCycle := some (s.mapCycleFor n), announce := span 0 16 } s).setB (fHUB_STATUS_MAP_PENDING n) true

/-- A session's cue is now pending. -/
def setCue (b : Nat) (p : Pending) (s : State) : State := startHalf b p (setSession b (fun r => { r with cue := some p }) s)

/-- `CUE`. -/
def cmdCue : Cmd where
  code := 0x0122
  access := accOpRem
  params := fun ps _ =>
    let b := fld ps 0 1
    let m := fld ps 1 1
    firstBad [(miss ps 0 1 || !isBlock b, 0), (miss ps 1 1 || decide (2 ≤ m) || (m == 1 && !framerPaced b), 1),
      (m == 1 && (miss ps 2 6 || fld ps 2 6 % 256 != 0), 2)]
  touches := sessionTouches
  body := fun q s =>
    let b := fld q.params 0 1
    let m := fld q.params 1 1
    let p : Pending := ⟨m, if m = 1 then fld q.params 2 6 else 0, q.org⟩
    ownSession b q s fun r =>
      let iop := b < 12 && s.fld (fLINE_MODE_IOP (b % 4)) != 0
      if m == 1 && (iop || (!s.atOnce b && s.tooSoon b p.frame r.bank)) then .error { status := stWRONG_STATE }
      else
        let bad := if 12 ≤ b && decide (b < 16) then grantsCheck (b - 12) r.bank s else none
        match bad with
        | some ref => .error ref
        | none =>
          let s := setCue b p s
          let s := if 12 ≤ b && b < 16 && !s.atOnce b then announceMap (b - 12) s else s
          if m = 1 then .ok (s, .accept (opOf q 0x0122 (resSTG b :: s.blockClaims b) [cueTarget b] s))
          else .ok (s, .defer (opOf q 0x0122 [resSTG b] [cueTarget b] s (reply := true)))

/-- A cue whose block waits for no boundary is carried out at once, after the ACCEPTED of mode 1 (R99). -/
def cueServed (c : Cmd) (b : Request → Nat) (q : Request) (s : State) : Host.Outcome State Fault Refusal :=
  if 4076 < q.params.length then serve c q s
  else
    let t := serveState c q s
    ok (if t.ready && t.atOnce (b q) then carryOut (b q) 0 t else t)

/-- `CUE` (R99, R100). -/
def execCue (q : Request) (s : State) : Host.Outcome State Fault Refusal := cueServed cmdCue (fun q => fld q.params 0 1) q s

/-- `STAGE_GET` (R91): Cue bits from the chosen set, every other bit as a BAR0 read returns it. -/
def cmdStageGet : Cmd where
  code := 0x0124
  access := accOpObsRem
  params := fun ps _ =>
    let n := fld ps 2 2
    firstBad ([(miss ps 0 1 || !isBlock (fld ps 0 1), 0), (miss ps 1 1 || decide (2 ≤ fld ps 1 1), 1),
      (miss ps 2 2 || n == 0 || decide (1018 < n), 2)] ++
      (span 0 (min n 1018)).map fun k =>
        (miss ps (4 + 4 * k) 4 || fld ps (4 + 4 * k) 4 % 4 != 0 || cueBlock (fld ps (4 + 4 * k) 4) != some (fld ps 0 1), 4 + 4 * k))
  body := fun q s =>
    let b := fld q.params 0 1
    let word := fun (rd : Reader) k =>
      let off := fld q.params (4 + 4 * k) 4
      le 4 ((rd off &&& cueBits off) ||| (s.shown off &&& ~~~cueBits off)).toNat
    let reply := fun rd => .ok (s, .done ((span 0 (fld q.params 2 2)).flatMap (word rd)))
    if fld q.params 1 1 = 1 then reply s.rd
    else match s.session b with
      | some r => reply (bankRd r.bank)
      | none => .error { status := stWRONG_STATE }

/-- `STAGE_GET`. -/
def execStageGet (q : Request) (s : State) : Host.Outcome State Fault Refusal := serve cmdStageGet q s

/-! ### Implicit sessions (R108, R257) -/

/-- Open a session, stage some words in it and cue it in mode 0 for a requester. -/
def implicitCue (b : Nat) (code : Nat) (q : Request) (words : List (Nat × Word)) (s : State) : Except Ref (State × Answer) :=
  match s.session b with
  | some r => .error { status := stBUSY, b0 := r.owner.master }
  | none =>
    let s := openSession b q.org.who (some code) s
    let s := setSession b (fun r => { r with bank := words.foldl (fun m w => bankWr m w.1 w.2) r.bank }) s
    .ok (setCue b ⟨0, 0, q.org⟩ s, .defer (opOf q code [resSTG b] [cueTarget b] s (reply := true)))

/-- The `MRG_CFG` word that `PAIR_CREATE` stages. -/
def pairWord (ps : List Byte) : Word :=
  let f := fld ps 3 1
  BitVec.ofNat 32 (1 + 2 * b2n (bit f 0) + 4 * (fld ps 1 1 % 4) + 16 * (fld ps 2 1 % 4) + 64 * b2n (bit f 1) + 128 * b2n (bit f 2) +
    256 * fld ps 6 1 + 65536 * (fld ps 4 2 % 1024))

/-- `PAIR_CREATE`. -/
def cmdPairCreate : Cmd where
  code := 0x0300
  access := accOpRem
  params := fun ps _ => firstBad [badPair ps, (miss ps 1 1 || decide (3 < fld ps 1 1), 1), (miss ps 2 1 || decide (3 < fld ps 2 1), 2),
    (miss ps 3 1 || decide (8 ≤ fld ps 3 1), 3), (miss ps 4 2 || decide (720 < fld ps 4 2), 4), (miss ps 6 1 || decide (fld ps 6 1 < 8), 6),
    (miss ps 7 1 || fld ps 7 1 != 0, 7)]
  touches := fun q _ => [resPAIR (fld q.params 0 1), resCH (fld q.params 1 1), resCH (fld q.params 2 1), resSTG (16 + fld q.params 0 1)]
  body := fun q s =>
    let p := fld q.params 0 1
    match s.session (16 + p) with
    | some r => .error { status := stBUSY, b0 := r.owner.master }
    | none =>
      if s.flag (fMRG_CFG_VALID p) || (bit (fld q.params 3 1) 0 && s.flag fSYS_BOOT_STATUS_HBM_FAIL) then .error { status := stWRONG_STATE }
      else implicitCue (16 + p) 0x0300 q [(rMRG_CFG p, pairWord q.params)] s

/-- `PAIR_CREATE` (R257, R287). -/
def execPairCreate (q : Request) (s : State) : Host.Outcome State Fault Refusal := cueServed cmdPairCreate (fun q => 16 + fld q.params 0 1) q s

/-- `PAIR_DELETE`. -/
def cmdPairDelete : Cmd where
  code := 0x0301
  access := accOpRem
  params := fun ps _ => firstBad [badPair ps]
  touches := fun q s => s.blockClaims (16 + fld q.params 0 1) ++ [resSTG (16 + fld q.params 0 1)]
  body := fun q s =>
    let p := fld q.params 0 1
    match s.session (16 + p) with
    | some r => .error { status := stBUSY, b0 := r.owner.master }
    | none =>
      if !s.flag (fMRG_CFG_VALID p) then .error { status := stWRONG_STATE }
      else implicitCue (16 + p) 0x0301 q [(rMRG_CFG p, (fMRG_CFG_VALID p).put (s.rd (rMRG_CFG p)) 0)] s

/-- `PAIR_DELETE` (R257, R287). -/
def execPairDelete (q : Request) (s : State) : Host.Outcome State Fault Refusal := cueServed cmdPairDelete (fun q => 16 + fld q.params 0 1) q s

/-! ### Compatibility commands (R108) -/

/-- `DV_IDENT`. -/
def cmdDvIdent : Cmd where
  code := 0x0F01
  access := accAll
  params := fun _ _ => none
  body := fun _ s => .ok (s, .done (le 4 (s.rd rSYS_ID_PART).toNat ++ le 1 (s.fld fSYS_ID_REV_STEPPING) ++ le 1 s.dvChan.val))

/-- `DV_IDENT`. -/
def execDvIdent (q : Request) (s : State) : Host.Outcome State Fault Refusal := serve cmdDvIdent q s

/-- `DV_CHAN_SET`. -/
def cmdDvChanSet : Cmd where
  code := 0x0F02
  access := accOp
  params := fun ps _ => firstBad [badCh ps]
  body := fun q s => .ok ({ s with dvChan := ch4 (fld q.params 0 1) }, .done [])

/-- `DV_CHAN_SET`. -/
def execDvChanSet (q : Request) (s : State) : Host.Outcome State Fault Refusal := serve cmdDvChanSet q s

/-- The bin that `DV_PM_READ` names. -/
def PmSt.bin (pm : PmSt) (k : Nat) : PmBin := match k with | 0 => pm.bin15 | 1 => pm.last15 | 2 => pm.bin24 | _ => pm.last24

/-- `DV_PM_READ`. -/
def cmdDvPmRead : Cmd where
  code := 0x0F10
  access := ⟨true, .counters, true, false⟩
  params := fun ps _ => firstBad [badCh ps]
  body := fun q s =>
    let b := (s.ohOf s.dvChan).pm.bin (fld q.params 0 1)
    .ok (s, .done (le 4 b.es ++ le 4 b.ses ++ le 4 b.uas ++ le 1 (b2n b.part)))

/-- `DV_PM_READ`. -/
def execDvPmRead (q : Request) (s : State) : Host.Outcome State Fault Refusal := serve cmdDvPmRead q s

/-- A bin cleared: no counts, incomplete (R250). -/
def PmBin.cleared (b : PmBin) : PmBin := ⟨b.start, 0, 0, 0, true⟩

/-- `DV_PM_CLEAR`. -/
def cmdDvPmClear : Cmd where
  code := 0x0F11
  access := accOp
  params := fun _ _ => none
  body := fun _ s =>
    let o := s.ohOf s.dvChan
    let pm := o.pm
    let pm := { pm with bin15 := pm.bin15.cleared, last15 := pm.last15.cleared, bin24 := pm.bin24.cleared, last24 := pm.last24.cleared }
    .ok (setOh s.dvChan { o with pm := pm } s, .done [])

/-- `DV_PM_CLEAR`. -/
def execDvPmClear (q : Request) (s : State) : Host.Outcome State Fault Refusal := serve cmdDvPmClear q s

/-- `DV_ALARMS`: LOS, OOF, LOM, BDI, PLM and SD of the compatibility channel. -/
def cmdDvAlarms : Cmd where
  code := 0x0F20
  access := accAll
  params := fun _ _ => none
  body := fun _ s =>
    let d := (fOH_RX_STATUS_DEFECTS s.dvChan).of (s.shown (rOH_RX_STATUS s.dvChan))
    let al := [dLOS, dOOF, dLOM, dBDI, dPLM, dSD].map (bit d)
    .ok (s, .done (le 4 ((span 0 6).foldl (fun v k => if al.getD k false then v + 2 ^ k else v) 0)))

/-- `DV_ALARMS`. -/
def execDvAlarms (q : Request) (s : State) : Host.Outcome State Fault Refusal := serve cmdDvAlarms q s

/-- `DV_TX_ENABLE`. -/
def cmdDvTxEnable : Cmd where
  code := 0x0F30
  access := accOp
  params := fun ps _ => firstBad [(miss ps 0 1 || decide (1 < fld ps 0 1), 0)]
  touches := fun _ s => [resCH s.dvChan]
  body := fun q s =>
    let n := s.dvChan.val
    if s.chDark n then .error { status := stWRONG_STATE }
    else .ok (muteFollow n (setEng n { s.engOf n with dvDark := fld q.params 0 1 == 0 } s), .done [])

/-- `DV_TX_ENABLE`. -/
def execDvTxEnable (q : Request) (s : State) : Host.Outcome State Fault Refusal := serve cmdDvTxEnable q s

/-- Net rate, subcarriers, constellation, entropy of the modes that `DV_RATE_SET` names (R108, R141): W04, W08, W16. -/
def dvMode (rate : Nat) : Option (Nat × Nat × Nat × Nat) :=
  match rate with
  | 1 => some (4, 4, 0, 281)
  | 2 => some (8, 12, 0, 188)
  | 4 => some (16, 16, 0, 281)
  | _ => none

/-- `DV_RATE_SET`. -/
def cmdDvRateSet : Cmd where
  code := 0x0F31
  access := accOp
  params := fun ps _ => firstBad [(miss ps 0 1 || (dvMode (fld ps 0 1)).isNone, 0)]
  touches := fun _ s => [resCH s.dvChan, resSTG s.dvChan]
  body := fun q s =>
    match dvMode (fld q.params 0 1) with
    | none => .error { status := stBAD_PARAM, off := 0 }
    | some (r, k, c, h) =>
      let w := BitVec.ofNat 32 (r + 256 * k + 8192 * c + 65536 * h)
      implicitCue s.dvChan 0x0F31 q [(rLINE_MODE s.dvChan, w)] s

/-- `DV_RATE_SET`: of the compatibility channel. -/
def execDvRateSet (q : Request) (s : State) : Host.Outcome State Fault Refusal := cueServed cmdDvRateSet (fun _ => s.dvChan) q s

end Sys2Proof.Machine
end

