-- ==== Sys2Proof/Machine/RegAccess.lean ====
section
/-! DEFINITION. Register access (spec 05 R101, R107; spec 04 R78; spec 21 R464, R465): `REGISTER_WRITE` at every BAR0 offset, and
`I2C_REGISTER_READ`. -/

namespace Sys2Proof.Machine

open Sys2Proof

/-! ### Configuration errors (R101) -/

/-- The resource a register is claimed with (R92, R101); none for the regions that are not claimed. -/
def regClaim (off : Nat) : Option Nat :=
  if 0x50000 ≤ off && decide (off < 0x51000) then some resTIM
  else if 0x100000 ≤ off && decide (off < 0x200000) then some (resCH ((off - 0x100000) / 0x40000))
  else if 0x200000 ≤ off && decide (off < 0x200200) then some (resPAIR ((off - 0x200000) / 0x100))
  else if 0x210000 ≤ off && decide (off < 0x240000) then some resKEY
  else if 0x300000 ≤ off && decide (off < 0x300400) then some (resHQ (off % 0x100 / 64))
  else none

/-- A sticky bit of `SYS_CFG_ERR`, with the offset if the bits were all clear. -/
def cfgError (f : Fld) (off : Nat) (s : State) : State :=
  let s := if s.rd rSYS_CFG_ERR = 0#32 then s.wr rSYS_CFG_ERR_ADDR (BitVec.ofNat 32 off) else s
  s.setB f true

/-- A word with some of its bits taken from another. -/
def mix (mask new old : Word) : Word := (old &&& ~~~mask) ||| (new &&& mask)

/-! ### Fields of one register (R101) -/

/-- Fields of a register of an access code and a take-effect class. -/
def fieldBits (off : Nat) (a : Acc) (t : Take) : Word :=
  match regAt off with
  | some r => bitsOf (r.spec.fields.filter fun f => f.acc == a && f.take == t)
  | none => 0#32

/-- The value Live fields take from a written word: a warning threshold outside its range and a node address above 4,096 leave the
field (R62, R397), an operator request that is no code is taken as 0 (R286). -/
def liveTaken (off : Nat) (old w : Word) : Word :=
  if off = rPWR_THERM then (if outside 70 104 (fPWR_THERM_WARN_C.of w) then mix fPWR_THERM_WARN_C.mask old w else w)
  else if off = rFAB_CTRL then (if 4096 < fFAB_CTRL_ADDR.of w then mix fFAB_CTRL_ADDR.mask old w else w)
  else if off = rMRG_OPREQ 0 || off = rMRG_OPREQ 1 then (if [0x0, 0x8, 0xE, 0xF].contains ((fMRG_OPREQ_OPREQ 0).of w) then w else 0#32)
  else w

/-- The Live fields and the bits cleared by writing 1. -/
def writeLive (off : Nat) (w : Word) (s : State) : State :=
  let old := s.rd off
  let new := mix (fieldBits off .rw .live) (liveTaken off old w) old
  s.wr off (new &&& ~~~(w &&& fieldBits off .rw1c .none))

/-- The Dark fields: taken while the domain is DARK, otherwise left, with `DARK_WRITE` if the value differs. -/
def writeDark (off : Nat) (w : Word) (s : State) : State :=
  let m := fieldBits off .rw .dark
  if (w ^^^ s.rd off) &&& m = 0#32 then s
  else match regDomain off with
    | none => s
    | some d => if s.fld (fPD d) = 0 then s.wr off (mix m w (s.rd off)) else cfgError fSYS_CFG_ERR_DARK_WRITE off s

/-- The Cue fields: into the rehearsal bank of a session that master 1 owns, otherwise left, with `NO_SESSION` if the value differs
from the running one. -/
def writeCue (off : Nat) (w : Word) (s : State) : State :=
  match cueBlock off with
  | none => s
  | some b =>
    let m := cueBits off
    match s.session b with
    | some r =>
      if sameWho r.owner ⟨1, 0, 0⟩ then setSession b (fun r => { r with bank := bankWr r.bank off (mix m w (bankRd r.bank off)) }) s
      else if (w ^^^ s.rd off) &&& m = 0#32 then s else cfgError fSYS_CFG_ERR_NO_SESSION off s
    | none => if (w ^^^ s.rd off) &&& m = 0#32 then s else cfgError fSYS_CFG_ERR_NO_SESSION off s

/-! ### What a write sets going -/

/-- The channel of a channel-region offset, and the offset in its region. -/
def chOff (off : Nat) : Option (Nat × Nat) :=
  if 0x100000 ≤ off && decide (off < 0x200000) then some ((off - 0x100000) / 0x40000, (off - 0x100000) % 0x40000) else none

/-- Channel registers: the output mute and the bias hold (R113, R117), the receiver's restart (R152), error injection (R218), and the
payload-type and trace defects (R243, R244). -/
def chWritten (n k : Nat) (w : Word) (s : State) : State :=
  if k = 0x1000 then muteFollow n (if s.flag (fENG_CTRL_BIAS_HOLD n) then s.setB (fENG_STATUS_BIAS_LOCK n) false else s)
  else if k = 0x4040 then (if s.ready && bit w.toNat 31 then acqRestart n s else s)
  else if k = 0x6010 then injFollow n s
  else if k = 0x7000 then timDefect n (ptDefects n s)
  else s

/-- The adaptive loop is switched off (R48, R50): the voltage is 0.70 V, and the loop asks for none above 0.78 V. -/
def avsWritten (s : State) : State :=
  if s.flag fPWR_AVS_CTRL_AVS_EN then s
  else ((s.setF fPWR_AVS_STATUS_SETPOINT 16).setB fPWR_AVS_STATUS_AT_LIMIT false).setBoot { s.boot with avsBad := 0 }

/-- What a write through function 0 sets going, from the state before it. -/
def written (off : Nat) (w : Word) (was s : State) : State :=
  if 0x11000 ≤ off && decide (off < 0x11020) then fabWritten was.node (was.fld fFAB_CTRL_DOMAIN) s
  else if off = rHP_WIN_CTRL then { s with win := { s.win with dirty := true } }
  else if off = rPWR_WAKE_CTRL then wakeCtrl w s
  else if off = rPWR_AVS_CTRL then avsWritten s
  else if 0x50000 ≤ off && decide (off < 0x51000) then timWritten was.ppsSrc s
  else if off = rMON_CTRL then (if bit w.toNat 0 then monClear s else s)
  else if 0x60000 ≤ off && decide (off < 0x61000) then monWritten off s
  else if off = rMRG_OPREQ 0 then (if s.flag (fMRG_CFG_VALID 0) then mrgEval 0 s else s)
  else if off = rMRG_OPREQ 1 then (if s.flag (fMRG_CFG_VALID 1) then mrgEval 1 s else s)
  else match chOff off with
    | some (n, k) => chWritten n k w s
    | none => s

/-- A write through function 0 to a register every function shares (R101). -/
def writeShared (off : Nat) (w : Word) (s : State) : State :=
  let other := match regClaim off with | some r => s.claimedByOther ⟨1, 0, 0⟩ r | none => false
  if other && cfgBits off != 0#32 then cfgError fSYS_CFG_ERR_CLAIMED off s
  else
    let t := if off = rPWR_WAKE_CTRL then s else writeCue off w (writeDark off w (writeLive off w s))
    written off w s t

/-! ### Queues, pages and interrupts of one function (R106, R465, R469, R470) -/

/-- A write at an offset of the `MBX_REQ_*` and `MBX_RSP_*` layout of R106: RELEASE, REWIND and MARK act in this order. -/
def writeQueue (f : Pr) (hgc : Option Ch) (k : Nat) (w : Word) (s : State) : State :=
  if k = 0x00 then queueWrite f hgc w false s
  else if k = 0x04 then queueWrite f hgc w true s
  else if k = 0x0C then (if bit w.toNat 0 then onQueue f hgc cancelReq s else s)
  else if k = 0x28 then
    onQueue f hgc (fun m =>
      let m := if bit w.toNat 1 then rewindRsp m else m
      if bit w.toNat 0 then markRsp m else m) (if bit w.toNat 2 then releaseQueue f hgc s else s)
  else s

/-- A write of a function to a register it has for itself. -/
def writeOwn (f : Pr) (off : Nat) (w : Word) (s : State) : State :=
  let at1 := off + f.val * fnBase
  if off = 0x10C then armVectors f w s
  else if 0x2000 ≤ off && decide (off < 0x2200) && off % 16 = 12 then msixTake f (.vector (Fin.ofNat 32 ((off - 0x2000) / 16)) (bit w.toNat 0)) s
  else if 0x10000 ≤ off && decide (off < 0x11000) then writeQueue f none (off - 0x10000) w (writeLive at1 w s)
  else writeLive at1 w s

/-! ### The write (R101, R78, R464) -/

/-- Store a word of the download window (R74), least significant byte first. -/
def dlWrite (off : Nat) (w : Word) (s : State) : State :=
  let base := s.fld fSYS_DL_PAGE_PAGE * 65536 + (off - 0x80000)
  let dl := (span 0 4).foldl (fun m i => smSet (fun _ => 0#8) m (base + i) (BitVec.ofNat 8 (w.toNat / 2 ^ (8 * i)))) s.boot.dl
  { s with boot := { s.boot with dl := dl } }

/-- Writes before READY (R78): the page register of the download window, and in download wait the window itself; words to a mailbox
have no credit. `GO` is `DOWNLOAD_GO`. -/
def writeEarly (f : Pr) (off : Nat) (w : Word) (s : State) : State :=
  if !s.boot.linkUp || s.stage < 3 then s
  else if off = rMBX_REQ_DATA 0 || off = rMBX_REQ_END 0 then earlyWord f (off == rMBX_REQ_END 0) s
  else if f ≠ 0 then s
  else if off = rSYS_DL_PAGE then writeLive off w s
  else if s.stage = 8 && decide (0x80000 ≤ off) && decide (off < 0x90000) then dlWrite off w s
  else s

/-- The `CNT_HI` word of a counter: a 1 in WRAPPED clears the bit (R435). -/
def cntHiWrite (off : Nat) (w : Word) (s : State) : State :=
  match cntKeyAt s 0 off with
  | some sel => if off % 8 = 4 && bit w.toNat 31 then cntUnwrap sel s else s
  | none => s

/-- A write through function 0 to a register that is not its own. DESIGN CHOICE, assumption 115: no claim covers the HGC ports, whose
registers lie in the host lane region, which R339 claims with a quad, and belong to channels, which R92 claims. -/
def writeZero (off : Nat) (w : Word) (s : State) : State :=
  if 0x30000 ≤ off && decide (off < 0x3C000) then cntHiWrite off w s
  else if 0x301000 ≤ off && decide (off < 0x301100) then
    writeQueue 0 (some (ch4 ((off - 0x301000) / 64))) (off % 64) w (writeLive off w s)
  else if (off = rMEM_FLIP || off = rMEM_SFLIP) && bit w.toNat 31 then
    (if off = rMEM_FLIP then s.wr off ((w &&& 0x00FFFFFF#32) ||| 0x80000000#32) else s.wr off ((w &&& 0x000FFF7F#32) ||| 0x80000000#32))
  else writeShared off w s

/-- A BAR0 write. An offset that no table defines ignores it (R464); function 1 writes only its own registers (R85). -/
def regWrite (f : Pr) (off : Nat) (w : Word) (s : State) : State :=
  if off % 4 ≠ 0 || decide (fnBase ≤ off) then s
  else if !s.ready then writeEarly f off w s
  else if (regFind .perFn 0 off regTable).isSome then writeOwn f off w s
  else if f = 0 then writeZero off w s
  else s

/-- `REGISTER_WRITE`. -/
def execRegisterWrite (f : Pr) (off : Nat) (v : Word) (s : State) : Host.Outcome State Fault Refusal := ok (regWrite f off v s)

/-! ### Reads over I2C (R107, R78, R413) -/

/-- The registers that the port reads before READY. -/
def earlyRegs : List Nat :=
  [0x40, 0x44, 0x48, 0x4C, 0x40020, 0x40024, 0x40028, 0x4002C, 0x40030, 0x40034, 0x40038, 0x4003C, 0x40040, 0x40060, 0x40064, 0x40068,
    0x4006C, 0x40070, 0x40074, 0x40078, 0x4007C, 0x40114]

/-- Whether the port may read an offset: before READY those of R78 and R413, from READY every register but the command mailbox, the
per-function registers, the counter region and the download window (R107). -/
def State.i2cMay (s : State) (off : Nat) : Bool :=
  off % 4 == 0 && decide (off < fnBase) &&
    (if !s.ready then earlyRegs.contains off
     else !(0x10000 ≤ off && decide (off < 0x11000)) && !(0x30000 ≤ off && decide (off < 0x40000)) &&
       !(0x80000 ≤ off && decide (off < 0x90000)) &&
       !((regFind .perFn 0 off regTable).isSome && decide (off < 0x100000)))

/-- Word k of a record. -/
def CbRec.word (r : CbRec) (k : Nat) : Word := BitVec.ofNat 32 (unle (slice r.bytes (4 * k) 4))

/-- The freeze area, and the ring window at page 0 (R443); a slot that holds no record reads as zeros. -/
def State.cbWord (s : State) (off : Nat) : Word :=
  let r := if off < 0x24000 then s.cb.freeze[(off - 0x21000) / 32]? else smGet (fun _ => none) s.cb.ring ((off - 0x24000) / 32)
  match r with
  | some r => r.word (off % 32 / 4)
  | none => 0#32

/-- A status register of a function's own mailbox (R106) or interrupts (R469), as it reads: `MBX_REQ_STATUS`, `MBX_RSP_STATUS`,
`INT_STATUS`; another register of the function as it is stored. -/
def State.ownWord (s : State) (f : Pr) (off : Nat) : Word :=
  let m := s.mbx.get f
  if off = rMBX_REQ_STATUS 0 then
    BitVec.ofNat 32 (reqStatus 8192 (min 4 (s.outstanding ⟨1 + f.val, 0, 0⟩)) m) ||| s.rd (rMBX_REQ_STATUS f)
  else if off = rMBX_RSP_STATUS 0 then BitVec.ofNat 32 (rspStatus m) ||| s.rd (rMBX_RSP_STATUS f)
  else if off = rINT_STATUS 0 then BitVec.ofNat 32 (s.intStatus f)
  else s.shown (off + f.val * fnBase)

/-- A register of the layout of R106 of an HGC port, as it reads for a requester (0, 1 or 2 for I2C) without side effect. -/
def State.hgcWord (s : State) (who n k : Nat) : Word :=
  let m := (s.hgc.get (ch4 n)).mbx
  if k = 0x08 then BitVec.ofNat 32 (reqStatus 8192 0 { m with isOpen := s.hgcOpen n }) ||| s.rd (rHGC_TX_STATUS n)
  else if k = 0x24 then BitVec.ofNat 32 (rspStatus m) ||| s.rd (rHGC_RX_STATUS n) ||| s.rlOf who (rHGC_RX_STATUS n)
  else 0#32

/-- A register word as a read by requester 0, 1 or 2 (I2C) finds it, without the side effects of RC and RL registers. -/
def State.readReg (s : State) (who off : Nat) : Word :=
  if off = rSYS_STATUS then BitVec.ofNat 32 s.sysStatus
  else if off = rSYS_ID_NODE then BitVec.ofNat 32 s.node
  else if off = rCB_HEAD then s.cbHead
  else if 0x21000 ≤ off && decide (off < 0x23000) || 0x24000 ≤ off && decide (off < 0x2C000) then s.cbWord off
  else if 0x300200 ≤ off && decide (off < 0x300300) then s.hpStatus ((off - 0x300200) / 4)
  else if isRouteReg off then s.routeWord ((off - 0x14000) / 4 + 1)
  else if 0x301000 ≤ off && decide (off < 0x301100) then s.hgcWord who ((off - 0x301000) / 64) (off % 64)
  else match chOff off with
    | some (n, k) => if off = rHUB_CYCLE n then BitVec.ofNat 32 (s.hubCycleReg n) else if k = 0x7008 then BitVec.ofNat 32 (s.ohOf n).lastFn else s.shown off
    | none => s.shown off

/-- The companions that an RL register latches for a requester (R6). -/
def rlCompanion (off : Nat) : Bool :=
  [rSYS_ID_SERIAL_HI, rTIM_TOD_HI, rTIM_TOD_NS, rMON_Q1, rMON_Q2, rMON_Q3].contains off ||
    (span 0 4).any fun n => off == rOH_RX_FN_HI n || off == rOH_TX_FN_HI n

/-- A read by the I2C port, which is requester 2: the word goes to the outputs, and RC and RL registers act. -/
def i2cRead (off : Nat) (s : State) : State :=
  if off = rSYS_ID_SERIAL_LO then put (Config.serial.setWidth 32) (setRl 2 rSYS_ID_SERIAL_HI ((Config.serial >>> 32).setWidth 32) s)
  else if off = rTIM_TOD_LO then todLoRead 2 s
  else if off = rMON_Q0 then monQ0Read 2 s
  else if rlCompanion off then put (s.rlOf 2 off) s
  else if off = rPWR_SHUTDOWN_CAUSE then put (s.rd off) (s.unreg off)
  else if off = rMRG_OCC_MAX 0 || off = rMRG_OCC_MAX 1 then
    let p := (off - rMRG_OCC_MAX 0) / 0x100
    mrgOcc p (put (s.rd off) (s.unreg off))
  else if 0x301000 ≤ off && decide (off < 0x301100) && off % 64 = 0x20 then
    hgcRead 2 (ch4 ((off - 0x301000) / 64)) s
  else match chOff off with
    | some (n, k) =>
      if k = 0x7008 || k = 0x7010 then
        let v := if k = 0x7010 then (s.rd (rOH_TX_FN_LO n)).toNat + (s.rd (rOH_TX_FN_HI n)).toNat * 2 ^ 32 else (s.ohOf n).lastFn
        put (BitVec.ofNat 32 v) (setRl 2 (if k = 0x7010 then rOH_TX_FN_HI n else rOH_RX_FN_HI n) (BitVec.ofNat 32 (v / 2 ^ 32 % 65536)) s)
      else if off = rTST_PAT_ERR n then put (s.rd off) (s.unreg off)
      else put (s.readReg 2 off) s
    | none => put (s.readReg 2 off) s

/-- `I2C_REGISTER_READ` (command 0x01): 4 bytes of the register, or zeros with no side effect where the port may not read. -/
def execI2cRegisterRead (addr : Fin 128) (off : Nat) (s : State) : Host.Outcome State Fault Refusal :=
  if !s.i2cAt addr then ok s
  else
    let s := wakeFires 2 s
    let s := if s.i2cMay off then i2cRead off s else put 0#32 s
    ok { s with out := { s.out with bytes := le 4 s.out.data.toNat } }

end Sys2Proof.Machine
end

