-- ==== Sys2Proof/Machine/Dispatch.lean ====
section
/-! DEFINITION. One arm for each command: the dispatch from a command to its meaning. -/

namespace Sys2Proof.Machine

open Sys2Proof

/-- The effect of a command on everything but the queue. -/
def exec (i : Instr) (s : State) : Host.Outcome State Fault Refusal :=
  match i with
  | .powerOnReset asel => Sys2Proof.Machine.execPowerOnReset asel s
  | .resetNLow => Sys2Proof.Machine.execResetNLow s
  | .resetNRelease straps => Sys2Proof.Machine.execResetNRelease straps s
  | .perstNLow => Sys2Proof.Machine.execPerstNLow s
  | .linkUpAfterEndpointReset => Sys2Proof.Machine.execLinkUpAfterEndpointReset s
  | .watchdogExpiry => Sys2Proof.Machine.execWatchdogExpiry s
  | .brownOutHoldEnd => Sys2Proof.Machine.execBrownOutHoldEnd s
  | .railBelowThreshold r => Sys2Proof.Machine.execRailBelowThreshold r s
  | .railRemovedInDarkHouse r => Sys2Proof.Machine.execRailRemovedInDarkHouse r s
  | .receptacleRemoved => Sys2Proof.Machine.execReceptacleRemoved s
  | .receptacleFitted => Sys2Proof.Machine.execReceptacleFitted s
  | .temperatureCompare t => Sys2Proof.Machine.execTemperatureCompare t s
  | .thermtripRecheck t => Sys2Proof.Machine.execThermtripRecheck t s
  | .avsEvaluation move sense readback => Sys2Proof.Machine.execAvsEvaluation move sense readback s
  | .heaterUnregulated n temp => Sys2Proof.Machine.execHeaterUnregulated n temp s
  | .engineOvertemperature n temp => Sys2Proof.Machine.execEngineOvertemperature n temp s
  | .houseClockLocked locked => Sys2Proof.Machine.execHouseClockLocked locked s
  | .fusesLoaded good => Sys2Proof.Machine.execFusesLoaded good s
  | .pcieLinkUp => Sys2Proof.Machine.execPcieLinkUp s
  | .imageVerified img => Sys2Proof.Machine.execImageVerified img s
  | .downloadGo => Sys2Proof.Machine.execDownloadGo s
  | .hbmStartComplete good => Sys2Proof.Machine.execHbmStartComplete good s
  | .ready => Sys2Proof.Machine.execReady s
  | .startQueueDispatch => Sys2Proof.Machine.execStartQueueDispatch s
  | .quadReachesL0 c => Sys2Proof.Machine.execQuadReachesL0 c s
  | .channelActive n => Sys2Proof.Machine.execChannelActive n s
  | .malformedPacket w bytes => Sys2Proof.Machine.execMalformedPacket w bytes s
  | .unassignedDestPacket w via bytes => Sys2Proof.Machine.execUnassignedDestPacket w via bytes s
  | .preReadyRequest w bytes => Sys2Proof.Machine.execPreReadyRequest w bytes s
  | .mbxReqDataWrite f hgc w => Sys2Proof.Machine.execMbxReqDataWrite f hgc w s
  | .mbxReqEndWrite f hgc w => Sys2Proof.Machine.execMbxReqEndWrite f hgc w s
  | .mbxReqCancel f hgc => Sys2Proof.Machine.execMbxReqCancel f hgc s
  | .mbxRspDataRead f hgc => Sys2Proof.Machine.execMbxRspDataRead f hgc s
  | .mbxRspMark f hgc => Sys2Proof.Machine.execMbxRspMark f hgc s
  | .mbxRspRewind f hgc => Sys2Proof.Machine.execMbxRspRewind f hgc s
  | .mbxRspRelease f hgc => Sys2Proof.Machine.execMbxRspRelease f hgc s
  | .replyPacketQueued o notice => Sys2Proof.Machine.execReplyPacketQueued o notice s
  | .i2cRegisterRead addr off => Sys2Proof.Machine.execI2cRegisterRead addr off s
  | .i2cRequestWrite addr bytes stop => Sys2Proof.Machine.execI2cRequestWrite addr bytes stop s
  | .i2cReplyRead addr n => Sys2Proof.Machine.execI2cReplyRead addr n s
  | .i2cCreditRead addr => Sys2Proof.Machine.execI2cCreditRead addr s
  | .registerWrite f off v => Sys2Proof.Machine.execRegisterWrite f off v s
  | .commandTimeout w tag => Sys2Proof.Machine.execCommandTimeout w tag s
  | .nop q => Sys2Proof.Machine.execNop q s
  | .identify q => Sys2Proof.Machine.execIdentify q s
  | .claim q => Sys2Proof.Machine.execClaim q s
  | .release q => Sys2Proof.Machine.execRelease q s
  | .claimQuery q => Sys2Proof.Machine.execClaimQuery q s
  | .stageOpen q => Sys2Proof.Machine.execStageOpen q s
  | .stageSet q => Sys2Proof.Machine.execStageSet q s
  | .cue q => Sys2Proof.Machine.execCue q s
  | .cueCarriedOut block frame => Sys2Proof.Machine.execCueCarriedOut block frame s
  | .lineCueRxHalf n slots frame => Sys2Proof.Machine.execLineCueRxHalf n slots frame s
  | .stageAbandon q => Sys2Proof.Machine.execStageAbandon q s
  | .stageGet q => Sys2Proof.Machine.execStageGet q s
  | .accessSet q => Sys2Proof.Machine.execAccessSet q s
  | .sysReset q => Sys2Proof.Machine.execSysReset q s
  | .fwSvnCommit q blown => Sys2Proof.Machine.execFwSvnCommit q blown s
  | .dvIdent q => Sys2Proof.Machine.execDvIdent q s
  | .dvChanSet q => Sys2Proof.Machine.execDvChanSet q s
  | .dvPmRead q => Sys2Proof.Machine.execDvPmRead q s
  | .dvPmClear q => Sys2Proof.Machine.execDvPmClear q s
  | .dvAlarms q => Sys2Proof.Machine.execDvAlarms q s
  | .dvTxEnable q => Sys2Proof.Machine.execDvTxEnable q s
  | .dvRateSet q => Sys2Proof.Machine.execDvRateSet q s
  | .feedMeasurement n feed tx rx temp bias err => Sys2Proof.Machine.execFeedMeasurement n feed tx rx temp bias err s
  | .feedGoodAgain n => Sys2Proof.Machine.execFeedGoodAgain n s
  | .biasSearchLocked n => Sys2Proof.Machine.execBiasSearchLocked n s
  | .biasSampleHourly => Sys2Proof.Machine.execBiasSampleHourly s
  | .txRampComplete n => Sys2Proof.Machine.execTxRampComplete n s
  | .rxLosSet n => Sys2Proof.Machine.execRxLosSet n s
  | .rxLosCleared n => Sys2Proof.Machine.execRxLosCleared n s
  | .rotationBoundary n corr => Sys2Proof.Machine.execRotationBoundary n corr s
  | .understudyHandover n c => Sys2Proof.Machine.execUnderstudyHandover n c s
  | .sliceCompare n c found => Sys2Proof.Machine.execSliceCompare n c found s
  | .sliceTestComplete n c pass => Sys2Proof.Machine.execSliceTestComplete n c pass s
  | .dacFault n c => Sys2Proof.Machine.execDacFault n c s
  | .dacTestComplete n c pass => Sys2Proof.Machine.execDacTestComplete n c pass s
  | .biasRecentre q => Sys2Proof.Machine.execBiasRecentre q s
  | .sliceTest q => Sys2Proof.Machine.execSliceTest q s
  | .engReport q => Sys2Proof.Machine.execEngReport q s
  | .acquisitionStart n => Sys2Proof.Machine.execAcquisitionStart n s
  | .acquired n => Sys2Proof.Machine.execAcquired n s
  | .acqFail n far => Sys2Proof.Machine.execAcqFail n far s
  | .holdingExpiry n => Sys2Proof.Machine.execHoldingExpiry n s
  | .reacquiredFromHolding n => Sys2Proof.Machine.execReacquiredFromHolding n s
  | .modeSuspect n => Sys2Proof.Machine.execModeSuspect n s
  | .frequencyTrackingLost n freq => Sys2Proof.Machine.execFrequencyTrackingLost n freq s
  | .acqRestart n => Sys2Proof.Machine.execAcqRestart n s
  | .lineAcquire q => Sys2Proof.Machine.execLineAcquire q s
  | .lineReport q => Sys2Proof.Machine.execLineReport q s
  | .linePlan q => Sys2Proof.Machine.execLinePlan q s
  | .grantStart n g => Sys2Proof.Machine.execGrantStart n g s
  | .burstDetected n sc t level => Sys2Proof.Machine.execBurstDetected n sc t level s
  | .falseStart n sc t => Sys2Proof.Machine.execFalseStart n sc t s
  | .burstCapture n sc t level => Sys2Proof.Machine.execBurstCapture n sc t level s
  | .burstCommit n sc e => Sys2Proof.Machine.execBurstCommit n sc e s
  | .burstDescriptor n sc d => Sys2Proof.Machine.execBurstDescriptor n sc d s
  | .burstCollision n sc step => Sys2Proof.Machine.execBurstCollision n sc step s
  | .burstCodewordDecoded n sc cw => Sys2Proof.Machine.execBurstCodewordDecoded n sc cw s
  | .burstEnd n sc power afc cd => Sys2Proof.Machine.execBurstEnd n sc power afc cd s
  | .hubLosSet n => Sys2Proof.Machine.execHubLosSet n s
  | .upstreamFrameRelease n => Sys2Proof.Machine.execUpstreamFrameRelease n s
  | .stageDoorOpening n opens => Sys2Proof.Machine.execStageDoorOpening n opens s
  | .discoveryBurstReceived n msg collided rtd power freq => Sys2Proof.Machine.execDiscoveryBurstReceived n msg collided rtd power freq s
  | .stageDoorEntryAged n serial => Sys2Proof.Machine.execStageDoorEntryAged n serial s
  | .grantMapInForce n => Sys2Proof.Machine.execGrantMapInForce n s
  | .rogueLimitCheck n => Sys2Proof.Machine.execRogueLimitCheck n s
  | .falseStartRateHigh n => Sys2Proof.Machine.execFalseStartRateHigh n s
  | .leafBurstFire n k => Sys2Proof.Machine.execLeafBurstFire n k s
  | .leafDiscoveryFire n heard => Sys2Proof.Machine.execLeafDiscoveryFire n heard s
  | .leafGrantMessage n msg => Sys2Proof.Machine.execLeafGrantMessage n msg s
  | .leafMapAnnouncement n msg => Sys2Proof.Machine.execLeafMapAnnouncement n msg s
  | .leafRangingCorrection n msg => Sys2Proof.Machine.execLeafRangingCorrection n msg s
  | .leafJoinReply n a b => Sys2Proof.Machine.execLeafJoinReply n a b s
  | .leafSilenceOrder n msg => Sys2Proof.Machine.execLeafSilenceOrder n msg s
  | .leafDownstreamLost n => Sys2Proof.Machine.execLeafDownstreamLost n s
  | .hubSdList q => Sys2Proof.Machine.execHubSdList q s
  | .hubLeafAdmit q => Sys2Proof.Machine.execHubLeafAdmit q s
  | .hubLeafEvict q => Sys2Proof.Machine.execHubLeafEvict q s
  | .hubLeafSilence q => Sys2Proof.Machine.execHubLeafSilence q s
  | .hubReport q => Sys2Proof.Machine.execHubReport q s
  | .hubLeafReport q => Sys2Proof.Machine.execHubLeafReport q s
  | .leafJoin q => Sys2Proof.Machine.execLeafJoin q s
  | .frameTransmitted n host faults maps => Sys2Proof.Machine.execFrameTransmitted n host faults maps s
  | .lineFrameReceived n raw cws blocks coded deleted => Sys2Proof.Machine.execLineFrameReceived n raw cws blocks coded deleted s
  | .lofTimer n => Sys2Proof.Machine.execLofTimer n s
  | .fecWindowEnd n est => Sys2Proof.Machine.execFecWindowEnd n est s
  | .fecReport q => Sys2Proof.Machine.execFecReport q s
  | .fecSet q => Sys2Proof.Machine.execFecSet q s
  | .perSecondLatch => Sys2Proof.Machine.execPerSecondLatch s
  | .secondClassified n => Sys2Proof.Machine.execSecondClassified n s
  | .subrateOverflow n c cws => Sys2Proof.Machine.execSubrateOverflow n c cws s
  | .ohTraceSet q => Sys2Proof.Machine.execOhTraceSet q s
  | .ohTraceGet q => Sys2Proof.Machine.execOhTraceGet q s
  | .dmRun q => Sys2Proof.Machine.execDmRun q s
  | .perfLatchRead q => Sys2Proof.Machine.execPerfLatchRead q s
  | .fnLoRead who n tx => Sys2Proof.Machine.execFnLoRead who n tx s
  | .mergeCopyArrival p m t bad badEntry => Sys2Proof.Machine.execMergeCopyArrival p m t bad badEntry s
  | .copyDeclaredMissing p m fn t => Sys2Proof.Machine.execCopyDeclaredMissing p m fn t s
  | .farStorePrefetch p m fn errs => Sys2Proof.Machine.execFarStorePrefetch p m fn errs s
  | .ledgerEntryRetired p fn t => Sys2Proof.Machine.execLedgerEntryRetired p fn t s
  | .pairWaiting p => Sys2Proof.Machine.execPairWaiting p s
  | .wtrExpiry p => Sys2Proof.Machine.execWtrExpiry p s
  | .crossedTimer p => Sys2Proof.Machine.execCrossedTimer p s
  | .pairCreate q => Sys2Proof.Machine.execPairCreate q s
  | .pairDelete q => Sys2Proof.Machine.execPairDelete q s
  | .pairRequest q => Sys2Proof.Machine.execPairRequest q s
  | .pairReport q => Sys2Proof.Machine.execPairReport q s
  | .pairLedgerRead q => Sys2Proof.Machine.execPairLedgerRead q s
  | .occMaxRead p => Sys2Proof.Machine.execOccMaxRead p s
  | .keyEstablish q => Sys2Proof.Machine.execKeyEstablish q s
  | .keyInstall q => Sys2Proof.Machine.execKeyInstall q s
  | .keyActivate q => Sys2Proof.Machine.execKeyActivate q s
  | .keyBecomesCurrent c => Sys2Proof.Machine.execKeyBecomesCurrent c s
  | .keyIdentity q => Sys2Proof.Machine.execKeyIdentity q s
  | .keyZeroise q => Sys2Proof.Machine.execKeyZeroise q s
  | .sessionReport q => Sys2Proof.Machine.execSessionReport q s
  | .cipherReport q => Sys2Proof.Machine.execCipherReport q s
  | .tagVerdictResolved x => Sys2Proof.Machine.execTagVerdictResolved x s
  | .coreTestComplete c pass => Sys2Proof.Machine.execCoreTestComplete c pass s
  | .idleUnderstudyTest faulty => Sys2Proof.Machine.execIdleUnderstudyTest faulty s
  | .laneTrainingComplete l mark own partner snr ber => Sys2Proof.Machine.execLaneTrainingComplete l mark own partner snr ber s
  | .laneTrainingTimeout l => Sys2Proof.Machine.execLaneTrainingTimeout l s
  | .laneLos l => Sys2Proof.Machine.execLaneLos l s
  | .laneSignalReturn l => Sys2Proof.Machine.execLaneSignalReturn l s
  | .laneHoldExpiry l => Sys2Proof.Machine.execLaneHoldExpiry l s
  | .laneTestComplete l pass => Sys2Proof.Machine.execLaneTestComplete l pass s
  | .hgcPacketReceived n => Sys2Proof.Machine.execHgcPacketReceived n s
  | .hostPortReport q => Sys2Proof.Machine.execHostPortReport q s
  | .hostLaneReport q => Sys2Proof.Machine.execHostLaneReport q s
  | .hostRetrain q => Sys2Proof.Machine.execHostRetrain q s
  | .selectorEvaluation freq => Sys2Proof.Machine.execSelectorEvaluation freq s
  | .inputLoa x => Sys2Proof.Machine.execInputLoa x s
  | .inputFrequencyCheck x off1 off64 raw => Sys2Proof.Machine.execInputFrequencyCheck x off1 off64 raw s
  | .inputValidated x => Sys2Proof.Machine.execInputValidated x s
  | .inputWtrExpiry x => Sys2Proof.Machine.execInputWtrExpiry x s
  | .switchComplete off => Sys2Proof.Machine.execSwitchComplete off s
  | .acquiringBandwidthStep good => Sys2Proof.Machine.execAcquiringBandwidthStep good s
  | .ppsPulse b gap err => Sys2Proof.Machine.execPpsPulse b gap err s
  | .ppsMissing => Sys2Proof.Machine.execPpsMissing s
  | .internalSecond => Sys2Proof.Machine.execInternalSecond s
  | .timReport q => Sys2Proof.Machine.execTimReport q s
  | .timSet q => Sys2Proof.Machine.execTimSet q s
  | .todStep q => Sys2Proof.Machine.execTodStep q s
  | .todGet q => Sys2Proof.Machine.execTodGet q s
  | .todLoRead who => Sys2Proof.Machine.execTodLoRead who s
  | .patrolScrub e1 e2 written => Sys2Proof.Machine.execPatrolScrub e1 e2 written s
  | .sramScrub st k bad written lasting => Sys2Proof.Machine.execSramScrub st k bad written lasting s
  | .memoryErrorRecords => Sys2Proof.Machine.execMemoryErrorRecords s
  | .memFlipArm w => Sys2Proof.Machine.execMemFlipArm w s
  | .memSflipArm w => Sys2Proof.Machine.execMemSflipArm w s
  | .memRetire q => Sys2Proof.Machine.execMemRetire q s
  | .memLogRead q => Sys2Proof.Machine.execMemLogRead q s
  | .memPpr q => Sys2Proof.Machine.execMemPpr q s
  | .pprComplete failed => Sys2Proof.Machine.execPprComplete failed s
  | .memReport q => Sys2Proof.Machine.execMemReport q s
  | .fabricDataUnitReceived n msg => Sys2Proof.Machine.execFabricDataUnitReceived n msg s
  | .fabricControlUnitReceived n => Sys2Proof.Machine.execFabricControlUnitReceived n s
  | .fabricLinkDown n => Sys2Proof.Machine.execFabricLinkDown n s
  | .fabricUnitSent n => Sys2Proof.Machine.execFabricUnitSent n s
  | .advertisementPeriod => Sys2Proof.Machine.execAdvertisementPeriod s
  | .advertisementReceived n => Sys2Proof.Machine.execAdvertisementReceived n s
  | .routeExpiry x => Sys2Proof.Machine.execRouteExpiry x s
  | .addressOfferSent n leaf => Sys2Proof.Machine.execAddressOfferSent n leaf s
  | .addressOfferReceived n => Sys2Proof.Machine.execAddressOfferReceived n s
  | .forwardedReplyReceived n => Sys2Proof.Machine.execForwardedReplyReceived n s
  | .forwardedRequestTimeout tag => Sys2Proof.Machine.execForwardedRequestTimeout tag s
  | .fabReport q => Sys2Proof.Machine.execFabReport q s
  | .fabSet q => Sys2Proof.Machine.execFabSet q s
  | .fabAclSet q => Sys2Proof.Machine.execFabAclSet q s
  | .fabRouteRead q => Sys2Proof.Machine.execFabRouteRead q s
  | .pwrStateSet q => Sys2Proof.Machine.execPwrStateSet q s
  | .channelTransitionComplete n => Sys2Proof.Machine.execChannelTransitionComplete n s
  | .domainTransitionComplete d => Sys2Proof.Machine.execDomainTransitionComplete d s
  | .darkHouseCommit => Sys2Proof.Machine.execDarkHouseCommit s
  | .darkHouseAbort => Sys2Proof.Machine.execDarkHouseAbort s
  | .wakeNLow => Sys2Proof.Machine.execWakeNLow s
  | .i2cAddressMatch addr => Sys2Proof.Machine.execI2cAddressMatch addr s
  | .wakeTimerExpiry => Sys2Proof.Machine.execWakeTimerExpiry s
  | .wake => Sys2Proof.Machine.execWake s
  | .retentionBanksRestored bad => Sys2Proof.Machine.execRetentionBanksRestored bad s
  | .pwrReport q => Sys2Proof.Machine.execPwrReport q s
  | .pwrWakeSet q => Sys2Proof.Machine.execPwrWakeSet q s
  | .pwrAcctRead q => Sys2Proof.Machine.execPwrAcctRead q s
  | .acctClear => Sys2Proof.Machine.execAcctClear s
  | .shutdownCauseRead who => Sys2Proof.Machine.execShutdownCauseRead who s
  | .monitorConversion code => Sys2Proof.Machine.execMonitorConversion code s
  | .monitorRoundBoundary offs gain => Sys2Proof.Machine.execMonitorRoundBoundary offs gain s
  | .monitorCalibrationComplete => Sys2Proof.Machine.execMonitorCalibrationComplete s
  | .bandgapCheck => Sys2Proof.Machine.execBandgapCheck s
  | .monitorDiscardRecord => Sys2Proof.Machine.execMonitorDiscardRecord s
  | .monQ0Read who => Sys2Proof.Machine.execMonQ0Read who s
  | .qClear => Sys2Proof.Machine.execQClear s
  | .counterTick host => Sys2Proof.Machine.execCounterTick host s
  | .cntLoRead f off => Sys2Proof.Machine.execCntLoRead f off s
  | .serialLoRead who => Sys2Proof.Machine.execSerialLoRead who s
  | .bandwidthWindowEnd clients => Sys2Proof.Machine.execBandwidthWindowEnd clients s
  | .callboardRecordWritten => Sys2Proof.Machine.execCallboardRecordWritten s
  | .callboardArchiveWrite => Sys2Proof.Machine.execCallboardArchiveWrite s
  | .cntRead q => Sys2Proof.Machine.execCntRead q s
  | .cbRead q => Sys2Proof.Machine.execCbRead q s
  | .cntWindowRead q => Sys2Proof.Machine.execCntWindowRead q s
  | .lifeRead q => Sys2Proof.Machine.execLifeRead q s
  | .monQRead q => Sys2Proof.Machine.execMonQRead q s
  | .lifeStoreWrite => Sys2Proof.Machine.execLifeStoreWrite s
  | .lifeStoreWriteComplete => Sys2Proof.Machine.execLifeStoreWriteComplete s
  | .bistRun q => Sys2Proof.Machine.execBistRun q s
  | .bistComplete entries => Sys2Proof.Machine.execBistComplete entries s
  | .bistAbort => Sys2Proof.Machine.execBistAbort s
  | .loopbackSet q => Sys2Proof.Machine.execLoopbackSet q s
  | .patternSet q => Sys2Proof.Machine.execPatternSet q s
  | .patErrRead n => Sys2Proof.Machine.execPatErrRead n s
  | .repairApply q blown => Sys2Proof.Machine.execRepairApply q blown s
  | .captureArm q => Sys2Proof.Machine.execCaptureArm q s
  | .captureTrigger => Sys2Proof.Machine.execCaptureTrigger s
  | .captureDrained => Sys2Proof.Machine.execCaptureDrained s
  | .captureRead q => Sys2Proof.Machine.execCaptureRead q s
  | .captureCancel q => Sys2Proof.Machine.execCaptureCancel q s
  | .intRearm f v => Sys2Proof.Machine.execIntRearm f v s
  | .msixUnmask f ev => Sys2Proof.Machine.execMsixUnmask f ev s
  | .undefinedOpcode q opcode => Sys2Proof.Machine.execUndefinedOpcode q opcode s
  | .warmReset => Sys2Proof.Machine.execWarmReset s
  | .railBackInRange r => Sys2Proof.Machine.execRailBackInRange r s
  | .biasLockLost n loops => Sys2Proof.Machine.execBiasLockLost n loops s
  | .laneLockLost l => Sys2Proof.Machine.execLaneLockLost l s
  | .portLockChanged h am pcs skew => Sys2Proof.Machine.execPortLockChanged h am pcs skew s
  | .faultOrderedSetsFromHost h remote began => Sys2Proof.Machine.execFaultOrderedSetsFromHost h remote began s
  | .loaCleared x => Sys2Proof.Machine.execLoaCleared x s

end Sys2Proof.Machine
end

