-- ==== Sys2Proof/Machine/Step.lean ====
section
/-! DEFINITION. One step of the block: the command at the front of the queue, or an idle period. -/

namespace Sys2Proof.Machine

open Sys2Proof

/-- An idle period: 25 ns of the life timestamp and the time of day, one period of the always-on counting clock (R359), and nothing else.
DESIGN CHOICE, assumption 1. -/
def idle (s : State) : State := passTime (s.life + 25#64) s

/-- Take the command at the front of the queue and carry it out with the queue's rest; idle on an empty queue. -/
def step (s : State) : Host.Outcome State Fault Refusal :=
  match s.pending with
  | [] => .next (idle s)
  | c :: rest => exec c { s with pending := rest }

/-- The state with the command a word spells at the front of its queue; unchanged where the word spells none. -/
def State.withFetchWord (s : State) (nbits w : Nat) : State :=
  match Sys2Proof.decodeTableWord nbits w with
  | some c => { s with pending := c :: s.pending }
  | none => s

end Sys2Proof.Machine
end

