-- ==== Sys2Proof/Machine/Pins.lean ====
section
/-! DEFINITION. What the pins show (spec 02 R26, R30; spec 03 R46, R47): the table of R26 as a function of the state. Nothing of the part
depends on it but what is outside. -/

namespace Sys2Proof.Machine

open Sys2Proof

/-- Pins and signal groups of R26 whose state the part decides. -/
inductive Pin where
  | htx (l : Fin 64)
  | hrx (l : Fin 64)
  | pcieTx
  | resetN
  | perstN
  | i2c
  | spiClk
  | spiCsN
  | spiIo
  | intN
  | wakeN
  | thermtripN
  | tap
  | tdo
  | refIn (x : Fin 4)
  | ppsIn (b : Bool)
  | clkOut (i : Fin 2)
  | ppsOut
  | fpOut
  | avsClk
  | avsMdata
  | avsSdata
  deriving DecidableEq, Repr

/-- What a pin does. -/
inductive PinState where
  | low
  | high
  | highZ
  /-- high impedance with the 50 kOhm pull-up -/
  | pulledUp
  /-- an open-drain output that does not pull -/
  | released
  /-- differential output 30 mV p-p or less -/
  | quiet
  | transmitting
  /-- terminated, receiver off -/
  | terminated
  | receiving
  | electricalIdle
  /-- the PCIe link trains or is up -/
  | link
  /-- an output or bus that the part drives as its function requires -/
  | active
  /-- an input that is not looked at -/
  | ignored
  | acts
  /-- `RESET_N` low: the part is held -/
  | held
  /-- an I2C port that acknowledges its address -/
  | served
  /-- an I2C port that acknowledges no address -/
  | silent
  /-- the I2C address matcher, or `WAKE_N`, as a wake source -/
  | wakeSource
  | usable
  | unpowered
  /-- `TDO` but for the time of a shift -/
  | highZUnlessShifting
  /-- no defined state -/
  | undefined
  deriving DecidableEq, Repr

/-- The columns of R26, and READY. -/
inductive Phase where
  | reset | boot | ready | darkHouse
  deriving DecidableEq, Repr

/-- The column that applies. A part held by a brown-out or gated by a thermal shutdown with `RESET_N` high shows its reset states
(assumption 116). -/
def State.phase (s : State) : Phase :=
  if s.boot.resetLow then .reset
  else if s.pwr.asleep then .darkHouse
  else if s.stage = 0 then .reset
  else if s.ready then .ready
  else .boot

/-- Pads of `VDD_IO18` by R30; without it they hold no dark-house state. -/
def Pin.io18 : Pin → Bool
  | .resetN | .wakeN | .i2c | .intN | .thermtripN | .spiClk | .spiCsN | .spiIo | .ppsOut | .fpOut => true
  | _ => false

/-- The other pads of 1.8 V (R26), undefined with the rail out while the part is awake (R47). -/
def Pin.cmos18 : Pin → Bool
  | .perstN | .tap | .tdo | .ppsIn _ | .avsClk | .avsMdata | .avsSdata => true
  | p => p.io18

/-- A lane's transmitter runs (R26, R330): its quad has started and the lane is in neither L1 nor L2 and has not FAILED. -/
def State.laneDrives (s : State) (l : Nat) : Bool :=
  s.fld (fPD (24 + l / 16)) == 2 && s.laneSt l != 5 && s.laneSt l != 6 && s.laneSt l != 7

/-- What a pin does with its supply present (R26). -/
def State.pinDriven (s : State) (p : Pin) : PinState :=
  let ph := s.phase
  let up := decide (ph = .ready)
  match p with
  | .htx l => if ph = .darkHouse then .highZ else if up && s.laneDrives l then .transmitting else .quiet
  | .hrx l => if up && s.fld (fPD (24 + l.val / 16)) == 2 && s.laneSt l != 6 then .receiving else .terminated
  | .pcieTx => if ph = .reset || ph = .darkHouse || s.boot.perstLow then .electricalIdle else .link
  | .resetN => if s.boot.resetLow then .held else .acts
  | .perstN => if ph = .darkHouse then .ignored else .acts
  | .i2c => if ph = .darkHouse then .wakeSource else if s.i2cServed then .served else .silent
  | .spiClk => if ph = .boot || up then .active else .low
  | .spiCsN => if ph = .boot || up then .active else .high
  | .spiIo => if ph = .boot || up then .active else .pulledUp
  | .intN => if up && s.intN then .low else .released
  | .wakeN => if ph = .darkHouse then .wakeSource else .ignored
  | .thermtripN => if s.boot.thermtrip then .low else .released
  | .tap => if ph = .darkHouse then .unpowered else .usable
  | .tdo => if ph = .darkHouse then .highZ else .highZUnlessShifting
  | .refIn x => if up && s.fld (fTIM_IN_CFG_PRIO x) != 0 then .acts else .ignored
  | .ppsIn b => if up && s.ppsSrc == (if b then 2 else 1) then .acts else .ignored
  | .clkOut i => if up && s.flag (fTIM_CLKOUT_EN i) then .active else .highZ
  | .ppsOut => if up && s.flag fTIM_PPS_PPS_OUT_EN then .active else .low
  | .fpOut => if up && s.fpSrc != 0 then .active else .low
  | .avsClk => if ph = .boot || up then .active else .low
  | .avsMdata => if ph = .boot || up then .active else .high
  | .avsSdata => if ph = .boot || up then .active else .ignored

/-- What a pin does (R26), with no defined state where its supply is absent (R30, R46, R47). -/
def State.pin (s : State) (p : Pin) : PinState :=
  let lost := s.boot.railsLow.contains 11 || (s.boot.railsLow.contains 10 && (if s.pwr.asleep then p.io18 else p.cmos18))
  if lost then .undefined else s.pinDriven p

end Sys2Proof.Machine
end

