-- ==== Sys2Proof/WellFormed.lean ====
section
/-! DEFINITION. Which commands the outside world can send: operands within the fields that carry them. Commands
outside these checks are given a meaning too; the checks say what a sender can build. -/

namespace Sys2Proof

/-- A field of a fixed number of bytes. -/
def sized (n : Nat) (bs : List Byte) : Bool := bs.length == n

/-- A requester of R84: a master of the table; only a remote one has a node or a link. -/
def Who.wf (w : Who) : Bool :=
  decide (1 ≤ w.master) && decide (w.master ≤ 4) && decide (w.src < 65536) && decide (w.link < 4) &&
    (w.master == 4 || (w.src == 0 && w.link == 0))

/-- An origin: its requester, link and TAG (R81). -/
def Origin.wf (o : Origin) : Bool := o.who.wf && decide (o.via < 4) && decide (o.tag < 65536)

/-- A request whose header and parameters a packet of R81 can carry. -/
def Request.wf (q : Request) : Bool := q.org.wf && decide (q.rsvd < 65536) && decide (q.params.length ≤ 4076)

/-- The hard decisions of a codeword and its estimates have the code's length in bytes. -/
def Codeword.wf (n : Nat) (c : Codeword) : Bool := sized n c.hard && c.est.all (sized n)

/-- A codeword of a host port: at most 15 symbols corrected, and its data whole. -/
def HostCw.wf (c : HostCw) : Bool := (match c.fixed with | some k => decide (k ≤ 15) | none => true) && sized 643 c.data

/-- The checks of each command; a command with none is well-formed. -/
def Instr.wf : Instr → Bool
  | .powerOnReset _ => true
  | .resetNLow => true
  | .resetNRelease _ => true
  | .perstNLow => true
  | .linkUpAfterEndpointReset => true
  | .watchdogExpiry => true
  | .brownOutHoldEnd => true
  | .railBelowThreshold _ => true
  | .railRemovedInDarkHouse _ => true
  | .receptacleRemoved => true
  | .receptacleFitted => true
  | .temperatureCompare _ => true
  | .thermtripRecheck _ => true
  | .avsEvaluation _ _ _ => true
  | .heaterUnregulated _ temp => decide (temp < 256)
  | .engineOvertemperature _ temp => decide (temp < 256)
  | .houseClockLocked _ => true
  | .fusesLoaded _ => true
  | .pcieLinkUp => true
  | .imageVerified img => (sized 512 img.header && img.body.length == fld img.header 8 4) || !img.responds
  | .downloadGo => true
  | .hbmStartComplete _ => true
  | .ready => true
  | .startQueueDispatch => true
  | .quadReachesL0 _ => true
  | .channelActive _ => true
  | .malformedPacket w bytes => w.wf && decide (bytes.length ≤ 32768)
  | .unassignedDestPacket w via bytes => w.wf && decide (via < 4) && decide (bytes.length ≤ 4096)
  | .preReadyRequest w bytes => w.wf && decide (bytes.length ≤ 4096)
  | .mbxReqDataWrite _ _ _ => true
  | .mbxReqEndWrite _ _ _ => true
  | .mbxReqCancel _ _ => true
  | .mbxRspDataRead _ _ => true
  | .mbxRspMark _ _ => true
  | .mbxRspRewind _ _ => true
  | .mbxRspRelease _ _ => true
  | .replyPacketQueued o notice =>
    o.wf && (match notice with | some (opcode, status, ps) => decide (opcode < 65536) && decide (status < 256) && decide (ps.length ≤ 4076) | none => true)
  | .i2cRegisterRead _ off => decide (off < 2 ^ 32)
  | .i2cRequestWrite _ _ _ => true
  | .i2cReplyRead _ _ => true
  | .i2cCreditRead _ => true
  | .registerWrite _ off _ => decide (off < 0x400000) && off % 4 == 0
  | .commandTimeout w tag => w.wf && decide (tag < 65536)
  | .nop q => q.wf
  | .identify q => q.wf
  | .claim q => q.wf
  | .release q => q.wf
  | .claimQuery q => q.wf
  | .stageOpen q => q.wf
  | .stageSet q => q.wf
  | .cue q => q.wf
  | .cueCarriedOut block frame => decide (block < 0x12) && decide (frame < 2 ^ 48)
  | .lineCueRxHalf _ _ frame => decide (frame < 2 ^ 48)
  | .stageAbandon q => q.wf
  | .stageGet q => q.wf
  | .accessSet q => q.wf
  | .sysReset q => q.wf
  | .fwSvnCommit q _ => q.wf
  | .dvIdent q => q.wf
  | .dvChanSet q => q.wf
  | .dvPmRead q => q.wf
  | .dvPmClear q => q.wf
  | .dvAlarms q => q.wf
  | .dvTxEnable q => q.wf
  | .dvRateSet q => q.wf
  | .feedMeasurement _ _ _ _ temp bias err => decide (temp < 256) && bias.length == 6 && err.length == 6
  | .feedGoodAgain _ => true
  | .biasSearchLocked _ => true
  | .biasSampleHourly => true
  | .txRampComplete _ => true
  | .rxLosSet _ => true
  | .rxLosCleared _ => true
  | .rotationBoundary _ corr => corr.all fun x => decide (x.1 < 264)
  | .understudyHandover _ _ => true
  | .sliceCompare _ _ _ => true
  | .sliceTestComplete _ _ _ => true
  | .dacFault _ _ => true
  | .dacTestComplete _ _ _ => true
  | .biasRecentre q => q.wf
  | .sliceTest q => q.wf
  | .engReport q => q.wf
  | .acquisitionStart _ => true
  | .acquired _ => true
  | .acqFail _ far => decide (2 ≤ far) && decide (far ≤ 6)
  | .holdingExpiry _ => true
  | .reacquiredFromHolding _ => true
  | .modeSuspect _ => true
  | .frequencyTrackingLost _ _ => true
  | .acqRestart _ => true
  | .lineAcquire q => q.wf
  | .lineReport q => q.wf
  | .linePlan q => q.wf
  | .grantStart _ _ => true
  | .burstDetected _ _ _ _ => true
  | .falseStart _ _ _ => true
  | .burstCapture _ _ _ _ => true
  | .burstCommit _ _ _ => true
  | .burstDescriptor _ _ d => d.wf 128
  | .burstCollision _ _ _ => true
  | .burstCodewordDecoded _ _ cw => [2, 3, 4, 5].any fun r => cw.wf (256 * r)
  | .burstEnd _ _ _ _ _ => true
  | .hubLosSet _ => true
  | .upstreamFrameRelease _ => true
  | .stageDoorOpening _ _ => true
  | .discoveryBurstReceived _ msg _ _ _ _ => msg.wf 72
  | .stageDoorEntryAged _ _ => true
  | .grantMapInForce _ => true
  | .rogueLimitCheck _ => true
  | .falseStartRateHigh _ => true
  | .leafBurstFire _ _ => true
  | .leafDiscoveryFire _ _ => true
  | .leafGrantMessage _ msg => sized 8 msg
  | .leafMapAnnouncement _ msg => sized 8 msg
  | .leafRangingCorrection _ msg => sized 8 msg
  | .leafJoinReply _ a b => sized 8 a && sized 8 b
  | .leafSilenceOrder _ msg => sized 8 msg
  | .leafDownstreamLost _ => true
  | .hubSdList q => q.wf
  | .hubLeafAdmit q => q.wf
  | .hubLeafEvict q => q.wf
  | .hubLeafSilence q => q.wf
  | .hubReport q => q.wf
  | .hubLeafReport q => q.wf
  | .leafJoin q => q.wf
  | .frameTransmitted _ host faults _ => host.all (fun e => decide (e.1 < 64) && e.2.all HostCw.wf) && faults.all fun f => f.2.all fun r => r.all fun c => decide (c < 144)
  | .lineFrameReceived _ raw cws _ _ _ => decide (raw.length ≤ 16) && cws.all fun c => c.hard.isEmpty || c.wf 4773
  | .lofTimer _ => true
  | .fecWindowEnd _ _ => true
  | .fecReport q => q.wf
  | .fecSet q => q.wf
  | .perSecondLatch => true
  | .secondClassified _ => true
  | .subrateOverflow _ _ cws => cws.all HostCw.wf
  | .ohTraceSet q => q.wf
  | .ohTraceGet q => q.wf
  | .dmRun q => q.wf
  | .perfLatchRead q => q.wf
  | .fnLoRead _ _ _ => true
  | .mergeCopyArrival _ _ _ _ _ => true
  | .copyDeclaredMissing _ _ fn _ => decide (fn < 2 ^ 48)
  | .farStorePrefetch _ _ fn _ => decide (fn < 2 ^ 48)
  | .ledgerEntryRetired _ fn _ => decide (fn < 2 ^ 48)
  | .pairWaiting _ => true
  | .wtrExpiry _ => true
  | .crossedTimer _ => true
  | .pairCreate q => q.wf
  | .pairDelete q => q.wf
  | .pairRequest q => q.wf
  | .pairReport q => q.wf
  | .pairLedgerRead q => q.wf
  | .occMaxRead _ => true
  | .keyEstablish q => q.wf
  | .keyInstall q => q.wf
  | .keyActivate q => q.wf
  | .keyBecomesCurrent _ => true
  | .keyIdentity q => q.wf
  | .keyZeroise q => q.wf
  | .sessionReport q => q.wf
  | .cipherReport q => q.wf
  | .tagVerdictResolved x => decide (1 ≤ x) && decide (x < 65536)
  | .coreTestComplete _ _ => true
  | .idleUnderstudyTest faulty => faulty.all fun c => decide (c < 144)
  | .laneTrainingComplete _ _ _ _ _ _ => true
  | .laneTrainingTimeout _ => true
  | .laneLos _ => true
  | .laneSignalReturn _ => true
  | .laneHoldExpiry _ => true
  | .laneTestComplete _ _ => true
  | .hgcPacketReceived _ => true
  | .hostPortReport q => q.wf
  | .hostLaneReport q => q.wf
  | .hostRetrain q => q.wf
  | .selectorEvaluation _ => true
  | .inputLoa _ => true
  | .inputFrequencyCheck _ _ _ _ => true
  | .inputValidated _ => true
  | .inputWtrExpiry _ => true
  | .switchComplete _ => true
  | .acquiringBandwidthStep _ => true
  | .ppsPulse _ _ _ => true
  | .ppsMissing => true
  | .internalSecond => true
  | .timReport q => q.wf
  | .timSet q => q.wf
  | .todStep q => q.wf
  | .todGet q => q.wf
  | .todLoRead _ => true
  | .patrolScrub _ _ _ => true
  | .sramScrub _ _ _ _ _ => true
  | .memoryErrorRecords => true
  | .memFlipArm _ => true
  | .memSflipArm _ => true
  | .memRetire q => q.wf
  | .memLogRead q => q.wf
  | .memPpr q => q.wf
  | .pprComplete _ => true
  | .memReport q => q.wf
  | .fabricDataUnitReceived _ msg => msg.isEmpty || sized 8 msg
  | .fabricControlUnitReceived _ => true
  | .fabricLinkDown _ => true
  | .fabricUnitSent _ => true
  | .advertisementPeriod => true
  | .advertisementReceived _ => true
  | .routeExpiry x => decide (1 ≤ x) && decide (x ≤ 4096)
  | .addressOfferSent _ _ => true
  | .addressOfferReceived _ => true
  | .forwardedReplyReceived _ => true
  | .forwardedRequestTimeout tag => decide (tag < 65536)
  | .fabReport q => q.wf
  | .fabSet q => q.wf
  | .fabAclSet q => q.wf
  | .fabRouteRead q => q.wf
  | .pwrStateSet q => q.wf
  | .channelTransitionComplete _ => true
  | .domainTransitionComplete _ => true
  | .darkHouseCommit => true
  | .darkHouseAbort => true
  | .wakeNLow => true
  | .i2cAddressMatch _ => true
  | .wakeTimerExpiry => true
  | .wake => true
  | .retentionBanksRestored bad => bad.all fun b => decide (b < 8)
  | .pwrReport q => q.wf
  | .pwrWakeSet q => q.wf
  | .pwrAcctRead q => q.wf
  | .acctClear => true
  | .shutdownCauseRead _ => true
  | .monitorConversion _ => true
  | .monitorRoundBoundary _ _ => true
  | .monitorCalibrationComplete => true
  | .bandgapCheck => true
  | .monitorDiscardRecord => true
  | .monQ0Read _ => true
  | .qClear => true
  | .counterTick host => host.all fun e => decide (e.1 < 64) && e.2.all HostCw.wf
  | .cntLoRead _ off => decide (0x30000 ≤ off) && decide (off < 0x3C000) && off % 8 == 0
  | .serialLoRead _ => true
  | .bandwidthWindowEnd _ => true
  | .callboardRecordWritten => true
  | .callboardArchiveWrite => true
  | .cntRead q => q.wf
  | .cbRead q => q.wf
  | .cntWindowRead q => q.wf
  | .lifeRead q => q.wf
  | .monQRead q => q.wf
  | .lifeStoreWrite => true
  | .lifeStoreWriteComplete => true
  | .bistRun q => q.wf
  | .bistComplete _ => true
  | .bistAbort => true
  | .loopbackSet q => q.wf
  | .patternSet q => q.wf
  | .patErrRead _ => true
  | .repairApply q _ => q.wf
  | .captureArm q => q.wf
  | .captureTrigger => true
  | .captureDrained => true
  | .captureRead q => q.wf
  | .captureCancel q => q.wf
  | .intRearm _ _ => true
  | .msixUnmask _ _ => true
  | .undefinedOpcode q opcode => q.wf && decide (opcode < 65536)
  | .warmReset => true
  | .railBackInRange _ => true
  | .biasLockLost _ loops => decide (1 ≤ loops) && decide (loops < 64)
  | .laneLockLost _ => true
  | .portLockChanged _ _ _ _ => true
  | .faultOrderedSetsFromHost _ _ _ => true
  | .loaCleared _ => true

end Sys2Proof
end

