-- ==== Sys2Proof/Safety.lean ====
section
/-! DEFINITION. What a safe run is, and when a command completes: the terms the statements use. -/

namespace Sys2Proof.Machine

open Sys2Proof

/-- A command completes in a state that has a property: it answers that state as the next one. -/
def Completes (i : Instr) (s : State) (P : State → Prop) : Prop := ∃ t, exec i s = .next t ∧ P t

/-- A state does not stop: its step answers a next state. -/
def Runs (s : State) : Prop := ∃ t, step s = .next t

/-- A safe run: from a state whose waiting commands are all well-formed, no step stops. -/
def SafeRun (s : State) : Prop := (∀ c ∈ s.pending, c.wf = true) → Runs s

/-- The state with a request's packet taken out of the serial order (R95, R103). -/
def State.taken (s : State) (q : Request) (code : Nat) : State := (takeArrival q code s).2

/-- A request passes every check of R86 before its own conditions: its turn in the serial order (R95), READY, a packet of R81, the right to the opcode, no reserved header
byte, good parameters, no more than four outstanding, a free TAG, no resource claimed or held by another, and no entry to the dark
house in progress (R406). -/
def Cmd.passes (c : Cmd) (q : Request) (s : State) : Bool :=
  let t := s.taken q c.code
  decide (q.params.length ≤ 4076) && s.inTurn (arrivalIs q c.code) && t.ready && t.permits q.org.who c.code c.access && c.permit q t && q.rsvd == 0 &&
    (c.params q.params t).isNone && !ownBusy c (overLimit (takeArrival q c.code s).1 q t) q t &&
    (t.blocked q.org.who (c.touches q t)).isNone && t.pwr.entry.isNone

/-- A request command answers and takes effect: whenever the checks of R86 pass and the state meets the command's own condition, it
completes; the property speaks of the request, the state the command finds, its answer, and the state with its effect, in
which the answer is then placed. -/
def Does (c : Cmd) (x : Request → Instr) (pre : Request → State → Prop) (post : Request → State → Answer → State → Prop) : Prop :=
  ∀ (q : Request) (s : State), c.passes q s = true → pre q (s.taken q c.code) →
    ∃ (ans : Answer) (u : State), exec (x q) s = .next (settle (place q c.code ans u)) ∧ post q (s.taken q c.code) ans u

/-- A request command is turned away by its own condition (steps 5 and 6 of R86): a refusal, and no effect. -/
def Turned (c : Cmd) (x : Request → Instr) (pre : Request → State → Prop) (r : Request → State → Ref) : Prop :=
  ∀ (q : Request) (s : State), c.passes q s = true → pre q (s.taken q c.code) →
    exec (x q) s = .next (settle (refuse q.org c.code (r q (s.taken q c.code)) (s.taken q c.code)))

/-- What the recorder writes of an event, but for its time. -/
def CbRec.key (r : CbRec) : Nat × Nat × Nat × Nat := (r.code.toNat, r.block.toNat, r.p0.toNat, r.p1.toNat)

/-- Exactly these events, as code, block and parameters, were put to the recorder in this order between two states: each takes a
sequence number, and as long as the input has room each is in it (R440). -/
def Logged (s t : State) (l : List (Nat × Nat × Nat × Nat)) : Prop :=
  t.cb.seq = s.cb.seq + BitVec.ofNat 32 l.length ∧
  (s.cb.input.length + l.length ≤ 1024 →
    t.cb.input.map CbRec.key =
      s.cb.input.map CbRec.key ++ l.map fun e => (e.1 % 65536, e.2.1 % 256, e.2.2.1 % 4294967296, e.2.2.2 % 65536))

/-- Between two states no register but these has changed; `CB_STATUS` may, when the recorder's input is full. -/
def OnlyRegs (l : List Nat) (s t : State) : Prop := ∀ off, off ≠ rCB_STATUS → off ∉ l → t.rd off = s.rd off

/-- The register map is in canonical form: offsets strictly rising, no word listed that equals its reset value. -/
abbrev State.regsWf (s : State) : Prop := smWf resetWord s.regs = true

/-- HBM is in canonical form: codewords strictly rising, no zero codeword listed. -/
abbrev Memory.wf (m : SMap (BitVec 256)) : Bool := smWf (fun _ => 0#256) m

/-- What every step keeps beside the form of the register map: HBM in canonical form, the recorder's input within its 1,024 events
(R440), the eight timing inputs (R342), and those eight in the retention banks as well. -/
structure State.Inv (s : State) : Prop where
  mem : Memory.wf s.mem.hbm = true
  input : s.cb.input.length ≤ 1024
  inputs : s.tim.inputs.length = 8
  kept : ∀ b, s.banks = some b → b.tim.inputs.length = 8

/-- A counter took n events between two states (R432). -/
def Counted (k n : Nat) (s t : State) : Prop := t.counter k = (s.counter k + n) % 2 ^ 48

end Sys2Proof.Machine
end

