-- ==== Sys2Proof/Certificates/Slice0/Obligations.lean ====
section
/-! DEFINITION. Statements about the part for the provers: what each command does, what it leaves alone, and what every step keeps. -/

open Sys2Proof Sys2Proof.Machine

/-- Power-on (R63): the queue and everything in `PD00` cleared. `RESET_N` low is the model's reading (assumption 30); that the
power-on counts in `SINCE_POWER_ON` is assumption 31. -/
def Obligations.ResetAsTheSpecSays : Prop :=
  State.reset.pending = [] ∧ State.reset.claims = [] ∧ State.reset.rehearsals = [] ∧ State.reset.ops = [] ∧ State.reset.arrived = [] ∧
  State.reset.life = 0#64 ∧ State.reset.cb.seq = 0#32 ∧ State.reset.boot.resetLow = true ∧ State.reset.stage = 0 ∧
  State.reset.fld fSYS_RESET_CAUSE_KIND = 1 ∧ State.reset.fld fSYS_RESET_CAUSE_SINCE_POWER_ON = 1 ∧
  State.reset.mbx = Two.all Mailbox.closed ∧ State.reset.i2c = Mailbox.closed ∧
  State.reset.rd rPWR_DOMAIN_A = 42#32 ∧ State.reset.rd rSYS_ID_PART = 0x57543240#32 ∧ State.reset.rd rFAB_CTRL = 0x01000000#32 ∧
  State.reset.rd rTIM_CTRL = resetWord rTIM_CTRL

/-- First in, first out (R95). The idle period is the model's choice (assumption 1). -/
def Obligations.StepRunsTheFrontCommand : Prop :=
  (∀ (c : Instr) (rest : List Instr) (s : State), step { s with pending := c :: rest } = exec c { s with pending := rest }) ∧
  (∀ s : State, s.pending = [] → step s = .next { s with
    life := s.life + 25#64
    tim := { s.tim with
      ns := if s.boot.clock = true ∧ s.pwr.asleep = false then min 999999999 (s.tim.ns + ((s.life + 25#64).toNat - s.life.toNat)) else s.tim.ns } })

/-- Cold starts (R63, R67): 1 power-on, 2 pin, 3 brown-out, 4 warm, 5 watchdog; and the endpoint reset after READY (R65). -/
def Obligations.ColdStartsClear : Prop :=
  let cleared := fun (k : Nat) (s t : State) =>
    t.claims = [] ∧ t.rehearsals = [] ∧ t.ops = [] ∧ t.arrived = [] ∧ t.cph.keys = [] ∧ t.cph.kek = none ∧ t.banks = none ∧
      t.mbx = Two.all Mailbox.closed ∧ t.i2c = Mailbox.closed ∧ t.rd rPWR_DOMAIN_B = 0#32 ∧
      (∀ n : Ch, t.fld (fCH n) = 0) ∧ t.fld fSYS_RESET_CAUSE_KIND = k ∧ t.pending = s.pending
  (∀ (asel : Fin 4) (s : State), Completes (.powerOnReset asel) s fun t =>
    cleared 1 s t ∧ t.life = 0#64 ∧ t.cb.seq = 0#32 ∧ t.fld fPWR_SHUTDOWN_CAUSE_CAUSE = 0 ∧ t.boot.resetLow = true ∧ t.boot.asel = asel) ∧
  (∀ s : State, s.boot.resetLow = false → s.boot.powerDown = false → Completes .resetNLow s fun t =>
    cleared 2 s t ∧ t.boot.resetLow = true ∧ t.stage = 0 ∧ t.life = s.life ∧
      t.fld fPWR_SHUTDOWN_CAUSE_CAUSE = s.fld fPWR_SHUTDOWN_CAUSE_CAUSE) ∧
  (∀ s : State, s.boot.watchdog = true → Completes .watchdogExpiry s fun t => cleared 5 s t ∧ t.boot.linkUp = s.boot.linkUp ∧
    (t.stage = 3 ∨ t.stage = 8)) ∧
  (∀ (k : Nat) (s : State), s.boot.warm = some k → Completes .warmReset s fun t => cleared 4 s t ∧ t.boot.linkUp = s.boot.linkUp ∧
    (t.stage = 3 ∨ t.stage = 8)) ∧
  (∀ (r : Fin 12) (s : State), r.val < 2 → s.pwr.asleep = false → s.stage ≠ 0 → Completes (.railBelowThreshold r) s fun t =>
    cleared 3 s t ∧ t.fld fPWR_SHUTDOWN_CAUSE_CAUSE = 3 ∧ t.boot.brown = true ∧ t.stage = 0) ∧
  (∀ (r : Fin 12) (s : State), r.val < 2 → s.pwr.asleep = false → s.stage = 0 → Completes (.railBelowThreshold r) s fun t =>
    t.fld fPWR_SHUTDOWN_CAUSE_CAUSE = 3 ∧ t.boot.brown = true ∧ OnlyRegs [rPWR_SHUTDOWN_CAUSE] s t) ∧
  (∀ s : State, s.ready = true → s.boot.perstLow = false → Completes .perstNLow s fun t =>
    t.mbx = Two.all Mailbox.closed ∧ t.boot.linkUp = false ∧ t.boot.perstLow = true ∧ t.claims = s.claims ∧ t.rehearsals = s.rehearsals ∧
      t.ops = s.ops ∧ t.i2c = s.i2c ∧
      t.arrived = s.arrived.map (fun a => if a.who.master = 1 ∨ a.who.master = 2 then { a with size := 0 } else a) ∧
      (∀ l ∈ t.later, l.org.who.master ≠ 1 ∧ l.org.who.master ≠ 2) ∧ t.fab = s.fab ∧
      (∀ off, intReg off = false → t.rd off = s.rd off) ∧ (∀ off, intReg off = true → t.rd off = resetWord off)) ∧
  (∀ s : State, s.ready = true → s.boot.perstLow = true → Completes .linkUpAfterEndpointReset s fun t =>
    t.mbx = Two.all Mailbox.fresh ∧ t.boot.linkUp = true ∧ t.boot.perstLow = false ∧ t.claims = s.claims ∧
      t.flag (fMBX_RSP_STATUS_NOTICE_LOST 0) = true ∧ t.flag (fMBX_RSP_STATUS_NOTICE_LOST 1) = true ∧ t.epDiscards = 0)

/-- Boot stages of R68 and R77, in their order. The standards behind the signature and digest checks are opaque functions (assumption 6). -/
def Obligations.BootStagesComplete : Prop :=
  (∀ (x : Straps) (s : State), s.boot.resetLow = true → s.boot.railsLow = [] → s.boot.powerDown = false → s.boot.brown = false →
    Completes (.resetNRelease x) s fun t => t.stage = 1 ∧ t.fld (fPD 1) = 2 ∧ t.fld (fPD 2) = 2 ∧ t.boot.resetLow = false ∧
      t.boot.oscSel = x.osc ∧ t.boot.bootSel = x.bootSel ∧ t.boot.asel = x.asel ∧ t.boot.testEn = x.testEn) ∧
  (∀ s : State, s.stage = 1 → s.boot.clock = false →
    Completes (.houseClockLocked true) s (fun t => t.boot.clock = true ∧ t.regs = s.regs) ∧
    Completes (.houseClockLocked false) s (fun t => t.stage = 15 ∧ t.fld fSYS_BOOT_STATUS_ERR = 1)) ∧
  (∀ s : State, s.stage = 1 → s.boot.clock = true →
    Completes (.fusesLoaded true) s (fun t => t.fld fSYS_BOOT_STATUS_FUSED_SVN = s.boot.svn % 256 ∧ (t.stage = 3 ∨ t.stage = 8)) ∧
    Completes (.fusesLoaded false) s (fun t => t.stage = 15 ∧ t.fld fSYS_BOOT_STATUS_ERR = 2)) ∧
  (∀ (img : Image) (x : Bool) (r : List Bool) (s : State), s.stage = 3 → s.boot.slots = x :: r → Completes (.imageVerified img) s fun t =>
    (imageError s.boot.svn s.boot.revoked img = none → t.stage = 5 ∧ t.boot.watchdog = true ∧ t.flag fSYS_BOOT_STATUS_SLOT = x ∧
      t.flag fSYS_BOOT_STATUS_SOURCE = false ∧ t.fld fSYS_BOOT_STATUS_IMAGE_SVN = fld img.header 6 1 % 256) ∧
    (∀ e : Nat, imageError s.boot.svn s.boot.revoked img = some e → t.boot.slots = r ∧ t.stage = (if r.isEmpty then 8 else 3) ∧
      t.fld fSYS_BOOT_STATUS_ERR = e ∧ t.boot.log.getLast? = some (e, if e = 3 then 3 else 4, s.life))) ∧
  (∀ s : State, s.stage = 8 → s.boot.linkUp = true → Completes .downloadGo s fun t =>
    (imageError s.boot.svn s.boot.revoked (downloaded s) = none → t.stage = 5 ∧ t.boot.watchdog = true ∧ t.flag fSYS_BOOT_STATUS_SOURCE = true) ∧
    (∀ e : Nat, imageError s.boot.svn s.boot.revoked (downloaded s) = some e → t.stage = 8 ∧ t.fld fSYS_BOOT_STATUS_ERR = e ∧ t.boot.dl = s.boot.dl)) ∧
  (∀ (svn revoked : Nat) (img : Image), imageError svn revoked img = none ↔ img.responds = true ∧ img.header.length = 512 ∧
    img.header.take 4 = [0x57#8, 0x54#8, 0x41#8, 0x46#8] ∧ fld img.header 4 2 = 1 ∧ (∀ b ∈ slice img.header 161 7 ++ slice img.header 264 248, b = 0#8) ∧
    fld img.header 8 4 ≤ 2 ^ 24 - 512 ∧ fld img.header 7 1 ≤ 3 ∧ bit revoked (fld img.header 7 1) = false ∧ keyOk img.header = true ∧
    sigOk img.header = true ∧ bodyOk img.header img.body = true ∧ svn ≤ fld img.header 6 1) ∧
  (∀ s : State, s.stage = 5 → s.boot.waking = false → s.fld (fPD 30) = 3 → s.hbmLow = false →
    Completes (.hbmStartComplete true) s (fun t => t.stage = 6) ∧
    Completes (.hbmStartComplete false) s (fun t => t.stage = 6 ∧ t.flag fSYS_BOOT_STATUS_HBM_FAIL = true ∧
      t.fld fSYS_BOOT_STATUS_ERR = 9 ∧ t.fld (fPD 30) = 0 ∧ t.fld (fPD 31) = 0)) ∧
  (∀ s : State, s.stage = 6 → s.boot.waking = false →
    Completes .ready s fun t => t.ready = true ∧ t.mbx = ⟨{ Mailbox.fresh with dropping := s.mbx.p0.dropping }, { Mailbox.fresh with dropping := s.mbx.p1.dropping }⟩ ∧
      t.i2c = { Mailbox.fresh with dropping := s.i2c.dropping } ∧ t.store.cur.boots = s.store.cur.boots + 1 ∧ t.flag (fINT_STATUS_MBX_CREDIT 0) = true ∧ t.flag (fINT_STATUS_MBX_CREDIT 1) = true) ∧
  (∀ s : State, s.stage ≠ 0 → s.boot.perstLow = false → Completes .pcieLinkUp s fun t => t.boot.linkUp = true ∧ t.regs = s.regs)

/-- Supplies and temperature (spec 03). The forced darkening is the model's `chForce`, the lane stop its `railQuad`, the HBM stop its
`railHbm`. -/
def Obligations.SupplyEventsComplete : Prop :=
  (∀ (r : Fin 12) (s : State), s.pwr.asleep = false → 2 ≤ r.val → r.val < 6 →
    exec (.railBelowThreshold r) s = .next (settle (each (span 0 4) (fun n t => railChannel r n t) (railOut r s)))) ∧
  (∀ (r : Fin 12) (s : State), s.pwr.asleep = false → 6 ≤ r.val → r.val < 8 →
    exec (.railBelowThreshold r) s = .next (settle (each (span 0 4) (fun q t => railQuad r q t) (railOut r s)))) ∧
  (∀ (r : Fin 12) (s : State), s.pwr.asleep = false → 8 ≤ r.val → r.val < 10 →
    exec (.railBelowThreshold r) s = .next (settle (railHbm (railOut r s)))) ∧
  (∀ (r : Fin 12) (s : State), s.pwr.asleep = true → r.val < 10 → Completes (.railRemovedInDarkHouse r) s fun t =>
    t.boot.powerDown = true ∧ t.boot.railsLow.contains r.val = true ∧ t.regs = s.regs ∧ t.banks = s.banks ∧ t.ops = [] ∧ t.pwr.wake = none) ∧
  (∀ s : State, s.pwr.asleep = true →
    Completes (.railRemovedInDarkHouse 10) s (fun t => t.boot.railsLow.contains 10 = true ∧ t.regs = s.regs ∧ t.banks = s.banks ∧ t.ops = s.ops ∧ t.pwr = s.pwr) ∧
    Completes (.railRemovedInDarkHouse 11) s (fun t => t.boot.railsLow.contains 11 = true ∧ t.boot.resetLow = true ∧ t.banks = none ∧ t.ops = [] ∧ t.life = 0#64)) ∧
  (∀ (r : Fin 12) (s : State), s.boot.railsLow.contains r.val = true → Completes (.railBackInRange r) s fun t =>
    t.boot.railsLow.contains r.val = false ∧ t.regs = s.regs ∧ (r.val ≠ 10 ∨ s.pwr.asleep = false → t.pwr = s.pwr)) ∧
  (∀ s : State, s.boot.brown = true → s.coreLow = false → s.boot.resetLow = false → s.boot.gated = false →
    Completes .brownOutHoldEnd s fun t => t.boot.brown = false ∧ t.stage = 1 ∧ t.fld (fPD 1) = 2 ∧ t.fld (fPD 2) = 2) ∧
  (∀ s : State, s.boot.brown = true → s.coreLow = false → (s.boot.resetLow = true ∨ s.boot.gated = true) →
    Completes .brownOutHoldEnd s fun t => t.boot.brown = false ∧ t.regs = s.regs) ∧
  (∀ s : State, s.flag fPWR_CH_STATE_RECEPTACLE = true → ∃ u : State, exec .receptacleRemoved s = .next (settle (each (span 0 4) chForce u)) ∧
    u.flag fPWR_CH_STATE_RECEPTACLE = false ∧ (s.firmware = true → u.cb.seq = s.cb.seq + 1#32)) ∧
  (∀ s : State, Completes .receptacleFitted s fun t => t.flag fPWR_CH_STATE_RECEPTACLE = true ∧ (∀ off, off ≠ rPWR_CH_STATE → t.rd off = s.rd off) ∧
    ∀ n : Ch, t.fld (fCH n) = s.fld (fCH n)) ∧
  (∀ (x : Temps) (s : State), s.stage ≠ 0 → tripCause x = none → Completes (.temperatureCompare x) s fun t =>
    (t.rd rPWR_THERM).extractLsb' 16 16 = BitVec.ofInt 16 x.die ∧
      t.flag fMEM_STATUS_HOT = ((s.fld (fPD 30) != 0 && decide (680 < x.hbmA)) || (s.fld (fPD 31) != 0 && decide (680 < x.hbmB))) ∧
      (s.boot.warnHot = false → (s.fld fPWR_THERM_WARN_C : Int) * 8 ≤ x.die → t.flag fPWR_THERM_WARN = true) ∧
      (s.boot.critHot = false → 840 ≤ x.die → t.flag fPWR_THERM_CRIT = true)) ∧
  (∀ (x : Temps) (c : Nat) (s : State), s.stage ≠ 0 → tripCause x = some c → Completes (.temperatureCompare x) s fun t =>
    t.fld fPWR_SHUTDOWN_CAUSE_CAUSE = c ∧ t.boot.thermtrip = true ∧ t.boot.gated = true ∧ t.cph.keys = [] ∧ t.ops = [] ∧ t.stage = 0) ∧
  (∀ (x : Temps) (c : Nat) (s : State), s.stage = 1 → tripCause x = some c → Completes (.thermtripRecheck x) s fun t =>
    t.boot.thermtrip = true ∧ t.boot.gated = true ∧ t.stage = 0) ∧
  (∀ (n : Ch) (temp : Nat) (s : State), s.chDark n = false → Completes (.heaterUnregulated n temp) s fun t =>
    t.flag (fENG_STATUS_UNREG n) = true ∧ t.fld (fCH n) = s.fld (fCH n) ∧ t.cb.seq = s.cb.seq + 1#32) ∧
  (∀ (n : Ch) (temp : Nat) (s : State), s.chDark n = false → 164 ≤ temp → ∃ u : State,
    exec (.engineOvertemperature n temp) s = .next (settle (chForce n u)) ∧ u.cb.seq = s.cb.seq + 1#32 ∧ u.fld (fCH n) = s.fld (fCH n)) ∧
  (∀ (f : Fin 3) (s : State), f.val < 2 → s.ready = true → Completes (.shutdownCauseRead f) s fun t =>
    t.out.data = s.rd rPWR_SHUTDOWN_CAUSE ∧ t.rd rPWR_SHUTDOWN_CAUSE = 0#32 ∧ ∀ off, off ≠ rPWR_SHUTDOWN_CAUSE → t.rd off = s.rd off) ∧
  (∀ (s : State), s.i2cServed = true → Completes (.shutdownCauseRead 2) s fun t =>
    t.out.bytes = le 4 (s.rd rPWR_SHUTDOWN_CAUSE).toNat ∧ t.rd rPWR_SHUTDOWN_CAUSE = 0#32) ∧
  (∀ (move : Int) (sense back : Nat) (s : State), s.ready = true → s.flag fPWR_AVS_CTRL_AVS_EN = true → s.flag fPWR_AVS_CTRL_HOLD = false →
    s.flag fPWR_AVS_STATUS_READBACK_ERR = false → s.test.bist = none → s.fld fPWR_AVS_STATUS_SETPOINT ≤ 32 →
    ((back : Int) - (6200 + 50 * clampI 0 32 ((s.fld fPWR_AVS_STATUS_SETPOINT : Int) + clampI (-1) 1 move))).natAbs ≤ 150 →
    Completes (.avsEvaluation move sense back) s fun t =>
      (t.fld fPWR_AVS_STATUS_SETPOINT : Int) = clampI 0 32 ((s.fld fPWR_AVS_STATUS_SETPOINT : Int) + clampI (-1) 1 move) ∧
        t.flag fPWR_AVS_STATUS_READBACK_ERR = false) ∧
  (∀ (p : Pin) (s : State), s.boot.railsLow.contains 10 = true → s.pwr.asleep = false → p.cmos18 = true → s.pin p = .undefined) ∧
  (∀ s : State, s.boot.railsLow = [] → s.boot.resetLow = true → (∀ l, s.pin (.htx l) = .quiet ∧ s.pin (.hrx l) = .terminated) ∧
    s.pin .resetN = .held ∧ s.pin .spiClk = .low ∧ s.pin .spiCsN = .high ∧ s.pin .intN = .released ∧ s.pin .wakeN = .ignored ∧
    s.pin .avsClk = .low ∧ s.pin .avsMdata = .high ∧ s.pin .ppsOut = .low ∧ s.pin .fpOut = .low ∧ ∀ i, s.pin (.clkOut i) = .highZ)

/-- Steps 2 to 6 of R86 for every request command (step 1 is `UNDEFINED_OPCODE`), as the prompter takes the request up. Then the record and the refusal parameter of R88. -/
def Obligations.RequestsFollowTheChecks : Prop :=
  (∀ (c : Cmd) (q : Request) (s : State), q.params.length ≤ 4076 → s.inTurn (arrivalIs q c.code) = false → serve c q s = .next (settle s)) ∧
  (∀ (c : Cmd) (q : Request) (s : State), q.params.length ≤ 4076 → s.inTurn (arrivalIs q c.code) = true →
    let t := s.taken q c.code
    let out := fun (r : Ref) => Host.Outcome.next (settle (refuse q.org c.code r t))
    let may := t.permits q.org.who c.code c.access && c.permit q t
    let free := !ownBusy c (overLimit (takeArrival q c.code s).1 q t) q t
    (t.ready = false → serve c q s = .next (settle (count cPKT_BAD t))) ∧
    (t.ready = true → may = false → serve c q s = out { status := stNOT_PERMITTED }) ∧
    (t.ready = true → may = true → q.rsvd ≠ 0 → serve c q s = out { status := stBAD_PARAM, off := 0xFFFF }) ∧
    (t.ready = true → may = true → q.rsvd = 0 → ∀ off, c.params q.params t = some off → serve c q s = out { status := stBAD_PARAM, off := off }) ∧
    (t.ready = true → may = true → q.rsvd = 0 → c.params q.params t = none → free = false →
      serve c q s = out { status := stBUSY, b0 := q.org.who.master }) ∧
    (t.ready = true → may = true → q.rsvd = 0 → c.params q.params t = none → free = true → ∀ m, t.blocked q.org.who (c.touches q t) = some m →
      serve c q s = out { status := stBUSY, b0 := m }) ∧
    (t.ready = true → may = true → q.rsvd = 0 → c.params q.params t = none → free = true → t.blocked q.org.who (c.touches q t) = none →
      t.pwr.entry.isSome = true → serve c q s = out { status := stWRONG_STATE }) ∧
    (c.passes q s = true → ∀ r, c.body q t = .error r → serve c q s = out r) ∧
    (c.passes q s = true → ∀ u ans, c.body q t = .ok (u, ans) → serve c q s = .next (settle (place q c.code ans u)))) ∧
  (∀ (o : Origin) (code : Nat) (r : Ref) (s : State),
    Logged s (refuse o code r s) [(0x0100 + r.status, 0, r.p0 o.who.master, code)] ∧
      (refuse o code r s).counter cREFUSED = (s.counter cREFUSED + 1) % 2 ^ 48 ∧
      bits (r.p0 o.who.master) 2 0 = o.who.master % 8 ∧ bits (r.p0 o.who.master) 3 3 = 0 ∧ bits (r.p0 o.who.master) 11 4 = r.b0 % 256 ∧
      bits (r.p0 o.who.master) 19 12 = r.b1 % 256 ∧ bits (r.p0 o.who.master) 31 20 = (if r.off = 0xFFFF then 0xFFF else r.off % 4096)) ∧
  (∀ (f : Pr) (o : Origin) (code : Nat) (r : Ref) (s : State), o.who.master = 1 + f.val → (s.mbx.get f).isOpen = true →
    let ws := toWords (packet kReply 32 s.node s.node o.tag code r.status o.who.master ([BitVec.ofNat 8 r.b0, BitVec.ofNat 8 r.b1] ++ le 2 r.off))
    let m := s.mbx.get f
    let u := refuse o code r s
    (m.wait = [] → m.rsp.length + ws.length ≤ 8192 →
      (u.mbx.get f).rsp = m.rsp ++ marked ws ∧ (u.mbx.get f).wait = [] ∧ u.flag (fINT_STATUS_MBX_RSP f) = true) ∧
    (m.wait ≠ [] ∨ 8192 < m.rsp.length + ws.length → (u.mbx.get f).rsp = m.rsp ∧ (u.mbx.get f).wait = m.wait ++ [ws] ∧ u.regs = (refuseRecord o code r s).regs)) ∧
  (∀ (q : Request) (code : Nat) (s : State), definedOpcodes.contains code = false → s.inTurn (arrivalIs q code) = true → (s.taken q code).ready = true →
    exec (.undefinedOpcode q code) s = .next (settle (refuse q.org code { status := stBAD_OPCODE } (s.taken q code)))) ∧
  (∀ (q : Request) (code : Nat) (s : State), definedOpcodes.contains code = false → s.inTurn (arrivalIs q code) = true → (s.taken q code).ready = false →
    Completes (.undefinedOpcode q code) s fun t => t.counter cPKT_BAD = (s.counter cPKT_BAD + 1) % 2 ^ 48 ∧ t.cb = s.cb)

/-- The frame every request command shares; what is said of a command's own effect leaves these out. -/
def Obligations.AnsweringTouchesOnlyQueues : Prop :=
  (∀ (q : Request) (code : Nat) (s : State),
    let t := s.taken q code
    t = { s with arrived := t.arrived, mbx := t.mbx, i2c := t.i2c, fab := t.fab, regs := t.regs } ∧
      OnlyRegs [rINT_STATUS 0, rINT_STATUS 1] s t ∧ (∀ a ∈ t.arrived, a ∈ s.arrived) ∧ t.fab.fwd = s.fab.fwd ∧ t.fab.routes = s.fab.routes ∧
      (∀ a, (takeArrival q code s).1 = some a → s.arrived = a :: t.arrived)) ∧
  (∀ (o : Origin) (kind code status : Nat) (ps : List Byte) (s : State),
    let t := answer o kind code status ps s
    t = { s with mbx := t.mbx, i2c := t.i2c, fab := t.fab, cnt := t.cnt, regs := t.regs, epDiscards := t.epDiscards, later := t.later } ∧
      OnlyRegs [rINT_STATUS 0, rINT_STATUS 1, rMBX_RSP_STATUS 0, rMBX_RSP_STATUS 1] s t ∧ t.fab.fwd = s.fab.fwd ∧ t.fab.routes = s.fab.routes) ∧
  (∀ s : State, settle s = { s with msix := (settle s).msix, out := { s.out with msix := (settle s).out.msix } })

/-- The system opcodes of R91 and the claim rules of R93. R108. What `DV_PM_CLEAR` does to the completed bins is assumption 52. -/
def Obligations.SystemRequests : Prop :=
  (
  (Does cmdNop .nop (fun _ _ => True) fun q t ans u => ans = .done q.params ∧ u = t) ∧
  (Does cmdIdentify .identify (fun _ _ => True) fun _ t ans u => u = t ∧ ∃ ps, ans = .done ps ∧ ps.length = 12 ∧
    fld ps 0 4 = (t.rd rSYS_ID_PART).toNat ∧ fld ps 4 1 = t.fld fSYS_ID_REV_STEPPING ∧ fld ps 5 1 = 0 ∧ fld ps 6 2 = t.node ∧
    fld ps 8 4 = (t.rd rSYS_ID_FW).toNat) ∧
  (Does cmdClaim .claim (fun q t => t.holder (fld q.params 0 1) = none) fun q t ans u =>
    u.holder (fld q.params 0 1) = some q.org.who ∧ (∀ r, r ≠ fld q.params 0 1 → u.holder r = t.holder r) ∧ u = { t with claims := u.claims } ∧
      ans = .done (holderBytes (some q.org.who))) ∧
  (Does cmdClaim .claim (fun q t => t.holder (fld q.params 0 1) = some q.org.who) fun q t ans u =>
    u = t ∧ ans = .done (holderBytes (some q.org.who))) ∧
  (∀ h : Who, Turned cmdClaim .claim (fun q t => t.holder (fld q.params 0 1) = some h ∧ h ≠ q.org.who ∧ bit (fld q.params 1 1) 0 = false)
    fun _ _ => { status := stBUSY, b0 := h.master }) ∧
  (∀ h : Who, Does cmdClaim .claim (fun q t => t.holder (fld q.params 0 1) = some h ∧ h ≠ q.org.who ∧ bit (fld q.params 1 1) 0 = true)
    fun q t ans u => u.holder (fld q.params 0 1) = some q.org.who ∧ (∀ r, r ≠ fld q.params 0 1 → u.holder r = t.holder r) ∧
      ans = .done (holderBytes (some q.org.who)) ∧
      (∀ x ∈ u.rehearsals, fld q.params 0 1 ∈ t.blockClaims x.block → x.owner = q.org.who)) ∧
  (Does cmdRelease .release (fun q t => t.holder (fld q.params 0 1) = some q.org.who) fun q t ans u =>
    u.holder (fld q.params 0 1) = none ∧ (∀ r, r ≠ fld q.params 0 1 → u.holder r = t.holder r) ∧ u = { t with claims := u.claims } ∧ ans = .done []) ∧
  (Turned cmdRelease .release (fun q t => t.holder (fld q.params 0 1) ≠ some q.org.who) fun _ _ => { status := stWRONG_STATE }) ∧
  (Does cmdClaimQuery .claimQuery (fun _ _ => True) fun q t ans u => u = t ∧ ans = .done (holderBytes (t.holder (fld q.params 0 1)))) ∧
  (Does cmdAccessSet .accessSet (fun _ _ => True) fun q t ans u => ans = .done [] ∧ u.fld fSYS_ACCESS_OBS_COUNTERS = fld q.params 0 1 ∧
    u = { t with regs := u.regs } ∧ OnlyRegs [rSYS_ACCESS] t u)) ∧
  (Does cmdDvIdent .dvIdent (fun _ _ => True) fun _ t ans u => u = t ∧ ∃ ps, ans = .done ps ∧ ps.length = 6 ∧
    fld ps 0 4 = (t.rd rSYS_ID_PART).toNat ∧ fld ps 4 1 = t.fld fSYS_ID_REV_STEPPING ∧ fld ps 5 1 = t.dvChan.val) ∧
  (Does cmdDvChanSet .dvChanSet (fun _ _ => True) fun q t ans u => ans = .done [] ∧ u.dvChan.val = fld q.params 0 1 ∧ u = { t with dvChan := u.dvChan }) ∧
  (Does cmdDvPmRead .dvPmRead (fun _ _ => True) fun q t ans u =>
    let b := (t.ohOf t.dvChan).pm.bin (fld q.params 0 1)
    u = t ∧ ∃ ps, ans = .done ps ∧ ps.length = 13 ∧ fld ps 0 4 = b.es % 2 ^ 32 ∧ fld ps 4 4 = b.ses % 2 ^ 32 ∧ fld ps 8 4 = b.uas % 2 ^ 32 ∧
      fld ps 12 1 = b2n b.part) ∧
  (Does cmdDvPmClear .dvPmClear (fun _ _ => True) fun _ t ans u => ans = .done [] ∧ u = { t with oh := u.oh } ∧
    (∀ k, ((u.ohOf t.dvChan).pm.bin k).es = 0 ∧ ((u.ohOf t.dvChan).pm.bin k).ses = 0 ∧ ((u.ohOf t.dvChan).pm.bin k).uas = 0 ∧
      ((u.ohOf t.dvChan).pm.bin k).part = true) ∧ ∀ n : Ch, n ≠ t.dvChan → u.ohOf n = t.ohOf n) ∧
  (Does cmdDvAlarms .dvAlarms (fun _ _ => True) fun _ t ans u => u = t ∧ ∃ ps, ans = .done ps ∧ ps.length = 4 ∧
    let d := (fOH_RX_STATUS_DEFECTS t.dvChan).of (t.shown (rOH_RX_STATUS t.dvChan))
    fld ps 0 4 = b2n (bit d dLOS) + 2 * b2n (bit d dOOF) + 4 * b2n (bit d dLOM) + 8 * b2n (bit d dBDI) + 16 * b2n (bit d dPLM) + 32 * b2n (bit d dSD)) ∧
  (Does cmdDvTxEnable .dvTxEnable (fun _ t => t.chDark t.dvChan = false) fun q t ans u => ans = .done [] ∧
    (u.engOf t.dvChan).dvDark = (fld q.params 0 1 == 0) ∧ u.flag (fENG_STATUS_TX_DARK t.dvChan) = u.muted t.dvChan ∧
      (fld q.params 0 1 = 0 → u.flag (fENG_STATUS_TX_DARK t.dvChan) = true) ∧
      u = { t with eng := u.eng, regs := u.regs } ∧ OnlyRegs [rENG_STATUS t.dvChan] t u) ∧
  (Turned cmdDvTxEnable .dvTxEnable (fun _ t => t.chDark t.dvChan = true) fun _ _ => { status := stWRONG_STATE }) ∧
  (∀ (q : Request) (s : State), cmdDvRateSet.passes q s = true → let t := s.taken q cmdDvRateSet.code
    t.chDark t.dvChan = false → t.session t.dvChan = none → ∃ u op r, exec (.dvRateSet q) s = .next (settle (place q 0x0F31 (.defer op) u)) ∧
      op.reply = true ∧ u.session t.dvChan = some r ∧ r.owner = q.org.who ∧ r.cue = some ⟨0, 0, q.org⟩ ∧ r.implicit = some 0x0F31 ∧
      ((fLINE_MODE_NET_RATE t.dvChan).of (bankRd r.bank (rLINE_MODE t.dvChan)), (fLINE_MODE_NSC t.dvChan).of (bankRd r.bank (rLINE_MODE t.dvChan)),
        (fLINE_MODE_CONST t.dvChan).of (bankRd r.bank (rLINE_MODE t.dvChan)), (fLINE_MODE_ENTROPY t.dvChan).of (bankRd r.bank (rLINE_MODE t.dvChan))) =
        (if fld q.params 0 1 = 1 then (4, 4, 0, 281) else if fld q.params 0 1 = 2 then (8, 12, 0, 188) else (16, 16, 0, 281)) ∧
      u = { t with rehearsals := u.rehearsals, halves := u.halves, regs := u.regs } ∧ OnlyRegs [rLINE_RX_STATUS t.dvChan] t u)

/-- Queues of R102 to R106, for both function mailboxes and the HGC ports of R338. -/
def Obligations.MailboxWords : Prop :=
  (∀ (f : Pr) (w : Word) (last : Bool) (s : State), s.ready = false → s.boot.linkUp = true → 3 ≤ s.stage →
    Completes (if last then .mbxReqEndWrite f none w else .mbxReqDataWrite f none w) s fun t =>
      (t.mbx.get f).part = (s.mbx.get f).part ∧ (t.mbx.get f).dropping = !last ∧ t.arrived = s.arrived ∧ OnlyRegs [rMBX_REQ_STATUS f] s t ∧
        ((s.mbx.get f).dropping = false → t.flag (fMBX_REQ_STATUS_OVERRUN f) = true)) ∧
  (∀ (a : Arrival) (l : List Arrival), ∃ l1 l2, l = l1 ++ l2 ∧ insertArrival a l = l1 ++ a :: l2 ∧ (∀ b ∈ l1, b.time = a.time → b.rank ≤ a.rank) ∧
    (∀ b, l2.head? = some b → b.time = a.time ∧ a.rank < b.rank)) ∧
  (∀ (f : Pr) (w : Word) (s : State), s.ready = true → (s.mbx.get f).dropping = false → (s.mbx.get f).isOpen = true →
    (s.mbx.get f).part.length + (s.mbx.get f).held < 8192 → Completes (.mbxReqDataWrite f none w) s fun t =>
      (t.mbx.get f).part = (s.mbx.get f).part ++ [w] ∧ (t.mbx.get f).held = (s.mbx.get f).held ∧ (t.mbx.get f).rsp = (s.mbx.get f).rsp ∧
        t.mbx.get (1 - f) = s.mbx.get (1 - f) ∧ t.regs = s.regs ∧ t.arrived = s.arrived) ∧
  (∀ (f : Pr) (w : Word) (last : Bool) (s : State), s.ready = true → (s.mbx.get f).dropping = false →
    ((s.mbx.get f).isOpen = false ∨ 8192 ≤ (s.mbx.get f).part.length + (s.mbx.get f).held) →
    Completes (if last then .mbxReqEndWrite f none w else .mbxReqDataWrite f none w) s fun t =>
      (t.mbx.get f).part = (s.mbx.get f).part ∧ (t.mbx.get f).dropping = !last ∧ t.flag (fMBX_REQ_STATUS_OVERRUN f) = true ∧
        OnlyRegs [rMBX_REQ_STATUS f] s t ∧ t.arrived = s.arrived) ∧
  (∀ (f : Pr) (w : Word) (last : Bool) (s : State), s.ready = true → (s.mbx.get f).dropping = true →
    Completes (if last then .mbxReqEndWrite f none w else .mbxReqDataWrite f none w) s fun t =>
      (t.mbx.get f).part = (s.mbx.get f).part ∧ (t.mbx.get f).dropping = !last ∧ t.regs = s.regs ∧ t.arrived = s.arrived) ∧
  (∀ (f : Pr) (w : Word) (s : State), s.ready = true → (s.mbx.get f).dropping = false → (s.mbx.get f).isOpen = true →
    (s.mbx.get f).part.length + (s.mbx.get f).held < 8192 →
    let bs := ofWords ((s.mbx.get f).part ++ [w])
    goodPacket bs = true → pktKind bs = 1 → s.forHere (pktDest bs) = true →
    Completes (.mbxReqEndWrite f none w) s fun t =>
      (t.mbx.get f).part = [] ∧ (t.mbx.get f).held = (s.mbx.get f).held + (s.mbx.get f).part.length + 1 ∧ t.regs = s.regs ∧
        ∃ a, t.arrived = insertArrival a s.arrived ∧ a.who = ⟨1 + f.val, 0, 0⟩ ∧ a.bytes = bs.take (pktLen bs) ∧ a.time = s.life ∧
          a.excess = decide (4 ≤ s.outstanding ⟨1 + f.val, 0, 0⟩)) ∧
  (∀ (n : Ch) (w : Word) (s : State), s.hgcOpen n = true → (s.hgc.get n).mbx.dropping = false →
    (s.hgc.get n).mbx.part.length + (s.hgc.get n).mbx.held < 8192 → 
    Completes (.mbxReqDataWrite 0 (some n) w) s (fun t => (t.hgc.get n).mbx.part = (s.hgc.get n).mbx.part ++ [w] ∧ t.regs = s.regs ∧ t.mbx = s.mbx) ∧
    ((s.hgc.get n).mbx.part.length < 511 → Completes (.mbxReqEndWrite 0 (some n) w) s fun t => (t.hgc.get n).mbx.part = [] ∧
      (t.hgc.get n).tx = (s.hgc.get n).tx ++ [(ofWords ((s.hgc.get n).mbx.part ++ [w]), (s.hgc.get n).mbx.part.length + 1)] ∧ t.regs = s.regs)) ∧
  (∀ (f : Pr) (s : State), s.ready = true → Completes (.mbxReqCancel f none) s fun t =>
    (t.mbx.get f).part = [] ∧ (t.mbx.get f).dropping = false ∧ (t.mbx.get f).held = (s.mbx.get f).held ∧ t.regs = s.regs ∧
      t.mbx.get (1 - f) = s.mbx.get (1 - f)) ∧
  (∀ (f : Pr) (x : QWord) (s : State), s.ready = true → (s.mbx.get f).rsp[(s.mbx.get f).rd]? = some x →
    Completes (.mbxRspDataRead f none) s fun t => t.out.data = x.word ∧ (t.mbx.get f).rd = (s.mbx.get f).rd + 1 ∧ (t.mbx.get f).lastEnd = x.last ∧
      (t.mbx.get f).rsp = (s.mbx.get f).rsp ∧ t.regs = s.regs) ∧
  (∀ (f : Pr) (s : State), s.ready = true → (s.mbx.get f).rsp[(s.mbx.get f).rd]? = none →
    Completes (.mbxRspDataRead f none) s fun t => t.out.data = 0#32 ∧ (t.mbx.get f).rd = (s.mbx.get f).rd ∧ (t.mbx.get f).lastEnd = false ∧ t.regs = s.regs) ∧
  (∀ (f : Pr) (n : Ch) (x : QWord) (s : State), s.ready = true → (s.hgc.get n).mbx.rsp[(s.hgc.get n).mbx.rd]? = some x →
    Completes (.mbxRspDataRead f (some n)) s fun t => t.out.data = x.word ∧ (t.hgc.get n).mbx.rd = (s.hgc.get n).mbx.rd + 1 ∧ t.mbx = s.mbx ∧
      t.rlOf f.val (rHGC_RX_STATUS n) = BitVec.ofNat 32 (4096 * b2n x.last) ∧ t.rlOf (1 - f).val (rHGC_RX_STATUS n) = s.rlOf (1 - f).val (rHGC_RX_STATUS n))

/-- R104. The words freed are those gone from the front of the queue: their space is the producer's credit. -/
def Obligations.QueuePositions : Prop :=
  (∀ (f : Pr) (s : State), s.ready = true → Completes (.mbxRspMark f none) s fun t =>
    t.mbx.get f = { s.mbx.get f with mark := (s.mbx.get f).rd } ∧ t.mbx.get (1 - f) = s.mbx.get (1 - f) ∧ t.regs = s.regs) ∧
  (∀ (f : Pr) (s : State), s.ready = true → Completes (.mbxRspRewind f none) s fun t =>
    t.mbx.get f = { s.mbx.get f with rd := (s.mbx.get f).mark } ∧ t.mbx.get (1 - f) = s.mbx.get (1 - f) ∧ t.regs = s.regs) ∧
  (∀ (f : Pr) (s : State), s.ready = true → Completes (.mbxRspRelease f none) s fun t =>
    (∃ more, (t.mbx.get f).rsp = (s.mbx.get f).rsp.drop (s.mbx.get f).rd ++ more ∧ ((s.mbx.get f).wait = [] → more = [])) ∧
      (t.mbx.get f).rd = 0 ∧ (t.mbx.get f).mark = 0 ∧
      (∀ k : Nat, (s.mbx.get f).rd + k < (s.mbx.get f).rsp.length → (t.mbx.get f).rsp[k]? = (s.mbx.get f).rsp[(s.mbx.get f).rd + k]?) ∧
      t.mbx.get (1 - f) = s.mbx.get (1 - f) ∧ OnlyRegs [rINT_STATUS f] s t ∧ ((s.mbx.get f).wait = [] → t.regs = s.regs)) ∧
  (∀ (f : Pr) (s : State), Completes (.mbxRspDataRead f none) s fun t => (t.mbx.get f).rsp = (s.mbx.get f).rsp ∧ (t.mbx.get f).mark = (s.mbx.get f).mark)

/-- Packets of R82, R83, R389 and R78 that are no request to carry out; later packets of R105; the limit of R89. -/
def Obligations.PacketsThatAreNoRequest : Prop :=
  (∀ (w : Who) (via : Nat) (bs : List Byte) (s : State), s.outOfTurn w bs = true →
    exec (.malformedPacket w bs) s = .next (settle s) ∧ exec (.unassignedDestPacket w via bs) s = .next (settle s) ∧
      exec (.preReadyRequest w bs) s = .next (settle s)) ∧
  (∀ (w : Who) (bs : List Byte) (s : State), s.outOfTurn w bs = false → s.ready = true → malformed w bs = true →
    Completes (.malformedPacket w bs) s fun t => t.counter cPKT_BAD = (s.counter cPKT_BAD + 1) % 2 ^ 48 ∧ Logged s t [(0x0104, 0, w.master, 0)] ∧
      OnlyRegs [rINT_STATUS 0, rINT_STATUS 1] s t ∧ (∀ a ∈ t.arrived, a ∈ s.arrived) ∧ t.ops = s.ops ∧ t.claims = s.claims) ∧
  (∀ (w : Who) (bs : List Byte), malformed w bs = true ↔ goodPacket bs = false ∨ (w.master ≠ 4 ∧ pktKind bs ≠ 1)) ∧
  (∀ (w : Who) (via : Nat) (bs : List Byte) (s : State), s.outOfTurn w bs = false → (takeBytes w bs s).ready = true → goodPacket bs = true → 0x1001 ≤ pktDest bs →
    pktDest bs ≤ 0xFFFE → pktKind bs = 1 → exec (.unassignedDestPacket w via bs) s = .next (settle
      (refuse ⟨requester w.master via bs, via, w.master == 4 && pktSrc bs == 0, pktTag bs⟩ (pktOpcode bs) { status := stBAD_PARAM, off := 2 } (takeBytes w bs s)))) ∧
  (∀ (w : Who) (via : Nat) (bs : List Byte) (s : State), s.outOfTurn w bs = false → (takeBytes w bs s).ready = true → goodPacket bs = true → 0x1001 ≤ pktDest bs →
    pktDest bs ≤ 0xFFFE → pktKind bs ≠ 1 → Completes (.unassignedDestPacket w via bs) s fun t =>
      t.counter (if w.master = 4 then cCH via 44 else cPKT_BAD) = (s.counter (if w.master = 4 then cCH via 44 else cPKT_BAD) + 1) % 2 ^ 48 ∧ t.cb = s.cb) ∧
  (∀ (w : Who) (bs : List Byte) (s : State), s.outOfTurn w bs = false → s.ready = false → Completes (.preReadyRequest w bs) s fun t =>
    t.counter cPKT_BAD = (s.counter cPKT_BAD + 1) % 2 ^ 48 ∧ t.cb = s.cb ∧ OnlyRegs [rINT_STATUS 0, rINT_STATUS 1] s t) ∧
  (∀ (f : Pr) (o : Origin) (code st : Nat) (ps : List Byte) (s : State), s.ready = true → o.who = ⟨1 + f.val, 0, 0⟩ → ps.length ≤ 4076 →
    (s.mbx.get f).isOpen = true →
    let ws := toWords (packet 4 32 s.node s.node 0 code st o.who.master ps)
    ((s.mbx.get f).wait = [] → (s.mbx.get f).rsp.length + ws.length + s.reserved o.who ≤ 8192 →
      Completes (.replyPacketQueued o (some (code, st, ps))) s fun t =>
        (t.mbx.get f).rsp = (s.mbx.get f).rsp ++ marked ws ∧ t.flag (fINT_STATUS_MBX_RSP f) = true ∧ OnlyRegs [rINT_STATUS f] s t) ∧
    (8192 < (s.mbx.get f).rsp.length + ws.length + s.reserved o.who →
      Completes (.replyPacketQueued o (some (code, st, ps))) s fun t => t.mbx = s.mbx ∧ t.flag (fMBX_RSP_STATUS_NOTICE_LOST f) = true ∧
        t.counter cNOTICE_LOST = (s.counter cNOTICE_LOST + 1) % 2 ^ 48 ∧ OnlyRegs [rMBX_RSP_STATUS f] s t)) ∧
  (∀ (f : Pr) (o : Origin) (l : Later) (s : State), s.ready = true → o.who = ⟨1 + f.val, 0, 0⟩ → (s.mbx.get f).isOpen = true → (s.mbx.get f).wait = [] →
    (s.later.find? fun l => decide (l.org = o)) = some l →
    let n := (20 + min 4076 l.rest.length + 3) / 4
    ((s.mbx.get f).rsp.length + n + s.reserved o.who ≤ 8192 → Completes (.replyPacketQueued o none) s fun t =>
      (t.mbx.get f).rsp = (s.mbx.get f).rsp ++ marked (toWords (packet (if l.rest.length ≤ 4076 then l.kind else l.kind + 8) 32 s.node s.node
        o.tag l.opcode l.status o.who.master (l.rest.take 4076))) ∧ t.flag (fINT_STATUS_MBX_RSP f) = true ∧ OnlyRegs [rINT_STATUS f] s t) ∧
    (8192 < (s.mbx.get f).rsp.length + n + s.reserved o.who → Completes (.replyPacketQueued o none) s fun t =>
      t.mbx = s.mbx ∧ t.later = s.later ∧ t.regs = s.regs)) ∧
  (∀ (w : Who) (tag : Nat) (op : Op) (s : State),
    (s.ops.find? fun o => sameWho o.org.who w && o.org.tag == tag && !o.reply && !o.targets.contains tDark) = some op →
    exec (.commandTimeout w tag) s = .next (settle (endOp op { status := stTIMEOUT } (lateParams op s) s)) ∧
    Completes (.commandTimeout w tag) s fun t => op ∉ t.ops ∧ (∀ o ∈ s.ops, o ≠ op → o ∈ t.ops) ∧
      Logged s t [(0x0121, 0, ({ status := stTIMEOUT } : Ref).p0 op.org.who.master, op.opcode)] ∧
      t.counter cREFUSED = (s.counter cREFUSED + 1) % 2 ^ 48)

/-- Commands 0x01, 0x10, 0x11 and 0x12 of R107. In an entry to the dark house an addressed port also fires its wake source (R407). That the port
does not serve after a thermal shutdown is assumption 108. -/
def Obligations.I2cPortServes : Prop :=
  (∀ s : State, s.i2cAddress = 0x5A + s.boot.asel.val ∧ ∀ a : Fin 128, s.i2cAt a = (s.i2cServed && decide (a.val = s.i2cAddress))) ∧
  (∀ (a : Fin 128) (off : Nat) (s : State), s.i2cAt a = true → s.i2cMay off = false → Completes (.i2cRegisterRead a off) s fun t =>
    t.out.bytes = [0#8, 0#8, 0#8, 0#8] ∧ t.regs = s.regs ∧ t.rl = s.rl ∧ t.mon = s.mon ∧ t.cb = s.cb) ∧
  (∀ (a : Fin 128) (off : Nat) (s : State), s.i2cAt a = true → s.i2cMay off = true → off < 0x100000 → rlCompanion off = false →
    off ∉ [rSYS_ID_SERIAL_LO, rTIM_TOD_LO, rMON_Q0, rPWR_SHUTDOWN_CAUSE] → Completes (.i2cRegisterRead a off) s fun t =>
      t.out.bytes = le 4 (s.readReg 2 off).toNat ∧ t.regs = s.regs ∧ t.rl = s.rl ∧ t.mon = s.mon ∧ t.cb = s.cb) ∧
  (∀ (a : Fin 128) (s : State), s.i2cAt a = true → s.ready = true → Completes (.i2cRegisterRead a rSYS_ID_SERIAL_LO) s fun t =>
    t.out.bytes = le 4 (Config.serial.setWidth 32).toNat ∧ t.rlOf 2 rSYS_ID_SERIAL_HI = (Config.serial >>> 32).setWidth 32 ∧ t.regs = s.regs) ∧
  (∀ (off : Nat) (s : State), s.ready = false → (s.i2cMay off = true ↔ off ∈ earlyRegs)) ∧
  (∀ (a : Fin 128) (bs : List Byte) (stop : Bool) (s : State), s.i2cAt a = true → bs ≠ [] → s.i2c.isOpen = true → s.i2c.dropping = false →
    s.i2c.part.length + s.i2c.held + bs.length ≤ 32768 → (stop = true → packetDone (s.i2c.part ++ bs.map (fun b => b.setWidth 32)) = false) →
    Completes (.i2cRequestWrite a bs stop) s fun t =>
      t.i2c.part = s.i2c.part ++ bs.map (fun b => b.setWidth 32) ∧ t.i2c.held = s.i2c.held ∧ t.i2c.rsp = s.i2c.rsp ∧ t.arrived = s.arrived ∧
        t.regs = s.regs ∧ t.mbx = s.mbx) ∧
  (∀ (a : Fin 128) (bs : List Byte) (s : State), s.i2cAt a = true → s.ready = true → bs ≠ [] → s.i2c.isOpen = true → s.i2c.dropping = false →
    s.i2c.part.length + s.i2c.held + bs.length ≤ 32768 →
    let all := s.i2c.part.map (fun w => w.setWidth 8) ++ bs
    goodPacket all = true → pktKind all = 1 → s.forHere (pktDest all) = true →
    Completes (.i2cRequestWrite a bs true) s fun t => t.i2c.part = [] ∧ t.i2c.held = s.i2c.held + s.i2c.part.length + bs.length ∧
      ∃ x, t.arrived = insertArrival x s.arrived ∧ x.who = ⟨3, 0, 0⟩ ∧ x.bytes = all.take (pktLen all) ∧ x.time = s.life) ∧
  (∀ (a : Fin 128) (n : Nat) (s : State), s.i2cAt a = true → s.ready = true → Completes (.i2cReplyRead a n) s fun t =>
    t.out.bytes.length = n ∧ (∀ k, k < n → t.out.bytes.getD k 0#8 = ((s.i2c.rsp[k]?).map fun x => x.word.setWidth 8).getD 0#8) ∧
      (∃ more, t.i2c.rsp = s.i2c.rsp.drop n ++ more ∧ (s.i2c.wait = [] → more = [])) ∧ t.i2c.rd = 0 ∧ t.regs = s.regs) ∧
  (∀ (a : Fin 128) (s : State), s.i2cAt a = true → s.ready = true → Completes (.i2cCreditRead a) s fun t =>
    t.out.bytes = le 4 (s.i2c.credit 32768 % 65536 + sat 4095 s.i2c.packets * 65536) ∧ t.i2c = s.i2c ∧ t.regs = s.regs) ∧
  (∀ (a : Fin 128) (off n : Nat) (bs : List Byte) (stop : Bool) (s : State), s.i2cAt a = false →
    exec (.i2cRegisterRead a off) s = .next (settle s) ∧ exec (.i2cRequestWrite a bs stop) s = .next (settle s) ∧
      exec (.i2cReplyRead a n) s = .next (settle s) ∧ exec (.i2cCreditRead a) s = .next (settle s))

/-- R101, field by field. Values that a Live field refuses (`liveTaken`) and what a write sets going (`written`) are of the registers'
own chapters. -/
def Obligations.RegisterFieldsByClass : Prop :=
  (∀ (off : Nat) (w : Word) (s : State), s.ready = true → off % 4 = 0 → off < fnBase → (regFind .perFn 0 off regTable).isSome = false →
    ¬ (0x30000 ≤ off ∧ off < 0x3C000) → ¬ (0x301000 ≤ off ∧ off < 0x301100) → off ≠ rMEM_FLIP → off ≠ rMEM_SFLIP → off ≠ rPWR_WAKE_CTRL →
    (∀ r, regClaim off = some r → s.claimedByOther ⟨1, 0, 0⟩ r = false) →
    exec (.registerWrite 0 off w) s = .next (settle (written off w s (writeCue off w (writeDark off w (writeLive off w s)))))) ∧
  (∀ (off : Nat) (w : Word) (s : State), let t := writeLive off w s
    let live := fieldBits off .rw .live
    let clr := fieldBits off .rw1c .none
    t = { s with regs := t.regs } ∧ (∀ j, j ≠ off → t.rd j = s.rd j) ∧ ∀ i : Nat,
      (clr.getLsbD i = true → w.getLsbD i = true → (t.rd off).getLsbD i = false) ∧
      (live.getLsbD i = true → clr.getLsbD i = false → (t.rd off).getLsbD i = (liveTaken off (s.rd off) w).getLsbD i) ∧
      (live.getLsbD i = false → (clr.getLsbD i && w.getLsbD i) = false → (t.rd off).getLsbD i = (s.rd off).getLsbD i)) ∧
  (∀ (off d : Nat) (w : Word) (s : State), regDomain off = some d →
    let m := fieldBits off .rw .dark
    (s.fld (fPD d) = 0 → (writeDark off w s).rd off &&& m = w &&& m ∧ (writeDark off w s).rd off &&& ~~~m = s.rd off &&& ~~~m ∧
      ∀ j, j ≠ off → (writeDark off w s).rd j = s.rd j) ∧
    (s.fld (fPD d) ≠ 0 → w &&& m ≠ s.rd off &&& m → (writeDark off w s).flag fSYS_CFG_ERR_DARK_WRITE = true ∧
      OnlyRegs [rSYS_CFG_ERR, rSYS_CFG_ERR_ADDR] s (writeDark off w s)) ∧
    (w &&& m = s.rd off &&& m → ∀ j, (writeDark off w s).rd j = s.rd j)) ∧
  (∀ (off b : Nat) (w : Word) (r : Rehearsal) (s : State), cueBlock off = some b → s.session b = some r →
    (r.owner = ⟨1, 0, 0⟩ → ∃ r', (writeCue off w s).session b = some r' ∧ r'.owner = r.owner ∧ r'.cue = r.cue ∧
      bankRd r'.bank off &&& cueBits off = w &&& cueBits off ∧ (∀ j, j ≠ off → bankRd r'.bank j = bankRd r.bank j) ∧ (writeCue off w s).regs = s.regs) ∧
    (r.owner ≠ ⟨1, 0, 0⟩ → w &&& cueBits off ≠ s.rd off &&& cueBits off → (writeCue off w s).flag fSYS_CFG_ERR_NO_SESSION = true ∧
      OnlyRegs [rSYS_CFG_ERR, rSYS_CFG_ERR_ADDR] s (writeCue off w s) ∧ (writeCue off w s).rehearsals = s.rehearsals)) ∧
  (∀ (off b : Nat) (w : Word) (s : State), cueBlock off = some b → s.session b = none → w &&& cueBits off ≠ s.rd off &&& cueBits off →
    (writeCue off w s).flag fSYS_CFG_ERR_NO_SESSION = true ∧ OnlyRegs [rSYS_CFG_ERR, rSYS_CFG_ERR_ADDR] s (writeCue off w s)) ∧
  (∀ (off r : Nat) (w : Word) (s : State), s.ready = true → off % 4 = 0 → off < fnBase → (regFind .perFn 0 off regTable).isSome = false →
    ¬ (0x301000 ≤ off ∧ off < 0x301100) → regClaim off = some r → s.claimedByOther ⟨1, 0, 0⟩ r = true → cfgBits off ≠ 0#32 →
    Completes (.registerWrite 0 off w) s fun t => t.flag fSYS_CFG_ERR_CLAIMED = true ∧ OnlyRegs [rSYS_CFG_ERR, rSYS_CFG_ERR_ADDR] s t ∧
      (s.rd rSYS_CFG_ERR = 0#32 → t.rd rSYS_CFG_ERR_ADDR = BitVec.ofNat 32 off) ∧
      (s.rd rSYS_CFG_ERR ≠ 0#32 → t.rd rSYS_CFG_ERR_ADDR = s.rd rSYS_CFG_ERR_ADDR))

/-- Registers whose write is said whole here; the classes are stated beside. -/
def Obligations.RegisterWritesComplete : Prop :=
  (∀ (f : Pr) (w : Word) (s : State), s.ready = true → Completes (.registerWrite f (rINT_ENABLE 0) w) s fun t =>
    t.rd (rINT_ENABLE f) = w ∧ (∀ j, j ≠ rINT_ENABLE f → t.rd j = s.rd j) ∧ t.mbx = s.mbx ∧ t.cb = s.cb) ∧
  (∀ (w : Word) (s : State), s.ready = true → Completes (.registerWrite 0 rPWR_THERM w) s fun t =>
    t.fld fPWR_THERM_WARN_C = (if 70 ≤ w.toNat % 256 ∧ w.toNat % 256 ≤ 104 then w.toNat % 256 else s.fld fPWR_THERM_WARN_C) ∧
      t.flag fPWR_THERM_WARN = (s.flag fPWR_THERM_WARN && !w.getLsbD 8) ∧ t.flag fPWR_THERM_CRIT = (s.flag fPWR_THERM_CRIT && !w.getLsbD 9) ∧
      t.fld fPWR_THERM_TJ_MAX = s.fld fPWR_THERM_TJ_MAX ∧ ∀ j, j ≠ rPWR_THERM → t.rd j = s.rd j) ∧
  (∀ (off : Nat) (w : Word) (s : State), s.ready = true → off < fnBase → (regFind .perFn 0 off regTable).isSome = false →
    exec (.registerWrite 1 off w) s = .next (settle s)) ∧
  (∀ (f : Pr) (off : Nat) (w : Word) (s : State), off % 4 ≠ 0 ∨ fnBase ≤ off → exec (.registerWrite f off w) s = .next (settle s)) ∧
  (∀ (f : Pr) (off : Nat) (w : Word) (s : State), s.ready = false → s.stage ≠ 8 → off ∉ [rSYS_DL_PAGE, rMBX_REQ_DATA 0, rMBX_REQ_END 0] →
    exec (.registerWrite f off w) s = .next (settle s)) ∧
  (∀ (f : Pr) (w : Word) (s : State), s.ready = false → exec (.registerWrite f (rMBX_REQ_DATA 0) w) s = .next (settle (earlyWord f false s)) ∧
    exec (.registerWrite f (rMBX_REQ_END 0) w) s = .next (settle (earlyWord f true s))) ∧
  (∀ (off : Nat) (w : Word) (s : State), s.stage = 8 → s.boot.linkUp = true → off % 4 = 0 → 0x80000 ≤ off → off < 0x90000 →
    Completes (.registerWrite 0 off w) s fun t => t.regs = s.regs ∧
      let base := s.fld fSYS_DL_PAGE_PAGE * 65536 + (off - 0x80000)
      (∀ i : Nat, i < 4 → smGet (fun _ => 0#8) t.boot.dl (base + i) = w.extractLsb' (8 * i) 8) ∧
      ∀ j, (j < base ∨ base + 4 ≤ j) → smGet (fun _ => 0#8) t.boot.dl j = smGet (fun _ => 0#8) s.boot.dl j) ∧
  (∀ (w : Word) (s : State), s.ready = true → w.getLsbD 31 = true →
    Completes (.registerWrite 0 rMEM_FLIP w) s (fun t => t.rd rMEM_FLIP = ((w &&& 0x00FFFFFF#32) ||| 0x80000000#32) ∧ ∀ j, j ≠ rMEM_FLIP → t.rd j = s.rd j) ∧
    Completes (.registerWrite 0 rMEM_SFLIP w) s (fun t => t.rd rMEM_SFLIP = ((w &&& 0x000FFF7F#32) ||| 0x80000000#32) ∧ ∀ j, j ≠ rMEM_SFLIP → t.rd j = s.rd j))

/-- R432. The table of wrap times follows from the rates of other rules. -/
def Obligations.CountersWrapAndStick : Prop :=
  (∀ (k : Nat) (s : State), s.counter k = 2 ^ 48 - 1 → (count k s).counter k = 0 ∧ (count k s).wrapped k = true) ∧
  (∀ (k n : Nat) (s : State), (countN k n s).counter k = (s.counter k + n) % 2 ^ 48 ∧
    (countN k n s).wrapped k = (s.wrapped k || decide (2 ^ 48 ≤ s.counter k + n)) ∧
    ∀ j, j ≠ k → (countN k n s).counter j = s.counter j ∧ (countN k n s).wrapped j = s.wrapped j) ∧
  (∀ (k : Nat) (w : Word) (s : State), s.ready = true → k < 1024 →
    Completes (.registerWrite 0 (0x30000 + 8 * k + 4) w) s fun t => t.wrapped k = (s.wrapped k && !w.getLsbD 31) ∧ t.counter k = s.counter k ∧
      (∀ j, j ≠ k → t.wrapped j = s.wrapped j) ∧ t.regs = s.regs) ∧
  (Does cmdCntRead .cntRead (fun q _ => bit (fld q.params 2 1) 0 = true) fun q t _ u => ∀ i, i < fld q.params 0 2 →
    u.wrapped (fld q.params (4 + 4 * i) 4) = false ∧ u.counter (fld q.params (4 + 4 * i) 4) = t.counter (fld q.params (4 + 4 * i) 4))

/-- R470; conditions are of R469. -/
def Obligations.MsixVectors : Prop :=
  (∀ (f : Pr) (v : Nat) (s : State), v < 32 → (s.msix.get f).enabled = true → (s.msix.get f).armed.getLsbD v = true → s.vecCond f v = true →
    let t := settleVec f v s
    (s.vecMasked f v = false → t.out.msix = s.out.msix ++ [(f.val, v)] ∧ (t.msix.get f).armed.getLsbD v = false ∧ (t.msix.get f).pend.getLsbD v = false) ∧
    (s.vecMasked f v = true → t.out.msix = s.out.msix ∧ (t.msix.get f).armed = (s.msix.get f).armed ∧ (t.msix.get f).pend.getLsbD v = true)) ∧
  (∀ (f : Pr) (v : Nat) (s : State), ((s.msix.get f).armed.getLsbD v = false ∨ s.vecCond f v = false) → settleVec f v s = s) ∧
  (∀ s : State, (s.msix.get 0).enabled = false → (s.msix.get 1).enabled = false → settle s = s) ∧
  (∀ (f : Pr) (w : Word) (s : State), s.ready = true → (s.msix.get f).enabled = false → (s.msix.get (1 - f)).enabled = false →
    Completes (.intRearm f w) s fun t => (t.msix.get f).armed = (s.msix.get f).armed ||| w ∧ t.msix.get (1 - f) = s.msix.get (1 - f) ∧
      t.out = s.out ∧ t.regs = s.regs) ∧
  (∀ (f : Pr) (v : Nat) (w : Word) (s : State), s.ready = true → v < 32 → (s.msix.get f).enabled = true → s.rd (rINT_ENABLE f) ≠ 0#32 →
    w.getLsbD v = true → s.vecCond f v = true → s.vecMasked f v = false →
    Completes (.intRearm f w) s fun t => ∃ l, t.out.msix = s.out.msix ++ l ∧ (f.val, v) ∈ l ∧ (t.msix.get f).armed.getLsbD v = false ∧ t.regs = s.regs) ∧
  (∀ (f : Pr) (v : Fin 32) (s : State), s.ready = true → (s.msix.get f).enabled = true → s.rd (rINT_ENABLE f) ≠ 0#32 → (s.msix.get f).fnMask = false →
    (s.msix.get f).armed.getLsbD v = true → s.vecCond f v = true →
    Completes (.msixUnmask f (.vector v false)) s fun t => t.flag (fMSIX_CTRL_MASK f v) = false ∧
      (∃ l, t.out.msix = s.out.msix ++ l ∧ (f.val, v.val) ∈ l) ∧ (t.msix.get f).armed.getLsbD v = false) ∧
  (∀ (f : Pr) (on : Bool) (v : Fin 32) (s : State), s.ready = true →
    Completes (.msixUnmask f (.vector v on)) s (fun t => t.flag (fMSIX_CTRL_MASK f v) = on ∧ OnlyRegs [rMSIX_CTRL f v] s t) ∧
    Completes (.msixUnmask f (.function on)) s (fun t => (t.msix.get f).fnMask = on ∧ t.regs = s.regs) ∧
    Completes (.msixUnmask f (.enable on)) s (fun t => (t.msix.get f).enabled = on ∧ t.regs = s.regs))

/-- R97 and R98 on the session commands. -/
def Obligations.RehearsalSessions : Prop :=
  (Does cmdStageOpen .stageOpen (fun q t => t.session (fld q.params 0 1) = none) fun q t ans u => ans = .done [] ∧
    u.session (fld q.params 0 1) = some ⟨fld q.params 0 1, q.org.who, t.runningSet (fld q.params 0 1), none, none⟩ ∧
    (∀ b, b ≠ fld q.params 0 1 → u.session b = t.session b) ∧ u = { t with rehearsals := u.rehearsals }) ∧
  (∀ w : Who, Turned cmdStageOpen .stageOpen (fun q t => ∃ r, t.session (fld q.params 0 1) = some r ∧ r.owner = w) fun _ _ =>
    { status := stBUSY, b0 := w.master }) ∧
  (Does cmdStageSet .stageSet (fun q t => ∃ r, t.session (fld q.params 0 1) = some r ∧ r.owner = q.org.who ∧ r.cue = none) fun q t ans u =>
    ans = .done [] ∧ u = { t with rehearsals := u.rehearsals } ∧ (∀ b, b ≠ fld q.params 0 1 → u.session b = t.session b) ∧
    ∃ r r', t.session (fld q.params 0 1) = some r ∧ u.session (fld q.params 0 1) = some r' ∧ r'.owner = r.owner ∧ r'.cue = none ∧
      r'.bank = (span 0 (fld q.params 2 2)).foldl (fun m k => maskedWrite m (stageEntry q.params k)) r.bank) ∧
  (∀ (bank : SMap Word) (off : Nat) (mask value : Word),
    bankRd (maskedWrite bank (off, mask, value)) off = (bankRd bank off &&& ~~~mask) ||| (value &&& mask) ∧
      ∀ j, j ≠ off → bankRd (maskedWrite bank (off, mask, value)) j = bankRd bank j) ∧
  (∀ w : Who, Turned cmdStageSet .stageSet (fun q t => w ≠ q.org.who ∧ ∃ r, t.session (fld q.params 0 1) = some r ∧ r.owner = w) fun _ _ =>
    { status := stBUSY, b0 := w.master }) ∧
  (Turned cmdStageSet .stageSet (fun q t => t.session (fld q.params 0 1) = none ∨
    ∃ r, t.session (fld q.params 0 1) = some r ∧ r.owner = q.org.who ∧ r.cue.isSome = true) fun _ _ => { status := stWRONG_STATE }) ∧
  (Does cmdStageAbandon .stageAbandon (fun q t => bit (fld q.params 1 1) 0 = false ∧ ∃ r, t.session (fld q.params 0 1) = some r ∧
    r.owner = q.org.who ∧ r.cue = none) fun q t ans u => ans = .done [] ∧ u.session (fld q.params 0 1) = none ∧
      (∀ b, b ≠ fld q.params 0 1 → u.session b = t.session b) ∧ u = { t with rehearsals := u.rehearsals, halves := u.halves, regs := u.regs } ∧
      ((∀ h ∈ t.halves, h.2.block = fld q.params 0 1 → h.2.early = false) → u = { t with rehearsals := u.rehearsals })) ∧
  (Does cmdStageAbandon .stageAbandon (fun q t => bit (fld q.params 1 1) 0 = true ∧ (t.session (fld q.params 0 1)).isSome = true) fun q t ans u =>
    ans = .done [] ∧ u.session (fld q.params 0 1) = none ∧ (∀ b, b ≠ fld q.params 0 1 → u.session b = t.session b) ∧ u.claims = t.claims ∧
      OnlyRegs [rINT_STATUS 0, rINT_STATUS 1, rMBX_RSP_STATUS 0, rMBX_RSP_STATUS 1, rLINE_RX_STATUS (fld q.params 0 1 % 4)] t u) ∧
  (Turned cmdStageAbandon .stageAbandon (fun q t => t.session (fld q.params 0 1) = none) fun _ _ => { status := stWRONG_STATE }) ∧
  (Does cmdStageGet .stageGet (fun q t => fld q.params 1 1 = 1 ∨ (t.session (fld q.params 0 1)).isSome = true) fun q t ans u =>
    u = t ∧ ∃ ps, ans = .done ps ∧ ps.length = 4 * fld q.params 2 2 ∧ ∀ k, k < fld q.params 2 2 →
      let off := fld q.params (4 + 4 * k) 4
      let w := if fld q.params 1 1 = 1 then t.rd off else bankRd (t.bankOf (fld q.params 0 1)) off
      fld ps (4 * k) 4 = ((w &&& cueBits off) ||| (t.shown off &&& ~~~cueBits off)).toNat)

/-- R99 and R100. A cue on a DARK channel comes into force at once (`carryOut`). -/
def Obligations.CueRequests : Prop :=
  (∀ (q : Request) (s : State), cmdCue.passes q s = true → let t := s.taken q cmdCue.code
    let b := fld q.params 0 1
    b < 12 → t.chDark (b % 4) = false → ∀ r, t.session b = some r → r.owner = q.org.who → r.cue = none →
    (fld q.params 1 1 = 0 → ∃ u op, exec (.cue q) s = .next (settle (place q 0x0122 (.defer op) u)) ∧ op.reply = true ∧ op.org = q.org ∧
      u.session b = some { r with cue := some ⟨0, 0, q.org⟩ } ∧ u = { t with rehearsals := u.rehearsals, halves := u.halves, regs := u.regs } ∧
      OnlyRegs [rLINE_RX_STATUS (b % 4)] t u ∧ (b < 4 ∨ 8 ≤ b → t.halfMay b ⟨0, 0, q.org⟩ = true →
        u.halves = t.halves.filter (fun x => x.2.block != b) ++ [(b % 4, ⟨b, none, t.runningSet b, true, false⟩)])) ∧
    (fld q.params 1 1 = 1 → t.fld (fLINE_MODE_IOP (b % 4)) = 0 → t.tooSoon b (fld q.params 2 6) r.bank = false →
      ∃ u op, exec (.cue q) s = .next (settle (place q 0x0122 (.accept op) u)) ∧ op.reply = false ∧ op.org = q.org ∧
      u.session b = some { r with cue := some ⟨1, fld q.params 2 6, q.org⟩ } ∧ u = { t with rehearsals := u.rehearsals, halves := u.halves, regs := u.regs } ∧
      OnlyRegs [rLINE_RX_STATUS (b % 4)] t u ∧ (b < 4 ∨ 8 ≤ b → t.halfMay b ⟨1, fld q.params 2 6, q.org⟩ = true →
        u.halves = t.halves.filter (fun x => x.2.block != b) ++ [(b % 4, ⟨b, some (fld q.params 2 6), t.runningSet b, true, false⟩)]))) ∧
  (∀ (q : Request) (s : State), cmdCue.passes q s = true → let t := s.taken q cmdCue.code
    let b := fld q.params 0 1
    b < 12 → t.chDark (b % 4) = false →
    ((t.session b = none ∨ ∃ r, t.session b = some r ∧ r.owner = q.org.who ∧ r.cue.isSome = true) →
      exec (.cue q) s = .next (settle (refuse q.org 0x0122 { status := stWRONG_STATE } t))) ∧
    (∀ r, t.session b = some r → r.owner ≠ q.org.who → exec (.cue q) s = .next (settle (refuse q.org 0x0122 { status := stBUSY, b0 := r.owner.master } t)))) ∧
  (∀ (b fn : Nat) (r : Rehearsal) (p : Pending) (s : State), 4 ≤ b → b < 8 → s.session b = some r → r.cue = some p → convCheck (b - 4) r.bank s = none →
    (∀ e ∈ r.bank, cueBlock e.1 = some b) → Completes (.cueCarriedOut b fn) s fun t => t.session b = none ∧
      (∀ off, cueBlock off = some b → t.rd off &&& cueBits off = bankRd r.bank off &&& cueBits off ∧
        t.rd off &&& ~~~cueBits off = s.rd off &&& ~~~cueBits off) ∧
      (∀ off, cueBlock off ≠ some b → off ∉ [rINT_STATUS 0, rINT_STATUS 1, rMBX_RSP_STATUS 0, rMBX_RSP_STATUS 1, rLINE_RX_STATUS (b - 4)] → t.rd off = s.rd off) ∧
      t.eng = s.eng ∧ t.line = s.line) ∧
  (∀ (b fn : Nat) (r : Rehearsal) (p : Pending) (ref : Ref) (s : State), 4 ≤ b → b < 8 → s.session b = some r → r.cue = some p → r.implicit = none →
    (s.halves.any fun h => h.2.block == b && h.2.done) = false →
    convCheck (b - 4) r.bank s = some ref → Completes (.cueCarriedOut b fn) s fun t => t.session b = some { r with cue := none } ∧
      OnlyRegs [rINT_STATUS 0, rINT_STATUS 1, rMBX_RSP_STATUS 0, rMBX_RSP_STATUS 1, rLINE_RX_STATUS (b - 4)] s t) ∧
  (∀ (b : Nat) (bank : SMap Word) (s : State), (∀ e ∈ bank, cueBlock e.1 = some b) →
    let t := intoForce b bank s
    t = { s with regs := t.regs } ∧ (∀ off, cueBlock off ≠ some b → t.rd off = s.rd off) ∧
      ∀ off, cueBlock off = some b → t.rd off = (s.rd off &&& ~~~cueBits off) ||| (bankRd bank off &&& cueBits off)) ∧
  (∀ (b fn : Nat) (r : Rehearsal) (p : Pending) (s : State), (b < 4 ∨ (8 ≤ b ∧ b < 12) ∨ (16 ≤ b ∧ b < 18)) → s.session b = some r → r.cue = some p →
    s.boundary b fn r p = true →
    let ahead := s.halves.any fun h => h.2.block == b && h.2.done
    (s.cueBefore b fn (s.pacer b r.bank) = true → exec (.cueCarriedOut b fn) s = .next (settle s)) ∧
    (s.cueBefore b fn (s.pacer b r.bank) = false → ahead = false → ∀ ref, cueCheck b r.bank p s = some ref →
      exec (.cueCarriedOut b fn) s = .next (settle (cueRefused b r ref s))) ∧
    (s.cueBefore b fn (s.pacer b r.bank) = false → ahead = true ∨ cueCheck b r.bank p s = none →
      exec (.cueCarriedOut b fn) s = .next (settle (cueForce b fn r p s)))) ∧
  (∀ (n : Ch) (slots : Bool) (fn : Nat) (m : Nat) (h : RxHalf) (s : State), (s.halves.find? fun x => x.2.block == (if slots then 8 + n.val else n.val)) = some (m, h) →
    (h.frame = none → slots = false ∨ fn % 256 = 0) → (∀ f, h.frame = some f → fn % 256 = 0 ∧ 0 ≤ fnDiff fn f) →
    exec (.lineCueRxHalf n slots fn) s = .next (settle (halfRun (if slots then 8 + n.val else n.val) fn s))) ∧
  (∀ (b fn m : Nat) (h : RxHalf) (s : State), b < 4 → (s.halves.find? fun x => x.2.block == b) = some (m, h) → m < 4 → h.early = false →
    let t := halfDone b fn s
    (∀ x ∈ t.halves, x.2.block ≠ b) ∧ (t.flag (fLINE_RX_STATUS_RX_HALF_PENDING m) = true ↔ ∃ x ∈ t.halves, x.1 = m ∧ x.2.done = false))

/-- Engine rules of spec 06. Two measurements in a row are the 10 us of R111. Where the fall of the feed leads on to the receiver, the
model's `declareLos` says what follows (R120, R155, R184). A loop exactly at the centre goes down (assumption 63). -/
def Obligations.EngineFeedAndBias : Prop :=
  (∀ (n : Ch) (feed tx rx : Int) (temp : Nat) (bias err : List Int) (s : State), s.chDark n = false → 800 ≤ feed → temp < 256 →
    Completes (.feedMeasurement n feed tx rx temp bias err) s fun t =>
      t.flag (fENG_STATUS_FEED_OK n) = decide (1500 ≤ feed) ∧ t.flag (fENG_STATUS_FEED_HIGH n) = decide (2050 < feed) ∧
        t.fld (fENG_STATUS_ENG_TEMP n) = temp ∧ t.fld (fENG_PWR_A_TX_PWR n) = pwrReading tx ∧ t.fld (fENG_PWR_A_RX_PWR n) = pwrReading rx ∧
        t.fld (fENG_PWR_B_FEED_PWR n) = pwrReading feed ∧ OnlyRegs [rENG_STATUS n, rENG_PWR_A n, rENG_PWR_B n] s t ∧
        (s.loopsRun n = true → (t.engOf n).bias = (span 0 6).map (fun j => clampI (-2500) 2500 (bias.getD j 0)) ∧
          (t.flag (fENG_STATUS_BIAS_NEAR_LIMIT n) = true ↔ ∃ j, j < 6 ∧ 2250 ≤ (clampI (-2500) 2500 (bias.getD j 0)).natAbs) ∧
          (t.flag (fENG_STATUS_BIAS_AT_LIMIT n) = true ↔ ∃ j, j < 6 ∧ 2500 ≤ (clampI (-2500) 2500 (bias.getD j 0)).natAbs)) ∧
        (s.loopsRun n = false → (t.engOf n).bias = (s.engOf n).bias) ∧ ∀ m : Ch, m ≠ n → t.engOf m = s.engOf m) ∧
  (∀ (n : Ch) (feed tx rx : Int) (temp : Nat) (bias err : List Int) (s : State), s.chDark n = false → feed < 800 → (s.engOf n).feed = 0 →
    (s.engOf n).feedLost = false → ∃ u, exec (.feedMeasurement n feed tx rx temp bias err) s = .next (settle (declareLos n u)) ∧
      (u.engOf n).feedLost = true ∧ (u.engOf n).bias = (s.engOf n).bias ∧ u.flag (fENG_STATUS_BIAS_LOCK n) = false ∧ u.flag (fENG_STATUS_TX_DARK n) = true ∧
      Logged s u [(0x0210, bCH n, unsigned 32 feed, 0)] ∧ OnlyRegs [rENG_STATUS n, rENG_PWR_A n, rENG_PWR_B n] s u) ∧
  (∀ (n : Ch) (s : State), s.chDark n = false → (s.engOf n).feedLost = true → s.flag (fENG_STATUS_FEED_OK n) = true →
    Completes (.feedGoodAgain n) s fun t => (t.engOf n).feedLost = false ∧ t.flag (fENG_STATUS_TX_DARK n) = t.muted n ∧
      Logged s t [(0x0211, bCH n, unsigned 32 (s.sfld (fENG_PWR_B_FEED_PWR n)), 0)] ∧ OnlyRegs [rENG_STATUS n] s t ∧
      t.flag (fENG_STATUS_BIAS_LOCK n) = s.flag (fENG_STATUS_BIAS_LOCK n)) ∧
  (∀ (n : Ch) (s : State), declareLos n s = (if s.fld (fHUB_CTRL_ROLE n) = 1 then hubLos n s else rxLosSet n s) ∧
    (s.loopsRun n = true ↔ (s.active n = true ∨ StartItem.channel n ∈ s.pwr.starting) ∧ (s.engOf n).feedLost = false ∧ s.flag (fENG_CTRL_BIAS_HOLD n) = false)) ∧
  (∀ (n : Ch) (s : State), s.loopsRun n = true → (s.engOf n).searched = true ∨ s.flag (fENG_STATUS_FEED_OK n) = true → Completes (.biasSearchLocked n) s fun t => t.flag (fENG_STATUS_BIAS_LOCK n) = true ∧
      (t.engOf n).searched = true ∧ t.flag (fENG_STATUS_TX_DARK n) = t.muted n ∧ OnlyRegs [rENG_STATUS n] s t ∧ t.cb = s.cb ∧ t.line = s.line) ∧
  (∀ (n : Ch) (loops : Nat) (s : State), s.flag (fENG_STATUS_BIAS_LOCK n) = true → loops % 64 ≠ 0 → Completes (.biasLockLost n loops) s fun t =>
    t.flag (fENG_STATUS_BIAS_LOCK n) = false ∧ Logged s t [(0x0220, bCH n, loops % 64, 0)] ∧ OnlyRegs [rENG_STATUS n] s t ∧ t.eng = s.eng) ∧
  (∀ (n : Ch) (s : State), s.muted n = false → Completes (.txRampComplete n) s fun t =>
    t.fld (fENG_PWR_A_TX_PWR n) = unsigned 16 (10 * clampI (-140) 10 (s.sfld (fENG_CTRL_TX_TARGET n))) ∧ OnlyRegs [rENG_PWR_A n] s t ∧ t.cb = s.cb) ∧
  (∀ s : State, Completes .biasSampleHourly s fun t => t.store.cur.hour = (s.store.cur.hour + 1) % 256 ∧
    smGet (fun _ => []) t.store.cur.hourly t.store.cur.hour = biasSample s ∧ t.regs = s.regs ∧ t.cb = s.cb) ∧
  (∀ (q : Request) (s : State), cmdBiasRecentre.passes q s = true → let t := s.taken q cmdBiasRecentre.code
    let n := fld q.params 0 1
    let js := (span 0 6).filter (bit (fld q.params 1 1))
    t.chDark n = false → (∃ j ∈ js, 2250 ≤ ((t.engOf n).bias.getD j 0).natAbs) → ∃ op, op.org = q.org ∧ op.holds = [resCH n] ∧
      exec (.biasRecentre q) s = .next (settle (endOp op { status := stOK } (le 1 (fld q.params 1 1))
        (recentre n js (place q 0x0200 (.accept op) t)))) ∧
      ∀ (j : Nat) (u : State), j < 6 → ((recentre n js u).engOf n).bias.getD j 0 =
        (let v := (u.engOf n).bias.getD j 0; if j ∈ js then (if v < 0 then v + 2000 else v - 2000) else v)) ∧
  (∀ (q : Request) (s : State), cmdBiasRecentre.passes q s = true → let t := s.taken q cmdBiasRecentre.code
    (t.chDark (fld q.params 0 1) = true ∨ ∀ j ∈ (span 0 6).filter (bit (fld q.params 1 1)), ((t.engOf (fld q.params 0 1)).bias.getD j 0).natAbs < 2250) →
    exec (.biasRecentre q) s = .next (settle (refuse q.org 0x0200 { status := stWRONG_STATE } t)))

/-- R120 and R155. What entering a receiver state leads to is the model's `rxTo` (R152), an acquisition's start its `startAcq`. -/
def Obligations.LossOfSignal : Prop :=
  (∀ (n : Ch) (s : State), s.chDark n = false → s.fld (fHUB_CTRL_ROLE n) ≠ 1 → s.flag (fENG_STATUS_RX_LOS n) = true →
    exec (.rxLosSet n) s = .next (settle s)) ∧
  (∀ (n : Ch) (s : State), s.chDark n = false → s.fld (fHUB_CTRL_ROLE n) ≠ 1 → s.flag (fENG_STATUS_RX_LOS n) = false →
    s.fld (fTST_LOOP_DEPTH n) ≠ 4 → s.fld (fTST_LOOP_DEPTH n) ≠ 5 → ∃ u, u.flag (fENG_STATUS_RX_LOS n) = true ∧
      OnlyRegs [rENG_STATUS n, rLINE_RX_STATUS n] s u ∧
      (s.rxSt n = 8 → exec (.rxLosSet n) s = .next (settle (rxTo n 9 u)) ∧ u.flag (fLINE_RX_STATUS_HOLDING n) = true ∧ (u.lineOf n).heldAt = s.life ∧
        Logged s u [(0x0252, bCH n, s.fld (fLINE_RX_EST1_SNR_EST n), 0)]) ∧
      (2 ≤ s.rxSt n ∧ s.rxSt n ≤ 7 → exec (.rxLosSet n) s = .next (settle (rxTo n 1 u)) ∧ (u.lineOf n).reacq = false ∧ u.cb = s.cb) ∧
      (s.rxSt n < 2 ∨ 8 < s.rxSt n → exec (.rxLosSet n) s = .next (settle (losFollow n u)) ∧ u.cb = s.cb ∧ u.line = s.line)) ∧
  (∀ (n : Ch) (s : State), s.chDark n = false → s.fld (fHUB_CTRL_ROLE n) ≠ 1 → s.rxDead n = false →
    s.flag (fENG_STATUS_RX_LOS n) = true → ∃ u, u.flag (fENG_STATUS_RX_LOS n) = false ∧ u = { s with regs := u.regs } ∧ OnlyRegs [rENG_STATUS n] s u ∧
      (s.rxSt n = 9 → exec (.rxLosCleared n) s = .next (settle (startAcq n 5 false true u))) ∧
      (s.rxSt n ≠ 9 → exec (.rxLosCleared n) s = .next (settle (losFollow n u)))) ∧
  (∀ (n : Ch) (s : State), s.chDark n = false → s.fld (fHUB_CTRL_ROLE n) ≠ 1 → s.flag (fENG_STATUS_RX_LOS n) = false →
    exec (.rxLosCleared n) s = .next (settle s)) ∧
  (∀ (n : Ch) (s : State), s.fld (fHUB_CTRL_ROLE n) = 1 → exec (.rxLosSet n) s = .next (settle s) ∧ exec (.rxLosCleared n) s = .next (settle s)) ∧
  (∀ (n : Ch) (s : State), s.rxDead n = true ↔ (s.engOf n).feedLost = true ∨ ∃ c : Ch, s.flag (fCONV_STATUS_FAILED n c) = true)

/-- Converter rules of spec 06; `found` and `pass` are what the comparison and the tests decide. -/
def Obligations.ConverterSlices : Prop :=
  (∀ (n : Ch) (corr : List (Nat × Int × Int × Int)) (s : State), s.active n = true → s.session (4 + n.val) = none →
    exec (.rotationBoundary n corr) s =
      .next (settle (beginDwell n (((s.engOf n).dwell + 1) % 65) (if s.flag (fCONV_CAL_BG_CAL_EN n) then each corr (takeCorr n) s else s)))) ∧
  (∀ (n : Ch) (d : Nat) (s : State), let t := beginDwell n d s
    (t.engOf n).dwell = d ∧ t.line = s.line ∧ t.cb = s.cb ∧ OnlyRegs [rCONV_STATUS n 0, rCONV_STATUS n 1, rCONV_STATUS n 2, rCONV_STATUS n 3] s t ∧
      ∀ c : Ch, s.rotates n c = true → s.flag (fCONV_STATUS_PERMANENT n c) = false → (s.adc n c).back = [] → s.upos n c ≠ d →
        t.upos n c = 64 ∧ (t.adc n c).next = (if d < 64 then some d else none)) ∧
  (∀ (n : Ch) (i : Nat) (v : Int × Int × Int) (s : State), i < 264 →
    (260 ≤ i ∨ outOfRangeAdj v (s.rd (rCONV_ADJ n i)) = false → (takeCorr n (i, v) s).corrOf n i = v ∧
      (∀ j, j ≠ i → (takeCorr n (i, v) s).corrOf n j = s.corrOf n j) ∧ (takeCorr n (i, v) s).regs = s.regs) ∧
    (i < 260 → outOfRangeAdj v (s.rd (rCONV_ADJ n i)) = true → takeCorr n (i, v) s = sliceFault n (i / 65) (i % 65) s)) ∧
  (∀ (n c : Ch) (k : Nat) (s : State), s.active n = true → s.upos n c ≠ 127 → (∀ x ∈ (s.adc n c).tests, x.1 ≠ 64) → (s.adc n c).next = some k → k < 64 →
    Completes (.understudyHandover n c) s fun t => t.upos n c = k ∧ (t.adc n c).next = none ∧
      (s.fld (fCONV_STATUS_INTERP_POS n c) = k → s.flag (fCONV_STATUS_DEGRADED n c) = false → (∀ x ∈ (s.adc n c).tests, x.1 = k) →
        t.flag (fCONV_STATUS_INTERP_ACTIVE n c) = false) ∧ OnlyRegs [rCONV_STATUS n c] s t ∧ t.cb = s.cb) ∧
  (∀ (n c : Ch) (s : State), exec (.sliceCompare n c none) s = .next (settle s)) ∧
  (∀ (n c : Ch) (k : Fin 65) (s : State), s.active n = true → s.flag (fCONV_STATUS_FAILED n c) = false → k.val ∉ (s.adc n c).lasting →
    (∀ x ∈ (s.adc n c).tests, x.1 ≠ k.val) → recentTransients s n c k < 2 → Completes (.sliceCompare n c (some k)) s fun t =>
      (t.adc n c).tests = (s.adc n c).tests ++ [(k.val, false)] ∧ (t.adc n c).lasting = (s.adc n c).lasting ∧ OnlyRegs [rCONV_STATUS n c] s t ∧ t.cb = s.cb ∧
        (k.val < 64 → (s.adc n c).tests = [] → s.understudyFree n c = true → s.upos n c ≠ k.val → t.upos n c = 64 ∧ (t.adc n c).next = some k.val ∧
          t.fld (fCONV_STATUS_INTERP_POS n c) = k.val ∧ t.flag (fCONV_STATUS_INTERP_ACTIVE n c) = true)) ∧
  (∀ (n c : Ch) (k : Fin 65) (s : State), s.active n = true → s.flag (fCONV_STATUS_FAILED n c) = false → k.val ∉ (s.adc n c).lasting →
    (∀ x ∈ (s.adc n c).tests, x.1 ≠ k.val) → 2 ≤ recentTransients s n c k → (s.adc n c).lasting = [] → k.val < 64 →
    Completes (.sliceCompare n c (some k)) s fun t => (t.adc n c).lasting = [k.val] ∧ t.upos n c = k.val ∧ t.flag (fCONV_STATUS_PERMANENT n c) = true ∧
      t.fld (fPLACE n c) = k.val ∧ t.store.due = true ∧ Logged s t [(0x0231, bCH n, c.val + 256 * k.val, 0)]) ∧
  (∀ (n c : Ch) (k : Nat) (rest : List (Nat × Bool)) (s : State), (s.adc n c).tests = (k, false) :: rest → Completes (.sliceTestComplete n c true) s fun t =>
    (t.adc n c).tests = rest ∧ (t.adc n c).back = (s.adc n c).back ++ [k] ∧ (t.adc n c).trans = (s.adc n c).trans ++ [(k, s.life)] ∧
      t.fld (fCONV_STATUS_TRANSIENTS n c) = sat 255 (s.fld (fCONV_STATUS_TRANSIENTS n c) + 1) ∧ OnlyRegs [rCONV_STATUS n c] s t ∧
      Logged s t [(0x0230, bCH n, c.val + 256 * k, sat 255 (s.fld (fCONV_STATUS_TRANSIENTS n c) + 1))]) ∧
  (∀ (n c : Ch) (k : Nat) (rest : List (Nat × Bool)) (s : State), (s.adc n c).tests = (k, false) :: rest → k < 64 →
    ((s.adc n c).lasting = [] → Completes (.sliceTestComplete n c false) s fun t => t.upos n c = k ∧ t.flag (fCONV_STATUS_PERMANENT n c) = true ∧
      (t.adc n c).lasting = [k] ∧ t.fld (fPLACE n c) = k ∧ t.store.due = true ∧ smGet (fun _ => []) t.perm.slices (4 * n.val + c.val) = [k] ∧
      Logged s t [(0x0231, bCH n, c.val + 256 * k, 0)] ∧ OnlyRegs [rCONV_STATUS n c, rCONV_CTRL n] s t) ∧
    (∀ a, (s.adc n c).lasting = [a] → Completes (.sliceTestComplete n c false) s fun t => t.flag (fCONV_STATUS_DEGRADED n c) = true ∧
      t.fld (fCONV_STATUS_INTERP_POS n c) = k ∧ t.flag (fCONV_STATUS_INTERP_ACTIVE n c) = true ∧ (t.adc n c).lasting = [a, k] ∧
      Logged s t [(0x0232, bCH n, c.val + 256 * k, 0)] ∧ OnlyRegs [rCONV_STATUS n c] s t) ∧
    (∀ a b r, (s.adc n c).lasting = a :: b :: r → ∃ u, exec (.sliceTestComplete n c false) s = .next (settle (nextTest n c (declareLos n u))) ∧
      u.flag (fCONV_STATUS_FAILED n c) = true ∧ Logged s u [(0x0233, bCH n, c.val + 256 * k, 0)] ∧ OnlyRegs [rCONV_STATUS n c] s u)) ∧
  (∀ (n c : Ch) (rest : List (Nat × Bool)) (s : State), (s.adc n c).tests = (64, false) :: rest →
    ((s.adc n c).lasting = [] → Completes (.sliceTestComplete n c false) s fun t => t.upos n c = 127 ∧ (t.adc n c).lasting = [64] ∧ t.store.due = true ∧
      Logged s t [(0x0234, bCH n, c.val, 0)] ∧ OnlyRegs [rCONV_STATUS n c] s t) ∧
    (∀ a, a < 64 → (s.adc n c).lasting = [a] → Completes (.sliceTestComplete n c false) s fun t => t.upos n c = 127 ∧
      t.flag (fCONV_STATUS_PERMANENT n c) = false ∧ t.flag (fCONV_STATUS_DEGRADED n c) = true ∧ t.fld (fCONV_STATUS_INTERP_POS n c) = a ∧
      t.flag (fCONV_STATUS_INTERP_ACTIVE n c) = true ∧ Logged s t [(0x0232, bCH n, c.val + 256 * a, 0)] ∧ OnlyRegs [rCONV_STATUS n c] s t)) ∧
  (∀ (n c : Ch) (k : Nat) (pass : Bool) (rest : List (Nat × Bool)) (s : State), (s.adc n c).tests = (k, true) :: rest → pass = true →
    ∃ u, exec (.sliceTestComplete n c pass) s = .next (settle (targetDone 0x0201 (tConv n c) none [0#8, 0#8] u)) ∧ (u.adc n c).back = (s.adc n c).back ++ [k] ∧
      u.regs = s.regs ∧ u.cb = s.cb) ∧
  (∀ (n c : Ch) (s : State), s.chDark n = false → s.flag (fCONV_STATUS_FAILED n (4 + c.val)) = false → (∀ x ∈ (s.engOf n).dacTests, x.1 ≠ c.val) →
    Completes (.dacFault n c) s fun t => (t.engOf n).dacTests = (s.engOf n).dacTests ++ [(c.val, false)] ∧ t.regs = s.regs ∧ t.cb = s.cb) ∧
  (∀ (n c : Ch) (s : State), ((s.engOf n).dacTests.find? fun x => x.1 == c.val) = some (c.val, false) →
    Completes (.dacTestComplete n c true) s (fun t => t.fld (fCONV_STATUS_TRANSIENTS n (4 + c.val)) = sat 255 (s.fld (fCONV_STATUS_TRANSIENTS n (4 + c.val)) + 1) ∧
      (∀ x ∈ (t.engOf n).dacTests, x.1 ≠ c.val) ∧ OnlyRegs [rCONV_STATUS n (4 + c.val)] s t ∧
      Logged s t [(0x0240, bCH n, 4 + c.val, sat 255 (s.fld (fCONV_STATUS_TRANSIENTS n (4 + c.val)) + 1))]) ∧
    Completes (.dacTestComplete n c false) s (fun t => t.flag (fCONV_STATUS_FAILED n (4 + c.val)) = true ∧ t.flag (fENG_STATUS_TX_DARK n) = true ∧
      (∀ x ∈ (t.engOf n).dacTests, x.1 ≠ c.val) ∧ OnlyRegs [rCONV_STATUS n (4 + c.val), rENG_STATUS n] s t ∧ Logged s t [(0x0241, bCH n, 4 + c.val, 0)])) ∧
  (Does cmdSliceTest .sliceTest (fun q t => t.active (fld q.params 0 1) = true ∧ t.flag (fCONV_STATUS_FAILED (fld q.params 0 1) (fld q.params 1 1)) = false ∧
    (fld q.params 1 1 < 4 → noCover t (fld q.params 0 1) (fld q.params 1 1) = false)) fun q t ans u =>
      (∃ op, ans = .accept op ∧ op.org = q.org ∧ op.targets = [tConv (fld q.params 0 1) (fld q.params 1 1)]) ∧
      (fld q.params 1 1 < 4 → u = testSlice (fld q.params 0 1) (fld q.params 1 1) (fld q.params 2 1) true t) ∧
      (4 ≤ fld q.params 1 1 → (fld q.params 1 1 - 4, true) ∈ (u.engOf (fld q.params 0 1)).dacTests ∧ u.regs = t.regs)) ∧
  (Turned cmdSliceTest .sliceTest (fun q t => t.active (fld q.params 0 1) = false ∨ t.flag (fCONV_STATUS_FAILED (fld q.params 0 1) (fld q.params 1 1)) = true ∨
    (fld q.params 1 1 < 4 ∧ noCover t (fld q.params 0 1) (fld q.params 1 1) = true)) fun _ _ => { status := stWRONG_STATE })

/-- Receiver states of R152 and R155; times by the life timestamp. `losFollow`, `rxDown` and `leafFollow` are the model's names for what loss
of signal, loss of alignment and a leaf's lock lead to. -/
def Obligations.ReceiverAcquisition : Prop :=
  (∀ (n : Ch) (st : Nat) (s : State), st < 16 → ∃ v, rxTo n st s = losFollow n (if s.rxSt n = 8 ∧ st ≠ 8 then rxDown n v else v) ∧ v.rxSt n = st ∧
    (v.flag (fLINE_RX_STATUS_ACQUIRED n) = true ↔ st = 8) ∧ OnlyRegs [rLINE_RX_STATUS n] s v ∧ v = { s with regs := v.regs, line := v.line }) ∧
  (∀ (n : Ch) (st : Nat) (full reacq : Bool) (s : State), ∃ v, startAcq n st full reacq s = rxTo n st v ∧ v.flag (fLINE_RX_STATUS_HOLDING n) = false ∧
    (v.lineOf n).start = s.life ∧ (v.lineOf n).tried = true ∧ (v.lineOf n).fullScan = full ∧ (v.lineOf n).reacq = reacq ∧ (v.lineOf n).failing = none ∧
    (v.lineOf n).centre = (if full then none else s.searchCentre n) ∧ OnlyRegs [rLINE_RX_STATUS n] s v ∧ v = { s with regs := v.regs, line := v.line }) ∧
  (∀ (n : Ch) (s : State), let l := s.lineOf n
    let again := l.held = true ∨ (s.flag (fLINE_RX_CTRL_AUTO_PRESET n) = true ∧ l.tried = true)
    let preset := if s.flag (fLINE_RX_CTRL_PRESET_EN n) = true then some (s.sfld (fLINE_RX_CTRL_CD_PRESET n)) else none
    (again → l.est.isSome = true → s.searchCentre n = l.est) ∧ (¬ again ∨ l.est = none → s.searchCentre n = preset)) ∧
  (∀ (n : Ch) (s : State), s.canAcquire n = true → s.rxSt n ≤ 1 → exec (.acquisitionStart n) s = .next (settle (startAcq n 2 false false s))) ∧
  (∀ (n : Ch) (s : State), s.active n = true → s.flag (fENG_STATUS_BIAS_LOCK n) = true → s.fld (fHUB_CTRL_ROLE n) ≠ 1 →
    (s.flag (fENG_STATUS_RX_LOS n) = false → exec (.acqRestart n) s = .next (settle (startAcq n 2 false false s))) ∧
    (s.flag (fENG_STATUS_RX_LOS n) = true → exec (.acqRestart n) s = .next (settle (rxTo n 1 (s.setB (fLINE_RX_STATUS_HOLDING n) false))))) ∧
  (∀ (n : Ch) (s : State), s.canAcquire n = true → s.rxSt n = 7 → (s.fld (fLINE_MODE_IOP n) ≠ 0 ∨ (s.defect n dOOF = false ∧ s.defect n dLOM = false)) →
    (s.lineOf n).reacq = false → let v := s.bumpF (fLINE_RX_STATUS_ACQ_COUNT n)
      v.fld (fLINE_RX_STATUS_ACQ_COUNT n) = sat 255 (s.fld (fLINE_RX_STATUS_ACQ_COUNT n) + 1) ∧
      ∃ u, u = offer 0x0250 (bCH n) (s.acqMs n) (sat 255 (s.fld (fLINE_RX_STATUS_ACQ_COUNT n) + 1)) (rxTo n 8 v) ∧
        exec (.acquired n) s = .next (settle (leafFollow n (targetDone 0x0210 (tLine n) none (le 1 8 ++ le 2 (u.acqMs n)) u)))) ∧
  (∀ (n : Ch) (far : Nat) (s : State), 2 ≤ s.rxSt n → s.rxSt n ≤ 7 → (s.lineOf n).reacq = false → (s.lineOf n).start.toNat + 2000000000 ≤ s.life.toNat →
    ∃ v, v.flag (fLINE_RX_STATUS_ACQ_FAIL n) = true ∧ Logged s v [(0x0251, bCH n, max (max (s.rxSt n) (s.lineOf n).furthest) (min far 7), 0)] ∧ OnlyRegs [rLINE_RX_STATUS n] s v ∧
      let u := targetFails (tLine n) { status := stTIMEOUT } (le 1 (max (max (s.rxSt n) (s.lineOf n).furthest) (min far 7)) ++ le 2 (s.acqMs n)) v
      exec (.acqFail n far) s = .next (settle (if u.canAcquire n then startAcq n 2 true false u else rxTo n 1 u))) ∧
  (∀ (n : Ch) (far : Nat) (s : State), 2 ≤ s.rxSt n → s.rxSt n ≤ 7 → (s.lineOf n).reacq = true → (s.lineOf n).start.toNat + 20000000 ≤ s.life.toNat →
    s.canAcquire n = true → exec (.acqFail n far) s = .next (settle (startAcq n 2 false false s))) ∧
  (∀ (n : Ch) (s : State), s.rxSt n = 9 → (s.lineOf n).heldAt.toNat + 100000000 ≤ s.life.toNat →
    exec (.holdingExpiry n) s = .next (settle (rxTo n 1 (s.setB (fLINE_RX_STATUS_HOLDING n) false)))) ∧
  (∀ (n : Ch) (s : State), s.rxSt n = 9 → s.life.toNat < (s.lineOf n).heldAt.toNat + 100000000 → exec (.holdingExpiry n) s = .next (settle s)) ∧
  (∀ (n : Ch) (s : State), (s.lineOf n).reacq = true → s.canAcquire n = true → s.rxSt n = 7 →
    (s.fld (fLINE_MODE_IOP n) ≠ 0 ∨ (s.defect n dOOF = false ∧ s.defect n dLOM = false)) → ∃ v, (v.lineOf n).reacq = false ∧ v = { s with line := v.line } ∧
      exec (.reacquiredFromHolding n) s =
        .next (settle (leafFollow n (offer 0x0253 (bCH n) ((s.life.toNat - (s.lineOf n).start.toNat) / 1000) 0 (rxTo n 8 v))))) ∧
  (∀ (n : Ch) (since : BitVec 64) (s : State), (s.lineOf n).failing = some since → 6 ≤ s.rxSt n → s.rxSt n ≤ 8 → since.toNat + 10000000 ≤ s.life.toNat →
    s.flag (fLINE_RX_STATUS_MODE_SUSPECT n) = false → Completes (.modeSuspect n) s fun t => t.flag (fLINE_RX_STATUS_MODE_SUSPECT n) = true ∧
      Logged s t [(0x0254, bCH n, s.fld (fLINE_RX_EST1_FREQ_EST n), 0)] ∧ OnlyRegs [rLINE_RX_STATUS n] s t ∧ t.rxSt n = s.rxSt n ∧ t.line = s.line) ∧
  (∀ (n : Ch) (freq : Int) (s : State), s.rxSt n = 8 → s.fld (fHUB_CTRL_ROLE n) ≠ 1 → 3600 < freq.natAbs → s.canAcquire n = true →
    ∃ v, v.fld (fLINE_RX_EST1_FREQ_EST n) = sat16 freq ∧ Logged s v [(0x0256, bCH n, sat16 freq, 0)] ∧ OnlyRegs [rLINE_RX_EST1 n] s v ∧
      exec (.frequencyTrackingLost n freq) s = .next (settle (startAcq n 2 false false v)))

/-- Sizing of R138 to R144: H is the least with 1,700 n H at least 100 N x 4,773. -/
def Obligations.LineAndEngineRequests : Prop :=
  (Does cmdLineAcquire .lineAcquire (fun q t => t.active (fld q.params 0 1) = true ∧ t.flag (fENG_STATUS_BIAS_LOCK (fld q.params 0 1)) = true) fun q t ans u =>
    u = acqRestart (fld q.params 0 1) t ∧ ∃ op, ans = .accept op ∧ op.org = q.org ∧ op.holds = [resCH (fld q.params 0 1)] ∧ op.targets = [tLine (fld q.params 0 1)]) ∧
  (Turned cmdLineAcquire .lineAcquire (fun q t => t.active (fld q.params 0 1) = false ∨ t.flag (fENG_STATUS_BIAS_LOCK (fld q.params 0 1)) = false)
    fun _ _ => { status := stWRONG_STATE }) ∧
  (Does cmdLineReport .lineReport (fun _ _ => True) fun q t ans u => u = t ∧ ∃ ps, ans = .done ps ∧ ps.length = 44 ∧
    fld ps 0 4 = (t.shown (rLINE_RX_STATUS (fld q.params 0 1))).toNat ∧ fld ps 4 4 = (t.shown (rLINE_RX_EST0 (fld q.params 0 1))).toNat ∧
    fld ps 8 4 = (t.shown (rLINE_RX_EST1 (fld q.params 0 1))).toNat ∧
    ∀ m, m < 8 → fld ps (12 + 4 * m) 4 = (t.shown (rLINE_SC_SNR (fld q.params 0 1) m)).toNat) ∧
  (Does cmdLinePlan .linePlan (fun q _ => entropyFits (fld q.params 2 1) (entropyOf (fld q.params 0 1) (fld q.params 1 1)) = true) fun q t ans u =>
    u = t ∧ ∃ ps, ans = .done ps ∧ ps.length = 6 ∧
      (let N := fld q.params 0 1
       let n := fld q.params 1 1
       let h := fld ps 0 2
       let w := fld ps 4 2
       N * 100 * 4773 ≤ 1700 * n * h ∧ 1700 * n * (h - 1) < N * 100 * 4773 ∧ w % 125 = 0 ∧ (n - 1) * 215 + 255 ≤ w ∧ w < (n - 1) * 215 + 255 + 125 ∧
       (q.params = [24#8, 12#8, 1#8, 5#8, 0#8] → h = 562 ∧ fld ps 2 2 = 302 ∧ w = 2625))) ∧
  (Turned cmdLinePlan .linePlan (fun q _ => entropyFits (fld q.params 2 1) (entropyOf (fld q.params 0 1) (fld q.params 1 1)) = false)
    fun _ _ => { status := stCONFLICT, off := 1 }) ∧
  (Does cmdEngReport .engReport (fun _ _ => True) fun q t ans u => u = t ∧ ∃ ps, ans = .done ps ∧ ps.length = 60 ∧
    (∀ j, j < 6 → t.chDark (fld q.params 0 1) = false → fld ps (4 * j) 2 = unsigned 16 ((t.engOf (fld q.params 0 1)).bias.getD j 0)) ∧
    (∀ j, j < 6 → t.chDark (fld q.params 0 1) = true → fld ps (4 * j) 2 = 0) ∧
    (∀ j, j < 6 → fld ps (4 * j + 2) 2 = (if t.loopsRun (fld q.params 0 1) then sat16 ((t.engOf (fld q.params 0 1)).err.getD j 0) else 0x8000)) ∧
    fld ps 24 4 = (t.shown (rENG_STATUS (fld q.params 0 1))).toNat ∧
    ∀ c, c < 8 → fld ps (28 + 4 * c) 4 = (t.shown (rCONV_STATUS (fld q.params 0 1) c)).toNat)

/-- Burst reception up to commit (spec 08). Times within a grant are in 0.125 ns from its start, levels in 0.01 dB. -/
def Obligations.BurstDetection : Prop :=
  (∀ (n : Ch) (g : Fin 4096) (s : State), s.isHub n = true → s.flag (fGRANT_B_VALID n g) = true → s.leafBound n (s.fld (fGRANT_B_LEAF n g)) = true →
    s.flipsIn (stLEAF n) (s.fld (fGRANT_B_LEAF n g)) < 2 →
    Completes (.grantStart n g) s fun t => t.regs = s.regs ∧ t.cb = s.cb ∧ Counted (cSRAM (stLEAF n) 0) (s.flipsIn (stLEAF n) (s.fld (fGRANT_B_LEAF n g))) s t ∧
      t.brx n (s.fld (fGRANT_A_SC n g)) = { BurstRx.init with grant := some g.val, presets := (s.sfld (fLEAF_W3_EXP_PWR n (s.fld (fGRANT_B_LEAF n g))),
        s.sfld (fLEAF_W2_CD_LEARNT n (s.fld (fGRANT_B_LEAF n g))), s.sfld (fLEAF_W4_FREQ_HIST n (s.fld (fGRANT_B_LEAF n g)))) } ∧
      ∀ sc, sc ≠ s.fld (fGRANT_A_SC n g) → t.brx n sc = s.brx n sc) ∧
  (∀ (n : Ch) (g : Fin 4096) (s : State), s.isHub n = true → s.flag (fGRANT_B_VALID n g) = true → s.leafBound n (s.fld (fGRANT_B_LEAF n g)) = true →
    2 ≤ s.flipsIn (stLEAF n) (s.fld (fGRANT_B_LEAF n g)) → let i := s.fld (fGRANT_B_LEAF n g)
    Completes (.grantStart n g) s fun t => (t.brx n (s.fld (fGRANT_A_SC n g))).discard = true ∧ t.armed n (s.fld (fGRANT_A_SC n g)) = false ∧
      t.sfld (fLEAF_W4_FREQ_HIST n i) = 0 ∧ t.fld (fLEAF_W2_CD_LEARNT n i) = s.fld (fLEAF_W2_CD_PRESET n i) ∧ t.flipsIn (stLEAF n) i = 0 ∧
      Counted (cSRAM (stLEAF n) 1) 1 s t ∧ Logged s t [(0x0A10, bCH n, stLEAF n + 256 * i, 0)] ∧ OnlyRegs [rLEAF_W4 n i, rLEAF_W2 n i] s t) ∧
  (∀ (n : Ch) (g : Fin 4096) (s : State), s.isHub n = true → s.flag (fGRANT_B_VALID n g) = true → s.leafBound n (s.fld (fGRANT_B_LEAF n g)) = false →
    Completes (.grantStart n g) s fun t => t.hub = s.hub ∧ t.regs = s.regs ∧ t.cb = s.cb ∧ t.cnt = s.cnt) ∧
  (∀ (n : Ch) (g : Fin 4096) (s : State), s.isHub n = false ∨ s.flag (fGRANT_B_VALID n g) = false → exec (.grantStart n g) s = .next (settle s)) ∧
  (∀ (n : Ch) (sc : Fin 16) (d : Nat) (level : Int) (s : State), s.armed n sc = true → (s.brx n sc).det = none →
    Completes (.burstDetected n sc d level) s fun t => t.brx n sc = { s.brx n sc with det := some d, level := level, fine := true } ∧
      (∀ j, j ≠ sc.val → t.brx n j = s.brx n j) ∧ t.regs = s.regs ∧ t.cb = s.cb ∧ t.cnt = s.cnt) ∧
  (∀ (n : Ch) (sc : Fin 16) (d x : Nat) (s : State), s.armed n sc = true → (s.brx n sc).det = some d →
    (d + (if (s.brx n sc).grant.isSome then 512 else 4800) ≤ x → Completes (.falseStart n sc x) s fun t => (t.brx n sc).det = none ∧
      (t.brx n sc).grant = (s.brx n sc).grant ∧ t.armed n sc = true ∧ Counted (cCH n 24) 1 s t ∧ (t.hubOf n).falseSec = (s.hubOf n).falseSec + 1 ∧
      (∀ j, j ≠ sc.val → t.brx n j = s.brx n j) ∧ t.regs = s.regs ∧ t.cb = s.cb) ∧
    (x < d + (if (s.brx n sc).grant.isSome then 512 else 4800) → exec (.falseStart n sc x) s = .next (settle s))) ∧
  (∀ (n : Ch) (sc : Fin 16) (x : Nat) (level : Int) (s : State), s.armed n sc = true → (s.brx n sc).det.isSome = true →
    ((s.brx n sc).level + 300 ≤ level → Completes (.burstCapture n sc x level) s fun t => Counted (cCH n 25) 1 s t ∧ t.counter (cCH n 24) = s.counter (cCH n 24) ∧
      t.brx n sc = { s.brx n sc with det := some x, level := level, fine := (s.brx n sc).grant.isNone || decide (x ≤ 448) } ∧
      (∀ j, j ≠ sc.val → t.brx n j = s.brx n j) ∧ t.regs = s.regs ∧ t.cb = s.cb) ∧
    (level < (s.brx n sc).level + 300 → exec (.burstCapture n sc x level) s = .next (settle s)))

/-- Burst reception from commit on (spec 08). `i` is the grant's owner. Corrections between 2 ns and 4 ns follow four bursts in a row (R179);
the statement speaks of the others. -/
def Obligations.BurstReception : Prop :=
  (∀ (n : Ch) (sc : Fin 16) (g : Fin 4096) (e : Int) (s : State), s.armed n sc = true → (s.brx n sc).grant = some g.val → (s.brx n sc).det.isSome = true →
    e.natAbs ≤ 192 → let i := s.fld (fGRANT_B_LEAF n g)
    Completes (.burstCommit n sc e) s fun t => t.brx n sc = { s.brx n sc with commit := some e } ∧ Counted (kLeaf n i 6) 1 s t ∧
      t.flag (fHUB_STATUS_HUB_LOS n) = false ∧ (s.flag (fHUB_STATUS_HUB_LOS n) = true → t.fld (fLINE_RX_STATUS_STATE n) = 8) ∧
      t.fld (fLEAF_W6_MISRANGED n i) = (if 64 < e.natAbs then sat 65535 (s.fld (fLEAF_W6_MISRANGED n i) + 1) else s.fld (fLEAF_W6_MISRANGED n i)) ∧
      (32 < e.natAbs → t.fld (fLEAF_W1_RTD n i) = ((s.fld (fLEAF_W1_RTD n i) : Int) + e).toNat % 2 ^ 24) ∧
      (e.natAbs ≤ 16 → t.fld (fLEAF_W1_RTD n i) = s.fld (fLEAF_W1_RTD n i)) ∧
      Logged s t ((if s.flag (fHUB_STATUS_HUB_LOS n) then [(0x030C, bCH n, 0, 0)] else []) ++
        (if 64 < e.natAbs then [(0x0306, bCH n, i, unsigned 16 e)] else [])) ∧
      OnlyRegs [rHUB_STATUS n, rLINE_RX_STATUS n, rLEAF_W6 n i, rLEAF_W1 n i] s t) ∧
  (∀ (n : Ch) (sc : Fin 16) (g : Nat) (e : Int) (s : State), s.armed n sc = true → (s.brx n sc).grant = some g → (s.brx n sc).det.isSome = true →
    192 < e.natAbs → Completes (.burstCommit n sc e) s fun t => (t.brx n sc).commit = none ∧ (t.brx n sc).det = none ∧ Counted (cCH n 26) 1 s t ∧
      t.flag (fHUB_STATUS_HUB_LOS n) = false ∧ OnlyRegs [rHUB_STATUS n, rLINE_RX_STATUS n] s t) ∧
  (∀ (n : Ch) (sc : Fin 16) (g : Nat) (e : Int) (d : Codeword) (s : State), s.isHub n = true → (s.brx n sc).grant = some g → (s.brx n sc).commit = some e →
    (s.brx n sc).desc = none → (s.brx n sc).discard = false → let i := s.fld (fGRANT_B_LEAF n g)
    let r := Qc.descriptor.decode d.est.length d
    let x := slice r.2 0 32
    let good := r.1.ok = true ∧ descGood x = true
    Completes (.burstDescriptor n sc d) s fun t =>
      (good → descLeaf x = i → t.brx n sc = { s.brx n sc with desc := some ⟨fld x 2 6, fld x 8 2, fld x 10 5, fld x 15 1⟩ } ∧
        t.fld (fLEAF_W0_STATE n i) = (if s.fld (fLEAF_W0_STATE n i) = 1 then 2 else s.fld (fLEAF_W0_STATE n i)) ∧
        Logged s t (if s.fld (fLEAF_W0_STATE n i) = 1 then [(0x0303, bCH n, i, unsigned 16 e)] else []) ∧ t.cnt = s.cnt ∧
        OnlyRegs [rLEAF_W0 n i, rHUB_STATUS n] s t) ∧
      (¬ (good ∧ descLeaf x = i) → t.brx n sc = { s.brx n sc with discard := true } ∧
        t.fld (fLEAF_W6_WRONG_ID n i) = sat 65535 (s.fld (fLEAF_W6_WRONG_ID n i) + 1) ∧ Counted (kLeaf n i 3) 1 s t ∧
        (good → t.counter (cCH n 11) = s.counter (cCH n 11)) ∧ (¬ good → Counted (cCH n 11) 1 s t) ∧
        Logged s t [(0x0307, bCH n, i + 65536 * (if r.1.ok then descLeaf x else 0x3FF), 0)] ∧ OnlyRegs [rLEAF_W6 n i] s t)) ∧
  (∀ (n : Ch) (sc : Fin 16) (g : Nat) (step : Int) (s : State), s.isHub n = true → (s.brx n sc).grant = some g → (s.brx n sc).commit.isSome = true →
    (s.brx n sc).collided = false → 600 < step.natAbs → let i := s.fld (fGRANT_B_LEAF n g)
    Completes (.burstCollision n sc step) s fun t => t.brx n sc = { s.brx n sc with collided := true } ∧ Counted (kLeaf n i 0) 1 s t ∧
      t.fld (fLEAF_W5_ROGUE n i) = sat 65535 (s.fld (fLEAF_W5_ROGUE n i) + 1) ∧ (t.leafX n i).rogueSec = (s.leafX n i).rogueSec + 1 ∧
      Logged s t [(0x0305, bCH n, i + 1024 * sc.val, sat 65535 (s.fld (fLEAF_W5_ROGUE n i) + 1))] ∧ OnlyRegs [rLEAF_W5 n i] s t) ∧
  (∀ (n : Ch) (sc : Fin 16) (step : Int) (s : State), (s.brx n sc).collided = true ∨ step.natAbs ≤ 600 →
    exec (.burstCollision n sc step) s = .next (settle s)) ∧
  (∀ (n : Ch) (sc : Fin 16) (g k : Nat) (cw : Codeword) (s : State), s.isHub n = true → (s.brx n sc).grant = some g →
    (burstCws (burstBlocks (s.fld (fGRANT_A_LEN n g))))[(s.brx n sc).chunks.length]? = some k → (s.brx n sc).desc.isSome = true → (s.brx n sc).discard = false →
    let i := s.fld (fGRANT_B_LEAF n g)
    let r := burstDecode (1 + k / 256) cw
    Completes (.burstCodewordDecoded n sc cw) s fun t => t.brx n sc = { s.brx n sc with chunks := (s.brx n sc).chunks ++ [(r.1.ok, slice r.2 0 k)] } ∧
      Counted (cCH n 8) 1 s t ∧ Counted (kLeaf n i 4) 1 s t ∧ Counted (cCH n 10) (if r.1.ok then r.1.errs else 0) s t ∧
      Counted (cCH n 9) (if r.1.ok then 0 else 1) s t ∧ Counted (kLeaf n i 5) (if r.1.ok then 0 else 1) s t ∧ t.regs = s.regs ∧ t.cb = s.cb) ∧
  (∀ (n : Ch) (sc : Fin 16) (g : Nat) (power afc cd : Int) (s : State), s.isHub n = true → (s.brx n sc).grant = some g → (s.brx n sc).commit = none →
    let i := s.fld (fGRANT_B_LEAF n g)
    Completes (.burstEnd n sc power afc cd) s fun t => t.brx n sc = BurstRx.init ∧ Counted (kLeaf n i 1) 1 s t ∧
      t.fld (fLEAF_W5_MISSED n i) = sat 65535 (s.fld (fLEAF_W5_MISSED n i) + 1) ∧ t.fld (fLEAF_W0_STATE n i) = s.fld (fLEAF_W0_STATE n i) ∧
      Logged s t (if (s.leafX n i).missRun + 1 = 10 then [(0x0308, bCH n, i, 0)] else []) ∧ OnlyRegs [rLEAF_W5 n i] s t) ∧
  (∀ (n : Ch) (sc : Fin 16) (g : Nat) (power afc cd : Int) (s : State), s.isHub n = true → (s.brx n sc).grant = some g → (s.brx n sc).commit.isSome = true →
    let i := s.fld (fGRANT_B_LEAF n g)
    let old := s.sfld (fLEAF_W4_FREQ_HIST n i)
    Completes (.burstEnd n sc power afc cd) s fun t => t.brx n sc = BurstRx.init ∧ t.fld (fLEAF_W4_POWER_LAST n i) = sat16 power ∧
      t.fld (fLEAF_W2_CD_LEARNT n i) = sat16 cd ∧ t.fld (fLEAF_W4_FREQ_HIST n i) = sat16 (if (s.brx n sc).fine then (7 * old + afc) / 8 else old) ∧
      t.flag (fHUB_STATUS_POWER_DEV n) = (s.flag (fHUB_STATUS_POWER_DEV n) || decide (300 < (power - 25 * s.sfld (fLEAF_W3_EXP_PWR n i)).natAbs)) ∧
      OnlyRegs [rLEAF_W4 n i, rLEAF_W2 n i, rHUB_STATUS n] s t ∧ t.cb = s.cb ∧
      ((s.brx n sc).discard = true ∨ (s.brx n sc).desc = none → (t.hubOf n).segs = (s.hubOf n).segs ∧ (t.hubOf n).tags = (s.hubOf n).tags)) ∧
  (∀ (n : Ch) (sc : Fin 16) (g : Nat) (power afc cd : Int) (d : Desc) (bs : List Byte) (s : State), s.isHub n = true → (s.brx n sc).grant = some g →
    (s.brx n sc).commit.isSome = true → (s.brx n sc).discard = false → (s.brx n sc).desc = some d → let i := s.fld (fGRANT_B_LEAF n g)
    (d.frames = 1 → d.tags = 0 → clientSlots s.rx n i ≠ [] → chunkBytes (s.brx n sc).chunks 0 (32 * (clientSlots s.rx n i).length) = some bs →
      (s.hubOf n).nextRel = none → Completes (.burstEnd n sc power afc cd) s fun t => (t.hubOf n).segs = (s.hubOf n).segs ++ [(d.first % 2 ^ 48, i, bs)]) ∧
    (d.frames = 0 → d.tags = 1 → chunkBytes (s.brx n sc).chunks 0 16 = some bs → Completes (.burstEnd n sc power afc cd) s fun t =>
      (t.hubOf n).tags = (s.hubOf n).tags ++ [(i, d.firstTag % 2 ^ 40, bs)] ∧ (t.hubOf n).segs = (s.hubOf n).segs) ∧
    (d.frames = 0 → d.tags = 1 → chunkBytes (s.brx n sc).chunks 0 16 = none → Completes (.burstEnd n sc power afc cd) s fun t =>
      (t.hubOf n).tags = (s.hubOf n).tags))

/-- Stage door and the checks of every second (spec 08). Times in 0.125 ns. -/
def Obligations.StageDoor : Prop :=
  (∀ (n : Ch) (s : State), s.isHub n = true → s.flag (fHUB_SD_SD_EN n) = true → s.hubCycle n % (10 * s.fld (fHUB_SD_PERIOD_PERIOD n)) = 0 →
    Completes (.stageDoorOpening n true) s fun t => t.flag (fHUB_STATUS_SD_OPEN n) = true ∧ OnlyRegs [rHUB_STATUS n] s t ∧ t.hub = s.hub ∧ t.cb = s.cb) ∧
  (∀ (n : Ch) (s : State), s.flag (fHUB_SD_SD_EN n) = false ∨ s.hubCycle n % (10 * s.fld (fHUB_SD_PERIOD_PERIOD n)) ≠ 0 →
    exec (.stageDoorOpening n true) s = .next (settle s)) ∧
  (∀ (n : Ch) (s : State), s.isHub n = true →
    Completes (.stageDoorOpening n false) s fun t => t.flag (fHUB_STATUS_SD_OPEN n) = false ∧ OnlyRegs [rHUB_STATUS n] s t ∧ t.cb = s.cb ∧
      ∀ j, t.brx n j = if j = s.fld (fHUB_SD_SD_SC n) ∧ (s.brx n j).grant = none then BurstRx.init else s.brx n j) ∧
  (∀ (n : Ch) (msg : Codeword) (collided : Bool) (rtd : Nat) (power freq : Int) (s : State), s.isHub n = true → s.rxDead n = false →
    s.flag (fHUB_STATUS_SD_OPEN n) = true → let r := Qc.discovery.decode msg.est.length msg
    let m := slice r.2 0 36
    let good := r.1.ok = true ∧ fld m 32 4 = (crc32c (slice m 0 32)).toNat
    let los := if s.flag (fHUB_STATUS_HUB_LOS n) then [(0x030C, bCH n, 0, 0)] else []
    let e : SdEntry := ⟨fld m 0 8, slice m 8 16, rtd, power, freq, fld m 28 1 % 16, slice m 24 4, s.life, 1⟩
    let known := (s.hubOf n).list.find? fun x => x.serial == fld m 0 8
    Completes (.discoveryBurstReceived n msg collided rtd power freq) s fun t => Counted (cCH n 27) (b2n collided) s t ∧ t.flag (fHUB_STATUS_HUB_LOS n) = false ∧
      (∀ j, (t.brx n j).det = if j = s.fld (fHUB_SD_SD_SC n) ∧ (s.brx n j).grant = none then none else (s.brx n j).det) ∧
      (¬ good → OnlyRegs [rHUB_STATUS n, rLINE_RX_STATUS n] s t ∧ Logged s t los ∧ (t.hubOf n).list = (s.hubOf n).list ∧ (t.hubOf n).msgs = (s.hubOf n).msgs) ∧
      (∀ i, good → s.boundTo n (fld m 0 8) = some i → t.fld (fLEAF_W1_RTD n i) = rtd % 2 ^ 24 ∧ t.fld (fLEAF_W0_STATE n i) = 1 ∧
        (t.hubOf n).list = (s.hubOf n).list ∧
        (t.hubOf n).msgs = (s.hubOf n).msgs ++ [(fld m 28 1 % 16, leafMsg 5 i (unle (slice m 24 4) * 256 + fld m 0 8 % 256)),
          (fld m 28 1 % 16, leafMsg 6 i (s.fld (fLEAF_W0_DS_SC n i) * 2 ^ 24 + rtd % 2 ^ 24))] ∧
        Logged s t (los ++ [(0x0304, bCH n, i, 0)]) ∧ OnlyRegs [rLEAF_W0 n i, rLEAF_W1 n i, rHUB_STATUS n, rLINE_RX_STATUS n, rMEM_SFLIP] s t) ∧
      (good → s.boundTo n (fld m 0 8) = none → known = none → (s.hubOf n).list.length < 64 → (t.hubOf n).list = (s.hubOf n).list ++ [e] ∧
        Logged s t (los ++ [(0x0301, bCH n, fld m 0 8 % 2 ^ 32, rtd / 64)]) ∧ OnlyRegs [rHUB_STATUS n, rLINE_RX_STATUS n] s t) ∧
      (∀ x, good → s.boundTo n (fld m 0 8) = none → known = some x → (t.hubOf n).list.length = (s.hubOf n).list.length ∧
        ((t.hubOf n).list.find? fun y => y.serial == fld m 0 8) = some { e with bursts := x.bursts + 1 } ∧ Logged s t los ∧
        OnlyRegs [rHUB_STATUS n, rLINE_RX_STATUS n] s t)) ∧
  (∀ (n : Ch) (serial : Nat) (s : State), Completes (.stageDoorEntryAged n serial) s fun t => t.regs = s.regs ∧ t.cb = s.cb ∧
    ∀ e, e ∈ (t.hubOf n).list ↔ e ∈ (s.hubOf n).list ∧ (e.serial ≠ serial ∨ s.life.toNat < e.heard.toNat + 10000000000)) ∧
  (∀ (n : Ch) (s : State), Completes (.falseStartRateHigh n) s fun t => (t.hubOf n).falseSec = 0 ∧ OnlyRegs [] s t ∧
    Logged s t (if 10000 < (s.hubOf n).falseSec then [(0x0312, bCH n, (s.hubOf n).falseSec, 0)] else [])) ∧
  (∀ (n : Ch) (s : State), s.fld (fHUB_ROGUE_ROGUE_LIMIT n) = 0 → Completes (.rogueLimitCheck n) s fun t => t.regs = s.regs ∧ t.cb = s.cb ∧
    ∀ i, (t.leafX n i).rogueSec = 0) ∧
  (∀ (n : Ch) (s : State), s.fld (fHUB_ROGUE_ROGUE_LIMIT n) ≠ 0 → Completes (.rogueLimitCheck n) s fun t =>
    ∀ i x, i < 1024 → (i, x) ∈ (s.hubOf n).leaves → s.fld (fHUB_ROGUE_ROGUE_LIMIT n) ≤ x.rogueSec → s.leafBound n i = true →
      t.fld (fLEAF_W0_STATE n i) = 3)

/-- Hub rules of spec 08. `carryOut` is the model's carrying out of a cue; for the grants block it is `grantsForce` (R173), and
`intoForce` writes every Cue field of the bank. -/
def Obligations.HubLossAndFrames : Prop :=
  (∀ (n : Ch) (s : State), s.isHub n = true → s.flag (fHUB_STATUS_HUB_LOS n) = false → grantsIn s.regs n ≠ [] → Completes (.hubLosSet n) s fun t =>
    t.flag (fHUB_STATUS_HUB_LOS n) = true ∧ t.fld (fLINE_RX_STATUS_STATE n) = 1 ∧ Logged s t [(0x030B, bCH n, 0, 0)] ∧
      OnlyRegs [rHUB_STATUS n, rLINE_RX_STATUS n] s t ∧ t.hub = s.hub) ∧
  (∀ (n : Ch) (s : State), s.flag (fHUB_STATUS_HUB_LOS n) = true ∨ grantsIn s.regs n = [] → exec (.hubLosSet n) s = .next (settle s)) ∧
  (∀ (n : Ch) (f : Nat) (s : State), (s.hubOf n).nextRel = some f → s.isHub n = true → s.rxDead n = false → s.playoutOver n f = true →
    Completes (.upstreamFrameRelease n) s fun t => (t.hubOf n).nextRel = some ((f + 1) % 2 ^ 48) ∧
      (t.hubOf n).segs = (s.hubOf n).segs.filter (fun e => e.1 != f) ∧ (t.ohOf n).lastFn = f ∧ ∀ m : Ch, m ≠ n → t.hubOf m = s.hubOf m) ∧
  (∀ (n : Ch) (f : Nat) (s : State), (s.hubOf n).nextRel = some f → s.rxDead n = true ∨ s.playoutOver n f = false → exec (.upstreamFrameRelease n) s = .next (settle s)) ∧
  (∀ (n : Ch) (c : Nat) (r : Rehearsal) (p : Pending) (s : State), (s.hubOf n).mapCycle = some c → s.isHub n = true → cycleReached (s.hubCycle n) c = true →
    s.session (12 + n.val) = some r → r.cue = some p → ∃ u, exec (.grantMapInForce n) s = .next (settle (cueOver (12 + n.val) 0 u)) ∧
      (u.hubOf n).mapCycle = none ∧ u.flag (fHUB_STATUS_MAP_PENDING n) = false ∧ u.session (12 + n.val) = none ∧
      OnlyRegs [rHUB_STATUS n, rLINE_RX_STATUS n] (intoForce (12 + n.val) r.bank s) u ∧ ∃ k, Logged s u [(0x030D, bCH n, c, k)]) ∧
  (∀ (n : Ch) (s : State), (∀ c, (s.hubOf n).mapCycle = some c → cycleReached (s.hubCycle n) c = false) → exec (.grantMapInForce n) s = .next (settle s))

/-- Requests of R197. The reply of HUB_LEAF_ADMIT follows its join reply. -/
def Obligations.HubRequests : Prop :=
  (∀ x ∈ [(cmdHubSdList, Instr.hubSdList), (cmdHubLeafAdmit, .hubLeafAdmit), (cmdHubLeafEvict, .hubLeafEvict), (cmdHubLeafSilence, .hubLeafSilence),
      (cmdHubReport, .hubReport), (cmdHubLeafReport, .hubLeafReport)],
    Turned x.1 x.2 (fun q t => t.fld (fHUB_CTRL_ROLE (fld q.params 0 1)) ≠ 1) fun _ _ => { status := stWRONG_STATE }) ∧
  (Does cmdHubSdList .hubSdList (fun q t => t.fld (fHUB_CTRL_ROLE (fld q.params 0 1)) = 1) fun q t ans u => u = t ∧
    ans = .done ([BitVec.ofNat 8 (t.hubOf (fld q.params 0 1)).list.length, 0#8] ++ (t.hubOf (fld q.params 0 1)).list.flatMap (sdBytes t))) ∧
  (Does cmdHubLeafAdmit .hubLeafAdmit (fun q t => let n := fld q.params 0 1
      let i := fld q.params 2 2
      t.fld (fHUB_CTRL_ROLE n) = 1 ∧ t.flag (fLEAF_W0_VALID n i) = true ∧ t.fld (fLEAF_W0_STATE n i) = 0 ∧ t.boundTo n (fld q.params 4 8) = none ∧
        ∃ e, ((t.hubOf n).list.find? fun e => e.serial == fld q.params 4 8) = some e ∧ e.rtd + 174000 * 8 ≤ t.fld (fHUB_PLAYOUT_PLAYOUT n) * 8000)
    fun q t ans u => let n := fld q.params 0 1
      let i := fld q.params 2 2
      let serial := fld q.params 4 8
      ∃ e, ((t.hubOf n).list.find? fun e => e.serial == serial) = some e ∧ u.fld (fLEAF_W0_STATE n i) = 1 ∧ u.leafSerial n i = serial ∧
        u.fld (fLEAF_W1_RTD n i) = e.rtd % 2 ^ 24 ∧ u.fld (fLEAF_W2_CD_LEARNT n i) = t.fld (fLEAF_W2_CD_PRESET n i) ∧
        (∀ k, k < 8 → u.counter (kLeaf n i k) = 0) ∧ u.rd (rLEAF_W5 n i) = 0#32 ∧ u.rd (rLEAF_W6 n i) = 0#32 ∧
        (∀ y ∈ (u.hubOf n).list, y.serial ≠ serial) ∧ (u.hubOf n).msgs.length = (t.hubOf n).msgs.length + 2 ∧
        Logged t u [(0x0302, bCH n, i + 1024 * (e.rtd / 64), 0)] ∧ ∃ op, ans = .defer op ∧ op.org = q.org ∧ op.targets = [tJoin n i] ∧ op.reply = true) ∧
  (Turned cmdHubLeafAdmit .hubLeafAdmit (fun q t => let n := fld q.params 0 1
      t.fld (fHUB_CTRL_ROLE n) = 1 ∧ (t.flag (fLEAF_W0_VALID n (fld q.params 2 2)) = false ∨ t.fld (fLEAF_W0_STATE n (fld q.params 2 2)) ≠ 0 ∨
        ∀ e ∈ (t.hubOf n).list, e.serial ≠ fld q.params 4 8)) fun _ _ => { status := stWRONG_STATE }) ∧
  (Turned cmdHubLeafAdmit .hubLeafAdmit (fun q t => let n := fld q.params 0 1
      t.fld (fHUB_CTRL_ROLE n) = 1 ∧ t.flag (fLEAF_W0_VALID n (fld q.params 2 2)) = true ∧ t.fld (fLEAF_W0_STATE n (fld q.params 2 2)) = 0 ∧
        ∃ e, ((t.hubOf n).list.find? fun e => e.serial == fld q.params 4 8) = some e ∧
          ((t.boundTo n (fld q.params 4 8)).isSome = true ∨ t.fld (fHUB_PLAYOUT_PLAYOUT n) * 8000 < e.rtd + 174000 * 8))
    fun q _ => { status := stCONFLICT, b1 := bCH (fld q.params 0 1) }) ∧
  (Does cmdHubLeafEvict .hubLeafEvict (fun q t => let n := fld q.params 0 1
      t.fld (fHUB_CTRL_ROLE n) = 1 ∧ entryNamed t.rd (grantsIn t.regs n) n (fld q.params 2 2) = false)
    fun q t ans u => let n := fld q.params 0 1
      let i := fld q.params 2 2
      ans = .done [] ∧ u.fld (fLEAF_W0_STATE n i) = 0 ∧ u.leafSerial n i = 0 ∧ u.cb = t.cb ∧
        (u.hubOf n).msgs = (t.hubOf n).msgs ++ [(t.leafShare n i, leafMsg 7 i 1)] ∧
        OnlyRegs [rLEAF_W0 n i, rLEAF_W7 n i, rLEAF_W8 n i, rHUB_STATUS n] t u) ∧
  (Turned cmdHubLeafEvict .hubLeafEvict (fun q t => let n := fld q.params 0 1
      t.fld (fHUB_CTRL_ROLE n) = 1 ∧ entryNamed t.rd (grantsIn t.regs n) n (fld q.params 2 2) = true)
    fun q _ => { status := stCONFLICT, b1 := bCH (fld q.params 0 1) }) ∧
  (Does cmdHubLeafSilence .hubLeafSilence (fun q t => t.fld (fHUB_CTRL_ROLE (fld q.params 0 1)) = 1)
    fun q t ans u => let n := fld q.params 0 1
      let i := fld q.params 2 2
      let st := t.fld (fLEAF_W0_STATE n i)
      ans = .done [] ∧ OnlyRegs [rLEAF_W0 n i, rHUB_STATUS n] t u ∧
        (fld q.params 1 1 = 1 → st ≠ 0 → u.fld (fLEAF_W0_STATE n i) = 3 ∧ Logged t u [(0x0309, bCH n, i, 0)] ∧
          (u.hubOf n).msgs = (t.hubOf n).msgs ++ [(t.leafShare n i, leafMsg 7 i 1)]) ∧
        (fld q.params 1 1 = 0 → st = 3 → u.fld (fLEAF_W0_STATE n i) = (t.leafX n i).was % 4 ∧ Logged t u [(0x030A, bCH n, i, 0)] ∧
          (u.hubOf n).msgs = (t.hubOf n).msgs ++ [(t.leafShare n i, leafMsg 7 i 0)]) ∧
        ((fld q.params 1 1 = 1 ∧ st = 0) ∨ (fld q.params 1 1 = 0 ∧ st ≠ 3) → u = t)) ∧
  (Does cmdHubReport .hubReport (fun q t => t.fld (fHUB_CTRL_ROLE (fld q.params 0 1)) = 1) fun q t ans u => u = t ∧ ∃ ps, ans = .done ps ∧ ps.length = 28 ∧
    fld ps 0 4 = (t.rd (rHUB_STATUS (fld q.params 0 1))).toNat ∧ fld ps 4 4 = t.hubCycleReg (fld q.params 0 1)) ∧
  (Does cmdHubLeafReport .hubLeafReport (fun q t => t.fld (fHUB_CTRL_ROLE (fld q.params 0 1)) = 1) fun q t ans u => u = t ∧ ∃ ps, ans = .done ps ∧ ps.length = 64 ∧
    ∀ k, k < 16 → fld ps (4 * k) 4 = if k < 9 then (t.rd (rLEAF_W0 (fld q.params 0 1) (fld q.params 2 2) + 4 * k)).toNat else 0)

/-- Leaf rules of spec 08. Message bodies are 40 bits; `leafMsg` lays a message out (R231); `mapTurn` and `takeNext` are the announced map's coming
into force (R173). What a silenced leaf does when it is told to leave is the model's choice (assumption 127). -/
def Obligations.LeafMessages : Prop :=
  (∀ (n : Ch) (body : Nat) (s : State), body < 2 ^ 40 → s.isLeaf n = true → (s.leafOf n).joined = true → let id := s.fld (fLEAF_STATUS_LEAF_ID n)
    let g : GrantMsg := ⟨bits body 8 4, bits body 39 36, bits body 35 25, bits body 24 14⟩
    let here := match timeline s (s.leafOf n) with | some (c, _) => mapTurn c (s.leafOf n) | none => s.leafOf n
    let m := if here.ann = none ∧ here.nextCount ≠ 0 then takeNext here else here
    Completes (.leafGrantMessage n (leafMsg 1 id body)) s (fun t =>
      (t.leafOf n).run = addGrant g (bits body 13 9) m.run m.runCount ∧ (t.leafOf n).runCount = bits body 13 9 ∧ (t.leafOf n).ann = m.ann ∧
      t.leafSt n = (if s.leafSt n = 4 then 5 else s.leafSt n) ∧ OnlyRegs [rLEAF_STATUS n] s t ∧ t.cb = s.cb) ∧
    Completes (.leafGrantMessage n (leafMsg 2 id body)) s (fun t =>
      (t.leafOf n).next = addGrant g (bits body 13 9) (s.leafOf n).next (s.leafOf n).nextCount ∧ (t.leafOf n).nextCount = bits body 13 9 ∧
      (t.leafOf n).run = (s.leafOf n).run ∧ t.regs = s.regs ∧ t.cb = s.cb) ∧
    Completes (.leafRangingCorrection n (leafMsg 4 id body)) s (fun t => (t.leafOf n).newRtd = some (bits body 39 16, bits body 15 0) ∧
      t.regs = s.regs ∧ t.cb = s.cb) ∧
    (bit body 0 = true → (s.leafOf n).silenced = false → Completes (.leafSilenceOrder n (leafMsg 7 id body)) s fun t => (t.leafOf n).silenced = true ∧
      t.leafSt n = 6 ∧ Logged s t [(0x0321, bCH n, id, 0)] ∧ OnlyRegs [rLEAF_STATUS n] s t) ∧
    (bit body 0 = false → (s.leafOf n).silenced = true → Completes (.leafSilenceOrder n (leafMsg 7 id body)) s fun t => (t.leafOf n).silenced = false ∧
      t.leafSt n = (if s.leafUp n then (if (s.leafOf n).run = [] then 4 else 5) else 1) ∧ OnlyRegs [rLEAF_STATUS n] s t ∧ t.cb = s.cb)) ∧
  (∀ (n : Ch) (body : Nat) (s : State), body < 2 ^ 40 → s.isLeaf n = true → (s.leafOf n).joined = false → (s.leafOf n).silenced = true → bit body 0 = false →
    Completes (.leafSilenceOrder n (leafMsg 7 (s.fld (fLEAF_STATUS_LEAF_ID n)) body)) s fun t => (t.leafOf n).silenced = false ∧
      t.leafSt n = (if s.leafUp n then 2 else 1) ∧ OnlyRegs [rLEAF_STATUS n] s t ∧ t.cb = s.cb) ∧
  (∀ (n : Ch) (body : Nat) (s : State), body < 2 ^ 40 → s.isLeaf n = true → (s.leafOf n).ann ≠ some (bits body 39 8) →
    Completes (.leafMapAnnouncement n (leafMsg 3 0x3FF body)) s fun t => (t.leafOf n).ann = some (bits body 39 8) ∧ (t.leafOf n).next = [] ∧
      (t.leafOf n).run = (s.leafOf n).run ∧ t.regs = s.regs ∧ t.cb = s.cb) ∧
  (∀ (n : Ch) (id x y : Nat) (s : State), id < 1024 → x < 2 ^ 40 → y < 2 ^ 40 → s.isLeaf n = true → s.leafSt n = 3 → bits x 39 8 = unle (s.leafOf n).nonce →
    bits x 7 0 = Config.serial.toNat % 256 → Completes (.leafJoinReply n (leafMsg 5 id x) (leafMsg 6 id y)) s fun t => (t.leafOf n).joined = true ∧
      t.fld (fLEAF_STATUS_LEAF_ID n) = id ∧ t.fld (fLEAF_STATUS_DS_SC n) = bits y 39 24 ∧ t.fld (fLEAF_RTD_RTD n) = bits y 23 0 ∧
      (t.leafSt n = 4 ∨ t.leafSt n = 1) ∧ Logged s t [(0x0320, bCH n, id, 0)] ∧ OnlyRegs [rLEAF_STATUS n, rLEAF_RTD n] s t) ∧
  (∀ (n : Ch) (msg : List Byte) (s : State), msg.length ≠ 8 ∨ crc8 (msg.take 7) ≠ msg.getD 7 0#8 ∨ (s.leafOf n).joined = false →
    exec (.leafGrantMessage n msg) s = .next (settle s) ∧ exec (.leafRangingCorrection n msg) s = .next (settle s) ∧
    ((s.leafOf n).silenced = false → exec (.leafSilenceOrder n msg) s = .next (settle s))) ∧
  (∀ (n : Ch) (s : State), s.isLeaf n = true → 1 < s.leafSt n → s.leafUp n = false → Completes (.leafDownstreamLost n) s fun t =>
    (t.leafOf n).joined = false ∧ (t.leafOf n).run = [] ∧ (t.leafOf n).up = [] ∧ t.leafSt n = 1 ∧ t.fld (fLEAF_STATUS_DS_SC n) = 0 ∧
      t.fld (fLEAF_STATUS_LEAF_ID n) = s.fld (fLEAF_STATUS_LEAF_ID n) ∧ Logged s t [(0x0322, bCH n, s.fld (fLEAF_STATUS_LEAF_ID n), s.leafSt n)] ∧
      ((∀ i ∈ s.contexts, s.fld (fCPH_CTX_A_STATE i) ≠ cxRETIRING) → OnlyRegs [rLEAF_STATUS n] s t)) ∧
  (∀ (n : Ch) (s : State), s.leafSt n ≤ 1 ∨ s.leafUp n = true → exec (.leafDownstreamLost n) s = .next (settle s)) ∧
  (Does cmdLeafJoin .leafJoin (fun q t => t.fld (fHUB_CTRL_ROLE (fld q.params 0 1)) = 2 ∧ (fld q.params 1 1 = 1 → t.leafSt (fld q.params 0 1) ≠ 6))
    fun q t ans u => let n := fld q.params 0 1
      ans = .done [] ∧ u.cb = t.cb ∧ u.flag (fLEAF_CTRL_AUTO_JOIN n) = decide (fld q.params 1 1 = 1) ∧
        (fld q.params 1 1 = 1 → u.leafSt n = t.leafSt n ∧ u.leaf = t.leaf ∧ OnlyRegs [rLEAF_CTRL n] t u) ∧
        (fld q.params 1 1 = 0 → (u.leafOf n).joined = false ∧ u.fld (fLEAF_STATUS_LEAF_ID n) = t.fld (fLEAF_STATUS_LEAF_ID n) ∧
          u.leafSt n = (if t.leafSt n ≤ 1 ∨ (t.leafOf n).silenced = true then t.leafSt n else 2) ∧
          ((∀ i ∈ t.contexts, t.fld (fCPH_CTX_A_STATE i) ≠ cxRETIRING) → OnlyRegs [rLEAF_CTRL n, rLEAF_STATUS n] t u))) ∧
  (Turned cmdLeafJoin .leafJoin (fun q t => t.fld (fHUB_CTRL_ROLE (fld q.params 0 1)) ≠ 2 ∨ (fld q.params 1 1 = 1 ∧ t.leafSt (fld q.params 0 1) = 6))
    fun _ _ => { status := stWRONG_STATE })

/-- The draws are free values; the statement holds for every value of them (assumption 5). That instants are told apart to 25 ns (`onTime`, `aimed`), that an
opening's offset and width are those of the leaf's own HUB_SD, and that grants of an announced map without its announcement leave the map not whole (`mapHeld`) are the
model's choices (assumptions 125, 126 and 128). -/
def Obligations.LeafFires : Prop :=
  (∀ (n : Ch) (k : Nat) (now : Nat × Nat) (g : GrantMsg) (s : State), s.leafUp n = true → (s.leafOf n).joined = true → (s.leafOf n).silenced = false →
    (s.leafSt n = 4 ∨ s.leafSt n = 5) → (s.leafOf n).newRtd = none → timeline s (s.leafOf n) = some now → let a := arrival n now s
    let m := mapTurn (a / 512000 % 2 ^ 32) (s.leafOf n)
    (m.run.find? fun g => g.idx == k) = some g →
    (mapHeld m = true → onTime a g = true → s.stampFresh n = true → Completes (.leafBurstFire n k) s fun t => t.out.bytes.length = 32 + burstCap g.len ∧
      fld t.out.bytes 28 4 = (crc32c (slice t.out.bytes 0 28)).toNat ∧ fld t.out.bytes 0 2 = s.fld (fLEAF_STATUS_LEAF_ID n) ∧ t.leafSt n = 5 ∧
      t.out.lanes = bitsOfBytes (Qc.descriptor.encode (slice t.out.bytes 0 32)) :: burstLanes (burstCws (burstBlocks g.len)) (t.out.bytes.drop 32) ∧
      t.cb = s.cb ∧ ((∀ i ∈ s.contexts, s.fld (fCPH_CTX_A_STATE i) ≠ cxRETIRING) → OnlyRegs [rLEAF_STATUS n] s t)) ∧
    (mapHeld m = true → onTime a g = true → s.stampFresh n = false → Completes (.leafBurstFire n k) s fun t => t.out = s.out ∧ t.regs = s.regs ∧
      (t.leafOf n).stale = true ∧
      Logged s t (if m.stale then [] else [(0x0322, bCH n, s.fld (fLEAF_STATUS_LEAF_ID n), s.leafSt n)])) ∧
    (mapHeld m = false ∨ onTime a g = false → Completes (.leafBurstFire n k) s fun t => t.out = s.out ∧ t.regs = s.regs ∧ t.cb = s.cb)) ∧
  (∀ (n : Ch) (k : Nat) (s : State), s.leafUp n = false ∨ (s.leafOf n).joined = false ∨ (s.leafOf n).silenced = true ∨ (s.leafOf n).stamp = none →
    exec (.leafBurstFire n k) s = .next (settle s)) ∧
  (∀ (n : Ch) (r e : Nat) (now : Nat × Nat) (s : State), (s.leafOf n).newRtd = some (r, e) →
    (decide ((arrival n now s / 512000 + 2 ^ 16 - e) % 2 ^ 16 < 2 ^ 15) = true →
      (newRanging n (arrival n now s / 512000) s).fld (fLEAF_RTD_RTD n) = r % 2 ^ 24 ∧
      ((newRanging n (arrival n now s / 512000) s).leafOf n).newRtd = none) ∧
    (decide ((arrival n now s / 512000 + 2 ^ 16 - e) % 2 ^ 16 < 2 ^ 15) = false → newRanging n (arrival n now s / 512000) s = s)) ∧
  (∀ (n : Ch) (heard : Bool) (now : Nat × Nat) (s : State), s.leafUp n = true → (s.leafOf n).joined = false → (s.leafOf n).silenced = false →
    s.flag (fLEAF_CTRL_AUTO_JOIN n) = true → (s.leafSt n = 2 ∨ s.leafSt n = 3) → s.stampFresh n = true → timeline s (s.leafOf n) = some now →
    aimed n now s = true → Completes (.leafDiscoveryFire n heard) s fun t =>
      (t.leafOf n).openings = (s.leafOf n).openings + 1 ∧ t.free = s.free + 2 ∧ t.cb = s.cb ∧ OnlyRegs [rLEAF_STATUS n] s t ∧
      (let fires := if heard then (s.leafOf n).openings % 64 = 63 else (s.draw).1 % 4 = 0
       (fires → t.leafSt n = 3 ∧ t.out.bytes.length = 36 ∧ fld t.out.bytes 0 8 = Config.serial.toNat ∧ slice t.out.bytes 24 4 = (t.leafOf n).nonce ∧
         fld t.out.bytes 28 1 = s.fld (fLEAF_CTRL_LISTEN_SC n) ∧ fld t.out.bytes 32 4 = (crc32c (slice t.out.bytes 0 32)).toNat ∧
         t.out.lanes = [bitsOfBytes (Qc.discovery.encode t.out.bytes)]) ∧
       (¬ fires → t.leafSt n = s.leafSt n ∧ t.out.bytes = s.out.bytes ∧ (t.leafOf n).nonce = (s.leafOf n).nonce))) ∧
  (∀ (n : Ch) (heard : Bool) (s : State), s.leafUp n = false ∨ (s.leafOf n).joined = true ∨ s.flag (fLEAF_CTRL_AUTO_JOIN n) = false ∨
      s.stampFresh n = false ∨ (∀ now, timeline s (s.leafOf n) = some now → aimed n now s = false) →
    exec (.leafDiscoveryFire n heard) s = .next (settle s))

/-- Transmit rules of specs 08 and 10. `u` is the state once the host codewords have come (`portIn`); `pointLanes` is R203's arrangement. -/
def Obligations.FramesSent : Prop :=
  (∀ (n : Ch) (host : List (Nat × List HostCw)) (faults : List (Nat × List (List Nat))) (maps : List (Nat × Nat)) (s : State),
    let u := each host (fun e s => portIn e.1 e.2 s) s
    let x := exec (.frameTransmitted n host faults maps) s
    let fn := (u.ohOf n).tx.fn
    let mine := u.active n = true ∧ u.memberB n = false
    (u.active n = false ∨ u.memberB n = true → x = .next (settle u)) ∧
    (mine → u.fld (fLINE_MODE_IOP n) ≠ 0 → x = .next (settle (mapCounts n maps u))) ∧
    (mine → u.fld (fLINE_MODE_IOP n) = 0 → u.fld (fHUB_CTRL_ROLE n) ≠ 1 → u.fld (fHUB_CTRL_ROLE n) ≠ 2 → ∃ t, x = .next t ∧ (t.ohOf n).tx.fn = (fn + 1) % 2 ^ 48 ∧
      t.rd (rOH_TX_FN_LO n) = BitVec.ofNat 32 fn ∧ t.rd (rOH_TX_FN_HI n) = BitVec.ofNat 32 (fn / 2 ^ 32) ∧
      slice t.out.bytes 0 12 = be 8 0xF5A31C6E0B97D24D ++ be 4 (fn % 2 ^ 32) ∧ (t.ohOf n).tx.bip = parity16 (t.out.bytes.drop 12) ∧
      (u.flag (fFEC_CTRL_LOW_LAT n) = true → t.out.lanes = pointLanes true (u.fld (fLINE_MODE_NSC n)) [t.out.bytes]) ∧
      (u.flag (fFEC_CTRL_LOW_LAT n) = false → fn % 16 ≠ 15 → t.out.lanes = [])) ∧
    (mine → u.fld (fLINE_MODE_IOP n) = 0 → u.fld (fHUB_CTRL_ROLE n) = 1 → ∃ t, x = .next t ∧ (t.ohOf n).tx.fn = (fn + 1) % 2 ^ 48 ∧
      t.rd (rOH_TX_FN_LO n) = BitVec.ofNat 32 fn ∧ t.rd (rOH_TX_FN_HI n) = BitVec.ofNat 32 (fn / 2 ^ 32) ∧
      slice t.out.bytes 0 3 = be 2 0x3B5D ++ be 1 (fn % 256)) ∧
    (mine → u.fld (fLINE_MODE_IOP n) = 0 → u.fld (fHUB_CTRL_ROLE n) = 2 → u.leafSt n = 5 → u.leafUp n = true → let fn := u.leafFn n
      fn ≠ ((u.ohOf n).lastFn + 1) % 2 ^ 48 → ∃ t, x = .next t ∧ t.rd (rOH_TX_FN_LO n) = BitVec.ofNat 32 fn ∧
        t.rd (rOH_TX_FN_HI n) = BitVec.ofNat 32 (fn / 2 ^ 32) ∧ t.out.bytes = u.out.bytes ∧ (t.ohOf n).tx.fn = (fn + 1) % 2 ^ 48 ∧
        ∃ bs, (t.leafOf n).up = (u.leafOf n).up ++ [(fn, u.life.toNat, bs)]) ∧
    (mine → u.fld (fLINE_MODE_IOP n) = 0 → u.fld (fHUB_CTRL_ROLE n) = 2 →
      (u.leafSt n ≠ 5 ∨ u.leafUp n = false ∨ u.leafFn n = ((u.ohOf n).lastFn + 1) % 2 ^ 48) → x = .next (settle u)))

/-- Receive rules of specs 07, 09 and 10. What a decoded frame does then is the model's `frameIn` (R226); what waits for a boundary of a lost
alignment comes into force by `halvesLost` (R160). -/
def Obligations.FramesReceived : Prop :=
  (∀ (hits : List Nat) (a : Nat) (h : Hunt), h.align = some a → (a ∈ hits → huntPeriod hits h = { h with miss := 0 }) ∧
    (a ∉ hits → h.miss < 4 → huntPeriod hits h = { h with miss := h.miss + 1 }) ∧ (a ∉ hits → 4 ≤ h.miss → huntPeriod hits h = Hunt.init)) ∧
  (∀ (h : Hunt) (m : Nat), h.mfLock = false → m < 256 →
    ((mfFrame true ((m + 2) % 256) (mfFrame true ((m + 1) % 256) (mfFrame true m h))).mfLock = true) ∧
    ((mfFrame true m { h with mfRun := 0 }).mfLock = false)) ∧
  (∀ (h : Hunt) (m : Nat), h.mfLock = true → (m = h.mfNext → (mfFrame true m h).mfLock = true ∧ (mfFrame true m h).mfMiss = 0) ∧
    (m ≠ h.mfNext → (mfFrame true m h).mfLock = decide (h.mfMiss < 4))) ∧
  (∀ (aw bs : List Bool) (k : Nat), near aw bs k = true ↔ aw.length ≤ bs.length ∧ ((aw.zip bs).filter fun e => e.1 != e.2).length ≤ k) ∧
  (∀ (n : Ch) (raw : List (List Byte)) (cws : List Codeword) (blocks : List CwResult) (coded : Nat) (deleted : List (Nat × Nat)) (s : State),
    let x := fun s => exec (.lineFrameReceived n raw cws blocks coded deleted) s
    let hits := fawHits (raw.headD [])
    let ds := (span 0 4).map fun i => (s.decoded n (cws.getD i ⟨[], []⟩)).1
    let bytes := (span 0 4).flatMap fun i => slice (s.decoded n (cws.getD i ⟨[], []⟩)).2 0 4128
    let native := s.softBits n = true ∧ s.fld (fHUB_CTRL_ROLE n) ≠ 1 ∧ s.fld (fHUB_CTRL_ROLE n) ≠ 2 ∧ s.fld (fLINE_MODE_IOP n) = 0 ∧ s.lineLoop n = false
    (s.lineLoop n = false → s.active n = true → 2 ≤ s.rxSt n → s.rxSt n ≤ 6 → x s = x (softIn n s) ∧ (softIn n s).rxSt n = 7) ∧
    (s.lineLoop n = false → s.active n = false → x s = .next (settle s)) ∧
    (s.lineLoop n = true → s.fld (fLINE_MODE_IOP n) = 0 → (s.lineOf n).loop = [] → x s = .next (settle s)) ∧
    (s.softBits n = true → s.fld (fHUB_CTRL_ROLE n) ≠ 1 → s.fld (fLINE_MODE_IOP n) ≠ 0 → ∃ t, x s = .next t ∧ t.flag (fFEC_STATUS_DECODING n) = true ∧
      Counted (cCH n 0) coded s t ∧ Counted (cCH n 1) blocks.length s t ∧ Counted (cCH n 2) (blocks.filter fun c => !c.ok).length s t ∧
      Counted (cCH n 3) (okErrs blocks) s t ∧ Counted (cCH n 4) (badErrs blocks) s t ∧ t.ohOf n = { s.ohOf n with sec := (t.ohOf n).sec }) ∧
    (∀ a, native → (s.hunt n 0).align = some a →
      (a ∈ hits ∨ (s.hunt n 0).miss < 4 → ∃ u, x s = .next (settle (frameIn n (verdictOf ds) bytes u)) ∧
        u.hunt n 0 = { s.hunt n 0 with miss := if a ∈ hits then 0 else (s.hunt n 0).miss + 1 } ∧ Counted (cCH n 0) 152736 s u ∧ Counted (cCH n 1) 4 s u ∧
        Counted (cCH n 5) (b2n (verdictOf ds == 1)) s u ∧ Counted (cCH n 6) (b2n (verdictOf ds == 2)) s u) ∧
      (a ∉ hits → 4 ≤ (s.hunt n 0).miss → ∃ u, x s = .next (settle (halvesLost n true (stopRelease n u))) ∧
        u.hunt n 0 = Hunt.init ∧ u.defect n dOOF = true ∧ u.defect n dLOM = true ∧ u.flag (fFEC_STATUS_DECODING n) = false ∧ (u.ohOf n).held = [] ∧
        Counted (cCH n 19) 1 s u)) ∧
    (native → (s.hunt n 0).align = none → let h := huntPeriod hits (s.hunt n 0)
      h.align = none → h.lead.isSome = true → (s.lineOf n).failing = none → ∃ t, x s = .next t ∧ t.hunt n 0 = h ∧ t.cnt = s.cnt ∧ t.cb = s.cb ∧
        (t.lineOf n).failing = (if ds.any fun d => d.ok then none else some s.life))) ∧
  (∀ (n : Ch) (s : State), (s.active n = true → (s.ohOf n).since.toNat + 3000000 ≤ s.life.toNat → Completes (.lofTimer n) s fun t =>
      t.defect n dLOF = s.defect n dOOF ∧ OnlyRegs [rOH_RX_STATUS n] s t ∧ Logged s t (if s.defect n dLOF = s.defect n dOOF then []
        else [(if s.defect n dOOF then 0x0501 else 0x0502, bCH n, dLOF, 0)])) ∧
    (s.life.toNat < (s.ohOf n).since.toNat + 3000000 → exec (.lofTimer n) s = .next (settle s)))

/-- Spec 09. For a member of a pair the statement gives the window's own fields; what follows in the merge is said elsewhere. -/
def Obligations.FecWindows : Prop :=
  (∀ (n : Ch) (est : LineEst) (s : State), s.memberOf n = none → 0 < (s.fecOf n).bits →
    let f := s.fecOf n
    let above := clampN 1 9 (s.fld (fFEC_SD_SD_MANT n)) * f.bits ≤ f.errs * 10 ^ clampN 1 8 (s.fld (fFEC_SD_SD_EXP n))
    let lim := s.fld (fFEC_UNC_UNC_LIMIT n)
    Completes (.fecWindowEnd n est) s fun t => t.fld (fFEC_STATUS_BER_LOG n) = berLog f.errs f.bits ∧
      (above → t.flag (fFEC_STATUS_SD n) = (s.flag (fFEC_STATUS_SD n) || decide (max 1 (s.fld (fFEC_SD_SD_SET n)) ≤ sat 255 (f.sdUp + 1)))) ∧
      (¬ above → t.flag (fFEC_STATUS_SD n) = (s.flag (fFEC_STATUS_SD n) && !decide (max 1 (s.fld (fFEC_SD_SD_CLR n)) ≤ sat 255 (f.sdDown + 1)))) ∧
      (lim ≠ 0 ∧ lim ≤ f.frmUnc → t.flag (fFEC_STATUS_EXC n) = true) ∧
      (lim ≠ 0 → f.frmUnc < lim → t.flag (fFEC_STATUS_EXC n) = (s.flag (fFEC_STATUS_EXC n) && !decide (max 1 (s.fld (fFEC_UNC_UNC_CLR n)) ≤ sat 255 (f.excDown + 1)))) ∧
      (lim = 0 → t.flag (fFEC_STATUS_EXC n) = false) ∧
      OnlyRegs ([rFEC_STATUS n, rOH_RX_STATUS n, rLINE_RX_STATUS n, rLINE_RX_EST0 n, rLINE_RX_EST1 n] ++ (span 0 8).map (fun m => rLINE_SC_SNR n m)) s t) ∧
  (∀ (n : Ch) (est : LineEst) (s : State), Completes (.fecWindowEnd n est) s fun t => (t.fecOf n).bits = 0 ∧ (t.fecOf n).errs = 0 ∧ (t.fecOf n).frmUnc = 0 ∧
    (t.fecOf n).lastCw = (s.fecOf n).cw ∧ (t.fecOf n).lastUnc = (s.fecOf n).unc ∧ (t.fecOf n).lastHist = (s.fecOf n).hist ∧
    ((s.fecOf n).bits = 0 → t.fld (fFEC_STATUS_BER_LOG n) = 0xFFFF ∧ t.flag (fFEC_STATUS_SD n) = s.flag (fFEC_STATUS_SD n) ∧
      t.flag (fFEC_STATUS_EXC n) = s.flag (fFEC_STATUS_EXC n) ∧ (t.fecOf n).sdUp = 0 ∧ (t.fecOf n).sdDown = 0 ∧ (t.fecOf n).excDown = 0 ∧
      (s.rxSt n = 8 → s.fld (fHUB_CTRL_ROLE n) ≠ 1 → t.fld (fLINE_RX_EST1_FREQ_EST n) = unsigned 16 est.freq ∧
        ∀ m, m < 8 → s.rxNsc n ≤ 2 * m → t.fld (fLINE_SC_SNR_SNR0 n m) = 0) ∧
      (2 ≤ s.rxSt n → s.rxSt n ≤ 6 → s.fld (fHUB_CTRL_ROLE n) ≠ 1 → s.rxSt n < est.stage → t.rxSt n = min 6 est.stage) ∧
      (s.rxSt n ≠ 8 → t.rd (rLINE_RX_EST1 n) = s.rd (rLINE_RX_EST1 n)) ∧ t.cb = s.cb)) ∧
  (Does cmdFecReport .fecReport (fun _ _ => True) fun q t ans u => u = t ∧ ∃ ps, ans = .done ps ∧ ps.length = 80 ∧
    fld ps 0 4 = (t.rd (rFEC_STATUS (fld q.params 0 1))).toNat ∧ fld ps 4 4 = (t.fecOf (fld q.params 0 1)).lastCw % 2 ^ 32 ∧
    fld ps 8 4 = (t.fecOf (fld q.params 0 1)).lastUnc % 2 ^ 32 ∧
    ∀ k, k < 17 → fld ps (12 + 4 * k) 4 = (t.fecOf (fld q.params 0 1)).lastHist.getD k 0 % 2 ^ 32) ∧
  (Does cmdFecSet .fecSet (fun _ _ => True) fun q t ans u => let n := fld q.params 0 1
    let fl := fld q.params 1 1
    let w := fun k => BitVec.ofNat 32 (fld q.params (4 + 4 * k) 4)
    ans = .done [] ∧ u.flag (fFEC_CTRL_LOW_LAT n) = t.flag (fFEC_CTRL_LOW_LAT n) ∧
      u.fld (fFEC_CTRL_ITER_MAX n) = (if bit fl 0 then (fFEC_CTRL_ITER_MAX n).of (w 0) else t.fld (fFEC_CTRL_ITER_MAX n)) ∧
      u.rd (rFEC_SD n) = (if bit fl 1 then w 1 else t.rd (rFEC_SD n)) ∧ u.rd (rFEC_UNC n) = (if bit fl 2 then w 2 else t.rd (rFEC_UNC n)) ∧
      u.rd (rFEC_TEST n) = (if bit fl 3 then w 3 else t.rd (rFEC_TEST n)) ∧
      u.flag (fFEC_STATUS_INJ_ACTIVE n) = (u.flag (fFEC_TEST_INJ_EN n) && u.fld (fHUB_CTRL_ROLE n) != 1) ∧
      OnlyRegs [rFEC_CTRL n, rFEC_SD n, rFEC_UNC n, rFEC_TEST n, rFEC_STATUS n] t u)

/-- Spec 10. `sesErr` says that errored frames amount to 15 % of a second's frames at the net rate; `binStep` closes a bin when the second
belongs to another (R250). -/
def Obligations.PerformanceSeconds : Prop :=
  (∀ s : State, Completes .perSecondLatch s fun t => (∀ n : Ch, s.active n = true → let a := (s.ohOf n).sec
      (t.ohOf n).pm.wait = (s.ohOf n).pm.wait ++ [⟨s.life.toNat / 1000000000, if s.flag fTIM_STATUS_TOD_VALID then some s.tim.sec else none,
        a.err != 0 || sesFlags a.flags || a.hubLos, sesErr (s.fld (fLINE_MODE_NET_RATE n)) a.err || sesFlags a.flags || a.hubLos, a.part⟩] ∧
      (t.ohOf n).sec = { SecAcc.init with
        flags := s.fld (fOH_RX_STATUS_DEFECTS n), part := false, hubLos := s.fld (fHUB_CTRL_ROLE n) == 1 && s.flag (fHUB_STATUS_HUB_LOS n) } ∧
      (t.ohOf n).subLost = [] ∧
      ∃ b, smLookup (t.ohOf n).latches (s.life.toNat / 1000000000) = some b ∧ b.length = 64 ∧ fld b 60 4 = (crc32c (slice b 0 60)).toNat ∧
        fld b 0 8 = s.life.toNat ∧ fld b 28 4 = a.frames % 2 ^ 32) ∧
    (∀ n : Ch, s.active n = false → t.ohOf n = s.ohOf n) ∧ t.life = s.life ∧
    (∀ n : Ch, (∀ m : Ch, s.active m = decide (m = n)) → Logged s t ((s.ohOf n).subLost.map fun e => (0x0511, bCH n, e.1, sat 65535 e.2))) ∧
    ∀ p : Pr, t.fld (fMRG_WTR_LEFT_LEFT p) = if s.flag (fMRG_STATUS_WTR_RUN p) then s.fld (fMRG_WTR_LEFT_LEFT p) - 1 else s.fld (fMRG_WTR_LEFT_LEFT p)) ∧
  (∀ (n : Ch) (w : PmSec) (rest : List PmSec) (s : State), (s.ohOf n).pm.wait = w :: rest → 10 ≤ rest.length → let pm := (s.ohOf n).pm
    let ten := pm.wait.take 10
    Completes (.secondClassified n) s fun t => (t.ohOf n).pm.wait = rest ∧ (t.ohOf n).pm.lastTod = w.tod ∧
      (pm.unavail = false → ((t.ohOf n).pm.unavail = true ↔ ∀ x ∈ ten, x.ses = true)) ∧
      (pm.unavail = true → ((t.ohOf n).pm.unavail = false ↔ ∀ x ∈ ten, x.ses = false)) ∧
      Logged s t (if (t.ohOf n).pm.unavail = pm.unavail then [] else [(if (t.ohOf n).pm.unavail then 0x0520 else 0x0521, bCH n, w.second, 0)]) ∧
      OnlyRegs [rMEM_FLIP] s t ∧ let bad := w.part || decide (w.tod = none) || decide (pm.lastTod.map (fun y => y + 1) ≠ w.tod)
        ((t.ohOf n).pm.bin15, (t.ohOf n).pm.last15) = binStep 900 pm.lastTod (t.ohOf n).pm.unavail bad w pm.bin15 pm.last15 ∧
        ((t.ohOf n).pm.bin24, (t.ohOf n).pm.last24) = binStep 86400 pm.lastTod (t.ohOf n).pm.unavail bad w pm.bin24 pm.last24) ∧
  (∀ (n : Ch) (s : State), (s.ohOf n).pm.wait.length < 11 → exec (.secondClassified n) s = .next (settle s)) ∧
  (∀ (n : Ch) (c : Fin 512) (cws : List HostCw) (s : State), (s.fld (fCLIENT_TYPE n c) = 6 → s.active n = true → s.flag (fXBAR_CLIENT_VALID n c) = true →
      exec (.subrateOverflow n c cws) s = .next (settle (portIn (s.fld (fXBAR_CLIENT_LANE n c)) cws s))) ∧
    (s.fld (fCLIENT_TYPE n c) ≠ 6 ∨ s.active n = false ∨ s.flag (fXBAR_CLIENT_VALID n c) = false → exec (.subrateOverflow n c cws) s = .next (settle s))) ∧
  (∀ (n : Ch) (c : Fin 512) (b : Blk) (s : State), s.active n = true → s.fld (fLINE_MODE_IOP n) = 0 → c.val ∈ assignedClients s.rd n →
    s.fld (fCLIENT_TYPE n c) = 6 → let m := s.mapper n c
    let t := mapTake n c [b] s
    t.regs = s.regs ∧ t.cb = s.cb ∧
    (m.skip = false → blkIdle b = false → 8192 ≤ m.buf.length → t.mapper n c = { m with skip := true, buf := m.buf ++ List.replicate 4 errorBlk } ∧
      Counted (kClient n c 3) 1 s t ∧ smGet (fun _ => 0) (t.ohOf n).subLost c = smGet (fun _ => 0) (s.ohOf n).subLost c + 1) ∧
    (m.skip = true → blkStart b = false → t.mapper n c = m ∧ Counted (kClient n c 3) 1 s t) ∧
    (blkStart b = true → m.buf.length < 8192 → t.mapper n c = { m with skip := false, buf := m.buf ++ [b] } ∧ t.cnt = s.cnt) ∧
    (m.skip = false → blkIdle b = true → 4 ≤ m.buf.length → t.mapper n c = m ∧ Counted (kClient n c 1) 1 s t))

/-- Requests of R252. Without HBM only the latest record is kept (R249), and another second answers WRONG_STATE. -/
def Obligations.OverheadRequests : Prop :=
  (Does cmdOhTraceSet .ohTraceSet (fun q t => t.notP2p (fld q.params 0 1) = false) fun q t ans u => let n := fld q.params 0 1
    ans = .done [] ∧ (u.ohOf n).tx.pend = some (slice q.params 4 16, slice q.params 20 16, slice q.params 52 204) ∧ (u.ohOf n).tx.expSapi = slice q.params 36 16 ∧
      (u.ohOf n).tx.sapi = (t.ohOf n).tx.sapi ∧ u.defect n dTIM = (t.flag (fOH_CTRL_TIM_EN n) && !(t.filt n).trcAcc.isEmpty &&
        !decide ((t.filt n).trcAcc.take 16 = slice q.params 36 16)) ∧ OnlyRegs [rOH_RX_STATUS n] t u) ∧
  (Turned cmdOhTraceSet .ohTraceSet (fun q t => t.notP2p (fld q.params 0 1) = true) fun _ _ => { status := stWRONG_STATE }) ∧
  (Does cmdOhTraceGet .ohTraceGet (fun q t => t.fld (fLINE_MODE_IOP (fld q.params 0 1)) = 0) fun q t ans u => u = t ∧ ∃ b, ans = .done b ∧ b.length = 256 ∧
    (fld q.params 1 1 = 0 → slice b 0 16 = slice (t.ohOf (fld q.params 0 1)).tx.sapi 0 16 ∧ fbe b 32 8 = Config.serial.toNat ∧
      fbe b 44 4 = clampN 191300 196100 (t.fld (fENG_FEED_FEED_GHZ (fld q.params 0 1))) ∧ fbe b 252 4 = (crc32c (slice b 0 252)).toNat)) ∧
  (Turned cmdOhTraceGet .ohTraceGet (fun q t => t.fld (fLINE_MODE_IOP (fld q.params 0 1)) ≠ 0) fun _ _ => { status := stWRONG_STATE }) ∧
  (Does cmdDmRun .dmRun (fun q t => t.notP2p (fld q.params 0 1) = false) fun q t ans u => let a := (t.streamChs (fld q.params 0 1)).headD (fld q.params 0 1)
    (u.ohOf a).tx.dmOut = !(t.ohOf a).tx.dmOut ∧ (u.ohOf a).tx.dmStart = some t.mclk ∧ u.regs = t.regs ∧ u.cb = t.cb ∧
      ∃ op, ans = .accept op ∧ op.org = q.org ∧ op.holds = [resCH (fld q.params 0 1)] ∧ op.targets = [0x4000 + a]) ∧
  (Turned cmdDmRun .dmRun (fun q t => t.notP2p (fld q.params 0 1) = true) fun _ _ => { status := stWRONG_STATE }) ∧
  (Does cmdPerfLatchRead .perfLatchRead (fun q t => t.fld (fLINE_MODE_IOP (fld q.params 0 1)) = 0 ∧ t.flag fMEM_STATUS_HBM_READY = true)
    fun q t ans u => (∃ b, ans = .done b ∧ b.length = 64 * fld q.params 1 1) ∧ u.oh = t.oh ∧ u.regs = t.regs) ∧
  (Does cmdPerfLatchRead .perfLatchRead (fun q t => t.fld (fLINE_MODE_IOP (fld q.params 0 1)) = 0 ∧ t.flag fMEM_STATUS_HBM_READY = false ∧
      ∃ k b, (t.ohOf (fld q.params 0 1)).latches = [(k, b)] ∧ fld q.params 4 8 ≤ fld b 0 8 ∧ fld b 0 8 < fld q.params 4 8 + 1000000000)
    fun q t ans u => u = t ∧ ∃ b k e, ans = .done b ∧ b.length = 64 * fld q.params 1 1 ∧ (t.ohOf (fld q.params 0 1)).latches = [(k, e)] ∧
      slice b 0 64 = slice e 0 64) ∧
  (Turned cmdPerfLatchRead .perfLatchRead (fun q t => t.fld (fLINE_MODE_IOP (fld q.params 0 1)) ≠ 0 ∨ (t.flag fMEM_STATUS_HBM_READY = false ∧
      ∀ k b, (k, b) ∈ (t.ohOf (fld q.params 0 1)).latches → fld b 0 8 < fld q.params 4 8)) fun _ _ => { status := stWRONG_STATE }) ∧
  (∀ (who : Fin 3) (n : Ch) (s : State), s.ready = true →
    Completes (.fnLoRead who n true) s (fun t => t.out.data = s.rd (rOH_TX_FN_LO n) ∧
      t.rlOf who (rOH_TX_FN_HI n) = BitVec.ofNat 32 ((s.rd (rOH_TX_FN_HI n)).toNat % 65536) ∧ t.regs = s.regs ∧ t.oh = s.oh ∧ t.cb = s.cb) ∧
    Completes (.fnLoRead who n false) s (fun t => t.out.data = BitVec.ofNat 32 (s.ohOf n).lastFn ∧
      t.rlOf who (rOH_RX_FN_HI n) = BitVec.ofNat 32 ((s.ohOf n).lastFn / 2 ^ 32 % 65536) ∧ t.regs = s.regs ∧ t.oh = s.oh ∧ t.cb = s.cb)) ∧
  (∀ (who : Fin 3) (n : Ch) (tx : Bool) (s : State), s.ready = false → exec (.fnLoRead who n tx) s = .next (settle (put 0#32 s)))

/-- The per-frame rule of R274 as the model's `State.select`; `decideNext` is a decision at time t. Times of decisions are in 1/65,536 cycle. The statement speaks of entries that read well
from SRAM; the patching of stored words (R276) is `readOut`. -/
def Obligations.MergeDecisions : Prop :=
  (∀ (p : Pr) (fn : Nat) (s : State), let usable := fun (m : Nat) => ∃ c, (s.pairSt p).copy m fn = some c ∧ c.fr.verdict < 2
    let there := fun (m : Nat) => (s.pairSt p).copy m fn ≠ none
    let pr := s.fld (fMRG_STATUS_PREFERRED p)
    let x := s.flag (fMRG_STATUS_EXCLUSIVE p)
    (usable pr → s.select p fn = some pr) ∧ (¬ usable pr → x = false → usable (1 - pr) → s.select p fn = some (1 - pr)) ∧
    (¬ usable pr → (x = true ∨ ¬ usable (1 - pr)) → there pr → s.select p fn = some pr) ∧
    (¬ there pr → x = false → ¬ usable (1 - pr) → there (1 - pr) → s.select p fn = some (1 - pr)) ∧
    (¬ there pr → (x = true ∨ ¬ there (1 - pr)) → s.select p fn = none)) ∧
  (∀ (p : Pr) (t fn : Nat) (forced : Bool) (s : State), (s.pairSt p).next = some fn → (s.pairSt p).badEntries.contains (fn % 65536) = false →
    s.flipsIn (stLEDGER p) (fn % 65536) < 2 → ∃ (u : State) (v : Nat) (bs : List Byte) (e : Ledger),
      decideNext p t forced s = mrgEval p (releaseFrame (s.memCh p 0) fn v bs u) ∧ (u.pairSt p).next = some ((fn + 1) % 2 ^ 48) ∧
      (u.pairSt p).lastTd = max (t * 65536) ((s.pairSt p).lastTd + s.paceT p) ∧ s.frameT p * 1023 ≤ s.paceT p * 1024 ∧ Counted (cPAIR p kFRAMES) 1 s u ∧
      (u.pairSt p).copy 0 fn = none ∧ (u.pairSt p).copy 1 fn = none ∧ (u.pairSt p).entry fn = some e ∧ e.td = ((u.pairSt p).lastTd + 65535) / 65536 ∧
      (∀ m, s.select p fn = some m → m < 2 → e.decision = m ∧ Counted (cPAIR p (1 + m)) 1 s u ∧ Counted (cPAIR p kMISSING) 0 s u) ∧
      (s.select p fn = none → e.decision = 2 ∧ v = 3 ∧ bs = [] ∧ Counted (cPAIR p kMISSING) 1 s u ∧ u.flag (fMRG_SEEN_FRAME_LOST p) = true)) ∧
  (∀ (p m : Pr) (fn : Nat) (s : State), let t := tooLate p m fn s
    Counted (cPAIR p (6 + m)) 1 s t ∧ t.flag (fMRG_SEEN_LATE_COPY p) = true ∧ OnlyRegs [rMRG_SEEN p, rMEM_SFLIP] s t ∧ t.cb = s.cb ∧
      ((t.pairSt p).mem.get m).store = ((s.pairSt p).mem.get m).store ∧ ((t.pairSt p).mem.get m).inTime = 0)

/-- Copies of spec 11. `mergeCopy` takes a copy into the pair's sequence or a new one (R272), `settleNow` decides what may be decided (R265). -/
def Obligations.MergeCopies : Prop :=
  (∀ (p m : Pr) (x : Nat) (bad : List (Nat × Nat × Nat)) (badEntry : Bool) (fr : RxFrame) (rest : List RxFrame) (s : State),
    (s.ohOf (s.memCh p m)).toMerge = fr :: rest → s.mergeUp p = true → ∃ u, exec (.mergeCopyArrival p m x bad badEntry) s = .next (settle (mergeCopy p m fr x u)) ∧
      (u.ohOf (s.memCh p m)).toMerge = rest ∧ (u.pairSt p).badWords = (s.pairSt p).badWords ++ bad ∧ (u.pairSt p).mem = (s.pairSt p).mem ∧
      (u.pairSt p).ledger = (s.pairSt p).ledger ∧ u.regs = s.regs ∧ u.cb = s.cb) ∧
  (∀ (p m : Pr) (x : Nat) (bad : List (Nat × Nat × Nat)) (badEntry : Bool) (s : State), (s.ohOf (s.memCh p m)).toMerge = [] →
    exec (.mergeCopyArrival p m x bad badEntry) s = .next (settle s)) ∧
  (∀ (p m : Pr) (x : Nat) (bad : List (Nat × Nat × Nat)) (badEntry : Bool) (s : State), s.mergeUp p = false →
    Completes (.mergeCopyArrival p m x bad badEntry) s fun t => (t.ohOf (s.memCh p m)).toMerge = (s.ohOf (s.memCh p m)).toMerge.drop 1 ∧
      t.mrg = s.mrg ∧ t.regs = s.regs ∧ t.cb = s.cb ∧ t.cnt = s.cnt) ∧
  (∀ (p m : Pr) (fn x nx : Nat) (w : Int) (s : State), (s.pairSt p).next = some nx → s.predicted p m fn = some w →
    (s.mergeUp p = true → 0 ≤ fnDiff fn nx → fnDiff fn nx < s.pairCap p → (((s.pairSt p).entry fn).getD (s.freshEntry p fn)).done m = false →
      w + (s.fld (fMRG_CFG_GUARD p) : Int) * 65536 ≤ (x : Int) * 65536 → ∃ u e, exec (.copyDeclaredMissing p m fn x) s = .next (settle (settleNow p x u)) ∧
        (u.pairSt p).entry fn = some e ∧ e.done m = true ∧ e.verdict m = 3 ∧ OnlyRegs [rMEM_SFLIP] s u) ∧
    ((x : Int) * 65536 < w + (s.fld (fMRG_CFG_GUARD p) : Int) * 65536 → exec (.copyDeclaredMissing p m fn x) s = .next (settle s))) ∧
  (∀ (p m : Pr) (fn : Nat) (errs : List (Nat × BitVec 256)) (c : MCopy) (e : Ledger) (s : State), (s.pairSt p).copy m fn = some c → (s.pairSt p).entry fn = some e →
    c.far = true → s.mergeUp p = true → let r := (hbmRead errs (17024 * e.place) 16576 s).1
    let whole := r.2 = true ∧ fld r.1 16512 6 = fn ∧ fld r.1 16572 4 = (crc32c (r.1.take 16572)).toNat
    (whole → Completes (.farStorePrefetch p m fn errs) s fun t =>
      (t.pairSt p).copy m fn = some ⟨{ c.fr with bytes := r.1.take 16512 }, false⟩ ∧ t.regs = s.regs ∧ t.cb = s.cb) ∧
    (¬ whole → ∃ u e', exec (.farStorePrefetch p m fn errs) s = .next (settle (settleNow p ((s.pairSt p).lastTd / 65536) u)) ∧ (u.pairSt p).copy m fn = none ∧
      Counted (cPAIR p kHBM_UNC) 1 s u ∧ (u.pairSt p).entry fn = some e' ∧ e'.verdict m = 3)) ∧
  (∀ (p m : Pr) (fn : Nat) (errs : List (Nat × BitVec 256)) (s : State), (s.pairSt p).copy m fn = none ∨ s.mergeUp p = false → exec (.farStorePrefetch p m fn errs) s = .next (settle s)) ∧
  (∀ (p : Pr) (fn x : Nat) (e : Ledger) (s : State), (s.pairSt p).entry fn = some e → e.decision ≠ 3 →
    (e.td + 800000 ≤ x → Completes (.ledgerEntryRetired p fn x) s fun t => (t.pairSt p).entry fn = none ∧ t.regs = s.regs ∧ t.cb = s.cb ∧
      ∀ f, f % 65536 ≠ fn % 65536 → (t.pairSt p).entry f = (s.pairSt p).entry f) ∧
    (x < e.td + 800000 → exec (.ledgerEntryRetired p fn x) s = .next (settle s))) ∧
  (∀ (p : Pr) (s : State), s.ready = true → Completes (.occMaxRead p) s fun t => t.out.data = s.rd (rMRG_OCC_MAX p) ∧
    ((s.pairSt p).occ < 2 ^ 17 → t.fld (fMRG_OCC_MAX_OCC_MAX p) = (s.pairSt p).occ ∧ t.fld (fMRG_OCC_OCC p) = (s.pairSt p).occ) ∧
    OnlyRegs [rMRG_OCC p, rMRG_OCC_MAX p] s t ∧ t.cb = s.cb) ∧
  (∀ (p : Pr) (s : State), s.ready = false → exec (.occMaxRead p) s = .next (settle (put 0#32 s)))

/-- Switching of spec 11. `mrgEval` is the model's following of the conditions, `wtrRule` its wait-to-restore part. -/
def Obligations.MergeSwitching : Prop :=
  (∀ (p : Pr) (s : State), s.fld (fMRG_STATUS_STATE p) = 0 → mrgEval p s = s) ∧
  (∀ (p : Pr) (s : State), s.fld (fMRG_STATUS_STATE p) ≠ 0 → let u := wtrRule p s
    let t := mrgEval p s
    (∃ r : Option SwReq, (∀ y, r = some y → y ∈ u.reqsNow p) ∧ (∀ y ∈ u.reqsNow p, ∃ z, r = some z ∧ y.code ≤ z.code) ∧
      t.fld (fMRG_STATUS_PREFERRED p) = (u.prefOf p r).1 ∧ t.flag (fMRG_STATUS_EXCLUSIVE p) = (u.prefOf p r).2 ∧
      t.fld (fMRG_STATUS_REQ p) = (match r with | some y => y.code | none => 0)) ∧
    (t.rd (rMRG_SR_TX p)).toNat % 2 ^ 24 = (t.fld (fMRG_STATUS_PREFERRED p) * 128 + t.fld (fMRG_STATUS_EXCLUSIVE p) * 64) * 65536 +
      (128 + t.fld (fMRG_CFG_STORE p) * 64 + t.fld (fMRG_CFG_HOME p) * 32) * 256 ∧
    t.flag (fMRG_STATUS_FAR_UNPAIRED p) = (t.flag (fMRG_STATUS_SR_VALID p) && !(t.rd (rMRG_SR_RX p)).getLsbD 15) ∧
    OnlyRegs [rMRG_STATUS p, rMRG_SEEN p, rMRG_SR_TX p, rMRG_WTR_LEFT p] s t) ∧
  (∀ (p : Pr) (s : State), s.fld (fMRG_STATUS_STATE p) ≠ 0 → let home := s.fld (fMRG_CFG_HOME p)
    let u := wtrRule p s
    let fault := ∃ r ∈ s.reqsNow p, r.far = false ∧ r.member = home ∧ (r.code = 0xD ∨ r.code = 0xB)
    (fault → u.flag (fMRG_STATUS_WTR_RUN p) = false) ∧
    (¬ fault → s.flag (fMRG_STATUS_WTR_RUN p) = false → (s.pairSt p).moved = true → s.flag (fMRG_CFG_REVERT p) = true → s.fld (fMRG_CFG_WTR p) ≠ 0 →
      (∀ r ∈ s.reqsNow p, r.code ≤ 5) → u.flag (fMRG_STATUS_WTR_RUN p) = true ∧ u.fld (fMRG_WTR_LEFT_LEFT p) = s.fld (fMRG_CFG_WTR p) ∧
        Logged s u [(0x060A, bMRG, 1, p)]) ∧
    (¬ fault → s.flag (fMRG_STATUS_WTR_RUN p) = false → (s.pairSt p).moved = false → u = s)) ∧
  (∀ (p : Pr) (m : Nat) (s : State), let home := s.fld (fMRG_CFG_HOME p)
    s.prefOf p (some ⟨0xF, m, false⟩) = (home, true) ∧ s.prefOf p (some ⟨0xE, m, false⟩) = (1 - home, true) ∧
    s.prefOf p (some ⟨0xD, m, false⟩) = (1 - m, false) ∧ s.prefOf p (some ⟨0xB, m, false⟩) = (1 - m, false) ∧
    s.prefOf p (some ⟨0x8, m, false⟩) = (1 - home, false) ∧ s.prefOf p (some ⟨0x5, m, false⟩) = (1 - home, false) ∧
    (s.flag (fMRG_CFG_REVERT p) = true → s.prefOf p none = (home, false)) ∧
    (s.flag (fMRG_CFG_REVERT p) = false → s.prefOf p none = (s.fld (fMRG_STATUS_PREFERRED p), false))) ∧
  (∀ (p : Pr) (s : State), s.flag (fMRG_STATUS_WTR_RUN p) = true → ∃ u, exec (.wtrExpiry p) s = .next (settle (mrgEval p u)) ∧
    u.flag (fMRG_STATUS_WTR_RUN p) = false ∧ u.fld (fMRG_WTR_LEFT_LEFT p) = 0 ∧ (u.pairSt p).moved = false ∧ Logged s u [(0x060A, bMRG, 0, p)] ∧
    OnlyRegs [rMRG_STATUS p, rMRG_WTR_LEFT p] s u) ∧
  (∀ (p : Pr) (s : State), s.flag (fMRG_STATUS_WTR_RUN p) = false → exec (.wtrExpiry p) s = .next (settle s)) ∧
  (∀ (p : Pr) (s : State), s.fld (fMRG_STATUS_STATE p) ≠ 0 → (s.pairSt p).crossAt.toNat + 1000000000 ≤ s.life.toNat → Completes (.crossedTimer p) s fun t =>
    t.flag (fMRG_STATUS_CROSSED p) = (s.pairSt p).crossCond ∧ OnlyRegs [rMRG_STATUS p, rMRG_SEEN p] s t ∧ t.mrg = s.mrg ∧
    Logged s t (if s.flag (fMRG_STATUS_CROSSED p) = (s.pairSt p).crossCond then [] else [(0x060B, bMRG, 4 + 8 * b2n (s.pairSt p).crossCond, p)]) ∧
    ((s.pairSt p).crossCond = true → s.flag (fMRG_STATUS_CROSSED p) = false → t.flag (fMRG_SEEN_CROSSED_SEEN p) = true)) ∧
  (∀ (p : Pr) (s : State), s.life.toNat < (s.pairSt p).crossAt.toNat + 1000000000 → exec (.crossedTimer p) s = .next (settle s)) ∧
  (∀ (p : Pr) (s : State), s.mergeUp p = true → 2 ≤ s.fld (fMRG_STATUS_STATE p) → s.fld (fMRG_STATUS_MEMBER_A p) ≠ 1 → s.fld (fMRG_STATUS_MEMBER_B p) ≠ 1 →
    ∃ u, exec (.pairWaiting p) s = .next (settle (mrgEval p (pairTo p 1 (setPair p { u.pairSt p with next := none } u)))) ∧
      u = flushPair p ((s.pairSt p).lastTd / 65536) (s.pairCap p + 1) (setPair p { s.pairSt p with newSeq := [] } s)) ∧
  (∀ (p : Pr) (s : State), (s.mergeUp p = false ∨ s.fld (fMRG_STATUS_MEMBER_A p) = 1 ∨ s.fld (fMRG_STATUS_MEMBER_B p) = 1) → exec (.pairWaiting p) s = .next (settle s))

/-- Requests of R287. The session is an implicit one (R257); assumption 53 has the dark merge. -/
def Obligations.PairRequests : Prop :=
  (∀ (q : Request) (s : State), cmdPairCreate.passes q s = true → let t := s.taken q cmdPairCreate.code
    let p := fld q.params 0 1
    t.session (16 + p) = none → t.flag (fMRG_CFG_VALID p) = false → (bit (fld q.params 3 1) 0 && t.flag fSYS_BOOT_STATUS_HBM_FAIL) = false →
    ∃ u op r, (t.fld (fPD 28) ≠ 0 → exec (.pairCreate q) s = .next (settle (place q 0x0300 (.defer op) u))) ∧
      (t.fld (fPD 28) = 0 → exec (.pairCreate q) s = .next (settle (carryOut (16 + p) 0 (place q 0x0300 (.defer op) u)))) ∧ op.org = q.org ∧ op.reply = true ∧
      u.session (16 + p) = some r ∧ r.owner = q.org.who ∧ r.cue = some ⟨0, 0, q.org⟩ ∧ r.implicit = some 0x0300 ∧ u = { t with rehearsals := u.rehearsals } ∧
      (let w := bankRd r.bank (rMRG_CFG p)
       (fMRG_CFG_VALID p).of w = 1 ∧ (fMRG_CFG_STORE p).of w = b2n (bit (fld q.params 3 1) 0) ∧ (fMRG_CFG_CH_A p).of w = fld q.params 1 1 ∧
       (fMRG_CFG_CH_B p).of w = fld q.params 2 1 ∧ (fMRG_CFG_HOME p).of w = b2n (bit (fld q.params 3 1) 1) ∧
       (fMRG_CFG_REVERT p).of w = b2n (bit (fld q.params 3 1) 2) ∧ (fMRG_CFG_GUARD p).of w = fld q.params 6 1 ∧ (fMRG_CFG_WTR p).of w = fld q.params 4 2)) ∧
  (Turned cmdPairCreate .pairCreate (fun q t => t.session (16 + fld q.params 0 1) = none ∧ (t.flag (fMRG_CFG_VALID (fld q.params 0 1)) = true ∨
    (bit (fld q.params 3 1) 0 = true ∧ t.flag fSYS_BOOT_STATUS_HBM_FAIL = true))) fun _ _ => { status := stWRONG_STATE }) ∧
  (∀ (q : Request) (s : State), cmdPairDelete.passes q s = true → let t := s.taken q cmdPairDelete.code
    let p := fld q.params 0 1
    t.session (16 + p) = none → t.flag (fMRG_CFG_VALID p) = true →
    ∃ u op r, (t.fld (fPD 28) ≠ 0 → exec (.pairDelete q) s = .next (settle (place q 0x0301 (.defer op) u))) ∧
      (t.fld (fPD 28) = 0 → exec (.pairDelete q) s = .next (settle (carryOut (16 + p) 0 (place q 0x0301 (.defer op) u)))) ∧ op.org = q.org ∧ op.reply = true ∧
      u.session (16 + p) = some r ∧ r.cue = some ⟨0, 0, q.org⟩ ∧ u = { t with rehearsals := u.rehearsals } ∧
      bankRd r.bank (rMRG_CFG p) = (fMRG_CFG_VALID p).put (t.rd (rMRG_CFG p)) 0) ∧
  (Turned cmdPairDelete .pairDelete (fun q t => t.session (16 + fld q.params 0 1) = none ∧ t.flag (fMRG_CFG_VALID (fld q.params 0 1)) = false)
    fun _ _ => { status := stWRONG_STATE }) ∧
  (Does cmdPairRequest .pairRequest (fun q t => t.flag (fMRG_CFG_VALID (fld q.params 0 1)) = true) fun q t ans u =>
    ans = .done [] ∧ u = mrgEval (fld q.params 0 1) (t.setF (fMRG_OPREQ_OPREQ (fld q.params 0 1)) (fld q.params 1 1)) ∧
      u.fld (fMRG_OPREQ_OPREQ (fld q.params 0 1)) = fld q.params 1 1) ∧
  (Turned cmdPairRequest .pairRequest (fun q t => t.flag (fMRG_CFG_VALID (fld q.params 0 1)) = false) fun _ _ => { status := stWRONG_STATE }) ∧
  (Does cmdPairReport .pairReport (fun _ _ => True) fun q t ans u => let p := fld q.params 0 1
    u = t ∧ ∃ ps, ans = .done ps ∧ ps.length = 106 ∧ fld ps 0 4 = (t.rd (rMRG_STATUS p)).toNat ∧ fld ps 4 4 = (t.rd (rMRG_DTRACK p)).toNat ∧
      fld ps 8 4 = (t.rd (rMRG_DMEAS p)).toNat ∧ fld ps 12 4 = (t.rd (rMRG_OCC p)).toNat ∧ fld ps 24 2 = (t.rd (rMRG_WTR_LEFT p)).toNat % 65536 ∧
      ∀ k, k < 13 → fld ps (28 + 6 * k) 6 = (cntStored t (cPAIR p k)).toNat % 2 ^ 48) ∧
  (Does cmdPairLedgerRead .pairLedgerRead (fun q t => ((t.pairSt (fld q.params 0 1)).entry (fld q.params 2 6)).isSome = true) fun q t ans u =>
    u = t ∧ ∃ b e, ans = .done b ∧ (t.pairSt (fld q.params 0 1)).entry (fld q.params 2 6) = some e ∧ slice b 0 24 = e.bytes ∧
      b.length % 24 = 0 ∧ b.length ≤ 24 * fld q.params 1 1) ∧
  (Turned cmdPairLedgerRead .pairLedgerRead (fun q t => (t.pairSt (fld q.params 0 1)).entry (fld q.params 2 6) = none) fun _ _ => { status := stWRONG_STATE })

/-- Key commands of spec 12. The cryptographic functions are opaque (assumption 6); the draws are free values. -/
def Obligations.KeyCommands : Prop :=
  (Does cmdKeyEstablish .keyEstablish (fun _ _ => True) fun _ t ans u => (∃ k, u.cph.kek = some k ∧ k.length = 32) ∧ (∃ b, ans = .done b ∧ b.length = 32) ∧
    u.free = t.free + 2 ∧ Logged t u [(0x0701, bCPH, 0, 0)] ∧ OnlyRegs [rCPH_STATUS, rPWR_DOMAIN_B] t u ∧ u.cph.keys = t.cph.keys ∧
    (t.pdOn 29 = true → u.flag fCPH_STATUS_KEK_VALID = true ∧ u.pwr = t.pwr) ∧
    (t.fld (fPD 29) = 0 → StartItem.domain 29 ∉ t.pwr.queue → u.fld (fPD 29) = 3 ∧ u.pwr.queue = t.pwr.queue ++ [.domain 29])) ∧
  (∀ r, Does cmdKeyInstall .keyInstall (fun q t => t.blob q.params = some r ∧ t.fld (fCPH_CTX_A_STATE (fld q.params 0 2)) = 0 ∧
      (let mine := t.contexts.filter fun j => t.fld (fCPH_CTX_A_SESSION j) == unle (slice r 36 2).reverse
       (mine.filter fun j => t.fld (fCPH_CTX_A_DIR j) == fld r 38 1).length < 2 ∧
        ∀ j ∈ mine, t.fld (fCPH_CTX_A_DIR j) ≠ fld r 38 1 → ∀ k, t.keyOf j = some k → k.key ≠ slice r 0 32))
    fun q t ans u => let i := fld q.params 0 2
      let x := unle (slice r 36 2).reverse
      ans = .done [] ∧ u.fld (fCPH_CTX_A_STATE i) = cxINSTALLED ∧ u.fld (fCPH_CTX_A_DIR i) = fld r 38 1 ∧ u.fld (fCPH_CTX_A_SESSION i) = x ∧
        u.keyOf i = some ⟨slice r 0 32, slice r 32 4, 0#128, 0⟩ ∧ x ∈ u.cph.sets ∧ (x ∉ t.cph.sets → ∀ k, k < 6 → u.counter (kSession x k) = 0) ∧
        Logged t u [(0x0702, bCPH, i + 65536 * x, fld r 38 1)] ∧ OnlyRegs [rCPH_CTX_A i, rMEM_SFLIP] t u) ∧
  (Turned cmdKeyInstall .keyInstall (fun q t => t.cph.kek = none ∨ ((t.blob q.params).isSome = true ∧ t.fld (fCPH_CTX_A_STATE (fld q.params 0 2)) ≠ 0))
    fun _ _ => { status := stWRONG_STATE }) ∧
  (∀ r, Turned cmdKeyInstall .keyInstall (fun q t => t.blob q.params = some r ∧ t.fld (fCPH_CTX_A_STATE (fld q.params 0 2)) = 0 ∧
      2 ≤ ((t.contexts.filter fun j => t.fld (fCPH_CTX_A_SESSION j) == unle (slice r 36 2).reverse).filter fun j => t.fld (fCPH_CTX_A_DIR j) == fld r 38 1).length)
    fun _ _ => { status := stCONFLICT, b1 := bCPH }) ∧
  (Does cmdKeyZeroise .keyZeroise (fun q _ => fld q.params 0 2 ≠ 0xFFFF) fun q t ans u => let i := fld q.params 0 2
    ans = .done [] ∧ u.keyOf i = none ∧ u.fld (fCPH_CTX_A_STATE i) = 0 ∧ u.fld (fCPH_CTX_A_SESSION i) = 0 ∧ (∀ a ∈ u.cph.acts, a.ctx ≠ i) ∧ u.cph.kek = t.cph.kek ∧
      OnlyRegs [rCPH_CTX_A i, rCPH_CTX_B i, rINT_STATUS 0, rINT_STATUS 1, rMBX_RSP_STATUS 0, rMBX_RSP_STATUS 1] t u ∧
      ((∀ a ∈ t.cph.acts, a.ctx ≠ i) → Logged t u ((if t.fld (fCPH_CTX_A_STATE i) = cxCURRENT then
        [(0x0714, bCPH, t.fld (fCPH_CTX_A_SESSION i), t.fld (fCPH_CTX_A_DIR i))] else []) ++ [(0x0704, bCPH, i, 0)]))) ∧
  (Does cmdKeyZeroise .keyZeroise (fun q _ => fld q.params 0 2 = 0xFFFF) fun _ _ ans u => ans = .done [] ∧ u.cph.kek = none ∧ u.contexts = [] ∧
    u.flag fCPH_STATUS_KEK_VALID = false) ∧
  (Does cmdKeyZeroise .keyZeroise (fun q _ => fld q.params 0 2 = 0xFFFF) fun _ t _ u => ∀ x, (t.sessionAt x).isSome = true →
    (x ∈ u.cph.authFail ↔ x ∈ t.cph.authFail) ∧ (x ∈ u.cph.txBlocked ↔ x ∈ t.cph.txBlocked) ∧ smGet (fun _ => 0) u.cph.fails x = smGet (fun _ => 0) t.cph.fails x) ∧
  (Does cmdKeyIdentity .keyIdentity (fun _ _ => True) fun _ t ans u => u = t ∧ ∃ b, ans = .done b ∧ b.length = 201 ∧ fld b 97 8 = Config.serial.toNat) ∧
  (Does cmdSessionReport .sessionReport (fun _ _ => True) fun q t ans u => let x := fld q.params 0 2
    u = t ∧ ∃ b, ans = .done b ∧ b.length = 48 ∧ fld b 0 1 = b2n (t.sessionAt x).isSome + 2 * b2n (t.cph.authFail.contains x) +
      4 * b2n (t.cph.txBlocked.contains x) + 8 * b2n (t.current x 1).isNone ∧
      ∀ k, k < 6 → fld b (12 + 6 * k) 6 = (smGet (fun _ => 0#49) t.cnt.store (kSession x k)).toNat % 2 ^ 48) ∧
  (Does cmdCipherReport .cipherReport (fun _ _ => True) fun _ t ans u => u = t ∧ ∃ b, ans = .done b ∧ b.length = 44 ∧
    fld b 0 4 = (t.shown rCPH_STATUS).toNat ∧ fld b 4 4 = (t.shown rCPH_LOAD).toNat ∧ ∀ k, k < 9 → fld b (8 + 4 * k) 4 = (t.shown (rCPH_CORE k)).toNat)

/-- Activation of spec 12. The frame number of an unbound session's activation is a free value (assumption 54). -/
def Obligations.KeyActivation : Prop :=
  (∀ (i : Fin 16384) (f : Nat) (s : State), let x := s.fld (fCPH_CTX_A_SESSION i)
    let d := s.fld (fCPH_CTX_A_DIR i)
    let t := becomeCurrent i f s
    t.fld (fCPH_CTX_A_STATE i) = cxCURRENT ∧ (∀ a ∈ t.cph.acts, a.ctx ≠ i.val) ∧ (d = 0 → x ∉ t.cph.txBlocked) ∧
      Logged s t [(0x0703, bCPH, i + 65536 * x, f / 256)] ∧
      ∀ o, s.current x d = some o → o ≠ i.val → t.fld (fCPH_CTX_A_STATE o) =
        (if s.ctxOwes o = true then cxRETIRING else 0) ∧ (s.flag (fCPH_CTX_A_USED o) = false → s.ctxOwes o = false)) ∧
  (∀ (i : Fin 16384) (s : State), (∀ a ∈ s.cph.acts, a.ctx ≠ i.val) → exec (.keyBecomesCurrent i) s = .next (settle s)) ∧
  (∀ (i : Fin 16384) (a : Act) (n c : Nat) (s : State), (s.cph.acts.find? fun a => a.ctx == i.val) = some a →
    s.sessionAt (s.fld (fCPH_CTX_A_SESSION i)) = some (n, c) → s.active n = true → let f := s.nextFn n (s.fld (fCPH_CTX_A_DIR i))
    (f % 256 = 0 → (a.mode = 0 ∨ 0 ≤ fnDiff f a.frame) → exec (.keyBecomesCurrent i) s = .next (settle (becomeCurrent i f s))) ∧
    (f % 256 ≠ 0 → (a.mode ≠ 1 ∨ s.fld (fCPH_CTX_A_DIR i) ≠ 1 ∨ fnDiff f a.frame ≤ 0) → exec (.keyBecomesCurrent i) s = .next (settle s))) ∧
  (∀ (i : Fin 16384) (a : Act) (s : State), (s.cph.acts.find? fun a => a.ctx == i.val) = some a → s.actAtOnce i = true →
    exec (.keyBecomesCurrent i) s = .next (settle (becomeCurrent i ((Config.free s.free).toNat % 2 ^ 48) { s with free := s.free + 1 }))) ∧
  (∀ (q : Request) (s : State), cmdKeyActivate.passes q s = true → let t := s.taken q cmdKeyActivate.code
    let i := fld q.params 0 2
    let x := t.fld (fCPH_CTX_A_SESSION i)
    let d := t.fld (fCPH_CTX_A_DIR i)
    t.fld (fCPH_CTX_A_STATE i) = cxINSTALLED → t.ctxIn x d cxPENDING = none → t.ctxIn x d cxRETIRING = none →
    (∀ n c, t.sessionAt x = some (n, c) → fld q.params 2 1 = 1 → t.active n = true → 512 ≤ fnDiff (fld q.params 4 6) (t.nextFn n d) + 1) →
    ∃ u op, u.fld (fCPH_CTX_A_STATE i) = cxPENDING ∧ u.cph.acts = t.cph.acts ++ [⟨i, fld q.params 2 1, fld q.params 4 6, q.org⟩] ∧
      OnlyRegs [rCPH_CTX_A i] t u ∧ u.cb = t.cb ∧ op.org = q.org ∧ op.opcode = 0x0402 ∧
      (t.actAtOnce i = false → exec (.keyActivate q) s = .next (settle (place q 0x0402 (.accept op) u))) ∧
      (t.actAtOnce i = true → exec (.keyActivate q) s = .next (settle (becomeCurrent i ((Config.free t.free).toNat % 2 ^ 48)
        { place q 0x0402 (.accept op) u with free := t.free + 1 })))) ∧
  (Turned cmdKeyActivate .keyActivate (fun q t => let i := fld q.params 0 2
      t.fld (fCPH_CTX_A_STATE i) ≠ cxINSTALLED ∧ ∀ a ∈ t.cph.acts, ¬ (a.ctx = i ∧ a.org = q.org)) fun _ _ => { status := stWRONG_STATE })

/-- Spec 12. Capacity to spare is that of the cores in service (`spareCores`, assumption 131). `cphRefresh` brings counts and loads into the registers (R316). -/
def Obligations.TagVerdictsAndCores : Prop :=
  (∀ (copy : Option Nat) (a : MfAcc) (e : RxSess), let v := verdictFor copy a e
    (e.ctx = none → v = 4) ∧ (e.ctx.isSome = true → (tagHit copy e.tag = true → v = 0) ∧
      (tagHit copy e.tag = false → a.bad = true ∨ e.sess ∈ a.short → v = 2) ∧ (tagHit copy e.tag = false → a.bad = false → e.sess ∉ a.short → copy = none → v = 3) ∧
      (tagHit copy e.tag = false → a.bad = false → e.sess ∉ a.short → copy.isSome = true → v = 1))) ∧
  (∀ (n : Ch) (a b : MfAcc) (e : RxSess) (s : State), s.fld (fHUB_CTRL_ROLE n) ≠ 1 → s.tagCopy n none a e = none ∧
    (b.mf ≠ (a.mf + 1) % 2 ^ 40 → s.tagCopy n (some b) a e = none) ∧
    (∀ j t, b.mf = (a.mf + 1) % 2 ^ 40 → e.slots.head? = some j → smLookup b.tags j = some t → t.length = 16 → s.tagCopy n (some b) a e = some (unbe t))) ∧
  (∀ (x n : Nat) (newer : Option MfAcc) (a : MfAcc) (e : RxSess) (s : State), s.verdictDue x = some (n, newer, a, e) → (s.sessionAt x).isSome = true →
    let copy := s.tagCopy n newer a e
    let v := verdictFor copy a e
    let k := smGet (fun _ => 0) s.cph.fails x
    Completes (.tagVerdictResolved x) s fun t => Counted (kSession x v) 1 s t ∧
      (∀ b ∈ t.cph.accs.get (ch4 n), b.mf = a.mf → ∀ y ∈ b.sess, y.sess ≠ x) ∧
      (v = 0 → x ∉ t.cph.authFail ∧ smGet (fun _ => 0) t.cph.fails x = 0 ∧ (x ∈ s.cph.authFail → x ∈ t.cph.authLeft)) ∧
      (v = 1 → smGet (fun _ => 0) t.cph.fails x = k + 1 ∧
        (s.fld fCPH_CTRL_FAIL_LIMIT ≠ 0 → s.fld fCPH_CTRL_FAIL_LIMIT ≤ k + 1 → x ∈ t.cph.authFail)) ∧
      (2 ≤ v → t.cph.authFail = s.cph.authFail ∧ smGet (fun _ => 0) t.cph.fails x = k) ∧
      (∀ p, e.pend = some p → e.ctx.isSome = true → tagHit copy e.tag = false → tagHit copy e.pendTag = true → Counted (cCPH 0) 1 s t ∧ p ∈ t.cph.nextSeen)) ∧
  (∀ (x : Nat) (s : State), s.verdictDue x = none → exec (.tagVerdictResolved x) s = .next (settle s)) ∧
  (∀ (cs c2 c3 : List Nat) (s : State), cs ≠ [] → c2 ≠ [] → c3 ≠ [] → let u := each cs testCore s
    jobRounds 0 [[]] s = (false, s) ∧ (jobRounds 0 [cs, c2, c3] s).1 = true ∧
    (u.coresIn 1 ≠ [] ∨ u.spareCores = true → jobRounds 0 [cs] s = (false, count (cCPH 1) u)) ∧
    (u.coresIn 1 = [] → u.spareCores = false → jobRounds 0 [cs] s = (true, u))) ∧
  (∀ (c : Fin 144) (pass act : Bool) (s : State), (s.cph.tests.find? fun t => t.1 == c.val) = some (c.val, act) →
    let past := s.cph.trans.filter fun t => t.1 == c.val && decide (s.life.toNat ≤ t.2.toNat + 86400000000000)
    (pass = true → past.length < 2 → ∃ u k, exec (.coreTestComplete c pass) s = .next (settle (cphRefresh u)) ∧ u.fld (fCore c) = (if act then 0 else 1) ∧
      Counted (cCPH 2) 1 s u ∧ Logged s u [(0x0720, bCore c, c, k)] ∧ (∀ y ∈ u.cph.tests, y.1 ≠ c.val) ∧ u.cph.trans = s.cph.trans ++ [(c.val, s.life)] ∧
      u.perm = s.perm ∧ OnlyRegs [rCPH_CORE (c / 16)] s u) ∧
    (pass = false ∨ 2 ≤ past.length → ∃ u, exec (.coreTestComplete c pass) s = .next (settle (cphRefresh u)) ∧ u.fld (fCore c) = 3 ∧
      u.perm.cores = s.perm.cores ++ [c.val] ∧ Counted (cCPH 3) 1 s u ∧ Logged s u [(0x0721, bCore c, c, s.perm.cores.length + 1)] ∧
      (∀ y ∈ u.cph.tests, y.1 ≠ c.val) ∧ ∀ w r, act = true → s.coresIn 1 = w :: r → w ≠ c.val → u.fld (fCore w) = 0)) ∧
  (∀ (c : Fin 144) (pass : Bool) (s : State), (∀ y ∈ s.cph.tests, y.1 ≠ c.val) → exec (.coreTestComplete c pass) s = .next (settle s)) ∧
  (∀ (faulty : List Nat) (s : State), s.pdOn 29 = true → Completes (.idleUnderstudyTest faulty) s fun t =>
    (∀ c, c ∈ faulty → c < 144 → s.fld (fCore c) = 1 → t.fld (fCore c) = 2 ∧ (c, false) ∈ t.cph.tests) ∧
      ∀ c, c < 144 → c ∉ faulty ∨ s.fld (fCore c) ≠ 1 → t.fld (fCore c) = s.fld (fCore c)) ∧
  (∀ (faulty : List Nat) (s : State), s.pdOn 29 = false → exec (.idleUnderstudyTest faulty) s = .next (settle s))

/-- Lanes of spec 13: each event in the states it applies to, and no effect in the others. The states of training are passed in one event
(assumption 132). -/
def Obligations.LaneStates : Prop :=
  (∀ (l : Fin 64) (s : State), let t := portLost l s
    (∀ h, s.headOf l = some h → s.portLanesUp h = false → t.flag (fHP_STATUS_AM_LOCK h) = false ∧ t.flag (fHP_STATUS_PCS_LOCK h) = false ∧
      t.flag (fHP_STATUS_CAL_LOCK h) = false ∧ OnlyRegs [rHP_STATUS h] s t) ∧
    ((s.headOf l = none ∨ ∃ h, s.headOf l = some h ∧ s.portLanesUp h = true) → t = s)) ∧
  (∀ (l : Fin 64) (s : State), let t := laneTrain l s
    t.laneSt l = 1 ∧ t.flag (fHL_STATUS_HOLDING l) = false ∧ t.flag (fHL_STATUS_SX l) = false ∧
      (s.laneSt l = 4 → t.fld (fHL_LOOP_DEPTH l) = 0) ∧
      (∀ h, s.headOf l = some h → t.flag (fHP_STATUS_AM_LOCK h) = false ∧ t.flag (fHP_STATUS_PCS_LOCK h) = false ∧ t.flag (fHP_STATUS_CAL_LOCK h) = false) ∧
      ∀ off, off ≠ rCB_STATUS → off ≠ rHL_STATUS l → off ≠ rHL_LOOP l → (∀ h, s.headOf l = some h → off ≠ rHP_STATUS h) → t.rd off = s.rd off) ∧
  (∀ (l : Fin 64) (mark : Bool) (own partner : List Nat) (snr ber : Nat) (s : State), let sx := mark && s.flag (fHL_CFG_SX_EN l)
    (s.training l = true → ∃ u, exec (.laneTrainingComplete l mark own partner snr ber) s =
        .next (settle (targetDone 0x0600 (tPLane l) none [] (targetDone 0x0262 (tLane l) none [4#8] u))) ∧
      u.laneSt l = 4 ∧ u.flag (fHL_STATUS_SX l) = sx ∧ u.flag (fHL_STATUS_LOS l) = false ∧ u.flag (fHL_STATUS_HOLDING l) = false ∧
      u.fld (fHL_STATUS_SNR l) = snr % 256 ∧ (u.lane l).restarts = 0 ∧ (u.lane l).own = own ∧ (u.lane l).partner = partner ∧ (u.lane l).ber = ber ∧
      OnlyRegs [rHL_STATUS l] s u ∧ Logged s u ((if s.laneSt l = 2 then [] else [(0x0807, bLane l, l.val + 256 * 2, 0)]) ++ (if sx then [(0x0807, bLane l, l.val + 256 * 3, 0)] else []) ++
        [(0x0807, bLane l, l.val + 256 * 4, 0), (0x0801, bLane l, l.val + 256 * b2n sx, snr % 256)])) ∧
    (s.training l = false → exec (.laneTrainingComplete l mark own partner snr ber) s = .next (settle s) ∧ exec (.laneTrainingTimeout l) s = .next (settle s))) ∧
  (∀ (l : Fin 64) (s : State), s.training l = true → Completes (.laneTrainingTimeout l) s fun t =>
    t.laneSt l = 1 ∧ (t.lane l).restarts = (s.lane l).restarts + 1 ∧ t.fld (fHL_STATUS_HL_TRAIN_FAIL l) = sat 255 (s.fld (fHL_STATUS_HL_TRAIN_FAIL l) + 1) ∧
      OnlyRegs [rHL_STATUS l] s t ∧ Logged s t ((if (s.lane l).restarts = 2 then [(0x0802, bLane l, l.val, 0)] else []) ++
        (if s.laneSt l = 1 then [] else [(0x0807, bLane l, l.val + 256, 0)]))) ∧
  (∀ (l : Fin 64) (s : State),
    (s.laneSt l = 4 → s.flag (fHL_STATUS_LOS l) = false → s.fld (fHL_LOOP_DEPTH l) ≠ 1 → ∃ u, exec (.laneLos l) s = .next (settle (portLost l u)) ∧
      u.flag (fHL_STATUS_LOS l) = true ∧ u.flag (fHL_STATUS_HOLDING l) = true ∧ u.laneSt l = 4 ∧ (∀ h, s.headOf l = some h → u.portLanesUp h = false) ∧
      OnlyRegs [rHL_STATUS l] s u ∧ Logged s u [(0x0803, bLane l, l, 0)]) ∧
    (s.laneSt l ≠ 4 ∨ s.flag (fHL_STATUS_LOS l) = true ∨ s.fld (fHL_LOOP_DEPTH l) = 1 → exec (.laneLos l) s = .next (settle s)) ∧
    (s.flag (fHL_STATUS_HOLDING l) = true → exec (.laneHoldExpiry l) s = .next (settle (laneTrain l s)) ∧
      Completes (.laneSignalReturn l) s fun t => t.flag (fHL_STATUS_LOS l) = false ∧ t.flag (fHL_STATUS_HOLDING l) = false ∧ t.laneSt l = s.laneSt l ∧
        OnlyRegs [rHL_STATUS l] s t ∧ Logged s t [(0x0804, bLane l, l, 0)]) ∧
    (s.flag (fHL_STATUS_HOLDING l) = false → exec (.laneHoldExpiry l) s = .next (settle s) ∧
      Completes (.laneSignalReturn l) s fun t => t.flag (fHL_STATUS_LOS l) = (s.flag (fHL_STATUS_LOS l) && !s.training l) ∧ t.laneSt l = s.laneSt l ∧
        OnlyRegs [rHL_STATUS l] s t ∧ Logged s t [])) ∧
  (∀ (l : Fin 64) (s : State), let now := (s.lane l).losses.filter fun t => decide (s.life.toNat ≤ t.toNat + 1000000000)
    (s.laneSt l = 4 → s.flag (fHL_STATUS_LOS l) = false → (s.lane l).testing = false → Completes (.laneLockLost l) s fun t =>
      t.regs = s.regs ∧ t.cb = s.cb ∧ (now.length < 2 → (t.lane l).losses = now ++ [s.life] ∧ (t.lane l).testing = false) ∧
        (2 ≤ now.length → (t.lane l).losses = [] ∧ (t.lane l).testing = true)) ∧
    (s.laneSt l ≠ 4 ∨ s.flag (fHL_STATUS_LOS l) = true ∨ (s.lane l).testing = true → exec (.laneLockLost l) s = .next (settle s))) ∧
  (∀ (l : Fin 64) (s : State), (s.lane l).testing = true → let k := sat 255 (s.fld (fHL_STATUS_HL_TRANSIENTS l) + 1)
    (∃ u, exec (.laneTestComplete l true) s = .next (settle (laneTrain l u)) ∧ (u.lane l).testing = false ∧ (u.lane l).failed = false ∧ u.fld (fHL_STATUS_HL_TRANSIENTS l) = k ∧
      OnlyRegs [rHL_STATUS l] s u ∧ Logged s u [(0x0808, bLane l, l, k)]) ∧
    (∃ u, exec (.laneTestComplete l false) s = .next (settle (portLost l u)) ∧ (u.lane l).testing = false ∧ (u.lane l).failed = true ∧ u.laneSt l = 7 ∧
      OnlyRegs [rHL_STATUS l, rHL_LOOP l] s u)) ∧
  (∀ (l : Fin 64) (pass : Bool) (s : State), (s.lane l).testing = false → exec (.laneTestComplete l pass) s = .next (settle s))

/-- Ports of spec 13. `hpStatus` computes LF_TX; `hgcGood` is the packet's CRC; what follows a packet waits for the
next event. -/
def Obligations.HostPorts : Prop :=
  (∀ (h : Fin 64) (am pcs : Bool) (skew : Nat) (s : State), s.headLane h = true → let a := am && s.portLanesUp h
    let c := (s.lane h).cal.lock && pcs && a
    Completes (.portLockChanged h am pcs skew) s fun t => t.flag (fHP_STATUS_AM_LOCK h) = a ∧ t.flag (fHP_STATUS_PCS_LOCK h) = (pcs && a) ∧
      t.flag (fHP_STATUS_CAL_LOCK h) = c ∧ t.fld (fHP_STATUS_SKEW h) = (if a then skew % 256 else 0) ∧
      t.fld (fHP_STATUS_SEEN h) = (BitVec.ofNat 8 (s.fld (fHP_STATUS_SEEN h)) ||| BitVec.ofNat 8 (b2n (s.flag (fHP_STATUS_AM_LOCK h) && !a) +
        2 * b2n (s.flag (fHP_STATUS_PCS_LOCK h) && !(pcs && a)) + 4 * b2n (s.flag (fHP_STATUS_CAL_LOCK h) && !c))).toNat ∧
      (t.lane h).cal = (if a && pcs then (s.lane h).cal else CalRx.init) ∧ OnlyRegs [rHP_STATUS h] s t ∧
      Logged s t (if s.flag (fHP_STATUS_AM_LOCK h) = a ∧ s.flag (fHP_STATUS_PCS_LOCK h) = (pcs && a) ∧ s.flag (fHP_STATUS_CAL_LOCK h) = c then []
        else [(0x0805, bLane h, h + 256 * b2n a + 512 * b2n (pcs && a) + 1024 * b2n c, 0)])) ∧
  (∀ (h : Fin 64) (remote began : Bool) (s : State), s.headLane h = true → let f := if remote then fHP_STATUS_RF_RX h else fHP_STATUS_LF_RX h
    s.flag f ≠ began → Completes (.faultOrderedSetsFromHost h remote began) s fun t => t.flag f = began ∧
      t.fld (fHP_STATUS_SEEN h) = (if began then (BitVec.ofNat 8 (s.fld (fHP_STATUS_SEEN h)) ||| (if remote then 0x10#8 else 0x08#8)).toNat
        else s.fld (fHP_STATUS_SEEN h)) ∧ OnlyRegs [rHP_STATUS h] s t ∧
      Logged s t [(0x0806, bLane h, h + 256 * b2n (!remote) + 512 * b2n remote + 1024 * b2n began, 0)]) ∧
  (∀ (h : Fin 64) (a b : Bool) (k : Nat) (s : State), s.headLane h = false →
    exec (.portLockChanged h a b k) s = .next (settle s) ∧ exec (.faultOrderedSetsFromHost h a b) s = .next (settle s)) ∧
  (∀ (n : Ch) (s : State), s.hgcNone n = false → let h := s.hgc.get n
    let x := exec (.hgcPacketReceived n) s
    let len := unbe (h.rx.take 2)
    let size := (len + 17) / 16 * 16
    let body := slice h.rx 2 len
    let ws := toWords (body.take (len - 4))
    let full := 8192 < h.mbx.rsp.length + ws.length
    (5 ≤ len → len ≤ 2048 → size ≤ h.rx.length →
      (hgcGood body len = true → ¬ full → ∃ t, x = .next t ∧ t.hgc.get n = { h with mbx := h.mbx.push 4096 ws, rx := h.rx.drop size, hunt := false } ∧
        t.flag (fINT_STATUS_HGC 0) = true ∧ t.flag (fINT_STATUS_HGC 1) = true ∧ OnlyRegs [rINT_STATUS 0, rINT_STATUS 1] s t ∧ t.cnt = s.cnt) ∧
      (hgcGood body len = true → full → ∃ t, x = .next t ∧ Counted (cCH n 33) 1 s t ∧ t.regs = s.regs ∧
        t.hgc.get n = { h with rx := h.rx.drop size, hunt := false }) ∧
      (hgcGood body len = false → ∃ t, x = .next t ∧ Counted (cCH n 32) 1 s t ∧ t.regs = s.regs ∧ t.hgc.get n = { h with rx := h.rx.drop size, hunt := true })) ∧
    (16 ≤ h.rx.length → h.rx.length < 32 →
      (len = 0 → ∃ t, x = .next t ∧ t.hgc.get n = { h with rx := h.rx.drop 16 } ∧ t.regs = s.regs ∧ t.cnt = s.cnt) ∧
      (0 < len → len < 5 ∨ 2048 < len → ∃ t, x = .next t ∧ t.hgc.get n = { h with rx := h.rx.drop 16, hunt := true } ∧ t.regs = s.regs ∧
        Counted (cCH n 32) (b2n (!h.hunt)) s t)) ∧
    (h.rx.length < 16 ∨ (5 ≤ len ∧ len ≤ 2048 ∧ h.rx.length < size) → x = .next (settle s))) ∧
  (∀ (n : Ch) (s : State), s.hgcNone n = true → exec (.hgcPacketReceived n) s = .next (settle s)) ∧
  (Does cmdHostLaneReport .hostLaneReport (fun _ _ => True) fun q t ans u => let l := fld q.params 0 1
    u = t ∧ ∃ b, ans = .done b ∧ b.length = 40 ∧ fld b 0 4 = (t.shown (rHL_STATUS l)).toNat ∧ fld b 36 4 = (t.lane l).ber % 2 ^ 32 ∧
      ∀ i, i < 8 → fld b (4 + 2 * i) 2 = (t.lane l).own.getD i 0 % 65536 ∧ fld b (20 + 2 * i) 2 = (t.lane l).partner.getD i 0 % 65536) ∧
  (Does cmdHostPortReport .hostPortReport (fun _ _ => True) fun q t ans u => let l := fld q.params 0 1
    u = t ∧ ∃ b, ans = .done b ∧ b.length = 96 ∧ fld b 0 4 = (t.hpStatus l).toNat ∧
      (∀ k, k < 4 → fld b (4 + 6 * k) 6 = (smGet (fun _ => 0#49) t.cnt.store (cHP l k)).toNat % 2 ^ 48) ∧
      ∀ k, k < 16 → fld b (32 + 4 * k) 4 = (if (t.portLanes l).contains (l + k) then (t.rd (rHL_STATUS (l + k))).toNat else 0)) ∧
  (Does cmdHostRetrain .hostRetrain (fun q t => t.pdOn (24 + fld q.params 0 1 / 16) = true ∧
      ∀ x ∈ retrainLanes q t, t.laneSt x ≠ 5 ∧ t.laneSt x ≠ 6 ∧ t.liveLane x = false) fun q t ans u => let l := fld q.params 0 1
    (∃ op, ans = .accept op ∧ op.org = q.org ∧ op.opcode = 0x0262 ∧ op.holds = [resHQ (l / 16)] ∧ op.targets = (retrainLanes q t).map tLane) ∧
      ∀ x ∈ retrainLanes q t, x < 64 → u.laneSt x = 1 ∧ u.flag (fHL_STATUS_HOLDING x) = false ∧ (u.lane x).restarts = 0 ∧ (u.lane x).testing = false ∧ (u.lane x).failed = false) ∧
  (Turned cmdHostRetrain .hostRetrain (fun q t => t.pdOn (24 + fld q.params 0 1 / 16) = false ∨ ∃ x ∈ retrainLanes q t, t.laneSt x = 5 ∨ t.laneSt x = 6)
    fun _ _ => { status := stWRONG_STATE }) ∧
  (Turned cmdHostRetrain .hostRetrain (fun q t => t.pdOn (24 + fld q.params 0 1 / 16) = true ∧ (∀ x ∈ retrainLanes q t, t.laneSt x ≠ 5 ∧ t.laneSt x ≠ 6) ∧
      ∃ x ∈ retrainLanes q t, t.liveLane x = true) fun q _ => { status := stCONFLICT, b1 := bLane (fld q.params 0 1) })

/-- Inputs of spec 14. `unconfigured` and `inQl` are the R345 flag and the R342 level; limits are in ppt. The premise that eight inputs are
held is part of the invariant `Inv`. -/
def Obligations.TimingInputs : Prop :=
  (∀ (x : Fin 8) (s : State), (Completes (.inputLoa x) s fun t => t.flag (fTIM_IN_STATUS_LOA x) = true ∧ t.flag (fTIM_IN_STATUS_VALID x) = false ∧
      t.flag (fTIM_IN_STATUS_ELIGIBLE x) = false ∧ t.flag (fTIM_IN_STATUS_WTR_RUN x) = false ∧ OnlyRegs (([rTIM_STATUS, rTIM_FREQ, rTIM_HO_FREQ, rINT_STATUS 0, rINT_STATUS 1] : List Nat) ++ (span 0 8).map rTIM_IN_STATUS) s t) ∧
    (Completes (.loaCleared x) s fun t => t.flag (fTIM_IN_STATUS_LOA x) = false ∧
      t.flag (fTIM_IN_STATUS_VALID x) = (((s.timIn x).validated || s.flag (fTIM_IN_STATUS_VALID x)) && !s.unconfigured x && !s.flag (fTIM_IN_STATUS_HARD x)) ∧
      OnlyRegs (([rTIM_STATUS, rTIM_FREQ, rTIM_HO_FREQ, rINT_STATUS 0, rINT_STATUS 1] : List Nat) ++ (span 0 8).map rTIM_IN_STATUS) s t)) ∧
  (∀ (x : Fin 8) (off1 off64 raw : Int) (s : State), let soft := clampN 1 1000 (s.fld (fTIM_IN_LIM_SOFT x)) * 100000
    let hard := clampN 1 1000 (s.fld (fTIM_IN_LIM_HARD x)) * 100000
    Completes (.inputFrequencyCheck x off1 off64 raw) s fun t =>
      (hard < off1.natAbs ∨ 100000000 < raw.natAbs → t.flag (fTIM_IN_STATUS_HARD x) = true) ∧
      (off1.natAbs ≤ hard → raw.natAbs ≤ 100000000 → t.flag (fTIM_IN_STATUS_HARD x) = (s.flag (fTIM_IN_STATUS_HARD x) && decide (soft < off64.natAbs))) ∧
      (t.flag (fTIM_IN_STATUS_HARD x) = true → t.flag (fTIM_IN_STATUS_VALID x) = false) ∧
      (soft < off64.natAbs → t.flag (fTIM_IN_STATUS_SOFT x) = true) ∧ (off64.natAbs ≤ soft - soft / 10 → t.flag (fTIM_IN_STATUS_SOFT x) = false) ∧
      (soft - soft / 10 < off64.natAbs → off64.natAbs ≤ soft → t.flag (fTIM_IN_STATUS_SOFT x) = s.flag (fTIM_IN_STATUS_SOFT x)) ∧
      t.fld (fTIM_IN_OFFS_OFFS x) = sat32 off64 ∧ OnlyRegs (rTIM_IN_OFFS x :: (([rTIM_STATUS, rTIM_FREQ, rTIM_HO_FREQ, rINT_STATUS 0, rINT_STATUS 1] : List Nat) ++ (span 0 8).map rTIM_IN_STATUS)) s t) ∧
  (∀ (x : Fin 8) (s : State), s.tim.inputs.length = 8 → s.flag (fTIM_IN_STATUS_LOA x) = false → s.flag (fTIM_IN_STATUS_HARD x) = false →
    s.unconfigured x = false → (s.timIn x).validated = false →
    let w := if (s.timIn x).hadFirst then min 720 (s.fld (fTIM_IN_CFG_WTR x)) else 0
    Completes (.inputValidated x) s fun t => (t.timIn x).validated = true ∧ t.flag (fTIM_IN_STATUS_VALID x) = true ∧
      t.flag (fTIM_IN_STATUS_WTR_RUN x) = decide (0 < w) ∧ t.fld (fTIM_IN_STATUS_WTR_LEFT x) = w ∧
      (0 < w → t.flag (fTIM_IN_STATUS_ELIGIBLE x) = false) ∧ (s.flag (fTIM_IN_STATUS_UNCONFIGURED x) = false → (t.timIn x).hadFirst = true) ∧
      OnlyRegs (([rTIM_STATUS, rTIM_FREQ, rTIM_HO_FREQ, rINT_STATUS 0, rINT_STATUS 1] : List Nat) ++ (span 0 8).map rTIM_IN_STATUS) s t) ∧
  (∀ (x : Fin 8) (s : State), s.flag (fTIM_IN_STATUS_LOA x) = true ∨ s.flag (fTIM_IN_STATUS_HARD x) = true ∨ s.unconfigured x = true ∨
    (s.timIn x).validated = true → exec (.inputValidated x) s = .next (settle s)) ∧
  (∀ (x : Fin 8) (s : State), (s.flag (fTIM_IN_STATUS_WTR_RUN x) = true → Completes (.inputWtrExpiry x) s fun t =>
      t.flag (fTIM_IN_STATUS_WTR_RUN x) = false ∧ t.fld (fTIM_IN_STATUS_WTR_LEFT x) = 0 ∧ OnlyRegs (([rTIM_STATUS, rTIM_FREQ, rTIM_HO_FREQ, rINT_STATUS 0, rINT_STATUS 1] : List Nat) ++ (span 0 8).map rTIM_IN_STATUS) s t) ∧
    (s.flag (fTIM_IN_STATUS_WTR_RUN x) = false → exec (.inputWtrExpiry x) s = .next (settle s)))

/-- Selector of spec 14. `wanted` is the choice of R346 and R347 with the inputs as they now are; `timChange` is the evaluation at once;
`hold` is the mean and the length of the lock; that it is the mean of the samples of 1 ms is assumption 139. -/
def Obligations.SelectorEvaluates : Prop :=
  (∀ (freq : Int) (s : State), let st := s.fld fTIM_STATUS_STATE
    let m := if 4 < s.fld fTIM_CTRL_MODE then 0 else s.fld fTIM_CTRL_MODE
    let hold := if st ≠ 4 ∧ s.hold.2 < 1000000000 then 0 else 4
    let now := if st = 3 then none else s.selected
    let cal := clip100 (s.sfld fTIM_OSC_CAL_CAL)
    Completes (.selectorEvaluation freq) s fun t => let n := t.fld fTIM_STATUS_STATE
      (∀ x : Fin 8, t.flag (fTIM_IN_STATUS_UNCONFIGURED x) = s.unconfigured x ∧ t.fld (fTIM_IN_STATUS_QL x) = s.inQl x ∧
        t.flag (fTIM_IN_STATUS_VALID x) = (((s.timIn x).validated || s.flag (fTIM_IN_STATUS_VALID x)) && !s.unconfigured x &&
          !s.flag (fTIM_IN_STATUS_LOA x) && !s.flag (fTIM_IN_STATUS_HARD x)) ∧ t.flag (fTIM_IN_STATUS_ELIGIBLE x) = t.eligible x) ∧
      (st = 3 → t.flag (fTIM_IN_STATUS_VALID (s.fld fTIM_STATUS_SEL)) = true → n = 3 ∧ t.fld fTIM_STATUS_SEL = s.fld fTIM_STATUS_SEL) ∧
      (st ≠ 3 ∨ t.flag (fTIM_IN_STATUS_VALID (s.fld fTIM_STATUS_SEL)) = false →
        (m = 2 → n = hold) ∧ (m = 3 → n = 0) ∧ (m = 4 → n = 5) ∧ (2 ≤ m → st ≠ n → t.selected = none) ∧
        (m < 2 → t.wanted now = none → n = if st = 0 ∧ m = 0 then 0 else hold) ∧
        (∀ x, m < 2 → t.wanted now = some x → t.selected = some x ∧ n = (if st = 2 then (if now = some x then 2 else 3) else 1) ∧
          (n = 1 → ¬ (st = 1 ∧ now = some x) → t.tim.bw = 1024 * max 500 t.bwGoal))) ∧
      t.sfld fTIM_FREQ_OFFS = clip100 (if n = 0 then -cal else if n = 5 then clip100 (s.sfld fTIM_STEER_STEER) - cal
        else if n = 3 ∨ n = 4 then t.sfld fTIM_HO_FREQ_OFFS else freq) ∧
      t.fld fTIM_STATUS_QL_SENT = (if n = 2 ∨ n = 3 then t.fld (fTIM_IN_STATUS_QL (t.fld fTIM_STATUS_SEL)) else s.fld fTIM_CTRL_OWN_QL) ∧
      t.tim.cal = cal ∧ t.tim.steer = clip100 (s.sfld fTIM_STEER_STEER) ∧
      (st ≠ 4 → n = 4 → t.fld fTIM_HO_FREQ_OFFS = unsigned 28 s.hold.1 ∧
        t.flag fTIM_STATUS_HO_SHORT = decide (s.hold.2 < clampN 1 1000 (s.fld fTIM_HO_HO_AVG) * 1000000000)) ∧
      (st = 2 → n = 3 → t.fld fTIM_HO_FREQ_OFFS = unsigned 28 s.hold.1) ∧
      (n = 2 → st = 2 ∧ t.tim.samples = (s.life, clip100 freq) :: s.tim.samples.filter fun e => decide (s.life.toNat - e.1.toNat ≤ 1001000000000)) ∧
      (st = 2 → n ≠ 2 → (t.tim.avg, t.tim.history) = s.hold ∧ t.tim.samples = []) ∧ (st ≠ 2 ∨ n = 2 → t.tim.avg = s.tim.avg ∧ t.tim.history = s.tim.history) ∧
      t.flag fTIM_STATUS_SOFT_SEL = (n == 2 && t.flag (fTIM_IN_STATUS_SOFT (t.fld fTIM_STATUS_SEL))) ∧
      OnlyRegs (([rTIM_STATUS, rTIM_FREQ, rTIM_HO_FREQ, rINT_STATUS 0, rINT_STATUS 1] : List Nat) ++ (span 0 8).map rTIM_IN_STATUS) s t) ∧
  (∀ s : State, s.fld fTIM_STATUS_STATE = 2 → let w := (s.tim.samples.filter fun e => decide (1000000000 ≤ s.life.toNat - e.1.toNat) &&
      decide (s.life.toNat - e.1.toNat ≤ (clampN 1 1000 (s.fld fTIM_HO_HO_AVG) + 1) * 1000000000)).map Prod.snd
    s.hold.2 = s.life.toNat - s.tim.lockAt.toNat ∧ (w = [] → s.hold.1 = s.sfld fTIM_FREQ_OFFS) ∧ (w ≠ [] → s.hold.1 = w.sum / (w.length : Int))) ∧
  (∀ s : State, s.tim.cal = clip100 (s.sfld fTIM_OSC_CAL_CAL) → s.tim.steer = clip100 (s.sfld fTIM_STEER_STEER) → s.fld fTIM_STATUS_STATE ≠ 2 →
    exec (.selectorEvaluation (s.sfld fTIM_FREQ_OFFS)) s = .next (settle (timChange s))) ∧
  (∀ (off : Int) (s : State), s.fld fTIM_STATUS_STATE = 3 → let x := s.fld fTIM_STATUS_SEL
    ∃ u, exec (.switchComplete off) s = .next (settle (timChange u)) ∧ u.fld fTIM_STATUS_STATE = 2 ∧ u.selected = some x ∧ u.tim.buildOut = off ∧
      u.tim.lockAt = s.life ∧ u.tim.history = 0 ∧ u.tim.samples = [] ∧ Logged s u [(0x0901, bTIM, 2 + 8 * 3, x), (0x0903, bTIM, x, sat16 off)] ∧ OnlyRegs [rTIM_STATUS, rINT_STATUS 0, rINT_STATUS 1] s u) ∧
  (∀ s : State, s.fld fTIM_STATUS_STATE = 1 →
    (1024 * s.bwGoal < s.tim.bw → Completes (.acquiringBandwidthStep true) s fun t => t.tim.bw = max (1024 * s.bwGoal) (s.tim.bw / 2) ∧ t.regs = s.regs ∧ t.cb = s.cb) ∧
    (s.tim.bw ≤ 1024 * s.bwGoal → ∃ u, exec (.acquiringBandwidthStep true) s = .next (settle (timChange u)) ∧ u.fld fTIM_STATUS_STATE = 2 ∧
      u.selected = s.selected ∧ u.tim.lockAt = s.life ∧ u.tim.history = 0 ∧ u.tim.samples = [] ∧ OnlyRegs [rTIM_STATUS, rINT_STATUS 0, rINT_STATUS 1] s u)) ∧
  (∀ (off : Int) (good : Bool) (s : State), (s.fld fTIM_STATUS_STATE ≠ 3 → exec (.switchComplete off) s = .next (settle s)) ∧
    (s.fld fTIM_STATUS_STATE ≠ 1 ∨ good = false → exec (.acquiringBandwidthStep good) s = .next (settle s)))

/-- Time of day of spec 14; errors are in 0.125 ns. That a pulse after missing ones counts whole seconds is log entry 104. -/
def Obligations.TimeOfDayAndTimingRequests : Prop :=
  (∀ (sec ns cause : Nat) (s : State), let t := todStep sec ns cause s
    let e := s.fld fTIM_STATUS_EPOCH
    t.tim.sec = sec % 2 ^ 34 ∧ t.tim.ns = ns ∧ t.fld fTIM_STATUS_EPOCH = (e + 1) % 16 ∧ t.flag fTIM_STATUS_TOD_VALID = true ∧ t.life = s.life ∧
      OnlyRegs [rTIM_STATUS] s t ∧
      Logged s t [(0x090A, bTIM, sat32 (((sec : Int) * 1000000000 + ns - s.todNs).tdiv 1000000), e + 256 * cause)]) ∧
  (∀ (b : Bool) (gap err : Int) (s : State), s.ppsSrc = (if b then 2 else 1) → (s.tim.ppsSeen = false ∨ ∃ k : Int, 1 ≤ k ∧ (gap - k * 1000000000).natAbs ≤ 10000) →
    (err.natAbs ≤ 800 → Completes (.ppsPulse b gap err) s fun t => let k := s.flag fTIM_STATUS_PPS_LOCK || decide (2 ≤ s.tim.ppsGood)
      t.flag fTIM_STATUS_PPS_LOS = false ∧ t.flag fTIM_STATUS_PPS_LOCK = k ∧ t.tim.slew = err ∧ t.todNs = s.todNs ∧ t.tim.ppsGood = s.tim.ppsGood + 1 ∧
        t.tim.ppsBad = 0 ∧ t.tim.ppsMiss = 0 ∧ t.tim.ppsSeen = true ∧ OnlyRegs [rTIM_STATUS] s t ∧
        Logged s t (if s.flag fTIM_STATUS_PPS_LOS = false ∧ s.flag fTIM_STATUS_PPS_LOCK = k then [] else [(0x090B, bTIM, 2 * b2n k, 0)])) ∧
    (800 < err.natAbs → Completes (.ppsPulse b gap err) s fun t => t.flag fTIM_STATUS_PPS_LOS = false ∧ t.flag fTIM_STATUS_PPS_LOCK = false ∧
      t.tim.ppsGood = 0 ∧ t.tim.ppsMiss = 0 ∧ t.tim.ppsSeen = true ∧ OnlyRegs [rTIM_STATUS] s t ∧
      (s.tim.ppsBad ≠ 2 → t.tim.ppsBad = s.tim.ppsBad + 1 ∧ t.todNs = s.todNs) ∧
      (s.tim.ppsBad = 2 → t.tim.ppsBad = 0 ∧ t.tim.slew = 0 ∧ t.tim.sec = (if err < 0 then s.tim.sec + 1 else s.tim.sec) % 2 ^ 34 ∧
        t.tim.ns = 0 ∧ t.fld fTIM_STATUS_EPOCH = (s.fld fTIM_STATUS_EPOCH + 1) % 16 ∧ Logged s t
          ((if s.flag fTIM_STATUS_PPS_LOS = false ∧ s.flag fTIM_STATUS_PPS_LOCK = false then [] else [(0x090B, bTIM, 0, 0)]) ++
            [(0x090A, bTIM, sat32 ((if err < 0 then 1 + (((-err / 8).toNat % 1000000000 : Nat) : Int) else -(((err / 8).toNat % 1000000000 : Nat) : Int)).tdiv 1000000),
              s.fld fTIM_STATUS_EPOCH + 256)]) ∧ t.flag fTIM_STATUS_TOD_VALID = true))) ∧
  (∀ (b : Bool) (gap err : Int) (s : State), s.ppsSrc ≠ 0 → s.ppsSrc = (if b then 2 else 1) → s.tim.ppsSeen = true → (∀ k : Int, 1 ≤ k → 10000 < (gap - k * 1000000000).natAbs) →
    let m := ((gap - 10001) / 1000000000).toNat
    Completes (.ppsPulse b gap err) s fun t => t.tim.ppsMiss = max s.tim.ppsMiss m ∧ t.flag fTIM_STATUS_PPS_LOCK = s.flag fTIM_STATUS_PPS_LOCK ∧
      t.flag fTIM_STATUS_PPS_LOS = (s.flag fTIM_STATUS_PPS_LOS || (decide (s.tim.ppsMiss < 3) && decide (3 ≤ m))) ∧ t.todNs = s.todNs ∧
      t.tim.slew = s.tim.slew ∧ OnlyRegs [rTIM_STATUS] s t) ∧
  (∀ s : State, s.ppsSrc ≠ 0 → Completes .ppsMissing s fun t => t.tim.ppsMiss = s.tim.ppsMiss + 1 ∧ t.flag fTIM_STATUS_PPS_LOCK = s.flag fTIM_STATUS_PPS_LOCK ∧
    t.flag fTIM_STATUS_PPS_LOS = (s.flag fTIM_STATUS_PPS_LOS || s.tim.ppsMiss == 2) ∧ t.todNs = s.todNs ∧ OnlyRegs [rTIM_STATUS] s t) ∧
  (∀ (b : Bool) (gap err : Int) (s : State), (s.ppsSrc ≠ (if b then 2 else 1) → exec (.ppsPulse b gap err) s = .next (settle s)) ∧
    (s.ppsSrc = 0 → exec .ppsMissing s = .next (settle s))) ∧
  (∀ s : State, let after := fun (t : State) => (t.tim.slew = s.tim.slew - clampI (-80) 80 s.tim.slew ∧
      t.tim.ppsOfs = clampI (-500000000) 500000000 (s.sfld fTIM_PPS_OFS_OFS_NS) * 8 + (s.fld fTIM_PPS_FRAC_FRAC : Int) ∧
      t.out.pps = (if s.flag fTIM_PPS_PPS_OUT_EN then some (t.tim.ppsOfs, clampN 1 1000 (s.fld fTIM_PPS_WIDTH)) else none) ∧
      t.out.fp = s.out.fp + b2n (s.flag fTIM_PPS_PPS_OUT_EN && s.fpSrc == 6) ∧ t.tim.ns = 0 ∧ t.tim.pendingStep = none ∧
      ∀ x : Fin 8, t.fld (fTIM_IN_STATUS_WTR_LEFT x) = s.fld (fTIM_IN_STATUS_WTR_LEFT x) - 1);
    (s.tim.pendingStep = none → Completes .internalSecond s fun t => after t ∧ t.tim.sec = (s.tim.sec + 1) % 2 ^ 34 ∧ t.cb = s.cb ∧
      OnlyRegs ((span 0 8).map rTIM_IN_STATUS) s t) ∧
    (∀ v o, s.tim.pendingStep = some (v, o) → ∃ u, after u ∧ u.tim.sec = v % 2 ^ 34 ∧ u.fld fTIM_STATUS_EPOCH = (s.fld fTIM_STATUS_EPOCH + 1) % 16 ∧
      u.flag fTIM_STATUS_TOD_VALID = true ∧ OnlyRegs (rTIM_STATUS :: (span 0 8).map rTIM_IN_STATUS) s u ∧
      (∀ op, (s.ops.find? fun x => x.opcode == 0x0504 && decide (x.org = o)) = some op → exec .internalSecond s = .next (settle (endOp op { status := stOK } [] u))) ∧
      ((s.ops.find? fun x => x.opcode == 0x0504 && decide (x.org = o)) = none → exec .internalSecond s = .next (settle u)))) ∧
  (Does cmdTodStep .todStep (fun q _ => fld q.params 0 1 = 0) fun q t ans u => u.tim.pendingStep = some (fld q.params 4 8, q.org) ∧ u.todNs = t.todNs ∧
    u.regs = t.regs ∧ u.cb = t.cb ∧ ∃ op, ans = .defer op ∧ op.org = q.org ∧ op.opcode = 0x0504 ∧ op.holds = [resTIM]) ∧
  (Does cmdTodStep .todStep (fun q t => fld q.params 0 1 = 1 ∧ t.flag fTIM_STATUS_TOD_VALID = true) fun q t ans u => ans = .done [] ∧
    u.todNs = t.todNs + signed 64 (fld q.params 4 8) ∧ u.fld fTIM_STATUS_EPOCH = (t.fld fTIM_STATUS_EPOCH + 1) % 16 ∧ OnlyRegs [rTIM_STATUS] t u) ∧
  (Does cmdTodStep .todStep (fun q _ => fld q.params 0 1 = 2) fun q t ans u => ans = .done [] ∧ u.tim.sec = fld q.params 4 8 ∧ u.tim.ns = fld q.params 12 4 ∧
    u.flag fTIM_STATUS_TOD_VALID = true ∧ u.fld fTIM_STATUS_EPOCH = (t.fld fTIM_STATUS_EPOCH + 1) % 16 ∧ OnlyRegs [rTIM_STATUS] t u) ∧
  (Turned cmdTodStep .todStep (fun q t => fld q.params 0 1 = 1 ∧ t.flag fTIM_STATUS_TOD_VALID = false) fun _ _ => { status := stWRONG_STATE }) ∧
  (Does cmdTimSet .timSet (fun _ _ => True) fun q t ans u => ans = .done [] ∧
    (∀ k, k < fld q.params 0 1 → (∀ j, k < j → j < fld q.params 0 1 → (timEntry q.params j).1 ≠ (timEntry q.params k).1) →
      u.rd (timEntry q.params k).1 = BitVec.ofNat 32 (timEntry q.params k).2) ∧
    OnlyRegs ((([rTIM_STATUS, rTIM_FREQ, rTIM_HO_FREQ, rINT_STATUS 0, rINT_STATUS 1] : List Nat) ++ (span 0 8).map rTIM_IN_STATUS) ++ (span 0 (fld q.params 0 1)).map fun k => (timEntry q.params k).1) t u) ∧
  (Does cmdTimReport .timReport (fun _ _ => True) fun _ t ans u => u = t ∧ ∃ b, ans = .done b ∧ b.length = 76 ∧ fld b 0 4 = (t.rd rTIM_STATUS).toNat ∧
    fld b 4 4 = (t.rd rTIM_FREQ).toNat ∧ fld b 8 4 = (t.rd rTIM_HO_FREQ).toNat ∧
    ∀ x, x < 8 → fld b (12 + 8 * x) 4 = (t.rd (rTIM_IN_STATUS x)).toNat ∧ fld b (16 + 8 * x) 4 = (t.rd (rTIM_IN_OFFS x)).toNat) ∧
  (Does cmdTodGet .todGet (fun _ _ => True) fun _ t ans u => u = t ∧ ∃ b, ans = .done b ∧ b.length = 24 ∧ fld b 0 8 = t.tim.sec % 2 ^ 64 ∧
    fld b 8 4 = t.tim.ns % 2 ^ 32 ∧ fld b 12 1 = b2n (t.flag fTIM_STATUS_TOD_VALID) + 16 * t.fld fTIM_STATUS_EPOCH ∧ fld b 16 8 = t.life.toNat) ∧
  (∀ (who : Fin 3) (s : State), Completes (.todLoRead who) s fun t => t.regs = s.regs ∧
    (s.ready = true → t.out.data = BitVec.ofNat 32 s.tim.sec ∧ t.rlOf who rTIM_TOD_HI = BitVec.ofNat 32 (s.tim.sec / 2 ^ 32 % 4) ∧
      t.rlOf who rTIM_TOD_NS = BitVec.ofNat 32 s.tim.ns) ∧
    (s.ready = false → t.out.data = 0#32 ∧ t.rl = s.rl))

/-- Spec 15. The errors of the devices are operands; codes of one corrected symbol are R365. -/
def Obligations.ScrubAndInjection : Prop :=
  (∀ (e1 e2 : BitVec 256) (w : Bool) (s : State), s.flag fMEM_SCRUB_PATROL_EN = true → s.flag fMEM_STATUS_HBM_READY = true → let k := s.mem.patrol
    let skip := s.retiredPage (k / 512) = true ∨ (s.flag fMRG_GLOBAL_FAR_USED = true ∧ regionOf (k / 512) = 0)
    let n := if k + 1 < 1000000000 then k + 1 else 0
    let hit := s.flag fMEM_FLIP_ARM = true ∧ (s.fld fMEM_FLIP_REGION = regionOf (k / 512) ∨ 5 ≤ s.fld fMEM_FLIP_REGION) ∧
      s.flag fMEM_FLIP_GROUP = Config.pageGroup (k / 512)
    Completes (.patrolScrub e1 e2 w) s fun t => OnlyRegs [rMEM_FLIP] s t ∧ (¬ hit → t.regs = s.regs) ∧
      t.mem.patrol = (if s.flag fMRG_GLOBAL_FAR_USED = true ∧ regionOf (n / 512) = 0 then 77824 * 512 else n) ∧
      (skip → t.cnt = s.cnt ∧ t.mem.hbm = s.mem.hbm ∧ t.mem.log = s.mem.log ∧ t.cb = s.cb ∧ t.regs = s.regs) ∧
      (¬ skip → Counted (cMEM 18) 1 s t ∧
        (decodeCw s.erased (s.cw k ^^^ e1) = .clean → t.mem.hbm = s.mem.hbm ∧ t.mem.log = s.mem.log ∧ t.cb = s.cb ∧ t.regs = s.regs) ∧
        (decodeCw s.erased (s.cw k ^^^ e1) = .uncorrectable → t.mem.hbm = s.mem.hbm ∧ t.cb = s.cb ∧ t.regs = s.regs ∧
          Counted (cMEM (if regionOf (k / 512) = 0 then 16 else 17)) 1 s t) ∧
        ∀ j d, decodeCw s.erased (s.cw k ^^^ e1) = .corrected j d → j < 16 →
          (w = true → t.mem.hbm = s.mem.hbm ∧ t.cb = s.cb ∧ t.regs = s.regs ∧ Counted (cMEM j) 1 s t) ∧
          ∀ back, (hit → back = d ^^^ symAt (s.fld fMEM_FLIP_POS) (BitVec.ofNat 16 (s.fld fMEM_FLIP_MASK))) → (¬ hit → back = d) → w = false →
            (hit → t.flag fMEM_FLIP_ARM = false) ∧
            (decodeCw s.erased (back ^^^ e2) = .clean → t.cw k = back ∧ t.cb = s.cb ∧ Counted (cMEM j) 1 s t) ∧
            (∀ i c, decodeCw s.erased (back ^^^ e2) = .corrected i c → t.cw k = back ∧ Logged s t [(0x0A03, bDie i, k / 512, i)] ∧
              ∃ e ∈ t.mem.log, e.page = k / 512 ∧ e.cw = k % 512 ∧ e.die = i ∧ e.lasting = true) ∧
            (decodeCw s.erased (back ^^^ e2) = .uncorrectable → t.cw k = back ^^^ e2 ∧ t.cb = s.cb))) ∧
  (∀ (e1 e2 : BitVec 256) (w : Bool) (s : State), s.flag fMEM_SCRUB_PATROL_EN = false ∨ s.flag fMEM_STATUS_HBM_READY = false →
    exec (.patrolScrub e1 e2 w) s = .next (settle s)) ∧
  (∀ (st : Fin 11) (k bad : Nat) (w l : Bool) (s : State), s.flag fMEM_SCRUB_SRAM_EN = true → let n := s.flipsIn st k + bad
    (n = 0 → exec (.sramScrub st k bad w l) s = .next (settle s)) ∧
    let armed := s.flag fMEM_SFLIP_ARM = true ∧ s.fld fMEM_SFLIP_STORE = st
    (n = 1 → Completes (.sramScrub st k bad true l) s fun t => t.flipsIn st k = 0 ∧ Counted (cSRAM st 0) 1 s t ∧ t.regs = s.regs ∧ t.cb = s.cb) ∧
    (n = 1 → armed → s.flag fMEM_SFLIP_BIT1_EN = true → s.fld fMEM_SFLIP_BIT1 ≠ s.fld fMEM_SFLIP_BIT0 → 5 ≤ st.val →
      Completes (.sramScrub st k bad false l) s fun t => t.flipsIn st k = 2 ∧ t.flag fMEM_SFLIP_ARM = false ∧ Counted (cSRAM st 0) 1 s t ∧
        Counted (cSRAM st 1) 1 s t ∧ OnlyRegs [rMEM_SFLIP] s t ∧ Logged s t [(0x0A10, bStore st, st + 256 * (k % 2 ^ 24), 0)]) ∧
    (n = 1 → ¬ armed → Completes (.sramScrub st k bad false l) s fun t => t.flipsIn st k = 0 ∧ Counted (cSRAM st 0) 1 s t ∧ OnlyRegs [] s t ∧
      Logged s t (if l then [(0x0A11, bStore st, st + 256 * (k % 2 ^ 24), 0)] else [])) ∧
    (n = 1 → armed → s.flag fMEM_SFLIP_BIT1_EN = false → Completes (.sramScrub st k bad false l) s fun t => t.flipsIn st k = 1 ∧ t.flag fMEM_SFLIP_ARM = false ∧
      Counted (cSRAM st 0) 1 s t ∧ OnlyRegs [rMEM_SFLIP] s t ∧ Logged s t [(0x0A11, bStore st, st + 256 * (k % 2 ^ 24), 0)]) ∧
    (2 ≤ n → 5 ≤ st.val → Completes (.sramScrub st k bad w l) s fun t => t.flipsIn st k = 2 ∧ Counted (cSRAM st 1) 1 s t ∧ OnlyRegs [] s t ∧
      Logged s t [(0x0A10, bStore st, st + 256 * (k % 2 ^ 24), 0)]) ∧
    (2 ≤ n → 1 ≤ st.val → st.val ≤ 4 → k < 512 → Completes (.sramScrub st k bad w l) s fun t => t.flipsIn st k = 0 ∧
      t.fld (fLEAF_W4_FREQ_HIST (st - 1) k) = 0 ∧ t.fld (fLEAF_W2_CD_LEARNT (st - 1) k) = s.fld (fLEAF_W2_CD_PRESET (st - 1) k) ∧
      OnlyRegs [rLEAF_W4 (st - 1) k, rLEAF_W2 (st - 1) k] s t ∧ Logged s t [(0x0A10, bStore st, st + 256 * (k % 2 ^ 24), 0)]) ∧
    (2 ≤ n → st.val = 0 → k < 16384 → Completes (.sramScrub st k bad w l) s fun t => t.flipsIn st k = 0 ∧ t.keyOf k = none ∧ t.fld (fCPH_CTX_A_STATE k) = 0 ∧
      ((∀ a ∈ s.cph.acts, a.ctx ≠ k) → Logged s t ((0x0A10, bCPH, 256 * (k % 2 ^ 24), 0) ::
        (if s.fld (fCPH_CTX_A_STATE k) = cxCURRENT then [(0x0714, bCPH, s.fld (fCPH_CTX_A_SESSION k), s.fld (fCPH_CTX_A_DIR k))] else []))))) ∧
  (∀ (st : Fin 11) (k bad : Nat) (w l : Bool) (s : State), s.flag fMEM_SCRUB_SRAM_EN = false → exec (.sramScrub st k bad w l) s = .next (settle s)) ∧
  (∀ s : State, Completes .memoryErrorRecords s fun t => t.mem.second = [] ∧ t.mem.log = s.mem.log ∧ OnlyRegs [] s t ∧
    Logged s t (s.mem.second.map fun x => (if x.2.2.1 then 0x0A02 else 0x0A01, bDie x.1, x.1 + 16 * x.2.1 + 256 * min (2 ^ 24 - 1) x.2.2.2.1, x.2.2.2.2 % 65536))) ∧
  (∀ (w : Word) (s : State), (s.ready = true → (Completes (.memFlipArm w) s fun t => OnlyRegs [rMEM_FLIP] s t ∧ t.flag fMEM_FLIP_ARM = true ∧
        t.fld fMEM_FLIP_MASK = fMEM_FLIP_MASK.of w ∧ t.fld fMEM_FLIP_POS = fMEM_FLIP_POS.of w ∧ t.fld fMEM_FLIP_GROUP = fMEM_FLIP_GROUP.of w ∧
        t.fld fMEM_FLIP_REGION = fMEM_FLIP_REGION.of w) ∧
      (Completes (.memSflipArm w) s fun t => OnlyRegs [rMEM_SFLIP] s t ∧ t.flag fMEM_SFLIP_ARM = true ∧ t.fld fMEM_SFLIP_BIT0 = fMEM_SFLIP_BIT0.of w ∧
        t.fld fMEM_SFLIP_BIT1 = fMEM_SFLIP_BIT1.of w ∧ t.fld fMEM_SFLIP_BIT1_EN = fMEM_SFLIP_BIT1_EN.of w ∧ t.fld fMEM_SFLIP_STORE = fMEM_SFLIP_STORE.of w)) ∧
    (s.ready = false → exec (.memFlipArm w) s = .next (settle s) ∧ exec (.memSflipArm w) s = .next (settle s))) ∧
  (∀ (k : Nat) (data : List Byte) (s : State), s.retiredPage (k / 512) = false → s.flag fMEM_STATUS_HBM_READY = true → let t := writeCw k data s
    let hit := s.flag fMEM_FLIP_ARM = true ∧ (s.fld fMEM_FLIP_REGION = regionOf (k / 512) ∨ 5 ≤ s.fld fMEM_FLIP_REGION) ∧
      s.flag fMEM_FLIP_GROUP = Config.pageGroup (k / 512)
    (hit → t.cw k = encodeCw data ^^^ symAt (s.fld fMEM_FLIP_POS) (BitVec.ofNat 16 (s.fld fMEM_FLIP_MASK)) ∧ t.flag fMEM_FLIP_ARM = false) ∧
    (¬ hit → t.cw k = encodeCw data ∧ t.regs = s.regs) ∧ ∀ i, i ≠ k → t.cw i = s.cw i)

/-- Commands of spec 15. Which bank a page lies in and how many rows are spare is opaque (assumption 7); which page is free for a copy is
`freePage`, the lowest (assumption 136). -/
def Obligations.MemoryRequests : Prop :=
  (∀ i, Does cmdMemRetire .memRetire (fun q t => t.flag fMEM_STATUS_HBM_READY = true ∧ fld q.params 0 1 < 3 ∧ retireClash t (retireOf q.params) = false ∧
      freeEntry t = some i) fun q t ans u => let r := retireOf q.params
    (∃ b, ans = .done b ∧ b.length = 10 ∧ fld b 0 2 = i ∧ fld b 2 4 = pagesOf t r % 2 ^ 32 ∧ fld b 6 4 = (u.rd rMEM_FAR_SLOTS).toNat) ∧
      smGet (fun _ => none) u.perm.retire i = some r ∧ (∀ j, j ≠ i → smGet (fun _ => none) u.perm.retire j = smGet (fun _ => none) t.perm.retire j) ∧
      u.fld fMEM_STATUS_RETIRED = u.retirements.length % 512 ∧ (∀ k, r.covers (k / 512) = true → u.cw k = 0#256) ∧
      (∀ k, r.covers (k / 512) = false → regionOf (k / 512) ≠ 3 → u.cw k = t.cw k) ∧ OnlyRegs [rMEM_STATUS, rMEM_FAR_SLOTS, rMEM_FLIP] t u ∧
      ((∀ e ∈ t.mem.hbm, regionOf (e.1 / 512) = 3 → r.covers (e.1 / 512) = false) →
        (∀ k, r.covers (k / 512) = false → u.cw k = t.cw k) ∧ OnlyRegs [rMEM_STATUS, rMEM_FAR_SLOTS] t u) ∧
      (∀ p f, r = .page p → regionOf p = 3 → t.freePage r = some f → t.flag fMEM_FLIP_ARM = false →
        ∀ j, j < 512 → decodeCw t.erased (t.cw (512 * p + j)) = .clean → u.cw (512 * f + j) = encodeCw (dataOf (t.cw (512 * p + j)))) ∧
      Logged t u [(0x0A04, bRetire r, i, fld q.params 0 1)]) ∧
  (∀ r, Does cmdMemRetire .memRetire (fun q t => t.flag fMEM_STATUS_HBM_READY = true ∧ fld q.params 0 1 = 3 ∧
      smGet (fun _ => none) t.perm.retire (fld q.params 2 2) = some r) fun q t ans u => let i := fld q.params 2 2
    (∃ b, ans = .done b ∧ b.length = 10 ∧ fld b 0 2 = i) ∧ smGet (fun _ => none) u.perm.retire i = none ∧ u.mem.hbm = t.mem.hbm ∧
      u.fld fMEM_STATUS_RETIRED = u.retirements.length % 512 ∧ OnlyRegs [rMEM_STATUS, rMEM_FAR_SLOTS] t u ∧ Logged t u [(0x0A04, bRetire r, i, 3)]) ∧
  (Turned cmdMemRetire .memRetire (fun _ t => t.flag fMEM_STATUS_HBM_READY = false) fun _ _ => { status := stWRONG_STATE }) ∧
  (Turned cmdMemRetire .memRetire (fun q t => t.flag fMEM_STATUS_HBM_READY = true ∧ fld q.params 0 1 < 3 ∧ retireClash t (retireOf q.params) = true)
    fun q _ => { status := stCONFLICT, b1 := bRetire (retireOf q.params) }) ∧
  (Turned cmdMemRetire .memRetire (fun q t => t.flag fMEM_STATUS_HBM_READY = true ∧ fld q.params 0 1 < 3 ∧ retireClash t (retireOf q.params) = false ∧
      freeEntry t = none) fun q _ => { status := stREFUSED_BUDGET, b1 := bRetire (retireOf q.params) }) ∧
  (∀ (s : State) (i : Nat), s.retirements = [(i, .page 5)] → ∀ k, k < 65536 → (s.slotUsable k = true ↔ k ≠ 4 ∧ k ≠ 5)) ∧
  (Does cmdMemLogRead .memLogRead (fun _ t => t.flag fMEM_STATUS_HBM_READY = true) fun q t ans u => u = t ∧ ∃ b, ans = .done b ∧
    b.length = 16 * fld q.params 2 2 ∧ ∀ k, k < fld q.params 2 2 → slice b (16 * k) 16 =
      (match t.mem.log[fld q.params 0 2 + k]? with | some e => e.bytes | none => List.replicate 16 0#8)) ∧
  (Turned cmdMemLogRead .memLogRead (fun _ t => t.flag fMEM_STATUS_HBM_READY = false) fun _ _ => { status := stWRONG_STATE }) ∧
  (Does cmdMemPpr .memPpr (fun q t => t.flag fMEM_STATUS_HBM_READY = true ∧ t.farInUse = false ∧
      rowsLeft t (fld q.params 4 4) (fld q.params 1 1) (fld q.params 0 1 == 1) ≠ 0) fun q t ans u =>
    u.mem.ppr = some (fld q.params 4 4, fld q.params 1 1, fld q.params 0 1 == 1) ∧ u.mem.hbm = t.mem.hbm ∧ u.regs = t.regs ∧ u.cb = t.cb ∧
      ∃ op, ans = .accept op ∧ op.org = q.org ∧ op.opcode = 0x0A02 ∧ op.holds = [resMEM]) ∧
  (Turned cmdMemPpr .memPpr (fun _ t => t.flag fMEM_STATUS_HBM_READY = false) fun _ _ => { status := stWRONG_STATE }) ∧
  (Turned cmdMemPpr .memPpr (fun _ t => t.flag fMEM_STATUS_HBM_READY = true ∧ t.farInUse = true) fun _ _ => { status := stCONFLICT, b1 := bMRG }) ∧
  (Turned cmdMemPpr .memPpr (fun q t => t.flag fMEM_STATUS_HBM_READY = true ∧ t.farInUse = false ∧
      rowsLeft t (fld q.params 4 4) (fld q.params 1 1) (fld q.params 0 1 == 1) = 0) fun q _ => { status := stREFUSED_BUDGET, b1 := bDie (fld q.params 1 1) }) ∧
  (∀ (failed : Bool) (page die : Nat) (hard : Bool) (s : State), s.mem.ppr = some (page, die, hard) → ∃ u,
    exec (.pprComplete failed) s = .next (settle (targetDone 0x0A02 tPpr none (le 1 (b2n failed) ++ le 1 (sat 255 (rowsLeft u page die true))) u)) ∧
      u.mem.ppr = none ∧ u.mem.hbm = s.mem.hbm ∧ OnlyRegs [] s u ∧ Logged s u [(0x0A05, bDie die, page, b2n hard + 2 * b2n failed)] ∧
      u.mem.repairs = s.mem.repairs ++ (if failed then [] else [(Config.pageGroup page, Config.pageBank page, die, hard)])) ∧
  (∀ (failed : Bool) (s : State), s.mem.ppr = none → exec (.pprComplete failed) s = .next (settle s)) ∧
  (Does cmdMemReport .memReport (fun _ _ => True) fun _ t ans u => u = t ∧ ∃ b, ans = .done b ∧ b.length = 136 ∧ fld b 0 4 = (t.rd rMEM_STATUS).toNat ∧
    fld b 4 4 = (t.rd rMEM_FAR_SLOTS).toNat ∧ (∀ r, r < 5 → fld b (8 + 4 * r) 4 = t.pagesIn r % 2 ^ 32) ∧
    (t.flag fMEM_STATUS_HBM_READY = false → ∀ r, t.pagesIn r = 0) ∧
    ∀ k, k < 18 → fld b (28 + 6 * k) 6 = (smGet (fun _ => 0#49) t.cnt.store (cMEM k)).toNat % 2 ^ 48)

/-- Link layer of spec 16. The premise that the register map is canonical is part of the invariant `Inv`. -/
def Obligations.FabricLinks : Prop :=
  (∀ (n : Ch) (st : Nat) (s : State), st < 8 → s.regsWf → let t := linkDown n st s
    t.linkSt n = st ∧ (t.link n).txq = [] ∧ (t.link n).staged = [] ∧ (t.link n).rx = none ∧ (t.link n).skip = false ∧ (t.link n).lastCtl = none ∧
      (t.link n).epoch = (if st = 1 then ((s.link n).epoch + 1) % 16 else (s.link n).epoch) ∧
      (t.link n).sent = 0 ∧ (t.link n).far = 0 ∧ (t.link n).rel = 0 ∧ (∀ m : Ch, m ≠ n → t.link m = s.link m) ∧
      Counted (cCH n 44) ((s.link n).txq.length + b2n (s.link n).rx.isSome) s t ∧
      (∀ x, x < 4096 → t.flag (fFAB_ROUTE_VALID x) = (s.flag (fFAB_ROUTE_VALID x) && s.fld (fFAB_ROUTE_LINK x) != n.val)) ∧
      (∀ off, isRouteReg off = false → off ≠ rFAB_STATUS → off ≠ rFAB_LINK_STATUS n → off ≠ rCB_STATUS → t.rd off = s.rd off) ∧
      Logged s t (if s.linkSt n = st then [] else [(0x0B01, bSYS, n + 16 * st, s.fld (fFAB_LINK_STATUS_NEIGHBOUR n))])) ∧
  (∀ (n : Ch) (u : List Byte) (s : State), let kind := fld u 0 1 / 64
    let l := s.link n
    let t := rxUnit n u s
    let kept := t.regs = s.regs ∧ t.arrived = s.arrived ∧ t.fab.inbox = s.fab.inbox
    let gone := kept ∧ Counted (cCH n 42) (b2n l.rx.isSome) s t
    (kind = 0 → gone ∧ t.link n = { l with rx := none, skip := l.rx.isSome }) ∧
    (kind = 1 → gone ∧ t.link n = { l with rx := some (u.drop 1), skip := false }) ∧
    (∀ p, kind = 2 → l.rx = some p → (p.length + (u.drop 1).length ≤ 4096 → kept ∧ t.link n = { l with rx := some (p ++ u.drop 1) } ∧ t.cnt = s.cnt) ∧
      (4096 < p.length + (u.drop 1).length → gone ∧ t.link n = { l with rx := none, skip := true })) ∧
    (∀ p, kind = 3 → l.rx = some p → let bs := p ++ (u.drop 1).take (fld u 0 1 / 8 % 8 + 1)
      let full := 32768 < s.linkHeld n + bs.length
      (full → kept ∧ Counted (cCH n 41) 1 s t ∧ Counted (cCH n 44) 1 s t ∧ t.link n = { l with rx := none }) ∧
      (¬ full → goodPacket bs = true → ∃ v, t = routePacket n (bs.take (pktLen bs)) v ∧ Counted (cCH n 41) 1 s v ∧ v.link n = { l with rx := none } ∧
        v.arrived = s.arrived ∧ v.fab.inbox = s.fab.inbox ∧ v.regs = s.regs) ∧
      (¬ full → goodPacket bs = false → Counted (cCH n 41) 1 s t ∧ t.link n = { l with rx := none } ∧ t.regs = s.regs ∧
        ∃ a, t.arrived = insertArrival a s.arrived ∧ a.bytes = bs ∧ a.via = n.val ∧ a.who.master = 4 ∧ a.isRequest = false)) ∧
    (2 ≤ kind → l.rx = none → kept ∧ Counted (cCH n 42) (b2n (!l.skip)) s t ∧ t.link n = { l with skip := decide (kind = 2) })) ∧
  (∀ (n : Ch) (msg : List Byte) (s : State), s.linkSt n = 5 → let id := fld msg 0 1 % 4 * 256 + fld msg 1 1
    let mine := msg.length = 8 ∧ crc8 (msg.take 7) = msg.getD 7 0#8 ∧ fld msg 0 1 / 16 = 8 ∧
      (id = 0x3FF ∨ ((s.leaf.get n).joined = true ∧ s.fld (fLEAF_STATUS_LEAF_ID n) = id))
    (mine → exec (.fabricDataUnitReceived n msg) s = .next (settle (rxUnit n (slice msg 2 5) s))) ∧
    (¬ mine → exec (.fabricDataUnitReceived n msg) s = .next (settle s))) ∧
  (∀ (n : Ch) (msg : List Byte) (m : Nat) (good : Bool) (u : List Byte) (rest : List (Nat × Bool × List Byte)) (s : State), s.linkSt n ≠ 5 →
    (s.link n).units = (m, good, u) :: rest → let up := s.linkSt n = 2 ∨ s.linkSt n = 3
    let t := unitTaken n s
    t.link n = { s.link n with units := rest } ∧ t.regs = s.regs ∧
    (m % 16 ≠ 0 → up → good = true → exec (.fabricDataUnitReceived n msg) s = .next (settle (rxUnit n u t))) ∧
    (m % 16 ≠ 0 → up → good = false → exec (.fabricDataUnitReceived n msg) s = .next (settle (rxBad n t))) ∧
    (m % 16 ≠ 0 → ¬ up → exec (.fabricDataUnitReceived n msg) s = .next (settle t)) ∧
    (m % 16 = 0 → exec (.fabricControlUnitReceived n) s = .next (settle (if good then controlUnit n u t else t)) ∧
      exec (.fabricDataUnitReceived n msg) s = .next (settle s)) ∧
    (m % 16 ≠ 0 → exec (.fabricControlUnitReceived n) s = .next (settle s))) ∧
  (∀ (n : Ch) (msg : List Byte) (s : State), (s.link n).units = [] → exec (.fabricControlUnitReceived n) s = .next (settle s) ∧
    (s.linkSt n ≠ 5 → exec (.fabricDataUnitReceived n msg) s = .next (settle s))) ∧
  (∀ (n : Ch) (s : State), let t := rxBad n s
    Counted (cCH n 42) (b2n (s.link n).rx.isSome) s t ∧ (t.link n).rx = none ∧ t.regs = s.regs) ∧
  (∀ (n : Ch) (bs : List Byte) (s : State), let d := pktDest bs
    ((d = 0xFFFF ∨ (s.node ≠ 0 ∧ d = s.node)) → pktKind bs = 1 → ∃ a, (routePacket n bs s).arrived = insertArrival a s.arrived ∧ a.bytes = bs ∧ a.via = n.val ∧
      a.who = requester 4 n bs ∧ (routePacket n bs s).regs = s.regs) ∧
    ((d = 0xFFFF ∨ (s.node ≠ 0 ∧ d = s.node)) → pktKind bs ≠ 1 → forEngine bs = true →
      routePacket n bs s = { s with fab := { s.fab with inbox := insertInbox (s.life, n, bs) s.fab.inbox } }) ∧
    (∀ m : Ch, 1 ≤ d → d ≤ 4096 → d ≠ s.node → s.linkSt n ≠ 3 → s.route d = some m.val → 1 < pktHop bs →
      routePacket n bs s = count (cCH m 43) (linkSend m (resealed bs (pktHop bs - 1) (pktSrc bs) (pktTag bs) 4) (linkRelease n bs.length s)))) ∧
  (∀ (n : Ch) (u : List Byte) (s : State), u.length = 8 → crc8 (u.take 7) = u.getD 7 0#8 → fld u 0 1 / 32 = 1 →
    let e := fld u 0 1 / 2 % 16
    let d := fld u 5 1
    let shows := fun (t : State) => t.fld (fFAB_LINK_STATUS_FAR_EPOCH n) = e ∧ t.fld (fFAB_LINK_STATUS_FAR_DOMAIN n) = d ∧
      t.fld (fFAB_LINK_STATUS_NEIGHBOUR n) = (if fld u 0 1 % 2 = 1 then unbe (slice u 1 2) % 8192 else 0) ∧ (t.link n).lastCtl = some (e, d)
    let t := controlUnit n u s
    (s.linkSt n = 1 → shows t ∧ t.linkSt n =
      (if (s.link n).lastCtl = some (e, d) then (if d = s.fld fFAB_CTRL_DOMAIN then 2 else 3) else 1)) ∧
    (s.linkSt n = 2 ∨ s.linkSt n = 3 → shows t ∧
      ((s.link n).lastCtl = some (e, d) → t.linkSt n = s.linkSt n ∧ t.cb = s.cb ∧ (s.link n).far ≤ (t.link n).far ∧ (t.link n).far < (s.link n).far + 65536 ∧
        (t.link n).far % 65536 = unbe (slice u 3 2)) ∧
      ((s.link n).lastCtl ≠ some (e, d) → t.linkSt n = 1 ∧ (t.link n).txq = [] ∧ (t.link n).epoch = ((s.link n).epoch + 1) % 16))) ∧
  (∀ (n : Ch) (u : List Byte) (s : State), u.length ≠ 8 ∨ crc8 (u.take 7) ≠ u.getD 7 0#8 ∨ fld u 0 1 / 32 ≠ 1 ∨
      ¬ (s.linkSt n = 1 ∨ s.linkSt n = 2 ∨ s.linkSt n = 3) → controlUnit n u s = s) ∧
  (∀ (n : Ch) (s : State), ((s.linkSt n = 2 ∨ s.linkSt n = 3) → s.linkFrames n = false → exec (.fabricLinkDown n) s = .next (settle (linkDown n 1 s))) ∧
    (¬ (s.linkSt n = 2 ∨ s.linkSt n = 3) ∨ s.linkFrames n = true → exec (.fabricLinkDown n) s = .next (settle s))) ∧
  (∀ (n : Ch) (leaf : Nat) (pkt : List Byte) (rest : List (Nat × List Byte)) (s : State), (s.link n).txq = (leaf, pkt) :: rest →
    let st := s.linkSt n
    let may := st = 4 ∨ ((st = 2 ∨ st = 3) ∧ ((s.link n).txSent ≠ 0 ∨ (s.link n).sent + (pkt.length - 1) / 7 * 7 < 32768 + 256 * (s.link n).far))
    let w := if st = 4 then 4 else 7
    let u := txUnit w (s.link n).txSent pkt
    let l := { s.link n with
      sent := (s.link n).sent + min w (pkt.length - (s.link n).txSent)
      staged := (s.link n).staged ++ (if st = 4 then s.fabShares n leaf else [0]).map fun k => (k, leaf, u) }
    (may → pkt.length ≤ (s.link n).txSent + w → Completes (.fabricUnitSent n) s fun t => t.link n = { l with txq := rest, txSent := 0 } ∧
      t.out.bytes = u ∧ Counted (cCH n 40) 1 s t ∧ t.regs = s.regs) ∧
    (may → (s.link n).txSent + w < pkt.length → Completes (.fabricUnitSent n) s fun t => t.link n = { l with txSent := (s.link n).txSent + w } ∧
      t.out.bytes = u ∧ t.cnt = s.cnt ∧ t.regs = s.regs) ∧
    (¬ may → exec (.fabricUnitSent n) s = .next (settle s))) ∧
  (∀ (n : Ch) (m : Nat) (s : State), s.linkForm n = 1 → (m % 16 = 0 → hfbUnit n m s = (ctlUnit s n, s)) ∧
    (m % 16 ≠ 0 → ∀ k i u r, (s.link n).staged = (k, i, u) :: r → hfbUnit n m s = (slice u 0 8, s.setLink n { s.link n with staged := r })) ∧
    (m % 16 ≠ 0 → (s.link n).staged = [] → (s.link n).txSent = 0 → hfbUnit n m s = (List.replicate 8 0#8, s))) ∧
  (∀ (n : Ch) (s : State), (s.link n).txq = [] → exec (.fabricUnitSent n) s = .next (settle s))

/-- Network layer of spec 16. A packet for a link joins its queue when the link exists and has room (assumption 20). -/
def Obligations.FabricRoutesAndRequests : Prop :=
  let room := fun (s : State) (n : Ch) (p : List Byte) => (s.link n).waiting + p.length ≤ 32768;
  (∀ (edge : Bool) (but : Nat) (p : List Byte) (n : Ch) (s : State), let t := sendAll edge but p s
    let on := n.val ≠ but ∧ (s.linkSt n = 2 ∨ (edge = true ∧ s.linkSt n = 3))
    t.regs = s.regs ∧ (on → room s n p → (t.link n).txq = (s.link n).txq ++ [(s.leafFor n p, p)]) ∧
      (on → ¬ room s n p → t.link n = s.link n ∧ Counted (cCH n 44) 1 s t) ∧ (¬ on → t.link n = s.link n)) ∧
  (∀ s : State, let p := advPacket s s.node Config.serial.toNat s.fab.advNum.toNat 0 (s.fld fFAB_CTRL_DOMAIN)
    (s.node ≠ 0 → s.ready = true → Completes .advertisementPeriod s fun t => t.fab.advNum = s.fab.advNum + 1#32 ∧ t.regs = s.regs ∧
      ∀ n : Ch, s.linkSt n = 2 → room s n p → (t.link n).txq = (s.link n).txq ++ [(s.leafFor n p, p)]) ∧
    (s.node = 0 ∨ s.ready = false → exec .advertisementPeriod s = .next (settle s))) ∧
  (∀ (x hops : Nat) (n : Ch) (num : BitVec 32) (s : State), 1 ≤ x → x ≤ 4096 → hops < 256 → let t := learnRoute x n hops num s
    t.flag (fFAB_ROUTE_VALID (x - 1)) = true ∧ t.fld (fFAB_ROUTE_LINK (x - 1)) = n ∧ t.fld (fFAB_ROUTE_HOPS (x - 1)) = hops ∧
      smGet (fun _ => none) t.fab.routes x = some ⟨num, s.life + BitVec.ofNat 64 (3 * s.advNs)⟩) ∧
  (∀ (n : Ch) (ps : List Byte) (s : State), let x := fld ps 0 2
    let serial := fld ps 2 8
    let num := BitVec.ofNat 32 (fld ps 10 4)
    let hops := fld ps 14 1 + 1
    let old := smGet (fun _ => none) s.fab.routes x
    let fresh := old = none ∨ s.flag (fFAB_ROUTE_VALID (x - 1)) = false ∨
      ∃ e, old = some e ∧ (e.expiry.toNat ≤ s.life.toNat ∨ newer num e.num = true ∨ (num = e.num ∧ hops < s.fld (fFAB_ROUTE_HOPS (x - 1))))
    (ps.length = 16 → s.linkSt n = 2 → 1 ≤ x → x ≤ 4096 →
      (x = s.node → serial ≠ Config.serial.toNat → let t := advert n ps s
        t.flag fFAB_STATUS_DUP = true ∧ OnlyRegs [rFAB_STATUS] s t ∧ t.fab = s.fab ∧ Logged s t [(0x0B02, bSYS, serial % 2 ^ 32, n)]) ∧
      (x ≠ s.node → hops ≤ 255 → fresh → advert n ps s =
        sendAll false n (advPacket s x serial num.toNat hops (fld ps 15 1)) (learnRoute x n hops num s)) ∧
      ((x = s.node ∧ serial = Config.serial.toNat) ∨ (x ≠ s.node ∧ (255 < hops ∨ ¬ fresh)) →
        advert n ps s = s)) ∧
    (ps.length ≠ 16 ∨ s.linkSt n ≠ 2 ∨ x = 0 ∨ 4096 < x → advert n ps s = s)) ∧
  (∀ (x : Nat) (s : State), 1 ≤ x → x ≤ 4096 → let old := smGet (fun _ => none) s.fab.routes x
    (∀ e, old = some e → e.expiry.toNat ≤ s.life.toNat → Completes (.routeExpiry x) s fun t => t.flag (fFAB_ROUTE_VALID (x - 1)) = false ∧
      smGet (fun _ => none) t.fab.routes x = none ∧ OnlyRegs [rFAB_ROUTE (x - 1), rFAB_STATUS] s t) ∧
    ((old = none ∨ ∃ e, old = some e ∧ s.life.toNat < e.expiry.toNat) → exec (.routeExpiry x) s = .next (settle s))) ∧
  (∀ (n : Ch) (leaf : Fin 1024) (s : State), let a := s.fld (fFAB_LEAF_BASE_BASE n) + leaf
    let p := packet kUnsolicited 32 0xFFFF s.node 0 0x0811 0 0 (le 2 a ++ le 1 (s.fld fFAB_CTRL_DOMAIN) ++ [0#8] ++ le 2 s.node)
    let may := s.flag (fFAB_LEAF_BASE_OFFER n) = true ∧ s.fld (fHUB_CTRL_ROLE n) = 1 ∧ s.fld (fLEAF_W0_STATE n leaf) = 2 ∧ a ≤ 4096
    (may → s.linkSt n = 4 → room s n p → Completes (.addressOfferSent n leaf) s fun t => (t.link n).txq = (s.link n).txq ++ [(leaf.val, p)] ∧ t.regs = s.regs) ∧
    (may → s.linkSt n = 4 → ¬ room s n p → Completes (.addressOfferSent n leaf) s fun t => t.link n = s.link n ∧ Counted (cCH n 44) 1 s t) ∧
    (¬ may → exec (.addressOfferSent n leaf) s = .next (settle s))) ∧
  (∀ (n : Ch) (ps : List Byte) (s : State),
    let may := ps.length = 6 ∧ s.fld (fHUB_CTRL_ROLE n) = 2 ∧ s.flag fFAB_CTRL_AUTO_ADDR = true ∧ s.node = 0 ∧
      1 ≤ fld ps 0 2 ∧ fld ps 0 2 ≤ 4096
    let t := takeOffer n ps s
    (may → t.node = fld ps 0 2 ∧ t.fld fFAB_CTRL_DOMAIN = fld ps 2 1 ∧
      t.flag fFAB_STATUS_OFFERED = true ∧
      (fld ps 2 1 = s.fld fFAB_CTRL_DOMAIN → OnlyRegs [rFAB_CTRL, rFAB_STATUS] s t ∧ Logged s t [(0x0B03, bSYS, fld ps 0 2, 0)]) ∧
      (fld ps 2 1 ≠ s.fld fFAB_CTRL_DOMAIN → ∀ m : Ch, t.linkSt m = if s.linkSt m = 2 ∨ s.linkSt m = 3 then 1 else s.linkSt m)) ∧
    (¬ may → takeOffer n ps s = s)) ∧
  (∀ (n : Ch) (bs : List Byte) (s : State), pktKind bs = 2 ∨ pktKind bs = 10 ∨ pktKind bs = 6 ∨ pktKind bs = 14 →
    let hit := s.fab.fwd.find? fun f => f.tag == pktTag bs && f.opcode == pktOpcode bs
    (hit = none → let t := fwdReply n bs s
      Counted (cCH n 47) 1 s t ∧ t.fab = s.fab ∧ t.regs = s.regs) ∧
    (∀ f, hit = some f → ∃ u, fwdReply n bs s = placeLocal f.org.who (resealed bs (pktHop bs) (pktSrc bs) f.org.tag f.org.who.master) u ∧
      u.regs = s.regs ∧ u.cb = s.cb ∧
      (pktKind bs = 6 ∨ (pktKind bs = 2 ∧ pktStatus bs ≠ stACCEPTED) → f ∉ u.fab.fwd) ∧
      (pktKind bs = 2 ∧ pktStatus bs = stACCEPTED → { f with accepted := true, time := s.life } ∈ u.fab.fwd) ∧
      (pktKind bs = 10 ∨ pktKind bs = 14 → u.fab.fwd = s.fab.fwd))) ∧
  (∀ (n : Ch) (l : Nat) (at_ : BitVec 64) (bs : List Byte) (rest : List (BitVec 64 × Nat × List Byte)) (s : State), s.fab.inbox = (at_, l, bs) :: rest →
    let u := linkRelease n bs.length { s with fab := { s.fab with inbox := rest } }
    let reply := pktKind bs = 2 ∨ pktKind bs = 10 ∨ pktKind bs = 6 ∨ pktKind bs = 14
    let note := fun (c : Nat) => pktKind bs = 4 ∧ pktOpcode bs = c
    (l = n → reply → exec (.forwardedReplyReceived n) s = .next (settle (fwdReply n bs u))) ∧
    (l = n → note 0x0810 → exec (.advertisementReceived n) s = .next (settle (advert n (pktParams bs) u))) ∧
    (l = n → note 0x0811 → exec (.addressOfferReceived n) s = .next (settle (takeOffer n (pktParams bs) u))) ∧
    (¬ (l = n ∧ reply) → exec (.forwardedReplyReceived n) s = .next (settle s)) ∧
    (¬ (l = n ∧ note 0x0810) → exec (.advertisementReceived n) s = .next (settle s)) ∧
    (¬ (l = n ∧ note 0x0811) → exec (.addressOfferReceived n) s = .next (settle s))) ∧
  (∀ (n : Ch) (s : State), s.fab.inbox = [] → exec (.forwardedReplyReceived n) s = .next (settle s) ∧
    exec (.advertisementReceived n) s = .next (settle s) ∧ exec (.addressOfferReceived n) s = .next (settle s)) ∧
  (∀ (tag : Nat) (s : State), (∀ f, (s.fab.fwd.find? fun f => f.tag == tag && f.due s.life) = some f → let r : Ref := { status := stTIMEOUT }
      ∃ u, exec (.forwardedRequestTimeout tag) s = .next (settle (answer f.org (if f.accepted then kNotice else kReply) f.opcode stTIMEOUT r.bytes u)) ∧
        u.fab.fwd = s.fab.fwd.filter (fun x => !decide (x = f)) ∧ OnlyRegs [] s u ∧
        Logged s u [(0x0B06, bSYS, f.dest, f.opcode), (0x0121, bSYS, r.p0 f.org.who.master, f.opcode)]) ∧
    ((s.fab.fwd.find? fun f => f.tag == tag && f.due s.life) = none → exec (.forwardedRequestTimeout tag) s = .next (settle s))) ∧
  (Does cmdFabSet .fabSet (fun _ _ => True) fun q t ans u => let ps := q.params
    ans = .done [] ∧ u.rd rFAB_CTRL = (if bit (fld ps 0 1) 0 then BitVec.ofNat 32 (fld ps 4 4) else t.rd rFAB_CTRL) ∧
      u.rd rFAB_LINK_CTRL = (if bit (fld ps 0 1) 1 then BitVec.ofNat 32 (fld ps 8 4) else t.rd rFAB_LINK_CTRL) ∧
      (∀ n, n < 4 → u.rd (rFAB_LEAF_BASE n) = if bit (fld ps 0 1) 2 then BitVec.ofNat 32 (fld ps (12 + 4 * n) 4) else t.rd (rFAB_LEAF_BASE n)) ∧
      (u.node ≠ t.node → u.fab.fwd = []) ∧ (u.fld fFAB_CTRL_DOMAIN ≠ t.fld fFAB_CTRL_DOMAIN → ∀ n : Ch, u.linkSt n ≠ 2 ∧ u.linkSt n ≠ 3)) ∧
  (Does cmdFabAclSet .fabAclSet (fun _ _ => True) fun q t ans u => let a := fld q.params 0 1
    let k := fld q.params 1 1
    ans = .done [] ∧ (∀ j, j < k → u.rd (rFAB_ACL_A (a + j)) = BitVec.ofNat 32 (fld q.params (4 + 8 * j) 4) ∧
      u.rd (rFAB_ACL_B (a + j)) = BitVec.ofNat 32 (fld q.params (8 + 8 * j) 4)) ∧
      OnlyRegs ((span a k).map rFAB_ACL_A ++ (span a k).map rFAB_ACL_B) t u) ∧
  (Does cmdFabRouteRead .fabRouteRead (fun _ _ => True) fun q t ans u => u = t ∧ ∃ b, ans = .done b ∧ b.length = 4 * fld q.params 2 2 ∧
    ∀ j, j < fld q.params 2 2 → fld b (4 * j) 4 =
      (if t.node = fld q.params 0 2 + j then 7 else (t.rd (rFAB_ROUTE (fld q.params 0 2 - 1 + j))).toNat)) ∧
  (Does cmdFabReport .fabReport (fun _ _ => True) fun _ t ans u => u = t ∧ ∃ b, ans = .done b ∧ b.length = 28 ∧ fld b 0 4 = (t.rd rFAB_CTRL).toNat ∧
    fld b 4 4 = (t.rd rFAB_LINK_CTRL).toNat ∧ fld b 8 4 = (t.rd rFAB_STATUS).toNat ∧ ∀ n, n < 4 → fld b (12 + 4 * n) 4 = (t.rd (rFAB_LINK_STATUS n)).toNat)

/-- Spec 17. `tChan`, `tDom`, `tPLane` mark targets of operations; a request's answer is placed, and ends at once without targets. -/
def Obligations.PowerStates : Prop :=
  let runs := fun (q : Request) (s : State) (ts : State → List Nat) (post : State → State → Prop) => ∃ u op, op.org = q.org ∧ op.opcode = 0x0600 ∧
      op.targets = ts u ∧ exec (.pwrStateSet q) s = .next (settle (let w := place q 0x0600 (.accept op) u; if (ts u).isEmpty then endOp op { status := stOK } [] w else w)) ∧
      post (s.taken q 0x0600) u;
  let turned := fun (q : Request) (s : State) (r : Ref) => exec (.pwrStateSet q) s = .next (settle (refuse q.org 0x0600 r (s.taken q 0x0600)));
  (∀ (q : Request) (s : State), cmdPwrStateSet.passes q s = true → let t := s.taken q 0x0600
    let st := fld q.params 1 1
    let ns := maskOf (fld q.params 4 8) 4
    let ls := maskOf (fld q.params 4 8) 64
    let ds := domMask (fld q.params 4 8)
    (fld q.params 0 1 = 0 → let go := ns.filter fun n => t.fld (fCH n) != 2 - st
      (chRefuse st ns t = none → runs q s (fun _ => go.map tChan) fun t u =>
        (∀ n : Ch, n.val ∈ go → u.fld (fCH n) = 3 ∧ u.pwr.target.get n = some (2 - st)) ∧ (∀ n : Ch, n.val ∉ go → u.fld (fCH n) = t.fld (fCH n)) ∧
        u.pwr.queue = t.pwr.queue ++ (if st = 0 then (go.filter fun n => t.fld (fCH n) == 0).map fun n => .channel (ch4 n) else [])) ∧
      (∀ r, chRefuse st ns t = some r → turned q s r)) ∧
    (fld q.params 0 1 = 1 → let pd := fun l => t.fld (fPD (24 + l / 16))
      ((∀ l ∈ ls, pd l ≠ 3 ∧ pd l ≠ 0) → (st = 1 → ∀ l ∈ ls, t.laneSt l ≠ 6) → (st ≠ 0 → ∀ l ∈ ls, t.liveLane l = false) →
        runs q s (fun u => (if st = 0 then ls.filter fun l => u.laneSt l != 4 else []).map tPLane) fun t u =>
          ∀ l, l < 64 → u.laneSt l = if l ∈ ls then (if st ≠ 0 then 4 + st else if (t.lane l).failed then 7 else if t.laneSt l = 5 then 4 else if t.laneSt l = 6 then 1 else t.laneSt l)
            else t.laneSt l) ∧
      ((∃ l ∈ ls, pd l = 3) → turned q s { status := stBUSY, b0 := 0 }) ∧
      ((∀ l ∈ ls, pd l ≠ 3) → ((∃ l ∈ ls, pd l = 0) ∨ (st = 1 ∧ ∃ l ∈ ls, t.laneSt l = 6)) → turned q s { status := stWRONG_STATE }) ∧
      ((∀ l ∈ ls, pd l ≠ 3 ∧ pd l ≠ 0) → (st = 1 → ∀ l ∈ ls, t.laneSt l ≠ 6) → st ≠ 0 → ∀ l, ls.find? t.liveLane = some l →
        turned q s { status := stCONFLICT, b1 := bLane l })) ∧
    (fld q.params 0 1 = 2 → let go := ns.filter fun x => t.fld (fPD (24 + x)) == (if st = 0 then 0 else 2)
      let bad := go.find? fun x => if st = 0 then !(layoutOk t x && layoutServes t x) else (quadLanes x).any t.liveLane
      ((∀ x ∈ ns, t.fld (fPD (24 + x)) ≠ 3) → (st = 0 ∨ go.any t.paired = false) → bad = none → runs q s (fun _ => go.map fun x => tDom (24 + x)) fun t u =>
        (∀ x ∈ go, u.fld (fPD (24 + x)) = 3) ∧ u.pwr.queue = t.pwr.queue ++ (if st = 0 then go.map fun x => .quad (ch4 x) else [])) ∧
      ((∃ x ∈ ns, t.fld (fPD (24 + x)) = 3) → turned q s { status := stBUSY, b0 := 0 }) ∧
      ((∀ x ∈ ns, t.fld (fPD (24 + x)) ≠ 3) → st ≠ 0 → go.any t.paired = true → turned q s { status := stCONFLICT, b1 := bMRG }) ∧
      ((∀ x ∈ ns, t.fld (fPD (24 + x)) ≠ 3) → (st = 0 ∨ go.any t.paired = false) → ∀ x, bad = some x → turned q s { status := stCONFLICT, b1 := bHQ x })) ∧
    (fld q.params 0 1 = 3 → let go := ds.filter fun d => t.fld (fPD d) == (if st = 0 then 0 else 2)
      ((∀ d ∈ ds, t.fld (fPD d) ≠ 3) → (st = 0 ∨ go.findSome? t.domDependant = none) → runs q s (fun _ => go.map tDom) fun t u =>
        (∀ d ∈ go, (st = 0 → StartItem.domain d ∉ t.pwr.queue) → u.fld (fPD d) = 3 ∧ (d = 30 → u.fld (fPD 31) = 3)) ∧ (st = 0 → ∀ d ∈ go, StartItem.domain d ∈ u.pwr.queue) ∧
        (st = 1 → 29 ∈ go → u.contexts = [] ∧ u.cph.kek = none) ∧ (st = 1 → 30 ∈ go → u.flag fMEM_STATUS_HBM_READY = false ∧ u.mem.hbm = [])) ∧
      ((∃ d ∈ ds, t.fld (fPD d) = 3) → turned q s { status := stBUSY, b0 := 0 }) ∧
      ((∀ d ∈ ds, t.fld (fPD d) ≠ 3) → st ≠ 0 → ∀ b, go.findSome? t.domDependant = some b → turned q s { status := stCONFLICT, b1 := b }))) ∧
  (∀ (st : Nat) (ns : List Nat) (s : State), let chg := ∃ n ∈ ns, s.fld (fCH n) = 3
    let dark := ∃ n ∈ ns, s.fld (fCH n) = 0
    (chg → chRefuse st ns s = some { status := stBUSY, b0 := 0 }) ∧
    (¬ chg → dark → (st = 1 ∨ (st = 0 ∧ s.flag fPWR_CH_STATE_RECEPTACLE = false)) → chRefuse st ns s = some { status := stWRONG_STATE }) ∧
    (¬ chg → st = 0 → (¬ dark ∨ s.flag fPWR_CH_STATE_RECEPTACLE = true) → chRefuse st ns s = none) ∧
    (¬ chg → (st = 1 → ¬ dark) → st = 1 ∨ st = 2 → chRefuse st ns s = (s.chDependant (ns.filter fun n => s.fld (fCH n) != 2 - st)).map fun b => { status := stCONFLICT, b1 := b })) ∧
  (∀ s : State, (s.pwr.queue.find? s.spaced = none → exec .startQueueDispatch s = .next (settle s)) ∧
    (∀ i, s.pwr.queue.find? s.spaced = some i → Completes .startQueueDispatch s fun t => t.pwr.queue = s.pwr.queue.filter (fun x => !decide (x = i)) ∧
      t.pwr.starting = s.pwr.starting ++ [i] ∧ t.pwr.lastAny = some s.life ∧
      (∀ n : Ch, i = .channel n → t.fld (fCH n) = 3 ∧ (∀ d ∈ chPds n, t.fld (fPD d) = 3) ∧ t.pwr.lastChan = some s.life) ∧
      (∀ x : Ch, i = .quad x → t.fld (fPD (24 + x)) = 2 ∧ t.pwr.lastQuad = some s.life ∧
        ∀ l ∈ quadLanes x, t.laneSt l = if s.fld (fHL_CFG_ROLE l) = 0 then 6 else if (s.lane l).failed then 7 else 1)) ∧
    (∀ i a, s.pwr.lastAny = some a → s.spaced i = true → a.toNat + 2000000 ≤ s.life.toNat) ∧
    (∀ n a, s.pwr.lastChan = some a → s.spaced (.channel n) = true → a.toNat + 40000000 ≤ s.life.toNat) ∧
    (∀ n a, s.pwr.lastQuad = some a → s.spaced (.quad n) = true → a.toNat + 10000000 ≤ s.life.toNat)) ∧
  (∀ (c : Ch) (s : State), let up := s.pwr.starting.contains (.quad c) = true ∧ ∀ l ∈ quadLanes c, s.laneSt l = 4 ∨ s.fld (fHL_CFG_ROLE l) = 0
    (up → exec (.quadReachesL0 c) s = .next (settle (targetDone 0x0600 (tDom (24 + c)) none [] (unqueue (.quad c) s)))) ∧
    (¬ up → exec (.quadReachesL0 c) s = .next (settle s))) ∧
  (∀ (n : Ch) (s : State), (s.pwr.starting.contains (.channel n) = true → ∃ u,
      exec (.channelActive n) s = .next (settle (targetDone 0x0600 (tChan n) none [] u)) ∧ u.fld (fCH n) = 2 ∧ (∀ d ∈ chPds n, u.fld (fPD d) = 2) ∧
      u.pwr.target.get n = none ∧ u.pwr.since.get n = some s.life ∧ u.pwr.starting.contains (.channel n) = false) ∧
    (s.pwr.starting.contains (.channel n) = false → exec (.channelActive n) s = .next (settle s))) ∧
  (∀ (n : Ch) (s : State), let ends := fun (post : State → Prop) => ∃ u, exec (.channelTransitionComplete n) s = .next (settle (targetDone 0x0600 (tChan n) none [] u)) ∧ u.pwr.target.get n = none ∧ post u
    (s.pwr.target.get n = some 0 → ends fun u => u.fld (fCH n) = 0 ∧ ∀ d ∈ chPds n, u.fld (fPD d) = 0) ∧
    (s.pwr.target.get n = some 1 → ends fun u => u.fld (fCH n) = 1 ∧ u.fld (fPD (16 + n)) = 2 ∧ ∀ d ∈ chPds n, d ≠ 16 + n.val → u.fld (fPD d) = 1) ∧
    (∀ k, s.pwr.target.get n = some (k + 2) → s.pwr.exits.head? = some n.val → ends fun u => u.fld (fCH n) = 2 ∧ ∀ d ∈ chPds n, u.fld (fPD d) = 2) ∧
    ((s.pwr.target.get n = none ∨ ∃ k, s.pwr.target.get n = some (k + 2) ∧ s.pwr.exits.head? ≠ some n.val) →
      exec (.channelTransitionComplete n) s = .next (settle s))) ∧
  (∀ (d : Fin 32) (s : State), let mine := d.val = 3 ∨ (24 ≤ d.val ∧ d.val < 31)
    let up := s.pwr.starting.contains (.domain d) = true
    let ends := fun (post : State → Prop) => ∃ u, exec (.domainTransitionComplete d) s = .next (settle (targetDone 0x0600 (tDom d) none [] u)) ∧ post u
    let waits := s.pwr.queue.contains (.domain d) = true ∨ (24 ≤ d.val ∧ d.val < 28 ∧ s.pwr.queue.contains (.quad (ch4 (d.val - 24))) = true) ∨
      (d.val = 30 ∧ s.ready = false)
    (mine → s.fld (fPD d) = 3 → 5 ≤ s.stage → up → d.val ≠ 30 → ends fun u => u.fld (fPD d) = 2 ∧ u.pwr.starting.contains (.domain d) = false) ∧
    (mine → s.fld (fPD d) = 3 → 5 ≤ s.stage → ¬ up → ¬ waits → ends fun u => (d.val ≠ 29 ∨ s.cph.kek = none → u.fld (fPD d) = 0) ∧ (d.val = 30 → u.fld (fPD 31) = 0) ∧
      (d.val = 29 → s.cph.kek ≠ none → u.fld (fPD 29) = 3 ∧ StartItem.domain 29 ∈ u.pwr.queue)) ∧
    (¬ mine ∨ s.fld (fPD d) ≠ 3 ∨ s.stage < 5 ∨ (up ∧ d.val = 30) ∨ (¬ up ∧ waits) → exec (.domainTransitionComplete d) s = .next (settle s))) ∧
  (Does cmdPwrReport .pwrReport (fun _ _ => True) fun _ t ans u => u = t ∧ ∃ b, ans = .done b ∧ b.length = 16 ∧ fld b 0 4 = (t.rd rPWR_DOMAIN_A).toNat ∧
    fld b 4 4 = (t.rd rPWR_DOMAIN_B).toNat ∧ fld b 8 4 = (t.rd rPWR_CH_STATE).toNat ∧ fld b 12 4 = (t.rd rPWR_RET_STATUS).toNat) ∧
  (let acct := [rPWR_ACCT_A, rPWR_ACCT_B, rPWR_ACCT_C, rPWR_ACCT_CNT 0, rPWR_ACCT_CNT 1, rPWR_ACCT_CNT 2, rPWR_ACCT_CNT 3];
    (Does cmdPwrWakeSet .pwrWakeSet (fun _ _ => True) fun q t ans u => let v := BitVec.ofNat 32 (fld q.params 0 4)
      let anew := fPWR_WAKE_CTRL_ACCT_MODE.of v ≠ t.fld fPWR_WAKE_CTRL_ACCT_MODE ∨ fPWR_WAKE_CTRL_ACCT_CLEAR.of v = 1
      ans = .done [] ∧ u.rd rPWR_WAKE_CTRL = v &&& 0x107#32 ∧ u.rd rPWR_WAKE_TIMER = BitVec.ofNat 32 (fld q.params 4 4) ∧
        OnlyRegs (rPWR_WAKE_CTRL :: rPWR_WAKE_TIMER :: acct) t u ∧ ∀ r ∈ acct, u.rd r = if anew then resetWord r else t.rd r) ∧
    (Does cmdPwrAcctRead .pwrAcctRead (fun _ _ => True) fun q t ans u => (∃ b, ans = .done b ∧ b.length = 28 ∧
        ∀ k : Fin 7, fld b (4 * k) 4 = (t.rd (acct.getD k 0)).toNat) ∧ OnlyRegs acct t u ∧
      ∀ r ∈ acct, u.rd r = if bit (fld q.params 0 1) 0 then resetWord r else t.rd r) ∧
    ∀ s : State, (s.ready = true → Completes .acctClear s fun t => OnlyRegs acct s t ∧ ∀ r ∈ acct, t.rd r = resetWord r) ∧
      (s.ready = false → exec .acctClear s = .next (settle s)))

/-- Spec 17 and the requests of spec 03. A wake edge while the pads are undefined is a free choice (assumption 5). -/
def Obligations.DarkHouse : Prop :=
  let runs := fun (q : Request) (s : State) (ts : State → List Nat) (post : State → State → Prop) => ∃ u op, op.org = q.org ∧ op.opcode = 0x0600 ∧
      op.targets = ts u ∧ exec (.pwrStateSet q) s = .next (settle (let w := place q 0x0600 (.accept op) u; if (ts u).isEmpty then endOp op { status := stOK } [] w else w)) ∧
      post (s.taken q 0x0600) u;
  (∀ (q : Request) (s : State), cmdPwrStateSet.passes q s = true → fld q.params 0 1 = 4 → let t := s.taken q 0x0600
    (t.noWake = true → ∃ u, exec (.pwrStateSet q) s = .next (settle (refuse q.org 0x0600 { status := stWRONG_STATE } u)) ∧ OnlyRegs [] t u ∧
      Logged t u [(0x0C20, bPWR, 0xFF, stWRONG_STATE)] ∧ u.pwr = t.pwr) ∧
    (∀ b, t.noWake = false → t.entryConflict = some b → ∃ u, exec (.pwrStateSet q) s = .next (settle (refuse q.org 0x0600 { status := stCONFLICT, b1 := b } u)) ∧
      Logged t u [(0x0C20, bPWR, b, stCONFLICT)] ∧ u.pwr = t.pwr ∧ (t.flag fPWR_WAKE_CTRL_ACCT_MODE = true → OnlyRegs [] t u) ∧
      (t.flag fPWR_WAKE_CTRL_ACCT_MODE = false → u.fld fPWR_ACCT_A_REFUSALS = min 65535 (t.fld fPWR_ACCT_A_REFUSALS + 1) ∧
        u.fld fPWR_ACCT_A_LAST_BLOCK = b % 256 ∧ u.fld fPWR_ACCT_A_LAST_INDEX = refuser b % 16 ∧ u.flag fPWR_ACCT_A_LAST_ABORT = false)) ∧
    (t.noWake = false → t.entryConflict = none → runs q s (fun _ => [tDark]) fun t u => u.rehearsals = [] ∧ (∀ n : Ch, u.fld (fCH n) = 0) ∧
      (∀ d ∈ [3, 24, 25, 26, 27, 28, 29, 30], u.fld (fPD d) = 0) ∧ (∀ i, t.fld (fCPH_CTX_A_STATE i) ≠ cxRETIRING → u.keyOf i = t.keyOf i) ∧ u.cph.kek = t.cph.kek ∧ u.pwr.queue = [] ∧ u.pwr.wake = none ∧
      ∃ e, u.pwr.entry = some e ∧ e.org = q.org ∧ e.hbmOn = t.pdOn 30)) ∧
  (∀ (e : Entry) (s : State), s.pwr.entry = some e → let keep := s.flag fCPH_CTRL_KEY_RETAIN
    (s.pwr.wake = none → Completes .darkHouseCommit s fun t => t.pwr.asleep = true ∧ t.pwr.entry = none ∧ t.pwr.commitLife = s.life ∧ t.life = s.life ∧
      t.stage = 0 ∧ t.cph.keys = [] ∧ t.cph.kek = none ∧ t.fld (fPD 1) = 0 ∧ t.fld (fPD 2) = 0 ∧ t.ops = s.ops.filter (fun o => o.targets.contains tDark) ∧
      t.rd rPWR_RET_STATUS = (if keep then 0x5555#32 else 0x5554#32) ∧ t.free = s.free + 1 ∧
      ∃ b, t.banks = some b ∧ b.claims = s.claims ∧ b.kek = (if keep then s.cph.kek else none) ∧ (keep = false → b.keys = [] ∧ b.ctx = []) ∧
        (keep = true → b.keys = s.cph.keys.filter fun x => s.kept.contains x.1)) ∧
    (∀ c, s.pwr.wake = some c → c < 4 → Completes .darkHouseAbort s fun t => t.pwr.entry = none ∧ t.pwr.wake = none ∧ t.cph.keys = s.cph.keys ∧
      (s.fld (fPD 3) = 0 → StartItem.domain 3 ∈ t.pwr.queue) ∧ (e.hbmOn = true → s.fld (fPD 30) = 0 → StartItem.domain 30 ∈ t.pwr.queue) ∧
      (s.flag fPWR_WAKE_CTRL_ACCT_MODE = false → t.fld fPWR_ACCT_A_LAST_BLOCK = 0x80 ∧ t.fld fPWR_ACCT_A_LAST_INDEX = 11 + c ∧ t.flag fPWR_ACCT_A_LAST_ABORT = true)) ∧
    (s.pwr.wake ≠ none → exec .darkHouseCommit s = .next (settle s)) ∧ (s.pwr.wake = none → exec .darkHouseAbort s = .next (settle s))) ∧
  (∀ s : State, s.pwr.entry = none → exec .darkHouseCommit s = .next (settle s) ∧ exec .darkHouseAbort s = .next (settle s)) ∧
  (∀ s : State, let here := s.pwr.wake = none ∧ (s.pwr.entry.isSome = true ∨ s.pwr.asleep = true) ∧ s.boot.powerDown = false ∧ s.boot.resetLow = false ∧
      s.boot.gated = false
    let fires := fun (c : Nat) (en : Bool) (t : State) => t.pwr.wake = (if en = true ∧ here then some c else s.pwr.wake) ∧ t.regs = s.regs ∧ t.pwr.asleep = s.pwr.asleep
    (s.boot.railsLow.contains 10 = false → Completes .wakeNLow s (fires 1 (s.flag fPWR_WAKE_CTRL_WAKE_N_EN)) ∧
      ∀ a : Fin 128, a.val = s.i2cAddress → Completes (.i2cAddressMatch a) s (fires 2 (s.flag fPWR_WAKE_CTRL_I2C_EN))) ∧
    (∀ a : Fin 128, a.val ≠ s.i2cAddress → exec (.i2cAddressMatch a) s = .next (settle s)) ∧
    (s.boot.railsLow.contains 10 = true → (Completes .wakeNLow s fun t => t.free = s.free + 1 ∧ (t.pwr = s.pwr ∨ fires 1 (s.flag fPWR_WAKE_CTRL_WAKE_N_EN) t)) ∧
      ∀ a : Fin 128, a.val = s.i2cAddress → (Completes (.i2cAddressMatch a) s fun t => t.free = s.free + 1 ∧ (t.pwr = s.pwr ∨ fires 2 (s.flag fPWR_WAKE_CTRL_I2C_EN) t))) ∧
    (let due := s.pwr.asleep = true ∧ s.pwr.commitLife.toNat + max 1 (s.fld fPWR_WAKE_TIMER_SECONDS) * 1000000000 ≤ s.life.toNat
     (due → Completes .wakeTimerExpiry s (fires 3 (s.flag fPWR_WAKE_CTRL_TIMER_EN))) ∧ (¬ due → exec .wakeTimerExpiry s = .next (settle s)))) ∧
  (∀ s : State, (∀ c, s.pwr.wake = some c → s.pwr.asleep = true → s.boot.powerDown = false → Completes .wake s fun t => t.pwr.asleep = false ∧
      t.boot.waking = true ∧ t.stage = 1 ∧ t.fld (fPD 1) = 2 ∧ t.fld (fPD 2) = 2 ∧ t.flag fPWR_RET_STATUS_WOKEN = true ∧ t.banks = s.banks ∧
      (s.flag fPWR_WAKE_CTRL_ACCT_MODE = true → t.fld fPWR_ACCT_A_REFUSALS = c % 65536 ∧ t.fld fPWR_ACCT_B_WAKE_T_LO = s.life.toNat % 2 ^ 32 ∧
        t.fld fPWR_ACCT_C_WAKE_T_HI = s.life.toNat / 2 ^ 32)) ∧
    (s.pwr.wake = none ∨ s.pwr.asleep = false ∨ s.boot.powerDown = true → exec .wake s = .next (settle s))) ∧
  (∀ (bad : List Nat) (b : Banks) (s : State), s.banks = some b → s.boot.waking = true → s.stage = 5 →
    (∀ e, e ∈ b.sys ∨ e ∈ b.chan ∨ e ∈ b.leaf ∨ e ∈ b.ctx ∨ e ∈ b.timRegs → e.1 ≠ rPWR_RET_STATUS ∧ e.1 ≠ rCPH_STATUS) →
    Completes (.retentionBanksRestored bad) s fun t => t.banks = none ∧ t.fld (fPD 30) = 3 ∧ t.fld (fPD 31) = 3 ∧
      (∀ i, i < 8 → t.fld (fBANK i) = if s.fld (fBANK i) = 1 then (if i ∈ bad then 3 else 2) else s.fld (fBANK i)) ∧
      (s.fld (fBANK 0) = 1 → 0 ∈ bad → t.flag fCPH_STATUS_KEY_LOST = true ∧ t.cph.keys = s.cph.keys) ∧
      (s.fld (fBANK 0) = 1 → 0 ∉ bad → t.cph.kek = b.kek ∧ t.cph.keys = b.keys) ∧
      (s.fld (fBANK 5) = 1 → 5 ∉ bad → t.claims = b.claims) ∧ (s.fld (fBANK 7) = 1 → 7 ∉ bad → t.flag fTIM_STATUS_TOD_VALID = false)) ∧
  (∀ (bad : List Nat) (s : State), s.banks = none ∨ s.boot.waking = false ∨ s.stage ≠ 5 → exec (.retentionBanksRestored bad) s = .next (settle s)) ∧
  (Does cmdSysReset .sysReset (fun _ _ => True) fun q t ans u => ans = .done [] ∧ u.boot.warm = some (fld q.params 1 1) ∧ u.regs = t.regs ∧ u.cb = t.cb) ∧
  (∀ k, Does (cmdFwSvnCommit k) (fun q => .fwSvnCommit q k) (fun _ t => t.flag fSYS_BOOT_STATUS_SOURCE = false) fun _ t ans u =>
    let need := min 64 (t.fld fSYS_BOOT_STATUS_IMAGE_SVN) - t.boot.svn
    u.boot.svn = t.boot.svn + min k need ∧ u.fld fSYS_BOOT_STATUS_FUSED_SVN = u.boot.svn % 256 ∧ OnlyRegs [rSYS_BOOT_STATUS] t u ∧
      ans = if u.boot.svn < t.fld fSYS_BOOT_STATUS_IMAGE_SVN then .fail { status := stHW_FAULT } else .done (le 1 u.boot.svn)) ∧
  (∀ k, Turned (cmdFwSvnCommit k) (fun q => .fwSvnCommit q k) (fun _ t => t.flag fSYS_BOOT_STATUS_SOURCE = true) fun _ _ => { status := stWRONG_STATE })

/-- Spec 18. What the last two stages make of averages that differ is open (assumption 9): it is named by the model's `chainOut`. -/
def Obligations.MonitorConverts : Prop :=
  (∀ (code : Fin 4096) (s : State), let on := s.pdOn 3 = true ∧ s.flag fMON_STATUS_READY = true
    (¬ on ∨ s.mon.slot = none → exec (.monitorConversion code) s = .next (settle s)) ∧
    (∀ k, on → s.mon.slot = some k → let k1 := (k + 1) % 64
      ((s.mon.cur = none ∨ s.mon.void = true ∨ ∃ i, s.mon.cur = some i ∧ s.srcDark i = true) → exec (.monitorConversion code) s = .next (settle (slotBegin k1 s))) ∧
      ∀ i, i < 64 → s.mon.cur = some i → s.mon.void = false → s.srcDark i = false →
        let ch := s.chain i
        let cs := (code.val :: ch.codes).take (s.monSpan i)
        let tick := (ch.n + 1) % s.monR i = 0
        let clamp := decide tick && notchClamped s i cs
        let ch' : MonChain := ⟨cs, if tick then (clamp :: ch.clamps).take 31 else ch.clamps, ch.n + 1, some (ch.at0.getD s.life), ch.weight, ch.stale⟩
        let v := chainOut s i ch'
        let val := (clampI 0 1048575 v).toNat
        let bad := v < 0 ∨ 1048575 < v
        let sat1 := bad ∨ true ∈ ch'.clamps ∨ 0 ∈ cs ∨ 4095 ∈ cs
        let late := s.life.toNat < (ch.at0.getD s.life).toNat + 1000 * s.fld (fMON_IN_SETTLE_TIME i)
        let due := (ch.n + 1) % (s.monR i * s.monD i) = 0
        let hits := code.val = 0 ∨ code.val = 4095 ∨ clamp = true ∨ (due ∧ bad)
        let turns := if s.flag fMON_STATUS_BG_FAULT then 1000 * bandgapOff val ≤ 4194304 * 4 else 4194304 * 5 < 1000 * bandgapOff val
        Completes (.monitorConversion code) s fun t => t.mon.slot = some k1 ∧ t.mon.cur = ((s.monSlot k1).filter fun i => !s.srcDark i) ∧ t.mon.void = false ∧
          t.life = s.life ∧ (∀ j, t.chain j = if j = i then ch' else s.chain j) ∧
          (hits → t.flag (fSat i) = true) ∧
          (¬ hits → t.cb = s.cb ∧ t.rd rMON_SAT_LO = s.rd rMON_SAT_LO ∧ t.rd rMON_SAT_HI = s.rd rMON_SAT_HI) ∧
          (¬ due → OnlyRegs [rMON_SAT_LO, rMON_SAT_HI] s t ∧ t.mon.queue = s.mon.queue ∧ t.mon.lost = s.mon.lost) ∧
          (due → OnlyRegs [rMON_SAT_LO, rMON_SAT_HI, rMON_IN_LAST i, rMON_STATUS] s t ∧ t.fld (fMON_IN_LAST_VALUE i) = val ∧
            t.flag (fMON_IN_LAST_VALID i) = true ∧ (t.flag (fMON_IN_LAST_SAT i) = true ↔ sat1) ∧ (t.flag (fMON_IN_LAST_SETTLING i) = true ↔ late) ∧
            (s.flag (fMON_IN_CFG_QUEUE_EN i) = false → t.mon.queue = s.mon.queue ∧ t.mon.lost = s.mon.lost) ∧
            (s.flag (fMON_IN_CFG_QUEUE_EN i) = true → s.mon.queue.length < 1024 → t.mon.lost = 0 ∧ t.fld fMON_STATUS_Q_COUNT = s.mon.queue.length + 1 ∧
              ∃ e, t.mon.queue = s.mon.queue ++ [e] ∧ e.ts = s.life ∧ e.lost = min 65535 s.mon.lost ∧ bits e.q2.toNat 19 0 = val ∧
                bits e.q2.toNat 25 20 = i ∧ (bits e.q2.toNat 26 26 = 1 ↔ sat1) ∧ (bits e.q2.toNat 27 27 = 1 ↔ late) ∧ bits e.q2.toNat 28 28 = 1) ∧
            (s.flag (fMON_IN_CFG_QUEUE_EN i) = true → 1024 ≤ s.mon.queue.length → t.mon.queue = s.mon.queue ∧ t.mon.lost = s.mon.lost + 1 ∧
              t.mon.lostSec = s.mon.lostSec + 1 ∧ t.flag fMON_STATUS_Q_OVF = true ∧ Counted cMON_Q_LOST 1 s t)) ∧
          (due → i = 63 → t.mon.bgSince = if turns ∧ ¬ late then some (s.mon.bgSince.getD s.life) else none) ∧
          (¬ due ∨ i ≠ 63 → t.mon.bgSince = s.mon.bgSince))) ∧
  (∀ (s : State) (i c : Nat) (ch : MonChain), s.notchOn i = false → ch.stale = false → s.monSpan i ≤ ch.codes.length → (∀ d ∈ ch.codes, d = c) →
    chainOut s i ch = (256 * c : Nat)) ∧
  (∀ (xs : List Nat) (r k : Nat), 1 ≤ r → (k + r ≤ xs.length → (sums r xs)[k]? = some ((xs.drop k).take r).sum) ∧
    (r * k < xs.length → (decimate r xs)[k]? = xs[r * k]?)) ∧
  (∀ (offs gain : Int) (s : State), let on := s.pdOn 3 = true ∧ s.flag fMON_STATUS_READY = true
    (on → s.mon.slot = none → Completes (.monitorRoundBoundary offs gain) s fun t => t.mon.slot = some 0 ∧ t.mon.cal = (offs, gain) ∧ t.mon.void = false ∧
      t.mon.cur = ((s.monSlot 0).filter fun i => !s.srcDark i) ∧ t.mon.bgSince = none ∧ OnlyRegs ((span 0 64).map rMON_IN_LAST) s t ∧ t.cb = s.cb ∧
      ∀ i, i < 64 → t.chain i = ⟨[], [], 0, some s.life, s.monWeight i, false⟩ ∧ t.flag (fMON_IN_LAST_VALID i) = false) ∧
    (on → s.mon.slot = some 0 → exec (.monitorRoundBoundary offs gain) s = .next (settle (s.setMon { s.mon with cal := (offs, gain) }))) ∧
    (¬ on ∨ (∃ k, s.mon.slot = some (k + 1)) → exec (.monitorRoundBoundary offs gain) s = .next (settle s))) ∧
  (∀ s : State, (s.pdOn 3 = true → s.flag fMON_STATUS_READY = false → Completes .monitorCalibrationComplete s fun t =>
      t.flag fMON_STATUS_READY = true ∧ OnlyRegs [rMON_STATUS] s t ∧ t.mon = s.mon ∧ Logged s t [(0x0D05, bMON, 0, 0)]) ∧
    (s.pdOn 3 = false ∨ s.flag fMON_STATUS_READY = true → exec .monitorCalibrationComplete s = .next (settle s))) ∧
  (∀ s : State, let v := s.fld (fMON_IN_LAST_VALUE 63)
    let on := s.flag fMON_STATUS_BG_FAULT
    let due := fun (a : BitVec 64) => s.pdOn 3 = true ∧ s.flag (fMON_IN_LAST_VALID 63) = true ∧ a.toNat + 1000000000 ≤ s.life.toNat
    (∀ a, s.mon.bgSince = some a → due a → Completes .bandgapCheck s fun t => t.flag fMON_STATUS_BG_FAULT = (!on) ∧ OnlyRegs [rMON_STATUS] s t ∧
      t.mon = { s.mon with bgSince := none } ∧ Logged s t [(0x0D03, bMON, b2n (!on) + 256 * v, 0)]) ∧
    (s.mon.bgSince = none ∨ (∃ a, s.mon.bgSince = some a ∧ ¬ due a) → exec .bandgapCheck s = .next (settle s))) ∧
  (∀ s : State, (s.mon.lostSec = 0 → exec .monitorDiscardRecord s = .next (settle s)) ∧
    (s.mon.lostSec ≠ 0 → Completes .monitorDiscardRecord s fun t => OnlyRegs [] s t ∧ t.mon = { s.mon with lostSec := 0 } ∧
      Logged s t [(0x0D02, bMON, min (2 ^ 32 - 1) s.mon.lostSec, 0)])) ∧
  (∀ (who : Fin 3) (s : State), (s.ready = false → exec (.monQ0Read who) s = .next (settle (put 0#32 s))) ∧
    (∀ e l, s.ready = true → s.mon.queue = e :: l → l.length < 2048 → Completes (.monQ0Read who) s fun t => t.out.data = e.ts.setWidth 32 ∧
      t.rlOf who rMON_Q1 = (e.ts >>> 32).setWidth 32 ∧ t.rlOf who rMON_Q2 = e.q2 ∧ t.rlOf who rMON_Q3 = BitVec.ofNat 32 e.lost ∧
      t.mon = { s.mon with queue := l } ∧ t.fld fMON_STATUS_Q_COUNT = l.length ∧ OnlyRegs [rMON_STATUS] s t) ∧
    (s.ready = true → s.mon.queue = [] → Completes (.monQ0Read who) s fun t => t.out.data = 0#32 ∧ t.rlOf who rMON_Q1 = 0#32 ∧
      t.rlOf who rMON_Q2 = 0#32 ∧ t.rlOf who rMON_Q3 = 0#32 ∧ t.mon = s.mon ∧ t.regs = s.regs)) ∧
  (∀ s : State, (s.ready = true → Completes .qClear s fun t => t.mon = { s.mon with queue := [] } ∧ t.fld fMON_STATUS_Q_COUNT = 0 ∧ OnlyRegs [rMON_STATUS] s t) ∧
    (s.ready = false → exec .qClear s = .next (settle s))) ∧
  (Does cmdMonQRead .monQRead (fun _ t => t.fld (fPD 3) ≠ 0 ∧ t.mon.queue.length ≤ 1024) fun q t ans u => let k := fld q.params 0 2
    let es := t.mon.queue.take k
    u.mon = { t.mon with queue := t.mon.queue.drop k } ∧ u.fld fMON_STATUS_Q_COUNT = t.mon.queue.length - k ∧ OnlyRegs [rMON_STATUS] t u ∧
      ∃ b, ans = .done b ∧ b.length = 4 + 16 * es.length ∧ fld b 0 2 = es.length ∧ fld b 2 2 = t.mon.queue.length - k ∧
        ∀ e r, es = e :: r → fld b 4 8 = e.ts.toNat ∧ fld b 12 4 = e.q2.toNat ∧ fld b 16 4 = e.lost % 2 ^ 32) ∧
  (Turned cmdMonQRead .monQRead (fun _ t => t.fld (fPD 3) = 0) fun _ _ => { status := stWRONG_STATE })

/-- Spec 19. Where the tick falls between idle steps is the model's choice (assumption 1). -/
def Obligations.CountersAndWindows : Prop :=
  (∀ (host : List (Nat × List HostCw)) (s : State), let u := each host (fun e s => portIn e.1 e.2 s) s
    Completes (.counterTick host) s fun t => t.life = BitVec.ofNat 64 ((s.life.toNat / 1000 + 1) * 1000) ∧ t.cnt.tick = t.life ∧
      t.cnt.store = u.cnt.live ∧ t.cnt.live = u.cnt.live ∧ t.cb = u.cb ∧ t.regs = u.regs ∧ (host = [] → u = s)) ∧
  (∀ (h : Fin 64) (cws : List HostCw) (s : State), let t := portIn h cws s
    let bad := (cws.filter fun c => c.fixed.isNone).length
    let good := (cws.filterMap HostCw.fixed).filter fun k => k != 0
    (s.headLane h = false ∨ s.flag (fHP_STATUS_AM_LOCK h) = false → t = s) ∧
    (s.headLane h = true → s.flag (fHP_STATUS_AM_LOCK h) = true → s.fld (fPD (24 + h.val / 16)) ≠ 0 →
      s.flag (fHP_STATUS_PCS_LOCK h) = false ∨ (s.portClients h = [] ∧ s.flag (fHL_CFG_GROUP h) = false ∧ s.fld (fHL_LOOP_DEPTH h) = 0) →
      Counted (cHP h 0) cws.length s t ∧ Counted (cHP h 1) good.length s t ∧ Counted (cHP h 2) bad s t ∧ Counted (cHP h 3) good.sum s t ∧
        Counted (cHP h 4) (if s.flag (fHP_STATUS_PCS_LOCK h) then contents (cws.flatMap cwBlocks) else 0) s t ∧
        t.rd (rHP_STATUS h) = (if 0 < bad then s.rd (rHP_STATUS h) ||| 0x2000#32 else s.rd (rHP_STATUS h)) ∧ OnlyRegs [rHP_STATUS h] s t ∧ t.cb = s.cb)) ∧
  (∀ (f : Pr) (off : Nat) (s : State), let open0 := s.ready = true ∧ s.cntBlocked f = false
    (∀ k, open0 → cntKeyAt s f off = some k → Completes (.cntLoRead f off) s fun t => t.out.data = (cntStored s k).setWidth 32 ∧ t.regs = s.regs ∧
      t.cnt.live = s.cnt.live ∧ t.cnt.store = s.cnt.store ∧
      (f = 0 → smGet (fun _ => 0#49) t.cnt.latch0 k = cntStored s k ∧ t.cnt.latch1 = s.cnt.latch1) ∧
      (f = 1 → smGet (fun _ => 0#49) t.cnt.latch1 k = cntStored s k ∧ t.cnt.latch0 = s.cnt.latch0)) ∧
    (¬ open0 ∨ cntKeyAt s f off = none → exec (.cntLoRead f off) s = .next (settle (put 0#32 s))) ∧
    (∀ k, k < 1024 → cntKeyAt s f (0x30000 + 8 * k) = some k) ∧
    (∀ j, j < 2048 → let n := s.fld (fCNT_PAGE_CHANNEL f)
      cntKeyAt s f (0x38000 + 8 * j) = if s.fld (fCNT_PAGE_KIND f) = 1 then some (0x10000000 + 0x4000000 * n + j)
        else if s.fld (fCNT_PAGE_KIND f) = 2 then some (0x20000000 + 0x4000000 * n + 2048 * s.fld (fCNT_PAGE_QUARTER f) + j) else none)) ∧
  (∀ (f : Fin 2) (s : State), s.cntBlocked f.val = true ↔ f = 1 ∧ s.flag fSYS_ACCESS_OBS_COUNTERS = false) ∧
  (∀ (who : Fin 3) (s : State), let served := if who = 2 then s.i2cServed = true ∧ s.ready = true
      else s.ready = true ∨ (s.boot.linkUp = true ∧ 3 ≤ s.stage)
    (served → Completes (.serialLoRead who) s fun t => t.out.data = Config.serial.setWidth 32 ∧
      t.rlOf who rSYS_ID_SERIAL_HI = (Config.serial >>> 32).setWidth 32 ∧ t.regs = s.regs) ∧
    (¬ served → exec (.serialLoRead who) s = .next (settle (put 0#32 s)))) ∧
  (∀ (cl : List (Nat × Nat × Nat × Nat)) (s : State), (s.ready = false → exec (.bandwidthWindowEnd cl) s = .next (settle s)) ∧
    (s.ready = true → Completes (.bandwidthWindowEnd cl) s fun t => t.win.ms = min 1000 (max 1 (s.fld fHP_WIN_CTRL_WIN_MS)) ∧ t.win.dirty = false ∧ t.win.clients = [] ∧
      (∀ l, l < 64 → ∀ k, k = 4 ∨ k = 5 → smGet (fun _ => 0) t.win.base (cHP l k) = s.counter (cHP l k)) ∧
      (s.win.dirty = true → t.regs = s.regs ∧ t.win.rates = s.win.rates ∧ t.win.len = s.win.len) ∧
      (s.win.dirty = false → t.win.len = s.win.ms ∧ OnlyRegs ((span 0 64).flatMap fun l => [rHP_WIN_RX l, rHP_WIN_TX l]) s t ∧
        (∀ l, l < 64 → t.rd (rHP_WIN_RX l) = if s.headLane l = true then winWord (winBlocks s (cHP l 4)) s.win.ms (portCap s l) else 0#32) ∧
        (∀ l, l < 64 → t.rd (rHP_WIN_TX l) = if s.headLane l = true then winWord (winBlocks s (cHP l 5)) s.win.ms (portCap s l) else 0#32) ∧
        ∀ n c, n < 4 → c < 512 → let v := if s.fld (fLINE_MODE_IOP n) = 0 then smGet (fun _ => (0, 0)) s.win.clients (512 * n + c)
            else ((cl.find? fun e => e.1 == n && e.2.1 == c).map fun e => e.2.2).getD (0, 0)
          smGet (fun _ => (0#32, 0#32)) t.win.rates (512 * n + c) =
            if c ∈ assignedClients s.rd n then (winWord v.1 s.win.ms (clientCap s n c), winWord v.2 s.win.ms (clientCap s n c)) else (0#32, 0#32)))) ∧
  (∀ blocks ms cap, bits (winWord blocks ms cap).toNat 20 0 = min (2 ^ 21 - 1) (blocks * 64 / (ms * 1000)) ∧
    (bits (winWord blocks ms cap).toNat 31 31 = 1 ↔ cap * ms * 1000 < blocks * 64 * 257)) ∧
  (Does cmdCntWindowRead .cntWindowRead (fun _ _ => True) fun q t ans u => u = t ∧ ∃ b, ans = .done b ∧ b.length = 4 + 8 * fld q.params 4 2 ∧
    fld b 0 4 = t.win.len % 2 ^ 32 ∧ ∀ j, j < fld q.params 4 2 → let n := fld q.params 0 1
      let c := fld q.params 2 2 + j
      let r := smGet (fun _ => (0#32, 0#32)) t.win.rates (512 * n + c)
      fld b (4 + 8 * j) 4 = (if t.fld (fCLIENT_TYPE n c) = 0 then 0 else r.1.toNat) ∧ fld b (8 + 8 * j) 4 = (if t.fld (fCLIENT_TYPE n c) = 0 then 0 else r.2.toNat))

/-- Spec 19. Bytes of the image that nothing has written are open (assumption 12). -/
def Obligations.CallboardAndLifeRecords : Prop :=
  (∀ s : State, (s.cb.input = [] → exec .callboardRecordWritten s = .next (settle s)) ∧
    ∀ r rest, s.cb.input = r :: rest → let k := r.seq.toNat % 8192
      Completes .callboardRecordWritten s fun t => t.cb.input = rest ∧ t.cb.newest = some r.seq ∧ t.cb.seq = s.cb.seq ∧
        (∀ j, smGet (fun _ => none) t.cb.ring j = if j = k then some r else smGet (fun _ => none) s.cb.ring j) ∧
        t.cb.freeze = (if s.cb.freeze.length < 256 then s.cb.freeze ++ [r] else s.cb.freeze) ∧
        (s.cb.freeze.length ≤ 256 → t.fld fCB_STATUS_FREEZE_COUNT = min 256 (s.cb.freeze.length + 1)) ∧
        t.cb.toArchive = (if s.flag fMEM_STATUS_HBM_READY then s.cb.toArchive ++ [r] else s.cb.toArchive) ∧ Counted cCB_RECORDS 1 s t ∧
        (t.flag fCB_STATUS_INT = true ↔ s.flag fCB_STATUS_INT = true ∨ s.fld fCB_CTRL_INT_SEV ≤ r.sev.toNat) ∧
        (r.code.toNat / 256 = 0x0A → t.flag (fINT_STATUS_MEM 0) = true ∧ t.flag (fINT_STATUS_MEM 1) = true) ∧
        OnlyRegs ([rCB_STATUS, rMEM_SFLIP] ++ if r.code.toNat / 256 = 0x0A then [rINT_STATUS 0, rINT_STATUS 1] else []) s t) ∧
  (∀ s : State, (s.cb.toArchive = [] ∨ s.flag fMEM_STATUS_HBM_READY = false → exec .callboardArchiveWrite s = .next (settle s)) ∧
    ∀ r rest, s.cb.toArchive = r :: rest → s.flag fMEM_STATUS_HBM_READY = true → let k := r.seq.toNat % 1048576
      let a := 14336 * (77824 + k / 448) + 32 * (k % 448)
      Completes .callboardArchiveWrite s fun t => t.cb.toArchive = rest ∧ smGet (fun _ => none) t.cb.archive k = some r ∧
        t.flag fCB_STATUS_ARCHIVE = true ∧ t.mem = (hbmWrite a r.bytes s).mem ∧ r.bytes.length = 32 ∧
        (∀ c, c < a / 28 ∨ (a + 31) / 28 < c → t.cw c = s.cw c) ∧ OnlyRegs [rCB_STATUS, rMEM_FLIP] s t) ∧
  (∀ r : CbRec, fld r.bytes 0 4 = r.seq.toNat ∧ fld r.bytes 4 2 = r.code.toNat ∧ fld r.bytes 6 1 = r.block.toNat ∧ fld r.bytes 8 8 = r.life.toNat ∧
    fld r.bytes 16 8 = r.tod.toNat ∧ fld r.bytes 24 4 = r.p0.toNat ∧ fld r.bytes 28 2 = r.p1.toNat ∧ fld r.bytes 30 2 = r.seq.toNat % 65536) ∧
  (Does cmdCbRead .cbRead (fun _ _ => True) fun q t ans u => u.cb = t.cb ∧ OnlyRegs [] t u ∧ (fld q.params 0 1 = 1 → u = t) ∧
    let first := BitVec.ofNat 32 (fld q.params 4 4)
    let d := fun (r : CbRec) => (r.seq - first).toNat
    ∃ b rs, ans = .done b ∧ b.drop 16 = rs.flatMap CbRec.bytes ∧ fld b 0 4 = t.cbHead.toNat ∧ fld b 12 4 = rs.length ∧ rs.length ≤ fld q.params 1 1 ∧
      (fld q.params 0 1 = 1 → rs = (t.cb.freeze.drop (fld q.params 4 4)).take (fld q.params 1 1)) ∧
      (fld q.params 0 1 = 0 → rs.Pairwise (fun x y => d x < d y) ∧ (newerSeq first t.cbHead = true → rs = []) ∧
        ∀ r ∈ rs, d r ≤ (t.cbHead - first).toNat ∧ (r ∈ cbList t.cb.ring ∨ r ∈ cbList t.cb.archive))) ∧
  (∀ s : State, (s.firmware = false → exec .lifeStoreWrite s = .next (settle s)) ∧
    (∀ i, s.firmware = true → s.store.writing = some i → Completes .lifeStoreWrite s fun t => t.store = { s.store with due := true } ∧ t.regs = s.regs) ∧
    (s.firmware = true → s.store.writing = none → Completes .lifeStoreWrite s fun t => t.regs = s.regs ∧ t.perm = s.perm ∧
      t.store = { s.store with writing := some { lifeNow s with seq := s.store.cur.seq + 1 }, due := false })) ∧
  (∀ s : State, (s.store.writing = none → exec .lifeStoreWriteComplete s = .next (settle s)) ∧
    ∀ i, s.store.writing = some i → Completes .lifeStoreWriteComplete s fun t => t.store.flash = i ∧ t.store.cur.seq = i.seq ∧ t.store.due = false ∧
      t.regs = s.regs ∧ (s.store.due = false → t.store.writing = none) ∧ (s.store.due = true → ∃ j, t.store.writing = some j ∧ j.seq = i.seq + 1)) ∧
  (∀ s : State, let i := lifeNow s
    (lifeBytes s i).length = 65536 ∧ fld (lifeBytes s i) 0 4 = 0x46494C57 ∧ fld (lifeBytes s i) 4 4 = i.seq % 2 ^ 32 ∧
      fld (lifeBytes s i) 8 8 = Config.serial.toNat ∧ fld (lifeBytes s i) 16 8 = s.powered % 2 ^ 64 ∧ fld (lifeBytes s i) 24 4 = i.boots % 2 ^ 32) ∧
  (Does cmdLifeRead .lifeRead (fun _ _ => True) fun q t ans u => u = t ∧
    ans = .done ((lifeBytes t (lifeNow t)).drop (fld q.params 0 4) |>.take (fld q.params 4 2)))

/-- Spec 20. Outcomes of tests and read-back of fuses are operands; the samples of a capture are open (assumption 11). -/
def Obligations.SelfTestLoopbackRepairCapture : Prop :=
  (Does cmdBistRun .bistRun (fun q t => let sc := fld q.params 0 1; bistRefuse sc (if sc = 1 ∨ sc = 2 then fld q.params 1 1 else 0) t = none) fun q t ans u =>
    let sc := fld q.params 0 1
    let ix := if sc = 1 ∨ sc = 2 then fld q.params 1 1 else 0
    u.test = { t.test with bist := some (sc, ix), prior := priorOf sc ix t } ∧ u.flag fTST_STATUS_BIST_RUN = true ∧ u.fld fTST_STATUS_SCOPE = sc ∧
      (∀ i, (i, 0) ∈ priorOf sc ix t → i ∈ u.pwr.queue) ∧ (∀ i ∈ t.pwr.queue, i ∈ u.pwr.queue) ∧ Logged t u [(0x0E01, bSYS, sc + 256 * ix, 0)] ∧
      ∃ op, ans = .accept op ∧ op.targets = [tBist] ∧ op.holds = resTEST :: scopeRes sc ix) ∧
  (∀ r0, Turned cmdBistRun .bistRun (fun q t => let sc := fld q.params 0 1; bistRefuse sc (if sc = 1 ∨ sc = 2 then fld q.params 1 1 else 0) t = some r0) fun _ _ => r0) ∧
  (∀ (sc ix : Nat) (s : State), (s.test.bist.isSome = true → bistRefuse sc ix s = some { status := stBUSY, b0 := 0 }) ∧
    (s.bistFit = false → ∃ r, bistRefuse sc ix s = some r) ∧ (sc = 1 → s.chEngaged ix = true → ∃ r, bistRefuse sc ix s = some r)) ∧
  (let ends := fun (i : Instr) (es : List (Nat × Nat × Nat × Nat × Nat × Nat)) (result : Nat) (r : Ref) (sc : Nat) (s : State) => (∃ u : State,
      u.test.bist = none ∧ u.test.prior = [] ∧ u.flag fTST_STATUS_BIST_RUN = false ∧ u.fld fTST_STATUS_SCOPE = 0 ∧
      (∀ n : Ch, (StartItem.channel n, 0) ∈ s.test.prior → u.fld (fCH n) = 0) ∧ (∀ x : Ch, (StartItem.quad x, 0) ∈ s.test.prior → u.fld (fPD (24 + x)) = 0) ∧
      (∀ d, d ∈ [28, 29, 30] → (StartItem.domain d, 0) ∈ s.test.prior → u.fld (fPD d) = 0) ∧
      (sc = 0 ∨ sc = 4 → u.mrg = Two.all MrgSt.init ∧ u.cb.ring = [] ∧ u.cb.newest = none) ∧
      (sc = 0 ∨ sc = 5 → ∀ c, c < 77824 * 512 → u.cw c = 0#256) ∧
      exec i s = .next (settle (match u.ops.find? fun o => o.targets.contains tBist with
        | some op => endOp op r (le 1 result ++ [0#8] ++ le 2 es.length ++
            es.flatMap fun e => le 1 e.1 ++ le 1 e.2.1 ++ le 1 e.2.2.1 ++ le 1 e.2.2.2.1 ++ le 2 e.2.2.2.2.1 ++ le 2 e.2.2.2.2.2) u
        | none => u)));
    (∀ (es : List (Nat × Nat × Nat × Nat × Nat × Nat)) (sc ix : Nat) (s : State), s.test.bist = some (sc, ix) →
      (s.bistReady = true → ends (.bistComplete es) (es.take 64) (if ∃ e ∈ es.take 64, e.2.2.2.1 = 1 then 1 else 0) { status := stOK } sc s) ∧
      ends .bistAbort [] 2 { status := stWRONG_STATE } sc s) ∧
    (∀ (es : List (Nat × Nat × Nat × Nat × Nat × Nat)) (s : State), (s.bistReady = false → exec (.bistComplete es) s = .next (settle s)) ∧
      (s.test.bist = none → exec .bistAbort s = .next (settle s)))) ∧
  (Does cmdLoopbackSet .loopbackSet (fun q t => loopRefuse (fld q.params 0 1) (fld q.params 1 1) t = none) fun q t ans u => let d := fld q.params 0 1
    let x := fld q.params 1 1
    ans = .done [] ∧ (d = 0 → u.fld (fHL_LOOP_DEPTH x) = 0 ∧ (x < 4 → u.fld (fTST_LOOP_DEPTH x) = 0)) ∧
      (1 ≤ d → d ≤ 3 → u.fld (fHL_LOOP_DEPTH x) = d ∧ OnlyRegs [rHL_LOOP x] t u ∧ Logged t u [(0x0E03, bLane x, d + 256 * x + 65536, 0)]) ∧
      (4 ≤ d → u.fld (fTST_LOOP_DEPTH x) = d ∧ u.fld (fTST_LOOP_LOOP_ATTEN x) = if d = 6 then fld q.params 2 1 else 0)) ∧
  (∀ r0, Turned cmdLoopbackSet .loopbackSet (fun q t => loopRefuse (fld q.params 0 1) (fld q.params 1 1) t = some r0) fun _ _ => r0) ∧
  (∀ (d x : Nat) (s : State), loopRefuse 0 x s = none ∧ (1 ≤ d → d ≤ 3 → s.laneSt x ≠ 4 → loopRefuse d x s = some { status := stWRONG_STATE }) ∧
    (4 ≤ d → s.active x = false → loopRefuse d x s = some { status := stWRONG_STATE }) ∧
    (4 ≤ d → s.active x = true → s.fld (fLINE_MODE_IOP x) = 0 → (s.memberOf x).isSome = true → loopRefuse d x s = some { status := stCONFLICT, b1 := bMRG }) ∧
    (4 ≤ d → s.active x = true → s.fld (fLINE_MODE_IOP x) = 0 → s.memberOf x = none → s.fld (fHUB_CTRL_ROLE x) ≠ 0 →
      loopRefuse d x s = some { status := stCONFLICT, b1 := bCH x })) ∧
  (let may := fun (n : Nat) (t : State) => t.active n = true ∧ t.fld (fHUB_CTRL_ROLE n) = 0 ∧ t.fld (fLINE_MODE_IOP n) = 0;
    (Does cmdPatternSet .patternSet (fun q t => may (fld q.params 0 1) t ∧ (fld q.params 1 1 = 0 ∨ anySlot t.rd (fld q.params 0 1) = false)) fun q t ans u =>
      let n := fld q.params 0 1
      let v := fld q.params 1 1
      let lost := bit v 1 = false ∧ t.flag (fTST_PAT_LOCK n) = true
      ans = .done [] ∧ u.flag (fTST_PAT_GEN n) = bit v 0 ∧ u.flag (fTST_PAT_CHK n) = bit v 1 ∧ u.flag (fTST_PAT_LOCK n) = (bit v 1 && t.flag (fTST_PAT_LOCK n)) ∧
        OnlyRegs [rTST_PAT n] t u ∧ (lost → Logged t u [(0x0E06, bCH n, 0, 0)]) ∧ (¬ lost → u.cb = t.cb)) ∧
    (Turned cmdPatternSet .patternSet (fun q t => ¬ may (fld q.params 0 1) t) fun _ _ => { status := stWRONG_STATE }) ∧
    (Turned cmdPatternSet .patternSet (fun q t => may (fld q.params 0 1) t ∧ fld q.params 1 1 ≠ 0 ∧ anySlot t.rd (fld q.params 0 1) = true) fun q _ =>
      { status := stCONFLICT, b1 := bCH (fld q.params 0 1) })) ∧
  (∀ (n : Ch) (s : State), (s.ready = true → Completes (.patErrRead n) s fun t => t.out.data = s.rd (rTST_PAT_ERR n) ∧
      t.rd (rTST_PAT_ERR n) = resetWord (rTST_PAT_ERR n) ∧ OnlyRegs [rTST_PAT_ERR n] s t) ∧
    (s.ready = false → exec (.patErrRead n) s = .next (settle (put 0#32 s)))) ∧
  (∀ blown, let has := fun (q : Request) (t : State) (fuse : Bool) => (t.test.repairs.any fun r =>
        r.store == fld q.params 1 1 && r.array == fld q.params 2 2 && r.what == fld q.params 4 2 && r.fuse == fuse);
    let left := fun (q : Request) (t : State) => sparesLeft t (fld q.params 1 1) (fld q.params 2 2) (bit (fld q.params 4 2) 15);
    let rest := fun (q : Request) (t : State) => (t.test.repairs.filter fun r => !(r.store == fld q.params 1 1 && r.array == fld q.params 2 2 && r.what == fld q.params 4 2));
    let spent := fun (t u : State) => u.store.cur.fuses = t.store.cur.fuses + 1 ∧ u.store.due = true ∧ u.fld fTST_STATUS_FUSES_LEFT = 256 - (t.store.cur.fuses + 1) ∧
      OnlyRegs [rTST_STATUS] t u;
    let told := fun (q : Request) (t : State) (ans : Answer) (u : State) => ans = .done (le 2 u.fusesLeft ++ le 1 (left q u)) ∧
      Logged t u [(0x0E05, bSYS, fld q.params 0 1 + 16 * fld q.params 1 1 + 65536 * fld q.params 2 2, fld q.params 4 2)];
    let on := fun (q : Request) (t : State) => t.storeOn (fld q.params 1 1) = true;
    (Does (cmdRepairApply blown) (fun q => .repairApply q blown) (fun q t => fld q.params 0 1 = 0 ∧ on q t ∧ has q t false = false ∧ has q t true = false ∧ left q t ≠ 0)
      fun q t ans u => told q t ans u ∧ OnlyRegs [] t u ∧
        u.test = { t.test with repairs := t.test.repairs ++ [⟨fld q.params 1 1, fld q.params 2 2, fld q.params 4 2, false⟩] }) ∧
    (Does (cmdRepairApply blown) (fun q => .repairApply q blown) (fun q t => fld q.params 0 1 = 1 ∧ on q t ∧ has q t true = false ∧
        (has q t false = true ∨ left q t ≠ 0) ∧ t.fusesLeft ≠ 0)
      fun q t ans u => spent t u ∧ (blown = false → ans = .fail { status := stHW_FAULT } ∧ u.test = t.test) ∧ (blown = true → told q t ans u ∧
        u.test = { t.test with repairs := rest q t ++ [⟨fld q.params 1 1, fld q.params 2 2, fld q.params 4 2, true⟩] })) ∧
    (Does (cmdRepairApply blown) (fun q => .repairApply q blown) (fun q t => fld q.params 0 1 = 2 ∧ on q t ∧ has q t false = true)
      fun q t ans u => told q t ans u ∧ OnlyRegs [] t u ∧ u.test = { t.test with repairs := rest q t }) ∧
    (Turned (cmdRepairApply blown) (fun q => .repairApply q blown) (fun q t => ¬ on q t ∨ (fld q.params 0 1 = 2 ∧ has q t false = false))
      fun _ _ => { status := stWRONG_STATE }) ∧
    (Turned (cmdRepairApply blown) (fun q => .repairApply q blown) (fun q t => on q t ∧ ((fld q.params 0 1 = 0 ∧ has q t false = true) ∨
        (fld q.params 0 1 < 2 ∧ has q t true = true))) fun q _ => { status := stCONFLICT, b1 := bStore (fld q.params 1 1) }) ∧
    (Turned (cmdRepairApply blown) (fun q => .repairApply q blown) (fun q t => on q t ∧ has q t true = false ∧
        ((fld q.params 0 1 < 2 ∧ has q t false = false ∧ left q t = 0) ∨ (fld q.params 0 1 = 1 ∧ t.fusesLeft = 0))) fun _ _ => { status := stREFUSED_BUDGET })) ∧
  (let may := fun (q : Request) (t : State) => t.active (fld q.params 0 1) = true ∧ t.bistHolds (resCH (fld q.params 0 1)) = false ∧
      (fld q.params 2 1 = 4 → t.fld (fHUB_CTRL_ROLE (fld q.params 0 1)) = 1 ∧ t.hasGrant (fld q.params 0 1) (fld q.params 4 8) = true);
    (Does cmdCaptureArm .captureArm (fun q t => t.test.cap = none ∧ may q t) fun q t ans u => OnlyRegs [rTST_STATUS] t u ∧ u.flag fTST_STATUS_CAP_ARMED = true ∧
      u.test.nextCap = (t.test.nextCap + 1) % 4096 ∧ u.cb = t.cb ∧ (∃ op, ans = .accept op ∧ op.targets = [tCap] ∧ op.data = t.test.nextCap) ∧
      ∃ a, u.test.cap = some a ∧ a.num = t.test.nextCap ∧ a.cap.ch = fld q.params 0 1 ∧ a.cap.dac = bit (fld q.params 1 1) 0 ∧
        a.cap.dec = bits (fld q.params 1 1) 7 4 ∧ a.cap.kind = fld q.params 2 1 ∧ a.cap.value = fld q.params 4 8 ∧ a.pre = fld q.params 3 1 ∧
        (a.triggered = true ↔ fld q.params 2 1 = 0) ∧ a.granted = false ∧ a.seq0 = t.cb.seq) ∧
    (Turned cmdCaptureArm .captureArm (fun _ t => t.test.cap.isSome = true) fun _ _ => { status := stBUSY, b0 := 0 }) ∧
    (Turned cmdCaptureArm .captureArm (fun q t => t.test.cap = none ∧ ¬ may q t) fun _ _ => { status := stWRONG_STATE })) ∧
  (∀ s : State, (∀ a, s.test.cap = some a → a.triggered = false → s.capDue a = true → Completes .captureTrigger s fun t => t.regs = s.regs ∧ t.cb = s.cb ∧
      ∃ c, t.test = { s.test with cap := some { a with cap := c, triggered := true } } ∧ c.ch = a.cap.ch ∧ c.kind = a.cap.kind ∧ c.trunc = a.cap.trunc ∧
        c.conv = (span 0 4).map (fun k => s.rd (rCONV_STATUS a.cap.ch k)) ∧ (a.pre = 0 → c.life = s.life)) ∧
    (∀ a, s.test.cap = some a → a.triggered = true ∨ s.capDue a = false → exec .captureTrigger s = .next (settle s)) ∧
    (∀ a, s.test.cap = some a → (a.cap.kind = 4 → s.capDue a = a.granted) ∧ (a.cap.kind = 0 → s.capDue a = false) ∧ (a.cap.kind = 1 → s.capDue a =
      (s.cb.input ++ cbList s.cb.ring).any fun r => r.code.toNat == a.cap.value % 65536 && r.block.toNat == a.cap.value / 65536 % 256 && newerSeq r.seq a.seq0)) ∧
    (s.test.cap = none → exec .captureTrigger s = .next (settle s) ∧ exec .captureDrained s = .next (settle s)) ∧
    (∀ a, s.test.cap = some a → a.triggered = false → exec .captureDrained s = .next (settle s)) ∧
    (∀ a, s.test.cap = some a → a.triggered = true → let hbm := s.flag fMEM_STATUS_HBM_READY
      ∃ u c, exec .captureDrained s = .next (settle (capNotice a.num c.flags u)) ∧ u.test.cap = none ∧ smGet (fun _ => none) u.test.caps a.num = some c ∧
        c.place = (if hbm then some s.test.nextPlace else none) ∧ c.trunc = a.cap.trunc ∧ c.ch = a.cap.ch ∧
        u.test.nextPlace = (if hbm then (s.test.nextPlace + 1) % 1495 else s.test.nextPlace) ∧ u.flag fTST_STATUS_CAP_ARMED = false ∧
        OnlyRegs [rTST_STATUS] s u ∧ Logged s u [(0x0E04, bSYS, a.num, c.flags)])) ∧
  (∀ (num flags : Nat) (s : State), capNotice num flags s = match s.ops.find? fun o => o.targets.contains tCap with
    | some op => endOp op { status := stOK } (le 2 num ++ le 1 flags) s
    | none => s) ∧
  (∀ c, Does cmdCaptureRead .captureRead (fun q t => smGet (fun _ => none) t.test.caps (fld q.params 0 2) = some c) fun q t ans u => u = t ∧
    ∃ b, ans = .done b ∧ b.length = fld q.params 2 2 ∧ b = c.slice (fld q.params 4 4) (fld q.params 2 2)) ∧
  (Turned cmdCaptureRead .captureRead (fun q t => smGet (fun _ => none) t.test.caps (fld q.params 0 2) = none) fun _ _ => { status := stWRONG_STATE }) ∧
  (∀ a, Does cmdCaptureCancel .captureCancel (fun _ t => t.test.cap = some a) fun _ t ans u => ans = .done [] ∧ (a.triggered = true → u = t) ∧
    (a.triggered = false → ∃ w, u = capNotice a.num 0 w ∧ w.test = { t.test with cap := none } ∧ w.flag fTST_STATUS_CAP_ARMED = false ∧ OnlyRegs [rTST_STATUS] t w)) ∧
  (Turned cmdCaptureCancel .captureCancel (fun _ t => t.test.cap = none) fun _ _ => { status := stWRONG_STATE })

/-- Where the two invariants of every step begin. -/
def Obligations.ResetIsInForm : Prop :=
  State.reset.regsWf ∧ State.reset.Inv

/-- Over all commands. The canonical form is the model's; reset values are those of R67 and assumption 32. -/
def Obligations.StepsKeepTheRegisterMap : Prop :=
  ∀ s t : State, s.regsWf → step s = .next t → t.regsWf

/-- Over all commands (R440: an event that finds 1,024 waiting is dropped; R342: eight timing inputs). -/
def Obligations.StepsKeepTheInvariant : Prop :=
  ∀ s t : State, s.Inv → step s = .next t → t.Inv
end

