-- ==== Sys2Proof/Laws/Code.lean ====
section
/-! SUPPORT. Codes and the interleaver: everything a decoder can answer, and the shape of what it takes and gives. -/

namespace Sys2Proof.Machine

open Sys2Proof

@[simp] theorem span_length (a n : Nat) : (span a n).length = n := by
  induction n generalizing a with
  | zero => rfl
  | succ k ih => simp [span, ih]

theorem mem_span (a n j : Nat) : j ∈ span a n ↔ a ≤ j ∧ j < a + n := by
  induction n generalizing a with
  | zero => simp [span]
  | succ n ih => simp only [span, List.mem_cons, ih]; omega

/-- The iterations answer the first estimate that is a codeword, or else the last one. -/
theorem iterate_cases (c : Qc) (hard : List Byte) (k : Nat) (last : List Byte) (es : List (List Byte)) :
    (∃ pre e post, es = pre ++ e :: post ∧ (∀ x ∈ pre, c.holds x = false) ∧ c.holds e = true ∧
      c.iterate hard k last es = (⟨true, k + pre.length + 1, diffBits hard e⟩, e)) ∨
    ((∀ x ∈ es, c.holds x = false) ∧
      c.iterate hard k last es = (⟨false, k + es.length, diffBits hard (es.getLastD last)⟩, es.getLastD last)) := by
  induction es generalizing k last with
  | nil => exact .inr ⟨by simp, rfl⟩
  | cons e r ih =>
    by_cases he : c.holds e = true
    · exact .inl ⟨[], e, r, rfl, by simp, he, by simp [Qc.iterate, he]⟩
    · have hf : c.holds e = false := by simpa using he
      rcases ih (k + 1) e with ⟨pre, x, post, rfl, hp, hx, h⟩ | ⟨hn, h⟩
      · refine .inl ⟨e :: pre, x, post, rfl, ?_, hx, ?_⟩
        · intro y hy
          rcases List.mem_cons.mp hy with rfl | hy
          · exact hf
          · exact hp y hy
        · rw [Qc.iterate, if_neg he, h, List.length_cons, show k + 1 + pre.length = k + (pre.length + 1) by omega]
      · refine .inr ⟨?_, ?_⟩
        · intro y hy
          rcases List.mem_cons.mp hy with rfl | hy
          · exact hf
          · exact hn y hy
        · rw [Qc.iterate, if_neg he, h, List.length_cons, show k + 1 + r.length = k + (r.length + 1) by omega]
          rw [show (e :: r).getLastD last = r.getLastD e by cases r <;> rfl]

/-- What a decoder gives for good is a codeword (R205). -/
theorem decode_ok (c : Qc) (limit : Nat) (w : Codeword) (h : (c.decode limit w).1.ok = true) : c.holds (c.decode limit w).2 = true := by
  unfold Qc.decode at *
  split at h
  · rename_i hh
    simp [hh]
  · rename_i hh
    simp only [hh, if_false, Bool.false_eq_true]
    rcases iterate_cases c w.hard 0 w.hard (w.est.take limit) with ⟨pre, e, post, -, -, he, hi⟩ | ⟨-, hi⟩
    · rw [hi]; exact he
    · rw [hi] at h; simp at h

/-- A decoder uses no more iterations than it is permitted (R204, R205). -/
theorem decode_iter (c : Qc) (limit : Nat) (w : Codeword) : (c.decode limit w).1.iter ≤ limit := by
  unfold Qc.decode
  split
  · exact Nat.zero_le _
  · have hl : (w.est.take limit).length ≤ limit := by simp
    rcases iterate_cases c w.hard 0 w.hard (w.est.take limit) with ⟨pre, e, post, hs, -, -, hi⟩ | ⟨-, hi⟩
    · rw [hi]
      have := congrArg List.length hs
      simp only [List.length_append, List.length_cons] at this
      show 0 + pre.length + 1 ≤ limit
      omega
    · rw [hi]
      show 0 + (w.est.take limit).length ≤ limit
      omega

/-- Hard decisions that are a codeword are given out as they are (R205). -/
theorem decode_hard (c : Qc) (limit : Nat) (w : Codeword) (h : c.holds w.hard = true) : c.decode limit w = (⟨true, 0, 0⟩, w.hard) := by
  simp [Qc.decode, h]

/-- Bits are dealt to as many subcarriers as there are (R203). -/
@[simp] theorem dealt_length (n : Nat) (bits : List Bool) : (dealt n bits).length = n := by simp [dealt]

@[simp] theorem pointLanes_length (low : Bool) (nsc : Nat) (frames : List (List Byte)) : (pointLanes low nsc frames).length = nsc := dealt_length _ _

end Sys2Proof.Machine
end

