-- ==== Sys2Proof/Laws/Sparse.lean ====
section
/-! SUPPORT. Sparse storage: what is read after a write, and that every operation keeps the canonical form. -/

namespace Sys2Proof.Machine

variable {α : Type}

/-! ### Reading after writing -/

theorem smLookup_smPut_same (m : SMap α) (i : Nat) (v : α) : smLookup (smPut m i v) i = some v := by
  induction m with
  | nil => simp [smPut, smLookup]
  | cons e r ih =>
    obtain ⟨k, w⟩ := e
    unfold smPut
    split
    · simp [smLookup]
    · split
      · simp [smLookup]
      · rename_i h; simp [smLookup, h, ih]

theorem smLookup_smPut_other (m : SMap α) (i j : Nat) (v : α) (h : j ≠ i) : smLookup (smPut m i v) j = smLookup m j := by
  induction m with
  | nil => simp [smPut, smLookup, h]
  | cons e r ih =>
    obtain ⟨k, w⟩ := e
    unfold smPut
    split
    · simp [smLookup, h]
    · split
      · rename_i _ hk; subst hk; simp [smLookup, h]
      · simp [smLookup, ih]

theorem smLookup_smDel_same (m : SMap α) (i : Nat) : smLookup (smDel m i) i = none := by
  induction m with
  | nil => rfl
  | cons e r ih =>
    obtain ⟨k, w⟩ := e
    unfold smDel
    split
    · exact ih
    · rename_i h; simp [smLookup, h, ih]

theorem smLookup_smDel_other (m : SMap α) (i j : Nat) (h : j ≠ i) : smLookup (smDel m i) j = smLookup m j := by
  induction m with
  | nil => rfl
  | cons e r ih =>
    obtain ⟨k, w⟩ := e
    unfold smDel
    split
    · rename_i hk; subst hk; simp [smLookup, h, ih]
    · simp [smLookup, ih]

/-- A key reads as the value written under it. -/
@[simp] theorem smGet_smSet_same [DecidableEq α] (d : Nat → α) (m : SMap α) (i : Nat) (v : α) :
    smGet d (smSet d m i v) i = v := by
  unfold smSet smGet
  split
  · rename_i h; simp [smLookup_smDel_same, h]
  · simp [smLookup_smPut_same]

/-- A write leaves every other key as it was. -/
theorem smGet_smSet_other [DecidableEq α] (d : Nat → α) (m : SMap α) (i j : Nat) (v : α) (h : j ≠ i) :
    smGet d (smSet d m i v) j = smGet d m j := by
  unfold smSet smGet
  split
  · rw [smLookup_smDel_other _ _ _ h]
  · rw [smLookup_smPut_other _ _ _ _ h]

/-- What a key reads as after a write. -/
theorem smGet_smSet [DecidableEq α] (d : Nat → α) (m : SMap α) (i j : Nat) (v : α) :
    smGet d (smSet d m i v) j = if j = i then v else smGet d m j := by
  split
  · rename_i h; subst h; simp
  · rename_i h; exact smGet_smSet_other d m i j v h

/-- A removed key reads as an unlisted one. -/
@[simp] theorem smGet_smDel_same (d : Nat → α) (m : SMap α) (i : Nat) : smGet d (smDel m i) i = d i := by
  simp [smGet, smLookup_smDel_same]

/-- A removal leaves every other key as it was. -/
theorem smGet_smDel_other (d : Nat → α) (m : SMap α) (i j : Nat) (h : j ≠ i) : smGet d (smDel m i) j = smGet d m j := by
  simp [smGet, smLookup_smDel_other _ _ _ h]

@[simp] theorem smGet_nil (d : Nat → α) (i : Nat) : smGet d [] i = d i := rfl

/-! ### The canonical form -/

theorem smSorted_weaken (m : SMap α) (a b : Nat) (h : a ≤ b) (hm : smSorted (some b) m = true) : smSorted (some a) m = true := by
  cases m with
  | nil => rfl
  | cons e r =>
    obtain ⟨k, w⟩ := e
    simp only [smSorted, Bool.and_eq_true, decide_eq_true_eq] at hm ⊢
    exact ⟨by omega, hm.2⟩

theorem smSorted_none (m : SMap α) (a : Nat) (hm : smSorted (some a) m = true) : smSorted none m = true := by
  cases m with
  | nil => rfl
  | cons e r =>
    obtain ⟨k, w⟩ := e
    simp only [smSorted, Bool.and_eq_true] at hm ⊢
    exact hm.2

theorem smSorted_smPut_some (m : SMap α) (b i : Nat) (v : α) (hb : b < i) (hm : smSorted (some b) m = true) :
    smSorted (some b) (smPut m i v) = true := by
  induction m generalizing b with
  | nil => simp [smPut, smSorted, hb]
  | cons e r ih =>
    obtain ⟨k, w⟩ := e
    simp only [smSorted, Bool.and_eq_true, decide_eq_true_eq] at hm
    unfold smPut
    split
    · rename_i h; simp [smSorted, hb, h, hm.2]
    · split
      · rename_i _ h; subst h; simp [smSorted, hb, hm.2]
      · rename_i h1 h2; simp [smSorted, hm.1, ih k (by omega) hm.2]

theorem smSorted_smPut (m : SMap α) (i : Nat) (v : α) (hm : smSorted none m = true) : smSorted none (smPut m i v) = true := by
  cases m with
  | nil => rfl
  | cons e r =>
    obtain ⟨k, w⟩ := e
    simp only [smSorted] at hm
    unfold smPut
    split
    · rename_i h; simp [smSorted, h, hm]
    · split
      · rename_i _ h; subst h; simpa [smSorted] using hm
      · rename_i h1 h2; simpa [smSorted] using smSorted_smPut_some r k i v (by omega) hm

theorem smSorted_smDel_some (m : SMap α) (b i : Nat) (hm : smSorted (some b) m = true) : smSorted (some b) (smDel m i) = true := by
  induction m generalizing b with
  | nil => rfl
  | cons e r ih =>
    obtain ⟨k, w⟩ := e
    simp only [smSorted, Bool.and_eq_true, decide_eq_true_eq] at hm
    unfold smDel
    split
    · exact ih b (smSorted_weaken r b k (by omega) hm.2)
    · simp [smSorted, hm.1, ih k hm.2]

theorem smSorted_smDel (m : SMap α) (i : Nat) (hm : smSorted none m = true) : smSorted none (smDel m i) = true := by
  cases m with
  | nil => rfl
  | cons e r =>
    obtain ⟨k, w⟩ := e
    simp only [smSorted] at hm
    unfold smDel
    split
    · exact smSorted_none _ k (smSorted_smDel_some r k i hm)
    · simpa [smSorted] using smSorted_smDel_some r k i hm

theorem smLean_smPut [DecidableEq α] (d : Nat → α) (m : SMap α) (i : Nat) (v : α) (hv : v ≠ d i) (hm : smLean d m = true) :
    smLean d (smPut m i v) = true := by
  induction m with
  | nil => simp [smPut, smLean, hv]
  | cons e r ih =>
    obtain ⟨k, w⟩ := e
    simp only [smLean, List.all_cons, Bool.and_eq_true] at hm ih ⊢
    unfold smPut
    split
    · simp only [List.all_cons, Bool.and_eq_true]; exact ⟨by simp [hv], hm.1, hm.2⟩
    · split
      · rename_i _ h; subst h; simp only [List.all_cons, Bool.and_eq_true]; exact ⟨by simp [hv], hm.2⟩
      · simp only [List.all_cons, Bool.and_eq_true]; exact ⟨hm.1, ih hm.2⟩

theorem smLean_smDel [DecidableEq α] (d : Nat → α) (m : SMap α) (i : Nat) (hm : smLean d m = true) : smLean d (smDel m i) = true := by
  induction m with
  | nil => rfl
  | cons e r ih =>
    obtain ⟨k, w⟩ := e
    simp only [smLean, List.all_cons, Bool.and_eq_true] at hm ih ⊢
    unfold smDel
    split
    · exact ih hm.2
    · simp only [List.all_cons, Bool.and_eq_true]; exact ⟨hm.1, ih hm.2⟩

/-- A write keeps the canonical form. -/
theorem smWf_smSet [DecidableEq α] (d : Nat → α) (m : SMap α) (i : Nat) (v : α) (hm : smWf d m = true) : smWf d (smSet d m i v) = true := by
  simp only [smWf, Bool.and_eq_true] at hm ⊢
  unfold smSet
  split
  · exact ⟨smSorted_smDel m i hm.1, smLean_smDel d m i hm.2⟩
  · rename_i h; exact ⟨smSorted_smPut m i v hm.1, smLean_smPut d m i v h hm.2⟩

/-- A removal keeps the canonical form. -/
theorem smWf_smDel [DecidableEq α] (d : Nat → α) (m : SMap α) (i : Nat) (hm : smWf d m = true) : smWf d (smDel m i) = true := by
  simp only [smWf, Bool.and_eq_true] at hm ⊢
  exact ⟨smSorted_smDel m i hm.1, smLean_smDel d m i hm.2⟩

theorem smSorted_filter_some (p : Nat × α → Bool) (m : SMap α) (b : Nat) (hm : smSorted (some b) m = true) :
    smSorted (some b) (m.filter p) = true := by
  induction m generalizing b with
  | nil => rfl
  | cons e r ih =>
    obtain ⟨k, w⟩ := e
    simp only [smSorted, Bool.and_eq_true, decide_eq_true_eq] at hm
    rw [List.filter_cons]
    split
    · simp [smSorted, hm.1, ih k hm.2]
    · exact ih b (smSorted_weaken r b k (by omega) hm.2)

/-- Leaving entries out keeps the canonical form. -/
theorem smWf_filter [DecidableEq α] (d : Nat → α) (p : Nat × α → Bool) (m : SMap α) (hm : smWf d m = true) : smWf d (m.filter p) = true := by
  simp only [smWf, Bool.and_eq_true] at hm ⊢
  refine ⟨?_, ?_⟩
  · cases m with
    | nil => rfl
    | cons e r =>
      obtain ⟨k, w⟩ := e
      simp only [smSorted] at hm
      rw [List.filter_cons]
      split
      · simpa [smSorted] using smSorted_filter_some p r k hm.1
      · exact smSorted_none _ k (smSorted_filter_some p r k hm.1)
  · have h := hm.2
    simp only [smLean, List.all_eq_true, List.mem_filter] at h ⊢
    intro x hx
    exact h x hx.1

@[simp] theorem smWf_nil [DecidableEq α] (d : Nat → α) : smWf d ([] : SMap α) = true := rfl

end Sys2Proof.Machine
end

