-- ==== Sys2Proof/Laws/State.lean ====
section
/-! SUPPORT. What each update of the state leaves alone: one lemma for each field under each named update, true by
unfolding, so that no later proof unfolds a record update. -/

namespace Sys2Proof.Machine

open Sys2Proof

/-! ### `State.wr` -/

@[simp] theorem State.wr_pending (s : State) (off : Nat) (v : Word) : (s.wr off v).pending = s.pending := rfl
@[simp] theorem State.wr_rl (s : State) (off : Nat) (v : Word) : (s.wr off v).rl = s.rl := rfl
@[simp] theorem State.wr_life (s : State) (off : Nat) (v : Word) : (s.wr off v).life = s.life := rfl
@[simp] theorem State.wr_mbx (s : State) (off : Nat) (v : Word) : (s.wr off v).mbx = s.mbx := rfl
@[simp] theorem State.wr_i2c (s : State) (off : Nat) (v : Word) : (s.wr off v).i2c = s.i2c := rfl
@[simp] theorem State.wr_arrived (s : State) (off : Nat) (v : Word) : (s.wr off v).arrived = s.arrived := rfl
@[simp] theorem State.wr_ops (s : State) (off : Nat) (v : Word) : (s.wr off v).ops = s.ops := rfl
@[simp] theorem State.wr_later (s : State) (off : Nat) (v : Word) : (s.wr off v).later = s.later := rfl
@[simp] theorem State.wr_claims (s : State) (off : Nat) (v : Word) : (s.wr off v).claims = s.claims := rfl
@[simp] theorem State.wr_rehearsals (s : State) (off : Nat) (v : Word) : (s.wr off v).rehearsals = s.rehearsals := rfl
@[simp] theorem State.wr_cb (s : State) (off : Nat) (v : Word) : (s.wr off v).cb = s.cb := rfl
@[simp] theorem State.wr_cnt (s : State) (off : Nat) (v : Word) : (s.wr off v).cnt = s.cnt := rfl
@[simp] theorem State.wr_msix (s : State) (off : Nat) (v : Word) : (s.wr off v).msix = s.msix := rfl
@[simp] theorem State.wr_out (s : State) (off : Nat) (v : Word) : (s.wr off v).out = s.out := rfl
@[simp] theorem State.wr_dvChan (s : State) (off : Nat) (v : Word) : (s.wr off v).dvChan = s.dvChan := rfl
@[simp] theorem State.wr_epDiscards (s : State) (off : Nat) (v : Word) : (s.wr off v).epDiscards = s.epDiscards := rfl
@[simp] theorem State.wr_free (s : State) (off : Nat) (v : Word) : (s.wr off v).free = s.free := rfl
@[simp] theorem State.wr_boot (s : State) (off : Nat) (v : Word) : (s.wr off v).boot = s.boot := rfl
@[simp] theorem State.wr_pwr (s : State) (off : Nat) (v : Word) : (s.wr off v).pwr = s.pwr := rfl
@[simp] theorem State.wr_tim (s : State) (off : Nat) (v : Word) : (s.wr off v).tim = s.tim := rfl
@[simp] theorem State.wr_fab (s : State) (off : Nat) (v : Word) : (s.wr off v).fab = s.fab := rfl
@[simp] theorem State.wr_cph (s : State) (off : Nat) (v : Word) : (s.wr off v).cph = s.cph := rfl
@[simp] theorem State.wr_mon (s : State) (off : Nat) (v : Word) : (s.wr off v).mon = s.mon := rfl
@[simp] theorem State.wr_hgc (s : State) (off : Nat) (v : Word) : (s.wr off v).hgc = s.hgc := rfl
@[simp] theorem State.wr_lanes (s : State) (off : Nat) (v : Word) : (s.wr off v).lanes = s.lanes := rfl
@[simp] theorem State.wr_eng (s : State) (off : Nat) (v : Word) : (s.wr off v).eng = s.eng := rfl
@[simp] theorem State.wr_line (s : State) (off : Nat) (v : Word) : (s.wr off v).line = s.line := rfl
@[simp] theorem State.wr_halves (s : State) (off : Nat) (v : Word) : (s.wr off v).halves = s.halves := rfl
@[simp] theorem State.wr_fec (s : State) (off : Nat) (v : Word) : (s.wr off v).fec = s.fec := rfl
@[simp] theorem State.wr_oh (s : State) (off : Nat) (v : Word) : (s.wr off v).oh = s.oh := rfl
@[simp] theorem State.wr_mrg (s : State) (off : Nat) (v : Word) : (s.wr off v).mrg = s.mrg := rfl
@[simp] theorem State.wr_perm (s : State) (off : Nat) (v : Word) : (s.wr off v).perm = s.perm := rfl
@[simp] theorem State.wr_mem (s : State) (off : Nat) (v : Word) : (s.wr off v).mem = s.mem := rfl
@[simp] theorem State.wr_pat (s : State) (off : Nat) (v : Word) : (s.wr off v).pat = s.pat := rfl
@[simp] theorem State.wr_hub (s : State) (off : Nat) (v : Word) : (s.wr off v).hub = s.hub := rfl
@[simp] theorem State.wr_leaf (s : State) (off : Nat) (v : Word) : (s.wr off v).leaf = s.leaf := rfl
@[simp] theorem State.wr_store (s : State) (off : Nat) (v : Word) : (s.wr off v).store = s.store := rfl
@[simp] theorem State.wr_win (s : State) (off : Nat) (v : Word) : (s.wr off v).win = s.win := rfl
@[simp] theorem State.wr_test (s : State) (off : Nat) (v : Word) : (s.wr off v).test = s.test := rfl
@[simp] theorem State.wr_banks (s : State) (off : Nat) (v : Word) : (s.wr off v).banks = s.banks := rfl

/-! ### `State.setF` -/

@[simp] theorem State.setF_pending (s : State) (f : Fld) (v : Nat) : (s.setF f v).pending = s.pending := rfl
@[simp] theorem State.setF_rl (s : State) (f : Fld) (v : Nat) : (s.setF f v).rl = s.rl := rfl
@[simp] theorem State.setF_life (s : State) (f : Fld) (v : Nat) : (s.setF f v).life = s.life := rfl
@[simp] theorem State.setF_mbx (s : State) (f : Fld) (v : Nat) : (s.setF f v).mbx = s.mbx := rfl
@[simp] theorem State.setF_i2c (s : State) (f : Fld) (v : Nat) : (s.setF f v).i2c = s.i2c := rfl
@[simp] theorem State.setF_arrived (s : State) (f : Fld) (v : Nat) : (s.setF f v).arrived = s.arrived := rfl
@[simp] theorem State.setF_ops (s : State) (f : Fld) (v : Nat) : (s.setF f v).ops = s.ops := rfl
@[simp] theorem State.setF_later (s : State) (f : Fld) (v : Nat) : (s.setF f v).later = s.later := rfl
@[simp] theorem State.setF_claims (s : State) (f : Fld) (v : Nat) : (s.setF f v).claims = s.claims := rfl
@[simp] theorem State.setF_rehearsals (s : State) (f : Fld) (v : Nat) : (s.setF f v).rehearsals = s.rehearsals := rfl
@[simp] theorem State.setF_cb (s : State) (f : Fld) (v : Nat) : (s.setF f v).cb = s.cb := rfl
@[simp] theorem State.setF_cnt (s : State) (f : Fld) (v : Nat) : (s.setF f v).cnt = s.cnt := rfl
@[simp] theorem State.setF_msix (s : State) (f : Fld) (v : Nat) : (s.setF f v).msix = s.msix := rfl
@[simp] theorem State.setF_out (s : State) (f : Fld) (v : Nat) : (s.setF f v).out = s.out := rfl
@[simp] theorem State.setF_dvChan (s : State) (f : Fld) (v : Nat) : (s.setF f v).dvChan = s.dvChan := rfl
@[simp] theorem State.setF_epDiscards (s : State) (f : Fld) (v : Nat) : (s.setF f v).epDiscards = s.epDiscards := rfl
@[simp] theorem State.setF_free (s : State) (f : Fld) (v : Nat) : (s.setF f v).free = s.free := rfl
@[simp] theorem State.setF_boot (s : State) (f : Fld) (v : Nat) : (s.setF f v).boot = s.boot := rfl
@[simp] theorem State.setF_pwr (s : State) (f : Fld) (v : Nat) : (s.setF f v).pwr = s.pwr := rfl
@[simp] theorem State.setF_tim (s : State) (f : Fld) (v : Nat) : (s.setF f v).tim = s.tim := rfl
@[simp] theorem State.setF_fab (s : State) (f : Fld) (v : Nat) : (s.setF f v).fab = s.fab := rfl
@[simp] theorem State.setF_cph (s : State) (f : Fld) (v : Nat) : (s.setF f v).cph = s.cph := rfl
@[simp] theorem State.setF_mon (s : State) (f : Fld) (v : Nat) : (s.setF f v).mon = s.mon := rfl
@[simp] theorem State.setF_hgc (s : State) (f : Fld) (v : Nat) : (s.setF f v).hgc = s.hgc := rfl
@[simp] theorem State.setF_lanes (s : State) (f : Fld) (v : Nat) : (s.setF f v).lanes = s.lanes := rfl
@[simp] theorem State.setF_eng (s : State) (f : Fld) (v : Nat) : (s.setF f v).eng = s.eng := rfl
@[simp] theorem State.setF_line (s : State) (f : Fld) (v : Nat) : (s.setF f v).line = s.line := rfl
@[simp] theorem State.setF_halves (s : State) (f : Fld) (v : Nat) : (s.setF f v).halves = s.halves := rfl
@[simp] theorem State.setF_fec (s : State) (f : Fld) (v : Nat) : (s.setF f v).fec = s.fec := rfl
@[simp] theorem State.setF_oh (s : State) (f : Fld) (v : Nat) : (s.setF f v).oh = s.oh := rfl
@[simp] theorem State.setF_mrg (s : State) (f : Fld) (v : Nat) : (s.setF f v).mrg = s.mrg := rfl
@[simp] theorem State.setF_perm (s : State) (f : Fld) (v : Nat) : (s.setF f v).perm = s.perm := rfl
@[simp] theorem State.setF_mem (s : State) (f : Fld) (v : Nat) : (s.setF f v).mem = s.mem := rfl
@[simp] theorem State.setF_pat (s : State) (f : Fld) (v : Nat) : (s.setF f v).pat = s.pat := rfl
@[simp] theorem State.setF_hub (s : State) (f : Fld) (v : Nat) : (s.setF f v).hub = s.hub := rfl
@[simp] theorem State.setF_leaf (s : State) (f : Fld) (v : Nat) : (s.setF f v).leaf = s.leaf := rfl
@[simp] theorem State.setF_store (s : State) (f : Fld) (v : Nat) : (s.setF f v).store = s.store := rfl
@[simp] theorem State.setF_win (s : State) (f : Fld) (v : Nat) : (s.setF f v).win = s.win := rfl
@[simp] theorem State.setF_test (s : State) (f : Fld) (v : Nat) : (s.setF f v).test = s.test := rfl
@[simp] theorem State.setF_banks (s : State) (f : Fld) (v : Nat) : (s.setF f v).banks = s.banks := rfl

/-! ### `State.setB` -/

@[simp] theorem State.setB_pending (s : State) (f : Fld) (b : Bool) : (s.setB f b).pending = s.pending := rfl
@[simp] theorem State.setB_rl (s : State) (f : Fld) (b : Bool) : (s.setB f b).rl = s.rl := rfl
@[simp] theorem State.setB_life (s : State) (f : Fld) (b : Bool) : (s.setB f b).life = s.life := rfl
@[simp] theorem State.setB_mbx (s : State) (f : Fld) (b : Bool) : (s.setB f b).mbx = s.mbx := rfl
@[simp] theorem State.setB_i2c (s : State) (f : Fld) (b : Bool) : (s.setB f b).i2c = s.i2c := rfl
@[simp] theorem State.setB_arrived (s : State) (f : Fld) (b : Bool) : (s.setB f b).arrived = s.arrived := rfl
@[simp] theorem State.setB_ops (s : State) (f : Fld) (b : Bool) : (s.setB f b).ops = s.ops := rfl
@[simp] theorem State.setB_later (s : State) (f : Fld) (b : Bool) : (s.setB f b).later = s.later := rfl
@[simp] theorem State.setB_claims (s : State) (f : Fld) (b : Bool) : (s.setB f b).claims = s.claims := rfl
@[simp] theorem State.setB_rehearsals (s : State) (f : Fld) (b : Bool) : (s.setB f b).rehearsals = s.rehearsals := rfl
@[simp] theorem State.setB_cb (s : State) (f : Fld) (b : Bool) : (s.setB f b).cb = s.cb := rfl
@[simp] theorem State.setB_cnt (s : State) (f : Fld) (b : Bool) : (s.setB f b).cnt = s.cnt := rfl
@[simp] theorem State.setB_msix (s : State) (f : Fld) (b : Bool) : (s.setB f b).msix = s.msix := rfl
@[simp] theorem State.setB_out (s : State) (f : Fld) (b : Bool) : (s.setB f b).out = s.out := rfl
@[simp] theorem State.setB_dvChan (s : State) (f : Fld) (b : Bool) : (s.setB f b).dvChan = s.dvChan := rfl
@[simp] theorem State.setB_epDiscards (s : State) (f : Fld) (b : Bool) : (s.setB f b).epDiscards = s.epDiscards := rfl
@[simp] theorem State.setB_free (s : State) (f : Fld) (b : Bool) : (s.setB f b).free = s.free := rfl
@[simp] theorem State.setB_boot (s : State) (f : Fld) (b : Bool) : (s.setB f b).boot = s.boot := rfl
@[simp] theorem State.setB_pwr (s : State) (f : Fld) (b : Bool) : (s.setB f b).pwr = s.pwr := rfl
@[simp] theorem State.setB_tim (s : State) (f : Fld) (b : Bool) : (s.setB f b).tim = s.tim := rfl
@[simp] theorem State.setB_fab (s : State) (f : Fld) (b : Bool) : (s.setB f b).fab = s.fab := rfl
@[simp] theorem State.setB_cph (s : State) (f : Fld) (b : Bool) : (s.setB f b).cph = s.cph := rfl
@[simp] theorem State.setB_mon (s : State) (f : Fld) (b : Bool) : (s.setB f b).mon = s.mon := rfl
@[simp] theorem State.setB_hgc (s : State) (f : Fld) (b : Bool) : (s.setB f b).hgc = s.hgc := rfl
@[simp] theorem State.setB_lanes (s : State) (f : Fld) (b : Bool) : (s.setB f b).lanes = s.lanes := rfl
@[simp] theorem State.setB_eng (s : State) (f : Fld) (b : Bool) : (s.setB f b).eng = s.eng := rfl
@[simp] theorem State.setB_line (s : State) (f : Fld) (b : Bool) : (s.setB f b).line = s.line := rfl
@[simp] theorem State.setB_halves (s : State) (f : Fld) (b : Bool) : (s.setB f b).halves = s.halves := rfl
@[simp] theorem State.setB_fec (s : State) (f : Fld) (b : Bool) : (s.setB f b).fec = s.fec := rfl
@[simp] theorem State.setB_oh (s : State) (f : Fld) (b : Bool) : (s.setB f b).oh = s.oh := rfl
@[simp] theorem State.setB_mrg (s : State) (f : Fld) (b : Bool) : (s.setB f b).mrg = s.mrg := rfl
@[simp] theorem State.setB_perm (s : State) (f : Fld) (b : Bool) : (s.setB f b).perm = s.perm := rfl
@[simp] theorem State.setB_mem (s : State) (f : Fld) (b : Bool) : (s.setB f b).mem = s.mem := rfl
@[simp] theorem State.setB_pat (s : State) (f : Fld) (b : Bool) : (s.setB f b).pat = s.pat := rfl
@[simp] theorem State.setB_hub (s : State) (f : Fld) (b : Bool) : (s.setB f b).hub = s.hub := rfl
@[simp] theorem State.setB_leaf (s : State) (f : Fld) (b : Bool) : (s.setB f b).leaf = s.leaf := rfl
@[simp] theorem State.setB_store (s : State) (f : Fld) (b : Bool) : (s.setB f b).store = s.store := rfl
@[simp] theorem State.setB_win (s : State) (f : Fld) (b : Bool) : (s.setB f b).win = s.win := rfl
@[simp] theorem State.setB_test (s : State) (f : Fld) (b : Bool) : (s.setB f b).test = s.test := rfl
@[simp] theorem State.setB_banks (s : State) (f : Fld) (b : Bool) : (s.setB f b).banks = s.banks := rfl

/-! ### `State.bumpF` -/

@[simp] theorem State.bumpF_pending (s : State) (f : Fld) : (s.bumpF f).pending = s.pending := rfl
@[simp] theorem State.bumpF_rl (s : State) (f : Fld) : (s.bumpF f).rl = s.rl := rfl
@[simp] theorem State.bumpF_life (s : State) (f : Fld) : (s.bumpF f).life = s.life := rfl
@[simp] theorem State.bumpF_mbx (s : State) (f : Fld) : (s.bumpF f).mbx = s.mbx := rfl
@[simp] theorem State.bumpF_i2c (s : State) (f : Fld) : (s.bumpF f).i2c = s.i2c := rfl
@[simp] theorem State.bumpF_arrived (s : State) (f : Fld) : (s.bumpF f).arrived = s.arrived := rfl
@[simp] theorem State.bumpF_ops (s : State) (f : Fld) : (s.bumpF f).ops = s.ops := rfl
@[simp] theorem State.bumpF_later (s : State) (f : Fld) : (s.bumpF f).later = s.later := rfl
@[simp] theorem State.bumpF_claims (s : State) (f : Fld) : (s.bumpF f).claims = s.claims := rfl
@[simp] theorem State.bumpF_rehearsals (s : State) (f : Fld) : (s.bumpF f).rehearsals = s.rehearsals := rfl
@[simp] theorem State.bumpF_cb (s : State) (f : Fld) : (s.bumpF f).cb = s.cb := rfl
@[simp] theorem State.bumpF_cnt (s : State) (f : Fld) : (s.bumpF f).cnt = s.cnt := rfl
@[simp] theorem State.bumpF_msix (s : State) (f : Fld) : (s.bumpF f).msix = s.msix := rfl
@[simp] theorem State.bumpF_out (s : State) (f : Fld) : (s.bumpF f).out = s.out := rfl
@[simp] theorem State.bumpF_dvChan (s : State) (f : Fld) : (s.bumpF f).dvChan = s.dvChan := rfl
@[simp] theorem State.bumpF_epDiscards (s : State) (f : Fld) : (s.bumpF f).epDiscards = s.epDiscards := rfl
@[simp] theorem State.bumpF_free (s : State) (f : Fld) : (s.bumpF f).free = s.free := rfl
@[simp] theorem State.bumpF_boot (s : State) (f : Fld) : (s.bumpF f).boot = s.boot := rfl
@[simp] theorem State.bumpF_pwr (s : State) (f : Fld) : (s.bumpF f).pwr = s.pwr := rfl
@[simp] theorem State.bumpF_tim (s : State) (f : Fld) : (s.bumpF f).tim = s.tim := rfl
@[simp] theorem State.bumpF_fab (s : State) (f : Fld) : (s.bumpF f).fab = s.fab := rfl
@[simp] theorem State.bumpF_cph (s : State) (f : Fld) : (s.bumpF f).cph = s.cph := rfl
@[simp] theorem State.bumpF_mon (s : State) (f : Fld) : (s.bumpF f).mon = s.mon := rfl
@[simp] theorem State.bumpF_hgc (s : State) (f : Fld) : (s.bumpF f).hgc = s.hgc := rfl
@[simp] theorem State.bumpF_lanes (s : State) (f : Fld) : (s.bumpF f).lanes = s.lanes := rfl
@[simp] theorem State.bumpF_eng (s : State) (f : Fld) : (s.bumpF f).eng = s.eng := rfl
@[simp] theorem State.bumpF_line (s : State) (f : Fld) : (s.bumpF f).line = s.line := rfl
@[simp] theorem State.bumpF_halves (s : State) (f : Fld) : (s.bumpF f).halves = s.halves := rfl
@[simp] theorem State.bumpF_fec (s : State) (f : Fld) : (s.bumpF f).fec = s.fec := rfl
@[simp] theorem State.bumpF_oh (s : State) (f : Fld) : (s.bumpF f).oh = s.oh := rfl
@[simp] theorem State.bumpF_mrg (s : State) (f : Fld) : (s.bumpF f).mrg = s.mrg := rfl
@[simp] theorem State.bumpF_perm (s : State) (f : Fld) : (s.bumpF f).perm = s.perm := rfl
@[simp] theorem State.bumpF_mem (s : State) (f : Fld) : (s.bumpF f).mem = s.mem := rfl
@[simp] theorem State.bumpF_pat (s : State) (f : Fld) : (s.bumpF f).pat = s.pat := rfl
@[simp] theorem State.bumpF_hub (s : State) (f : Fld) : (s.bumpF f).hub = s.hub := rfl
@[simp] theorem State.bumpF_leaf (s : State) (f : Fld) : (s.bumpF f).leaf = s.leaf := rfl
@[simp] theorem State.bumpF_store (s : State) (f : Fld) : (s.bumpF f).store = s.store := rfl
@[simp] theorem State.bumpF_win (s : State) (f : Fld) : (s.bumpF f).win = s.win := rfl
@[simp] theorem State.bumpF_test (s : State) (f : Fld) : (s.bumpF f).test = s.test := rfl
@[simp] theorem State.bumpF_banks (s : State) (f : Fld) : (s.bumpF f).banks = s.banks := rfl

/-! ### `State.unreg` -/

@[simp] theorem State.unreg_pending (s : State) (off : Nat) : (s.unreg off).pending = s.pending := rfl
@[simp] theorem State.unreg_rl (s : State) (off : Nat) : (s.unreg off).rl = s.rl := rfl
@[simp] theorem State.unreg_life (s : State) (off : Nat) : (s.unreg off).life = s.life := rfl
@[simp] theorem State.unreg_mbx (s : State) (off : Nat) : (s.unreg off).mbx = s.mbx := rfl
@[simp] theorem State.unreg_i2c (s : State) (off : Nat) : (s.unreg off).i2c = s.i2c := rfl
@[simp] theorem State.unreg_arrived (s : State) (off : Nat) : (s.unreg off).arrived = s.arrived := rfl
@[simp] theorem State.unreg_ops (s : State) (off : Nat) : (s.unreg off).ops = s.ops := rfl
@[simp] theorem State.unreg_later (s : State) (off : Nat) : (s.unreg off).later = s.later := rfl
@[simp] theorem State.unreg_claims (s : State) (off : Nat) : (s.unreg off).claims = s.claims := rfl
@[simp] theorem State.unreg_rehearsals (s : State) (off : Nat) : (s.unreg off).rehearsals = s.rehearsals := rfl
@[simp] theorem State.unreg_cb (s : State) (off : Nat) : (s.unreg off).cb = s.cb := rfl
@[simp] theorem State.unreg_cnt (s : State) (off : Nat) : (s.unreg off).cnt = s.cnt := rfl
@[simp] theorem State.unreg_msix (s : State) (off : Nat) : (s.unreg off).msix = s.msix := rfl
@[simp] theorem State.unreg_out (s : State) (off : Nat) : (s.unreg off).out = s.out := rfl
@[simp] theorem State.unreg_dvChan (s : State) (off : Nat) : (s.unreg off).dvChan = s.dvChan := rfl
@[simp] theorem State.unreg_epDiscards (s : State) (off : Nat) : (s.unreg off).epDiscards = s.epDiscards := rfl
@[simp] theorem State.unreg_free (s : State) (off : Nat) : (s.unreg off).free = s.free := rfl
@[simp] theorem State.unreg_boot (s : State) (off : Nat) : (s.unreg off).boot = s.boot := rfl
@[simp] theorem State.unreg_pwr (s : State) (off : Nat) : (s.unreg off).pwr = s.pwr := rfl
@[simp] theorem State.unreg_tim (s : State) (off : Nat) : (s.unreg off).tim = s.tim := rfl
@[simp] theorem State.unreg_fab (s : State) (off : Nat) : (s.unreg off).fab = s.fab := rfl
@[simp] theorem State.unreg_cph (s : State) (off : Nat) : (s.unreg off).cph = s.cph := rfl
@[simp] theorem State.unreg_mon (s : State) (off : Nat) : (s.unreg off).mon = s.mon := rfl
@[simp] theorem State.unreg_hgc (s : State) (off : Nat) : (s.unreg off).hgc = s.hgc := rfl
@[simp] theorem State.unreg_lanes (s : State) (off : Nat) : (s.unreg off).lanes = s.lanes := rfl
@[simp] theorem State.unreg_eng (s : State) (off : Nat) : (s.unreg off).eng = s.eng := rfl
@[simp] theorem State.unreg_line (s : State) (off : Nat) : (s.unreg off).line = s.line := rfl
@[simp] theorem State.unreg_halves (s : State) (off : Nat) : (s.unreg off).halves = s.halves := rfl
@[simp] theorem State.unreg_fec (s : State) (off : Nat) : (s.unreg off).fec = s.fec := rfl
@[simp] theorem State.unreg_oh (s : State) (off : Nat) : (s.unreg off).oh = s.oh := rfl
@[simp] theorem State.unreg_mrg (s : State) (off : Nat) : (s.unreg off).mrg = s.mrg := rfl
@[simp] theorem State.unreg_perm (s : State) (off : Nat) : (s.unreg off).perm = s.perm := rfl
@[simp] theorem State.unreg_mem (s : State) (off : Nat) : (s.unreg off).mem = s.mem := rfl
@[simp] theorem State.unreg_pat (s : State) (off : Nat) : (s.unreg off).pat = s.pat := rfl
@[simp] theorem State.unreg_hub (s : State) (off : Nat) : (s.unreg off).hub = s.hub := rfl
@[simp] theorem State.unreg_leaf (s : State) (off : Nat) : (s.unreg off).leaf = s.leaf := rfl
@[simp] theorem State.unreg_store (s : State) (off : Nat) : (s.unreg off).store = s.store := rfl
@[simp] theorem State.unreg_win (s : State) (off : Nat) : (s.unreg off).win = s.win := rfl
@[simp] theorem State.unreg_test (s : State) (off : Nat) : (s.unreg off).test = s.test := rfl
@[simp] theorem State.unreg_banks (s : State) (off : Nat) : (s.unreg off).banks = s.banks := rfl

/-! ### `countN` -/

@[simp] theorem countN_pending (k n : Nat) (s : State) : (countN k n s).pending = s.pending := rfl
@[simp] theorem countN_regs (k n : Nat) (s : State) : (countN k n s).regs = s.regs := rfl
@[simp] theorem countN_rl (k n : Nat) (s : State) : (countN k n s).rl = s.rl := rfl
@[simp] theorem countN_life (k n : Nat) (s : State) : (countN k n s).life = s.life := rfl
@[simp] theorem countN_mbx (k n : Nat) (s : State) : (countN k n s).mbx = s.mbx := rfl
@[simp] theorem countN_i2c (k n : Nat) (s : State) : (countN k n s).i2c = s.i2c := rfl
@[simp] theorem countN_arrived (k n : Nat) (s : State) : (countN k n s).arrived = s.arrived := rfl
@[simp] theorem countN_ops (k n : Nat) (s : State) : (countN k n s).ops = s.ops := rfl
@[simp] theorem countN_later (k n : Nat) (s : State) : (countN k n s).later = s.later := rfl
@[simp] theorem countN_claims (k n : Nat) (s : State) : (countN k n s).claims = s.claims := rfl
@[simp] theorem countN_rehearsals (k n : Nat) (s : State) : (countN k n s).rehearsals = s.rehearsals := rfl
@[simp] theorem countN_cb (k n : Nat) (s : State) : (countN k n s).cb = s.cb := rfl
@[simp] theorem countN_msix (k n : Nat) (s : State) : (countN k n s).msix = s.msix := rfl
@[simp] theorem countN_out (k n : Nat) (s : State) : (countN k n s).out = s.out := rfl
@[simp] theorem countN_dvChan (k n : Nat) (s : State) : (countN k n s).dvChan = s.dvChan := rfl
@[simp] theorem countN_epDiscards (k n : Nat) (s : State) : (countN k n s).epDiscards = s.epDiscards := rfl
@[simp] theorem countN_free (k n : Nat) (s : State) : (countN k n s).free = s.free := rfl
@[simp] theorem countN_boot (k n : Nat) (s : State) : (countN k n s).boot = s.boot := rfl
@[simp] theorem countN_pwr (k n : Nat) (s : State) : (countN k n s).pwr = s.pwr := rfl
@[simp] theorem countN_tim (k n : Nat) (s : State) : (countN k n s).tim = s.tim := rfl
@[simp] theorem countN_fab (k n : Nat) (s : State) : (countN k n s).fab = s.fab := rfl
@[simp] theorem countN_cph (k n : Nat) (s : State) : (countN k n s).cph = s.cph := rfl
@[simp] theorem countN_mon (k n : Nat) (s : State) : (countN k n s).mon = s.mon := rfl
@[simp] theorem countN_hgc (k n : Nat) (s : State) : (countN k n s).hgc = s.hgc := rfl
@[simp] theorem countN_lanes (k n : Nat) (s : State) : (countN k n s).lanes = s.lanes := rfl
@[simp] theorem countN_eng (k n : Nat) (s : State) : (countN k n s).eng = s.eng := rfl
@[simp] theorem countN_line (k n : Nat) (s : State) : (countN k n s).line = s.line := rfl
@[simp] theorem countN_halves (k n : Nat) (s : State) : (countN k n s).halves = s.halves := rfl
@[simp] theorem countN_fec (k n : Nat) (s : State) : (countN k n s).fec = s.fec := rfl
@[simp] theorem countN_oh (k n : Nat) (s : State) : (countN k n s).oh = s.oh := rfl
@[simp] theorem countN_mrg (k n : Nat) (s : State) : (countN k n s).mrg = s.mrg := rfl
@[simp] theorem countN_perm (k n : Nat) (s : State) : (countN k n s).perm = s.perm := rfl
@[simp] theorem countN_mem (k n : Nat) (s : State) : (countN k n s).mem = s.mem := rfl
@[simp] theorem countN_pat (k n : Nat) (s : State) : (countN k n s).pat = s.pat := rfl
@[simp] theorem countN_hub (k n : Nat) (s : State) : (countN k n s).hub = s.hub := rfl
@[simp] theorem countN_leaf (k n : Nat) (s : State) : (countN k n s).leaf = s.leaf := rfl
@[simp] theorem countN_store (k n : Nat) (s : State) : (countN k n s).store = s.store := rfl
@[simp] theorem countN_win (k n : Nat) (s : State) : (countN k n s).win = s.win := rfl
@[simp] theorem countN_test (k n : Nat) (s : State) : (countN k n s).test = s.test := rfl
@[simp] theorem countN_banks (k n : Nat) (s : State) : (countN k n s).banks = s.banks := rfl

/-! ### `count` -/

@[simp] theorem count_pending (k : Nat) (s : State) : (count k s).pending = s.pending := rfl
@[simp] theorem count_regs (k : Nat) (s : State) : (count k s).regs = s.regs := rfl
@[simp] theorem count_rl (k : Nat) (s : State) : (count k s).rl = s.rl := rfl
@[simp] theorem count_life (k : Nat) (s : State) : (count k s).life = s.life := rfl
@[simp] theorem count_mbx (k : Nat) (s : State) : (count k s).mbx = s.mbx := rfl
@[simp] theorem count_i2c (k : Nat) (s : State) : (count k s).i2c = s.i2c := rfl
@[simp] theorem count_arrived (k : Nat) (s : State) : (count k s).arrived = s.arrived := rfl
@[simp] theorem count_ops (k : Nat) (s : State) : (count k s).ops = s.ops := rfl
@[simp] theorem count_later (k : Nat) (s : State) : (count k s).later = s.later := rfl
@[simp] theorem count_claims (k : Nat) (s : State) : (count k s).claims = s.claims := rfl
@[simp] theorem count_rehearsals (k : Nat) (s : State) : (count k s).rehearsals = s.rehearsals := rfl
@[simp] theorem count_cb (k : Nat) (s : State) : (count k s).cb = s.cb := rfl
@[simp] theorem count_msix (k : Nat) (s : State) : (count k s).msix = s.msix := rfl
@[simp] theorem count_out (k : Nat) (s : State) : (count k s).out = s.out := rfl
@[simp] theorem count_dvChan (k : Nat) (s : State) : (count k s).dvChan = s.dvChan := rfl
@[simp] theorem count_epDiscards (k : Nat) (s : State) : (count k s).epDiscards = s.epDiscards := rfl
@[simp] theorem count_free (k : Nat) (s : State) : (count k s).free = s.free := rfl
@[simp] theorem count_boot (k : Nat) (s : State) : (count k s).boot = s.boot := rfl
@[simp] theorem count_pwr (k : Nat) (s : State) : (count k s).pwr = s.pwr := rfl
@[simp] theorem count_tim (k : Nat) (s : State) : (count k s).tim = s.tim := rfl
@[simp] theorem count_fab (k : Nat) (s : State) : (count k s).fab = s.fab := rfl
@[simp] theorem count_cph (k : Nat) (s : State) : (count k s).cph = s.cph := rfl
@[simp] theorem count_mon (k : Nat) (s : State) : (count k s).mon = s.mon := rfl
@[simp] theorem count_hgc (k : Nat) (s : State) : (count k s).hgc = s.hgc := rfl
@[simp] theorem count_lanes (k : Nat) (s : State) : (count k s).lanes = s.lanes := rfl
@[simp] theorem count_eng (k : Nat) (s : State) : (count k s).eng = s.eng := rfl
@[simp] theorem count_line (k : Nat) (s : State) : (count k s).line = s.line := rfl
@[simp] theorem count_halves (k : Nat) (s : State) : (count k s).halves = s.halves := rfl
@[simp] theorem count_fec (k : Nat) (s : State) : (count k s).fec = s.fec := rfl
@[simp] theorem count_oh (k : Nat) (s : State) : (count k s).oh = s.oh := rfl
@[simp] theorem count_mrg (k : Nat) (s : State) : (count k s).mrg = s.mrg := rfl
@[simp] theorem count_perm (k : Nat) (s : State) : (count k s).perm = s.perm := rfl
@[simp] theorem count_mem (k : Nat) (s : State) : (count k s).mem = s.mem := rfl
@[simp] theorem count_pat (k : Nat) (s : State) : (count k s).pat = s.pat := rfl
@[simp] theorem count_hub (k : Nat) (s : State) : (count k s).hub = s.hub := rfl
@[simp] theorem count_leaf (k : Nat) (s : State) : (count k s).leaf = s.leaf := rfl
@[simp] theorem count_store (k : Nat) (s : State) : (count k s).store = s.store := rfl
@[simp] theorem count_win (k : Nat) (s : State) : (count k s).win = s.win := rfl
@[simp] theorem count_test (k : Nat) (s : State) : (count k s).test = s.test := rfl
@[simp] theorem count_banks (k : Nat) (s : State) : (count k s).banks = s.banks := rfl

/-! ### `put` -/

@[simp] theorem put_pending (w : Word) (s : State) : (put w s).pending = s.pending := rfl
@[simp] theorem put_regs (w : Word) (s : State) : (put w s).regs = s.regs := rfl
@[simp] theorem put_rl (w : Word) (s : State) : (put w s).rl = s.rl := rfl
@[simp] theorem put_life (w : Word) (s : State) : (put w s).life = s.life := rfl
@[simp] theorem put_mbx (w : Word) (s : State) : (put w s).mbx = s.mbx := rfl
@[simp] theorem put_i2c (w : Word) (s : State) : (put w s).i2c = s.i2c := rfl
@[simp] theorem put_arrived (w : Word) (s : State) : (put w s).arrived = s.arrived := rfl
@[simp] theorem put_ops (w : Word) (s : State) : (put w s).ops = s.ops := rfl
@[simp] theorem put_later (w : Word) (s : State) : (put w s).later = s.later := rfl
@[simp] theorem put_claims (w : Word) (s : State) : (put w s).claims = s.claims := rfl
@[simp] theorem put_rehearsals (w : Word) (s : State) : (put w s).rehearsals = s.rehearsals := rfl
@[simp] theorem put_cb (w : Word) (s : State) : (put w s).cb = s.cb := rfl
@[simp] theorem put_cnt (w : Word) (s : State) : (put w s).cnt = s.cnt := rfl
@[simp] theorem put_msix (w : Word) (s : State) : (put w s).msix = s.msix := rfl
@[simp] theorem put_dvChan (w : Word) (s : State) : (put w s).dvChan = s.dvChan := rfl
@[simp] theorem put_epDiscards (w : Word) (s : State) : (put w s).epDiscards = s.epDiscards := rfl
@[simp] theorem put_free (w : Word) (s : State) : (put w s).free = s.free := rfl
@[simp] theorem put_boot (w : Word) (s : State) : (put w s).boot = s.boot := rfl
@[simp] theorem put_pwr (w : Word) (s : State) : (put w s).pwr = s.pwr := rfl
@[simp] theorem put_tim (w : Word) (s : State) : (put w s).tim = s.tim := rfl
@[simp] theorem put_fab (w : Word) (s : State) : (put w s).fab = s.fab := rfl
@[simp] theorem put_cph (w : Word) (s : State) : (put w s).cph = s.cph := rfl
@[simp] theorem put_mon (w : Word) (s : State) : (put w s).mon = s.mon := rfl
@[simp] theorem put_hgc (w : Word) (s : State) : (put w s).hgc = s.hgc := rfl
@[simp] theorem put_lanes (w : Word) (s : State) : (put w s).lanes = s.lanes := rfl
@[simp] theorem put_eng (w : Word) (s : State) : (put w s).eng = s.eng := rfl
@[simp] theorem put_line (w : Word) (s : State) : (put w s).line = s.line := rfl
@[simp] theorem put_halves (w : Word) (s : State) : (put w s).halves = s.halves := rfl
@[simp] theorem put_fec (w : Word) (s : State) : (put w s).fec = s.fec := rfl
@[simp] theorem put_oh (w : Word) (s : State) : (put w s).oh = s.oh := rfl
@[simp] theorem put_mrg (w : Word) (s : State) : (put w s).mrg = s.mrg := rfl
@[simp] theorem put_perm (w : Word) (s : State) : (put w s).perm = s.perm := rfl
@[simp] theorem put_mem (w : Word) (s : State) : (put w s).mem = s.mem := rfl
@[simp] theorem put_pat (w : Word) (s : State) : (put w s).pat = s.pat := rfl
@[simp] theorem put_hub (w : Word) (s : State) : (put w s).hub = s.hub := rfl
@[simp] theorem put_leaf (w : Word) (s : State) : (put w s).leaf = s.leaf := rfl
@[simp] theorem put_store (w : Word) (s : State) : (put w s).store = s.store := rfl
@[simp] theorem put_win (w : Word) (s : State) : (put w s).win = s.win := rfl
@[simp] theorem put_test (w : Word) (s : State) : (put w s).test = s.test := rfl
@[simp] theorem put_banks (w : Word) (s : State) : (put w s).banks = s.banks := rfl

/-! ### `setRl` -/

@[simp] theorem setRl_pending (who off : Nat) (w : Word) (s : State) : (setRl who off w s).pending = s.pending := rfl
@[simp] theorem setRl_regs (who off : Nat) (w : Word) (s : State) : (setRl who off w s).regs = s.regs := rfl
@[simp] theorem setRl_life (who off : Nat) (w : Word) (s : State) : (setRl who off w s).life = s.life := rfl
@[simp] theorem setRl_mbx (who off : Nat) (w : Word) (s : State) : (setRl who off w s).mbx = s.mbx := rfl
@[simp] theorem setRl_i2c (who off : Nat) (w : Word) (s : State) : (setRl who off w s).i2c = s.i2c := rfl
@[simp] theorem setRl_arrived (who off : Nat) (w : Word) (s : State) : (setRl who off w s).arrived = s.arrived := rfl
@[simp] theorem setRl_ops (who off : Nat) (w : Word) (s : State) : (setRl who off w s).ops = s.ops := rfl
@[simp] theorem setRl_later (who off : Nat) (w : Word) (s : State) : (setRl who off w s).later = s.later := rfl
@[simp] theorem setRl_claims (who off : Nat) (w : Word) (s : State) : (setRl who off w s).claims = s.claims := rfl
@[simp] theorem setRl_rehearsals (who off : Nat) (w : Word) (s : State) : (setRl who off w s).rehearsals = s.rehearsals := rfl
@[simp] theorem setRl_cb (who off : Nat) (w : Word) (s : State) : (setRl who off w s).cb = s.cb := rfl
@[simp] theorem setRl_cnt (who off : Nat) (w : Word) (s : State) : (setRl who off w s).cnt = s.cnt := rfl
@[simp] theorem setRl_msix (who off : Nat) (w : Word) (s : State) : (setRl who off w s).msix = s.msix := rfl
@[simp] theorem setRl_out (who off : Nat) (w : Word) (s : State) : (setRl who off w s).out = s.out := rfl
@[simp] theorem setRl_dvChan (who off : Nat) (w : Word) (s : State) : (setRl who off w s).dvChan = s.dvChan := rfl
@[simp] theorem setRl_epDiscards (who off : Nat) (w : Word) (s : State) : (setRl who off w s).epDiscards = s.epDiscards := rfl
@[simp] theorem setRl_free (who off : Nat) (w : Word) (s : State) : (setRl who off w s).free = s.free := rfl
@[simp] theorem setRl_boot (who off : Nat) (w : Word) (s : State) : (setRl who off w s).boot = s.boot := rfl
@[simp] theorem setRl_pwr (who off : Nat) (w : Word) (s : State) : (setRl who off w s).pwr = s.pwr := rfl
@[simp] theorem setRl_tim (who off : Nat) (w : Word) (s : State) : (setRl who off w s).tim = s.tim := rfl
@[simp] theorem setRl_fab (who off : Nat) (w : Word) (s : State) : (setRl who off w s).fab = s.fab := rfl
@[simp] theorem setRl_cph (who off : Nat) (w : Word) (s : State) : (setRl who off w s).cph = s.cph := rfl
@[simp] theorem setRl_mon (who off : Nat) (w : Word) (s : State) : (setRl who off w s).mon = s.mon := rfl
@[simp] theorem setRl_hgc (who off : Nat) (w : Word) (s : State) : (setRl who off w s).hgc = s.hgc := rfl
@[simp] theorem setRl_lanes (who off : Nat) (w : Word) (s : State) : (setRl who off w s).lanes = s.lanes := rfl
@[simp] theorem setRl_eng (who off : Nat) (w : Word) (s : State) : (setRl who off w s).eng = s.eng := rfl
@[simp] theorem setRl_line (who off : Nat) (w : Word) (s : State) : (setRl who off w s).line = s.line := rfl
@[simp] theorem setRl_halves (who off : Nat) (w : Word) (s : State) : (setRl who off w s).halves = s.halves := rfl
@[simp] theorem setRl_fec (who off : Nat) (w : Word) (s : State) : (setRl who off w s).fec = s.fec := rfl
@[simp] theorem setRl_oh (who off : Nat) (w : Word) (s : State) : (setRl who off w s).oh = s.oh := rfl
@[simp] theorem setRl_mrg (who off : Nat) (w : Word) (s : State) : (setRl who off w s).mrg = s.mrg := rfl
@[simp] theorem setRl_perm (who off : Nat) (w : Word) (s : State) : (setRl who off w s).perm = s.perm := rfl
@[simp] theorem setRl_mem (who off : Nat) (w : Word) (s : State) : (setRl who off w s).mem = s.mem := rfl
@[simp] theorem setRl_pat (who off : Nat) (w : Word) (s : State) : (setRl who off w s).pat = s.pat := rfl
@[simp] theorem setRl_hub (who off : Nat) (w : Word) (s : State) : (setRl who off w s).hub = s.hub := rfl
@[simp] theorem setRl_leaf (who off : Nat) (w : Word) (s : State) : (setRl who off w s).leaf = s.leaf := rfl
@[simp] theorem setRl_store (who off : Nat) (w : Word) (s : State) : (setRl who off w s).store = s.store := rfl
@[simp] theorem setRl_win (who off : Nat) (w : Word) (s : State) : (setRl who off w s).win = s.win := rfl
@[simp] theorem setRl_test (who off : Nat) (w : Word) (s : State) : (setRl who off w s).test = s.test := rfl
@[simp] theorem setRl_banks (who off : Nat) (w : Word) (s : State) : (setRl who off w s).banks = s.banks := rfl

/-! ### Replacing one unit -/

@[simp] theorem State.setPwr_pwr (s : State) (x : PwrSt) : (s.setPwr x).pwr = x := rfl
@[simp] theorem State.setPwr_regs (s : State) (x : PwrSt) : (s.setPwr x).regs = s.regs := rfl
@[simp] theorem State.setPwr_pending (s : State) (x : PwrSt) : (s.setPwr x).pending = s.pending := rfl
@[simp] theorem State.setPwr_life (s : State) (x : PwrSt) : (s.setPwr x).life = s.life := rfl
@[simp] theorem State.setPwr_ops (s : State) (x : PwrSt) : (s.setPwr x).ops = s.ops := rfl
@[simp] theorem State.setPwr_claims (s : State) (x : PwrSt) : (s.setPwr x).claims = s.claims := rfl
@[simp] theorem State.setPwr_cb (s : State) (x : PwrSt) : (s.setPwr x).cb = s.cb := rfl
@[simp] theorem State.setPwr_cnt (s : State) (x : PwrSt) : (s.setPwr x).cnt = s.cnt := rfl
@[simp] theorem State.setPwr_free (s : State) (x : PwrSt) : (s.setPwr x).free = s.free := rfl
@[simp] theorem State.setPwr_out (s : State) (x : PwrSt) : (s.setPwr x).out = s.out := rfl
@[simp] theorem State.setBoot_boot (s : State) (x : BootSt) : (s.setBoot x).boot = x := rfl
@[simp] theorem State.setBoot_regs (s : State) (x : BootSt) : (s.setBoot x).regs = s.regs := rfl
@[simp] theorem State.setBoot_pending (s : State) (x : BootSt) : (s.setBoot x).pending = s.pending := rfl
@[simp] theorem State.setBoot_life (s : State) (x : BootSt) : (s.setBoot x).life = s.life := rfl
@[simp] theorem State.setBoot_ops (s : State) (x : BootSt) : (s.setBoot x).ops = s.ops := rfl
@[simp] theorem State.setBoot_claims (s : State) (x : BootSt) : (s.setBoot x).claims = s.claims := rfl
@[simp] theorem State.setBoot_cb (s : State) (x : BootSt) : (s.setBoot x).cb = s.cb := rfl
@[simp] theorem State.setBoot_cnt (s : State) (x : BootSt) : (s.setBoot x).cnt = s.cnt := rfl
@[simp] theorem State.setBoot_free (s : State) (x : BootSt) : (s.setBoot x).free = s.free := rfl
@[simp] theorem State.setBoot_out (s : State) (x : BootSt) : (s.setBoot x).out = s.out := rfl
@[simp] theorem State.setMon_mon (s : State) (x : MonSt) : (s.setMon x).mon = x := rfl
@[simp] theorem State.setMon_regs (s : State) (x : MonSt) : (s.setMon x).regs = s.regs := rfl
@[simp] theorem State.setMon_pending (s : State) (x : MonSt) : (s.setMon x).pending = s.pending := rfl
@[simp] theorem State.setMon_life (s : State) (x : MonSt) : (s.setMon x).life = s.life := rfl
@[simp] theorem State.setMon_ops (s : State) (x : MonSt) : (s.setMon x).ops = s.ops := rfl
@[simp] theorem State.setMon_claims (s : State) (x : MonSt) : (s.setMon x).claims = s.claims := rfl
@[simp] theorem State.setMon_cb (s : State) (x : MonSt) : (s.setMon x).cb = s.cb := rfl
@[simp] theorem State.setMon_cnt (s : State) (x : MonSt) : (s.setMon x).cnt = s.cnt := rfl
@[simp] theorem State.setMon_free (s : State) (x : MonSt) : (s.setMon x).free = s.free := rfl
@[simp] theorem State.setMon_out (s : State) (x : MonSt) : (s.setMon x).out = s.out := rfl
@[simp] theorem State.setMem_mem (s : State) (x : MemSt) : (s.setMem x).mem = x := rfl
@[simp] theorem State.setMem_regs (s : State) (x : MemSt) : (s.setMem x).regs = s.regs := rfl
@[simp] theorem State.setMem_pending (s : State) (x : MemSt) : (s.setMem x).pending = s.pending := rfl
@[simp] theorem State.setMem_life (s : State) (x : MemSt) : (s.setMem x).life = s.life := rfl
@[simp] theorem State.setMem_ops (s : State) (x : MemSt) : (s.setMem x).ops = s.ops := rfl
@[simp] theorem State.setMem_claims (s : State) (x : MemSt) : (s.setMem x).claims = s.claims := rfl
@[simp] theorem State.setMem_cb (s : State) (x : MemSt) : (s.setMem x).cb = s.cb := rfl
@[simp] theorem State.setMem_cnt (s : State) (x : MemSt) : (s.setMem x).cnt = s.cnt := rfl
@[simp] theorem State.setMem_free (s : State) (x : MemSt) : (s.setMem x).free = s.free := rfl
@[simp] theorem State.setMem_out (s : State) (x : MemSt) : (s.setMem x).out = s.out := rfl
@[simp] theorem State.setCph_cph (s : State) (x : CphSt) : (s.setCph x).cph = x := rfl
@[simp] theorem State.setCph_regs (s : State) (x : CphSt) : (s.setCph x).regs = s.regs := rfl
@[simp] theorem State.setCph_pending (s : State) (x : CphSt) : (s.setCph x).pending = s.pending := rfl
@[simp] theorem State.setCph_life (s : State) (x : CphSt) : (s.setCph x).life = s.life := rfl
@[simp] theorem State.setCph_ops (s : State) (x : CphSt) : (s.setCph x).ops = s.ops := rfl
@[simp] theorem State.setCph_claims (s : State) (x : CphSt) : (s.setCph x).claims = s.claims := rfl
@[simp] theorem State.setCph_cb (s : State) (x : CphSt) : (s.setCph x).cb = s.cb := rfl
@[simp] theorem State.setCph_cnt (s : State) (x : CphSt) : (s.setCph x).cnt = s.cnt := rfl
@[simp] theorem State.setCph_free (s : State) (x : CphSt) : (s.setCph x).free = s.free := rfl
@[simp] theorem State.setCph_out (s : State) (x : CphSt) : (s.setCph x).out = s.out := rfl
@[simp] theorem State.setTest_test (s : State) (x : TestSt) : (s.setTest x).test = x := rfl
@[simp] theorem State.setTest_regs (s : State) (x : TestSt) : (s.setTest x).regs = s.regs := rfl
@[simp] theorem State.setTest_pending (s : State) (x : TestSt) : (s.setTest x).pending = s.pending := rfl
@[simp] theorem State.setTest_life (s : State) (x : TestSt) : (s.setTest x).life = s.life := rfl
@[simp] theorem State.setTest_ops (s : State) (x : TestSt) : (s.setTest x).ops = s.ops := rfl
@[simp] theorem State.setTest_claims (s : State) (x : TestSt) : (s.setTest x).claims = s.claims := rfl
@[simp] theorem State.setTest_cb (s : State) (x : TestSt) : (s.setTest x).cb = s.cb := rfl
@[simp] theorem State.setTest_cnt (s : State) (x : TestSt) : (s.setTest x).cnt = s.cnt := rfl
@[simp] theorem State.setTest_free (s : State) (x : TestSt) : (s.setTest x).free = s.free := rfl
@[simp] theorem State.setTest_out (s : State) (x : TestSt) : (s.setTest x).out = s.out := rfl
@[simp] theorem setEng_regs (n : Nat) (x : EngSt) (s : State) : (setEng n x s).regs = s.regs := rfl
@[simp] theorem setEng_pending (n : Nat) (x : EngSt) (s : State) : (setEng n x s).pending = s.pending := rfl
@[simp] theorem setEng_life (n : Nat) (x : EngSt) (s : State) : (setEng n x s).life = s.life := rfl
@[simp] theorem setEng_ops (n : Nat) (x : EngSt) (s : State) : (setEng n x s).ops = s.ops := rfl
@[simp] theorem setEng_claims (n : Nat) (x : EngSt) (s : State) : (setEng n x s).claims = s.claims := rfl
@[simp] theorem setEng_cb (n : Nat) (x : EngSt) (s : State) : (setEng n x s).cb = s.cb := rfl
@[simp] theorem setEng_cnt (n : Nat) (x : EngSt) (s : State) : (setEng n x s).cnt = s.cnt := rfl
@[simp] theorem setEng_free (n : Nat) (x : EngSt) (s : State) : (setEng n x s).free = s.free := rfl
@[simp] theorem setEng_out (n : Nat) (x : EngSt) (s : State) : (setEng n x s).out = s.out := rfl
@[simp] theorem setLine_regs (n : Nat) (x : LineSt) (s : State) : (setLine n x s).regs = s.regs := rfl
@[simp] theorem setLine_pending (n : Nat) (x : LineSt) (s : State) : (setLine n x s).pending = s.pending := rfl
@[simp] theorem setLine_life (n : Nat) (x : LineSt) (s : State) : (setLine n x s).life = s.life := rfl
@[simp] theorem setLine_ops (n : Nat) (x : LineSt) (s : State) : (setLine n x s).ops = s.ops := rfl
@[simp] theorem setLine_claims (n : Nat) (x : LineSt) (s : State) : (setLine n x s).claims = s.claims := rfl
@[simp] theorem setLine_cb (n : Nat) (x : LineSt) (s : State) : (setLine n x s).cb = s.cb := rfl
@[simp] theorem setLine_cnt (n : Nat) (x : LineSt) (s : State) : (setLine n x s).cnt = s.cnt := rfl
@[simp] theorem setLine_free (n : Nat) (x : LineSt) (s : State) : (setLine n x s).free = s.free := rfl
@[simp] theorem setLine_out (n : Nat) (x : LineSt) (s : State) : (setLine n x s).out = s.out := rfl
@[simp] theorem setFec_regs (n : Nat) (x : FecSt) (s : State) : (setFec n x s).regs = s.regs := rfl
@[simp] theorem setFec_pending (n : Nat) (x : FecSt) (s : State) : (setFec n x s).pending = s.pending := rfl
@[simp] theorem setFec_life (n : Nat) (x : FecSt) (s : State) : (setFec n x s).life = s.life := rfl
@[simp] theorem setFec_ops (n : Nat) (x : FecSt) (s : State) : (setFec n x s).ops = s.ops := rfl
@[simp] theorem setFec_claims (n : Nat) (x : FecSt) (s : State) : (setFec n x s).claims = s.claims := rfl
@[simp] theorem setFec_cb (n : Nat) (x : FecSt) (s : State) : (setFec n x s).cb = s.cb := rfl
@[simp] theorem setFec_cnt (n : Nat) (x : FecSt) (s : State) : (setFec n x s).cnt = s.cnt := rfl
@[simp] theorem setFec_free (n : Nat) (x : FecSt) (s : State) : (setFec n x s).free = s.free := rfl
@[simp] theorem setFec_out (n : Nat) (x : FecSt) (s : State) : (setFec n x s).out = s.out := rfl
@[simp] theorem setOh_regs (n : Nat) (x : OhSt) (s : State) : (setOh n x s).regs = s.regs := rfl
@[simp] theorem setOh_pending (n : Nat) (x : OhSt) (s : State) : (setOh n x s).pending = s.pending := rfl
@[simp] theorem setOh_life (n : Nat) (x : OhSt) (s : State) : (setOh n x s).life = s.life := rfl
@[simp] theorem setOh_ops (n : Nat) (x : OhSt) (s : State) : (setOh n x s).ops = s.ops := rfl
@[simp] theorem setOh_claims (n : Nat) (x : OhSt) (s : State) : (setOh n x s).claims = s.claims := rfl
@[simp] theorem setOh_cb (n : Nat) (x : OhSt) (s : State) : (setOh n x s).cb = s.cb := rfl
@[simp] theorem setOh_cnt (n : Nat) (x : OhSt) (s : State) : (setOh n x s).cnt = s.cnt := rfl
@[simp] theorem setOh_free (n : Nat) (x : OhSt) (s : State) : (setOh n x s).free = s.free := rfl
@[simp] theorem setOh_out (n : Nat) (x : OhSt) (s : State) : (setOh n x s).out = s.out := rfl
@[simp] theorem setHub_regs (n : Nat) (x : HubSt) (s : State) : (setHub n x s).regs = s.regs := rfl
@[simp] theorem setHub_pending (n : Nat) (x : HubSt) (s : State) : (setHub n x s).pending = s.pending := rfl
@[simp] theorem setHub_life (n : Nat) (x : HubSt) (s : State) : (setHub n x s).life = s.life := rfl
@[simp] theorem setHub_ops (n : Nat) (x : HubSt) (s : State) : (setHub n x s).ops = s.ops := rfl
@[simp] theorem setHub_claims (n : Nat) (x : HubSt) (s : State) : (setHub n x s).claims = s.claims := rfl
@[simp] theorem setHub_cb (n : Nat) (x : HubSt) (s : State) : (setHub n x s).cb = s.cb := rfl
@[simp] theorem setHub_cnt (n : Nat) (x : HubSt) (s : State) : (setHub n x s).cnt = s.cnt := rfl
@[simp] theorem setHub_free (n : Nat) (x : HubSt) (s : State) : (setHub n x s).free = s.free := rfl
@[simp] theorem setHub_out (n : Nat) (x : HubSt) (s : State) : (setHub n x s).out = s.out := rfl
@[simp] theorem setLeaf_regs (n : Nat) (x : LeafSt) (s : State) : (setLeaf n x s).regs = s.regs := rfl
@[simp] theorem setLeaf_pending (n : Nat) (x : LeafSt) (s : State) : (setLeaf n x s).pending = s.pending := rfl
@[simp] theorem setLeaf_life (n : Nat) (x : LeafSt) (s : State) : (setLeaf n x s).life = s.life := rfl
@[simp] theorem setLeaf_ops (n : Nat) (x : LeafSt) (s : State) : (setLeaf n x s).ops = s.ops := rfl
@[simp] theorem setLeaf_claims (n : Nat) (x : LeafSt) (s : State) : (setLeaf n x s).claims = s.claims := rfl
@[simp] theorem setLeaf_cb (n : Nat) (x : LeafSt) (s : State) : (setLeaf n x s).cb = s.cb := rfl
@[simp] theorem setLeaf_cnt (n : Nat) (x : LeafSt) (s : State) : (setLeaf n x s).cnt = s.cnt := rfl
@[simp] theorem setLeaf_free (n : Nat) (x : LeafSt) (s : State) : (setLeaf n x s).free = s.free := rfl
@[simp] theorem setLeaf_out (n : Nat) (x : LeafSt) (s : State) : (setLeaf n x s).out = s.out := rfl

/-! ### Four and two like things -/

@[simp] theorem Four.get_set_same {α : Type} (v : Four α) (n : Ch) (x : α) : (v.set n x).get n = x := by
  revert n; intro n; match n with | 0 => rfl | 1 => rfl | 2 => rfl | 3 => rfl

theorem Four.get_set_other {α : Type} (v : Four α) (n m : Ch) (x : α) (h : m ≠ n) : (v.set n x).get m = v.get m := by
  match n, m with
  | 0, 0 => exact absurd rfl h
  | 0, 1 => rfl
  | 0, 2 => rfl
  | 0, 3 => rfl
  | 1, 0 => rfl
  | 1, 1 => exact absurd rfl h
  | 1, 2 => rfl
  | 1, 3 => rfl
  | 2, 0 => rfl
  | 2, 1 => rfl
  | 2, 2 => exact absurd rfl h
  | 2, 3 => rfl
  | 3, 0 => rfl
  | 3, 1 => rfl
  | 3, 2 => rfl
  | 3, 3 => exact absurd rfl h

@[simp] theorem Two.get_set_same {α : Type} (v : Two α) (p : Pr) (x : α) : (v.set p x).get p = x := by
  match p with | 0 => rfl | 1 => rfl

/-- A resource number below four is its own place. -/
@[simp] theorem ch4_val (n : Ch) : ch4 n.val = n := by
  match n with | 0 => rfl | 1 => rfl | 2 => rfl | 3 => rfl

/-- A pair slot below two is its own place. -/
@[simp] theorem pr2_val (p : Pr) : pr2 p.val = p := by
  match p with | 0 => rfl | 1 => rfl

end Sys2Proof.Machine
end

