-- ==== Sys2Proof/Laws/Regs.lean ====
section
/-! SUPPORT. Registers and their fields: what reads after a write, and the spec lemmas of the shared register, counter and
callboard operations. -/

namespace Sys2Proof.Machine

open Sys2Proof

/-! ### Fields of a word -/

/-- A field lies within a word. -/
abbrev Fld.ok (f : Fld) : Prop := f.lo + f.w ≤ 32

/-- Two fields of one word share no bit. -/
abbrev Fld.apart (f g : Fld) : Prop := f.lo + f.w ≤ g.lo ∨ g.lo + g.w ≤ f.lo

theorem Fld.mask_bit (f : Fld) (h : f.ok) (i : Nat) : f.mask.getLsbD i = (decide (f.lo ≤ i) && decide (i < f.lo + f.w)) := by
  unfold Fld.mask
  rw [BitVec.getLsbD_shiftLeft, BitVec.getLsbD_ofNat, Nat.testBit_two_pow_sub_one]
  have : f.lo + f.w ≤ 32 := h
  by_cases h1 : f.lo ≤ i
  · by_cases h2 : i < f.lo + f.w
    · have a : i < 32 := by omega
      have b : i - f.lo < 32 := by omega
      have c : i - f.lo < f.w := by omega
      have d : ¬ i < f.lo := by omega
      simp [h1, h2, a, b, c, d]
    · have c : ¬ i - f.lo < f.w := by omega
      simp [h2, c]
  · have d : i < f.lo := by omega
    simp [h1, d]

theorem Fld.put_bit (f : Fld) (h : f.ok) (w : Word) (v i : Nat) :
    (f.put w v).getLsbD i = if f.lo ≤ i ∧ i < f.lo + f.w then v.testBit (i - f.lo) else w.getLsbD i := by
  unfold Fld.put
  rw [BitVec.getLsbD_or, BitVec.getLsbD_and, BitVec.getLsbD_and, BitVec.getLsbD_not, Fld.mask_bit f h,
    BitVec.getLsbD_shiftLeft, BitVec.getLsbD_ofNat]
  have hh : f.lo + f.w ≤ 32 := h
  by_cases h1 : f.lo ≤ i <;> by_cases h2 : i < f.lo + f.w
  · have a : i < 32 := by omega
    have b : i - f.lo < 32 := by omega
    have d : ¬ i < f.lo := by omega
    simp [h1, h2, a, b, d]
  · have : ¬ (f.lo ≤ i ∧ i < f.lo + f.w) := by omega
    by_cases a : i < 32
    · simp [h2, a]
    · have : w.getLsbD i = false := BitVec.getLsbD_of_ge w i (by omega)
      simp [h2, this]
  · have : ¬ (f.lo ≤ i ∧ i < f.lo + f.w) := by omega
    have a : i < 32 := by omega
    simp [h1, a]
  · omega

/-- A field reads as what was put in it, cut to its width. -/
theorem Fld.of_put_same (f : Fld) (h : f.ok) (w : Word) (v : Nat) : f.of (f.put w v) = v % 2 ^ f.w := by
  unfold Fld.of
  have : (f.put w v).extractLsb' f.lo f.w = BitVec.ofNat f.w v := by
    apply BitVec.eq_of_getLsbD_eq
    intro i hi
    rw [BitVec.getLsbD_extractLsb', Fld.put_bit f h, BitVec.getLsbD_ofNat]
    have : f.lo ≤ f.lo + i ∧ f.lo + i < f.lo + f.w := by omega
    simp [this, hi]
  rw [this, BitVec.toNat_ofNat]

/-- Putting one field leaves a field that shares no bit with it. -/
theorem Fld.of_put_apart (f g : Fld) (h : f.ok) (hd : f.apart g) (w : Word) (v : Nat) : g.of (f.put w v) = g.of w := by
  unfold Fld.of
  congr 1
  apply BitVec.eq_of_getLsbD_eq
  intro i hi
  rw [BitVec.getLsbD_extractLsb', BitVec.getLsbD_extractLsb', Fld.put_bit f h]
  have : ¬ (f.lo ≤ g.lo + i ∧ g.lo + i < f.lo + f.w) := by
    rcases hd with hd | hd <;> omega
  simp [this]

/-! ### Registers -/

/-- The word a register reads as after a write. -/
theorem State.rd_wr (s : State) (off j : Nat) (v : Word) : (s.wr off v).rd j = if j = off then v else s.rd j :=
  smGet_smSet resetWord s.regs off j v

@[simp] theorem State.rd_wr_same (s : State) (off : Nat) (v : Word) : (s.wr off v).rd off = v := by simp [State.rd_wr]

theorem State.rd_wr_other (s : State) (off j : Nat) (v : Word) (h : j ≠ off) : (s.wr off v).rd j = s.rd j := by simp [State.rd_wr, h]

@[simp] theorem State.rd_unreg_same (s : State) (off : Nat) : (s.unreg off).rd off = resetWord off :=
  smGet_smDel_same resetWord s.regs off

theorem State.rd_unreg_other (s : State) (off j : Nat) (h : j ≠ off) : (s.unreg off).rd j = s.rd j :=
  smGet_smDel_other resetWord s.regs off j h

theorem State.rd_setF_other (s : State) (f : Fld) (v j : Nat) (h : j ≠ f.reg) : (s.setF f v).rd j = s.rd j :=
  State.rd_wr_other s f.reg j _ h

theorem State.rd_setB_other (s : State) (f : Fld) (b : Bool) (j : Nat) (h : j ≠ f.reg) : (s.setB f b).rd j = s.rd j :=
  State.rd_wr_other s f.reg j _ h

/-- A field reads as what was set, cut to its width. -/
theorem State.fld_setF_same (s : State) (f : Fld) (v : Nat) (h : f.ok) : (s.setF f v).fld f = v % 2 ^ f.w := by
  simp [State.fld, State.setF, Fld.of_put_same f h]

/-- A field of another register stays. -/
theorem State.fld_setF_reg (s : State) (f g : Fld) (v : Nat) (h : g.reg ≠ f.reg) : (s.setF f v).fld g = s.fld g := by
  simp [State.fld, State.rd_setF_other s f v g.reg h]

/-- A field of the same register that shares no bit stays. -/
theorem State.fld_setF_apart (s : State) (f g : Fld) (v : Nat) (h : f.ok) (hd : f.apart g) : (s.setF f v).fld g = s.fld g := by
  by_cases hr : g.reg = f.reg
  · unfold State.fld State.setF
    rw [hr]; simp only [State.rd_wr_same]
    exact Fld.of_put_apart f g h hd _ _
  · exact State.fld_setF_reg s f g v hr

theorem State.fld_setB_same (s : State) (f : Fld) (b : Bool) (h : f.ok) (hw : 0 < f.w) : (s.setB f b).fld f = b2n b := by
  rw [State.setB, State.fld_setF_same s f _ h]
  have : 2 ≤ 2 ^ f.w := by
    calc 2 = 2 ^ 1 := rfl
      _ ≤ 2 ^ f.w := Nat.pow_le_pow_right (by omega) hw
  cases b
  · simp [b2n]
  · exact Nat.mod_eq_of_lt (by simp only [b2n, if_true]; omega)

theorem State.flag_setB_same (s : State) (f : Fld) (b : Bool) (h : f.ok) (hw : 0 < f.w) : (s.setB f b).flag f = b := by
  rw [State.flag, State.fld_setB_same s f b h hw]
  cases b <;> rfl

theorem State.fld_setB_apart (s : State) (f g : Fld) (b : Bool) (h : f.ok) (hd : f.apart g) : (s.setB f b).fld g = s.fld g :=
  State.fld_setF_apart s f g _ h hd

theorem State.fld_setB_reg (s : State) (f g : Fld) (b : Bool) (h : g.reg ≠ f.reg) : (s.setB f b).fld g = s.fld g :=
  State.fld_setF_reg s f g _ h

/-- Operations that leave the register map leave every register. -/
theorem State.rd_congr {s t : State} (h : t.regs = s.regs) (off : Nat) : t.rd off = s.rd off := by simp [State.rd, h]

theorem State.fld_congr {s t : State} (h : t.regs = s.regs) (f : Fld) : t.fld f = s.fld f := by simp [State.fld, State.rd_congr h]

@[simp] theorem rd_countN (k n : Nat) (s : State) (off : Nat) : (countN k n s).rd off = s.rd off := rfl
@[simp] theorem rd_count (k : Nat) (s : State) (off : Nat) : (count k s).rd off = s.rd off := rfl
@[simp] theorem rd_put (w : Word) (s : State) (off : Nat) : (put w s).rd off = s.rd off := rfl
@[simp] theorem rd_setRl (who j : Nat) (w : Word) (s : State) (off : Nat) : (setRl who j w s).rd off = s.rd off := rfl

/-! ### The register map keeps its canonical form -/

theorem State.regsWf_wr (s : State) (off : Nat) (v : Word) (h : s.regsWf) : (s.wr off v).regsWf := smWf_smSet _ _ _ _ h
theorem State.regsWf_setF (s : State) (f : Fld) (v : Nat) (h : s.regsWf) : (s.setF f v).regsWf := s.regsWf_wr _ _ h
theorem State.regsWf_setB (s : State) (f : Fld) (b : Bool) (h : s.regsWf) : (s.setB f b).regsWf := s.regsWf_wr _ _ h
theorem State.regsWf_bumpF (s : State) (f : Fld) (h : s.regsWf) : (s.bumpF f).regsWf := s.regsWf_wr _ _ h
theorem State.regsWf_unreg (s : State) (off : Nat) (h : s.regsWf) : (s.unreg off).regsWf := smWf_smDel _ _ _ h

/-! ### Counters (R431, R432) -/

theorem countN_live (k n j : Nat) (s : State) :
    smGet (fun _ => 0#49) (countN k n s).cnt.live j =
      if j = k then cntAdd (smGet (fun _ => 0#49) s.cnt.live k) n else smGet (fun _ => 0#49) s.cnt.live j :=
  smGet_smSet _ _ _ _ _

/-- The count after n more events, modulo 2^48. -/
theorem cntAdd_count (v : BitVec 49) (n : Nat) : (cntAdd v n).toNat % 2 ^ 48 = (v.toNat % 2 ^ 48 + n) % 2 ^ 48 := by
  unfold cntAdd
  simp only [BitVec.toNat_ofNat]
  split <;> omega

theorem counter_countN (k n : Nat) (s : State) : (countN k n s).counter k = (s.counter k + n) % 2 ^ 48 := by
  unfold State.counter
  rw [countN_live, if_pos rfl, cntAdd_count]

theorem counter_countN_other (k n j : Nat) (s : State) (h : j ≠ k) : (countN k n s).counter j = s.counter j := by
  unfold State.counter
  rw [countN_live, if_neg h]

/-! ### Callboard events (R440) -/

/-- Everything offering an event can do: the sequence number rises by one, and either the input takes the record or, full, the
event is dropped, counted and flagged. -/
theorem offer_cases (code block p0 p1 : Nat) (s : State) :
    (s.cb.input.length < 1024 ∧ ∃ r : CbRec, r.seq = s.cb.seq + 1#32 ∧ r.code = BitVec.ofNat 16 code ∧ r.block = BitVec.ofNat 8 block ∧
        r.p0 = BitVec.ofNat 32 p0 ∧ r.p1 = BitVec.ofNat 16 p1 ∧ r.life = s.life ∧
        offer code block p0 p1 s = { s with cb := { s.cb with seq := s.cb.seq + 1#32, input := s.cb.input ++ [r] } }) ∨
    (1024 ≤ s.cb.input.length ∧
        offer code block p0 p1 s =
          ((count cCB_DROPPED { s with cb := { s.cb with seq := s.cb.seq + 1#32 } }).setB fCB_STATUS_DROPPED true)) := by
  unfold offer
  by_cases h : s.cb.input.length < 1024
  · exact .inl ⟨h, _, rfl, rfl, rfl, rfl, rfl, rfl, if_pos h⟩
  · exact .inr ⟨by omega, if_neg h⟩

/-- An event touches no register but `CB_STATUS`. -/
theorem rd_offer (code block p0 p1 off : Nat) (s : State) (h : off ≠ rCB_STATUS) : (offer code block p0 p1 s).rd off = s.rd off := by
  unfold offer
  simp only
  split
  · rfl
  · rw [State.rd_setB_other _ _ _ _ h]; rfl

theorem fld_offer (code block p0 p1 : Nat) (f : Fld) (s : State) (h : f.reg ≠ rCB_STATUS) : (offer code block p0 p1 s).fld f = s.fld f := by
  simp [State.fld, rd_offer _ _ _ _ _ _ h]

theorem regsWf_offer (code block p0 p1 : Nat) (s : State) (h : s.regsWf) : (offer code block p0 p1 s).regsWf := by
  unfold offer
  simp only
  split
  · exact h
  · exact State.regsWf_setB _ _ _ h

theorem offer_seq (code block p0 p1 : Nat) (s : State) : (offer code block p0 p1 s).cb.seq = s.cb.seq + 1#32 := by
  unfold offer
  simp only
  split <;> rfl

/-- Putting events into the recorder changes the callboard, a drop counter and a flag alone. -/
theorem offer_other (code block p0 p1 : Nat) (s : State) :
    offer code block p0 p1 s = { s with cb := (offer code block p0 p1 s).cb, cnt := (offer code block p0 p1 s).cnt, regs := (offer code block p0 p1 s).regs } := by
  unfold offer
  simp only
  split <;> rfl

@[simp] theorem offer_pending (code block p0 p1 : Nat) (s : State) : (offer code block p0 p1 s).pending = s.pending := by rw [offer_other]
@[simp] theorem offer_rl (code block p0 p1 : Nat) (s : State) : (offer code block p0 p1 s).rl = s.rl := by rw [offer_other]
@[simp] theorem offer_life (code block p0 p1 : Nat) (s : State) : (offer code block p0 p1 s).life = s.life := by rw [offer_other]
@[simp] theorem offer_mbx (code block p0 p1 : Nat) (s : State) : (offer code block p0 p1 s).mbx = s.mbx := by rw [offer_other]
@[simp] theorem offer_i2c (code block p0 p1 : Nat) (s : State) : (offer code block p0 p1 s).i2c = s.i2c := by rw [offer_other]
@[simp] theorem offer_arrived (code block p0 p1 : Nat) (s : State) : (offer code block p0 p1 s).arrived = s.arrived := by rw [offer_other]
@[simp] theorem offer_ops (code block p0 p1 : Nat) (s : State) : (offer code block p0 p1 s).ops = s.ops := by rw [offer_other]
@[simp] theorem offer_claims (code block p0 p1 : Nat) (s : State) : (offer code block p0 p1 s).claims = s.claims := by rw [offer_other]
@[simp] theorem offer_rehearsals (code block p0 p1 : Nat) (s : State) : (offer code block p0 p1 s).rehearsals = s.rehearsals := by rw [offer_other]
@[simp] theorem offer_msix (code block p0 p1 : Nat) (s : State) : (offer code block p0 p1 s).msix = s.msix := by rw [offer_other]
@[simp] theorem offer_out (code block p0 p1 : Nat) (s : State) : (offer code block p0 p1 s).out = s.out := by rw [offer_other]
@[simp] theorem offer_dvChan (code block p0 p1 : Nat) (s : State) : (offer code block p0 p1 s).dvChan = s.dvChan := by rw [offer_other]
@[simp] theorem offer_epDiscards (code block p0 p1 : Nat) (s : State) : (offer code block p0 p1 s).epDiscards = s.epDiscards := by rw [offer_other]
@[simp] theorem offer_free (code block p0 p1 : Nat) (s : State) : (offer code block p0 p1 s).free = s.free := by rw [offer_other]
@[simp] theorem offer_boot (code block p0 p1 : Nat) (s : State) : (offer code block p0 p1 s).boot = s.boot := by rw [offer_other]
@[simp] theorem offer_pwr (code block p0 p1 : Nat) (s : State) : (offer code block p0 p1 s).pwr = s.pwr := by rw [offer_other]
@[simp] theorem offer_tim (code block p0 p1 : Nat) (s : State) : (offer code block p0 p1 s).tim = s.tim := by rw [offer_other]
@[simp] theorem offer_fab (code block p0 p1 : Nat) (s : State) : (offer code block p0 p1 s).fab = s.fab := by rw [offer_other]
@[simp] theorem offer_cph (code block p0 p1 : Nat) (s : State) : (offer code block p0 p1 s).cph = s.cph := by rw [offer_other]
@[simp] theorem offer_mon (code block p0 p1 : Nat) (s : State) : (offer code block p0 p1 s).mon = s.mon := by rw [offer_other]
@[simp] theorem offer_hgc (code block p0 p1 : Nat) (s : State) : (offer code block p0 p1 s).hgc = s.hgc := by rw [offer_other]
@[simp] theorem offer_lanes (code block p0 p1 : Nat) (s : State) : (offer code block p0 p1 s).lanes = s.lanes := by rw [offer_other]
@[simp] theorem offer_eng (code block p0 p1 : Nat) (s : State) : (offer code block p0 p1 s).eng = s.eng := by rw [offer_other]
@[simp] theorem offer_line (code block p0 p1 : Nat) (s : State) : (offer code block p0 p1 s).line = s.line := by rw [offer_other]
@[simp] theorem offer_halves (code block p0 p1 : Nat) (s : State) : (offer code block p0 p1 s).halves = s.halves := by rw [offer_other]
@[simp] theorem offer_fec (code block p0 p1 : Nat) (s : State) : (offer code block p0 p1 s).fec = s.fec := by rw [offer_other]
@[simp] theorem offer_oh (code block p0 p1 : Nat) (s : State) : (offer code block p0 p1 s).oh = s.oh := by rw [offer_other]
@[simp] theorem offer_mrg (code block p0 p1 : Nat) (s : State) : (offer code block p0 p1 s).mrg = s.mrg := by rw [offer_other]
@[simp] theorem offer_perm (code block p0 p1 : Nat) (s : State) : (offer code block p0 p1 s).perm = s.perm := by rw [offer_other]
@[simp] theorem offer_mem (code block p0 p1 : Nat) (s : State) : (offer code block p0 p1 s).mem = s.mem := by rw [offer_other]
@[simp] theorem offer_pat (code block p0 p1 : Nat) (s : State) : (offer code block p0 p1 s).pat = s.pat := by rw [offer_other]
@[simp] theorem offer_hub (code block p0 p1 : Nat) (s : State) : (offer code block p0 p1 s).hub = s.hub := by rw [offer_other]
@[simp] theorem offer_leaf (code block p0 p1 : Nat) (s : State) : (offer code block p0 p1 s).leaf = s.leaf := by rw [offer_other]
@[simp] theorem offer_store (code block p0 p1 : Nat) (s : State) : (offer code block p0 p1 s).store = s.store := by rw [offer_other]
@[simp] theorem offer_win (code block p0 p1 : Nat) (s : State) : (offer code block p0 p1 s).win = s.win := by rw [offer_other]
@[simp] theorem offer_test (code block p0 p1 : Nat) (s : State) : (offer code block p0 p1 s).test = s.test := by rw [offer_other]
@[simp] theorem offer_banks (code block p0 p1 : Nat) (s : State) : (offer code block p0 p1 s).banks = s.banks := by rw [offer_other]

end Sys2Proof.Machine
end

