-- ==== Sys2Proof/Laws/Serve.lean ====
section
/-! SUPPORT. Requests: what taking one up does when its checks pass and when they do not; what settling the interrupts can do. -/

namespace Sys2Proof.Machine

open Sys2Proof

/-! ### Requests -/

/-- The state that a request's own conditions see. -/
theorem serveState_eq (c : Cmd) (q : Request) (s : State) :
    serveState c q s =
      if !s.inTurn (arrivalIs q c.code) then s
      else if !(s.taken q c.code).ready then count cPKT_BAD (s.taken q c.code)
      else match checks c (overLimit (takeArrival q c.code s).1 q (s.taken q c.code)) q (s.taken q c.code) with
        | .error r => refuse q.org c.code r (s.taken q c.code)
        | .ok (t, ans) => place q c.code ans t := rfl

/-- Passing the checks leaves the command's own conditions. -/
theorem checks_passes (c : Cmd) (q : Request) (s : State) (h : c.passes q s = true) :
    checks c (overLimit (takeArrival q c.code s).1 q (s.taken q c.code)) q (s.taken q c.code) = c.body q (s.taken q c.code) := by
  simp only [Cmd.passes, Bool.and_eq_true, Bool.not_eq_true', decide_eq_true_eq, beq_iff_eq, Option.isNone_iff_eq_none] at h
  obtain ⟨⟨⟨⟨⟨⟨⟨⟨⟨_, _⟩, _⟩, h3⟩, h4⟩, h5⟩, h6⟩, h7⟩, h9⟩, h10⟩ := h
  simp [checks, h3, h4, h5, h6, h7, h9, h10]

theorem passes_ready (c : Cmd) (q : Request) (s : State) (h : c.passes q s = true) : (s.taken q c.code).ready = true := by
  simp only [Cmd.passes, Bool.and_eq_true] at h
  exact h.1.1.1.1.1.1.1.2

theorem passes_turn (c : Cmd) (q : Request) (s : State) (h : c.passes q s = true) : s.inTurn (arrivalIs q c.code) = true := by
  simp only [Cmd.passes, Bool.and_eq_true] at h
  exact h.1.1.1.1.1.1.1.1.2

theorem passes_params (c : Cmd) (q : Request) (s : State) (h : c.passes q s = true) : c.params q.params (s.taken q c.code) = none := by
  simp only [Cmd.passes, Bool.and_eq_true, Option.isNone_iff_eq_none] at h
  exact h.1.1.1.2

/-- A request that passes the checks of R86 has its command's effect, and its answer is placed. -/
theorem serve_ok (c : Cmd) (q : Request) (s t : State) (ans : Answer) (h : c.passes q s = true)
    (hb : c.body q (s.taken q c.code) = .ok (t, ans)) : serve c q s = .next (settle (place q c.code ans t)) := by
  have hr := passes_ready c q s h
  have hl : ¬ 4076 < q.params.length := by
    have h' := h
    simp only [Cmd.passes, Bool.and_eq_true, decide_eq_true_eq] at h'
    exact Nat.not_lt.mpr h'.1.1.1.1.1.1.1.1.1
  simp only [serve, if_neg hl, serveState_eq, passes_turn c q s h, hr, checks_passes c q s h, hb, Bool.not_true, Bool.false_eq_true, if_false, ok]

/-- A request that passes the checks of R86 but not its command's own conditions is refused and changes nothing else. -/
theorem serve_error (c : Cmd) (q : Request) (s : State) (r : Ref) (h : c.passes q s = true)
    (hb : c.body q (s.taken q c.code) = .error r) : serve c q s = .next (settle (refuse q.org c.code r (s.taken q c.code))) := by
  have hr := passes_ready c q s h
  have hl : ¬ 4076 < q.params.length := by
    have h' := h
    simp only [Cmd.passes, Bool.and_eq_true, decide_eq_true_eq] at h'
    exact Nat.not_lt.mpr h'.1.1.1.1.1.1.1.1.1
  simp only [serve, if_neg hl, serveState_eq, passes_turn c q s h, hr, checks_passes c q s h, hb, Bool.not_true, Bool.false_eq_true, if_false, ok]

/-- Before READY a request is discarded and counted (R78). -/
theorem serve_early (c : Cmd) (q : Request) (s : State) (hl : q.params.length ≤ 4076) (ht : s.inTurn (arrivalIs q c.code) = true) (hr : (s.taken q c.code).ready = false) :
    serve c q s = .next (settle (count cPKT_BAD (s.taken q c.code))) := by
  simp only [serve, if_neg (show ¬ 4076 < q.params.length by omega), serveState_eq, ht, hr, Bool.not_true, Bool.not_false, Bool.false_eq_true, if_false,
    if_true, ok]

/-! ### Settling the interrupts (R470) -/

/-- One vector's settling touches MSI-X and the messages sent alone. -/
theorem settleVec_other (f v : Nat) (s : State) :
    settleVec f v s = { s with msix := (settleVec f v s).msix, out := { s.out with msix := (settleVec f v s).out.msix } } := by
  unfold settleVec
  simp only
  split
  · split <;> rfl
  · rfl

/-- A property that each step of a walk keeps holds after the walk. -/
theorem each_inv {α : Type} (P : State → Prop) (f : α → State → State) (h : ∀ a s, P s → P (f a s)) (l : List α) (s : State) (hs : P s) :
    P (each l f s) := by
  unfold each
  induction l generalizing s with
  | nil => exact hs
  | cons a r ih => exact ih (f a s) (h a s hs)

theorem settleFn_other (f : Nat) (s : State) :
    settleFn f s = { s with msix := (settleFn f s).msix, out := { s.out with msix := (settleFn f s).out.msix } } := by
  unfold settleFn
  split
  · refine each_inv (fun t => t = { s with msix := t.msix, out := { s.out with msix := t.out.msix } }) _ ?_ _ _ rfl
    intro v t ht
    rw [settleVec_other, ht]
  · rfl

/-- Settling changes the MSI-X state and the messages sent, and nothing else. -/
theorem settle_other (s : State) :
    settle s = { s with msix := (settle s).msix, out := { s.out with msix := (settle s).out.msix } } := by
  unfold settle
  rw [settleFn_other 1 (settleFn 0 s), settleFn_other 0 s]

@[simp] theorem settle_pending (s : State) : (settle s).pending = s.pending := by rw [settle_other]
@[simp] theorem settle_regs (s : State) : (settle s).regs = s.regs := by rw [settle_other]
@[simp] theorem settle_rl (s : State) : (settle s).rl = s.rl := by rw [settle_other]
@[simp] theorem settle_life (s : State) : (settle s).life = s.life := by rw [settle_other]
@[simp] theorem settle_mbx (s : State) : (settle s).mbx = s.mbx := by rw [settle_other]
@[simp] theorem settle_i2c (s : State) : (settle s).i2c = s.i2c := by rw [settle_other]
@[simp] theorem settle_arrived (s : State) : (settle s).arrived = s.arrived := by rw [settle_other]
@[simp] theorem settle_later (s : State) : (settle s).later = s.later := by rw [settle_other]
@[simp] theorem settle_ops (s : State) : (settle s).ops = s.ops := by rw [settle_other]
@[simp] theorem settle_claims (s : State) : (settle s).claims = s.claims := by rw [settle_other]
@[simp] theorem settle_rehearsals (s : State) : (settle s).rehearsals = s.rehearsals := by rw [settle_other]
@[simp] theorem settle_cb (s : State) : (settle s).cb = s.cb := by rw [settle_other]
@[simp] theorem settle_cnt (s : State) : (settle s).cnt = s.cnt := by rw [settle_other]
@[simp] theorem settle_dvChan (s : State) : (settle s).dvChan = s.dvChan := by rw [settle_other]
@[simp] theorem settle_epDiscards (s : State) : (settle s).epDiscards = s.epDiscards := by rw [settle_other]
@[simp] theorem settle_free (s : State) : (settle s).free = s.free := by rw [settle_other]
@[simp] theorem settle_boot (s : State) : (settle s).boot = s.boot := by rw [settle_other]
@[simp] theorem settle_pwr (s : State) : (settle s).pwr = s.pwr := by rw [settle_other]
@[simp] theorem settle_tim (s : State) : (settle s).tim = s.tim := by rw [settle_other]
@[simp] theorem settle_fab (s : State) : (settle s).fab = s.fab := by rw [settle_other]
@[simp] theorem settle_cph (s : State) : (settle s).cph = s.cph := by rw [settle_other]
@[simp] theorem settle_mon (s : State) : (settle s).mon = s.mon := by rw [settle_other]
@[simp] theorem settle_hgc (s : State) : (settle s).hgc = s.hgc := by rw [settle_other]
@[simp] theorem settle_lanes (s : State) : (settle s).lanes = s.lanes := by rw [settle_other]
@[simp] theorem settle_eng (s : State) : (settle s).eng = s.eng := by rw [settle_other]
@[simp] theorem settle_line (s : State) : (settle s).line = s.line := by rw [settle_other]
@[simp] theorem settle_halves (s : State) : (settle s).halves = s.halves := by rw [settle_other]
@[simp] theorem settle_fec (s : State) : (settle s).fec = s.fec := by rw [settle_other]
@[simp] theorem settle_oh (s : State) : (settle s).oh = s.oh := by rw [settle_other]
@[simp] theorem settle_mrg (s : State) : (settle s).mrg = s.mrg := by rw [settle_other]
@[simp] theorem settle_perm (s : State) : (settle s).perm = s.perm := by rw [settle_other]
@[simp] theorem settle_mem (s : State) : (settle s).mem = s.mem := by rw [settle_other]
@[simp] theorem settle_pat (s : State) : (settle s).pat = s.pat := by rw [settle_other]
@[simp] theorem settle_hub (s : State) : (settle s).hub = s.hub := by rw [settle_other]
@[simp] theorem settle_leaf (s : State) : (settle s).leaf = s.leaf := by rw [settle_other]
@[simp] theorem settle_store (s : State) : (settle s).store = s.store := by rw [settle_other]
@[simp] theorem settle_win (s : State) : (settle s).win = s.win := by rw [settle_other]
@[simp] theorem settle_test (s : State) : (settle s).test = s.test := by rw [settle_other]
@[simp] theorem settle_banks (s : State) : (settle s).banks = s.banks := by rw [settle_other]
@[simp] theorem settle_data (s : State) : (settle s).out.data = s.out.data := by rw [settle_other]
@[simp] theorem settle_bytes (s : State) : (settle s).out.bytes = s.out.bytes := by rw [settle_other]
@[simp] theorem rd_settle (s : State) (off : Nat) : (settle s).rd off = s.rd off := State.rd_congr (settle_regs s) off
@[simp] theorem fld_settle (s : State) (f : Fld) : (settle s).fld f = s.fld f := State.fld_congr (settle_regs s) f

end Sys2Proof.Machine
end

