-- ==== Sys2Proof/Laws/Frame.lean ====
section
/-! SUPPORT. Frames: which registers a step of the model changes, and which events it records. -/

namespace Sys2Proof.Machine

open Sys2Proof

theorem Logged.refl (s : State) : Logged s s [] := by simp [Logged]

/-- Only the callboard counts. -/
theorem Logged.congr {s t u : State} {l : List (Nat × Nat × Nat × Nat)} (h : Logged s t l) (hc : u.cb = t.cb) : Logged s u l := by
  unfold Logged at *
  rw [hc]
  exact h

theorem Logged.start {s t u : State} {l : List (Nat × Nat × Nat × Nat)} (h : Logged s t l) (hc : u.cb = s.cb) : Logged u t l := by
  unfold Logged at *
  rw [hc]
  exact h

theorem logged_same {s t : State} (h : t.cb = s.cb) : Logged s t [] := (Logged.refl s).congr h

/-- One more event. -/
theorem Logged.offer {s t : State} {l : List (Nat × Nat × Nat × Nat)} (h : Logged s t l) (code block p0 p1 : Nat) :
    Logged s (Machine.offer code block p0 p1 t) (l ++ [(code, block, p0, p1)]) := by
  obtain ⟨h1, h2⟩ := h
  refine ⟨?_, ?_⟩
  · rw [offer_seq, h1, List.length_append]
    simp only [List.length_singleton]
    rw [BitVec.add_assoc]
    congr 1
    exact (BitVec.ofNat_add _ _).symm
  · intro hl
    simp only [List.length_append, List.length_singleton] at hl
    have h3 := h2 (by omega)
    have hlen : t.cb.input.length < 1024 := by
      have := congrArg List.length h3
      simp only [List.length_map, List.length_append] at this
      omega
    unfold Machine.offer
    simp only [hlen, if_true]
    rw [List.map_append, h3, List.append_assoc, List.map_append]
    congr 2

theorem logged_one (code block p0 p1 : Nat) (s : State) : Logged s (offer code block p0 p1 s) [(code, block, p0, p1)] :=
  (Logged.refl s).offer code block p0 p1

theorem OnlyRegs.refl (l : List Nat) (s : State) : OnlyRegs l s s := fun _ _ _ => rfl

theorem OnlyRegs.of_regs {l : List Nat} {s t : State} (h : t.regs = s.regs) : OnlyRegs l s t := fun off _ _ => State.rd_congr h off

theorem OnlyRegs.trans {l : List Nat} {s t u : State} (h : OnlyRegs l s t) (h' : OnlyRegs l t u) : OnlyRegs l s u :=
  fun off a b => (h' off a b).trans (h off a b)

theorem OnlyRegs.wr {l : List Nat} {s t : State} (h : OnlyRegs l s t) {off : Nat} (v : Word) (hm : off ∈ l) : OnlyRegs l s (t.wr off v) :=
  fun j a b => (State.rd_wr_other t off j v (fun e => b (e ▸ hm))).trans (h j a b)

theorem OnlyRegs.setF {l : List Nat} {s t : State} (h : OnlyRegs l s t) {f : Fld} (v : Nat) (hm : f.reg ∈ l) : OnlyRegs l s (t.setF f v) :=
  h.wr _ hm

theorem OnlyRegs.setB {l : List Nat} {s t : State} (h : OnlyRegs l s t) {f : Fld} (b : Bool) (hm : f.reg ∈ l) : OnlyRegs l s (t.setB f b) :=
  h.wr _ hm

theorem OnlyRegs.bumpF {l : List Nat} {s t : State} (h : OnlyRegs l s t) {f : Fld} (hm : f.reg ∈ l) : OnlyRegs l s (t.bumpF f) :=
  h.wr _ hm

theorem OnlyRegs.unreg {l : List Nat} {s t : State} (h : OnlyRegs l s t) {off : Nat} (hm : off ∈ l) : OnlyRegs l s (t.unreg off) :=
  fun j a b => (State.rd_unreg_other t off j (fun e => b (e ▸ hm))).trans (h j a b)

theorem OnlyRegs.offer {l : List Nat} {s t : State} (h : OnlyRegs l s t) (code block p0 p1 : Nat) :
    OnlyRegs l s (Machine.offer code block p0 p1 t) := fun j a b => (rd_offer code block p0 p1 j t a).trans (h j a b)

theorem OnlyRegs.settle {l : List Nat} {s t : State} (h : OnlyRegs l s t) : OnlyRegs l s (Machine.settle t) :=
  h.trans (OnlyRegs.of_regs (settle_regs t))

theorem OnlyRegs.mono {l m : List Nat} {s t : State} (h : OnlyRegs l s t) (hs : ∀ x ∈ l, x ∈ m) : OnlyRegs m s t :=
  fun j a b => h j a (fun c => b (hs j c))

theorem Logged.settle {s t : State} {l : List (Nat × Nat × Nat × Nat)} (h : Logged s t l) : Logged s (Machine.settle t) l := h.congr (settle_cb t)

/-- The form in which a request command's effect is shown. -/
theorem does_of {c : Cmd} {x : Request → Instr} {pre : Request → State → Prop} {post : Request → State → Answer → State → Prop}
    (hx : ∀ q s, exec (x q) s = serve c q s)
    (h : ∀ q t, c.params q.params t = none → pre q t → ∃ ans u, c.body q t = .ok (u, ans) ∧ post q t ans u) : Does c x pre post := by
  intro q s hp hpre
  obtain ⟨ans, u, hb, hpost⟩ := h q _ (passes_params c q s hp) hpre
  exact ⟨ans, u, by rw [hx, serve_ok c q s u ans hp hb], hpost⟩

theorem turned_of {c : Cmd} {x : Request → Instr} {pre : Request → State → Prop} {r : Request → State → Ref}
    (hx : ∀ q s, exec (x q) s = serve c q s)
    (h : ∀ q t, c.params q.params t = none → pre q t → c.body q t = .error (r q t)) : Turned c x pre r := by
  intro q s hp hpre
  rw [hx, serve_error c q s _ hp (h q _ (passes_params c q s hp) hpre)]

end Sys2Proof.Machine
end

