-- ==== Sys2Proof/Laws/Memory.lean ====
section
/-! SUPPORT. HBM: every operation over it keeps its canonical form, and what a write or a read of one codeword can change. -/

namespace Sys2Proof.Machine

open Sys2Proof

/-- A stored codeword reads as what was stored, any other as before. -/
theorem cw_putCw (k j : Nat) (c : BitVec 256) (s : State) : (putCw k c s).cw j = if j = k then c else s.cw j := by
  simp only [State.cw, putCw, State.setMem]
  exact smGet_smSet _ _ _ _ _

/-- Storing a codeword changes nothing but HBM. -/
theorem putCw_regs (k : Nat) (c : BitVec 256) (s : State) : (putCw k c s).regs = s.regs := rfl

/-- Storing a codeword keeps the canonical form. -/
theorem putCw_memWf (k : Nat) (c : BitVec 256) (s : State) (h : Memory.wf s.mem.hbm = true) : Memory.wf (putCw k c s).mem.hbm = true :=
  smWf_smSet _ _ _ _ h

/-- A field write leaves the memory alone. -/
theorem setF_mem (f : Fld) (v : Nat) (s : State) : (s.setF f v).mem = s.mem := rfl

/-- A write of a codeword keeps the canonical form. -/
theorem storeCw_memWf (k : Nat) (c : BitVec 256) (s : State) (h : Memory.wf s.mem.hbm = true) : Memory.wf (storeCw k c s).mem.hbm = true := by
  unfold storeCw
  dsimp only
  split
  · exact putCw_memWf k _ s h
  · exact putCw_memWf k _ s h

/-- A write of a codeword leaves every other codeword as it is. -/
theorem cw_storeCw_other (k j : Nat) (c : BitVec 256) (s : State) (hj : j ≠ k) : (storeCw k c s).cw j = s.cw j := by
  unfold storeCw
  dsimp only
  split
  · show (putCw k _ s).cw j = _
    rw [cw_putCw, if_neg hj]
  · rw [cw_putCw, if_neg hj]

/-- A functional write of a codeword keeps the canonical form. -/
theorem writeCw_memWf (k : Nat) (data : List Byte) (s : State) (h : Memory.wf s.mem.hbm = true) : Memory.wf (writeCw k data s).mem.hbm = true := by
  unfold writeCw
  split
  · exact h
  · exact storeCw_memWf k _ s h

/-- A functional write of a codeword leaves every other codeword as it is. -/
theorem cw_writeCw_other (k j : Nat) (data : List Byte) (s : State) (hj : j ≠ k) : (writeCw k data s).cw j = s.cw j := by
  unfold writeCw
  split
  · rfl
  · exact cw_storeCw_other k j _ s hj

/-- A write of bytes keeps the canonical form. -/
theorem hbmWriteFrom_memWf (fuel addr : Nat) (bs : List Byte) (s : State) (h : Memory.wf s.mem.hbm = true) :
    Memory.wf (hbmWriteFrom fuel addr bs s).mem.hbm = true := by
  induction fuel generalizing addr bs s with
  | zero => exact h
  | succ n ih =>
    unfold hbmWriteFrom
    split
    · exact h
    · exact ih _ _ _ (writeCw_memWf _ _ _ h)

/-- A write of bytes keeps the canonical form. -/
theorem hbmWrite_memWf (addr : Nat) (bs : List Byte) (s : State) (h : Memory.wf s.mem.hbm = true) : Memory.wf (hbmWrite addr bs s).mem.hbm = true :=
  hbmWriteFrom_memWf _ _ _ _ h

/-- Logging an error leaves HBM as it is. -/
theorem logErr_hbm (k die : Nat) (unc lasting : Bool) (s : State) : (logErr k die unc lasting s).mem.hbm = s.mem.hbm := by
  unfold logErr
  dsimp only
  split <;> rfl

/-- Reading a codeword leaves HBM as it is. -/
theorem readCw_hbm (k : Nat) (err : BitVec 256) (s : State) : (readCw k err s).2.mem.hbm = s.mem.hbm := by
  unfold readCw
  split
  · rfl
  · dsimp only
    split
    · rfl
    · exact logErr_hbm _ _ _ _ _
    · exact logErr_hbm _ _ _ _ _

/-- Reading bytes leaves HBM as it is. -/
theorem hbmReadFrom_hbm (errs : List (Nat × BitVec 256)) (fuel addr n : Nat) (s : State) :
    (hbmReadFrom errs fuel addr n s).2.mem.hbm = s.mem.hbm := by
  induction fuel generalizing addr n s with
  | zero => rfl
  | succ m ih =>
    unfold hbmReadFrom
    split
    · rfl
    · exact (ih _ _ _).trans (readCw_hbm _ _ _)

/-- Reading bytes leaves HBM as it is. -/
theorem hbmRead_hbm (errs : List (Nat × BitVec 256)) (addr n : Nat) (s : State) : (hbmRead errs addr n s).2.mem.hbm = s.mem.hbm :=
  hbmReadFrom_hbm _ _ _ _ _

/-- Dropping pages keeps the canonical form. -/
theorem dropPages_memWf (p : Nat → Bool) (s : State) (h : Memory.wf s.mem.hbm = true) : Memory.wf (dropPages p s).mem.hbm = true :=
  smWf_filter _ _ _ h

/-- HBM right after reset is in canonical form: nothing is listed. -/
theorem reset_memWf : Memory.wf State.reset.mem.hbm = true := rfl

end Sys2Proof.Machine
end

