-- ==== Sys2Proof/Tests/Slice0.lean ====
section
/-! SUPPORT. Tests of the model: the checks of well-formed commands, small steps, and a witness for the hypotheses of every
statement. -/

-- One theorem after another: their evaluations at once would need more memory than a check allows.
set_option Elab.async false

namespace Sys2Proof.Tests

open Sys2Proof Sys2Proof.Machine

/-! ### States and requests that the witnesses start from -/

/-- A part that is READY, with some register fields set. -/
def up (l : List (Fld × Nat)) : State :=
  l.foldl (fun s e => s.setF e.1 e.2)
    ({ State.reset with mbx := Two.all Mailbox.fresh, i2c := Mailbox.fresh, boot := { BootSt.init with resetLow := false, linkUp := true } }.setF
      fSYS_BOOT_STATUS_STAGE 7)

/-- A part in a boot stage. -/
def boot (stage : Nat) (b : BootSt) : State := { State.reset with boot := b }.setF fSYS_BOOT_STATUS_STAGE stage

/-- A request of a PCIe function or another local master. -/
def rq (master : Nat) (ps : List Nat) : Request := ⟨⟨⟨master, 0, 0⟩, 0, false, 5⟩, 0, ps.map (BitVec.ofNat 8)⟩

/-- Master 1, as requester. -/
def host : Who := ⟨1, 0, 0⟩

/-! ### Witnesses: concrete states and operands that meet the hypotheses of each statement, clause by clause -/

theorem wit_StepRunsTheFrontCommand : State.reset.pending = [] := by decide +kernel

theorem wit_ColdStartsClear :
    ((up []).boot.resetLow = false ∧ (up []).boot.powerDown = false) ∧
    (({ up [] with boot := { (up []).boot with watchdog := true } } : State).boot.watchdog = true) ∧
    (({ up [] with boot := { (up []).boot with warm := some 0 } } : State).boot.warm = some 0) ∧
    ((1 : Fin 12).val < 2 ∧ (up []).pwr.asleep = false ∧ (up []).stage ≠ 0 ∧ State.reset.pwr.asleep = false ∧ State.reset.stage = 0) := by decide +kernel

theorem wit_BootStagesComplete :
    (State.reset.boot.resetLow = true ∧ State.reset.boot.railsLow = [] ∧ State.reset.boot.powerDown = false ∧ State.reset.boot.brown = false) ∧
    ((boot 1 BootSt.init).stage = 1 ∧ (boot 1 BootSt.init).boot.clock = false) ∧
    ((boot 1 { BootSt.init with clock := true }).stage = 1 ∧ (boot 1 { BootSt.init with clock := true }).boot.clock = true) ∧
    ((boot 3 { BootSt.init with slots := [false, true] }).stage = 3 ∧ (boot 3 { BootSt.init with slots := [false, true] }).boot.slots = [false, true]) ∧
    ((boot 8 { BootSt.init with linkUp := true }).stage = 8 ∧ (boot 8 { BootSt.init with linkUp := true }).boot.linkUp = true) ∧
    (((boot 5 BootSt.init).setF (fPD 30) 3).stage = 5 ∧ ((boot 5 BootSt.init).setF (fPD 30) 3).fld (fPD 30) = 3 ∧ (boot 5 BootSt.init).hbmLow = false ∧ (boot 5 BootSt.init).boot.waking = false) ∧
    ((boot 6 BootSt.init).stage = 6 ∧ (boot 6 BootSt.init).boot.waking = false) ∧
    ((boot 1 BootSt.init).stage ≠ 0 ∧ (boot 1 BootSt.init).boot.perstLow = false) := by decide +kernel

/-- A header with the magic, version 1, and nothing else. -/
def plainHeader : List Byte := [0x57#8, 0x54#8, 0x41#8, 0x46#8, 1#8] ++ List.replicate 507 0#8

theorem test_image_checks :
    imageError 0 0 ⟨false, [], []⟩ = some 3 ∧ imageError 0 0 ⟨true, plainHeader.set 0 0#8, []⟩ = some 4 ∧
    imageError 0 0 ⟨true, plainHeader.set 161 1#8, []⟩ = some 4 ∧ imageError 0 0 ⟨true, plainHeader.set 7 4#8, []⟩ = some 5 ∧
    imageError 0 1 ⟨true, plainHeader, []⟩ = some 5 := by decide +kernel

theorem wit_EndpointResetKeepsTheRest :
    ((up []).ready = true ∧ (up []).boot.perstLow = false) ∧
    (({ up [] with boot := { (up []).boot with perstLow := true } } : State).ready = true) := by decide +kernel

theorem wit_SupplyEventsComplete :
    ((up []).pwr.asleep = false ∧ 2 ≤ (2 : Fin 12).val ∧ (5 : Fin 12).val < 6) ∧
    (({ up [] with pwr := { PwrSt.init with asleep := true } } : State).pwr.asleep = true) ∧
    (({ up [] with boot := { BootSt.init with railsLow := [10, 3] } } : State).boot.railsLow.contains 3 = true) ∧
    (let s : State := { up [] with boot := { BootSt.init with resetLow := false, brown := true } };
      s.boot.brown = true ∧ s.coreLow = false ∧ s.boot.resetLow = false ∧ s.boot.gated = false) ∧
    (up [(fPWR_CH_STATE_RECEPTACLE, 1)]).flag fPWR_CH_STATE_RECEPTACLE = true ∧
    ((up []).firmware = true ∧ tripCause ⟨840, 0, 0⟩ = none ∧ tripCause ⟨919, 839, 839⟩ = none) ∧
    ((up []).stage ≠ 0 ∧ tripCause ⟨920, 0, 0⟩ = some 1 ∧ tripCause ⟨0, 840, 0⟩ = some 2) ∧
    ((boot 1 BootSt.init).stage = 1) ∧
    (let s : State := { up [] with boot := { BootSt.init with resetLow := false, railsLow := [10] } };
      s.boot.railsLow.contains 10 = true ∧ s.pwr.asleep = false ∧ Pin.spiClk.cmos18 = true) ∧ (State.reset.boot.railsLow = [] ∧ State.reset.boot.resetLow = true) ∧
    (let s : State := { up [] with boot := { BootSt.init with resetLow := true, brown := true } }; s.boot.brown = true ∧ s.coreLow = false ∧ s.boot.resetLow = true) ∧
    (up [(fCH 0, 2)]).chDark 0 = false ∧
    ((up []).i2cServed = true) ∧
    (let s := up [(fPWR_AVS_CTRL_AVS_EN, 1), (fPWR_AVS_STATUS_SETPOINT, 32)];
      s.ready = true ∧ s.flag fPWR_AVS_CTRL_AVS_EN = true ∧ s.flag fPWR_AVS_CTRL_HOLD = false ∧ s.flag fPWR_AVS_STATUS_READBACK_ERR = false ∧
        s.test.bist = none ∧ s.fld fPWR_AVS_STATUS_SETPOINT ≤ 32 ∧
        ((7800 : Int) - (6200 + 50 * clampI 0 32 ((s.fld fPWR_AVS_STATUS_SETPOINT : Int) + clampI (-1) 1 1))).natAbs ≤ 150) := by decide +kernel


/-- Function 0's mailbox with some words of a packet written and some of a reply waiting. -/
def withMbx (m : Mailbox) : State := { up [] with mbx := (up []).mbx.set 0 m }

theorem wit_RequestsFollowTheChecks :
    (let s : State := { up [] with arrived := [⟨⟨2, 0, 0⟩, 0, [], 5, true, false, 0#64⟩] };
      s.inTurn (arrivalIs (rq 1 []) cmdNop.code) = false) ∧ (up []).inTurn (arrivalIs (rq 1 []) cmdNop.code) = true ∧
    cmdNop.passes (rq 1 [1, 2]) (up []) = true ∧
    ((boot 5 BootSt.init).taken (rq 1 []) 0x0100).ready = false ∧
    ((up []).permits ⟨3, 0, 0⟩ cmdClaim.code cmdClaim.access && cmdClaim.permit (rq 3 [0, 0]) (up [])) = false ∧
    cmdClaim.params (rq 1 [4, 0]).params (up []) = some 0 ∧ cmdClaim.params (rq 1 [3, 2]).params (up []) = some 1 ∧
    tagInUse (rq 1 []) { up [] with ops := [⟨⟨host, 0, false, 5⟩, 0x0210, [], [], none, 0, false, 0#64⟩] } = true ∧
    ({ up [] with claims := [(0, ⟨2, 0, 0⟩)] } : State).blocked host [0] = some 2 ∧ (up []).blocked host [0] = none ∧
    ({ up [] with pwr := { PwrSt.init with entry := some ⟨⟨host, 0, false, 5⟩, false, []⟩ } } : State).pwr.entry.isSome = true := by decide +kernel

theorem wit_RefusalsAreRecorded :
    ((rq 2 []).org.who.master = 1 + (1 : Pr).val ∧ ((up []).mbx.get 1).isOpen = true) ∧ ((up []).mbx.get 1).wait = [] ∧
    ((up []).mbx.get 1).rsp.length + (toWords (packet kReply 32 0 0 5 0x0100 0x15 2 [0, 0, 0, 0])).length ≤ 8192 ∧
    ((withMbx { Mailbox.fresh with wait := [[0#32]] }).mbx.get 0).wait ≠ [] ∧ definedOpcodes.contains 0x0810 = false ∧
    definedOpcodes.contains 0x0811 = false ∧ ((up []).taken (rq 1 []) 0x0810).ready = true ∧ (State.reset.taken (rq 1 []) 0x0810).ready = false := by decide +kernel

/-- An arrived `NOP` of master 1. -/
def nopArrived : Arrival := ⟨host, 0, packet 1 32 0 0 5 0x0100 0 1 [], 5, true, false, 0#64⟩

theorem wit_AnsweringTouchesOnlyQueues :
    (takeArrival (rq 1 []) 0x0100 { up [] with arrived := [nopArrived] }).1 = some nopArrived := by decide +kernel

theorem wit_SystemRequests :
    cmdNop.passes (rq 3 [7]) (up []) = true ∧ cmdIdentify.passes (rq 2 []) (up []) = true ∧
    (cmdClaim.passes (rq 1 [0x40, 0]) (up []) = true ∧ (up []).holder 0x40 = none) ∧
    (let s : State := { up [] with claims := [(3, host)] };
      cmdClaim.passes (rq 1 [3, 0]) s = true ∧ s.holder 3 = some host ∧ cmdRelease.passes (rq 1 [3]) s = true ∧ cmdClaimQuery.passes (rq 2 [3]) s = true) ∧
    (let s : State := { up [] with claims := [(3, ⟨4, 9, 0⟩)] };
      cmdClaim.passes (rq 1 [3, 0]) s = true ∧ bit (fld (rq 1 [3, 0]).params 1 1) 0 = false ∧ cmdClaim.passes (rq 1 [3, 1]) s = true ∧
        bit (fld (rq 1 [3, 1]).params 1 1) 0 = true ∧ s.holder 3 = some ⟨4, 9, 0⟩ ∧ cmdRelease.passes (rq 1 [3]) s = true) ∧
    cmdAccessSet.passes (rq 1 [1]) (up []) = true := by decide +kernel

theorem wit_MailboxWords :
    ((boot 3 { BootSt.init with linkUp := true }).ready = false ∧ 3 ≤ (boot 3 { BootSt.init with linkUp := true }).stage) ∧
    ((up []).ready = true ∧ ((up []).mbx.get 0).dropping = false ∧ ((up []).mbx.get 0).isOpen = true ∧ ((up []).mbx.get 0).part.length + ((up []).mbx.get 0).held < 8192) ∧
    (let m : Mailbox := { Mailbox.fresh with held := 8192 };
      (withMbx m).ready = true ∧ ((withMbx m).mbx.get 0).dropping = false ∧ 8192 ≤ ((withMbx m).mbx.get 0).part.length + ((withMbx m).mbx.get 0).held) ∧
    (((withMbx { Mailbox.fresh with dropping := true }).mbx.get 0).dropping = true) ∧
    (let m : Mailbox := { Mailbox.fresh with part := (toWords (packet 1 32 0 0 5 0x0100 0 0 [])).take 4 };
      let bs := ofWords (((withMbx m).mbx.get 0).part ++ (toWords (packet 1 32 0 0 5 0x0100 0 0 [])).drop 4);
      goodPacket bs = true ∧ pktKind bs = 1 ∧ (withMbx m).forHere (pktDest bs) = true) ∧
    ((up []).hgcOpen 2 = true ∧ ((up []).hgc.get 2).mbx.part.length < 511) ∧
    ((withMbx { Mailbox.fresh with rsp := [⟨7#32, true⟩] }).mbx.get 0).rsp[0]? = some ⟨7#32, true⟩ ∧ ((up []).mbx.get 0).rsp[0]? = none ∧
    (let s : State := { up [] with hgc := Four.all { HgcPort.init with mbx := { Mailbox.fresh with rsp := [⟨7#32, true⟩] } } };
      (s.hgc.get 3).mbx.rsp[(s.hgc.get 3).mbx.rd]? = some ⟨7#32, true⟩) := by decide +kernel

theorem wit_QueuePositions : (up []).ready = true ∧ ((up []).mbx.get 0).wait = [] ∧
    ((withMbx { Mailbox.fresh with rsp := [⟨7#32, true⟩] }).mbx.get 0).rd + 0 < ((withMbx { Mailbox.fresh with rsp := [⟨7#32, true⟩] }).mbx.get 0).rsp.length := by decide +kernel

theorem wit_PacketsThatAreNoRequest :
    ({ up [] with arrived := [nopArrived, ⟨host, 0, [], 5, false, false, 0#64⟩] } : State).outOfTurn host [] = true ∧
    (up []).outOfTurn host [] = false ∧ malformed host [] = true ∧ (up []).later = [] ∧
    (let l : Later := ⟨⟨host, 0, false, 5⟩, 2, 0x0900, 0, [0#8]⟩
     let s : State := { up [] with later := [l] };
      (s.later.find? fun l => decide (l.org = ⟨host, 0, false, 5⟩)) = some l ∧
      (s.mbx.get 0).rsp.length + (20 + min 4076 l.rest.length + 3) / 4 + s.reserved host ≤ 8192) ∧
    goodPacket [] = false ∧ (pktKind (packet 2 32 0 0 5 0x0100 0 0 []) ≠ 1 ∧ host.master ≠ 4) ∧
    (let bs := packet 1 32 0x1001 0 5 0x0100 0 0 [];
      goodPacket bs = true ∧ 0x1001 ≤ pktDest bs ∧ pktDest bs ≤ 0xFFFE ∧ pktKind bs = 1 ∧ (takeBytes host bs (up [])).ready = true) ∧
    (let bs := packet 2 32 0xFFFE 0 5 0x0100 0 0 [];
      goodPacket bs = true ∧ 0x1001 ≤ pktDest bs ∧ pktDest bs ≤ 0xFFFE ∧ pktKind bs ≠ 1) ∧
    State.reset.ready = false ∧
    (((up []).mbx.get 0).isOpen = true ∧ ((up []).mbx.get 0).rsp.length + (20 + 0 + 3) / 4 + (up []).reserved host ≤ 8192) ∧
    (let s : State := { up [] with ops := List.replicate 4 ⟨⟨host, 0, false, 5⟩, 0x0210, [], [], none, 0, false, 0#64⟩ };
      8192 < (s.mbx.get 0).rsp.length + (20 + 0 + 3) / 4 + s.reserved host ∧
      (s.ops.find? fun o => sameWho o.org.who host && o.org.tag == 5 && !o.reply && !o.targets.contains tDark).isSome = true) := by decide +kernel


/-- A session of master 1 on a block. -/
def sess (b : Nat) (cue : Option Pending) (s : State) : State := { s with rehearsals := [⟨b, host, [], cue, none⟩] }

theorem wit_I2cPortServes :
    ((up []).i2cAt 0x5A = true ∧ (up []).i2cMay 0x10000 = false ∧ (up []).i2cMay rPWR_THERM = true ∧ rlCompanion rPWR_THERM = false) ∧
    ((up []).ready = true ∧ (up []).i2c.isOpen = true ∧ (up []).i2c.dropping = false ∧ (up []).i2c.part.length + (up []).i2c.held + 3 ≤ 32768) ∧
    (let bs := packet 1 32 0 0 5 0x0100 0 0 [];
      goodPacket bs = true ∧ pktKind bs = 1 ∧ (up []).forHere (pktDest bs) = true) ∧
    packetDone [0#32, 0#32, 0#32] = false ∧ State.reset.ready = false ∧ State.reset.i2cAt 0x5A = false := by decide +kernel

theorem wit_RegisterFieldsByClass :
    (regFind .perFn 0 rPWR_THERM regTable).isSome = false ∧ regClaim rPWR_THERM = none ∧ rPWR_THERM % 4 = 0 ∧
    (regDomain (rLINE_MODE 2) = some 18 ∧ (up []).fld (fPD 18) = 0 ∧ (up [(fCH 2, 2), (fPD 18, 3)]).fld (fPD 18) ≠ 0) ∧
    (cueBlock (rLINE_MODE 2) = some 2 ∧ (sess 2 none (up [])).session 2 = some ⟨2, host, [], none, none⟩ ∧ (up []).session 2 = none ∧
      0xFFFFFFFF#32 &&& cueBits (rLINE_MODE 2) ≠ (up []).rd (rLINE_MODE 2) &&& cueBits (rLINE_MODE 2)) ∧
    (let s : State := { up [] with claims := [(2, ⟨4, 9, 0⟩)] };
      regClaim (rLINE_MODE 2) = some 2 ∧ s.claimedByOther host 2 = true ∧ cfgBits (rLINE_MODE 2) ≠ 0#32 ∧
        (regFind .perFn 0 (rLINE_MODE 2) regTable).isSome = false) := by decide +kernel

theorem wit_RegisterWritesComplete :
    (up []).ready = true ∧ (regFind .perFn 0 rPWR_THERM regTable).isSome = false ∧ State.reset.stage ≠ 8 ∧
    ((boot 8 { BootSt.init with linkUp := true }).stage = 8 ∧ (boot 8 { BootSt.init with linkUp := true }).boot.linkUp = true) ∧ State.reset.ready = false ∧
    rPWR_THERM ∉ [rSYS_DL_PAGE, rMBX_REQ_DATA 0, rMBX_REQ_END 0] ∧ (0x80000001#32).getLsbD 31 = true := by decide +kernel

theorem wit_CountersWrapAndStick :
    (countN 3 (2 ^ 48 - 1) (up [])).counter 3 = 2 ^ 48 - 1 ∧ (up []).ready = true ∧
    (cmdCntRead.passes (rq 1 [1, 0, 1, 0, 0, 0, 0, 0]) (up []) = true ∧ bit (fld (rq 1 [1, 0, 1, 0, 0, 0, 0, 0]).params 2 1) 0 = true) := by decide +kernel

/-- Function 0 with MSI-X enabled and source `MBX_RSP` set, enabled and mapped to vector 0. -/
def msixUp (armed : Word) : State :=
  { up [(fINT_STATUS_MBX_RSP 0, 1), (fINT_ENABLE_EN 0, 1)] with msix := ⟨⟨true, false, armed, 0#32⟩, Msix.init⟩ }

theorem wit_MsixVectors :
    ((msixUp 1#32).msix.get 0).enabled = true ∧ ((msixUp 1#32).msix.get 0).armed.getLsbD 0 = true ∧ (msixUp 1#32).vecCond 0 0 = true ∧
    ((msixUp 0#32).msix.get 0).armed.getLsbD 0 = false ∧ ((up []).msix.get 0).enabled = false ∧ ((up []).msix.get 1).enabled = false ∧
    (msixUp 1#32).rd (rINT_ENABLE 0) ≠ 0#32 ∧ ((msixUp 1#32).msix.get 0).fnMask = false := by decide +kernel

theorem wit_vecMasked : (msixUp 1#32).vecMasked 0 0 = true ∧ ((msixUp 1#32).setB (fMSIX_CTRL_MASK 0 0) false).vecMasked 0 0 = false := by decide +kernel

theorem wit_RehearsalSessions :
    (cmdStageOpen.passes (rq 1 [0x11]) (up []) = true ∧ (up []).session 0x11 = none) ∧
    cmdStageOpen.passes (rq 1 [4]) (sess 4 none (up [])) = true ∧
    (let q := rq 1 ([0, 0, 1, 0] ++ [0x00, 0x40, 0x10, 0x00] ++ [0, 0, 0xFF, 3] ++ [0, 0, 200, 0]);
      cmdStageSet.passes q (sess 0 none (up [])) = true ∧ cmdStageSet.passes q (up []) = true) ∧
    cmdStageAbandon.passes (rq 1 [0, 0]) (sess 0 none (up [])) = true ∧ cmdStageAbandon.passes (rq 1 [0, 1]) (sess 0 (some ⟨0, 0, ⟨host, 0, false, 5⟩⟩) (up [])) = true ∧
    cmdStageAbandon.passes (rq 1 [0, 0]) (up []) = true ∧ (up []).halves = [] ∧
    cmdStageGet.passes (rq 1 [0, 1, 1, 0, 0x00, 0x40, 0x10, 0x00]) (up []) = true := by decide +kernel

theorem wit_CueRequests :
    (let s := sess 0 none (up [(fCH 0, 2)]);
      cmdCue.passes (rq 1 [0, 0]) s = true ∧ s.chDark 0 = false ∧ cmdCue.passes (rq 1 [0, 1, 0, 2, 0, 0, 0, 0]) s = true ∧
        s.fld (fLINE_MODE_IOP 0) = 0 ∧ s.tooSoon 0 512 [] = false) ∧
    cmdCue.passes (rq 1 [0, 0]) (up [(fCH 0, 2)]) = true ∧
    (let s := sess 4 (some ⟨0, 0, ⟨host, 0, false, 5⟩⟩) (up [(fCH 0, 2)]);
      s.session 4 = some ⟨4, host, [], some ⟨0, 0, ⟨host, 0, false, 5⟩⟩, none⟩) ∧
    (let s := sess 0 (some ⟨0, 0, ⟨host, 0, false, 5⟩⟩) (up [(fCH 0, 2)]);
      s.boundary 0 9 ⟨0, host, [], some ⟨0, 0, ⟨host, 0, false, 5⟩⟩, none⟩ ⟨0, 0, ⟨host, 0, false, 5⟩⟩ = true ∧ s.cueBefore 0 9 0 = false ∧ s.halves = []) ∧
    (let c : Option Pending := some ⟨0, 0, ⟨host, 0, false, 5⟩⟩
     let s : State := { up [(fCH 0, 2)] with rehearsals := [⟨0, host, [], c, none⟩, ⟨8, host, [], c, none⟩] };
      s.session 8 = some ⟨8, host, [], c, none⟩ ∧ s.boundary 8 256 ⟨8, host, [], c, none⟩ ⟨0, 0, ⟨host, 0, false, 5⟩⟩ = true ∧ s.cueBefore 8 256 0 = true) ∧
    (let s : State := { up [] with halves := [(1, ⟨1, none, [], false, false⟩)] };
      (s.halves.find? fun x => x.2.block == (if false then 8 + (1 : Ch).val else (1 : Ch).val)) = some (1, ⟨1, none, [], false, false⟩)) ∧
    (let s : State := { up [] with halves := [(1, ⟨1, none, [], true, true⟩)] };
      (s.halves.any fun h => h.2.block == 1 && h.2.done) = true) ∧
    (up [(fCH 0, 2), (fOH_RX_STATUS_DEFECTS 0, 0)]).halfMay 0 ⟨0, 0, ⟨host, 0, false, 5⟩⟩ = true := by decide +kernel

theorem wit_cue_checks :
    convCheck 0 [] (up [(fCH 0, 2)]) = none ∧ convCheck 0 [(rCONV_CTRL 0, 0x40404041#32)] (up [(fCH 0, 2)]) = some (conflict (bCH 0)) ∧
    cueBlock (rCONV_CTRL 0) = some 4 := by decide +kernel

theorem wit_CompatibilityCommands :
    cmdDvIdent.passes (rq 1 []) (up []) = true ∧ cmdDvChanSet.passes (rq 1 [3]) (up []) = true ∧ cmdDvPmRead.passes (rq 1 [3]) (up []) = true ∧
    cmdDvPmClear.passes (rq 1 []) (up []) = true ∧ cmdDvAlarms.passes (rq 1 []) (up []) = true ∧
    (cmdDvTxEnable.passes (rq 1 [1]) (up [(fCH 0, 2)]) = true ∧ (up [(fCH 0, 2)]).chDark 0 = false ∧ (up []).chDark 0 = true ∧
      cmdDvTxEnable.passes (rq 1 [1]) (up []) = true) ∧
    (cmdDvRateSet.passes (rq 1 [4]) (up [(fCH 0, 2)]) = true ∧ (up [(fCH 0, 2)]).session 0 = none) := by decide +kernel


/-- A channel that is ACTIVE with its feed good and its loops locked. -/
def chan (n : Nat) (l : List (Fld × Nat)) : State := up ([(fCH n, 2), (fPD (16 + n), 3), (fENG_STATUS_FEED_OK n, 1), (fENG_STATUS_BIAS_LOCK n, 1), (fENG_STATUS_RX_LOS n, 0)] ++ l)

/-- The same with its engine. -/
def chanE (n : Nat) (e : EngSt) (l : List (Fld × Nat)) : State := setEng n e (chan n l)

/-- An ADC in place of every ADC of channel 0. -/
def adcs (a : AdcSt) : State := chanE 0 { EngSt.init with searched := true, adc := Four.all a } [(fCONV_STATUS_UNDERSTUDY_POS 0 1, 64)]

theorem wit_EngineFeedAndBias :
    (chan 0 []).chDark 0 = false ∧ (chanE 0 { EngSt.init with feed := 2 } []).loopsRun 0 = true ∧ (up [(fCH 0, 1)]).loopsRun 0 = false ∧
    (let s := chanE 0 { EngSt.init with feed := 0 } []; (s.engOf 0).feed = 0 ∧ (s.engOf 0).feedLost = false ∧ s.chDark 0 = false) ∧
    (let s := chanE 1 { EngSt.init with feedLost := true } [];
      (s.engOf 1).feedLost = true ∧ s.flag (fENG_STATUS_FEED_OK 1) = true ∧ s.chDark 1 = false) ∧
    ((chan 3 []).loopsRun 3 = true ∧ (chan 3 []).flag (fENG_STATUS_FEED_OK 3) = true ∧ (chan 3 []).flag (fENG_STATUS_BIAS_LOCK 3) = true) ∧
    (chanE 2 { EngSt.init with searched := true } []).muted 2 = false ∧
    (let s := chanE 0 { EngSt.init with bias := [2250, -2500, 2249, 0, 0, 0] } [];
      cmdBiasRecentre.passes (rq 1 [0, 63]) s = true ∧ ((0 : Nat) ∈ (span 0 6).filter (bit 63) ∧ 2250 ≤ ((s.engOf 0).bias.getD 0 0).natAbs) ∧ cmdBiasRecentre.passes (rq 1 [0, 63]) (up []) = true ∧
        (up []).chDark 0 = true) := by decide +kernel

theorem wit_LossOfSignal :
    (chan 0 [(fENG_STATUS_RX_LOS 0, 1), (fLINE_RX_STATUS_STATE 0, 9)]).flag (fENG_STATUS_RX_LOS 0) = true ∧
    ((chan 0 []).fld (fHUB_CTRL_ROLE 0) ≠ 1 ∧ (chan 0 []).flag (fENG_STATUS_RX_LOS 0) = false ∧ (chan 0 []).fld (fTST_LOOP_DEPTH 0) = 0) ∧
    (chan 0 [(fLINE_RX_STATUS_STATE 0, 8)]).rxSt 0 = 8 ∧ (chan 0 [(fLINE_RX_STATUS_STATE 0, 7)]).rxSt 0 = 7 ∧ (chan 0 []).rxSt 0 < 2 ∧
    (chan 0 []).rxDead 0 = false ∧ (chan 0 [(fHUB_CTRL_ROLE 0, 1)]).fld (fHUB_CTRL_ROLE 0) = 1 := by decide +kernel

theorem wit_ConverterSlices :
    ((chan 0 []).active 0 = true ∧ (chan 0 []).session (4 + (0 : Ch).val) = none ∧ (adcs AdcSt.init).rotates 0 1 = true ∧
      (adcs AdcSt.init).flag (fCONV_STATUS_PERMANENT 0 1) = false ∧ ((adcs AdcSt.init).adc 0 1).back = [] ∧ (adcs AdcSt.init).upos 0 1 ≠ 0) ∧
    (outOfRangeAdj (1, 2, 3) ((adcs AdcSt.init).rd (rCONV_ADJ 0 7)) = false ∧ outOfRangeAdj (257, 0, 0) ((adcs AdcSt.init).rd (rCONV_ADJ 0 7)) = true) ∧
    (let s := adcs { AdcSt.init with next := some 5 };
      s.active 0 = true ∧ s.upos 0 1 ≠ 127 ∧ (s.adc 0 1).tests = [] ∧ (s.adc 0 1).next = some 5) ∧
    (let s := adcs AdcSt.init;
      s.flag (fCONV_STATUS_FAILED 0 1) = false ∧ (63 : Fin 65).val ∉ (s.adc 0 1).lasting ∧ recentTransients s 0 1 63 < 2) ∧
    (2 ≤ recentTransients (adcs { AdcSt.init with trans := [(63, 0#64), (63, 1#64)] }) 0 1 63) ∧
    ((adcs { AdcSt.init with tests := [(0, false), (64, true)] }).adc 0 1).tests = (0, false) :: [(64, true)] ∧
    ((adcs { AdcSt.init with tests := [(0, true)] }).adc 0 1).tests = [(0, true)] ∧
    ((adcs { AdcSt.init with tests := [(64, false)], lasting := [7] }).adc 0 1).tests = [(64, false)] ∧
    ((adcs { AdcSt.init with lasting := [7] }).adc 0 1).lasting = [7] ∧ ((adcs { AdcSt.init with lasting := [7, 64] }).adc 0 1).lasting = [7, 64] ∧
    ((chan 0 []).flag (fCONV_STATUS_FAILED 0 (4 + (3 : Ch).val)) = false ∧ ((chan 0 []).engOf 0).dacTests = []) ∧
    (((chanE 0 { EngSt.init with dacTests := [(3, false)] } []).engOf 0).dacTests.find? fun x => x.1 == (3 : Ch).val) = some ((3 : Ch).val, false) ∧
    (cmdSliceTest.passes (rq 1 [0, 1, 64]) (adcs AdcSt.init) = true ∧ noCover (adcs AdcSt.init) 0 1 = false ∧
      cmdSliceTest.passes (rq 1 [0, 7, 0]) (adcs AdcSt.init) = true ∧ cmdSliceTest.passes (rq 1 [0, 0, 0]) (up []) = true ∧ (up []).active 0 = false) := by decide +kernel

/-- A receiver of channel 0 at 3 s of life. -/
def rcv (st : Nat) (l : LineSt) : State := { setLine 0 l (chan 0 [(fLINE_RX_STATUS_STATE 0, st), (fOH_RX_STATUS_DEFECTS 0, 0)]) with life := 3000000000#64 }

theorem wit_ReceiverAcquisition :
    ((chan 0 []).canAcquire 0 = true ∧ (chan 0 []).rxSt 0 ≤ 1) ∧ (let l : LineSt := { LineSt.init with held := true, est := some 5 }; l.held = true ∧ l.est.isSome = true) ∧ (chan 0 [(fENG_STATUS_RX_LOS 0, 1)]).flag (fENG_STATUS_RX_LOS 0) = true ∧
    ((rcv 7 LineSt.init).canAcquire 0 = true ∧ (rcv 7 LineSt.init).rxSt 0 = 7 ∧ (rcv 7 LineSt.init).defect 0 dOOF = false ∧ (rcv 7 LineSt.init).defect 0 dLOM = false ∧
      ((rcv 7 LineSt.init).lineOf 0).reacq = false) ∧
    (((rcv 2 LineSt.init).lineOf 0).start.toNat + 2000000000 ≤ (rcv 2 LineSt.init).life.toNat) ∧
    (let s := rcv 7 { LineSt.init with reacq := true };
      s.searchCentre 0 = none ∧ (s.lineOf 0).reacq = true ∧ (s.lineOf 0).start.toNat + 20000000 ≤ s.life.toNat ∧ s.canAcquire 0 = true) ∧
    ((rcv 9 LineSt.init).rxSt 0 = 9 ∧ ((rcv 9 LineSt.init).lineOf 0).heldAt.toNat + 100000000 ≤ (rcv 9 LineSt.init).life.toNat) ∧
    (chan 0 [(fLINE_RX_STATUS_STATE 0, 9)]).life.toNat < ((chan 0 [(fLINE_RX_STATUS_STATE 0, 9)]).lineOf 0).heldAt.toNat + 100000000 ∧
    (let s := rcv 6 { LineSt.init with failing := some 0#64 };
      (s.lineOf 0).failing = some 0#64 ∧ (0#64).toNat + 10000000 ≤ s.life.toNat ∧ s.flag (fLINE_RX_STATUS_MODE_SUSPECT 0) = false) ∧
    ((rcv 8 LineSt.init).rxSt 0 = 8 ∧ 3600 < (-3601 : Int).natAbs) := by decide +kernel

theorem wit_LineAndEngineRequests :
    cmdLineAcquire.passes (rq 1 [0]) (chan 0 []) = true ∧ cmdLineAcquire.passes (rq 1 [3]) (chan 0 []) = true ∧ (chan 0 []).active 3 = false ∧
    cmdLineReport.passes (rq 2 [3]) (up []) = true ∧ cmdEngReport.passes (rq 2 [3]) (up []) = true ∧
    (cmdLinePlan.passes (rq 1 [24, 12, 1, 5, 0]) (up []) = true ∧ entropyFits 1 (entropyOf 24 12) = true) ∧
    (cmdLinePlan.passes (rq 1 [32, 4, 1, 20, 1]) (up []) = true ∧ entropyFits 1 (entropyOf 32 4) = false) := by decide +kernel

/-- Worked example of R142 and rows of its tables (R138, R144). -/
theorem test_sizing : (entropyOf 24 12, osnrReq 1 562 12 5 false, slotWidth 12, slotWidth 4, slotWidth 9, slotWidth 16) = (562, 302, 2625, 1000, 2000, 3500) := by
  decide +kernel


/-- A running hub on channel 0 with entry 5 bound and ranged, and grant 7 of it on subcarrier 3. -/
def hubUp (l : List (Fld × Nat)) : State := chan 0 ([(fHUB_CTRL_ROLE 0, 1), (fLEAF_W0_VALID 0 5, 1), (fLEAF_W0_STATE 0 5, 2), (fGRANT_B_VALID 0 7, 1), (fGRANT_B_LEAF 0 7, 5),
  (fGRANT_A_SC 0 7, 3), (fGRANT_A_LEN 0 7, 8)] ++ l)

/-- The same with a burst receiver on subcarrier 3. -/
def brxUp (b : BurstRx) (l : List (Fld × Nat)) : State := setBrx 0 3 b (hubUp l)

/-- A receiver with grant 7 that has detected a burst. -/
def brxDet : BurstRx := { BurstRx.init with grant := some 7, det := some 320, level := -4000 }

/-- The bytes of a descriptor of a leaf, with its CRC. -/
def descBytes (leaf : Nat) : List Byte := let b := le 2 leaf ++ List.replicate 26 0#8; b ++ le 4 (crc32c b).toNat

/-- A discovery message of a serial. -/
def discBytes (serial : Nat) : List Byte := let b := le 8 serial ++ List.replicate 24 0#8; b ++ le 4 (crc32c b).toNat

/-- An entry of the stage-door list. -/
def sdEntry (serial : Nat) : SdEntry := ⟨serial, [], 800, 0, 0, 0, [], 0#64, 1⟩

theorem wit_BurstDetection :
    (let s := hubUp [];
      s.isHub (0 : Ch) = true ∧ s.flag (fGRANT_B_VALID 0 (7 : Fin 4096)) = true ∧ s.leafBound 0 (s.fld (fGRANT_B_LEAF 0 7)) = true ∧
        s.flipsIn (stLEAF 0) (s.fld (fGRANT_B_LEAF 0 7)) < 2) ∧
    (let s := setFlips (stLEAF 0) 5 2 (hubUp []); s.leafBound 0 (s.fld (fGRANT_B_LEAF 0 7)) = true ∧ 2 ≤ s.flipsIn (stLEAF 0) (s.fld (fGRANT_B_LEAF 0 7))) ∧
    (hubUp [(fLEAF_W0_STATE 0 5, 0)]).leafBound 0 ((hubUp [(fLEAF_W0_STATE 0 5, 0)]).fld (fGRANT_B_LEAF 0 7)) = false ∧ (chan 0 []).isHub 0 = false ∧
    (let s := brxUp { BurstRx.init with grant := some 7 } [];
      s.armed 0 3 = true ∧ (s.brx 0 3).det = none) ∧
    (let s := brxUp brxDet [];
      s.armed 0 3 = true ∧ (s.brx 0 3).det = some 320 ∧ (s.brx 0 3).grant.isSome = true ∧ 320 + 512 ≤ 832 ∧ 831 < 320 + 512 ∧
        (s.brx 0 3).level + 300 ≤ -3700 ∧ (-3701 : Int) < (s.brx 0 3).level + 300) := by decide +kernel

theorem wit_BurstReception :
    (let s := brxUp brxDet [(fHUB_STATUS_HUB_LOS 0, 1)];
      s.armed 0 3 = true ∧ (s.brx 0 3).grant = some (7 : Fin 4096).val ∧ (s.brx 0 3).det.isSome = true ∧ (-192 : Int).natAbs ≤ 192 ∧ 192 < (193 : Int).natAbs) ∧
    (let s := brxUp { brxDet with commit := some 16 } [(fLEAF_W0_STATE 0 5, 1)];
      s.isHub 0 = true ∧ (s.brx 0 3).commit = some 16 ∧ (s.brx 0 3).desc = none ∧ (s.brx 0 3).discard = false ∧ (s.brx 0 3).collided = false) ∧
    (let s := brxUp { brxDet with commit := some 0, desc := some ⟨0, 0, 0, 0⟩ } [];
      (burstCws (burstBlocks (s.fld (fGRANT_A_LEN 0 7))))[(s.brx 0 3).chunks.length]? = some 1024 ∧ (s.brx 0 3).desc.isSome = true) ∧
    (brxUp brxDet []).isHub 0 = true ∧ ((brxUp brxDet []).brx 0 3).commit = none ∧ ((brxUp { brxDet with collided := true } []).brx 0 3).collided = true := by decide +kernel

theorem wit_BurstContents :
    (let s := brxUp { brxDet with commit := some 0, desc := some ⟨9, 1, 0, 0⟩, chunks := [(true, List.replicate 256 0#8)] } [(fSLOT_MAP_ASSIGNED_E 0 0, 1), (fSLOT_MAP_CLIENT_E 0 0, 5)];
      s.isHub 0 = true ∧ (s.brx 0 3).grant = some (7 : Fin 4096).val ∧ (s.brx 0 3).discard = false ∧ s.fld (fGRANT_B_LEAF 0 7) = 5 ∧
        clientSlots s.rx 0 5 = [0] ∧ chunkBytes (s.brx 0 3).chunks 0 32 = some (List.replicate 32 0#8) ∧ (s.hubOf 0).nextRel = none) ∧
    chunkBytes [(true, List.replicate 256 1#8)] 0 16 = some (List.replicate 16 1#8) ∧ chunkBytes [(false, List.replicate 256 1#8)] 0 16 = none := by decide +kernel

/-- What a burst's descriptor says of its owner, and one that names another. -/
theorem test_descriptors : descGood (descBytes 5) = true ∧ descLeaf (descBytes 5) = 5 ∧ descLeaf (descBytes 6) ≠ 5 ∧
    descGood ((descBytes 5).set 31 1#8) = false := by decide +kernel

theorem wit_StageDoor :
    (let s := hubUp [(fHUB_SD_SD_EN 0, 1), (fHUB_SD_PERIOD_PERIOD 0, 1)];
      s.isHub 0 = true ∧ s.flag (fHUB_SD_SD_EN 0) = true ∧ s.hubCycle 0 % (10 * s.fld (fHUB_SD_PERIOD_PERIOD 0)) = 0) ∧ (hubUp [(fHUB_SD_SD_EN 0, 0)]).flag (fHUB_SD_SD_EN 0) = false ∧
    (let s := hubUp [(fHUB_STATUS_SD_OPEN 0, 1), (fLEAF_W7_SERIAL_LO 0 5, 77)];
      s.flag (fHUB_STATUS_SD_OPEN 0) = true ∧ s.rxDead 0 = false ∧ (discBytes 77).length = 36 ∧ fld (discBytes 77) 32 4 = (crc32c (slice (discBytes 77) 0 32)).toNat ∧
        s.boundTo 0 (fld (discBytes 77) 0 8) = some 5 ∧ s.boundTo 0 (fld (discBytes 78) 0 8) = none ∧ (s.hubOf 0).list.length < 64 ∧
        (∀ e ∈ (s.hubOf 0).list, e.serial ≠ fld (discBytes 78) 0 8)) ∧
    (let s := setHub 0 { HubSt.init with list := [sdEntry 78] } (hubUp [(fHUB_STATUS_SD_OPEN 0, 1)]);
      ((s.hubOf 0).list.find? fun e => e.serial == fld (discBytes 78) 0 8) = some (sdEntry 78) ∧ s.boundTo 0 (fld (discBytes 78) 0 8) = none) ∧
    (hubUp []).fld (fHUB_ROGUE_ROGUE_LIMIT 0) = 0 ∧
    (let s := setLeafX 0 5 { LeafX.init with rogueSec := 4 } (hubUp [(fHUB_ROGUE_ROGUE_LIMIT 0, 4)]);
      s.fld (fHUB_ROGUE_ROGUE_LIMIT 0) ≠ 0 ∧ (5, { LeafX.init with rogueSec := 4 }) ∈ (s.hubOf 0).leaves ∧ s.leafBound 0 5 = true) := by decide +kernel

theorem wit_HubLossAndFrames :
    ((hubUp [(fHUB_STATUS_HUB_LOS 0, 0)]).flag (fHUB_STATUS_HUB_LOS 0) = false ∧ grantsIn (hubUp []).regs 0 ≠ [] ∧ (hubUp [(fHUB_STATUS_HUB_LOS 0, 0)]).isHub 0 = true ∧ grantsIn (chan 0 []).regs 0 = []) ∧
    (let s := setHub 0 { HubSt.init with nextRel := some 9 } (setOh 0 { OhSt.init with tx := { TxFramer.init with fn := 5009 } } (hubUp [(fLINE_MODE_NET_RATE 0, 32), (fHUB_PLAYOUT_PLAYOUT 0, 200)]));
      (s.hubOf 0).nextRel = some 9 ∧ s.isHub 0 = true ∧ s.rxDead 0 = false ∧ s.playoutOver 0 9 = true) ∧
    (let s := setHub 0 { HubSt.init with nextRel := some 9 } (hubUp []);
      (s.hubOf 0).nextRel = some 9 ∧ s.playoutOver 0 9 = false) ∧
    (let p : Pending := ⟨0, 0, ⟨host, 0, false, 1⟩⟩;
     let r : Rehearsal := ⟨12, host, [], some p, none⟩;
     let s : State := { setHub 0 { HubSt.init with mapCycle := some 0 } (hubUp []) with rehearsals := [r] };
      (s.hubOf 0).mapCycle = some 0 ∧ s.isHub 0 = true ∧ cycleReached (s.hubCycle 0) 0 = true ∧ s.session (12 + (0 : Ch).val) = some r ∧ r.cue = some p) ∧
    cycleReached ((setHub 0 { HubSt.init with mapCycle := some 1 } (hubUp [])).hubCycle 0) 1 = false := by decide +kernel

theorem wit_HubRequests :
    (let s := setHub 0 { HubSt.init with list := [sdEntry 78] } (hubUp [(fLEAF_W0_VALID 0 6, 1), (fHUB_PLAYOUT_PLAYOUT 0, 200)]);
      cmdHubLeafAdmit.passes (rq 1 [0, 0, 6, 0, 78, 0, 0, 0, 0, 0, 0, 0]) s = true ∧ s.fld (fHUB_CTRL_ROLE 0) = 1 ∧ s.flag (fLEAF_W0_VALID 0 6) = true ∧
        s.fld (fLEAF_W0_STATE 0 6) = 0 ∧ s.boundTo 0 78 = none ∧ ((s.hubOf 0).list.find? fun e => e.serial == 78) = some (sdEntry 78) ∧
        800 + 174000 * 8 ≤ s.fld (fHUB_PLAYOUT_PLAYOUT 0) * 8000 ∧ s.fld (fLEAF_W0_STATE 0 5) ≠ 0) ∧
    (let s := setHub 0 { HubSt.init with list := [sdEntry 78] } (hubUp [(fLEAF_W0_VALID 0 6, 1), (fHUB_PLAYOUT_PLAYOUT 0, 174)]);
      s.fld (fHUB_PLAYOUT_PLAYOUT 0) * 8000 < 800 + 174000 * 8) ∧
    (let s := hubUp [];
      cmdHubSdList.passes (rq 2 [0]) s = true ∧ cmdHubLeafEvict.passes (rq 1 [0, 0, 6, 0]) s = true ∧ entryNamed s.rd (grantsIn s.regs 0) 0 6 = false ∧
        entryNamed s.rd (grantsIn s.regs 0) 0 5 = true ∧ cmdHubLeafSilence.passes (rq 1 [0, 1, 5, 0]) s = true ∧ cmdHubLeafSilence.passes (rq 1 [0, 0, 5, 0]) s = true ∧
        cmdHubReport.passes (rq 3 [0]) s = true ∧ cmdHubLeafReport.passes (rq 2 [0, 0, 255, 3]) s = true ∧ cmdHubReport.passes (rq 3 [3]) s = true ∧
        s.fld (fHUB_CTRL_ROLE 3) ≠ 1) := by decide +kernel

/-- A leaf on channel 1, aligned and locked on its listen subcarrier. -/
def leafUp (st : Nat) (lf : LeafSt) (l : List (Fld × Nat)) : State :=
  setHunt 1 0 { Hunt.init with align := some 0, mfLock := true } (setLeaf 1 lf (chan 1 ([(fHUB_CTRL_ROLE 1, 2), (fLINE_RX_STATUS_STATE 1, 8), (fLEAF_STATUS_STATE 1, st),
    (fLEAF_STATUS_LEAF_ID 1, 1023), (fLEAF_CTRL_AUTO_JOIN 1, 1), (fLEAF_CTRL_LISTEN_SC 1, 0), (fLINE_MODE_NET_RATE 1, 32)] ++ l)))

theorem wit_LeafMessages :
    (let s := leafUp 4 { LeafSt.init with joined := true } [];
      s.isLeaf 1 = true ∧ s.leafUp 1 = true ∧ (s.leafOf 1).joined = true ∧ (s.leafOf 1).silenced = false ∧ bit 1 0 = true ∧ (s.leafOf 1).ann ≠ some 0 ∧
        msgOf 1 (leafMsg 1 1023 (2 ^ 40 - 1)) = some (1023, 2 ^ 40 - 1)) ∧
    ((leafUp 6 { LeafSt.init with joined := true, silenced := true } []).leafOf 1).silenced = true ∧
    (let s := leafUp 6 { LeafSt.init with silenced := true } []; s.isLeaf 1 = true ∧ (s.leafOf 1).joined = false ∧ (s.leafOf 1).silenced = true ∧ bit 0 0 = false) ∧
    (let s := leafUp 3 { LeafSt.init with nonce := [1#8, 0#8, 0#8, 0#8] } [];
      s.leafSt 1 = 3 ∧ bits 256 39 8 = unle (s.leafOf 1).nonce ∧ (s.leafOf 1).joined = false) ∧
    (let s := leafUp 5 LeafSt.init [(fLINE_RX_STATUS_STATE 1, 9)];
      s.isLeaf 1 = true ∧ 1 < s.leafSt 1 ∧ s.leafUp 1 = false) ∧
    (cmdLeafJoin.passes (rq 1 [1, 1]) (leafUp 2 LeafSt.init []) = true ∧ cmdLeafJoin.passes (rq 1 [1, 0]) (leafUp 5 LeafSt.init []) = true ∧
      cmdLeafJoin.passes (rq 1 [1, 1]) (leafUp 6 LeafSt.init []) = true ∧ (leafUp 6 LeafSt.init []).leafSt 1 = 6) := by decide +kernel

theorem wit_LeafFires :
    (let g : GrantMsg := ⟨0, 3, 0, 8⟩;
     let l := { LeafSt.init with joined := true, run := [g], runCount := 1, stamp := some (4, 0, 0#64) };
     let s := leafUp 5 l [];
      s.leafUp 1 = true ∧ s.leafSt 1 = 5 ∧ (s.leafOf 1).newRtd = none ∧ timeline s (s.leafOf 1) = some (4, 0) ∧ ((mapTurn 4 l).run.find? fun g => g.idx == 0) = some g ∧
        arrival 1 (4, 0) s = 4 * 512000 ∧ mapHeld l = true ∧ onTime (4 * 512000) g = true ∧ s.stampFresh 1 = true ∧ onTime (4 * 512000 + 128) g = false ∧
        mapHeld { l with runCount := 2 } = false) ∧
    (let s : State := { leafUp 5 { LeafSt.init with joined := true, run := [⟨0, 3, 0, 8⟩], runCount := 1, stamp := some (4, 0, 0#64) } [] with life := 100000000#64 };
      timeline s (s.leafOf 1) = some (1004, 0) ∧ s.stampFresh 1 = false ∧ onTime (arrival 1 (1004, 0) s) ⟨0, 3, 0, 8⟩ = true) ∧
    ((leafUp 5 { LeafSt.init with newRtd := some (77, 4) } []).leafOf 1).newRtd = some (77, 4) ∧
    (let s := leafUp 2 { LeafSt.init with openings := 63, stamp := some (0, 100, 0#64) } [(fHUB_SD_SD_WIDTH 1, 1), (fHUB_SD_SD_OFFSET 1, 0), (fLEAF_CTRL_RTD_HINT 1, 0)];
      s.leafUp 1 = true ∧ (s.leafOf 1).joined = false ∧ (s.leafOf 1).silenced = false ∧ s.flag (fLEAF_CTRL_AUTO_JOIN 1) = true ∧ s.leafSt 1 = 2 ∧
        (s.leafOf 1).openings % 64 = 63 ∧ s.stampFresh 1 = true ∧ timeline s (s.leafOf 1) = some (0, 100) ∧ aimed 1 (0, 100) s = true ∧ aimed 1 (0, 220) s = false) := by decide +kernel


theorem wit_FramesSent :
    ((chan 0 []).active 1 = false ∧ (chan 0 []).active 0 = true ∧ (chan 0 []).memberB 0 = false ∧ (chan 0 []).fld (fLINE_MODE_IOP 0) = 0 ∧
      (chan 0 []).fld (fHUB_CTRL_ROLE 0) ≠ 1 ∧ (chan 0 []).fld (fHUB_CTRL_ROLE 0) ≠ 2) ∧
    (chan 0 [(fLINE_MODE_IOP 0, 1)]).fld (fLINE_MODE_IOP 0) ≠ 0 ∧ (hubUp []).fld (fHUB_CTRL_ROLE 0) = 1 ∧ (hubUp []).memberB 0 = false ∧
    (chan 2 [(fMRG_CFG_VALID 0, 1), (fMRG_CFG_CH_A 0, 1), (fMRG_CFG_CH_B 0, 2)]).memberB 2 = true ∧
    (let s := leafUp 5 { LeafSt.init with joined := true } [];
      s.active 1 = true ∧ s.fld (fHUB_CTRL_ROLE 1) = 2 ∧ s.leafSt 1 = 5 ∧ s.leafUp 1 = true ∧ s.leafFn 1 ≠ ((s.ohOf 1).lastFn + 1) % 2 ^ 48 ∧
        each ([] : List (Nat × List HostCw)) (fun e s => portIn e.1 e.2 s) s = s) ∧
    ((chan 0 [(fFEC_CTRL_LOW_LAT 0, 1)]).flag (fFEC_CTRL_LOW_LAT 0) = true ∧ (chan 0 []).flag (fFEC_CTRL_LOW_LAT 0) = false ∧ ((chan 0 []).ohOf 0).tx.fn % 16 ≠ 15) ∧
    (leafUp 4 { LeafSt.init with joined := true } []).leafSt 1 ≠ 5 := by decide +kernel

/-- A native receiver in SYNC at bit position 9. -/
def inSync (miss : Nat) : State := setHunt 0 0 { Hunt.init with align := some 9, miss := miss, mfLock := true } (rcv 8 LineSt.init)

/-- The same receiver hunting, with a position that has matched twice. -/
def hunting : State := setHunt 0 0 { Hunt.init with cands := [(0, 2)] } (rcv 8 LineSt.init)

/-- Bytes that begin with the frame alignment word. -/
def fawFirst : List Byte := be 8 0xF5A31C6E0B97D24D ++ [0#8, 0#8]

theorem wit_FramesReceived :
    (9 ∈ [9] ∧ 9 ∉ [8] ∧ ({ Hunt.init with align := some 9, miss := 3 } : Hunt).miss < 4) ∧ (Hunt.init.mfLock = false ∧ 255 < 256) ∧
    (({ Hunt.init with mfLock := true, mfNext := 3 } : Hunt).mfLock = true ∧ 3 = ({ Hunt.init with mfLock := true, mfNext := 3 } : Hunt).mfNext) ∧
    ((rcv 2 LineSt.init).active 0 = true ∧ (rcv 2 LineSt.init).rxSt 0 = 2 ∧ (rcv 6 LineSt.init).rxSt 0 = 6 ∧ (rcv 2 LineSt.init).active 1 = false) ∧
    ((chan 0 [(fLINE_MODE_IOP 0, 2), (fLINE_RX_STATUS_STATE 0, 7)]).softBits 0 = true ∧ (chan 0 [(fLINE_MODE_IOP 0, 2)]).fld (fLINE_MODE_IOP 0) ≠ 0) ∧
    ((inSync 4).softBits 0 = true ∧ (inSync 4).fld (fHUB_CTRL_ROLE 0) = 0 ∧ (inSync 4).fld (fLINE_MODE_IOP 0) = 0 ∧ ((inSync 4).hunt 0 0).align = some 9 ∧
      ((inSync 4).hunt 0 0).miss = 4) ∧
    (fawHits fawFirst = [0] ∧ (inSync 4).lineLoop 0 = false ∧ 9 ∉ fawHits fawFirst ∧
      ((setHunt 0 0 { Hunt.init with align := some 0 } (rcv 8 LineSt.init)).hunt 0 0).align = some 0) ∧
    (hunting.softBits 0 = true ∧ hunting.lineLoop 0 = false ∧ (hunting.hunt 0 0).align = none ∧ (huntPeriod (fawHits fawFirst) (hunting.hunt 0 0)).align = none ∧
      (huntPeriod (fawHits fawFirst) (hunting.hunt 0 0)).lead.isSome = true ∧ (hunting.lineOf 0).failing = none) ∧
    ((chan 0 [(fTST_LOOP_DEPTH 0, 4)]).lineLoop 0 = true ∧ ((chan 0 [(fTST_LOOP_DEPTH 0, 4)]).lineOf 0).loop = [] ∧
      (chan 0 [(fTST_LOOP_DEPTH 0, 4)]).fld (fLINE_MODE_IOP 0) = 0) ∧
    near [true, false, true] [true, true, true, false] 1 = true ∧
    ((rcv 8 LineSt.init).active 0 = true ∧ ((rcv 8 LineSt.init).ohOf 0).since.toNat + 3000000 ≤ (rcv 8 LineSt.init).life.toNat ∧
      (chan 0 []).life.toNat < ((chan 0 []).ohOf 0).since.toNat + 3000000) := by decide +kernel

theorem wit_FecWindows :
    (let s := setFec 0 { FecSt.init with bits := 1000, errs := 1, frmUnc := 2 } (chan 0 [(fFEC_UNC_UNC_LIMIT 0, 2)]);
      s.memberOf 0 = none ∧ 0 < (s.fecOf 0).bits ∧ 1 ≤ s.fld (fFEC_SD_SD_SET 0) ∧ 1 ≤ s.fld (fFEC_SD_SD_CLR 0) ∧
        s.fld (fFEC_UNC_UNC_LIMIT 0) ≠ 0 ∧ s.fld (fFEC_UNC_UNC_LIMIT 0) ≤ (s.fecOf 0).frmUnc) ∧
    ((chan 0 []).fecOf 0).bits = 0 ∧ (rcv 8 LineSt.init).rxSt 0 = 8 ∧ (chan 0 [(fLINE_MODE_NSC 0, 8)]).rxNsc 0 ≤ 2 * 4 ∧ (rcv 2 LineSt.init).rxSt 0 = 2 ∧
    (rcv 2 LineSt.init).fld (fHUB_CTRL_ROLE 0) ≠ 1 ∧ cmdFecReport.passes (rq 2 [3]) (up []) = true ∧
    cmdFecSet.passes (rq 1 ([0, 8, 0, 0] ++ List.replicate 12 0 ++ [1, 0, 100, 0])) (chan 0 []) = true := by decide +kernel

theorem wit_PerformanceSeconds :
    ((chan 3 []).active 3 = true ∧ (chan 3 []).active 2 = false) ∧
    (let w : PmSec := ⟨0, none, true, true, false⟩;
     let s := setOh 0 { OhSt.init with pm := { PmSt.init with wait := List.replicate 11 w } } (chan 0 []);
      (s.ohOf 0).pm.wait = w :: List.replicate 10 w ∧ 10 ≤ (List.replicate 10 w).length ∧ (s.ohOf 0).pm.unavail = false) ∧
    ((chan 0 []).ohOf 0).pm.wait.length < 11 ∧
    (let s := chan 0 [(fSLOT_MAP_ASSIGNED_O 0 255, 1), (fSLOT_MAP_CLIENT_O 0 255, 9), (fCLIENT_TYPE 0 9, 6)];
      s.fld (fCLIENT_TYPE 0 (9 : Fin 512)) = 6 ∧ (9 : Fin 512).val ∈ assignedClients s.rd 0 ∧ s.active 0 = true ∧ s.fld (fLINE_MODE_IOP 0) = 0 ∧
        (s.mapper 0 9).skip = false ∧ (s.mapper 0 9).buf.length < 8192 ∧
        ((setMapper 0 9 { MapTx.init with buf := List.replicate 8192 errorBlk } s).mapper 0 9).buf.length = 8192 ∧
        ((setMapper 0 9 { MapTx.init with skip := true } s).mapper 0 9).skip = true) ∧
    (blkIdle errorBlk = false ∧ blkStart errorBlk = false ∧ blkIdle idleBlk = true ∧ blkStart ⟨true, 0x78#64⟩ = true) ∧
    (let s := chan 0 [(fCLIENT_TYPE 0 9, 6), (fXBAR_CLIENT_VALID 0 9, 1)];
      s.fld (fCLIENT_TYPE 0 9) = 6 ∧ s.active 0 = true ∧ s.flag (fXBAR_CLIENT_VALID 0 9) = true) ∧
    ((chan 3 []).active 0 = false ∧ (chan 3 []).active 1 = false) := by decide +kernel

theorem wit_OverheadRequests :
    (cmdOhTraceSet.passes (rq 1 ([0, 0, 0, 0] ++ List.replicate 252 1)) (chan 0 []) = true ∧ (chan 0 []).notP2p 0 = false ∧
      cmdOhTraceSet.passes (rq 1 ([0, 0, 0, 0] ++ List.replicate 252 1)) (hubUp []) = true ∧ (hubUp []).notP2p 0 = true) ∧
    (cmdOhTraceGet.passes (rq 2 [0, 1]) (chan 0 []) = true ∧ cmdOhTraceGet.passes (rq 2 [0, 0]) (chan 0 [(fLINE_MODE_IOP 0, 1)]) = true) ∧
    (cmdDmRun.passes (rq 1 [0]) (chan 0 []) = true ∧ cmdDmRun.passes (rq 1 [0]) (hubUp []) = true) ∧
    (cmdPerfLatchRead.passes (rq 1 [0, 63, 0, 0, 0, 0, 0, 0, 0, 0, 0, 0]) (chan 0 [(fMEM_STATUS_HBM_READY, 1)]) = true ∧
      cmdPerfLatchRead.passes (rq 1 [0, 1, 0, 0, 0, 0, 0, 0, 0, 0, 0, 0]) (setOh 0 { OhSt.init with latches := [(0, [9#8])] } (chan 0 [])) = true ∧
      fld [9#8] 0 8 = 9 ∧ (chan 0 []).flag fMEM_STATUS_HBM_READY = false ∧ ((chan 0 []).ohOf 0).latches = [] ∧
      cmdPerfLatchRead.passes (rq 1 [0, 1, 0, 0, 0, 0, 0, 0, 0, 0, 0, 0]) (chan 0 []) = true ∧
      cmdPerfLatchRead.passes (rq 1 [0, 1, 0, 0, 0, 0, 0, 0, 0, 0, 0, 0]) (chan 0 [(fLINE_MODE_IOP 0, 1)]) = true) ∧
    ((up []).ready = true ∧ State.reset.ready = false) := by decide +kernel


/-- Pair slot 0 valid and running with channels 0 and 1. -/
def pairUp (x : MrgSt) (l : List (Fld × Nat)) : State := setPair 0 x (chan 0 ([(fMRG_CFG_VALID 0, 1), (fMRG_CFG_CH_B 0, 1), (fMRG_STATUS_STATE 0, 2), (fPD 28, 2)] ++ l))

/-- A clean frame, a copy of it, and a pair that stores it for member A. -/
def frame5 : RxFrame := ⟨[], 0, 5, none⟩
def held5 (far : Bool) : MrgSt :=
  { MrgSt.init with next := some 5, mem := ⟨⟨some (5, 100), some (5, 100), 0, 0, [⟨frame5, far⟩]⟩, ⟨none, none, 0, 0, []⟩⟩, ledger := [(5, some ⟨5, 5, 0, 3, true, false, 3, none, none, 0, 100, 0, 0⟩)] }

theorem wit_MergeDecisions :
    (let s := pairUp (held5 false) [];
      (s.pairSt 0).copy 0 5 = some ⟨frame5, false⟩ ∧ (s.pairSt 0).copy 1 5 = none ∧ s.fld (fMRG_STATUS_PREFERRED 0) = 0 ∧ s.flag (fMRG_STATUS_EXCLUSIVE 0) = false ∧
        (s.pairSt 0).next = some 5 ∧ (s.pairSt 0).badEntries.contains (5 % 65536) = false ∧ s.flipsIn (stLEDGER 0) (5 % 65536) < 2 ∧ s.select 0 5 = some 0) ∧
    (pairUp { MrgSt.init with next := some 5 } []).select 0 5 = none ∧
    (pairUp (held5 false) [(fMRG_STATUS_PREFERRED 0, 1), (fMRG_STATUS_EXCLUSIVE 0, 1)]).select 0 5 = none ∧
    (pairUp (held5 false) [(fMRG_STATUS_PREFERRED 0, 1)]).select 0 5 = some 0 := by decide +kernel

theorem wit_MergeCopies :
    (let s := setOh 1 { OhSt.init with toMerge := [frame5] } (pairUp MrgSt.init []);
      (s.ohOf (s.memCh 0 1)).toMerge = frame5 :: [] ∧ s.mergeUp 0 = true ∧ (pairUp MrgSt.init [(fPD 28, 0)]).mergeUp 0 = false) ∧ ((pairUp MrgSt.init []).ohOf 1).toMerge = [] ∧
    (let s := pairUp (held5 false) [];
      (s.pairSt 0).next = some 5 ∧ s.predicted 0 1 5 = some (100 * 65536) ∧ 0 ≤ fnDiff 5 5 ∧ fnDiff 5 5 < s.pairCap 0 ∧
        (((s.pairSt 0).entry 5).getD (s.freshEntry 0 5)).done 1 = false ∧
        (100 * 65536 : Int) + (s.fld (fMRG_CFG_GUARD 0) : Int) * 65536 ≤ (400 : Int) * 65536 ∧
        (100 : Int) * 65536 < 100 * 65536 + (s.fld (fMRG_CFG_GUARD 0) : Int) * 65536) ∧
    (let s := pairUp (held5 true) [];
      (s.pairSt 0).copy 0 5 = some ⟨frame5, true⟩ ∧ ((s.pairSt 0).entry 5).isSome = true ∧ s.mergeUp 0 = true) ∧
    ((pairUp (held5 true) []).pairSt 0).copy 1 5 = none ∧
    (let e : Ledger := ⟨5, 5, 0, 0, true, true, 0, none, none, 0, 100, 100, 200⟩;
     let s := pairUp { MrgSt.init with ledger := [(5, some e)] } [];
      (s.pairSt 0).entry 5 = some e ∧ e.decision ≠ 3 ∧ e.td + 800000 ≤ 800200 ∧ 800199 < e.td + 800000) ∧
    ((up []).ready = true ∧ State.reset.ready = false ∧ ((pairUp (held5 true) []).pairSt 0).occ < 2 ^ 17) := by decide +kernel

theorem wit_MergeSwitching :
    (chan 0 []).fld (fMRG_STATUS_STATE 0) = 0 ∧ (pairUp MrgSt.init []).fld (fMRG_STATUS_STATE 0) ≠ 0 ∧
    ((pairUp MrgSt.init [(fMRG_CFG_REVERT 0, 1)]).flag (fMRG_CFG_REVERT 0) = true ∧ (pairUp MrgSt.init [(fMRG_CFG_REVERT 0, 0)]).flag (fMRG_CFG_REVERT 0) = false) ∧
    ((pairUp MrgSt.init [(fMRG_STATUS_WTR_RUN 0, 1)]).flag (fMRG_STATUS_WTR_RUN 0) = true ∧ (pairUp MrgSt.init []).flag (fMRG_STATUS_WTR_RUN 0) = false) ∧
    (let s : State := { pairUp { MrgSt.init with crossCond := true } [] with life := 1000000000#64 };
      s.fld (fMRG_STATUS_STATE 0) ≠ 0 ∧ (s.pairSt 0).crossAt.toNat + 1000000000 ≤ s.life.toNat ∧ (s.pairSt 0).crossCond = true ∧ s.flag (fMRG_STATUS_CROSSED 0) = false) ∧
    (pairUp MrgSt.init []).life.toNat < ((pairUp MrgSt.init []).pairSt 0).crossAt.toNat + 1000000000 ∧
    (let s := pairUp { MrgSt.init with moved := true } [(fMRG_STATUS_MEMBER_A 0, 1), (fMRG_STATUS_MEMBER_B 0, 1), (fMRG_CFG_REVERT 0, 1), (fMRG_CFG_WTR 0, 5)];
      s.reqsNow 0 = [] ∧ (s.pairSt 0).moved = true ∧ s.flag (fMRG_CFG_REVERT 0) = true ∧ s.fld (fMRG_CFG_WTR 0) ≠ 0) ∧
    (⟨0xD, 0, false⟩ : SwReq) ∈ (pairUp MrgSt.init []).reqsNow 0 ∧
    (2 ≤ (pairUp MrgSt.init []).fld (fMRG_STATUS_STATE 0) ∧ (pairUp MrgSt.init []).mergeUp 0 = true ∧ (pairUp MrgSt.init []).fld (fMRG_STATUS_MEMBER_A 0) ≠ 1 ∧ (pairUp MrgSt.init []).fld (fMRG_STATUS_MEMBER_B 0) ≠ 1) ∧
    (pairUp MrgSt.init [(fMRG_STATUS_MEMBER_B 0, 1)]).fld (fMRG_STATUS_MEMBER_B 0) = 1 := by decide +kernel

theorem wit_PairRequests :
    (cmdPairCreate.passes (rq 1 [1, 2, 3, 0, 0xD0, 2, 255, 0]) (up [(fPD 28, 3)]) = true ∧ (up [(fPD 28, 3)]).session (16 + 1) = none ∧
      (up [(fPD 28, 3)]).flag (fMRG_CFG_VALID 1) = false ∧ (up [(fPD 28, 3)]).fld (fPD 28) ≠ 0 ∧ (up []).fld (fPD 28) = 0 ∧
      (up [(fPD 28, 3)]).flag fSYS_BOOT_STATUS_HBM_FAIL = false) ∧
    (cmdPairCreate.passes (rq 1 [0, 2, 3, 0, 0, 0, 8, 0]) (pairUp MrgSt.init []) = true ∧ (pairUp MrgSt.init []).flag (fMRG_CFG_VALID 0) = true) ∧
    (cmdPairCreate.passes (rq 1 [0, 2, 3, 1, 0, 0, 8, 0]) (up [(fSYS_BOOT_STATUS_HBM_FAIL, 1)]) = true) ∧
    (cmdPairDelete.passes (rq 1 [0]) (pairUp MrgSt.init []) = true ∧ cmdPairDelete.passes (rq 1 [1]) (pairUp MrgSt.init []) = true) ∧
    (cmdPairRequest.passes (rq 1 [0, 15]) (pairUp MrgSt.init []) = true ∧ cmdPairRequest.passes (rq 1 [1, 0]) (pairUp MrgSt.init []) = true) ∧
    cmdPairReport.passes (rq 2 [1]) (up []) = true ∧
    (cmdPairLedgerRead.passes (rq 2 [0, 169, 5, 0, 0, 0, 0, 0]) (pairUp (held5 false) []) = true ∧ (((pairUp (held5 false) []).pairSt 0).entry 5).isSome = true ∧
      ((pairUp (held5 false) []).pairSt 0).entry 6 = none ∧ cmdPairLedgerRead.passes (rq 2 [0, 1, 6, 0, 0, 0, 0, 0]) (pairUp (held5 false) []) = true) := by decide +kernel


/-- A part with its cipher cluster on, its key store's own state x, and some fields. -/
def cphUp (x : CphSt) (l : List (Fld × Nat)) : State := { up ([(fPD 29, 2)] ++ l) with cph := x }

/-- Session 7 bound to client 0 of channel 0, which has every slot, with transmit context 2 in a state. -/
def bound7 (x : CphSt) (st : Nat) (l : List (Fld × Nat)) : State :=
  let s := cphUp x ([(fCLIENT_SESSION 0 0, 7), (fCPH_CTX_A_STATE 2, st), (fCPH_CTX_A_SESSION 2, 7)] ++ l)
  { s with regs := s.regs ++ (span 0 256).map fun k => (rSLOT_MAP 0 k, 0x80008000#32) }

/-- Session 0 is bound nowhere. -/
theorem sessionAt_zero (s : State) : s.sessionAt 0 = none := by
  unfold State.sessionAt boundSessions
  rw [List.findSome?_eq_none_iff]
  intro n _
  split
  · rfl
  · rw [List.findSome?_eq_none_iff]
    intro e he
    have := (List.mem_filter.mp he).2
    have h : e.1 ≠ 0 := by simpa using this
    simp [h]

/-- An unwrapped record: key, salt, session 7, direction 0. -/
def rec7 : List Byte := List.replicate 36 1#8 ++ [0#8, 7#8, 0#8, 0#8]

/-- KEY_ESTABLISH passes with a point the curve has: whether it has is opaque (assumption 6). -/
theorem wit_KeyCommands_point (h : Config.pointOk (slice (rq 1 (List.replicate 116 0)).params 0 97) = true) :
    cmdKeyEstablish.passes (rq 1 (List.replicate 116 0)) (up []) = true := by
  have e : cmdKeyEstablish.params (rq 1 (List.replicate 116 0)).params ((up []).taken (rq 1 (List.replicate 116 0)) 0x0400) = none := by
    simp only [cmdKeyEstablish, h]; decide +kernel
  have e2 : cmdKeyEstablish.code = 0x0400 := rfl
  unfold Cmd.passes
  simp only [e2, e]
  decide +kernel

/-- KEY_INSTALL passes with a blob that unwraps to a good record: whether it does is opaque (assumption 6). -/
theorem wit_KeyCommands_blob (h : Config.unwrap [] (slice (rq 1 (List.replicate 52 0)).params 4 48) = some rec7) :
    let s := cphUp { CphSt.init with kek := some [] } [];
    cmdKeyInstall.passes (rq 1 (List.replicate 52 0)) s = true ∧ s.blob (rq 1 (List.replicate 52 0)).params = some rec7 := by
  intro s
  have e : ∀ t : State, t.cph.kek = some [] → t.blob (rq 1 (List.replicate 52 0)).params = some rec7 := by
    intro t ht; simp only [State.blob, ht, h]
  have k1 : (s.taken (rq 1 (List.replicate 52 0)) 0x0401).cph.kek = some [] := by decide +kernel
  refine ⟨?_, e s (by decide +kernel)⟩
  have p : cmdKeyInstall.params (rq 1 (List.replicate 52 0)).params (s.taken (rq 1 (List.replicate 52 0)) 0x0401) = none := by
    simp only [cmdKeyInstall, e _ k1]; decide +kernel
  have e2 : cmdKeyInstall.code = 0x0401 := rfl
  unfold Cmd.passes
  simp only [e2, p]
  decide +kernel

theorem wit_KeyCommands :
    ((up [(fPD 29, 2)]).pdOn 29 = true ∧ (up []).fld (fPD 29) = 0 ∧ StartItem.domain 29 ∉ (up []).pwr.queue) ∧
    ((up []).fld (fCPH_CTX_A_STATE (fld (rq 1 (List.replicate 52 0)).params 0 2)) = 0 ∧ (up []).contexts = [] ∧ (up []).cph.kek = none ∧
      cmdKeyInstall.passes (rq 1 (List.replicate 52 0)) (up []) = true) ∧
    (let s := cphUp CphSt.init [(fCPH_CTX_A_STATE 2, cxINSTALLED), (fCPH_CTX_A_SESSION 2, 7), (fCPH_CTX_A_STATE 3, cxCURRENT), (fCPH_CTX_A_SESSION 3, 7)];
      2 ≤ ((s.contexts.filter fun j => s.fld (fCPH_CTX_A_SESSION j) == unle (slice rec7 36 2).reverse).filter fun j => s.fld (fCPH_CTX_A_DIR j) == fld rec7 38 1).length ∧
        cmdKeyZeroise.passes (rq 1 [3, 0]) s = true ∧ s.fld (fCPH_CTX_A_STATE 3) = cxCURRENT ∧ (∀ a ∈ s.cph.acts, a.ctx ≠ 3)) ∧
    (cmdKeyZeroise.passes (rq 3 [255, 255]) (up []) = true ∧ cmdKeyIdentity.passes (rq 2 []) (up []) = true ∧
      cmdSessionReport.passes (rq 1 [7, 0]) (up []) = true ∧ cmdCipherReport.passes (rq 2 []) (up []) = true) := by decide +kernel

/-- Context 2 pending with an activation of a mode, for a frame. -/
def act2 (mode frame : Nat) : CphSt := { CphSt.init with acts := [⟨2, mode, frame, ⟨host, 0, false, 5⟩⟩] }

theorem wit_KeyActivation :
    (let s := bound7 CphSt.init cxINSTALLED [(fCPH_CTX_A_STATE 9, cxCURRENT), (fCPH_CTX_A_SESSION 9, 7)];
      s.current 7 0 = some 9 ∧ (9 : Nat) ≠ (2 : Fin 16384).val) ∧
    (∀ a ∈ (bound7 (act2 0 0) cxPENDING []).cph.acts, a.ctx ≠ (3 : Fin 16384).val) ∧
    (let s := bound7 (act2 0 0) cxPENDING [];
      (s.cph.acts.find? fun a => a.ctx == (2 : Fin 16384).val) = some ⟨2, 0, 0, ⟨host, 0, false, 5⟩⟩ ∧ s.sessionAt (s.fld (fCPH_CTX_A_SESSION 2)) = some (0, 0) ∧
        s.nextFn 0 0 % 256 = 0) ∧
    (let s := setOh 0 { OhSt.init with tx := { OhSt.init.tx with fn := 5 } } (bound7 (act2 1 0) cxPENDING []); s.nextFn 0 0 % 256 ≠ 0) ∧
    (let s := bound7 CphSt.init cxINSTALLED [(fCH 0, 2)];
      cmdKeyActivate.passes (rq 1 [2, 0, 1, 0, 0, 2, 0, 0, 0, 0]) s = true ∧ s.fld (fCPH_CTX_A_STATE 2) = cxINSTALLED ∧ s.ctxIn 7 0 cxPENDING = none ∧
        s.ctxIn 7 0 cxRETIRING = none ∧ s.active 0 = true ∧ (bound7 (act2 0 0) cxPENDING [(fCH 0, 2)]).active 0 = true ∧ 512 ≤ fnDiff 0x200 (s.nextFn 0 0) + 1 ∧ s.actAtOnce 2 = false) ∧
    (bound7 CphSt.init cxINSTALLED []).actAtOnce 2 = true ∧
    (cmdKeyActivate.passes (rq 1 [2, 0, 0, 0]) (bound7 CphSt.init cxCURRENT []) = true ∧
      (bound7 CphSt.init cxCURRENT []).fld (fCPH_CTX_A_STATE 2) ≠ cxINSTALLED) := by decide +kernel

/-- An activation of a context of session 0, which is bound nowhere. -/
theorem wit_KeyActivation_unbound : let s := cphUp (act2 0 0) [(fCPH_CTX_A_STATE 2, cxPENDING)];
    (s.cph.acts.find? fun a => a.ctx == (2 : Fin 16384).val) = some ⟨2, 0, 0, ⟨host, 0, false, 5⟩⟩ ∧ s.actAtOnce 2 = true := by
  have h : (cphUp (act2 0 0) [(fCPH_CTX_A_STATE 2, cxPENDING)]).fld (fCPH_CTX_A_SESSION 2) = 0 := by decide +kernel
  have k : ∀ t : State, t.fld (fCPH_CTX_A_SESSION 2) = 0 → t.actAtOnce 2 = true := by
    intro t e; simp only [State.actAtOnce, e, sessionAt_zero]
  exact ⟨by decide +kernel, k _ h⟩

/-- Session 7 bound, and a complete multiframe behind whose verdict is due. -/
def rx7 (ctx : Option Nat) (tag : Option (BitVec 128)) : RxSess := ⟨7, 0, 1, [0, 1], ctx, some 5, tag, some 9#128⟩
def mf1 (bad : Bool) (e : RxSess) : MfAcc := ⟨1, 256, bad, true, [], [], [e]⟩
def mf2 (tags : SMap (List Byte)) : MfAcc := ⟨2, 256, false, true, [], tags, []⟩
def due7 (bad : Bool) (e : RxSess) (tags : SMap (List Byte)) : State :=
  bound7 { CphSt.init with accs := CphSt.init.accs.set 0 [mf2 tags, mf1 bad e] } cxCURRENT [(fCPH_CTX_A_DIR 2, 1), (fCPH_CTX_A_USED 2, 1), (fCPH_CTRL_FAIL_LIMIT, 1)]

/-- Core 3 is under test, of 144 that serve but for an idle understudy (core 130) or none. -/
def coresUp (idle : Bool) : State := { State.reset with regs := (rCPH_CORE 0, 0x80#32) :: if idle then [(rCPH_CORE 8, 0x10#32)] else [] }

/-- Every core of the cluster is under test. -/
def allTested : State := { State.reset with regs := (span 0 9).map fun k => (rCPH_CORE k, 0xAAAAAAAA#32) }

theorem wit_TagVerdictsAndCores :
    (let e := rx7 (some 2) (some 1#128);
     let s := due7 false e [(0, be 16 9)];
      s.verdictDue 7 = some (0, some (mf2 [(0, be 16 9)]), mf1 false e, e) ∧ (s.sessionAt 7).isSome = true ∧ s.fld (fHUB_CTRL_ROLE 0) ≠ 1 ∧
        s.tagCopy 0 (some (mf2 [(0, be 16 9)])) (mf1 false e) e = some 9 ∧ verdictFor (some 9) (mf1 false e) e = 1 ∧ tagHit (some 9) e.pendTag = true ∧
        s.fld fCPH_CTRL_FAIL_LIMIT = 1) ∧
    (let e := rx7 (some 2) (some 9#128); verdictFor (some 9) (mf1 true e) e = 0 ∧ verdictFor none (mf1 true e) e = 2 ∧ verdictFor none (mf1 false e) e = 3) ∧
    verdictFor (some 9) (mf1 false (rx7 none none)) (rx7 none none) = 4 ∧ (bound7 CphSt.init cxCURRENT []).verdictDue 7 = none ∧
    allTested.coresIn 1 = [] := by decide +kernel

theorem wit_noSpareCores : (each [3] testCore allTested).spareCores = false := by
  have h : (each [3] testCore allTested).coresIn 0 = [] := by decide +kernel
  simp [State.spareCores, h]

/-- The slot map words of a channel are zero at reset, and its line mode is no interoperable one. -/
def mapReset (n : Nat) : Bool := (span 0 256).all (fun j => resetWord (rSLOT_MAP n j) == 0) && (fLINE_MODE_IOP n).of (resetWord (rLINE_MODE n)) == 0

theorem test_mapReset0 : mapReset 0 = true := by decide +kernel
theorem test_mapReset1 : mapReset 1 = true := by decide +kernel
theorem test_mapReset2 : mapReset 2 = true := by decide +kernel
theorem test_mapReset3 : mapReset 3 = true := by decide +kernel

/-- A state that lists no word of a channel region assigns no slot. -/
theorem unassigned (s : State) (h : ∀ n < 4, ∀ off, chBase n ≤ off → off < chBase n + 0x40000 → smLookup s.regs off = none) (n : Nat) (hn : n < 4) :
    assignedClients s.rd n = [] := by
  have hr : mapReset n = true := by
    match n, hn with
    | 0, _ => exact test_mapReset0
    | 1, _ => exact test_mapReset1
    | 2, _ => exact test_mapReset2
    | 3, _ => exact test_mapReset3
  have hrd : ∀ off, chBase n ≤ off → off < chBase n + 0x40000 → s.rd off = resetWord off := fun off a b => by simp [State.rd, smGet, h n hn off a b]
  simp only [mapReset, Bool.and_eq_true, List.all_eq_true, beq_iff_eq] at hr
  have hm : ∀ j < 256, s.rd (rSLOT_MAP n j) = 0 := fun j hj => by
    rw [hrd _ (by simp only [rSLOT_MAP]; omega) (by simp only [rSLOT_MAP]; omega)]; exact hr.1 j ((mem_span ..).mpr ⟨by omega, by omega⟩)
  have hi : rdF s.rd (fLINE_MODE_IOP n) = 0 := by
    rw [rdF, hrd _ (by simp only [rLINE_MODE]; omega) (by simp only [rLINE_MODE]; omega)]; exact hr.2
  have hs : ∀ j ∈ span 0 512, slotClient s.rd n j = none := fun j hj => by
    have hj : j / 2 < 256 := by have := (mem_span ..).mp hj; omega
    simp [slotClient, rdF, hm _ hj, Fld.of]
  simp [assignedClients, hi, List.filterMap_eq_nil_iff.mpr hs]

theorem wit_spareCores : (each [3] testCore (coresUp false)).spareCores = true := by
  have hr : (each [3] testCore (coresUp false)).regs = [(rCPH_CORE 0, 0x80#32)] := by decide +kernel
  have hc : 0 < ((each [3] testCore (coresUp false)).coresIn 0).length := by decide +kernel
  generalize each [3] testCore (coresUp false) = s at hr hc ⊢
  have h : ∀ n < 4, mapLoad s.rd n = 0 := fun n hn => by
    have := unassigned s (fun n hn off _ h => by simp only [hr, smLookup, rCPH_CORE, chBase] at *; rw [if_neg (by omega)]) n hn
    simp [mapLoad, boundSessions, this]
  have hl : s.load = 0 := by simp [State.load, span, h]
  simp only [State.spareCores, hl, decide_eq_true_eq]
  omega

theorem wit_TagVerdictsAndCores_cores :
    ((each [3] testCore (coresUp true)).coresIn 1 ≠ [] ∧ (each [3] testCore (coresUp false)).coresIn 1 = [] ∧
      (each [3] testCore allTested).coresIn 1 = []) ∧
    (let s : State := { coresUp true with cph := { CphSt.init with tests := [(20, true)] } };
      (s.cph.tests.find? fun t => t.1 == (20 : Fin 144).val) = some (20, true) ∧ s.cph.trans = [] ∧ s.coresIn 1 = 130 :: [] ∧
        (∀ y ∈ s.cph.tests, y.1 ≠ (21 : Fin 144).val)) ∧
    (let s : State := { up [] with cph := { CphSt.init with trans := [(20, 0), (20, 1)] } };
      2 ≤ (s.cph.trans.filter fun t => t.1 == (20 : Fin 144).val && decide (s.life.toNat ≤ t.2.toNat + 86400000000000)).length) ∧
    ((up [(fPD 29, 2), (fCore 130, 1)]).pdOn 29 = true ∧ (up [(fPD 29, 2), (fCore 130, 1)]).fld (fCore 130) = 1 ∧ (up []).pdOn 29 = false) := by decide +kernel


/-- Lane 0 a port of its own on a quad that is on, in a state, with some fields. -/
def laneUp (st : Nat) (l : List (Fld × Nat)) : State := up ([(fPD 24, 2), (fHL_CFG_ROLE 0, 1), (fHL_STATUS_LOS 0, 0), (fHL_STATUS_STATE 0, st)] ++ l)

/-- Lane 0 under its targeted test. -/
def laneTesting : State := (laneUp 4 []).setLane 0 { LaneSt.init with testing := true }

theorem wit_LaneStates :
    ((laneUp 1 []).training 0 = true ∧ (laneUp 4 []).training 0 = false ∧ (laneUp 1 []).headOf 0 = some 0 ∧ (laneUp 1 []).portLanesUp 0 = false ∧
      (laneUp 4 []).portLanesUp 0 = true ∧ (laneUp 1 []).headOf 1 = none) ∧
    ((laneUp 4 []).laneSt 0 = 4 ∧ (laneUp 4 []).flag (fHL_STATUS_LOS 0) = false ∧ (laneUp 4 []).fld (fHL_LOOP_DEPTH 0) ≠ 1) ∧
    (laneUp 4 [(fHL_LOOP_DEPTH 0, 1)]).fld (fHL_LOOP_DEPTH 0) = 1 ∧
    ((laneUp 4 [(fHL_STATUS_LOS 0, 1), (fHL_STATUS_HOLDING 0, 1)]).flag (fHL_STATUS_HOLDING 0) = true ∧ (laneUp 1 []).flag (fHL_STATUS_HOLDING 0) = false) ∧
    ((laneUp 4 []).lane 0).testing = false ∧ ((laneUp 4 []).lane 0).losses = [] ∧ (laneTesting.lane 0).testing = true ∧
    (let s := (laneUp 4 []).setLane 0 { LaneSt.init with losses := [0, 0] };
      2 ≤ ((s.lane 0).losses.filter fun t => decide (s.life.toNat ≤ t.toNat + 1000000000)).length) := by decide +kernel

/-- The HGC unit of a packet with one byte of content. -/
def hgc1 : List Byte := [0#8, 5#8, 9#8] ++ le 4 (crc32c [9#8]).toNat ++ List.replicate 9 0#8

/-- Channel 1 ACTIVE with HGC bytes that wait. -/
def hgcUp (rx : List Byte) : State := (up [(fCH 1, 2)]).setHgc 1 { (up []).hgc.get 1 with rx := rx }

theorem wit_HostPorts :
    ((laneUp 4 []).headLane 0 = true ∧ (up []).headLane 1 = false ∧ (laneUp 4 []).flag (fHP_STATUS_RF_RX 0) ≠ true) ∧
    (let s := hgcUp hgc1; let h := s.hgc.get 1; let len := unbe (h.rx.take 2); let body := slice h.rx 2 len
      s.hgcNone 1 = false ∧ 5 ≤ len ∧ len ≤ 2048 ∧ (len + 17) / 16 * 16 ≤ h.rx.length ∧ hgcGood body len = true ∧
        ¬ 8192 < h.mbx.rsp.length + (toWords (body.take (len - 4))).length) ∧
    (let s := hgcUp ([0#8, 5#8] ++ List.replicate 14 1#8); let h := s.hgc.get 1
      unbe (h.rx.take 2) = 5 ∧ hgcGood (slice h.rx 2 5) 5 = false ∧ h.rx.length = 16) ∧
    unbe (((hgcUp (List.replicate 16 0#8)).hgc.get 1).rx.take 2) = 0 ∧ unbe (((hgcUp ([0#8, 4#8] ++ List.replicate 14 0#8)).hgc.get 1).rx.take 2) = 4 ∧
    ((hgcUp []).hgc.get 1).rx.length < 16 ∧ (up []).hgcNone 1 = true ∧
    (cmdHostLaneReport.passes (rq 2 [3]) (up []) = true ∧ cmdHostPortReport.passes (rq 3 [3]) (up []) = true) ∧
    (let q := rq 1 [0, 1];
      cmdHostRetrain.passes q (laneUp 4 []) = true ∧ (laneUp 4 []).pdOn (24 + fld q.params 0 1 / 16) = true ∧ retrainLanes q (laneUp 4 []) = [0] ∧
        (laneUp 5 []).laneSt 0 = 5 ∧ cmdHostRetrain.passes q (laneUp 5 []) = true ∧ (up []).pdOn 24 = false) ∧
    (cmdHostRetrain.passes (rq 1 [1, 0]) (laneUp 4 []) = true ∧ (laneUp 4 []).pdOn (24 + 1 / 16) = true ∧ retrainLanes (rq 1 [1, 0]) (laneUp 4 []) = [1] ∧
      (laneUp 4 []).laneSt 1 = 0 ∧ (laneUp 4 []).liveLane 1 = false) ∧
    (let s : State := { laneUp 4 [] with regs := (laneUp 4 []).regs ++ (span 0 256).map fun k => (rSLOT_MAP 0 k, 0x80008000#32) };
      s.liveLane 0 = true ∧ cmdHostRetrain.passes (rq 1 [0, 0]) s = true ∧ retrainLanes (rq 1 [0, 0]) s = [0] ∧ s.laneSt 0 = 4) := by decide +kernel

/-- A receive queue without room, by its length. -/
theorem wit_hgcFull : 8192 < ((List.replicate 8192 (⟨0#32, false⟩ : QWord)).length + (toWords ((slice hgc1 2 5).take (5 - 4))).length) := by
  rw [List.length_replicate]; decide +kernel


/-- Input 1 configured, with edges, its hidden state and some fields. -/
def timUp (i : TimIn) (l : List (Fld × Nat)) : State :=
  (up ([(fTIM_IN_FREQ_FREQ 1, 10000000), (fTIM_IN_STATUS_LOA 1, 0), (fTIM_IN_STATUS_UNCONFIGURED 1, 0), (fTIM_IN_CFG_PRIO 1, 3),
    (fTIM_IN_CFG_QL 1, 2)] ++ l)).setTimIn 1 i

theorem wit_TimingInputs :
    (let s := timUp ⟨false, true⟩ [];
      s.tim.inputs.length = 8 ∧ s.flag (fTIM_IN_STATUS_LOA 1) = false ∧ s.flag (fTIM_IN_STATUS_HARD 1) = false ∧ s.unconfigured 1 = false ∧
        (s.timIn 1).validated = false ∧ s.flag (fTIM_IN_STATUS_UNCONFIGURED 1) = false) ∧
    (timUp ⟨true, true⟩ []).timIn 1 = ⟨true, true⟩ ∧ (up []).flag (fTIM_IN_STATUS_LOA 1) = true ∧
    (timUp ⟨true, true⟩ [(fTIM_IN_STATUS_WTR_RUN 1, 1)]).flag (fTIM_IN_STATUS_WTR_RUN 1) = true ∧
    (up []).flag (fTIM_IN_STATUS_WTR_RUN 1) = false ∧ clampN 1 1000 ((up []).fld (fTIM_IN_LIM_HARD 1)) * 100000 < (90000000 : Int).natAbs := by decide +kernel

/-- The selector in a state with input 1 selected. -/
def selUp (st : Nat) (l : List (Fld × Nat)) : State :=
  timUp ⟨true, true⟩ ([(fTIM_IN_STATUS_VALID 1, 1), (fTIM_STATUS_STATE, st), (fTIM_STATUS_SEL, 1), (fTIM_STATUS_SEL_VALID, 1)] ++ l)

/-- The state after an evaluation. -/
def evaluated (s : State) : State := match exec (.selectorEvaluation 0) s with | .next t => t | _ => s

theorem wit_SelectorEvaluates :
    ((selUp 3 []).fld fTIM_STATUS_STATE = 3 ∧ (evaluated (selUp 3 [])).flag (fTIM_IN_STATUS_VALID 1) = true ∧
      (evaluated (selUp 3 [(fTIM_IN_STATUS_LOA 1, 1)])).flag (fTIM_IN_STATUS_VALID 1) = false) ∧
    ((selUp 2 []).fld fTIM_STATUS_STATE ≠ 3 ∧ (evaluated (selUp 2 [])).wanted (selUp 2 []).selected = some 1 ∧ (selUp 2 []).selected = some 1 ∧
      (evaluated (selUp 2 [(fTIM_IN_STATUS_LOA 1, 1)])).wanted (some 1) = none ∧ (evaluated (timUp ⟨true, true⟩ [])).wanted none = some 1) ∧
    (let s := selUp 1 []; s.fld fTIM_STATUS_STATE = 1 ∧ s.tim.bw ≤ 1024 * s.bwGoal ∧ s.bwGoal < 500 ∧ s.tim.cal = clip100 (s.sfld fTIM_OSC_CAL_CAL) ∧
      s.tim.steer = clip100 (s.sfld fTIM_STEER_STEER) ∧ s.fld fTIM_STATUS_STATE ≠ 2) ∧
    (let s : State := { selUp 2 [(fTIM_IN_STATUS_LOA 1, 1)] with life := 5000000000, tim := { (selUp 2 []).tim with samples := [(1000000000, 7), (2000000000, 4)] } };
      s.hold = (5, 5000000000) ∧ (evaluated s).fld fTIM_STATUS_STATE = 4 ∧ (evaluated s).selected = none) := by decide +kernel

/-- A pulse 5 ns after the previous one is near no whole second after it. -/
theorem wit_untimely_pulse : ∀ k : Int, 1 ≤ k → 10000 < ((5 : Int) - k * 1000000000).natAbs := by
  intro k h
  omega

theorem wit_TimeOfDayAndTimingRequests :
    (let s := up [(fTIM_PPS_SRC, 1)]; s.ppsSrc = (if false then 2 else 1) ∧ s.ppsSrc ≠ 0 ∧ s.tim.ppsSeen = false ∧ s.tim.ppsBad ≠ 2) ∧
    (let s : State := { up [(fTIM_PPS_SRC, 2)] with tim := { (up []).tim with ppsSeen := true, ppsBad := 2 } };
      s.ppsSrc = (if true then 2 else 1) ∧ s.tim.ppsSeen = true ∧ s.tim.ppsBad = 2 ∧ (4000009999 - 4 * 1000000000 : Int).natAbs ≤ 10000) ∧
    ((up []).ppsSrc = 0 ∧ (up []).tim.pendingStep = none) ∧
    (let s : State := { up [] with tim := { (up []).tim with pendingStep := some (9, ⟨host, 0, false, 5⟩) }, ops := [⟨⟨host, 0, false, 5⟩, 0x0504, [resTIM], [], none, 0, true, 0⟩] };
      s.tim.pendingStep = some (9, ⟨host, 0, false, 5⟩) ∧ (s.ops.find? fun x => x.opcode == 0x0504 && decide (x.org = ⟨host, 0, false, 5⟩)).isSome = true) ∧
    (let q := rq 1 ([0, 0, 0, 0] ++ [1, 0, 0, 0, 0, 0, 0, 0] ++ [0, 0, 0, 0]); cmdTodStep.passes q (up []) = true ∧ fld q.params 0 1 = 0) ∧
    (let q := rq 1 ([1, 0, 0, 0] ++ [1, 0, 0, 0, 0, 0, 0, 0] ++ [0, 0, 0, 0]); cmdTodStep.passes q (up [(fTIM_STATUS_TOD_VALID, 1)]) = true ∧
      (up [(fTIM_STATUS_TOD_VALID, 1)]).flag fTIM_STATUS_TOD_VALID = true ∧ cmdTodStep.passes q (up []) = true ∧ (up []).flag fTIM_STATUS_TOD_VALID = false) ∧
    (let q := rq 1 ([2, 0, 0, 0] ++ [1, 0, 0, 0, 0, 0, 0, 0] ++ [7, 0, 0, 0]); cmdTodStep.passes q (up []) = true ∧ fld q.params 0 1 = 2) ∧
    cmdTimSet.passes (rq 1 ([1, 0, 0, 0] ++ [0, 0, 5, 0] ++ [0, 3, 0, 0])) (up []) = true ∧
    (cmdTimReport.passes (rq 2 []) (up []) = true ∧ cmdTodGet.passes (rq 3 []) (up []) = true ∧ (up []).ready = true ∧ State.reset.ready = false) := by decide +kernel


/-- A part with HBM in use, its memory's own state, and some fields. -/
def hbmUp (m : MemSt) (l : List (Fld × Nat)) : State := { up ([(fMEM_STATUS_HBM_READY, 1)] ++ l) with mem := m }

/-- The retirement table with one entry. -/
def retired (r : Retire) (s : State) : State := { s with perm := { s.perm with retire := [(0, some r)] } }

theorem wit_ScrubAndInjection :
    (let s := hbmUp { MemSt.init with patrol := 999999999 } [];
      s.flag fMEM_SCRUB_PATROL_EN = true ∧ s.flag fMEM_STATUS_HBM_READY = true ∧ s.flag fMRG_GLOBAL_FAR_USED = false ∧
        s.retiredPage (s.mem.patrol / 512) = false ∧ (retired (.page (999999999 / 512)) s).retiredPage (s.mem.patrol / 512) = true ∧
        decodeCw s.erased (s.cw s.mem.patrol ^^^ 0#256) = .clean ∧ decodeCw s.erased (s.cw s.mem.patrol ^^^ symAt 3 1#16) = .corrected 3 0#256 ∧
        decodeCw s.erased (0#256 ^^^ symAt 5 1#16) = .corrected 5 0#256 ∧
        decodeCw s.erased (s.cw s.mem.patrol ^^^ (symAt 3 1#16 ^^^ symAt 4 1#16)) = .uncorrectable) ∧
    (hbmUp MemSt.init [(fMEM_SCRUB_PATROL_EN, 0), (fMEM_SCRUB_SRAM_EN, 0)]).flag fMEM_SCRUB_PATROL_EN = false ∧
    (hbmUp MemSt.init [(fMEM_SCRUB_PATROL_EN, 0), (fMEM_SCRUB_SRAM_EN, 0)]).flag fMEM_SCRUB_SRAM_EN = false ∧
    (let s := hbmUp { MemSt.init with flips := [(9, 4, 1), (1, 6, 2), (0, 7, 2)] } [];
      s.flag fMEM_SCRUB_SRAM_EN = true ∧ s.flipsIn (8 : Fin 11).val 4 + 0 = 0 ∧ s.flipsIn (9 : Fin 11).val 4 + 0 = 1 ∧ 2 ≤ s.flipsIn (9 : Fin 11).val 4 + 1 ∧
        s.flag fMEM_SFLIP_ARM = false ∧ (let t := hbmUp s.mem [(fMEM_SFLIP_ARM, 1), (fMEM_SFLIP_STORE, 9)]; t.flag fMEM_SFLIP_ARM = true ∧
          t.fld fMEM_SFLIP_STORE = (9 : Fin 11).val ∧ t.flag fMEM_SFLIP_BIT1_EN = false ∧ t.flag fMEM_SCRUB_SRAM_EN = true ∧ t.flipsIn 9 4 + 0 = 1) ∧
        2 ≤ s.flipsIn (1 : Fin 11).val 6 + 0 ∧ 2 ≤ s.flipsIn (0 : Fin 11).val 7 + 0 ∧ s.cph.acts = []) ∧
    ((up []).ready = true ∧ State.reset.ready = false) ∧
    (let s := hbmUp MemSt.init [(fMEM_FLIP_ARM, 1), (fMEM_FLIP_REGION, 5)];
      s.retiredPage (9 / 512) = false ∧ s.flag fMEM_FLIP_ARM = true ∧ 5 ≤ s.fld fMEM_FLIP_REGION ∧ (hbmUp MemSt.init []).flag fMEM_FLIP_ARM = false) := by
  decide +kernel

/-- An injection for a group meets the next write to a page of that group: which group a page has is opaque (assumption 7). -/
theorem wit_injection : ∃ g : Nat, (hbmUp MemSt.init [(fMEM_FLIP_ARM, 1), (fMEM_FLIP_REGION, 5), (fMEM_FLIP_GROUP, g)]).flag fMEM_FLIP_GROUP =
    Config.pageGroup (9 / 512) := by
  cases h : Config.pageGroup (9 / 512)
  · exact ⟨0, by decide +kernel⟩
  · exact ⟨1, by decide +kernel⟩

theorem wit_MemoryRequests :
    (let q := rq 1 ([0, 0, 0, 0] ++ [5, 0, 0, 0]);
      cmdMemRetire.passes q (hbmUp MemSt.init []) = true ∧ fld q.params 0 1 < 3 ∧ retireClash (hbmUp MemSt.init []) (retireOf q.params) = false ∧
        freeEntry (hbmUp MemSt.init []) = some 0 ∧ retireClash (retired (.page 5) (hbmUp MemSt.init [])) (retireOf q.params) = true ∧
        cmdMemRetire.passes q (retired (.page 5) (hbmUp MemSt.init [])) = true ∧ cmdMemRetire.passes q (up []) = true ∧
        (up []).flag fMEM_STATUS_HBM_READY = false) ∧
    (let q := rq 1 ([3, 0, 0, 0]); cmdMemRetire.passes q (retired (.page 5) (hbmUp MemSt.init [])) = true ∧ fld q.params 2 2 = 0 ∧
      smGet (fun _ => none) (retired (.page 5) (hbmUp MemSt.init [])).perm.retire 0 = some (.page 5)) ∧
    (retired (.page 5) (up [])).retirements = [(0, .page 5)] ∧
    (cmdMemLogRead.passes (rq 2 [0, 0, 1, 0]) (hbmUp MemSt.init []) = true ∧ cmdMemLogRead.passes (rq 2 [0, 0, 1, 0]) (up []) = true) ∧
    (let q := rq 1 ([1, 3, 0, 0] ++ [5, 0, 0, 0]); cmdMemPpr.passes q (hbmUp MemSt.init []) = true ∧ (hbmUp MemSt.init []).farInUse = false ∧
      cmdMemPpr.passes q (hbmUp MemSt.init [(fMRG_GLOBAL_FAR_USED, 1)]) = true ∧ (hbmUp MemSt.init [(fMRG_GLOBAL_FAR_USED, 1)]).farInUse = true ∧
      cmdMemPpr.passes q (up []) = true) ∧
    (hbmUp { MemSt.init with ppr := some (5, 3, true) } []).mem.ppr = some (5, 3, true) ∧ cmdMemReport.passes (rq 2 []) (up []) = true := by decide +kernel

/-- Whether a bank has a spare row left is opaque (assumption 7); a state either way meets a clause. -/
theorem wit_rows : rowsLeft (hbmUp MemSt.init []) 5 3 true ≠ 0 ∨ rowsLeft (hbmUp MemSt.init []) 5 3 true = 0 := (Decidable.em (rowsLeft (hbmUp MemSt.init []) 5 3 true = 0)).symm

/-- With every entry used there is no free one. -/
theorem wit_tableFull : freeEntry { up [] with perm := { (up []).perm with retire := (span 0 256).map fun i => (i, some (.page i)) } } = none := by decide +kernel


/-- Link 1 of an ACTIVE channel in a state, with its own state, and some fields. -/
def fabUp (st : Nat) (x : FabLink) (l : List (Fld × Nat)) : State :=
  (up ([(fFAB_CTRL_ADDR, 7), (fCH 1, 2), (fFAB_LINK_STATUS_STATE 1, st)] ++ l)).setLink 1 x

/-- A link with nothing queued, sent or received. -/
def link0 : FabLink := (up []).link 1

/-- A control unit of epoch 3, domain 0, without a neighbour. -/
def ctl3 : List Byte := let h := [0x26#8, 0#8, 0#8, 0#8, 0#8, 0#8, 0#8]; h ++ [crc8 h]

/-- A request for this part, of 20 bytes. -/
def reqHere : List Byte := packet 1 32 7 9 5 0x0100 0 4 []

theorem wit_FabricLinks :
    ((up []).regsWf ∧ (fabUp 2 link0 []).linkSt 1 = 2 ∧ (fabUp 1 link0 []).linkSt 1 = 1 ∧ (fabUp 2 link0 []).linkFrames 1 = false) ∧
    (let s := fabUp 2 { link0 with rx := some [1#8] } [];
      (s.link 1).rx = some [1#8] ∧ (1 : Nat) + (List.drop 1 [0x80#8, 1#8]).length ≤ 4096 ∧ fld [0x80#8, 1#8] 0 1 / 64 = 2 ∧ fld [0x40#8] 0 1 / 64 = 1 ∧
        ¬ 32768 < s.linkHeld 1 + ([1#8] ++ (List.drop 1 [0xC0#8, 1#8]).take (fld [0xC0#8, 1#8] 0 1 / 8 % 8 + 1)).length ∧ fld [0xC0#8, 1#8] 0 1 / 64 = 3) ∧
    (goodPacket reqHere = true ∧ goodPacket [1#8] = false ∧ pktKind reqHere = 1 ∧ pktDest reqHere = (fabUp 2 link0 []).node ∧ (fabUp 2 link0 []).node ≠ 0) ∧
    (let s := fabUp 2 link0 [(fFAB_CTRL_ADDR, 3), (fFAB_ROUTE_VALID 6, 1), (fFAB_ROUTE_LINK 6, 2)];
      s.route (pktDest reqHere) = some (2 : Ch).val ∧ 1 < pktHop reqHere ∧ pktDest reqHere ≠ s.node) ∧
    (ctl3.length = 8 ∧ crc8 (ctl3.take 7) = ctl3.getD 7 0#8 ∧ fld ctl3 0 1 / 32 = 1 ∧ fld ctl3 0 1 / 2 % 16 = 3 ∧
      (fabUp 2 { link0 with lastCtl := some (3, 0) } []).link 1 = { link0 with lastCtl := some (3, 0) } ∧ link0.lastCtl = none) ∧
    (let s := fabUp 2 { link0 with units := [(16, true, ctl3), (17, true, reqHere)] } []; (s.link 1).units = (16, true, ctl3) :: [(17, true, reqHere)] ∧
      s.linkSt 1 ≠ 5 ∧ s.linkForm 1 = 1 ∧ (s.link 1).staged = [] ∧ (s.link 1).txSent = 0) ∧ (fabUp 5 link0 []).linkSt 1 = 5 ∧ link0.units = [] ∧
    (let h := [0x83#8, 0xFF#8, 0x40#8, 1#8, 2#8, 3#8, 4#8]; let m := h ++ [crc8 h]
      m.length = 8 ∧ crc8 (m.take 7) = m.getD 7 0#8 ∧ fld m 0 1 / 16 = 8 ∧ fld m 0 1 % 4 * 256 + fld m 1 1 = 0x3FF) ∧
    (pktKind (packet 4 32 7 9 5 0x0810 0 4 []) ≠ 1 ∧ forEngine (packet 4 32 7 9 5 0x0810 0 4 []) = true) ∧
    (let s := fabUp 2 { link0 with txq := [(0x3FF, reqHere)] } [];
      (s.link 1).txq = (0x3FF, reqHere) :: [] ∧ (s.link 1).sent + (reqHere.length - 1) / 7 * 7 < 32768 + 256 * (s.link 1).far ∧ (s.link 1).txSent + 7 < reqHere.length ∧
        reqHere.length ≤ 14 + 7) ∧ link0.txq = [] := by decide +kernel

/-- A packet in progress that another unit makes too long, and a full receive queue, by their lengths. -/
theorem wit_unitTooLong : 4096 < (List.replicate 4096 0#8).length + (List.drop 1 [0x80#8, 1#8]).length := by rw [List.length_replicate]; decide +kernel
theorem wit_queueFull : 32768 < ({ fabUp 2 link0 [] with arrived := [⟨⟨4, 9, 0⟩, 1, [], 32768, true, false, 0⟩] } : State).linkHeld 1 + 1 := by decide +kernel

/-- Parameters of an advertisement of node 9. -/
def adv9 : List Byte := le 2 9 ++ le 8 77 ++ le 4 5 ++ [1#8, 0#8]

/-- A reply to a forwarded request of tag 3. -/
def reply3 : List Byte := packet 2 32 7 9 3 0x0100 0 4 []

theorem wit_FabricRoutesAndRequests :
    (let s := fabUp 2 link0 [];
      s.node ≠ 0 ∧ s.ready = true ∧ s.linkSt 1 = 2 ∧ (s.link 1).waiting + (advPacket s s.node 5 0 0 0).length ≤ 32768 ∧ (up []).node = 0) ∧
    (let s := fabUp 2 link0 [];
      adv9.length = 16 ∧ fld adv9 0 2 = 9 ∧ smGet (fun _ => none) s.fab.routes 9 = none ∧ fld adv9 14 1 + 1 ≤ 255 ∧ (fabUp 1 link0 []).linkSt 1 ≠ 2 ∧
        fld (le 2 7 ++ le 8 77 ++ le 4 5 ++ [1#8, 0#8]) 0 2 = s.node) ∧
    (let s : State := { up [] with fab := { (up []).fab with routes := [(9, some ⟨5#32, 0⟩)] } };
      smGet (fun _ => none) s.fab.routes 9 = some ⟨5#32, 0⟩ ∧ (0 : BitVec 64).toNat ≤ s.life.toNat ∧ smGet (fun _ => none) s.fab.routes 8 = none) ∧
    (let s := fabUp 4 link0 [(fFAB_LEAF_BASE_OFFER 1, 1), (fHUB_CTRL_ROLE 1, 1), (fLEAF_W0_STATE 1 5, 2)];
      s.flag (fFAB_LEAF_BASE_OFFER 1) = true ∧ s.fld (fHUB_CTRL_ROLE 1) = 1 ∧ s.fld (fLEAF_W0_STATE 1 (5 : Fin 1024).val) = 2 ∧
        s.fld (fFAB_LEAF_BASE_BASE 1) + (5 : Fin 1024).val ≤ 4096 ∧ s.linkSt 1 = 4) ∧
    (let s := up [(fHUB_CTRL_ROLE 1, 2), (fFAB_CTRL_AUTO_ADDR, 1)]; s.fld (fHUB_CTRL_ROLE 1) = 2 ∧ s.flag fFAB_CTRL_AUTO_ADDR = true ∧ s.node = 0 ∧
      fld (le 2 9 ++ [0#8, 0#8, 0#8, 0#8]) 0 2 = 9) ∧
    (let f : Fwd := ⟨3, ⟨host, 0, false, 5⟩, 0x0100, 9, 0, false⟩;
     let s : State := { up [] with fab := { (up []).fab with fwd := [f] } };
      goodPacket reply3 = true ∧ pktKind reply3 = 2 ∧ pktStatus reply3 ≠ stACCEPTED ∧
        (s.fab.fwd.find? fun f => f.tag == pktTag reply3 && f.opcode == pktOpcode reply3) = some f ∧ ({ s with life := 2000000000 } : State).fab.fwd.find? (fun f => f.tag == 3 && f.due 2000000000) = some f ∧
        ((up []).fab.fwd.find? fun f => f.tag == 3 && f.due (up []).life) = none) ∧
    (let s : State := { up [] with fab := { (up []).fab with inbox := [(0, 1, reply3)] } }; s.fab.inbox = (0, 1, reply3) :: [] ∧ pktKind reply3 = 2) ∧
    cmdFabSet.passes (rq 1 ([7, 0, 0, 0] ++ [9, 0, 1, 0] ++ [15, 10, 0, 0] ++ List.replicate 16 0)) (fabUp 2 link0 []) = true ∧
    (cmdFabAclSet.passes (rq 1 ([0, 1, 0, 0] ++ List.replicate 8 0)) (up []) = true ∧ cmdFabRouteRead.passes (rq 2 [1, 0, 2, 0]) (up []) = true ∧
      cmdFabReport.passes (rq 3 []) (up []) = true) := by decide +kernel


/-- A request of `PWR_STATE_SET`. -/
def ps (k st m : Nat) : Request := rq 1 ([k, st, 0, 0] ++ (le 8 m).map BitVec.toNat)

theorem wit_PowerStates_requests :
    (let s := up [(fCH 0, 1)]; cmdPwrStateSet.passes (ps 0 2 1) s = true ∧ chRefuse 2 (maskOf 1 4) s = none ∧ cmdPwrStateSet.passes (ps 0 1 2) s = true ∧
      chRefuse 1 (maskOf 2 4) s = some { status := stWRONG_STATE } ∧ chRefuse 0 (maskOf 1 4) s = none) ∧
    (let s := laneUp 5 []; cmdPwrStateSet.passes (ps 1 0 1) s = true ∧ maskOf 1 64 = [0] ∧ s.fld (fPD 24) ≠ 3 ∧ s.fld (fPD 24) ≠ 0 ∧ (up []).fld (fPD 24) = 0 ∧
      cmdPwrStateSet.passes (ps 1 0 1) (up []) = true ∧ cmdPwrStateSet.passes (ps 1 0 1) (up [(fPD 24, 3)]) = true) ∧
    (let s := up [(fHL_CFG_ROLE 0, 7)]; cmdPwrStateSet.passes (ps 2 0 1) s = true ∧ layoutOk s 0 = false ∧ s.fld (fPD 24) = 0 ∧
      cmdPwrStateSet.passes (ps 2 1 1) s = true ∧ s.paired 0 = false ∧ (up [(fMRG_CFG_VALID 0, 1), (fMRG_CFG_CH_A 0, 0), (fMRG_CFG_CH_B 0, 1)]).paired 0 = true ∧ cmdPwrStateSet.passes (ps 2 1 1) (up [(fPD 24, 3)]) = true) ∧
    (let s := up [(fPD 3, 2)]; cmdPwrStateSet.passes (ps 3 1 8) s = true ∧ domMask 8 = [3] ∧ [3].findSome? s.domDependant = none ∧
      cmdPwrStateSet.passes (ps 3 1 (2 ^ 28)) (up [(fMRG_CFG_VALID 0, 1)]) = true ∧ [28].findSome? (up [(fMRG_CFG_VALID 0, 1)]).domDependant = some bMRG) ∧
    (let s := up [(fPD 29, 2)]; s.domDependant 29 = none ∧ cmdPwrStateSet.passes (ps 3 1 (2 ^ 29)) s = true) := by decide +kernel

theorem wit_PowerStates_states :
    ((up [(fCH 0, 3)]).fld (fCH 0) = 3 ∧ (up []).fld (fCH 0) = 0 ∧ (up []).flag fPWR_CH_STATE_RECEPTACLE = false ∧ (up [(fCH 0, 2)]).fld (fCH 0) = 2) ∧
    ((up []).pwr.queue = [] ∧ (let s : State := { up [] with pwr := { PwrSt.init with queue := [.channel 1, .quad 2] } };
      s.pwr.queue.find? s.spaced = some (.channel 1) ∧ s.pwr.lastAny = none)) ∧
    (let s : State := { up [] with pwr := { PwrSt.init with starting := [.channel 1], queue := [.quad 2], lastChan := some 5 }, life := 50000000 };
      s.pwr.starting.contains (.channel 1) = true ∧ s.spaced (.channel 2) = true) ∧
    (let s : State := { up [] with pwr := { PwrSt.init with lastAny := some 5, lastQuad := some 5 }, life := 50000000 };
      s.spaced (.quad 2) = true) ∧
    (let s : State := { up ((span 0 16).map fun l => (fHL_CFG_ROLE l, 0)) with pwr := { PwrSt.init with starting := [.quad 0] } };
      s.pwr.starting.contains (.quad 0) = true ∧ ∀ l ∈ quadLanes 0, s.fld (fHL_CFG_ROLE l) = 0) ∧
    (let s : State := { up [(fPD 3, 3)] with pwr := { PwrSt.init with starting := [.domain 3] } };
      s.pwr.starting.contains (.domain 3) = true ∧ s.fld (fPD 3) = 3 ∧ 5 ≤ s.stage) ∧
    (let s := up [(fPD 3, 3)]; s.pwr.starting.contains (.domain 3) = false ∧ s.pwr.queue.contains (.domain 3) = false) ∧
    (let s : State := { up [] with pwr := { PwrSt.init with exits := [1], target := ⟨some 0, some 2, some 1, none⟩ } };
      s.pwr.target.get 0 = some 0 ∧ s.pwr.target.get 2 = some 1 ∧ s.pwr.target.get 1 = some (0 + 2) ∧ s.pwr.exits.head? = some (1 : Ch).val ∧
        s.pwr.target.get 3 = none) ∧
    cmdPwrReport.passes (rq 2 []) (up []) = true ∧ cmdPwrWakeSet.passes (rq 1 [7, 1, 0, 0, 9, 0, 0, 0]) (up []) = true ∧
    cmdPwrAcctRead.passes (rq 1 [1]) (up []) = true := by decide +kernel

/-- A part with every channel dark, no lane of a port, and a wake source. -/
def restful : State := up ((fPWR_WAKE_CTRL_TIMER_EN, 1) :: (span 0 64).map fun l => (fHL_CFG_ROLE l, 0))

/-- An entry from the host. -/
def entry0 : Entry := ⟨⟨host, 0, false, 5⟩, true, []⟩

/-- Banks that hold the claims and nothing else. -/
def banks0 : Banks := ⟨none, [], [], [], [(3, host)], [], [], ⟨TxFramer.init, TxFramer.init, TxFramer.init, TxFramer.init⟩, [], (up []).tim, [], (up []).store.cur⟩

/-- A part that wakes with those banks. -/
def wakingUp : State :=
  { (up [(fBANK 0, 1), (fBANK 5, 1), (fBANK 7, 1)]).setF fSYS_BOOT_STATUS_STAGE 5 with banks := some banks0, boot := { BootSt.init with waking := true } }

theorem wit_DarkHouse_entry :
    (let s := up [(fPWR_WAKE_CTRL_WAKE_N_EN, 0), (fPWR_WAKE_CTRL_I2C_EN, 0), (fPWR_WAKE_CTRL_TIMER_EN, 0)];
      cmdPwrStateSet.passes (ps 4 1 0) s = true ∧ s.noWake = true) ∧
    (let s := up [(fPWR_WAKE_CTRL_TIMER_EN, 1), (fMRG_CFG_VALID 1, 1)];
      cmdPwrStateSet.passes (ps 4 1 0) s = true ∧ s.noWake = false ∧ s.entryConflict = some bMRG) ∧
    (cmdPwrStateSet.passes (ps 4 1 0) restful = true ∧ restful.noWake = false ∧ restful.entryConflict = none) := by decide +kernel

theorem wit_DarkHouse :
    (let s : State := { up [] with pwr := { PwrSt.init with entry := some entry0 } }; s.pwr.entry = some entry0 ∧ s.pwr.wake = none) ∧
    (let s : State := { up [] with pwr := { PwrSt.init with entry := some entry0, wake := some 2 } }; s.pwr.wake = some 2 ∧ s.fld (fPD 3) = 0) ∧
    ((up []).pwr.entry = none ∧ (up []).boot.railsLow.contains 10 = false ∧ (up []).i2cAddress = 0x5A) ∧
    (({ up [] with boot := { BootSt.init with railsLow := [10] } } : State).boot.railsLow.contains 10 = true) ∧
    (let s : State := { up [] with pwr := { PwrSt.init with asleep := true, wake := some 3 }, life := 3600000000000 };
      s.pwr.asleep = true ∧ s.pwr.commitLife.toNat + max 1 (s.fld fPWR_WAKE_TIMER_SECONDS) * 1000000000 ≤ s.life.toNat ∧ s.pwr.wake = some 3 ∧
        s.boot.powerDown = false) ∧
    (wakingUp.banks = some banks0 ∧ wakingUp.boot.waking = true ∧ wakingUp.stage = 5 ∧ wakingUp.fld (fBANK 0) = 1 ∧ wakingUp.fld (fBANK 5) = 1 ∧
      wakingUp.fld (fBANK 7) = 1 ∧ banks0.sys = [] ∧ banks0.chan = [] ∧ banks0.leaf = [] ∧ banks0.ctx = [] ∧ banks0.timRegs = []) ∧
    (up []).banks = none ∧ cmdSysReset.passes (rq 3 [0, 1]) (up []) = true ∧
    ((cmdFwSvnCommit 2).passes (rq 1 []) (up []) = true ∧ (up []).flag fSYS_BOOT_STATUS_SOURCE = false ∧
      (cmdFwSvnCommit 2).passes (rq 1 []) (up [(fSYS_BOOT_STATUS_SOURCE, 1)]) = true) := by decide +kernel


/-- A monitor that is on, in a slot, with its own state, and some fields. -/
def monUp (slot : Option Nat) (l : List (Fld × Nat)) : State := { up ([(fPD 3, 2), (fMON_STATUS_READY, 1)] ++ l) with mon := { MonSt.init with slot := slot, cur := slot } }

/-- A queued result. -/
def entry7 : MonEntry := ⟨7, 0x10000005#32, 0⟩

theorem wit_MonitorConverts :
    ((monUp (some 48) []).pdOn 3 = true ∧ (monUp (some 48) []).flag fMON_STATUS_READY = true ∧ (monUp (some 48) []).mon.slot = some 48 ∧
      (monUp (some 48) []).monSlot 48 = some 48 ∧ (monUp (some 48) []).mon.cur = some 48 ∧ (monUp (some 48) []).mon.void = false ∧ (monUp (some 48) []).srcDark 48 = false ∧ (monUp (some 48) []).srcDark 0 = true ∧
      (monUp none []).mon.slot = none ∧ (up []).pdOn 3 = false) ∧
    ((0 + 1) % ((monUp (some 48) []).monR 48 * (monUp (some 48) []).monD 48) ≠ 0 ∧
      (let s : State := { monUp (some 48) [] with mon := { MonSt.init with slot := some 48, chains := [(48, ⟨[], [], 65535, some 0, 1, false⟩)] } };
        ((s.chain 48).n + 1) % (s.monR 48 * s.monD 48) = 0)) ∧
    ((monUp (some 48) []).flag (fMON_IN_CFG_QUEUE_EN 48) = false ∧ (monUp (some 48) [(fMON_IN_CFG_QUEUE_EN 48, 1)]).flag (fMON_IN_CFG_QUEUE_EN 48) = true) ∧
    (monUp none []).notchOn 48 = false ∧ (monUp (some 0) []).mon.slot = some 0 ∧ (monUp (some (0 + 1)) []).mon.slot = some 1 ∧
    (let s := up [(fPD 3, 2)]; s.pdOn 3 = true ∧ s.flag fMON_STATUS_READY = false) ∧
    (let s : State := { monUp none [(fMON_IN_LAST_VALID 63, 1)] with mon := { MonSt.init with bgSince := some 5 }, life := 1000000005 };
      s.mon.bgSince = some 5 ∧ s.pdOn 3 = true ∧ s.flag (fMON_IN_LAST_VALID 63) = true ∧ (5 : BitVec 64).toNat + 1000000000 ≤ s.life.toNat ∧
        1000 * bandgapOff 838861 ≤ 4194304 * 4 ∧ 4194304 * 5 < 1000 * bandgapOff 830000) ∧ (up []).mon.bgSince = none ∧
    ((up []).mon.lostSec = 0 ∧ ({ up [] with mon := { MonSt.init with lostSec := 3 } } : State).mon.lostSec ≠ 0) ∧
    (let s : State := { up [] with mon := { MonSt.init with queue := [entry7] } };
      s.ready = true ∧ s.mon.queue = entry7 :: [] ∧ ([] : List MonEntry).length < 2048 ∧ (up []).mon.queue = [] ∧ State.reset.ready = false) ∧
    (cmdMonQRead.passes (rq 1 [3, 0]) (monUp none []) = true ∧ (monUp none []).fld (fPD 3) ≠ 0 ∧ (monUp none []).mon.queue.length ≤ 1024 ∧
      cmdMonQRead.passes (rq 1 [3, 0]) (up []) = true ∧ (up []).fld (fPD 3) = 0) := by decide +kernel

/-- A full queue, by its length, and the span of a chain. -/
theorem wit_monQueueFull : 1024 ≤ (List.replicate 1024 entry7).length := by rw [List.length_replicate]
theorem wit_monSpan : (monUp none []).monSpan 48 ≤ (List.replicate ((monUp none []).monSpan 48) 9).length ∧ ∀ d ∈ List.replicate ((monUp none []).monSpan 48) 9, d = 9 := by
  rw [List.length_replicate]; exact ⟨Nat.le_refl _, fun d h => (List.mem_replicate.mp h).2⟩
theorem wit_monSpanSome : (monUp none []).monSpan 48 ≠ 0 := by decide +kernel


/-- An event waiting to become a record, of a memory code. -/
def rec1 : CbRec := ⟨1#32, 0x0A01#16, 0x60#8, 3#3, false, 0#4, 0, 0, 7#32, 8#16⟩

/-- Lane 0 heads a port that has alignment markers and no PCS lock, on a quad that is on. -/
def amOnly : State := { State.reset with regs := [(rPWR_DOMAIN_B, 0x20000#32), (rHP_STATUS 0, 1#32)] }

theorem wit_CountersAndWindows_ports : amOnly.portClients 0 = [] := by
  simp only [State.portClients, List.flatMap_eq_nil_iff]
  intro n hn
  rw [unassigned amOnly (fun n hn off _ h => by simp only [amOnly, smLookup, rPWR_DOMAIN_B, rHP_STATUS, chBase] at *; rw [if_neg (by omega), if_neg (by omega)]) n
    (by have := (mem_span ..).mp (List.mem_filter.mp hn).1; omega)]
  rfl

theorem wit_CountersAndWindows :
    ((up []).headLane 0 = true ∧ (up []).headLane 1 = false ∧ (let s := amOnly;
      s.headLane 0 = true ∧ s.flag (fHP_STATUS_AM_LOCK 0) = true ∧ s.fld (fPD 24) ≠ 0 ∧ s.flag (fHP_STATUS_PCS_LOCK 0) = false ∧
        s.flag (fHL_CFG_GROUP 0) = false ∧ s.fld (fHL_LOOP_DEPTH 0) = 0 ∧ (up [(fHP_STATUS_PCS_LOCK 0, 1)]).flag (fHP_STATUS_PCS_LOCK 0) = true)) ∧
    ((up []).i2cServed = true ∧ State.reset.boot.linkUp = false) ∧
    ((up []).ready = true ∧ (up []).cntBlocked 0 = false ∧ cntKeyAt (up []) 0 0x30008 = some 1 ∧ cntKeyAt (up []) 0 0x30004 = some 0 ∧
      cntKeyAt (up []) 0 0x2FFF8 = none ∧ cntKeyAt (up []) 0 0x38000 = none ∧ (up [(fCNT_PAGE_KIND 0, 1)]).fld (fCNT_PAGE_KIND 0) = 1 ∧
      (up [(fCNT_PAGE_KIND 1, 2)]).fld (fCNT_PAGE_KIND 1) = 2 ∧ (up [(fSYS_ACCESS_OBS_COUNTERS, 0)]).cntBlocked 1 = true ∧ State.reset.ready = false) ∧
    ((up []).win.dirty = false ∧ ({ up [] with win := { WinSt.init with dirty := true } } : State).win.dirty = true) ∧
    (cmdCntWindowRead.passes (rq 1 [2, 0, 255, 1, 1, 0]) (up []) = true ∧ cmdCntWindowRead.passes (rq 1 [0, 0, 0, 0, 1, 0]) (up []) = true) := by decide +kernel

theorem wit_CallboardAndLifeRecords :
    ((up []).cb.input = [] ∧ (let s : State := { up [] with cb := { (up []).cb with input := [rec1] } };
      s.cb.input = rec1 :: [] ∧ s.cb.freeze.length ≤ 256 ∧ rec1.code.toNat / 256 = 0x0A)) ∧
    (let s : State := { up [(fMEM_STATUS_HBM_READY, 1)] with cb := { (up []).cb with toArchive := [rec1] } };
      s.cb.toArchive = rec1 :: [] ∧ s.flag fMEM_STATUS_HBM_READY = true ∧ (up []).cb.toArchive = []) ∧
    (cmdCbRead.passes (rq 2 [0, 126, 0, 0, 1, 0, 0, 0]) (up []) = true ∧ cmdCbRead.passes (rq 1 [1, 1, 0, 0, 255, 0, 0, 0]) (up []) = true ∧
      newerSeq 1#32 (up []).cbHead = true) ∧
    ((up []).firmware = true ∧ (up []).store.writing = none ∧ State.reset.firmware = false) ∧
    (let s : State := { up [] with store := { (up []).store with writing := some LifeImg.init, due := true } };
      s.store.writing = some LifeImg.init ∧ s.store.due = true ∧ (up []).store.due = false) ∧
    (cmdLifeRead.passes (rq 3 [0, 0, 0, 0, 64, 0]) (up []) = true ∧ cmdLifeRead.passes (rq 3 [255, 255, 0, 0, 1, 0]) (up []) = true) := by decide +kernel


/-- A device test, nothing of it waiting to start, of a merge domain that was dark. -/
def testing : State := { up [] with test := { TestSt.init with bist := some (4, 0), prior := [(.domain 28, 0)] } }

/-- An armed capture of channel 1. -/
def arm1 (fired : Bool) : CapArm := ⟨3, ⟨1, false, 0, 2, 99, 0, 0, [], false, false, 0, none⟩, 0, fired, 0, 2 ^ 48 - 1, false⟩

/-- A part with that capture. -/
def capUp (fired : Bool) : State := { up [(fCH 1, 2)] with test := { TestSt.init with cap := some (arm1 fired) } }

/-- The same once frame 99 has been sent. -/
def capMet : State := setOh 1 { OhSt.init with tx := { OhSt.init.tx with fn := 100 } } (capUp false)

/-- A part with one repair. -/
def mended (fuse : Bool) : State := { up [] with test := { TestSt.init with repairs := [⟨9, 2, 5, fuse⟩] } }

theorem wit_SelfTest :
    (let q := rq 1 [5, 0, 0, 0]; cmdBistRun.passes q (up []) = true ∧ bistRefuse 5 0 (up []) = none ∧ priorOf 5 0 (up []) = [(.domain 30, 0)] ∧
      cmdBistRun.passes q testing = true ∧ bistRefuse 5 0 testing = some { status := stBUSY, b0 := 0 }) ∧
    ((up [(fTIM_STATUS_STATE, 1)]).bistFit = false ∧ (up [(fHUB_CTRL_ROLE 2, 1)]).chEngaged 2 = true) ∧
    (testing.test.bist = some (4, 0) ∧ testing.bistReady = true ∧ (StartItem.domain 28, 0) ∈ testing.test.prior ∧ (up []).bistReady = false) ∧
    ({ testing with test := { testing.test with prior := [(.channel 1, 0), (.quad 2, 0)] } } : State).test.prior = [(.channel 1, 0), (.quad 2, 0)] := by decide +kernel

theorem wit_LoopbackPattern :
    (cmdLoopbackSet.passes (rq 1 [0, 3, 0, 0]) (up []) = true ∧ (let q := rq 1 [2, 0, 0, 0]; cmdLoopbackSet.passes q (laneUp 4 []) = true ∧
      loopRefuse 2 0 (laneUp 4 []) = none ∧ cmdLoopbackSet.passes q (laneUp 1 []) = true ∧ (laneUp 1 []).laneSt 0 ≠ 4)) ∧
    (let q := rq 1 [6, 1, 25, 0]; let s := up [(fCH 1, 2)]; cmdLoopbackSet.passes q s = true ∧ loopRefuse 6 1 s = none ∧ (up []).active 1 = false ∧
      s.active 1 = true ∧ s.fld (fLINE_MODE_IOP 1) = 0 ∧ s.memberOf 1 = none ∧ (up [(fCH 1, 2), (fHUB_CTRL_ROLE 1, 1)]).fld (fHUB_CTRL_ROLE 1) ≠ 0) ∧
    (up [(fMRG_CFG_VALID 0, 1), (fMRG_CFG_CH_A 0, 1)]).memberOf 1 = some (0, 0) ∧
    (let q := rq 1 [1, 0]; cmdPatternSet.passes q (up [(fCH 1, 2), (fTST_PAT_LOCK 1, 1)]) = true ∧ cmdPatternSet.passes (rq 1 [1, 3]) (up []) = true ∧
      (up [(fCH 1, 2), (fTST_PAT_LOCK 1, 1)]).flag (fTST_PAT_LOCK 1) = true) ∧
    (let s : State := { up [(fCH 0, 2)] with regs := (up [(fCH 0, 2)]).regs ++ [(rSLOT_MAP 0 0, 0x80008000#32)] };
      anySlot s.rd 0 = true ∧ cmdPatternSet.passes (rq 1 [0, 1]) s = true ∧ s.active 0 = true ∧ s.fld (fHUB_CTRL_ROLE 0) = 0 ∧ s.fld (fLINE_MODE_IOP 0) = 0) := by
  decide +kernel

theorem wit_RepairCapture :
    (let q := fun k => rq 1 [k, 9, 2, 0, 5, 0];
      (cmdRepairApply true).passes (q 0) (up []) = true ∧ (up []).storeOn 9 = true ∧ sparesLeft (up []) 9 2 false = 4 ∧ (up []).fusesLeft = 256 ∧
        (cmdRepairApply false).passes (q 1) (up []) = true ∧ (cmdRepairApply true).passes (q 2) (mended false) = true ∧
        (cmdRepairApply true).passes (q 2) (up []) = true ∧ (cmdRepairApply true).passes (q 0) (mended true) = true ∧ (cmdRepairApply true).passes (q 1) (mended true) = true ∧
        (let s : State := { up [] with store := { (up []).store with cur := { LifeImg.init with fuses := 256 } } };
          (cmdRepairApply true).passes (q 1) s = true ∧ s.fusesLeft = 0)) ∧
    ((cmdRepairApply true).passes (rq 1 [0, 0, 2, 0, 5, 0]) (up []) = true ∧ (up []).storeOn 0 = false) ∧
    (let q := rq 1 ([1, 0x21, 2, 3] ++ [99, 0, 0, 0, 0, 0, 0, 0]);
      cmdCaptureArm.passes q (up [(fCH 1, 2)]) = true ∧ (up []).test.cap = none ∧ (up [(fCH 1, 2)]).active 1 = true ∧ (up [(fCH 1, 2)]).bistHolds (resCH 1) = false ∧
        cmdCaptureArm.passes q (capUp false) = true ∧ (capUp false).test.cap.isSome = true ∧ cmdCaptureArm.passes q (up []) = true ∧ (up []).active 1 = false) ∧
    (capMet.test.cap = some (arm1 false) ∧ capMet.capDue (arm1 false) = true ∧ (capUp false).capDue (arm1 false) = false ∧
      (capUp false).test.cap = some (arm1 false) ∧ (arm1 false).triggered = false ∧ (capUp true).test.cap = some (arm1 true) ∧ (arm1 true).triggered = true ∧
      (arm1 true).pre = 0) ∧
    (let s : State := { up [] with test := { TestSt.init with caps := [(3, some (arm1 true).cap)] } };
      cmdCaptureRead.passes (rq 2 [3, 0, 64, 0, 0, 0, 0, 0]) s = true ∧ smGet (fun _ => none) s.test.caps 3 = some (arm1 true).cap ∧
        cmdCaptureRead.passes (rq 2 [3, 0, 64, 0, 0, 0, 0, 0]) (up []) = true ∧ smGet (fun _ => none) (up []).test.caps 3 = none) ∧
    (cmdCaptureCancel.passes (rq 1 []) (capUp false) = true ∧ cmdCaptureCancel.passes (rq 1 []) (capUp true) = true ∧
      cmdCaptureCancel.passes (rq 1 []) (up []) = true) := by decide +kernel


/-- The premises of the two step invariants, at a state with commands waiting, words in HBM and events in the recorder's input. -/
def busy : State := putCw 7 5#256 (offer 0x0201 0x10 1 2 { up [(fCH 1, 2)] with pending := [.qClear] })

theorem wit_StepsKeep : busy.regsWf ∧ Memory.wf busy.mem.hbm = true ∧ busy.cb.input.length ≤ 1024 ∧ busy.tim.inputs.length = 8 ∧ busy.banks = none ∧
    busy.pending ≠ [] := by decide +kernel

/-! ### Well-formed commands: each check refuses an ill-formed term -/

/-- A request of a host with a number of parameter bytes. -/
def rqOf (w : Who) (via tag rsvd n : Nat) : Request := ⟨⟨w, via, false, tag⟩, rsvd, List.replicate n 0#8⟩

theorem test_wf_requests : (Instr.nop (rqOf host 0 5 0 0)).wf = true ∧ (Instr.nop (rqOf ⟨4, 9, 2⟩ 2 5 0 0)).wf = true ∧
    ([rqOf ⟨0, 0, 0⟩ 0 5 0 0, rqOf ⟨5, 0, 0⟩ 0 5 0 0, rqOf ⟨4, 65536, 0⟩ 0 5 0 0, rqOf ⟨4, 9, 4⟩ 0 5 0 0, rqOf ⟨1, 9, 0⟩ 0 5 0 0, rqOf host 4 5 0 0,
      rqOf host 0 65536 0 0, rqOf host 0 5 65536 0].all fun q => !(Instr.nop q).wf) = true := by decide +kernel

theorem test_wf_longParameters : (Instr.cue (rqOf host 0 5 0 4077)).wf = false ∧ (Instr.claim (rqOf host 0 5 0 4076)).wf = true := by decide +kernel

theorem test_wf_operands : (([.heaterUnregulated 0 256, .engineOvertemperature 0 256, .imageVerified ⟨true, [], []⟩,
    .imageVerified ⟨true, List.replicate 512 0#8, [1#8]⟩, .malformedPacket ⟨0, 0, 0⟩ [], .unassignedDestPacket host 4 [], .preReadyRequest ⟨4, 0, 4⟩ [],
    .replyPacketQueued ⟨host, 4, false, 5⟩ none, .replyPacketQueued ⟨host, 0, false, 5⟩ (some (65536, 0, [])), .replyPacketQueued ⟨host, 0, false, 5⟩ (some (0, 256, [])),
    .i2cRegisterRead 0x5A (2 ^ 32), .registerWrite 0 2 0#32, .registerWrite 0 0x400000 0#32, .commandTimeout host 65536, .cueCarriedOut 0x12 0,
    .cueCarriedOut 0 (2 ^ 48), .lineCueRxHalf 0 false (2 ^ 48), .feedMeasurement 0 1 2 3 0 [] [], .rotationBoundary 0 [(264, 0, 0, 0)], .acqFail 0 1, .acqFail 0 7,
    .burstDescriptor 0 0 ⟨[], []⟩, .burstCodewordDecoded 0 0 ⟨[0#8], []⟩, .discoveryBurstReceived 0 ⟨[], []⟩ false 0 0 0] : List Instr).all fun i => !i.wf) = true := by decide +kernel

/-- The lengths that a descriptor and a discovery message have, hard decisions and estimates alike. -/
theorem test_wf_codewords : (Instr.burstDescriptor 0 0 ⟨List.replicate 128 0#8, [List.replicate 128 1#8]⟩).wf = true ∧
    (Instr.burstDescriptor 0 0 ⟨List.replicate 128 0#8, [[]]⟩).wf = false ∧ (Instr.discoveryBurstReceived 0 ⟨List.replicate 72 0#8, []⟩ false 0 0 0).wf = true ∧
    (Instr.burstCodewordDecoded 0 0 ⟨List.replicate 768 0#8, []⟩).wf = true := by decide +kernel

theorem test_wf_messages : (([.leafGrantMessage 0 [], .leafMapAnnouncement 0 [], .leafRangingCorrection 0 [], .leafJoinReply 0 [] [], .leafSilenceOrder 0 [],
    .frameTransmitted 0 [(64, [])] [] [], .frameTransmitted 0 [(0, [⟨some 16, List.replicate 643 0#8⟩])] [] [], .frameTransmitted 0 [(0, [⟨none, []⟩])] [] [],
    .frameTransmitted 0 [] [(1, [[144]])] [], .lineFrameReceived 0 (List.replicate 17 []) [] [] 0 [], .lineFrameReceived 0 [] [⟨[0#8], []⟩] [] 0 [],
    .subrateOverflow 0 0 [⟨none, []⟩], .counterTick [(64, [])], .copyDeclaredMissing 0 0 (2 ^ 48) 0, .farStorePrefetch 0 0 (2 ^ 48) [],
    .ledgerEntryRetired 0 (2 ^ 48) 0, .tagVerdictResolved 0, .tagVerdictResolved 65536, .idleUnderstudyTest [144], .fabricDataUnitReceived 0 [1#8], .routeExpiry 0,
    .routeExpiry 4097, .forwardedRequestTimeout 65536, .retentionBanksRestored [8], .cntLoRead 0 0x2FFF8, .cntLoRead 0 0x3C000, .cntLoRead 0 0x30004,
    .undefinedOpcode (rqOf host 0 5 0 0) 65536, .biasLockLost 0 0, .biasLockLost 0 64] : List Instr).all fun i => !i.wf) = true := by decide +kernel

/-! ### Worked figures of the manual -/

/-- An input of the monitor with its chain set (R423). -/
def chain (n r l d minPhase : Nat) : State :=
  up [(fMON_IN_CFG_SINC_ORD 5, n - 1), (fMON_IN_CFG_SINC_DEC 5, r), (fMON_IN_CFG_MA_LEN 5, l - 1), (fMON_IN_CFG_FIR_DEC 5, d), (fMON_IN_CFG_FIR_MIN 5, minPhase)]

/-- The three rows of R423. -/
theorem test_monitorFigures :
    ((chain 1 2 1 0 1).monGd 5, (chain 1 2 1 0 1).monSettle 5) = (208, 2112) ∧ ((chain 3 5 25 2 0).monGd 5, (chain 3 5 25 2 0).monSettle 5) = (4512, 9440) ∧
    ((chain 4 256 1024 0 0).monGd 5 / 1000, (chain 4 256 1024 0 0).monSettle 5 / 1000) = (4329, 8675) := by decide +kernel

/-- A leaf client that sends 6,290 Mb/s for 100 ms against a capacity of 6,275 Mb/s (R438). -/
theorem test_window : winWord 9828125 100 (6275 * 257) = 0x80000000#32 ||| 6290#32 := by decide +kernel

/-- The check value of CRC-32C. -/
theorem test_crc32c : crc32c ([0x31, 0x32, 0x33, 0x34, 0x35, 0x36, 0x37, 0x38, 0x39].map (BitVec.ofNat 8)) = 0xE3069283#32 := by decide +kernel

/-! ### Steps -/

/-- What the next state of one step is like. -/
def after (s : State) (p : State → Bool) : Bool := match step s with | .next t => p t | _ => false

/-- A NOP of the host waits; the step answers OK, and the command has left the queue. -/
theorem test_stepNop : after { up [] with pending := [.nop (rq 1 []), .qClear] } (fun t => decide (t.pending = [.qClear] ∧
    ((t.mbx.get 0).rsp.map fun w => w.word) = toWords (packet kReply 32 0 0 5 0x0100 stOK 1 []))) = true := by decide +kernel

/-- A request with an undefined opcode is refused and recorded. -/
theorem test_stepUndefined : after { up [] with pending := [.undefinedOpcode (rq 1 []) 0x0999] } (fun t => decide (t.cb.input.map CbRec.key =
    [(0x0110, 0, 1 + 0xFF * 16 + 0xFF * 4096 + 0xFFF * 1048576, 0x0999)] ∧ t.counter cREFUSED = 1)) = true := by decide +kernel

/-- Parameters longer than a packet carries are no packet. -/
theorem test_stepNotAPacket : (match step { up [] with pending := [.nop (rqOf host 0 5 0 4077)] } with | .fault f => decide (f = .notAPacket) | _ => false) = true := by
  decide +kernel

end Sys2Proof.Tests
end

/-! # What every step keeps

One lemma for each operation of the model: it keeps the canonical form of the register map (R2, R67, R95) and the invariant `State.Inv`.
The two are carried by one property `State.Form`, so that each operation is gone through once. -/
section
namespace Sys2Proof.Machine

open Sys2Proof

/-! ### The two invariants of every step as one property of the parts they speak of -/

/-- The two invariants of every step: the canonical form of the register map, and `State.Inv`. -/
inductive Kept where
  | regMap | rest

/-- What an invariant says of the parts of a state that the two speak of: registers, HBM, the recorder's input, the timing inputs and the
retention banks. -/
def Kept.On : Kept → SMap Word → SMap (BitVec 256) → List CbRec → List TimIn → Option Banks → Prop
  | .regMap, regs, _, _, _, _ => smWf resetWord regs = true
  | .rest, _, hbm, input, inputs, banks =>
    Memory.wf hbm = true ∧ input.length ≤ 1024 ∧ inputs.length = 8 ∧ ∀ b, banks = some b → b.tim.inputs.length = 8

/-- A state has an invariant. As it is said of the parts, an update of any other part has it by `⟨h.on⟩`. -/
structure State.Form (k : Kept) (s : State) : Prop where
  on : k.On s.regs s.mem.hbm s.cb.input s.tim.inputs s.banks

theorem form_regMap (s : State) : s.Form .regMap ↔ s.regsWf := ⟨fun h => h.on, fun h => ⟨h⟩⟩

theorem form_rest (s : State) : s.Form .rest ↔ s.Inv :=
  ⟨fun ⟨a, b, c, d⟩ => ⟨a, b, c, d⟩, fun ⟨a, b, c, d⟩ => ⟨a, b, c, d⟩⟩

section
variable {κ : Kept} {s t : State}

/-- New registers. -/
theorem State.Form.regs (hs : s.Form κ) {r : SMap Word} (hr : smWf resetWord s.regs = true → smWf resetWord r = true) :
    State.Form κ { s with regs := r } :=
  match κ, hs with
  | .regMap, hs => ⟨hr hs.on⟩
  | .rest, hs => ⟨hs.on⟩

/-- A new memory. -/
theorem State.Form.mem (hs : s.Form κ) {m : MemSt} (hm : Memory.wf s.mem.hbm = true → Memory.wf m.hbm = true) :
    State.Form κ { s with mem := m } :=
  match κ, hs with
  | .regMap, hs => ⟨hs.on⟩
  | .rest, ⟨a, b, c, d⟩ => ⟨hm a, b, c, d⟩

/-- A new callboard. -/
theorem State.Form.cb (hs : s.Form κ) {c : Callboard} (hc : s.cb.input.length ≤ 1024 → c.input.length ≤ 1024) :
    State.Form κ { s with cb := c } :=
  match κ, hs with
  | .regMap, hs => ⟨hs.on⟩
  | .rest, ⟨a, b, c, d⟩ => ⟨a, hc b, c, d⟩

/-- New timing. -/
theorem State.Form.tim (hs : s.Form κ) {t : TimSt} (ht : s.tim.inputs.length = 8 → t.inputs.length = 8) : State.Form κ { s with tim := t } :=
  match κ, hs with
  | .regMap, hs => ⟨hs.on⟩
  | .rest, ⟨a, b, c, d⟩ => ⟨a, b, ht c, d⟩

/-- New retention banks. -/
theorem State.Form.banks (hs : s.Form κ) {o : Option Banks} (hb : ∀ b, κ = .rest → o = some b → b.tim.inputs.length = 8) :
    State.Form κ { s with banks := o } :=
  match κ, hs with
  | .regMap, hs => ⟨hs.on⟩
  | .rest, ⟨a, b, c, _⟩ => ⟨a, b, c, fun x hx => hb x rfl hx⟩

/-- The timing inputs that an invariant knows of. -/
theorem State.Form.inputs (hs : s.Form κ) (e : κ = .rest) : s.tim.inputs.length = 8 := by
  subst e
  exact ((form_rest s).1 hs).inputs

/-- The timing inputs in the retention banks that an invariant knows of. -/
theorem State.Form.kept (hs : s.Form κ) {b : Banks} (hb : s.banks = some b) (e : κ = .rest) : b.tim.inputs.length = 8 := by
  subst e
  exact ((form_rest s).1 hs).kept b hb

/-! Updates of the parts that no invariant speaks of. -/

theorem State.Form.withLater (hs : s.Form κ) {x : List Later} : State.Form κ { s with later := x } := ⟨hs.on⟩
theorem State.Form.withClaims (hs : s.Form κ) {x : List (Nat × Who)} : State.Form κ { s with claims := x } := ⟨hs.on⟩
theorem State.Form.withCnt (hs : s.Form κ) {x : Counters} : State.Form κ { s with cnt := x } := ⟨hs.on⟩
theorem State.Form.withEpDiscards (hs : s.Form κ) {x : Nat} : State.Form κ { s with epDiscards := x } := ⟨hs.on⟩
theorem State.Form.withFab (hs : s.Form κ) {x : FabSt} : State.Form κ { s with fab := x } := ⟨hs.on⟩
theorem State.Form.withFree (hs : s.Form κ) {x : Nat} : State.Form κ { s with free := x } := ⟨hs.on⟩
theorem State.Form.withI2c (hs : s.Form κ) {x : Mailbox} : State.Form κ { s with i2c := x } := ⟨hs.on⟩
theorem State.Form.withOh (hs : s.Form κ) {x : Four OhSt} : State.Form κ { s with oh := x } := ⟨hs.on⟩

theorem State.Form.withOut (hs : s.Form κ) {x : Ports} : State.Form κ { s with out := x } := ⟨hs.on⟩
theorem State.Form.withMbx (hs : s.Form κ) {x : Two Mailbox} : State.Form κ { s with mbx := x } := ⟨hs.on⟩
theorem State.Form.withMrg (hs : s.Form κ) {x : Two MrgSt} : State.Form κ { s with mrg := x } := ⟨hs.on⟩
theorem State.Form.withMsix (hs : s.Form κ) {x : Two Msix} : State.Form κ { s with msix := x } := ⟨hs.on⟩
theorem State.Form.withPerm (hs : s.Form κ) {x : Perm} : State.Form κ { s with perm := x } := ⟨hs.on⟩
theorem State.Form.withPwr (hs : s.Form κ) {x : PwrSt} : State.Form κ { s with pwr := x } := ⟨hs.on⟩
theorem State.Form.withTest (hs : s.Form κ) {x : TestSt} : State.Form κ { s with test := x } := ⟨hs.on⟩
theorem State.Form.withWin (hs : s.Form κ) {x : WinSt} : State.Form κ { s with win := x } := ⟨hs.on⟩
theorem State.Form.withHgcPat (hs : s.Form κ) {x : Four HgcPort} {y : Four PatSt} : State.Form κ { s with hgc := x, pat := y } := ⟨hs.on⟩
theorem State.Form.withI2cOut (hs : s.Form κ) {x : Mailbox} {y : Ports} : State.Form κ { s with i2c := x, out := y } := ⟨hs.on⟩
theorem State.Form.withMbxArrivedLaterEpDiscards (hs : s.Form κ) {x : Two Mailbox} {y : List Arrival} {z : List Later} {w : Nat} :
    State.Form κ { s with mbx := x, arrived := y, later := z, epDiscards := w } := ⟨hs.on⟩
theorem State.Form.withOpsBootPwr (hs : s.Form κ) {x : List Op} {y : BootSt} {z : PwrSt} :
    State.Form κ { s with ops := x, boot := y, pwr := z } := ⟨hs.on⟩

theorem State.Form.withTim (hs : s.Form κ) {x : TimSt} (hx : x.inputs = s.tim.inputs := by rfl) : State.Form κ { s with tim := x } :=
  hs.tim fun e => hx ▸ e

theorem State.Form.withCb (hs : s.Form κ) {x : Callboard} (hx : x.input = s.cb.input := by rfl) : State.Form κ { s with cb := x } :=
  hs.cb fun e => hx ▸ e

theorem State.Form.memWf {m : MemSt} (hs : s.Form κ) (hm : Memory.wf s.mem.hbm = true → Memory.wf m.hbm = true) : (s.setMem m).Form κ :=
  hs.mem hm

theorem State.Form.memTo {m : MemSt} (hs : s.Form κ) (hm : m.hbm = s.mem.hbm := by rfl) : (s.setMem m).Form κ := hs.mem fun h => hm ▸ h

theorem State.Form.withoutBanks (hs : s.Form κ) : State.Form κ { s with banks := none } := hs.banks fun _ _ => nofun

theorem State.Form.ite {c : Prop} {_ : Decidable c} (hs : s.Form κ) (ht : t.Form κ) : State.Form κ (if c then s else t) := by
  split
  · exact hs
  · exact ht

theorem State.Form.pairIte {α : Type} {c : Prop} {_ : Decidable c} {x y : α × State} (hx : x.2.Form κ) (hy : y.2.Form κ) :
    (if c then x else y).2.Form κ := by
  split
  · exact hx
  · exact hy

/-- A walk over a list. -/
theorem State.Form.each {α : Type} {f : α → State → State} {l : List α} (hf : ∀ a t, t.Form κ → (f a t).Form κ) (hs : s.Form κ) :
    (Sys2Proof.each l f s).Form κ := each_inv (State.Form κ) f hf l s hs

/-- A walk that carries a value beside the state. -/
theorem State.Form.foldl {α β : Type} {f : β × State → α → β × State} {l : List α} {a : β × State}
    (hf : ∀ a e, a.2.Form κ → (f a e).2.Form κ) (hs : a.2.Form κ) : (l.foldl f a).2.Form κ :=
  List.foldlRecOn (motive := fun a : β × State => a.2.Form κ) l f hs fun a ha e _ => hf a e ha

/-- The state of a pair that a match has taken apart. -/
theorem State.Form.of_eq {α : Type} {x : α × State} {a : α} (hs : x.2.Form κ) (e : x = (a, t)) : t.Form κ := by
  rw [e] at hs
  exact hs

/-- A state in two parts. -/
theorem State.Form.via (hf : s.Form κ → t.Form κ) (hs : s.Form κ) : t.Form κ := hf hs

/-! ### Outcomes, bodies and opcodes -/

/-- Every next state of an outcome has an invariant. -/
def NextForm (κ : Kept) : Host.Outcome State Fault Refusal → Prop
  | .next t => t.Form κ
  | _ => True

/-- The state that a request's body gives has an invariant. -/
def BodyForm (κ : Kept) : Except Ref (State × Answer) → Prop
  | .ok e => e.1.Form κ
  | .error _ => True

/-- The body of an opcode keeps both invariants. -/
def Cmd.KeepsForm (c : Cmd) : Prop := ∀ κ q s, s.Form κ → BodyForm κ (c.body q s)

theorem NextForm.next (hs : s.Form κ) : NextForm κ (.next s) := hs

theorem NextForm.fault {f : Fault} : NextForm κ (.fault f) := trivial

theorem State.Form.settle (hs : s.Form κ) : (settle s).Form κ := by
  rw [settle_other]
  exact ⟨hs.on⟩

theorem NextForm.ok (hs : s.Form κ) : NextForm κ (ok s) := .next hs.settle

theorem NextForm.ite {c : Prop} {_ : Decidable c} {x y : Host.Outcome State Fault Refusal} (hx : NextForm κ x) (hy : NextForm κ y) :
    NextForm κ (if c then x else y) := by
  split
  · exact hx
  · exact hy

theorem NextForm.via {x : Host.Outcome State Fault Refusal} (hf : s.Form κ → NextForm κ x) (hs : s.Form κ) : NextForm κ x := hf hs

theorem BodyForm.ok {a : Answer} (hs : s.Form κ) : BodyForm κ (.ok (s, a)) := hs

theorem BodyForm.error {r : Ref} : BodyForm κ (.error r) := trivial

theorem BodyForm.ite {c : Prop} {_ : Decidable c} {x y : Except Ref (State × Answer)} (hx : BodyForm κ x) (hy : BodyForm κ y) :
    BodyForm κ (if c then x else y) := by
  split
  · exact hx
  · exact hy

theorem BodyForm.via {x : Except Ref (State × Answer)} (hf : s.Form κ → BodyForm κ x) (hs : s.Form κ) : BodyForm κ x := hf hs

/-! ### The operations of `Machine/Ops` -/

theorem State.Form.wr {off : Nat} {v : Word} (hs : s.Form κ) : (s.wr off v).Form κ := hs.regs (smWf_smSet _ _ _ _)

theorem State.Form.setF {f : Fld} {v : Nat} (hs : s.Form κ) : (s.setF f v).Form κ := .wr hs

theorem State.Form.setB {f : Fld} {b : Bool} (hs : s.Form κ) : (s.setB f b).Form κ := .setF hs

theorem State.Form.bumpF {f : Fld} (hs : s.Form κ) : (s.bumpF f).Form κ := .setF hs

theorem State.Form.unreg {off : Nat} (hs : s.Form κ) : (s.unreg off).Form κ := hs.regs (smWf_smDel _ _ _)

theorem State.Form.passTime {t : BitVec 64} (hs : s.Form κ) : (passTime t s).Form κ := ⟨hs.on⟩

theorem State.Form.countN {k n : Nat} (hs : s.Form κ) : (countN k n s).Form κ := ⟨hs.on⟩

theorem State.Form.count {k : Nat} (hs : s.Form κ) : (count k s).Form κ := .countN hs

theorem State.Form.cntClear {k : Nat} (hs : s.Form κ) : (cntClear k s).Form κ := ⟨hs.on⟩

/-- An event goes into the recorder's input only where fewer than 1,024 wait (R440). -/
theorem State.Form.offer {code block p0 p1 : Nat} (hs : s.Form κ) : (offer code block p0 p1 s).Form κ := by
  unfold Machine.offer
  extract_lets
  split
  · next hl => exact hs.cb fun _ => by rw [List.length_append]; exact hl
  · exact .setB (.count ⟨hs.on⟩)

theorem State.Form.toMbx {f : Nat} {notice : Bool} {pkt : List Byte} (hs : s.Form κ) : (toMbx f notice pkt s).Form κ :=
  .ite (.count ⟨hs.on⟩) (.ite (.setB (.count hs)) (.ite (.setB ⟨hs.on⟩) ⟨hs.on⟩))

theorem State.Form.toI2c {notice : Bool} {pkt : List Byte} (hs : s.Form κ) : (toI2c notice pkt s).Form κ :=
  .ite hs (.ite (.count hs) ⟨hs.on⟩)

theorem State.Form.linkSendTo {n leaf : Nat} {pkt : List Byte} (hs : s.Form κ) : (linkSendTo n leaf pkt s).Form κ :=
  .ite ⟨hs.on⟩ (.count hs)

theorem State.Form.linkSend {n : Nat} {pkt : List Byte} (hs : s.Form κ) : (linkSend n pkt s).Form κ := .linkSendTo hs

theorem State.Form.toFabric {o : Origin} {mk : Nat → List Byte} (hs : s.Form κ) : (toFabric o mk s).Form κ := by
  refine .ite (.linkSend hs) ?_
  split
  · exact .linkSend hs
  · exact .count hs

theorem State.Form.answerPacket {o : Origin} {kind opcode status : Nat} {params : List Byte} (hs : s.Form κ) :
    (answerPacket o kind opcode status params s).Form κ := by
  unfold Machine.answerPacket
  extract_lets
  split
  · exact .toMbx hs
  · exact .toMbx hs
  · exact .toI2c hs
  · exact .toFabric hs
  · exact hs

theorem State.Form.answer {o : Origin} {kind opcode status : Nat} {params : List Byte} (hs : s.Form κ) :
    (answer o kind opcode status params s).Form κ :=
  .ite (.answerPacket hs) (.withLater (.answerPacket hs))

theorem State.Form.refuseRecord {o : Origin} {opcode : Nat} {r : Ref} (hs : s.Form κ) : (refuseRecord o opcode r s).Form κ :=
  .count (.offer hs)

theorem State.Form.refuse {o : Origin} {opcode : Nat} {r : Ref} (hs : s.Form κ) : (refuse o opcode r s).Form κ := .answer (.refuseRecord hs)

theorem State.Form.finish {op : Op} {r : Ref} {params : List Byte} (hs : s.Form κ) : (finish op r params s).Form κ :=
  .ite (.answer (.refuseRecord hs)) (.answer hs)

theorem State.Form.dropOp {op : Op} (hs : s.Form κ) : (dropOp op s).Form κ := ⟨hs.on⟩

theorem State.Form.endOp {op : Op} {r : Ref} {params : List Byte} (hs : s.Form κ) : (endOp op r params s).Form κ := .finish (.dropOp hs)

theorem State.Form.targetDone {opcode target : Nat} {failed : Option Nat} {params : List Byte} (hs : s.Form κ) :
    (targetDone opcode target failed params s).Form κ := by
  unfold Machine.targetDone
  split
  · exact hs
  · refine .ite ?_ ⟨hs.on⟩
    split
    · exact .endOp ⟨hs.on⟩
    · exact .endOp ⟨hs.on⟩

theorem State.Form.wakeNotice (hs : s.Form κ) : (wakeNotice s).Form κ := by
  refine .ite hs ?_
  split
  · exact hs
  · exact .ite hs (.endOp hs)

/-! ### The operations of `Machine/Serve` -/

theorem State.Form.releaseArrival {a : Arrival} (hs : s.Form κ) : (releaseArrival a s).Form κ := by
  refine .ite hs ?_
  split
  · exact .setB ⟨hs.on⟩
  · exact .setB ⟨hs.on⟩
  · exact ⟨hs.on⟩
  · exact ⟨hs.on⟩
  · exact hs

theorem State.Form.takeFirst {p : Arrival → Bool} (hs : s.Form κ) : (takeFirst p s).2.Form κ := by
  unfold Machine.takeFirst
  split
  · exact hs
  · split
    · exact .releaseArrival ⟨hs.on⟩
    · exact hs

theorem State.Form.takeArrival {q : Request} {code : Nat} (hs : s.Form κ) : (takeArrival q code s).2.Form κ := .takeFirst hs

theorem BodyForm.checks {c : Cmd} (hc : c.KeepsForm) {excess : Bool} {q : Request} (hs : s.Form κ) : BodyForm κ (checks c excess q s) := by
  unfold Machine.checks
  extract_lets
  refine .ite .error ?_
  split
  · exact .error
  · refine .ite .error ?_
    split
    · exact .error
    · exact .ite .error (hc _ _ _ hs)

theorem State.Form.place {q : Request} {code : Nat} {a : Answer} (hs : s.Form κ) : (place q code a s).Form κ :=
  match a with
  | .done _ => .answer hs
  | .accept _ => .answer ⟨hs.on⟩
  | .defer _ => ⟨hs.on⟩
  | .fail _ => .refuse hs

theorem State.Form.serveState {c : Cmd} (hc : c.KeepsForm) {q : Request} (hs : s.Form κ) : (serveState c q s).Form κ := by
  have ht : (s.taken q c.code).Form κ := State.Form.takeArrival hs
  have hb := BodyForm.checks hc (excess := overLimit (Machine.takeArrival q c.code s).1 q (s.taken q c.code)) (q := q) ht
  rw [serveState_eq]
  refine .ite hs (.ite (.count ht) ?_)
  split
  · exact .refuse ht
  · next e => rw [e] at hb; exact .place hb

theorem NextForm.serve {c : Cmd} (hc : c.KeepsForm) {q : Request} (hs : s.Form κ) : NextForm κ (serve c q s) :=
  .ite .fault (.ok (.serveState hc hs))

/-! ### The operations of `Machine/Packets` -/

theorem State.Form.arrive {w : Who} {via : Nat} {bs : List Byte} {size : Nat} (hs : s.Form κ) : (arrive w via bs size s).Form κ := ⟨hs.on⟩

theorem State.Form.sendAll {boundary : Bool} {but : Nat} {pkt : List Byte} (hs : s.Form κ) : (sendAll boundary but pkt s).Form κ :=
  .each (fun _ _ ht => .ite ht (.ite (.linkSend ht) ht)) hs

theorem State.Form.forwardLocal {w : Who} {bs : List Byte} (hs : s.Form κ) : (forwardLocal w bs s).Form κ := by
  refine .ite (.refuse hs) (.ite (.sendAll ⟨hs.on⟩) ?_)
  split
  · exact .linkSend ⟨hs.on⟩
  · exact .refuse hs

theorem State.Form.localPacket {master : Nat} {bs : List Byte} {size : Nat} (hs : s.Form κ) : (localPacket master bs size s).Form κ :=
  .ite (.releaseArrival (.forwardLocal hs)) (.arrive hs)

theorem State.Form.linkRelease {n size : Nat} (hs : s.Form κ) : (linkRelease n size s).Form κ := ⟨hs.on⟩

theorem State.Form.transitFault {n : Nat} {bs : List Byte} {status off cnt : Nat} (hs : s.Form κ) :
    (transitFault n bs status off cnt s).Form κ :=
  .ite (.refuse (.count hs)) (.count hs)

theorem State.Form.routePacket {n : Nat} {bs : List Byte} (hs : s.Form κ) : (routePacket n bs s).Form κ := by
  refine .ite (.ite (.arrive hs) (.ite ⟨hs.on⟩ (.linkRelease hs))) (.ite (.count (.linkRelease hs)) ?_)
  split
  · exact .transitFault (.linkRelease hs)
  · exact .ite (.transitFault (.linkRelease hs)) (.count (.linkSend (.linkRelease hs)))

/-! ### The operations of `Machine/Timing` -/

theorem State.Form.timIrq (hs : s.Form κ) : (timIrq s).Form κ := .setB (.setB hs)

theorem State.Form.setTimIn {x : Nat} {i : TimIn} (hs : s.Form κ) : (s.setTimIn x i).Form κ :=
  hs.tim fun h => by rw [List.length_set]; exact h

theorem State.Form.timInvalid {x : Nat} (hs : s.Form κ) : (timInvalid x s).Form κ :=
  .via (fun ht => .ite (.timIrq (.offer (.setF ht))) (.setF ht)) (.setB (.setB (.setTimIn hs)))

theorem State.Form.timInput {x : Nat} (hs : s.Form κ) : (timInput x s).Form κ :=
  .via (fun ht => .via (fun hu => .via (fun hv2 => .ite (.offer (.setB hv2)) (.setB hv2)) (.ite (.timInvalid hu) (.ite (.timIrq
    (.setB hu)) hu))) (.ite (.setB ht) (.offer (.setF (.setB ht))))) (.ite (.setTimIn hs) hs)

theorem State.Form.lockFollow {st : Nat} (hs : s.Form κ) : (lockFollow st s).Form κ := .ite ⟨hs.on⟩ (.ite ⟨hs.on⟩ hs)

theorem State.Form.selState {st : Nat} {sel : Option Nat} (hs : s.Form κ) : (selState st sel s).Form κ := by
  refine .via (fun ht => .ite ht (.timIrq (.offer (.setF ht)))) ?_
  split
  · exact .setB (.setF (.lockFollow hs))
  · exact .setB (.lockFollow hs)

theorem State.Form.selHoldover (hs : s.Form κ) : (selHoldover s).Form κ := .ite hs (.ite (.selState hs) (.selState (.setB (.setF hs))))

theorem State.Form.selAcquire {x : Nat} (hs : s.Form κ) : (selAcquire x s).Form κ := .selState ⟨hs.on⟩

theorem State.Form.timQl (hs : s.Form κ) : (timQl s).Form κ := .setF hs

theorem State.Form.timFreq {freq : Int} (hs : s.Form κ) : (timFreq freq s).Form κ := .setF hs

theorem State.Form.selFollow (hs : s.Form κ) : (selFollow s).Form κ := by
  unfold Machine.selFollow
  extract_lets
  split
  · exact .ite hs (.selHoldover hs)
  · exact .ite (.ite hs (.offer (.selState (.setF hs)))) (.ite hs (.selAcquire hs))

theorem State.Form.selEval (hs : s.Form κ) : (selEval s).Form κ :=
  .setB (.ite hs (.via (fun ht => .ite (.selHoldover ht) (.ite (.selState ht) (.ite (.selState ht) (.selFollow ht)))) (.ite
    (.selHoldover hs) hs)))

theorem State.Form.timEval {freq : Int} (hs : s.Form κ) : (timEval freq s).Form κ :=
  .timQl (.timFreq (.selEval (.each (fun _ _ ht => .timInput ht) hs)))

theorem State.Form.timChange (hs : s.Form κ) : (timChange s).Form κ := .timEval hs

theorem State.Form.lineInput {n : Nat} (hs : s.Form κ) : (lineInput n s).Form κ := .ite hs (.timChange hs)

theorem NextForm.execSelectorEvaluation {freq : Int} (hs : s.Form κ) : NextForm κ (execSelectorEvaluation freq s) := .ok (.timEval ⟨hs.on⟩)

theorem NextForm.execInputLoa {x : Fin 8} (hs : s.Form κ) : NextForm κ (execInputLoa x s) := .ok (.timChange (.setB hs))

theorem NextForm.execLoaCleared {x : Fin 8} (hs : s.Form κ) : NextForm κ (execLoaCleared x s) := .ok (.timChange (.setB hs))

theorem NextForm.execInputFrequencyCheck {x : Fin 8} {off1 off64 raw : Int} (hs : s.Form κ) :
    NextForm κ (execInputFrequencyCheck x off1 off64 raw s) :=
  .via (fun ht => .ok (.timChange (.ite ht (.offer ht)))) (.setF (.setB (.setB hs)))

theorem NextForm.execInputValidated {x : Fin 8} (hs : s.Form κ) : NextForm κ (execInputValidated x s) :=
  .ite (.ok hs) (.ok (.timChange (.offer (.setF (.setB (.setTimIn hs))))))

theorem NextForm.execInputWtrExpiry {x : Fin 8} (hs : s.Form κ) : NextForm κ (execInputWtrExpiry x s) :=
  .ite (.ok (.timChange (.setF (.setB hs)))) (.ok hs)

theorem NextForm.execSwitchComplete {off : Int} (hs : s.Form κ) : NextForm κ (execSwitchComplete off s) :=
  .ite (.ok (.timChange (.offer (.selState ⟨hs.on⟩)))) (.ok hs)

theorem NextForm.execAcquiringBandwidthStep {good : Bool} (hs : s.Form κ) : NextForm κ (execAcquiringBandwidthStep good s) :=
  .ite (.ite (.ok ⟨hs.on⟩) (.ok (.timChange (.selState hs)))) (.ok hs)

theorem State.Form.todStep {sec ns cause : Nat} (hs : s.Form κ) : (todStep sec ns cause s).Form κ := .offer (.setB (.setF ⟨hs.on⟩))

theorem State.Form.ppsFlags {los lock : Bool} (hs : s.Form κ) : (ppsFlags los lock s).Form κ := .ite hs (.offer (.setB (.setB hs)))

theorem State.Form.ppsMissed {m : Nat} (hs : s.Form κ) : (ppsMissed m s).Form κ := .ite (.ppsFlags ⟨hs.on⟩) ⟨hs.on⟩

theorem State.Form.ppsStep {err : Int} (hs : s.Form κ) : (ppsStep err s).Form κ := .ite (.todStep ⟨hs.on⟩) (.todStep ⟨hs.on⟩)

theorem State.Form.ppsValid {err : Int} (hs : s.Form κ) : (ppsValid err s).Form κ :=
  .ite (.ppsFlags (.withTim ⟨hs.on⟩)) (.ite (.ppsStep (.withTim (.ppsFlags (.withTim ⟨hs.on⟩)))) (.ppsFlags (.withTim ⟨hs.on⟩)))

theorem NextForm.execPpsPulse {b : Bool} {gap err : Int} (hs : s.Form κ) : NextForm κ (execPpsPulse b gap err s) :=
  .ite (.ok hs) (.ite (.ok (.ppsValid hs)) (.ok (.ppsMissed hs)))

theorem NextForm.execPpsMissing (hs : s.Form κ) : NextForm κ (execPpsMissing s) := .ite (.ok hs) (.ok (.ppsMissed hs))

theorem State.Form.timWritten {oldSrc : Nat} (hs : s.Form κ) : (timWritten oldSrc s).Form κ := .timChange (.ite hs (.ppsFlags ⟨hs.on⟩))

theorem State.Form.wtrSecond {x : Nat} (hs : s.Form κ) : (wtrSecond x s).Form κ := .setF hs

theorem State.Form.fpPulse (hs : s.Form κ) : (fpPulse s).Form κ := ⟨hs.on⟩

theorem State.Form.ppsEdge {ofs : Int} (hs : s.Form κ) : (ppsEdge ofs s).Form κ := .ite ⟨hs.on⟩ (.ite (.fpPulse ⟨hs.on⟩) ⟨hs.on⟩)

theorem NextForm.execInternalSecond (hs : s.Form κ) : NextForm κ (execInternalSecond s) := by
  unfold Machine.execInternalSecond
  extract_lets left ofs x t
  have ht : t.Form κ := .ppsEdge (.each (fun _ _ h => .wtrSecond h) ⟨hs.on⟩)
  clear_value t
  split
  · exact .ok ⟨ht.on⟩
  · extract_lets u
    have hu : u.Form κ := .todStep ⟨ht.on⟩
    clear_value u
    split
    · exact .ok (.endOp hu)
    · exact .ok hu

theorem cmdTimReport_keepsForm : cmdTimReport.KeepsForm := fun _ _ _ hs => .ok hs

theorem cmdTimSet_keepsForm : cmdTimSet.KeepsForm := fun _ _ _ hs => .ok (.timWritten (.each (fun _ _ ht => .wr ht) hs))

theorem cmdTodStep_keepsForm : cmdTodStep.KeepsForm := fun _ _ _ hs =>
  .ite .error (.ite (.ok ⟨hs.on⟩) (.ite (.ok (.todStep hs)) (.ok (.todStep hs))))

theorem cmdTodGet_keepsForm : cmdTodGet.KeepsForm := fun _ _ _ hs => .ok hs

theorem State.Form.setRl {who off : Nat} {v : Word} (hs : s.Form κ) : (setRl who off v s).Form κ := ⟨hs.on⟩

theorem State.Form.put {w : Word} (hs : s.Form κ) : (put w s).Form κ := ⟨hs.on⟩

theorem State.Form.todLoRead {who : Nat} (hs : s.Form κ) : (todLoRead who s).Form κ := .put (.setRl (.setRl hs))

theorem NextForm.execTodLoRead {who : Fin 3} (hs : s.Form κ) : NextForm κ (execTodLoRead who s) := .ok (.ite (.todLoRead hs) (.put hs))

/-! ### The operations of `Machine/Staging` -/

theorem State.Form.openSession {b : Nat} {w : Who} {implicit : Option Nat} (hs : s.Form κ) : (openSession b w implicit s).Form κ := ⟨hs.on⟩

theorem State.Form.setSession {b : Nat} {f : Rehearsal → Rehearsal} (hs : s.Form κ) : (setSession b f s).Form κ := ⟨hs.on⟩

theorem State.Form.halfShow {n : Nat} (hs : s.Form κ) : (halfShow n s).Form κ := .setB hs

theorem State.Form.cancelHalf {b : Nat} (hs : s.Form κ) : (cancelHalf b s).Form κ := .ite (.halfShow ⟨hs.on⟩) hs

theorem State.Form.dropSession {b : Nat} (hs : s.Form κ) : (dropSession b s).Form κ := .cancelHalf ⟨hs.on⟩

theorem State.Form.answerCue {b : Nat} {r : Ref} {params : List Byte} (hs : s.Form κ) : (answerCue b r params s).Form κ := by
  unfold Machine.answerCue
  split
  · exact .endOp hs
  · exact hs

theorem State.Form.sessionNotice {r : Rehearsal} {byMaster : Option Nat} (hs : s.Form κ) : (sessionNotice r byMaster s).Form κ := .answer hs

theorem State.Form.endSession {byMaster : Option Nat} {r : Rehearsal} (hs : s.Form κ) : (endSession byMaster r s).Form κ :=
  .sessionNotice (.answerCue (.dropSession hs))

theorem State.Form.endSessions {byMaster : Option Nat} {p : Rehearsal → Bool} (hs : s.Form κ) : (endSessions byMaster p s).Form κ :=
  .each (fun _ _ ht => .endSession ht) hs

theorem State.Form.endBlock {b : Nat} (hs : s.Form κ) : (endBlock b s).Form κ := by
  unfold Machine.endBlock
  split
  · exact .endSession hs
  · exact hs

/-! ### The operations of `Machine/Uneltus` -/

theorem State.Form.setHgc {n : Ch} {h : HgcPort} (hs : s.Form κ) : (s.setHgc n h).Form κ := ⟨hs.on⟩

theorem State.Form.hgcWrite {n : Ch} {w : Word} {last : Bool} (hs : s.Form κ) : (hgcWrite n w last s).Form κ := by
  unfold Machine.hgcWrite
  extract_lets m
  split
  extract_lets t u
  have hu : u.Form κ := .ite (.setB (.setHgc hs)) (.setHgc hs)
  clear_value u
  split
  · exact hu
  · exact .ite (.setHgc hu) (.setHgc hu)

theorem State.Form.mbxWrite {f : Pr} {w : Word} {last : Bool} (hs : s.Form κ) : (mbxWrite f w last s).Form κ := by
  unfold Machine.mbxWrite
  split
  extract_lets t u
  have hu : u.Form κ := .ite (.setB ⟨hs.on⟩) ⟨hs.on⟩
  clear_value u
  split
  · exact hu
  · exact .localPacket hu

theorem State.Form.earlyWord {f : Pr} {last : Bool} (hs : s.Form κ) : (earlyWord f last s).Form κ := .ite hs (.ite ⟨hs.on⟩ (.setB ⟨hs.on⟩))

theorem State.Form.queueWrite {f : Pr} {hgc : Option Ch} {w : Word} {last : Bool} (hs : s.Form κ) : (queueWrite f hgc w last s).Form κ := by
  refine .ite ?_ ?_
  · split
    · exact .earlyWord hs
    · exact hs
  · split
    · exact .mbxWrite hs
    · exact .ite (.hgcWrite hs) hs

theorem NextForm.execMbxReqDataWrite {f : Pr} {hgc : Option Ch} {w : Word} (hs : s.Form κ) : NextForm κ (execMbxReqDataWrite f hgc w s) :=
  .ok (.queueWrite hs)

theorem NextForm.execMbxReqEndWrite {f : Pr} {hgc : Option Ch} {w : Word} (hs : s.Form κ) : NextForm κ (execMbxReqEndWrite f hgc w s) :=
  .ok (.queueWrite hs)

theorem State.Form.onQueue {f : Pr} {hgc : Option Ch} {act : Mailbox → Mailbox} (hs : s.Form κ) : (onQueue f hgc act s).Form κ := by
  unfold Machine.onQueue
  split
  · exact ⟨hs.on⟩
  · exact .ite (.setHgc hs) hs

theorem NextForm.execMbxReqCancel {f : Pr} {hgc : Option Ch} (hs : s.Form κ) : NextForm κ (execMbxReqCancel f hgc s) :=
  .ok (.ite (.onQueue hs) hs)

theorem State.Form.hgcRead {who : Nat} {n : Ch} (hs : s.Form κ) : (hgcRead who n s).Form κ := .put (.setRl (.setHgc hs))

theorem NextForm.execMbxRspDataRead {f : Pr} {hgc : Option Ch} (hs : s.Form κ) : NextForm κ (execMbxRspDataRead f hgc s) := by
  refine .ite (.ok (.put hs)) ?_
  split
  · exact .ok (.put ⟨hs.on⟩)
  · exact .ok (.hgcRead hs)

theorem NextForm.execMbxRspMark {f : Pr} {hgc : Option Ch} (hs : s.Form κ) : NextForm κ (execMbxRspMark f hgc s) :=
  .ok (.ite (.onQueue hs) hs)

theorem NextForm.execMbxRspRewind {f : Pr} {hgc : Option Ch} (hs : s.Form κ) : NextForm κ (execMbxRspRewind f hgc s) :=
  .ok (.ite (.onQueue hs) hs)

theorem State.Form.releaseQueue {f : Pr} {hgc : Option Ch} (hs : s.Form κ) : (releaseQueue f hgc s).Form κ :=
  .ite (.setB (.onQueue hs)) (.onQueue hs)

theorem NextForm.execMbxRspRelease {f : Pr} {hgc : Option Ch} (hs : s.Form κ) : NextForm κ (execMbxRspRelease f hgc s) :=
  .ok (.ite (.releaseQueue hs) hs)

theorem State.Form.placeLater {l : Later} (hs : s.Form κ) : (placeLater l s).Form κ := .answerPacket (.withLater ⟨hs.on⟩)

theorem NextForm.execReplyPacketQueued {o : Origin} {notice : Option (Nat × Nat × List Byte)} (hs : s.Form κ) :
    NextForm κ (execReplyPacketQueued o notice s) := by
  refine .ite (.ok hs) ?_
  split
  · exact .ok (.answer hs)
  · split
    · exact .ok hs
    · exact .ite (.ok (.placeLater hs)) (.ok hs)

theorem State.Form.takeBytes {w : Who} {bs : List Byte} (hs : s.Form κ) : (takeBytes w bs s).Form κ := .takeFirst hs

theorem NextForm.execMalformedPacket {w : Who} {bytes : List Byte} (hs : s.Form κ) : NextForm κ (execMalformedPacket w bytes s) :=
  .ite (.ok hs) (.ok (.ite (.offer (.count (.takeBytes hs))) (.count (.takeBytes hs))))

theorem NextForm.execUnassignedDestPacket {w : Who} {via : Nat} {bytes : List Byte} (hs : s.Form κ) :
    NextForm κ (execUnassignedDestPacket w via bytes s) :=
  .ite (.ok hs) (.ite (.ok (.count (.takeBytes hs))) (.ite (.ok (.refuse (.takeBytes hs))) (.ok (.count (.takeBytes hs)))))

theorem NextForm.execPreReadyRequest {w : Who} {bytes : List Byte} (hs : s.Form κ) : NextForm κ (execPreReadyRequest w bytes s) :=
  .ite (.ok hs) (.ok (.count (.takeBytes hs)))

theorem State.Form.wakeFires {code : Nat} (hs : s.Form κ) : (wakeFires code s).Form κ := .ite ⟨hs.on⟩ hs

theorem NextForm.execI2cRequestWrite {addr : Fin 128} {bytes : List Byte} {stop : Bool} (hs : s.Form κ) :
    NextForm κ (execI2cRequestWrite addr bytes stop s) := by
  unfold Machine.execI2cRequestWrite
  refine .ite (.ok hs) ?_
  extract_lets t
  split
  extract_lets u
  have hu : u.Form κ := .withI2c (.wakeFires hs)
  clear_value u
  split
  · exact .ok hu
  · exact .ok (.localPacket hu)

theorem NextForm.execI2cReplyRead {addr : Fin 128} {n : Nat} (hs : s.Form κ) : NextForm κ (execI2cReplyRead addr n s) :=
  .ite (.ok hs) (.ok (.withI2cOut (.wakeFires hs)))

theorem NextForm.execI2cCreditRead {addr : Fin 128} (hs : s.Form κ) : NextForm κ (execI2cCreditRead addr s) :=
  .ite (.ok hs) (.ok (.withOut (.wakeFires hs)))

theorem NextForm.execCommandTimeout {w : Who} {tag : Nat} (hs : s.Form κ) : NextForm κ (execCommandTimeout w tag s) := by
  unfold Machine.execCommandTimeout
  split
  · exact .ok (.endOp hs)
  · exact .ok hs

theorem cmdNop_keepsForm : cmdNop.KeepsForm := fun _ _ _ hs => .ok hs

theorem cmdIdentify_keepsForm : cmdIdentify.KeepsForm := fun _ _ _ hs => .ok hs

theorem State.Form.setClaim {r : Nat} {w : Who} (hs : s.Form κ) : (setClaim r w s).Form κ := ⟨hs.on⟩

theorem cmdClaim_keepsForm : cmdClaim.KeepsForm := fun _ _ _ hs => by
  dsimp only [cmdClaim]
  split
  · exact .ok (.setClaim hs)
  · exact .ite (.ok hs) (.ite (.ok (.answer (.setClaim (.endSessions hs)))) .error)

theorem cmdRelease_keepsForm : cmdRelease.KeepsForm := fun _ _ _ hs => by
  dsimp only [cmdRelease]
  split
  · exact .ite (.ok ⟨hs.on⟩) .error
  · exact .error

theorem cmdClaimQuery_keepsForm : cmdClaimQuery.KeepsForm := fun _ _ _ hs => .ok hs

theorem cmdStageOpen_keepsForm : cmdStageOpen.KeepsForm := fun _ _ _ hs => by
  dsimp only [cmdStageOpen]
  split
  · exact .error
  · exact .ok (.openSession hs)

theorem BodyForm.ownSession {b : Nat} {q : Request} {f : Rehearsal → Except Ref (State × Answer)} (hf : ∀ r, BodyForm κ (f r)) :
    BodyForm κ (ownSession b q s f) := by
  unfold Machine.ownSession
  split
  · exact .error
  · exact .ite .error (.ite .error (hf _))

theorem cmdStageSet_keepsForm : cmdStageSet.KeepsForm := fun _ _ _ hs => .ownSession fun _ => .ok (.setSession hs)

theorem cmdStageAbandon_keepsForm : cmdStageAbandon.KeepsForm := fun _ _ _ hs => by
  refine .ite ?_ (.ownSession fun _ => .ok (.dropSession hs))
  split
  · exact .error
  · exact .ite (.ok (.answerCue (.dropSession hs))) (.ok (.endSession hs))

theorem cmdAccessSet_keepsForm : cmdAccessSet.KeepsForm := fun _ _ _ hs => .ok (.setF hs)

theorem NextForm.execUndefinedOpcode {q : Request} {opcode : Nat} (hs : s.Form κ) : NextForm κ (execUndefinedOpcode q opcode s) :=
  .ite (.ok hs) (.ite (.ok (.refuse (.takeArrival hs))) (.ok (.count (.takeArrival hs))))

theorem State.Form.armVectors {f : Pr} {v : Word} (hs : s.Form κ) : (armVectors f v s).Form κ := ⟨hs.on⟩

theorem NextForm.execIntRearm {f : Pr} {v : Word} (hs : s.Form κ) : NextForm κ (execIntRearm f v s) := .ok (.ite (.armVectors hs) hs)

theorem State.Form.msixEvent {f : Pr} {ev : MsixEvent} (hs : s.Form κ) : (msixEvent f ev s).Form κ := by
  unfold Machine.msixEvent
  extract_lets
  split
  · exact .setB hs
  · exact ⟨hs.on⟩
  · exact ⟨hs.on⟩

theorem State.Form.msixTake {f : Pr} {ev : MsixEvent} (hs : s.Form κ) : (msixTake f ev s).Form κ := .withMsix (.msixEvent hs)

theorem NextForm.execMsixUnmask {f : Pr} {ev : MsixEvent} (hs : s.Form κ) : NextForm κ (execMsixUnmask f ev s) :=
  .ok (.ite (.msixTake hs) hs)

/-! ### The operations of `Machine/Fabric` -/

theorem State.Form.setLink {n : Nat} {l : FabLink} (hs : s.Form κ) : (s.setLink n l).Form κ := ⟨hs.on⟩

theorem State.Form.countRoutes (hs : s.Form κ) : (countRoutes s).Form κ := .setF hs

theorem State.Form.dropRoutes {n : Nat} (hs : s.Form κ) : (dropRoutes n s).Form κ :=
  .countRoutes (.withFab (.regs hs (smWf_filter _ _ _)))

theorem State.Form.linkState {n st : Nat} (hs : s.Form κ) : (linkState n st s).Form κ := .ite hs (.offer (.setF hs))

theorem State.Form.linkDown {n st : Nat} (hs : s.Form κ) : (linkDown n st s).Form κ := .linkState (.dropRoutes (.countN (.setLink hs)))

theorem State.Form.linkRefresh {n : Nat} (hs : s.Form κ) : (linkRefresh n s).Form κ :=
  .ite (.ite hs (.linkDown hs)) (.ite hs (.linkDown hs))

theorem State.Form.fabRefresh (hs : s.Form κ) : (fabRefresh s).Form κ := .each (fun _ _ ht => .linkRefresh ht) hs

theorem State.Form.rxBad {n : Nat} (hs : s.Form κ) : (rxBad n s).Form κ := .ite (.count (.setLink hs)) hs

theorem State.Form.rxStray {n : Nat} {last : Bool} (hs : s.Form κ) : (rxStray n last s).Form κ := .setLink (.ite hs (.count hs))

theorem State.Form.inboxTake {n : Nat} {p : List Byte → Bool} (hs : s.Form κ) : (inboxTake n p s).2.Form κ := by
  unfold Machine.inboxTake
  split
  · exact hs
  · split
    · exact .linkRelease ⟨hs.on⟩
    · exact hs

theorem State.Form.rxPacket {n : Nat} {bs : List Byte} (hs : s.Form κ) : (rxPacket n bs s).Form κ :=
  .ite (.count (.count hs)) (.ite (.routePacket (.count hs)) (.arrive (.count hs)))

theorem State.Form.rxUnit {n : Nat} {u : List Byte} (hs : s.Form κ) : (rxUnit n u s).Form κ := by
  unfold Machine.rxUnit
  extract_lets
  split
  · exact .ite (.rxBad hs) (.setLink hs)
  · exact .setLink (.rxBad hs)
  · split
    · exact .ite (.rxBad hs) (.setLink hs)
    · exact .rxStray hs
  · split
    · exact .rxPacket (.setLink hs)
    · exact .rxStray hs

theorem State.Form.unitIn {n m : Nat} {good : Bool} {u : List Byte} (hs : s.Form κ) : (unitIn n m good u s).Form κ := .ite hs (.setLink hs)

theorem State.Form.unitTaken {n : Nat} (hs : s.Form κ) : (unitTaken n s).Form κ := .setLink hs

theorem NextForm.execFabricDataUnitReceived {n : Ch} {msg : List Byte} (hs : s.Form κ) : NextForm κ (execFabricDataUnitReceived n msg s) :=
  by
  refine .ite (.ok ?_) ?_
  · split
    · exact .rxUnit hs
    · exact hs
  · split
    · exact .ok hs
    · exact .ite (.ok hs) (.ok (.ite (.unitTaken hs) (.ite (.rxUnit (.unitTaken hs)) (.rxBad (.unitTaken hs)))))

theorem State.Form.linkUp {n dom : Nat} (hs : s.Form κ) : (linkUp n dom s).Form κ := .linkState (.setLink hs)

theorem State.Form.controlUnit {n : Nat} {u : List Byte} (hs : s.Form κ) : (controlUnit n u s).Form κ :=
  .ite hs (.setLink (.ite (.ite (.linkUp (.setF (.setF (.setF hs)))) (.setF (.setF (.setF hs)))) (.ite (.setLink (.setF (.setF
    (.setF hs)))) (.linkDown (.setF (.setF (.setF hs)))))))

theorem NextForm.execFabricControlUnitReceived {n : Ch} (hs : s.Form κ) : NextForm κ (execFabricControlUnitReceived n s) := by
  unfold Machine.execFabricControlUnitReceived
  split
  · exact .ok hs
  · exact .ite (.ok hs) (.ok (.ite (.controlUnit (.unitTaken hs)) (.unitTaken hs)))

theorem NextForm.execFabricLinkDown {n : Ch} (hs : s.Form κ) : NextForm κ (execFabricLinkDown n s) := .ite (.ok (.linkDown hs)) (.ok hs)

theorem State.Form.stageUnit {n : Nat} (hs : s.Form κ) : (stageUnit n s).Form κ := by
  unfold Machine.stageUnit
  extract_lets
  split
  · exact hs
  · exact .ite hs (.ite (.count (.setLink ⟨hs.on⟩)) (.setLink ⟨hs.on⟩))

theorem NextForm.execFabricUnitSent {n : Ch} (hs : s.Form κ) : NextForm κ (execFabricUnitSent n s) := .ok (.stageUnit hs)

theorem State.Form.hfbUnit {n m : Nat} (hs : s.Form κ) : (hfbUnit n m s).2.Form κ := by
  unfold Machine.hfbUnit
  split
  · exact hs
  · split
    · exact hs
    · extract_lets
      split
      · exact .ite (.stageUnit hs) hs
      · exact .setLink (.ite (.stageUnit hs) hs)

theorem NextForm.execAdvertisementPeriod (hs : s.Form κ) : NextForm κ (execAdvertisementPeriod s) := .ite (.ok hs) (.ok (.sendAll ⟨hs.on⟩))

theorem State.Form.learnRoute {x n hops : Nat} {num : BitVec 32} (hs : s.Form κ) : (learnRoute x n hops num s).Form κ :=
  .wakeNotice (.countRoutes (.withFab (.wr hs)))

theorem State.Form.advert {n : Nat} {ps : List Byte} (hs : s.Form κ) : (advert n ps s).Form κ :=
  .ite hs (.ite (.ite hs (.offer (.setB hs))) (.ite hs (.ite (.sendAll (.learnRoute hs)) hs)))

theorem NextForm.execAdvertisementReceived {n : Ch} (hs : s.Form κ) : NextForm κ (execAdvertisementReceived n s) := by
  unfold Machine.execAdvertisementReceived
  split
  · next e => exact .ok (.advert (.of_eq (.inboxTake hs) e))
  · next e => exact .ok (.of_eq (.inboxTake hs) e)

theorem NextForm.execRouteExpiry {x : Nat} (hs : s.Form κ) : NextForm κ (execRouteExpiry x s) := by
  unfold Machine.execRouteExpiry
  split
  · exact .ite (.ok (.countRoutes (.withFab (.unreg hs)))) (.ok hs)
  · exact .ok hs

theorem NextForm.execAddressOfferSent {n : Ch} {leaf : Fin 1024} (hs : s.Form κ) : NextForm κ (execAddressOfferSent n leaf s) :=
  .ite (.ok hs) (.ok (.linkSendTo hs))

theorem State.Form.domainChanged {oldDom : Nat} (hs : s.Form κ) : (domainChanged oldDom s).Form κ :=
  .ite hs (.each (fun _ _ ht => .ite (.linkDown ht) ht) hs)

theorem State.Form.takeOffer {n : Nat} {ps : List Byte} (hs : s.Form κ) : (takeOffer n ps s).Form κ :=
  .ite hs (.domainChanged (.offer (.setB (.setF (.setF hs)))))

theorem NextForm.execAddressOfferReceived {n : Ch} (hs : s.Form κ) : NextForm κ (execAddressOfferReceived n s) := by
  unfold Machine.execAddressOfferReceived
  split
  · next e => exact .ok (.takeOffer (.of_eq (.inboxTake hs) e))
  · next e => exact .ok (.of_eq (.inboxTake hs) e)

theorem State.Form.placeLocal {w : Who} {pkt : List Byte} (hs : s.Form κ) : (placeLocal w pkt s).Form κ := by
  unfold Machine.placeLocal
  split
  · exact .toMbx hs
  · exact .toMbx hs
  · exact .toI2c hs
  · exact hs

theorem State.Form.fwdReply {n : Nat} {bs : List Byte} (hs : s.Form κ) : (fwdReply n bs s).Form κ := by
  unfold Machine.fwdReply
  extract_lets
  split
  · exact .count hs
  · exact .placeLocal ⟨hs.on⟩

theorem NextForm.execForwardedReplyReceived {n : Ch} (hs : s.Form κ) : NextForm κ (execForwardedReplyReceived n s) := by
  unfold Machine.execForwardedReplyReceived
  split
  · next e => exact .ok (.fwdReply (.of_eq (.inboxTake hs) e))
  · next e => exact .ok (.of_eq (.inboxTake hs) e)

theorem State.Form.fwdTimeout {f : Fwd} (hs : s.Form κ) : (fwdTimeout f s).Form κ := .answer (.refuseRecord (.offer ⟨hs.on⟩))

theorem NextForm.execForwardedRequestTimeout {tag : Nat} (hs : s.Form κ) : NextForm κ (execForwardedRequestTimeout tag s) := by
  unfold Machine.execForwardedRequestTimeout
  split
  · exact .ok (.fwdTimeout hs)
  · exact .ok hs

theorem State.Form.fabWritten {oldAddr oldDom : Nat} (hs : s.Form κ) : (fabWritten oldAddr oldDom s).Form κ :=
  .fabRefresh (.domainChanged (.ite hs (.offer (.each (fun _ _ ht => .fwdTimeout ht) hs))))

theorem cmdFabReport_keepsForm : cmdFabReport.KeepsForm := fun _ _ _ hs => .ok hs

theorem cmdFabSet_keepsForm : cmdFabSet.KeepsForm := fun _ _ _ hs =>
  .via (fun ht => .via (fun hu => .ok (.fabWritten (.ite (.each (fun _ _ hv2 => .wr hv2) hu) hu))) (.ite (.wr ht) ht)) (.ite (.wr hs) hs)

theorem cmdFabAclSet_keepsForm : cmdFabAclSet.KeepsForm := fun _ _ _ hs => .ok (.each (fun _ _ ht => .wr (.wr ht)) hs)

theorem cmdFabRouteRead_keepsForm : cmdFabRouteRead.KeepsForm := fun _ _ _ hs => .ok hs

/-! ### The operations of `Machine/Lanes` -/

theorem State.Form.statusReset {p : Nat → Bool} (hs : s.Form κ) : (statusReset p s).Form κ :=
  hs.regs fun h => List.foldlRecOn (motive := fun m => smWf resetWord m = true) s.regs _ h fun m hm e _ => by
    split
    · exact smWf_smSet _ _ _ _ hm
    · exact hm

theorem State.Form.dropRegs {p : Nat → Bool} (hs : s.Form κ) : (dropRegs p s).Form κ := hs.regs (smWf_filter _ _ _)

theorem State.Form.setLane {l : Nat} {x : LaneSt} (hs : s.Form κ) : (s.setLane l x).Form κ := ⟨hs.on⟩

theorem State.Form.laneLoopClear {l : Nat} (hs : s.Form κ) : (laneLoopClear l s).Form κ := .ite hs (.offer (.setF hs))

theorem State.Form.laneTo {l st : Nat} (hs : s.Form κ) : (laneTo l st s).Form κ := .ite hs (.offer (.setF (.ite (.laneLoopClear hs) hs)))

theorem State.Form.portLocks {h : Nat} {am pcs cal : Bool} (hs : s.Form κ) : (portLocks h am pcs cal s).Form κ :=
  .via (fun ht => .ite ht (.offer (.setF (.setB (.setB (.setB ht)))))) (.ite hs (.setLane hs))

theorem State.Form.portLost {l : Nat} (hs : s.Form κ) : (portLost l s).Form κ := by
  unfold Machine.portLost
  split
  · exact .ite hs (.portLocks hs)
  · exact hs

theorem State.Form.laneTrain {l : Nat} (hs : s.Form κ) : (laneTrain l s).Form κ := .portLost (.laneTo (.setB (.setB (.setLane hs))))

theorem NextForm.execLaneTrainingComplete {l : Fin 64} {mark : Bool} {own partner : List Nat} {snr ber : Nat} (hs : s.Form κ) :
    NextForm κ (execLaneTrainingComplete l mark own partner snr ber s) :=
  .ite (.ok hs) (.via (fun ht => .ok (.targetDone (.targetDone (.offer (.laneTo (.ite (.laneTo (.laneTo ht)) (.laneTo ht))))))) (.setB
    (.setB (.setB (.setF (.setLane hs))))))

theorem NextForm.execLaneTrainingTimeout {l : Fin 64} (hs : s.Form κ) : NextForm κ (execLaneTrainingTimeout l s) :=
  .ite (.ok hs) (.ok (.laneTo (.ite (.offer (.bumpF (.setLane hs))) (.bumpF (.setLane hs)))))

theorem NextForm.execLaneLos {l : Fin 64} (hs : s.Form κ) : NextForm κ (execLaneLos l s) :=
  .ite (.ok (.portLost (.offer (.setB (.setB hs))))) (.ok hs)

theorem NextForm.execLaneSignalReturn {l : Fin 64} (hs : s.Form κ) : NextForm κ (execLaneSignalReturn l s) :=
  .ite (.ok (.offer (.setB (.setB hs)))) (.ite (.ok (.setB hs)) (.ok hs))

theorem NextForm.execLaneHoldExpiry {l : Fin 64} (hs : s.Form κ) : NextForm κ (execLaneHoldExpiry l s) :=
  .ite (.ok (.laneTrain hs)) (.ok hs)

theorem NextForm.execLaneLockLost {l : Fin 64} (hs : s.Form κ) : NextForm κ (execLaneLockLost l s) :=
  .ite (.ok hs) (.ite (.ok (.setLane hs)) (.ok (.setLane hs)))

theorem NextForm.execLaneTestComplete {l : Fin 64} {pass : Bool} (hs : s.Form κ) : NextForm κ (execLaneTestComplete l pass s) :=
  .ite (.ok hs) (.ite (.ok (.laneTrain (.offer (.bumpF (.setLane hs))))) (.ok (.portLost (.laneTo (.offer (.setLane hs))))))

theorem NextForm.execPortLockChanged {h : Fin 64} {am pcs : Bool} {skew : Nat} (hs : s.Form κ) :
    NextForm κ (execPortLockChanged h am pcs skew s) :=
  .ite (.ok hs) (.ok (.portLocks (.setF hs)))

theorem NextForm.execFaultOrderedSetsFromHost {h : Fin 64} {remote began : Bool} (hs : s.Form κ) :
    NextForm κ (execFaultOrderedSetsFromHost h remote began s) :=
  .ite (.ok hs) (.ok (.offer (.setF (.setB hs))))

theorem cmdHostLaneReport_keepsForm : cmdHostLaneReport.KeepsForm := fun _ _ _ hs => .ok hs

/-! ### The operations of `Machine/Clients` -/

theorem cmdHostPortReport_keepsForm : cmdHostPortReport.KeepsForm := fun _ _ _ hs => .ok hs

theorem cmdHostRetrain_keepsForm : cmdHostRetrain.KeepsForm := fun _ _ _ hs =>
  .ite .error (.ite .error (.ok (.each (fun _ _ ht => .laneTrain (.setLane ht)) hs)))

theorem State.Form.hgcDeliver {n : Nat} {data : List Byte} (hs : s.Form κ) : (hgcDeliver n data s).Form κ :=
  .ite (.count hs) (.setB (.setB (.setHgc hs)))

theorem State.Form.hgcTake {n j : Nat} (hs : s.Form κ) : (hgcTake n j s).Form κ := by
  induction j generalizing s with
  | zero => exact hs
  | succ j ih =>
    unfold Machine.hgcTake
    exact .ite hs (.ite (ih (.setHgc hs)) (.ite (ih (.setHgc (.ite hs (.count hs)))) (.ite hs (.ite (.hgcDeliver (.setHgc hs)) (.count
      (.setHgc hs))))))

theorem State.Form.hgcIn {n : Nat} {u : List Byte} (hs : s.Form κ) : (hgcIn n u s).Form κ := .ite hs (.setHgc hs)

theorem NextForm.execHgcPacketReceived {n : Ch} (hs : s.Form κ) : NextForm κ (execHgcPacketReceived n s) := .ok (.ite hs (.hgcTake hs))

/-! ### The operations of `Machine/LineSet` -/

theorem State.Form.intoForce {b : Nat} {bank : SMap Word} (hs : s.Form κ) : (intoForce b bank s).Form κ :=
  List.foldlRecOn (motive := State.Form κ) _ _ hs fun _ ht _ _ => .wr ht

theorem State.Form.cueRefused {b : Nat} {r : Rehearsal} {ref : Ref} (hs : s.Form κ) : (cueRefused b r ref s).Form κ :=
  .answerCue (.ite (.dropSession hs) (.cancelHalf (.setSession hs)))

/-! ### The operations of `Machine/Hbm` -/

theorem State.Form.memRefresh (hs : s.Form κ) : (memRefresh s).Form κ := by
  unfold Machine.memRefresh
  extract_lets
  split
  · exact .setF (.setB (.setF (.setF hs)))
  · exact .setF (.setB (.setF (.setF hs)))

theorem State.Form.putCw {j : Nat} {c : BitVec 256} (hs : s.Form κ) : (putCw j c s).Form κ := hs.mem (smWf_smSet _ _ _ _)

theorem State.Form.storeCw {k : Nat} {c : BitVec 256} (hs : s.Form κ) : (storeCw k c s).Form κ := .ite (.setB (.putCw hs)) (.putCw hs)

theorem State.Form.writeCw {k : Nat} {data : List Byte} (hs : s.Form κ) : (writeCw k data s).Form κ := .ite hs (.storeCw hs)

theorem State.Form.logErr {k die : Nat} {unc lasting : Bool} (hs : s.Form κ) : (logErr k die unc lasting s).Form κ :=
  .memTo (.ite (.count hs) (.count hs))

theorem State.Form.readCw {j : Nat} {err : BitVec 256} (hs : s.Form κ) : (readCw j err s).2.Form κ := by
  unfold Machine.readCw
  split
  · exact hs
  · dsimp only
    split
    · exact hs
    · exact .logErr hs
    · exact .logErr hs

theorem State.Form.hbmWriteFrom {fuel addr : Nat} {bs : List Byte} (hs : s.Form κ) : (hbmWriteFrom fuel addr bs s).Form κ := by
  induction fuel generalizing addr bs s with
  | zero => exact hs
  | succ n ih =>
    unfold Machine.hbmWriteFrom
    exact .ite hs (ih (.writeCw hs))

theorem State.Form.hbmWrite {addr : Nat} {bs : List Byte} (hs : s.Form κ) : (hbmWrite addr bs s).Form κ := .hbmWriteFrom hs

theorem State.Form.hbmReadFrom {errs : List (Nat × BitVec 256)} {fuel addr n : Nat} (hs : s.Form κ) :
    (hbmReadFrom errs fuel addr n s).2.Form κ := by
  induction fuel generalizing addr n s with
  | zero => exact hs
  | succ m ih =>
    unfold Machine.hbmReadFrom
    split
    · exact hs
    · exact ih (.readCw hs)

theorem State.Form.hbmRead {errs : List (Nat × BitVec 256)} {addr n : Nat} (hs : s.Form κ) : (hbmRead errs addr n s).2.Form κ :=
  .hbmReadFrom hs

theorem State.Form.sramWrite {st i : Nat} (hs : s.Form κ) : (sramWrite st i s).Form κ := .ite (.setB (.memTo hs)) (.ite hs (.memTo hs))

theorem State.Form.sramUnc {st i : Nat} (hs : s.Form κ) : (sramUnc st i s).Form κ := .offer (.count hs)

theorem State.Form.setFlips {st i n : Nat} (hs : s.Form κ) : (setFlips st i n s).Form κ := .memTo hs

theorem State.Form.sramRead {st i : Nat} (hs : s.Form κ) : (sramRead st i s).Form κ := .ite (.count hs) hs

/-! ### The operations of `Machine/Callboard` -/

theorem State.Form.memIrq (hs : s.Form κ) : (memIrq s).Form κ := .setB (.setB hs)

theorem NextForm.execCallboardRecordWritten (hs : s.Form κ) : NextForm κ (execCallboardRecordWritten s) := by
  unfold Machine.execCallboardRecordWritten
  split
  · exact .ok hs
  · next r rest e =>
    have hw : rest.length ≤ s.cb.input.length := by rw [e]; exact Nat.le_succ _
    refine .ok (.via (fun ht => .ite (.memIrq ht) ht) (.via (fun ht => .ite (.setB ht) ht) (.setF (.count (.sramWrite (.cb hs ?_))))))
    exact fun h => hw.trans h

theorem NextForm.execCallboardArchiveWrite (hs : s.Form κ) : NextForm κ (execCallboardArchiveWrite s) := by
  unfold Machine.execCallboardArchiveWrite
  split
  · exact .ok hs
  · exact .ite (.ok (.setB (.withCb (.hbmWrite hs)))) (.ok hs)

theorem State.Form.readArchive {r : CbRec} (hs : s.Form κ) : (readArchive r s).2.Form κ := by
  unfold Machine.readArchive
  split
  next e => exact .of_eq (.hbmRead hs) e

theorem cmdCbRead_keepsForm : cmdCbRead.KeepsForm := fun _ _ _ hs =>
  .ok (.each (fun _ _ ht => .ite (.sramRead ht) (.readArchive ht)) hs)

theorem State.Form.cntUnwrap {sel : Nat} (hs : s.Form κ) : (cntUnwrap sel s).Form κ := ⟨hs.on⟩

theorem State.Form.portCounted {k n : Nat} (hs : s.Form κ) : (portCounted k n s).Form κ := by
  unfold Machine.portCounted
  split
  · exact hs
  · exact .ite (.setF (.countN hs)) (.countN hs)

theorem State.Form.cntLoRead {f : Pr} {off : Nat} (hs : s.Form κ) : (cntLoRead f off s).Form κ := by
  unfold Machine.cntLoRead
  split
  · exact .put hs
  · exact .put (.ite ⟨hs.on⟩ ⟨hs.on⟩)

theorem NextForm.execCntLoRead {f : Pr} {off : Nat} (hs : s.Form κ) : NextForm κ (execCntLoRead f off s) :=
  .ok (.ite (.cntLoRead hs) (.put hs))

theorem NextForm.execSerialLoRead {who : Fin 3} (hs : s.Form κ) : NextForm κ (execSerialLoRead who s) :=
  .ite (.ok (.put hs)) (.ok (.put (.setRl hs)))

theorem cmdCntRead_keepsForm : cmdCntRead.KeepsForm := fun _ _ _ hs => .ok (.ite (.each (fun _ _ ht => .cntUnwrap ht) hs) hs)

/-! ### The operations of `Machine/Cipher` -/

theorem State.Form.draw (hs : s.Form κ) : (s.draw).2.Form κ := ⟨hs.on⟩

theorem State.Form.setKey {i : Nat} {k : Option KeyBytes} (hs : s.Form κ) : (setKey i k s).Form κ := ⟨hs.on⟩

theorem State.Form.setCph {c : CphSt} (hs : s.Form κ) : (s.setCph c).Form κ := ⟨hs.on⟩

theorem State.Form.freeSet {x : Nat} (hs : s.Form κ) : (freeSet x s).Form κ := .ite hs (.each (fun _ _ ht => .cntClear ht) (.setCph hs))

theorem State.Form.dropAct {i : Nat} (hs : s.Form κ) : (dropAct i s).Form κ := by
  unfold Machine.dropAct
  split
  · exact hs
  · extract_lets
    split
    · exact .endOp (.setCph hs)
    · exact .setCph hs

theorem State.Form.wipe {i : Nat} (hs : s.Form κ) : (wipe i s).Form κ := .freeSet (.setKey (.unreg (.unreg (.setCph hs))))

theorem State.Form.zeroise {i : Nat} (hs : s.Form κ) : (zeroise i s).Form κ := .ite (.offer (.wipe (.dropAct hs))) (.wipe (.dropAct hs))

theorem State.Form.zeroiseAll (hs : s.Form κ) : (zeroiseAll s).Form κ := .setB (.setCph (.each (fun _ _ ht => .zeroise ht) hs))

theorem State.Form.cphRefresh (hs : s.Form κ) : (cphRefresh s).Form κ :=
  .ite hs (.via (fun ht => .ite (.offer ht) ht) (.setF (.setF (.setB (.setF (.setF (.setF hs)))))))

theorem State.Form.startCores (hs : s.Form κ) : (startCores s).Form κ := .cphRefresh (.setB (.setCph (.each (fun _ _ ht => .setF ht) hs)))

theorem State.Form.testCore {c : Nat} (hs : s.Form κ) : (testCore c s).Form κ := .ite hs (.cphRefresh (.setF (.setCph hs)))

theorem State.Form.retireCore {c : Nat} {active : Bool} (hs : s.Form κ) : (retireCore c active s).Form κ := by
  refine .cphRefresh (.offer ?_)
  split
  · exact .ite (.setF (.count (.setF ⟨hs.on⟩))) (.count (.setF ⟨hs.on⟩))
  · exact .count (.setF ⟨hs.on⟩)

theorem NextForm.execCoreTestComplete {c : Fin 144} {pass : Bool} (hs : s.Form κ) : NextForm κ (execCoreTestComplete c pass s) := by
  unfold Machine.execCoreTestComplete
  split
  · exact .ok hs
  · exact .ite (.ok (.cphRefresh (.offer (.count (.setF (.setCph (.setCph hs))))))) (.ok (.retireCore (.setCph hs)))

theorem NextForm.execIdleUnderstudyTest {faulty : List Nat} (hs : s.Form κ) : NextForm κ (execIdleUnderstudyTest faulty s) :=
  .ite (.ok hs) (.ok (.each (fun _ _ ht => .testCore ht) hs))

theorem State.Form.jobRounds {j : Nat} {l : List (List Nat)} (hs : s.Form κ) : (jobRounds j l s).2.Form κ := by
  induction l generalizing j s with
  | nil => exact hs
  | cons cs r ih =>
    have ht : (Sys2Proof.each cs Machine.testCore s).Form κ := .each (fun _ _ h => .testCore h) hs
    unfold Machine.jobRounds
    extract_lets
    split
    · exact ht
    · split
      · exact ht
      · exact ih (.count ht)

theorem State.Form.jobFaults {l : List (Nat × List (List Nat))} (hs : s.Form κ) : (jobFaults l s).2.Form κ := by
  induction l generalizing s with
  | nil => exact hs
  | cons e r ih =>
    unfold Machine.jobFaults
    exact ih (.jobRounds hs)

theorem State.Form.dropJob {n x : Nat} (hs : s.Form κ) : (dropJob n x s).Form κ := .offer (.count hs)

theorem State.Form.meetCtx {i : Nat} (hs : s.Form κ) : (meetCtx i s).Form κ := .ite (.setFlips (.zeroise (.sramUnc hs))) (.sramRead hs)

theorem State.Form.useCtx {i n mf : Nat} {k : KeyBytes} (hs : s.Form κ) : (useCtx i n mf k s).Form κ :=
  .setKey (.wr (.ite hs (.setF (.setB hs))))

theorem State.Form.blockTx {n x fn : Nat} (hs : s.Form κ) : (blockTx n x fn s).Form κ :=
  .via (fun ht => .ite (.offer (.setCph ht)) ht) (.ite (.count hs) hs)

theorem State.Form.setTxDrop {x : Nat} {on : Bool} (hs : s.Form κ) : (setTxDrop x on s).Form κ := .setCph hs

theorem State.Form.txSession {n fn : Nat} {dropped : List Nat} {e : Nat × Nat} {a : List Byte × State} (ha : a.2.Form κ) :
    (txSession n fn dropped e a).2.Form κ := by
  obtain ⟨pay, s⟩ := a
  obtain ⟨x, c⟩ := e
  have ht : State.Form κ (if fn % 256 = 0 then Machine.setTxDrop x false s else s) := .ite (.setTxDrop ha) ha
  unfold Machine.txSession
  dsimp only
  generalize (if fn % 256 = 0 then Machine.setTxDrop x false s else s) = t at ht ⊢
  split
  · exact .blockTx ht
  · split
    · exact .blockTx ht
    · split
      · exact .blockTx ht
      · split
        · exact .useCtx (.dropJob (.setTxDrop ht))
        · exact .ite (.withOh (.useCtx ht)) (.useCtx ht)

theorem State.Form.retireTx {n mf : Nat} (hs : s.Form κ) : (retireTx n mf s).Form κ := .each (fun _ _ ht => .wipe ht) hs

theorem State.Form.txCipher {n fn : Nat} {faults : List (Nat × List (List Nat))} {pay : List Byte} (hs : s.Form κ) :
    (txCipher n fn faults pay s).2.Form κ :=
  .via (fun ht => .ite (.retireTx ht) ht)
    (.foldl (fun _ _ ha => .txSession ha) (.setCph (.each (fun _ _ ht => .meetCtx ht) (.jobFaults hs))))

theorem State.Form.setAccs {n : Nat} {l : List MfAcc} (hs : s.Form κ) : (setAccs n l s).Form κ := .setCph hs

theorem State.Form.noteRx {n fn verdict : Nat} {short : List Nat} {tags : List (Nat × List Byte)} (hs : s.Form κ) :
    (noteRx n fn verdict short tags s).Form κ := by
  unfold Machine.noteRx
  extract_lets
  split
  · exact .setAccs (.setCph hs)
  · exact .ite (.setAccs hs) (.setAccs (.setCph hs))

theorem State.Form.closeRx {n : Nat} (hs : s.Form κ) : (closeRx n s).Form κ := by
  unfold Machine.closeRx
  split
  · exact hs
  · exact .setAccs hs

theorem State.Form.pendHash {x fn : Nat} {ct : List Byte} (hs : s.Form κ) : (pendHash x fn ct s).Form κ := by
  unfold Machine.pendHash
  split
  · exact hs
  · split
    · exact hs
    · exact .setKey hs

theorem State.Form.rxSession {n fn : Nat} {dropped : List Nat} {e : Nat × Nat} {a : List Byte × State} (ha : a.2.Form κ) :
    (rxSession n fn dropped e a).2.Form κ := by
  obtain ⟨pay, s⟩ := a
  unfold Machine.rxSession
  dsimp only
  split
  · exact ha
  · split
    · exact ha
    · split
      · exact .useCtx (.dropJob ha)
      · exact .pendHash (.useCtx ha)

theorem State.Form.rxCipher {n fn verdict : Nat} {filled : List Nat} {tags : List (Nat × List Byte)} {pay : List Byte} (hs : s.Form κ) :
    (rxCipher n fn verdict filled tags pay s).2.Form κ := by
  unfold Machine.rxCipher
  extract_lets all xs t mine gone drop _ u v
  have hv : v.Form κ := .noteRx (.setCph (.ite hs (.each (fun _ _ h => .meetCtx h) hs)))
  clear_value v
  split
  next hr =>
  refine .via (fun h => .ite (.closeRx h) h) (.of_eq ?_ hr)
  split
  · exact hv
  · exact .foldl (fun _ _ ha => .rxSession ha) hv

theorem State.Form.authCount {x n : Nat} {pass fail : Bool} (hs : s.Form κ) : (authCount x n pass fail s).Form κ :=
  .ite (.ite (.offer (.setCph (.setCph hs))) (.setCph hs)) (.ite (.ite (.offer (.setCph (.setCph hs))) (.setCph hs)) hs)

theorem State.Form.nextMatch {n : Nat} {copy : Option Nat} {e : RxSess} (hs : s.Form κ) : (nextMatch n copy e s).Form κ := by
  unfold Machine.nextMatch
  split
  · exact hs
  · exact .ite hs (.ite (.count hs) (.offer (.setCph (.count hs))))

theorem State.Form.retireRx {x : Nat} (hs : s.Form κ) : (retireRx x s).Form κ := .each (fun _ _ ht => .wipe ht) hs

theorem State.Form.resolved {n : Nat} {a : MfAcc} {e : RxSess} (hs : s.Form κ) : (resolved n a e s).Form κ := .setAccs ⟨hs.on⟩

theorem NextForm.execTagVerdictResolved {x : Nat} (hs : s.Form κ) : NextForm κ (execTagVerdictResolved x s) := by
  unfold Machine.execTagVerdictResolved
  split
  · exact .ok hs
  · exact .ok (.retireRx (.nextMatch (.authCount (.count (.resolved hs)))))

theorem State.Form.cphChannelLost {n : Nat} (hs : s.Form κ) : (cphChannelLost n s).Form κ := .each (fun _ _ ht => .wipe ht) (.setAccs hs)

theorem State.Form.becomeCurrent {i f : Nat} (hs : s.Form κ) : (becomeCurrent i f s).Form κ := by
  unfold Machine.becomeCurrent
  extract_lets x d t act _ c c' u
  have ht : t.Form κ := by
    unfold t
    split
    · exact .ite (.setF hs) (.wipe hs)
    · exact hs
  have hu : u.Form κ := .offer (.setF (.setCph ht))
  clear_value act u
  split
  · exact hu
  · split
    · exact .endOp hu
    · exact hu

theorem NextForm.execKeyBecomesCurrent {i : Fin 16384} (hs : s.Form κ) : NextForm κ (execKeyBecomesCurrent i s) := by
  unfold Machine.execKeyBecomesCurrent
  split
  · exact .ok hs
  · split
    · exact .ok (.becomeCurrent (.draw hs))
    · exact .ite (.ok (.becomeCurrent hs)) (.ok hs)

theorem cmdKeyActivate_keepsForm : cmdKeyActivate.KeepsForm := fun _ _ _ hs => .ite .error (.ok (.setCph (.setF hs)))

theorem NextForm.execKeyActivate {q : Request} (hs : s.Form κ) : NextForm κ (execKeyActivate q s) :=
  have ht := State.Form.serveState cmdKeyActivate_keepsForm hs
  .ite (.serve cmdKeyActivate_keepsForm hs) (.ite (.ok (.becomeCurrent (.draw ht))) (.ok ht))

theorem cmdKeyEstablish_keepsForm : cmdKeyEstablish.KeepsForm := fun _ _ _ hs =>
  .ok (.offer (.ite (.setB (.setCph (.draw (.draw hs)))) (.ite (.setCph (.draw (.draw hs))) (.setF (.withPwr (.setCph (.draw
    (.draw hs))))))))

theorem cmdKeyInstall_keepsForm : cmdKeyInstall.KeepsForm := fun _ _ _ hs => by
  dsimp only [cmdKeyInstall]
  split
  · exact .error
  · exact .ite .error (.ite .error (.ok (.offer (.sramWrite (.setKey (.setF (.setF (.setF (.ite hs (.each (fun _ _ ht => .cntClear ht)
      (.setCph hs)))))))))))

theorem cmdKeyIdentity_keepsForm : cmdKeyIdentity.KeepsForm := fun _ _ _ hs => .ok hs

theorem cmdKeyZeroise_keepsForm : cmdKeyZeroise.KeepsForm := fun _ _ _ hs =>
  .ite (.ok (.offer (.zeroiseAll hs))) (.ok (.offer (.zeroise hs)))

theorem cmdSessionReport_keepsForm : cmdSessionReport.KeepsForm := fun _ _ _ hs => .ok hs

theorem cmdCipherReport_keepsForm : cmdCipherReport.KeepsForm := fun _ _ _ hs => .ok hs

/-! ### The operations of `Machine/Overhead` -/

theorem State.Form.setOh {n : Nat} {o : OhSt} (hs : s.Form κ) : (setOh n o s).Form κ := ⟨hs.on⟩

theorem State.Form.setFilt {n : Nat} {f : OhFilt} (hs : s.Form κ) : (setFilt n f s).Form κ := .setOh hs

theorem State.Form.gather {n : Nat} {f : SecAcc → SecAcc} (hs : s.Form κ) : (gather n f s).Form κ := .setOh hs

theorem State.Form.defectRec {n k c : Nat} {on : Bool} (hs : s.Form κ) : (defectRec n k c on s).Form κ :=
  .via (fun ht => .offer (.ite (.gather ht) ht)) (.ite (.setF hs) hs)

theorem State.Form.setDefect {n k : Nat} {on : Bool} (hs : s.Form κ) : (setDefect n k on s).Form κ := .ite hs (.defectRec (.setF hs))

theorem State.Form.acceptSr {n v : Nat} (hs : s.Form κ) : (acceptSr n v s).Form κ := by
  unfold Machine.acceptSr
  split
  · exact .setB (.wr hs)
  · exact .setB (.wr hs)

theorem State.Form.filtSr {n : Nat} {bs : List Byte} (hs : s.Form κ) : (filtSr n bs s).Form κ :=
  .ite (.acceptSr (.setFilt hs)) (.setFilt hs)

theorem State.Form.filtStat {n fn : Nat} {bs : List Byte} (hs : s.Form κ) : (filtStat n fn bs s).Form κ :=
  .via (fun ht => .setDefect (.ite ht (.gather (.countN ht)))) (.each (fun _ _ ht => .setF ht) (.setFilt hs))

theorem State.Form.filtSsm {n : Nat} {bs : List Byte} (hs : s.Form κ) : (filtSsm n bs s).Form κ :=
  .ite (.each (fun _ _ ht => .lineInput (.setF ht)) (.setFilt hs)) (.setFilt hs)

theorem State.Form.ptDefects {n : Nat} (hs : s.Form κ) : (ptDefects n s).Form κ := by
  unfold Machine.ptDefects
  split
  · exact hs
  · exact .ite (.setDefect (.setDefect hs)) (.ite (.setDefect hs) (.setDefect (.setDefect hs)))

theorem State.Form.notePt {n m : Nat} {good : Bool} {bs : List Byte} (hs : s.Form κ) : (notePt n m good bs s).Form κ := .setFilt hs

theorem State.Form.endPt {n : Nat} (hs : s.Form κ) : (endPt n s).Form κ := by
  unfold Machine.endPt
  extract_lets
  split
  · exact .setFilt hs
  · exact .ite (.ptDefects (.setF (.setFilt hs))) (.setFilt hs)

theorem State.Form.timDefect {n : Nat} (hs : s.Form κ) : (timDefect n s).Form κ := .setDefect hs

theorem State.Form.noteTrace {n m : Nat} {good : Bool} {bs : List Byte} (hs : s.Form κ) : (noteTrace n m good bs s).Form κ := .setFilt hs

theorem State.Form.endTrace {n : Nat} (hs : s.Form κ) : (endTrace n s).Form κ := .ite (.timDefect (.setFilt hs)) (.setFilt hs)

theorem State.Form.noteMap {n m : Nat} {good : Bool} {bs : List Byte} (hs : s.Form κ) : (noteMap n m good bs s).Form κ := .setFilt hs

theorem State.Form.endMap {n : Nat} (hs : s.Form κ) : (endMap n s).Form κ :=
  .ite hs (.each (fun _ _ ht => .defectRec ht) (.each (fun _ _ ht => .defectRec ht) (.setF (.setFilt hs))))

theorem State.Form.filters {n fn verdict : Nat} {bs : List Byte} (hs : s.Form κ) : (filters n fn verdict bs s).Form κ :=
  .via (fun ht => .ite (.endMap (.endTrace (.endPt ht))) ht) (.noteMap (.noteTrace (.notePt (.ite (.filtSsm (.filtStat (.filtSr hs))) hs))))

theorem State.Form.setPtr {n c : Nat} {v : Option (Nat × Bool)} (hs : s.Form κ) : (setPtr n c v s).Form κ := .setOh hs

theorem State.Form.ptrValid {n c : Nat} {valid : Bool} (hs : s.Form κ) : (ptrValid n c valid s).Form κ := .setB (.setOh hs)

theorem State.Form.setDemap {n c : Nat} {m : MapRx} (hs : s.Form κ) : (setDemap n c m s).Form κ := .setOh hs

theorem State.Form.rebase {n c k p : Nat} (hs : s.Form κ) : (rebase n c k p s).Form κ := .setDemap (.ptrValid (.setPtr hs))

theorem State.Form.pointer {n : Nat} {good : Bool} {pay : List Byte} {c : Nat} (hs : s.Form κ) : (pointer n good pay c s).Form κ := by
  unfold Machine.pointer
  split
  · exact hs
  · extract_lets k p st
    clear_value k p st
    refine .ite (.setPtr hs) (.ite (.ptrValid (.setPtr hs)) ?_)
    split
    · exact .rebase hs
    · exact .ite (.ptrValid (.setPtr hs)) (.ite (.offer (.rebase hs)) (.setPtr hs))

theorem State.Form.winAdd {n c a b : Nat} (hs : s.Form κ) : (winAdd n c a b s).Form κ := ⟨hs.on⟩

theorem State.Form.setMapper {n c : Nat} {m : MapTx} (hs : s.Form κ) : (setMapper n c m s).Form κ := .setOh hs

theorem State.Form.mapTake {n c : Nat} {bs : List Blk} (hs : s.Form κ) : (mapTake n c bs s).Form κ :=
  .ite hs (.ite (.setMapper (.winAdd hs)) (.via (fun ht => .ite ht (.setOh (.countN ht))) (.ite (.setMapper (.winAdd hs)) (.countN
    (.setMapper (.winAdd hs))))))

theorem State.Form.mapIn {n : Nat} {e : Nat × List Blk} (hs : s.Form κ) : (mapIn n e s).Form κ := .ite hs (.mapTake hs)

theorem State.Form.blkCount {h : Nat} {bs : List Blk} (hs : s.Form κ) : (blkCount h bs s).Form κ :=
  .portCounted (.portCounted (.portCounted hs))

theorem State.Form.portBlocks {h : Nat} {bs : List Blk} (hs : s.Form κ) : (portBlocks h bs s).Form κ :=
  .ite (.each (fun _ _ ht => .mapIn ht) (.portLocks (.setLane hs))) (.each (fun _ _ ht => .mapIn ht) hs)

theorem State.Form.showPort {h : Nat} {bs : List Blk} (hs : s.Form κ) : (showPort h bs s).Form κ := ⟨hs.on⟩

theorem State.Form.sendPort {h : Nat} {bs : List Blk} (hs : s.Form κ) : (sendPort h bs s).Form κ :=
  .ite hs (.ite (.portBlocks (.blkCount (.portCounted (.showPort hs)))) (.portCounted (.showPort hs)))

theorem State.Form.portOut {n : Nat} (hs : s.Form κ) : (portOut n s).Form κ := .each (fun _ _ ht => .sendPort ht) ⟨hs.on⟩

theorem State.Form.demapClient {n fn : Nat} {lost : Bool} {pay : List Byte} {c : Nat} (hs : s.Form κ) :
    (demapClient n fn lost pay c s).Form κ :=
  .ite hs (.via (fun ht => .ite (.mapTake ht) ht)
    (.winAdd (.withOut (.via (fun ht => .ite ht (.countN ht)) (.setOh (.setDemap hs))))))

theorem State.Form.demapAll {n fn : Nat} {good : Bool} {lost : List Nat} {plain : List Byte} (hs : s.Form κ) :
    (demapAll n fn good lost plain s).Form κ :=
  .portOut (.each (fun _ _ ht => .demapClient ht) (.ite (.each (fun _ _ ht => .pointer ht) ⟨hs.on⟩) ⟨hs.on⟩))

theorem State.Form.checkPattern {n : Nat} {pay : List Byte} (hs : s.Form κ) : (checkPattern n pay s).Form κ :=
  .ite hs (.ite (.setB (.setF ⟨hs.on⟩)) (.offer (.setB (.setF ⟨hs.on⟩))))

theorem State.Form.releasePayload {n fn verdict : Nat} {lost : List Nat} {tags : List (Nat × List Byte)} {pay : List Byte} (hs : s.Form κ) :
    (releasePayload n fn verdict lost tags pay s).Form κ :=
  .withOut (.demapAll (.rxCipher (.checkPattern hs)))

theorem State.Form.releaseFrame {n fn verdict : Nat} {bs : List Byte} (hs : s.Form κ) : (releaseFrame n fn verdict bs s).Form κ :=
  .releasePayload (.filters (.hgcIn (.unitIn hs)))

/-! ### The operations of `Machine/Merge` -/

theorem State.Form.setPair {p : Nat} {m : MrgSt} (hs : s.Form κ) : (setPair p m s).Form κ := ⟨hs.on⟩

theorem State.Form.mrgOcc {p : Nat} (hs : s.Form κ) : (mrgOcc p s).Form κ := .ite (.setF (.setF hs)) (.setF hs)

theorem State.Form.setMem {p m : Nat} {f : MrgMem → MrgMem} (hs : s.Form κ) : (Machine.setMem p m f s).Form κ := .setPair hs

theorem State.Form.setEntry {p : Nat} {e : Ledger} (hs : s.Form κ) : (setEntry p e s).Form κ := .sramWrite (.setPair hs)

theorem State.Form.indicate {p k : Nat} {f : Fld} {on : Bool} (hs : s.Form κ) : (indicate p k f on s).Form κ := .ite hs (.offer (.setB hs))

theorem State.Form.wtrOff {p : Nat} (hs : s.Form κ) : (wtrOff p s).Form κ := .setF (.setB (.setPair hs))

theorem State.Form.wtrRule {p : Nat} (hs : s.Form κ) : (wtrRule p s).Form κ :=
  .ite (.setF (.setB (.setPair hs))) (.ite hs (.ite (.wtrOff hs) (.ite hs (.ite (.wtrOff hs) (.offer (.setF (.setB hs)))))))

theorem State.Form.srSent {p : Nat} (hs : s.Form κ) : (srSent p s).Form κ := .wr hs

theorem State.Form.mrgEval {p : Nat} (hs : s.Form κ) : (mrgEval p s).Form κ :=
  .ite hs (.via (fun ht => .via (fun hu => .via (fun hv2 => .srSent (.ite (.indicate (.indicate hv2)) (.setPair (.indicate
    (.indicate hv2))))) (.ite hu (.offer (.count (.setB hu))))) (.ite (.setPair (.setB (.setF ht))) (.setB (.setF ht)))) (.setF (.setB
    (.setF (.setPair (.wtrRule hs))))))

theorem State.Form.pairTo {p st : Nat} (hs : s.Form κ) : (pairTo p st s).Form κ :=
  .ite hs (.via (fun ht => .ite (.setFilt (.setB ht)) ht) (.ite (.offer (.offer (.setF hs))) (.ite (.offer (.offer (.setF hs))) (.offer
    (.setF hs)))))

theorem State.Form.pairState {p : Nat} (hs : s.Form κ) : (pairState p s).Form κ :=
  .ite hs (.ite (.ite (.pairTo hs) (.ite (.pairTo hs) (.pairTo hs))) (.ite (.pairTo hs) hs))

theorem State.Form.memberTo {p m st : Nat} (hs : s.Form κ) : (memberTo p m st s).Form κ :=
  .ite hs (.mrgEval (.pairState (.offer (.setF hs))))

theorem State.Form.dropCopies {p fn : Nat} (hs : s.Form κ) : (dropCopies p fn s).Form κ := .setPair (.setMem (.setMem hs))

theorem State.Form.readOut {p m : Nat} {e : Ledger} {c : MCopy} (hs : s.Form κ) : (readOut p m e c s).2.1.Form κ := by
  unfold Machine.readOut
  extract_lets t
  have ht : t.Form κ := .ite hs (.sramRead hs)
  clear_value t
  split
  · exact ht
  · extract_lets u
    have hu : u.Form κ := .each (fun _ _ h => .sramUnc h) ht
    clear_value u
    split
    · extract_lets
      split
      · exact .countN hu
      · exact hu
    · exact hu

theorem State.Form.decideNext {p t : Nat} {forced : Bool} (hs : s.Form κ) : (decideNext p t forced s).Form κ := by
  unfold Machine.decideNext
  extract_lets x pr
  split
  · exact hs
  · next fn _ =>
    extract_lets e0 bad s1 sel subst
    have h1 : s1.Form κ := .ite (.sramUnc (.count hs)) (.sramRead hs)
    clear_value s1 subst sel
    split
    next s2 e2 hr =>
    have h2 : s2.Form κ := by
      split at hr
      · cases hr
        exact h1
      · split at hr
        · next m _ c _ =>
          have h : (Machine.readOut p m e0 c s1).2.1.Form κ := .readOut h1
          rw [hr] at h
          exact h
        · cases hr
          exact h1
    extract_lets td e e' u1 u2 u3 u4 u5 u6
    have h3 : u3.Form κ := by
      unfold u3
      split
      · exact .count (.count (.setEntry h2))
      · exact .count (.count (.setEntry h2))
    have h4 : u4.Form κ := .ite (.count h3) h3
    have h5 : u5.Form κ := .ite (.count h4) h4
    have h6 : u6.Form κ := .ite (.setB h5) h5
    exact .mrgEval (.releaseFrame (.mrgOcc (.dropCopies (.ite (.offer (.setPair (.setPair h6))) (.setPair h6)))))

theorem State.Form.declare {p m fn : Nat} (hs : s.Form κ) : (declare p m fn s).Form κ := .ite hs (.setEntry hs)

theorem State.Form.settlePair {p t j : Nat} (hs : s.Form κ) : (settlePair p t j s).Form κ := by
  induction j generalizing s with
  | zero => exact hs
  | succ j ih =>
    unfold Machine.settlePair
    extract_lets x
    split
    · exact hs
    · split
      · exact hs
      · extract_lets t
        have ht : t.Form κ := .ite (.declare hs) (.ite (.declare hs) hs)
        clear_value t
        split
        · exact .ite (ih (.decideNext ht)) ht
        · exact ht

theorem State.Form.settleNow {p t : Nat} (hs : s.Form κ) : (settleNow p t s).Form κ := .settlePair hs

theorem State.Form.outOfRange {p m : Nat} {bLater : Bool} (hs : s.Form κ) : (outOfRange p m bLater s).Form κ :=
  .memberTo (.wr (.setMem (.setB (.setPair hs))))

theorem State.Form.forceNext {p t : Nat} (hs : s.Form κ) : (forceNext p t s).Form κ := by
  unfold Machine.forceNext
  extract_lets
  split
  · exact hs
  · exact .via (fun ht => .ite (.outOfRange (.decideNext (.setPair ht))) (.decideNext (.setPair ht))) (.ite (.offer (.setB (.count
      (.declare (.declare hs))))) (.setB (.count (.declare (.declare hs)))))

theorem State.Form.forceUpTo {p t fn j : Nat} (hs : s.Form κ) : (forceUpTo p t fn j s).Form κ := by
  induction j generalizing s with
  | zero => exact hs
  | succ j ih =>
    unfold Machine.forceUpTo
    split
    · exact .ite (ih (.forceNext hs)) hs
    · exact hs

theorem State.Form.flushPair {p t j : Nat} (hs : s.Form κ) : (flushPair p t j s).Form κ := by
  induction j generalizing s with
  | zero => exact hs
  | succ j ih =>
    unfold Machine.flushPair
    extract_lets x
    split
    · exact hs
    · exact .ite hs (ih (.decideNext (.declare (.declare hs))))

theorem State.Form.measure {p : Nat} {d : Int} (hs : s.Form κ) : (measure p d s).Form κ :=
  .mrgEval (.pairState (.wr (.setB (.setPair (.wr hs)))))

theorem State.Form.joinPair {p m : Nat} (hs : s.Form κ) : (joinPair p m s).Form κ := by
  unfold Machine.joinPair
  extract_lets
  split
  · exact .memberTo hs
  · exact .via (fun ht => .ite (.outOfRange ht) (.memberTo ht)) (.ite (.wr hs) (.measure hs))

theorem State.Form.tooLate {p m fn : Nat} (hs : s.Form κ) : (tooLate p m fn s).Form κ := by
  unfold Machine.tooLate
  extract_lets
  split
  · exact .setEntry (.setMem (.setB (.count hs)))
  · exact .setMem (.setB (.count hs))

theorem State.Form.storeCopy {p m : Nat} {fr : RxFrame} {t : Nat} {e : Ledger} (hs : s.Form κ) : (storeCopy p m fr t e s).Form κ :=
  .mrgOcc (.setMem (.ite (.hbmWrite hs) (.sramWrite hs)))

theorem State.Form.entryFor {p fn t : Nat} (hs : s.Form κ) : (entryFor p fn t s).2.Form κ := by
  unfold Machine.entryFor
  split
  · exact hs
  · split
    · exact hs
    · split
      · exact hs
      · split
        · exact hs
        · dsimp only
          split
          · exact .forceUpTo hs
          · exact hs

theorem State.Form.noteBip {p m : Nat} {fr : RxFrame} (hs : s.Form κ) : (noteBip p m fr s).Form κ := by
  unfold Machine.noteBip
  split
  · exact .setEntry hs
  · exact hs

theorem State.Form.makeRoom {p t : Nat} (hs : s.Form κ) : (makeRoom p t s).Form κ := .ite (.forceNext hs) (.setPair hs)

theorem State.Form.backInRange {p m : Nat} (hs : s.Form κ) : (backInRange p m s).Form κ := .ite (.memberTo hs) hs

theorem State.Form.takeCopy {p m : Nat} {fr : RxFrame} {t : Nat} (hs : s.Form κ) : (takeCopy p m fr t s).Form κ := by
  unfold Machine.takeCopy
  extract_lets s1 lone x s2 s3 st s4 byNum other
  have h4 : s4.Form κ := .via (fun h => .ite h (.joinPair h)) (.setMem (.setPair (.noteBip hs)))
  have hn {u : State} (hu : u.Form κ) : (byNum u).Form κ := by
    unfold byNum
    split
    · exact .measure hu
    · exact hu
  have ho {e : Ledger} {u : State} (hu : u.Form κ) : (other e u).Form κ := .ite (.measure hu) (.ite (hn hu) hu)
  clear_value s4 byNum other
  split
  next e0 s5 he =>
  have h5 : s5.Form κ := .of_eq (.entryFor h4) he
  split
  · exact hn (.tooLate h5)
  · refine .ite (ho (.tooLate h5)) ?_
    extract_lets full s6
    have h6 : s6.Form κ := .ite (.makeRoom h5) h5
    exact .ite (.tooLate h6) (.ite (.settleNow (.setEntry (.count h6))) (.backInRange (.settleNow (ho (.setEntry (.storeCopy h6))))))

theorem State.Form.moveSeq {p t : Nat} (hs : s.Form κ) : (moveSeq p t s).Form κ := by
  unfold Machine.moveSeq
  extract_lets
  split
  · exact hs
  · exact .each (fun _ _ ht => .takeCopy ht) (.ite (.offer (.setPair (.setMem (.setMem (.flushPair (.setPair hs)))))) (.setPair (.setMem
      (.setMem (.flushPair (.setPair hs))))))

theorem State.Form.foreignCopy {p m : Nat} {fr : RxFrame} {t : Nat} (hs : s.Form κ) : (foreignCopy p m fr t s).Form κ :=
  .ite (.moveSeq (.mrgOcc (.setPair (.setMem hs)))) (.ite (.memberTo (.mrgOcc (.setPair (.setMem hs)))) (.mrgOcc (.setPair (.setMem hs))))

theorem State.Form.oldCopy {p m : Nat} {fr : RxFrame} {t : Nat} (hs : s.Form κ) : (oldCopy p m fr t s).Form κ :=
  .ite (.memberTo (.setMem (.tooLate hs))) (.setMem (.tooLate hs))

theorem State.Form.rangeCopy {p m : Nat} {fr : RxFrame} {t nx : Nat} (hs : s.Form κ) : (rangeCopy p m fr t nx s).Form κ :=
  .via (fun ht => .ite (.tooLate ht) ht) (.ite (.setMem hs) (.joinPair (.setMem hs)))

theorem State.Form.routeCopy {p m : Nat} {fr : RxFrame} {t : Nat} (hs : s.Form κ) : (routeCopy p m fr t s).Form κ := by
  unfold Machine.routeCopy
  extract_lets
  split
  · exact .takeCopy hs
  · exact .ite (.takeCopy hs) (.ite (.oldCopy hs) (.ite (.rangeCopy hs) (.foreignCopy hs)))

theorem State.Form.firstCopy {p m : Nat} {fr : RxFrame} {t : Nat} (hs : s.Form κ) : (firstCopy p m fr t s).Form κ :=
  .via (fun ht => .ite (.routeCopy ht) ht) (.each (fun _ _ ht => .routeCopy ht) (.ite (.setPair hs) (.routeCopy (.setPair hs))))

theorem State.Form.mergeCopy {p m : Nat} {fr : RxFrame} {t : Nat} (hs : s.Form κ) : (mergeCopy p m fr t s).Form κ :=
  .ite (.routeCopy hs) (.ite (.setPair hs) (.firstCopy hs))

theorem State.Form.mrgRefresh {p : Nat} (hs : s.Form κ) : (mrgRefresh p s).Form κ :=
  .ite hs (.via (fun ht => .mrgEval (.ite (.setPair ht) (.moveSeq (.setPair ht)))) (.each (fun _ _ ht => .memberTo (.setMem ht)) hs))

theorem State.Form.memberChanged {n : Nat} (hs : s.Form κ) : (memberChanged n s).Form κ := by
  unfold Machine.memberChanged
  split
  · exact .mrgRefresh hs
  · exact hs

theorem State.Form.storeFlag {p : Nat} {lost : Bool} (hs : s.Form κ) : (storeFlag p lost s).Form κ := by
  unfold Machine.storeFlag
  refine .ite hs ?_
  extract_lets t x drop
  have ht : t.Form κ := .offer (.setB hs)
  have hd {m : Nat} {u : State} (hu : u.Form κ) : (drop m u).Form κ := by
    refine .each (fun c v hv => .count (.setMem ?_)) hu
    split
    · exact .setEntry hv
    · exact hv
  exact .mrgEval (.mrgOcc (.ite (hd (hd ht)) ht))

theorem State.Form.storeLost {p : Nat} {lost : Bool} (hs : s.Form κ) : (storeLost p lost s).Form κ := .ite (.storeFlag hs) hs

theorem State.Form.storeNear {p : Nat} (hs : s.Form κ) : (storeNear p s).Form κ := .ite (.storeFlag hs) hs

theorem State.Form.mrgGlobal (hs : s.Form κ) : (mrgGlobal s).Form κ := .setB (.setB hs)

theorem State.Form.mergeStart {p : Nat} (hs : s.Form κ) : (mergeStart p s).Form κ :=
  .storeLost (.mrgEval (.pairTo (.setF (.unreg (.unreg (.unreg (.unreg (.setPair hs))))))))

theorem State.Form.pairStart {p : Nat} (hs : s.Form κ) : (pairStart p s).Form κ :=
  .ite (.mergeStart (.mrgGlobal (.offer (.setOh (.setFilt (.setOh hs)))))) (.mrgGlobal (.offer (.setOh (.setFilt (.setOh hs)))))

theorem State.Form.pairStop {p a b : Nat} (hs : s.Form κ) : (pairStop p a b s).Form κ :=
  .mrgGlobal (.offer (.setFilt (.setOh (.setOh (.each (fun _ _ ht => .unreg ht) (.pairTo (.setPair hs)))))))

theorem NextForm.execMergeCopyArrival {p m : Pr} {t : Nat} {bad : List (Nat × Nat × Nat)} {badEntry : Bool} (hs : s.Form κ) :
    NextForm κ (execMergeCopyArrival p m t bad badEntry s) := by
  unfold Machine.execMergeCopyArrival
  extract_lets
  split
  · exact .ok hs
  · exact .ite (.ok (.setOh hs)) (.ok (.mergeCopy (.setPair (.setOh hs))))

theorem NextForm.execCopyDeclaredMissing {p m : Pr} {fn t : Nat} (hs : s.Form κ) : NextForm κ (execCopyDeclaredMissing p m fn t s) := by
  unfold Machine.execCopyDeclaredMissing
  extract_lets
  split
  · exact .ite (.ok (.settleNow (.declare hs))) (.ok hs)
  · exact .ok hs

theorem NextForm.execFarStorePrefetch {p m : Pr} {fn : Nat} {errs : List (Nat × BitVec 256)} (hs : s.Form κ) :
    NextForm κ (execFarStorePrefetch p m fn errs s) := by
  unfold Machine.execFarStorePrefetch
  extract_lets
  split
  next c e _ _ =>
    have hr : (hbmRead errs (17024 * e.place) 16576 s).2.Form κ := .hbmRead hs
    generalize hbmRead errs (17024 * e.place) 16576 s = r at hr
    obtain ⟨⟨bs, good⟩, t⟩ := r
    exact .ite (.ok hs) (.ite (.ok (.setMem hr)) (.ok (.settleNow (.mrgOcc (.setEntry (.setMem (.count hr)))))))
  next => exact .ok hs

theorem NextForm.execLedgerEntryRetired {p : Pr} {fn t : Nat} (hs : s.Form κ) : NextForm κ (execLedgerEntryRetired p fn t s) := by
  unfold Machine.execLedgerEntryRetired
  split
  · exact .ite (.ok (.setPair hs)) (.ok hs)
  · exact .ok hs

theorem NextForm.execPairWaiting {p : Pr} (hs : s.Form κ) : NextForm κ (execPairWaiting p s) :=
  .ite (.ok hs) (.ok (.mrgEval (.pairTo (.setPair (.flushPair (.setPair hs))))))

theorem NextForm.execWtrExpiry {p : Pr} (hs : s.Form κ) : NextForm κ (execWtrExpiry p s) :=
  .ite (.ok hs) (.ok (.mrgEval (.offer (.setPair (.setF (.setB hs))))))

theorem NextForm.execCrossedTimer {p : Pr} (hs : s.Form κ) : NextForm κ (execCrossedTimer p s) :=
  .ite (.ok hs) (.ok (.indicate (.ite (.setB hs) hs)))

theorem cmdPairRequest_keepsForm : cmdPairRequest.KeepsForm := fun _ _ _ hs => .ite .error (.ok (.mrgEval (.setF hs)))

theorem cmdPairReport_keepsForm : cmdPairReport.KeepsForm := fun _ _ _ hs => .ok hs

theorem cmdPairLedgerRead_keepsForm : cmdPairLedgerRead.KeepsForm := fun _ _ _ hs => by
  dsimp only [cmdPairLedgerRead]
  split
  · exact .error
  · exact .ok hs

theorem NextForm.execOccMaxRead {p : Pr} (hs : s.Form κ) : NextForm κ (execOccMaxRead p s) :=
  .ok (.ite (.mrgOcc (.unreg ⟨hs.on⟩)) (.put hs))

/-! ### The operations of `Machine/Fec` -/

theorem State.Form.setFec {n : Nat} {f : FecSt} (hs : s.Form κ) : (setFec n f s).Form κ := ⟨hs.on⟩

theorem State.Form.countVerdict {n v : Nat} (hs : s.Form κ) : (countVerdict n v s).Form κ :=
  .ite (.count (.setFec hs)) (.ite (.count (.setFec hs)) (.setFec hs))

theorem State.Form.failFollow {n : Nat} {cws : List CwResult} (hs : s.Form κ) : (failFollow n cws s).Form κ :=
  .ite (.setB ⟨hs.on⟩) (.ite hs ⟨hs.on⟩)

theorem State.Form.fecCount {n : Nat} {cws : List CwResult} {coded : Nat} {native : Bool} (hs : s.Form κ) :
    (fecCount n cws coded native s).Form κ :=
  .via (fun ht => .failFollow (.gather (.setFec (.ite (.countN (.countN (.countN ht))) (.countN (.countN ht)))))) (.countN (.countN
    (.countN hs)))

theorem State.Form.decoding {n : Nat} {on : Bool} (hs : s.Form κ) : (decoding n on s).Form κ := .ite hs (.offer (.setB hs))

theorem State.Form.setSd {n : Nat} {f seen : Fld} {k code p0 : Nat} {on : Bool} (hs : s.Form κ) : (setSd n f seen k code p0 on s).Form κ :=
  .ite hs (.memberChanged (.setDefect (.offer (.ite (.setB (.setB hs)) (.setB hs)))))

theorem State.Form.sdWindow {n : Nat} (hs : s.Form κ) : (sdWindow n s).Form κ :=
  .ite (.setSd (.setFec hs)) (.ite (.setSd (.setFec hs)) (.setFec hs))

theorem State.Form.excWindow {n : Nat} (hs : s.Form κ) : (excWindow n s).Form κ :=
  .ite (.setSd (.setFec hs)) (.ite (.setSd (.setFec hs)) (.setFec hs))

theorem State.Form.acqStage {n : Nat} {e : LineEst} (hs : s.Form κ) : (acqStage n e s).Form κ := .ite hs (.setF ⟨hs.on⟩)

theorem State.Form.showEst {n : Nat} {e : LineEst} (hs : s.Form κ) : (showEst n e s).Form κ :=
  .ite (.acqStage hs) (.each (fun _ _ ht => .setF (.setF ht)) (.setF (.setF (.setF (.setF ⟨hs.on⟩)))))

theorem NextForm.execFecWindowEnd {n : Ch} {est : LineEst} (hs : s.Form κ) : NextForm κ (execFecWindowEnd n est s) :=
  .ite (.ok (.setFec (.setF (.showEst hs)))) (.ok (.setFec (.excWindow (.sdWindow (.gather (.setF (.showEst hs)))))))

theorem State.Form.injFollow {n : Nat} (hs : s.Form κ) : (injFollow n s).Form κ := .ite hs (.offer (.setB hs))

theorem cmdFecReport_keepsForm : cmdFecReport.KeepsForm := fun _ _ _ hs => .ok hs

theorem cmdFecSet_keepsForm : cmdFecSet.KeepsForm := fun _ _ _ hs =>
  .via (fun ht => .via (fun hu => .via (fun hv2 => .ok (.injFollow (.ite (.wr hv2) hv2))) (.ite (.wr hu) hu)) (.ite (.wr ht) ht)) (.ite
    (.setF hs) hs)

/-! ### The operations of `Machine/Frame` -/

theorem State.Form.setHunt {n k : Nat} {h : Hunt} (hs : s.Form κ) : (setHunt n k h s).Form κ := .setOh hs

theorem State.Form.stopRelease {n : Nat} (hs : s.Form κ) : (stopRelease n s).Form κ := by
  unfold Machine.stopRelease
  exact .memberChanged (.ite (.setFilt (.setB (.setB hs))) (.setB (.setB hs)))

theorem State.Form.toEqualiser {n : Nat} (hs : s.Form κ) : (toEqualiser n s).Form κ := by
  unfold Machine.toEqualiser
  exact .via (fun h => .ite h (.lineInput (.memberChanged (.setDefect h)))) (.setB (.setF ⟨hs.on⟩))

theorem State.Form.slotsRx {n : Nat} {old new : Reader} (hs : s.Form κ) : (slotsRx n old new s).Form κ :=
  .each (fun _ _ ht => .ptrValid (.setPtr ht)) hs

theorem State.Form.cueDone {target : Nat} (hs : s.Form κ) : (cueDone target s).Form κ := by
  unfold Machine.cueDone
  split
  · exact .endOp hs
  · exact hs

theorem State.Form.halfMade {b fn : Nat} {old new : Reader} (hs : s.Form κ) : (halfMade b fn old new s).Form κ :=
  .ite (.offer hs) (.slotsRx hs)

theorem State.Form.halfDone {b fn : Nat} (hs : s.Form κ) : (halfDone b fn s).Form κ := by
  unfold Machine.halfDone
  split
  · exact hs
  · exact .ite hs (.cueDone (.halfMade (.halfShow ⟨hs.on⟩)))

theorem State.Form.halfAhead {b fn : Nat} {h : RxHalf} (hs : s.Form κ) : (halfAhead b fn h s).Form κ := by
  unfold Machine.halfAhead
  split
  · exact hs
  · split
    · exact hs
    · split
      · exact .cueRefused hs
      · exact .halfMade (.halfShow ⟨hs.on⟩)

theorem State.Form.halfTakes {b fn : Nat} (hs : s.Form κ) : (halfTakes b fn s).2.Form κ := by
  unfold Machine.halfTakes
  split
  · exact hs
  · split
    · exact hs
    · exact .ite (.halfAhead hs) (.halfDone hs)

theorem State.Form.halvesLost {n : Nat} {oof : Bool} (hs : s.Form κ) : (halvesLost n oof s).Form κ :=
  .each (fun _ _ ht => .ite (.toEqualiser (.halfTakes ht)) (.halfTakes ht)) hs

theorem State.Form.oofSet {n : Nat} (hs : s.Form κ) : (oofSet n s).Form κ :=
  .halvesLost (.stopRelease (.decoding (.count (.setDefect (.setDefect (.setOh hs))))))

theorem State.Form.syncSet {n : Nat} (hs : s.Form κ) : (syncSet n s).Form κ := .decoding (.setDefect (.setOh hs))

theorem State.Form.lomFollow {n : Nat} {lock : Bool} (hs : s.Form κ) : (lomFollow n lock s).Form κ :=
  .ite hs (.ite (.setDefect hs) (.halvesLost (.stopRelease (.setDefect hs))))

theorem State.Form.pathLost {n : Nat} (hs : s.Form κ) : (pathLost n s).Form κ := .ite (.stopRelease hs) (.oofSet hs)

theorem State.Form.dmFrame {n verdict : Nat} {bs : List Byte} (hs : s.Form κ) : (dmFrame n verdict bs s).Form κ := by
  unfold Machine.dmFrame
  split
  · exact hs
  · dsimp only
    split
    · exact .setOh hs
    · exact .ite (.setOh hs) (.ite (.setOh hs) (.targetDone (.setOh hs)))

theorem State.Form.deliver {n fn : Nat} {fr : RxFrame} (hs : s.Form κ) : (deliver n fn fr s).Form κ := by
  refine .ite (.setOh hs) ?_
  extract_lets
  split
  · exact .setOh (.dmFrame (.gather (.setB (.setOh hs))))
  · exact .releaseFrame (.dmFrame (.gather (.setB (.setOh hs))))

theorem State.Form.extCheck {n fn : Nat} {fr : RxFrame} (hs : s.Form κ) : (extCheck n fn fr s).2.Form κ := by
  unfold Machine.extCheck
  dsimp only
  split
  · exact hs
  · split
    · exact .setOh hs
    · split
      · exact .setOh hs
      · exact .pairIte (.offer (.setOh hs)) (.setOh hs)

theorem State.Form.releaseOldest {n : Nat} (hs : s.Form κ) : (releaseOldest n s).Form κ := by
  unfold Machine.releaseOldest
  extract_lets
  split
  · refine .ite (.ite (.ite (.deliver (.setOh (.setOh hs))) (.setOh (.setOh hs))) (.setOh hs)) (.ite (.setOh (.setOh hs)) (.deliver
      (.extCheck ?_)))
    split
    · exact .offer (.count (.setHunt (.setOh hs)))
    · exact .setOh hs
  · exact hs

theorem State.Form.bipCount {n errs : Nat} {unc : Bool} (hs : s.Form κ) : (bipCount n errs unc s).Form κ :=
  .ite (.count (.gather (.countN (.setOh hs)))) (.countN (.setOh hs))

theorem State.Form.frameIn {n verdict : Nat} {bs : List Byte} (hs : s.Form κ) : (frameIn n verdict bs s).Form κ :=
  .releaseOldest (.setOh (.bipCount (.lomFollow (.setHunt hs))))

theorem State.Form.nativePeriod {n : Nat} {raw : List Byte} {cws : List Codeword} (hs : s.Form κ) : (nativePeriod n raw cws s).Form κ :=
  .ite (.oofSet hs) (.ite (.setHunt hs) (.ite (.failFollow (.setHunt hs)) (.frameIn (.countVerdict (.fecCount (.ite (.setHunt hs)
    (.syncSet (.setHunt hs))))))))

theorem NextForm.execLofTimer {n : Ch} (hs : s.Form κ) : NextForm κ (execLofTimer n s) := .ite (.ok hs) (.ok (.setDefect hs))

theorem State.Form.hgcUnit {n : Nat} (hs : s.Form κ) : (hgcUnit n s).2.Form κ := by
  unfold Machine.hgcUnit
  extract_lets
  split
  · exact .setHgc hs
  · exact hs
  · exact .setHgc hs

theorem State.Form.rsCount {h : Nat} {cws : List HostCw} (hs : s.Form κ) : (rsCount h cws s).Form κ :=
  .portCounted (.portCounted (.portCounted (.portCounted hs)))

theorem State.Form.portIn {h : Nat} {cws : List HostCw} (hs : s.Form κ) : (portIn h cws s).Form κ :=
  .ite hs (.ite (.rsCount hs) (.ite (.sendPort (.portBlocks (.blkCount (.rsCount hs)))) (.ite (.showPort (.portBlocks (.blkCount
    (.rsCount hs)))) (.portBlocks (.blkCount (.rsCount hs))))))

theorem NextForm.execCounterTick {host : List (Nat × List HostCw)} (hs : s.Form κ) : NextForm κ (execCounterTick host s) :=
  .ok (.passTime (.withCnt (.each (fun _ _ ht => .portIn ht) hs)))

theorem State.Form.packClient {n fn c : Nat} {a : List Byte × State} (ha : a.2.Form κ) : (packClient n fn a c).2.Form κ := by
  unfold Machine.packClient
  dsimp only
  split
  · exact ha
  · exact .via (fun h => .ite h (.countN h)) (.via (fun h => .ite h (.countN h)) (.setMapper ha))

theorem State.Form.txPayload {n fn : Nat} (hs : s.Form κ) : (txPayload n fn s).2.Form κ := by
  generalize e : Machine.txPayload n fn s = r
  unfold Machine.txPayload at e
  split at e
  · extract_lets p at e
    split at e
    subst e
    exact ⟨hs.on⟩
  · subst e
    exact .foldl (fun _ _ ha => .packClient ha) hs

theorem State.Form.txMultiframe {n : Nat} (hs : s.Form κ) : (txMultiframe n s).Form κ := .setOh (.ite (.fpPulse hs) hs)

theorem State.Form.encodeFrame {n fn len : Nat} {lanes : Bool → List (List Byte) → List (List Bool)} {bs : List Byte} (hs : s.Form κ) :
    (encodeFrame n fn len lanes bs s).Form κ :=
  .withOut (.setOh hs)

theorem State.Form.loopSend {n : Nat} {frame : List Byte} (hs : s.Form κ) : (loopSend n frame s).Form κ := .ite ⟨hs.on⟩ hs

theorem State.Form.sendNative {n : Nat} {faults : List (Nat × List (List Nat))} (hs : s.Form κ) : (sendNative n faults s).Form κ := by
  unfold Machine.sendNative
  extract_lets fn t
  have ht : t.Form κ := .ite (.txMultiframe hs) hs
  clear_value t
  split
  next e =>
  have hu := State.Form.of_eq (.txPayload ht) e
  split
  next e =>
  have hv := State.Form.of_eq (.pairIte hu (.txCipher hu)) e
  exact .encodeFrame (.loopSend (.wr (.wr (.setOh (.hfbUnit (.hgcUnit hv))))))

theorem State.Form.keepLatch {n sec : Nat} {b : List Byte} (hs : s.Form κ) : (keepLatch n sec b s).Form κ :=
  .ite (.hbmWrite (.setOh hs)) (.setOh hs)

theorem State.Form.subrateRecords {n : Nat} (hs : s.Form κ) : (subrateRecords n s).Form κ := .each (fun _ _ ht => .offer ht) (.setOh hs)

theorem State.Form.latchChannel {n : Nat} (hs : s.Form κ) : (latchChannel n s).Form κ := .ite hs (.setOh (.keepLatch (.subrateRecords hs)))

theorem NextForm.execPerSecondLatch (hs : s.Form κ) : NextForm κ (execPerSecondLatch s) :=
  .ok (.each (fun _ _ ht => .ite (.setF ht) ht) (.each (fun _ _ ht => .latchChannel ht) hs))

theorem State.Form.markUnavail {n sec : Nat} (hs : s.Form κ) : (markUnavail n sec s).Form κ := by
  unfold Machine.markUnavail
  split
  · exact hs
  · exact .keepLatch hs

theorem NextForm.execSecondClassified {n : Ch} (hs : s.Form κ) : NextForm κ (execSecondClassified n s) := by
  unfold Machine.execSecondClassified
  extract_lets
  split
  · exact .ok hs
  · exact .ite (.ok hs) (.via (fun ht => .ok (.ite ht (.offer ht))) (.ite (.markUnavail (.setOh hs)) (.setOh hs)))

theorem NextForm.execSubrateOverflow {n : Ch} {c : Fin 512} {cws : List HostCw} (hs : s.Form κ) :
    NextForm κ (execSubrateOverflow n c cws s) :=
  .ite (.ok hs) (.ok (.portIn hs))

theorem cmdOhTraceSet_keepsForm : cmdOhTraceSet.KeepsForm := fun _ _ _ hs => .ite .error (.ok (.timDefect (.setOh hs)))

theorem cmdOhTraceGet_keepsForm : cmdOhTraceGet.KeepsForm := fun _ _ _ hs => .ite .error (.ok hs)

theorem cmdDmRun_keepsForm : cmdDmRun.KeepsForm := fun _ _ _ hs => .ite .error (.ok (.setOh hs))

theorem State.Form.readLatches {n : Nat} {l : List Nat} (hs : s.Form κ) : (readLatches n l s).2.Form κ := by
  induction l generalizing s with
  | nil => exact hs
  | cons i r ih =>
    unfold Machine.readLatches
    refine ih ?_
    split
    · exact .hbmRead hs
    · exact hs

theorem cmdPerfLatchRead_keepsForm : cmdPerfLatchRead.KeepsForm := fun _ _ _ hs => .ite .error (.ok (.readLatches hs))

theorem NextForm.execFnLoRead {who : Fin 3} {n : Ch} {tx : Bool} (hs : s.Form κ) : NextForm κ (execFnLoRead who n tx s) :=
  .ok (.ite (.put (.setRl hs)) (.put hs))

/-! ### The operations of `Machine/Hub` -/

theorem State.Form.setHub {n : Nat} {h : HubSt} (hs : s.Form κ) : (setHub n h s).Form κ := ⟨hs.on⟩

theorem State.Form.countRanged {n : Nat} (hs : s.Form κ) : (countRanged n s).Form κ := .setF hs

theorem State.Form.setLeafState {n i st : Nat} (hs : s.Form κ) : (setLeafState n i st s).Form κ := .countRanged (.setF hs)

theorem State.Form.setLeafX {n i : Nat} {x : LeafX} (hs : s.Form κ) : (setLeafX n i x s).Form κ := .setHub hs

theorem State.Form.leafCount {n i k : Nat} {f : Fld} (hs : s.Form κ) : (leafCount n i k f s).Form κ := .count (.bumpF hs)

theorem State.Form.sendMsg {n share : Nat} {m : List Byte} (hs : s.Form κ) : (sendMsg n share m s).Form κ := .setHub hs

theorem State.Form.sendJoin {n i listen serial : Nat} {nonce : List Byte} (hs : s.Form κ) : (sendJoin n i listen serial nonce s).Form κ :=
  .sendMsg (.sendMsg hs)

theorem State.Form.sendSilence {n i : Nat} {on : Bool} (hs : s.Form κ) : (sendSilence n i on s).Form κ := .sendMsg hs

theorem State.Form.hubState {n : Nat} (hs : s.Form κ) : (hubState n s).Form κ := .setF hs

theorem State.Form.hubLos {n : Nat} (hs : s.Form κ) : (hubLos n s).Form κ := .ite hs (.gather (.offer (.hubState (.setB hs))))

theorem State.Form.hubLosClear {n : Nat} (hs : s.Form κ) : (hubLosClear n s).Form κ := .ite (.offer (.hubState (.setB hs))) hs

theorem State.Form.setBrx {n sc : Nat} {b : BurstRx} (hs : s.Form κ) : (setBrx n sc b s).Form κ := .setHub hs

theorem State.Form.restoreLeaf {n i : Nat} (hs : s.Form κ) : (restoreLeaf n i s).Form κ := by
  refine .each (fun _ _ ht => ?_) (.setF (.setF hs))
  split
  · exact .ite (.setBrx ht) ht
  · exact ht

theorem State.Form.meetLeaf {n i : Nat} (hs : s.Form κ) : (meetLeaf n i s).Form κ :=
  .ite (.setFlips (.restoreLeaf (.sramUnc hs))) (.sramRead hs)

theorem State.Form.capGrant {n i : Nat} (hs : s.Form κ) : (capGrant n i s).Form κ := by
  unfold Machine.capGrant
  split
  · exact .ite ⟨hs.on⟩ hs
  · exact hs

theorem NextForm.execGrantStart {n : Ch} {g : Fin 4096} (hs : s.Form κ) : NextForm κ (execGrantStart n g s) :=
  .ite (.ok hs) (.ite (.ok (.capGrant hs)) (.ok (.setBrx (.meetLeaf (.setBrx (.capGrant hs))))))

theorem NextForm.execBurstDetected {n : Ch} {sc : Fin 16} {t : Nat} {level : Int} (hs : s.Form κ) :
    NextForm κ (execBurstDetected n sc t level s) :=
  .ite (.ok hs) (.ok (.setBrx hs))

theorem NextForm.execFalseStart {n : Ch} {sc : Fin 16} {t : Nat} (hs : s.Form κ) : NextForm κ (execFalseStart n sc t s) := by
  unfold Machine.execFalseStart
  extract_lets
  split
  · exact .ok hs
  · exact .ite (.ok hs) (.ok (.setHub (.count (.setBrx hs))))

theorem NextForm.execBurstCapture {n : Ch} {sc : Fin 16} {t : Nat} {level : Int} (hs : s.Form κ) :
    NextForm κ (execBurstCapture n sc t level s) :=
  .ite (.ok hs) (.ok (.count (.setBrx hs)))

theorem State.Form.correctRanging {n i : Nat} {e : Int} (hs : s.Form κ) : (correctRanging n i e s).Form κ := .sendMsg (.setF hs)

theorem State.Form.rangeFollow {n i : Nat} {e : Int} (hs : s.Form κ) : (rangeFollow n i e s).Form κ :=
  .ite (.correctRanging (.setLeafX hs)) (.setLeafX hs)

theorem NextForm.execBurstCommit {n : Ch} {sc : Fin 16} {e : Int} (hs : s.Form κ) : NextForm κ (execBurstCommit n sc e s) := by
  unfold Machine.execBurstCommit
  extract_lets
  split
  · exact .ok hs
  · exact .ite (.ok hs) (.ite (.ok (.count (.setBrx (.hubLosClear hs)))) (.ok (.rangeFollow (.ite (.offer (.leafCount (.count (.setBrx
      (.hubLosClear hs))))) (.count (.setBrx (.hubLosClear hs)))))))

theorem NextForm.execBurstDescriptor {n : Ch} {sc : Fin 16} {d : Codeword} (hs : s.Form κ) : NextForm κ (execBurstDescriptor n sc d s) := by
  unfold Machine.execBurstDescriptor
  extract_lets
  split
  · exact .ite (.ok hs) (.ite (.ite (.ok (.offer (.setLeafState (.setBrx hs)))) (.ok (.setBrx hs))) (.ok (.offer (.leafCount (.ite
      (.setBrx hs) (.count (.setBrx hs)))))))
  · exact .ok hs

theorem NextForm.execBurstCollision {n : Ch} {sc : Fin 16} {step : Int} (hs : s.Form κ) : NextForm κ (execBurstCollision n sc step s) := by
  unfold Machine.execBurstCollision
  extract_lets
  split
  · exact .ok hs
  · exact .ite (.ok hs) (.ok (.offer (.setLeafX (.leafCount (.setBrx hs)))))

theorem NextForm.execBurstCodewordDecoded {n : Ch} {sc : Fin 16} {cw : Codeword} (hs : s.Form κ) :
    NextForm κ (execBurstCodewordDecoded n sc cw s) := by
  unfold Machine.execBurstCodewordDecoded
  extract_lets
  split
  · exact .ok hs
  · split
    · exact .ok hs
    · exact .ite (.ok hs) (.via (fun ht => .ok (.ite (.countN ht) (.count (.count ht)))) (.count (.count (.setBrx hs))))

theorem State.Form.takeSegment {n i fn : Nat} {bs : List Byte} (hs : s.Form κ) : (takeSegment n i fn bs s).Form κ := by
  unfold Machine.takeSegment
  extract_lets
  split
  · exact .ite (.count hs) (.setHub hs)
  · exact .setHub hs

theorem State.Form.takeSegments {n i len j off fn : Nat} {cs : List (Bool × List Byte)} (hs : s.Form κ) :
    (takeSegments n i len cs j off fn s).Form κ := by
  induction j generalizing off fn s with
  | zero => exact hs
  | succ j ih =>
    unfold Machine.takeSegments
    refine ih ?_
    split
    · exact .takeSegment hs
    · exact hs

theorem State.Form.takeTags {n i j off m : Nat} {cs : List (Bool × List Byte)} (hs : s.Form κ) : (takeTags n i cs j off m s).Form κ := by
  induction j generalizing off m s with
  | zero => exact hs
  | succ j ih =>
    unfold Machine.takeTags
    refine ih ?_
    split
    · exact .setHub hs
    · exact hs

theorem State.Form.grantMissed {n i : Nat} (hs : s.Form κ) : (grantMissed n i s).Form κ :=
  .ite (.offer (.setLeafX (.leafCount hs))) (.setLeafX (.leafCount hs))

theorem NextForm.execBurstEnd {n : Ch} {sc : Fin 16} {power afc cd : Int} (hs : s.Form κ) : NextForm κ (execBurstEnd n sc power afc cd s) :=
  by
  unfold Machine.execBurstEnd
  extract_lets
  split
  · exact .ok hs
  · refine .ite (.ok hs) (.ite (.ok (.grantMissed (.setBrx hs))) ?_)
    extract_lets
    split
    · exact .ok (.ite (.ite (.setB (.setF (.setF (.setF (.setBrx hs))))) (.setF (.setF (.setF (.setBrx hs))))) (.takeTags (.takeSegments
        (.ite (.setB (.setF (.setF (.setF (.setBrx hs))))) (.setF (.setF (.setF (.setBrx hs))))))))
    · exact .ok (.ite (.setB (.setF (.setF (.setF (.setBrx hs))))) (.setF (.setF (.setF (.setBrx hs)))))

theorem NextForm.execHubLosSet {n : Ch} (hs : s.Form κ) : NextForm κ (execHubLosSet n s) := .ite (.ok hs) (.ok (.hubLos hs))

theorem NextForm.execUpstreamFrameRelease {n : Ch} (hs : s.Form κ) : NextForm κ (execUpstreamFrameRelease n s) := by
  unfold Machine.execUpstreamFrameRelease
  extract_lets
  split
  · exact .ok hs
  · exact .ite (.ok hs) (.ok (.releasePayload (.ite (.count (.gather (.setOh (.setB (.setHub hs))))) (.gather (.setOh (.setB
      (.setHub hs)))))))

theorem State.Form.doorDone {n : Nat} (hs : s.Form κ) : (doorDone n s).Form κ := .ite hs (.setBrx hs)

theorem NextForm.execStageDoorOpening {n : Ch} {opens : Bool} (hs : s.Form κ) : NextForm κ (execStageDoorOpening n opens s) :=
  .ite (.ok hs) (.ite (.ok (.setB (.doorDone hs))) (.ite (.ok (.setB hs)) (.ok hs)))

theorem State.Form.listSerial {n : Nat} {e : SdEntry} (hs : s.Form κ) : (listSerial n e s).Form κ := by
  unfold Machine.listSerial
  extract_lets
  split
  · exact .setHub hs
  · exact .offer (.setHub hs)

theorem NextForm.execDiscoveryBurstReceived {n : Ch} {msg : Codeword} {collided : Bool} {rtd : Nat} {power freq : Int} (hs : s.Form κ) :
    NextForm κ (execDiscoveryBurstReceived n msg collided rtd power freq s) := by
  refine .ite (.ok hs) (.ite (.ok (.ite (.count (.hubLosClear (.doorDone hs))) (.hubLosClear (.doorDone hs)))) ?_)
  extract_lets
  split
  · exact .ok (.sendJoin (.offer (.sramWrite (.setLeafState (.setF (.ite (.count (.hubLosClear (.doorDone hs))) (.hubLosClear
      (.doorDone hs))))))))
  · exact .ok (.listSerial (.ite (.count (.hubLosClear (.doorDone hs))) (.hubLosClear (.doorDone hs))))

theorem NextForm.execStageDoorEntryAged {n : Ch} {serial : Nat} (hs : s.Form κ) : NextForm κ (execStageDoorEntryAged n serial s) :=
  .ok (.setHub hs)

theorem State.Form.silenceLeaf {n i : Nat} {byLimit : Bool} (hs : s.Form κ) : (silenceLeaf n i byLimit s).Form κ :=
  .offer (.sendSilence (.setLeafState (.setLeafX hs)))

theorem NextForm.execRogueLimitCheck {n : Ch} (hs : s.Form κ) : NextForm κ (execRogueLimitCheck n s) :=
  .ok (.each (fun _ _ ht => .silenceLeaf ht) (.each (fun _ _ ht => .setLeafX ht) hs))

theorem NextForm.execFalseStartRateHigh {n : Ch} (hs : s.Form κ) : NextForm κ (execFalseStartRateHigh n s) :=
  .ok (.ite (.offer (.setHub hs)) (.setHub hs))

theorem cmdHubSdList_keepsForm : cmdHubSdList.KeepsForm := fun _ _ _ hs => .ite .error (.ok hs)

theorem cmdHubLeafAdmit_keepsForm : cmdHubLeafAdmit.KeepsForm := fun _ _ _ hs => by
  refine .ite .error ?_
  split
  · exact .error
  · exact .ite .error (.ok (.offer (.sendJoin (.setHub (.sramWrite (.setLeafState (.setLeafX (.setF (.setF (.wr (.wr (.each
      (fun _ _ ht => .cntClear ht) (.wr (.wr hs))))))))))))))

theorem cmdHubLeafEvict_keepsForm : cmdHubLeafEvict.KeepsForm := fun _ _ _ hs =>
  .ite .error (.ite .error (.ok (.wr (.wr (.setLeafState (.sendSilence hs))))))

theorem cmdHubLeafSilence_keepsForm : cmdHubLeafSilence.KeepsForm := fun _ _ _ hs =>
  .ite .error (.ite (.ok (.ite hs (.silenceLeaf hs))) (.ite (.ok (.offer (.sendSilence (.setLeafState hs)))) (.ok hs)))

theorem cmdHubReport_keepsForm : cmdHubReport.KeepsForm := fun _ _ _ hs => .ite .error (.ok hs)

theorem cmdHubLeafReport_keepsForm : cmdHubLeafReport.KeepsForm := fun _ _ _ hs => .ite .error (.ok hs)

/-! ### The operations of `Machine/Leaf` -/

theorem State.Form.joinSent {n : Nat} {m : Nat × List Byte} (hs : s.Form κ) : (joinSent n m s).Form κ := .ite (.targetDone hs) hs

theorem State.Form.shareMessages {n : Nat} {fab : List (List Byte)} {k : Nat} (hs : s.Form κ) : (shareMessages n fab k s).Form κ :=
  .each (fun _ _ ht => .joinSent ht) (.setHub hs)

theorem State.Form.hubShare {n k : Nat} (hs : s.Form κ) : (hubShare n k s).Form κ := .shareMessages (.setLink hs)

theorem State.Form.hubMultiframe {n fn : Nat} (hs : s.Form κ) : (hubMultiframe n fn s).Form κ :=
  .setHub (.each (fun _ _ ht => .hubShare ht) (.txMultiframe hs))

theorem State.Form.sendHub {n : Nat} {faults : List (Nat × List (List Nat))} (hs : s.Form κ) : (sendHub n faults s).Form κ := by
  unfold Machine.sendHub
  extract_lets fn t
  have ht : t.Form κ := .ite (.hubMultiframe hs) hs
  clear_value t
  split
  next e =>
  have hu := State.Form.of_eq (.txPayload ht) e
  split
  next e =>
  have hv := State.Form.of_eq (.pairIte hu (.txCipher hu)) e
  exact .encodeFrame (.wr (.wr (.setOh hv)))

theorem State.Form.setLeaf {n : Nat} {l : LeafSt} (hs : s.Form κ) : (setLeaf n l s).Form κ := ⟨hs.on⟩

theorem State.Form.leafFollow {n : Nat} (hs : s.Form κ) : (leafFollow n s).Form κ :=
  .ite (.setF hs) (.ite (.ite (.setF hs) hs) (.ite (.setF hs) hs))

theorem State.Form.shareIn {n j : Nat} {good : Bool} {fn : Option Nat} {b : List Byte} {a : Nat × State} (ha : a.2.Form κ) :
    (shareIn n good fn b j a).2.Form κ := .setHunt ha

theorem State.Form.svcIn {n m : Nat} {b : Byte} (hs : s.Form κ) : (svcIn n m b s).Form κ :=
  .via (fun ht => .ite ht (.ite (.setOh ht) (.ite (.setLeaf ht) (.ite (.setLeaf ht) (.ite (.ite (.lineInput (.setF (.setFilt ht)))
    (.setFilt ht)) ht))))) (.ite (.setLeaf (.setOh hs)) (.setOh hs))

theorem State.Form.leafRelease {n verdict : Nat} {share : Nat → List Byte} (hs : s.Form κ) : (leafRelease n verdict share s).Form κ :=
  .releasePayload (.gather (.setB (.setOh hs)))

theorem State.Form.leafFrame {n v : Nat} {share : Nat → List Byte} (hs : s.Form κ) : (leafFrame n v share s).Form κ :=
  .via (fun h => .ite (.leafRelease h) (.setOh h)) (.via (fun h => .ite h (.setOh h)) (.via (fun h => .ite (.svcIn h) (.setOh h))
    (.bipCount (.lomFollow (.foldl (fun _ _ ha => .shareIn ha) (.countVerdict hs))))))

theorem State.Form.shareLost {n : Nat} (hs : s.Form κ) : (shareLost n s).Form κ := .setOh (.oofSet hs)

theorem State.Form.leafPeriod {n : Nat} {raw : List (List Byte)} {cws : List Codeword} (hs : s.Form κ) : (leafPeriod n raw cws s).Form κ :=
  .via (fun ht => .ite (.shareLost ht) (.via (fun hu => .ite hu (.ite (.failFollow hu) (.each (fun _ _ hv2 => .leafFrame hv2)
    (.fecCount hu)))) (.ite (.syncSet ht) ht))) (.each (fun _ _ ht => .setHunt ht) hs)

theorem State.Form.newRanging {n c : Nat} (hs : s.Form κ) : (newRanging n c s).Form κ := by
  unfold Machine.newRanging
  extract_lets
  split
  · exact .ite (.setLeaf (.setF hs)) hs
  · exact hs

theorem State.Form.fireBurst {n len : Nat} (hs : s.Form κ) : (fireBurst n len s).Form κ := .withOut (.retireTx (.setLeaf hs))

theorem NextForm.execLeafBurstFire {n : Ch} {k : Nat} (hs : s.Form κ) : NextForm κ (execLeafBurstFire n k s) := by
  refine .ite (.ok hs) ?_
  split
  · exact .ok hs
  · extract_lets
    split
    · exact .ok (.setLeaf (.newRanging hs))
    · exact .ite (.ok (.setLeaf (.newRanging hs))) (.ite (.ok (.fireBurst (.setF (.setLeaf (.newRanging hs))))) (.ite (.ok (.setLeaf
        (.newRanging hs))) (.ok (.offer (.setLeaf (.setLeaf (.newRanging hs)))))))

theorem NextForm.execLeafDiscoveryFire {n : Ch} {heard : Bool} (hs : s.Form κ) : NextForm κ (execLeafDiscoveryFire n heard s) :=
  .ite (.ok hs) (.ite (.ok (.withOut (.setF (.setLeaf (.draw (.draw hs)))))) (.ok (.setLeaf (.draw (.draw hs)))))

theorem NextForm.execLeafGrantMessage {n : Ch} {msg : List Byte} (hs : s.Form κ) : NextForm κ (execLeafGrantMessage n msg s) := by
  unfold Machine.execLeafGrantMessage
  extract_lets
  split
  · exact .ite (.ok hs) (.ok (.ite (.setF (.setLeaf hs)) (.setLeaf hs)))
  · exact .ite (.ok hs) (.ok (.setLeaf hs))
  · exact .ok hs

theorem NextForm.execLeafMapAnnouncement {n : Ch} {msg : List Byte} (hs : s.Form κ) : NextForm κ (execLeafMapAnnouncement n msg s) := by
  unfold Machine.execLeafMapAnnouncement
  extract_lets
  split
  · exact .ite (.ok hs) (.ok (.setLeaf hs))
  · exact .ok hs

theorem NextForm.execLeafRangingCorrection {n : Ch} {msg : List Byte} (hs : s.Form κ) : NextForm κ (execLeafRangingCorrection n msg s) := by
  unfold Machine.execLeafRangingCorrection
  split
  · exact .ite (.ok (.setLeaf hs)) (.ok hs)
  · exact .ok hs

theorem NextForm.execLeafJoinReply {n : Ch} {a b : List Byte} (hs : s.Form κ) : NextForm κ (execLeafJoinReply n a b s) := by
  unfold Machine.execLeafJoinReply
  extract_lets
  split
  · exact .ite (.ok hs) (.ok (.offer (.setF (.setF (.setF (.setF (.setLeaf hs)))))))
  · exact .ok hs

theorem NextForm.execLeafSilenceOrder {n : Ch} {msg : List Byte} (hs : s.Form κ) : NextForm κ (execLeafSilenceOrder n msg s) := by
  unfold Machine.execLeafSilenceOrder
  extract_lets
  split
  · exact .ite (.ok hs) (.ite (.ite (.ok hs) (.ok (.offer (.setF (.setLeaf hs))))) (.ite (.ok hs) (.ok (.setF (.setLeaf hs)))))
  · exact .ok hs

theorem State.Form.leafOut {n st : Nat} (hs : s.Form κ) : (leafOut n st s).Form κ := .setF (.setF (.retireTx (.setLeaf hs)))

theorem NextForm.execLeafDownstreamLost {n : Ch} (hs : s.Form κ) : NextForm κ (execLeafDownstreamLost n s) :=
  .ite (.ok hs) (.ok (.offer (.leafOut hs)))

theorem cmdLeafJoin_keepsForm : cmdLeafJoin.KeepsForm := fun _ _ _ hs =>
  .ite .error (.ite (.ite .error (.ok (.setB hs))) (.ok (.leafOut (.setB hs))))

theorem State.Form.leafTag {n fn : Nat} (hs : s.Form κ) : (leafTag n fn s).Form κ := by
  unfold Machine.leafTag
  extract_lets
  split
  · exact hs
  · exact .setOh (.setLeaf hs)

theorem State.Form.sendLeaf {n : Nat} {faults : List (Nat × List (List Nat))} (hs : s.Form κ) : (sendLeaf n faults s).Form κ := by
  unfold Machine.sendLeaf
  refine .ite hs ?_
  split
  next e =>
  have hu := State.Form.of_eq (.txPayload hs) e
  split
  next e =>
  have hv := State.Form.of_eq (.pairIte hu (.txCipher hu)) e
  exact .wr (.wr (.via (fun h => .ite (.leafTag h) h) (.setOh (.setLeaf hv))))

theorem State.Form.mapCounts {n : Nat} {l : List (Nat × Nat)} (hs : s.Form κ) : (mapCounts n l s).Form κ :=
  .each (fun _ _ ht => .countN ht) hs

theorem NextForm.execFrameTransmitted {n : Ch} {host : List (Nat × List HostCw)} {faults : List (Nat × List (List Nat))}
  {maps : List (Nat × Nat)} (hs : s.Form κ) : NextForm κ (execFrameTransmitted n host faults maps s) :=
  .via (fun ht => .ite (.ok ht) (.ite (.ok (.mapCounts ht)) (.ite (.ok (.sendHub ht)) (.ite (.ok (.sendLeaf ht)) (.ok
    (.sendNative ht)))))) (.each (fun _ _ ht => .portIn ht) hs)

theorem State.Form.softIn {n : Nat} (hs : s.Form κ) : (softIn n s).Form κ := .setF ⟨hs.on⟩

theorem State.Form.idleDueAdd {n : Nat} {l : List (Nat × Nat)} (hs : s.Form κ) : (idleDueAdd n l s).Form κ :=
  .each (fun _ _ ht => .setOh ht) hs

theorem NextForm.execLineFrameReceived {n : Ch} {raw : List (List Byte)} {cws : List Codeword} {blocks : List CwResult} {coded : Nat}
  {deleted : List (Nat × Nat)} (hs : s.Form κ) : NextForm κ (execLineFrameReceived n raw cws blocks coded deleted s) :=
  .ite (.ok hs) (.via (fun ht => .via (fun hu => .ite (.ok hu) (.ite (.ok (.fecCount (.decoding (.mapCounts hu)))) (.ite (.ok
    (.leafFollow (.leafPeriod (.idleDueAdd hu)))) (.ite (.ok (.nativePeriod (.idleDueAdd hu))) (.ok (.nativePeriod (.idleDueAdd hu)))))))
    (.ite (.softIn ht) ht)) (.ite ⟨hs.on⟩ hs))

/-! ### The operations of `Machine/Line` -/

theorem State.Form.setLine {n : Nat} {l : LineSt} (hs : s.Form κ) : (setLine n l s).Form κ := ⟨hs.on⟩

theorem State.Form.losFollow {n : Nat} (hs : s.Form κ) : (losFollow n s).Form κ := .ite hs (.lineInput (.memberChanged (.setDefect hs)))

theorem State.Form.rxDown {n : Nat} (hs : s.Form κ) : (rxDown n s).Form κ := .ite (.pathLost hs) (.decoding hs)

theorem State.Form.rxTo {n st : Nat} (hs : s.Form κ) : (rxTo n st s).Form κ :=
  .losFollow (.ite (.rxDown (.setB (.setF (.setLine hs)))) (.setB (.setF (.setLine hs))))

theorem State.Form.startAcq {n stage : Nat} {full reacq : Bool} (hs : s.Form κ) : (startAcq n stage full reacq s).Form κ :=
  .rxTo (.setB (.setLine hs))

theorem NextForm.execAcquisitionStart {n : Ch} (hs : s.Form κ) : NextForm κ (execAcquisitionStart n s) := .ite (.ok (.startAcq hs)) (.ok hs)

theorem NextForm.execAcquired {n : Ch} (hs : s.Form κ) : NextForm κ (execAcquired n s) :=
  .ite (.ok hs) (.ok (.leafFollow (.targetDone (.offer (.rxTo (.bumpF hs))))))

theorem State.Form.targetFails {target : Nat} {r : Ref} {params : List Byte} (hs : s.Form κ) : (targetFails target r params s).Form κ := by
  unfold Machine.targetFails
  split
  · exact .endOp hs
  · exact hs

theorem NextForm.execAcqFail {n : Ch} {far : Nat} (hs : s.Form κ) : NextForm κ (execAcqFail n far s) :=
  .ite (.ok hs) (.ite (.ok (.ite (.startAcq hs) (.rxTo (.setLine hs)))) (.ok (.ite (.startAcq (.targetFails (.offer (.setB hs)))) (.rxTo
    (.targetFails (.offer (.setB hs)))))))

theorem NextForm.execHoldingExpiry {n : Ch} (hs : s.Form κ) : NextForm κ (execHoldingExpiry n s) := .ite (.ok hs) (.ok (.rxTo (.setB hs)))

theorem NextForm.execReacquiredFromHolding {n : Ch} (hs : s.Form κ) : NextForm κ (execReacquiredFromHolding n s) :=
  .ite (.ok hs) (.ok (.leafFollow (.offer (.rxTo (.setLine hs)))))

theorem NextForm.execModeSuspect {n : Ch} (hs : s.Form κ) : NextForm κ (execModeSuspect n s) := by
  unfold Machine.execModeSuspect
  extract_lets
  split
  · exact .ok hs
  · exact .ite (.ok hs) (.ok (.offer (.setB hs)))

theorem NextForm.execFrequencyTrackingLost {n : Ch} {freq : Int} (hs : s.Form κ) : NextForm κ (execFrequencyTrackingLost n freq s) :=
  .ite (.ok hs) (.ok (.ite (.startAcq (.offer (.setF hs))) (.rxTo (.offer (.setF hs)))))

theorem State.Form.acqRestart {n : Nat} (hs : s.Form κ) : (acqRestart n s).Form κ := .ite hs (.ite (.rxTo (.setB hs)) (.startAcq hs))

theorem NextForm.execAcqRestart {n : Ch} (hs : s.Form κ) : NextForm κ (execAcqRestart n s) := .ok (.acqRestart hs)

theorem State.Form.rxLosSet {n : Nat} (hs : s.Form κ) : (rxLosSet n s).Form κ :=
  .ite hs (.ite (.rxTo (.setLine (.offer (.setB (.setB hs))))) (.ite (.rxTo (.setLine (.setB hs))) (.losFollow (.setB hs))))

theorem State.Form.rxLosClear {n : Nat} (hs : s.Form κ) : (rxLosClear n s).Form κ :=
  .ite hs (.ite (.startAcq (.setB hs)) (.losFollow (.setB hs)))

theorem cmdLineAcquire_keepsForm : cmdLineAcquire.KeepsForm := fun _ _ _ hs => .ite .error (.ok (.acqRestart hs))

theorem cmdLineReport_keepsForm : cmdLineReport.KeepsForm := fun _ _ _ hs => .ok hs

theorem cmdLinePlan_keepsForm : cmdLinePlan.KeepsForm := fun _ _ _ hs => .ite .error (.ok hs)

/-! ### The operations of `Machine/Engine` -/

theorem State.Form.setEng {n : Nat} {e : EngSt} (hs : s.Form κ) : (setEng n e s).Form κ := ⟨hs.on⟩

theorem State.Form.lifeDue (hs : s.Form κ) : (lifeDue s).Form κ := ⟨hs.on⟩

theorem State.Form.muteFollow {n : Nat} (hs : s.Form κ) : (muteFollow n s).Form κ := .setB hs

theorem State.Form.biasLimits {n : Nat} (hs : s.Form κ) : (biasLimits n s).Form κ :=
  .via (fun ht => .ite ht (.offer ht)) (.ite (.setEng (.setB (.setB hs))) (.offer (.setEng (.setB (.setB hs)))))

theorem State.Form.biasFollow {n : Nat} {bias err : List Int} (hs : s.Form κ) : (biasFollow n bias err s).Form κ :=
  .ite hs (.biasLimits (.setEng hs))

theorem State.Form.declareLos {n : Nat} (hs : s.Form κ) : (declareLos n s).Form κ := .ite (.hubLos hs) (.rxLosSet hs)

theorem State.Form.feedGone {n : Nat} {feed : Int} (hs : s.Form κ) : (feedGone n feed s).Form κ :=
  .declareLos (.muteFollow (.offer (.setB (.setEng hs))))

theorem NextForm.execFeedMeasurement {n : Ch} {feed tx rx : Int} {temp : Nat} {bias err : List Int} (hs : s.Form κ) :
    NextForm κ (execFeedMeasurement n feed tx rx temp bias err s) :=
  .ite (.ok hs) (.via (fun ht => .via (fun hu => .ok (.biasFollow (.ite (.feedGone hu) hu))) (.ite (.offer ht) ht)) (.setEng (.setB
    (.setB (.setF (.setF (.setF (.setF hs))))))))

theorem NextForm.execFeedGoodAgain {n : Ch} (hs : s.Form κ) : NextForm κ (execFeedGoodAgain n s) :=
  .ite (.ok hs) (.ok (.offer (.muteFollow (.setEng hs))))

theorem NextForm.execBiasSearchLocked {n : Ch} (hs : s.Form κ) : NextForm κ (execBiasSearchLocked n s) :=
  .ite (.ok hs) (.ok (.muteFollow (.setEng (.setB hs))))

theorem NextForm.execBiasLockLost {n : Ch} {loops : Nat} (hs : s.Form κ) : NextForm κ (execBiasLockLost n loops s) :=
  .ite (.ok hs) (.ok (.offer (.setB hs)))

theorem NextForm.execTxRampComplete {n : Ch} (hs : s.Form κ) : NextForm κ (execTxRampComplete n s) := .ite (.ok hs) (.ok (.setF hs))

theorem NextForm.execRxLosSet {n : Ch} (hs : s.Form κ) : NextForm κ (execRxLosSet n s) := .ite (.ok hs) (.ok (.rxLosSet hs))

theorem NextForm.execRxLosCleared {n : Ch} (hs : s.Form κ) : NextForm κ (execRxLosCleared n s) := .ite (.ok hs) (.ok (.rxLosClear hs))

theorem NextForm.execBiasSampleHourly (hs : s.Form κ) : NextForm κ (execBiasSampleHourly s) := .ok ⟨hs.on⟩

theorem State.Form.setAdc {n c : Nat} {a : AdcSt} (hs : s.Form κ) : (setAdc n c a s).Form κ := .setEng hs

theorem State.Form.interpolate {n c k : Nat} (hs : s.Form κ) : (interpolate n c k s).Form κ := .setB (.setF hs)

theorem State.Form.understudyOut {n c : Nat} (hs : s.Form κ) : (understudyOut n c s).Form κ :=
  .ite hs (.ite (.interpolate (.setF hs)) (.setF hs))

theorem State.Form.coverSlice {n c k : Nat} {first : Bool} (hs : s.Form κ) : (coverSlice n c k first s).Form κ :=
  .ite (.understudyOut hs) (.ite hs (.ite (.setAdc (.interpolate (.setF hs))) (.interpolate hs)))

theorem State.Form.testSlice {n c k : Nat} {host : Bool} (hs : s.Form κ) : (testSlice n c k host s).Form κ :=
  .ite (.setAdc hs) (.setAdc (.coverSlice hs))

theorem State.Form.endInterp {n c : Nat} (hs : s.Form κ) : (endInterp n c s).Form κ := by
  unfold Machine.endInterp
  split
  · exact .interpolate hs
  · exact .ite (.interpolate hs) (.setB hs)

theorem State.Form.lastingSlice {n c k : Nat} (hs : s.Form κ) : (lastingSlice n c k s).2.Form κ := by
  unfold Machine.lastingSlice
  extract_lets
  split
  · split
    · exact .offer (.endInterp (.setF (.lifeDue (.withPerm (.setAdc hs)))))
    · exact .offer (.endInterp (.setF (.setB (.setF (.lifeDue (.withPerm (.setAdc hs)))))))
  · exact .offer (.setB (.interpolate (.ite (.setB (.setF (.lifeDue (.withPerm (.setAdc hs))))) (.lifeDue (.withPerm (.setAdc hs))))))
  · exact .declareLos (.offer (.setB (.lifeDue (.withPerm (.setAdc hs)))))

theorem State.Form.sliceFault {n c k : Nat} (hs : s.Form κ) : (sliceFault n c k s).Form κ :=
  .ite hs (.ite (.lastingSlice (.coverSlice hs)) (.testSlice hs))

theorem NextForm.execSliceCompare {n c : Ch} {found : Option (Fin 65)} (hs : s.Form κ) : NextForm κ (execSliceCompare n c found s) := by
  unfold Machine.execSliceCompare
  split
  · exact .ok hs
  · exact .ite (.ok (.sliceFault hs)) (.ok hs)

theorem State.Form.nextTest {n c : Nat} (hs : s.Form κ) : (nextTest n c s).Form κ := by
  unfold Machine.nextTest
  split
  · exact .ite (.setAdc hs) hs
  · exact hs

theorem NextForm.execSliceTestComplete {n c : Ch} {pass : Bool} (hs : s.Form κ) : NextForm κ (execSliceTestComplete n c pass s) := by
  unfold Machine.execSliceTestComplete
  extract_lets
  split
  · exact .ok hs
  · extract_lets t
    have ht : t.Form κ := .setAdc hs
    clear_value t
    split
    next e =>
    have hu := State.Form.of_eq (.pairIte (.lastingSlice ht) (.pairIte (.setAdc ht) (.offer (.setAdc (.bumpF (.setAdc ht)))))) e
    exact .ok (.via (fun h => .ite (.targetDone h) h) (.nextTest hu))

theorem State.Form.takeCorr {n : Nat} {x : Nat × Int × Int × Int} (hs : s.Form κ) : (takeCorr n x s).Form κ :=
  .ite hs (.ite (.sliceFault hs) (.setEng hs))

theorem State.Form.adcBoundary {n c dwell : Nat} (hs : s.Form κ) : (adcBoundary n c dwell s).Form κ :=
  .via (fun ht => .via (fun hu => .ite (.ite (.setAdc hu) hu) (.ite hu (.ite (.setAdc (.setF hu)) (.ite (.setAdc (.setF hu)) hu)))) (.ite
    (.endInterp ht) ht)) (.ite hs (.setAdc hs))

theorem State.Form.beginDwell {n d : Nat} (hs : s.Form κ) : (beginDwell n d s).Form κ := .each (fun _ _ ht => .adcBoundary ht) (.setEng hs)

theorem State.Form.rotationBoundary {n : Nat} {corr : List (Nat × Int × Int × Int)} (hs : s.Form κ) : (rotationBoundary n corr s).Form κ :=
  .ite hs (.beginDwell (.ite (.each (fun _ _ ht => .takeCorr ht) hs) hs))

theorem NextForm.execUnderstudyHandover {n c : Ch} (hs : s.Form κ) : NextForm κ (execUnderstudyHandover n c s) := by
  unfold Machine.execUnderstudyHandover
  extract_lets
  split
  · exact .ok hs
  · exact .ite (.ok hs) (.ok (.ite (.setAdc (.setF hs)) (.ite (.setAdc (.endInterp (.setAdc (.setAdc (.setF hs))))) (.setB (.setAdc
      (.setF hs))))))

theorem NextForm.execDacFault {n c : Ch} (hs : s.Form κ) : NextForm κ (execDacFault n c s) := .ite (.ok hs) (.ok (.setEng hs))

theorem NextForm.execDacTestComplete {n c : Ch} {pass : Bool} (hs : s.Form κ) : NextForm κ (execDacTestComplete n c pass s) := by
  unfold Machine.execDacTestComplete
  extract_lets
  split
  · exact .ok hs
  · exact .via (fun ht => .ok (.ite (.targetDone ht) ht)) (.ite (.ite (.setEng hs) (.offer (.bumpF (.setEng hs)))) (.muteFollow (.offer
      (.setB (.setEng hs)))))

theorem State.Form.recentre {n : Nat} {js : List Nat} (hs : s.Form κ) : (recentre n js s).Form κ := .biasLimits (.offer (.setEng hs))

theorem cmdBiasRecentre_keepsForm : cmdBiasRecentre.KeepsForm := fun _ _ _ hs => .ite .error (.ok hs)

theorem NextForm.execBiasRecentre {q : Request} (hs : s.Form κ) : NextForm κ (execBiasRecentre q s) := by
  refine .ite (.serve cmdBiasRecentre_keepsForm hs) ?_
  have ht : (Machine.serveState cmdBiasRecentre q s).Form κ := .serveState cmdBiasRecentre_keepsForm hs
  extract_lets
  split
  · exact .ok ht
  · exact .ok (.endOp (.recentre ht))

theorem cmdSliceTest_keepsForm : cmdSliceTest.KeepsForm := fun _ _ _ hs =>
  .ite .error (.ite (.ite .error (.ok (.testSlice hs))) (.ok (.setEng hs)))

theorem cmdEngReport_keepsForm : cmdEngReport.KeepsForm := fun _ _ _ hs => .ok hs

/-! ### The operations of `Machine/Memory` -/

theorem State.Form.scrubBack {k : Nat} {c err : BitVec 256} (hs : s.Form κ) : (scrubBack k c err s).Form κ := by
  unfold Machine.scrubBack
  extract_lets
  split
  · exact .storeCw hs
  · exact .offer (.logErr (.storeCw hs))
  · exact .logErr (.putCw (.storeCw hs))

theorem NextForm.execPatrolScrub {e1 e2 : BitVec 256} {written : Bool} (hs : s.Form κ) : NextForm κ (execPatrolScrub e1 e2 written s) := by
  refine .ite (.ok hs) (.ite (.ok (.memTo hs)) ?_)
  extract_lets
  split
  · exact .ok (.count (.memTo hs))
  · exact .ok (.ite (.logErr (.count (.memTo hs))) (.scrubBack (.logErr (.count (.memTo hs)))))
  · exact .ok (.logErr (.count (.memTo hs)))

theorem State.Form.sramOutcome {st i : Nat} (hs : s.Form κ) : (sramOutcome st i s).Form κ :=
  .ite (.setFlips (.zeroise (.sramUnc hs))) (.ite (.setFlips (.restoreLeaf (.sramUnc hs))) (.setFlips (.sramUnc hs)))

theorem NextForm.execSramScrub {st : Fin 11} {k bad : Nat} {written lasting : Bool} (hs : s.Form κ) :
    NextForm κ (execSramScrub st k bad written lasting s) :=
  .ite (.ok hs) (.ite (.ok hs) (.ite (.ok (.setFlips (.count hs))) (.ite (.via (fun ht => .ok (.ite (.sramOutcome ht) (.ite
    (.offer ht) ht))) (.sramWrite (.setFlips (.count hs)))) (.ok (.sramOutcome hs)))))

theorem State.Form.secondRecord {x : Nat × Nat × Bool × Nat × Nat} (hs : s.Form κ) : (secondRecord x s).Form κ := .offer hs

theorem NextForm.execMemoryErrorRecords (hs : s.Form κ) : NextForm κ (execMemoryErrorRecords s) :=
  .ok (.each (fun _ _ ht => .secondRecord ht) (.memTo hs))

theorem NextForm.execMemFlipArm {w : Word} (hs : s.Form κ) : NextForm κ (execMemFlipArm w s) := .ok (.ite (.wr hs) hs)

theorem NextForm.execMemSflipArm {w : Word} (hs : s.Form κ) : NextForm κ (execMemSflipArm w s) := .ok (.ite (.wr hs) hs)

theorem State.Form.dropPages {p : Nat → Bool} (hs : s.Form κ) : (dropPages p s).Form κ := .memWf hs (smWf_filter _ _ _)

theorem State.Form.savePage {r : Retire} {page : Nat} (hs : s.Form κ) : (savePage r page s).Form κ := by
  unfold Machine.savePage
  split
  · exact hs
  · refine .each (fun i t ht => ?_) hs
    split
    · next e => exact .writeCw (.of_eq (.readCw ht) e)
    · next e => exact .of_eq (.readCw ht) e

theorem State.Form.saveFirmware {r : Retire} (hs : s.Form κ) : (saveFirmware r s).Form κ := .each (fun _ _ ht => .savePage ht) hs

theorem State.Form.setRetire {i : Nat} {r : Option Retire} (hs : s.Form κ) : (setRetire i r s).Form κ := .memRefresh ⟨hs.on⟩

theorem cmdMemRetire_keepsForm : cmdMemRetire.KeepsForm := fun _ _ _ hs => by
  refine .ite .error (.ite ?_ (.ite .error ?_))
  · extract_lets
    split
    · exact .error
    · exact .ok (.offer (.setRetire hs))
  · split
    · exact .error
    · exact .ok (.offer (.dropPages (.setRetire (.saveFirmware hs))))

theorem cmdMemLogRead_keepsForm : cmdMemLogRead.KeepsForm := fun _ _ _ hs => .ite .error (.ok hs)

theorem cmdMemPpr_keepsForm : cmdMemPpr.KeepsForm := fun _ _ _ hs => .ite .error (.ite .error (.ite .error (.ok (.memTo hs))))

theorem NextForm.execPprComplete {failed : Bool} (hs : s.Form κ) : NextForm κ (execPprComplete failed s) := by
  unfold Machine.execPprComplete
  split
  · exact .ok hs
  · exact .ok (.targetDone (.offer (.memTo hs)))

theorem cmdMemReport_keepsForm : cmdMemReport.KeepsForm := fun _ _ _ hs => .ok hs

/-! ### The operations of `Machine/Monitor` -/

theorem State.Form.setMon {m : MonSt} (hs : s.Form κ) : (s.setMon m).Form κ := ⟨hs.on⟩

theorem State.Form.monFigures {i : Nat} (hs : s.Form κ) : (monFigures i s).Form κ :=
  .ite (.setMon (.setB (.setF (.setF hs)))) (.ite (.setB (.setF (.setF hs))) (.offer (.setMon (.setB (.setF (.setF hs))))))

theorem State.Form.setChain {i : Nat} {c : MonChain} (hs : s.Form κ) : (s.setChain i c).Form κ := .setMon hs

theorem State.Form.gapAnew {i : Nat} (hs : s.Form κ) : (gapAnew i s).Form κ := .ite (.setMon hs) hs

theorem State.Form.monReset {i : Nat} {at0 : Option (BitVec 64)} (hs : s.Form κ) : (monReset i at0 s).Form κ :=
  .setB (.setChain (.gapAnew (.setMon hs)))

theorem State.Form.monSources (hs : s.Form κ) : (monSources s).Form κ :=
  .ite hs (.each (fun _ _ ht => .ite ht (.ite (.setB ht) (.monReset (.setB ht)))) hs)

theorem State.Form.monStart (hs : s.Form κ) : (monStart s).Form κ :=
  .monSources (.each (fun _ _ ht => .monFigures (.monReset ht)) (.setMon hs))

theorem State.Form.monConfigured {i : Nat} (hs : s.Form κ) : (monConfigured i s).Form κ :=
  .ite (.monReset (.monFigures (.setMon hs))) (.setMon hs)

theorem State.Form.monWeighed {i : Nat} (hs : s.Form κ) : (monWeighed i s).Form κ :=
  .via (fun ht => .monFigures (.ite ht (.setChain ht))) (.ite (.gapAnew hs) hs)

theorem State.Form.monWritten {off : Nat} (hs : s.Form κ) : (monWritten off s).Form κ :=
  .ite (.ite (.each (fun _ _ ht => .monWeighed ht) hs) hs) (.ite (.monConfigured hs) (.ite (.monConfigured hs) hs))

theorem State.Form.saturated {i code : Nat} (hs : s.Form κ) : (saturated i code s).Form κ := .ite hs (.offer (.setB hs))

theorem State.Form.monCount (hs : s.Form κ) : (monCount s).Form κ := .setF hs

theorem State.Form.monQueue {e : MonEntry} (hs : s.Form κ) : (monQueue e s).Form κ :=
  .ite (.setB (.count (.setMon hs))) (.monCount (.setMon hs))

theorem State.Form.gapFollow (hs : s.Form κ) : (gapFollow s).Form κ := .setMon hs

theorem State.Form.monResult {i code : Nat} (hs : s.Form κ) : (monResult i code s).Form κ :=
  .via (fun ht => .via (fun hu => .ite (.monQueue hu) hu) (.ite (.gapFollow (.setB ht)) (.setB ht))) (.setB (.setB (.setF (.ite
    (.saturated hs) hs))))

theorem State.Form.monSample {i code : Nat} (hs : s.Form κ) : (monSample i code s).Form κ :=
  .via (fun ht => .ite (.monResult ht) ht) (.ite (.saturated (.setChain hs)) (.setChain hs))

theorem State.Form.slotBegin {k : Nat} (hs : s.Form κ) : (slotBegin k s).Form κ := .setMon hs

theorem NextForm.execMonitorConversion {code : Fin 4096} (hs : s.Form κ) : NextForm κ (execMonitorConversion code s) := by
  unfold Machine.execMonitorConversion
  split
  · exact .ok hs
  · refine .ite (.ok hs) (.ok (.slotBegin ?_))
    split
    · exact .ite hs (.monSample hs)
    · exact hs

theorem NextForm.execMonitorRoundBoundary {offs gain : Int} (hs : s.Form κ) : NextForm κ (execMonitorRoundBoundary offs gain s) := by
  refine .ite (.ok hs) ?_
  extract_lets
  split
  · exact .ok (.slotBegin (.each (fun _ _ ht => .monReset ht) (.setMon hs)))
  · exact .ok (.setMon hs)
  · exact .ok hs

theorem NextForm.execMonitorCalibrationComplete (hs : s.Form κ) : NextForm κ (execMonitorCalibrationComplete s) :=
  .ite (.ok hs) (.ok (.offer (.setB hs)))

theorem NextForm.execBandgapCheck (hs : s.Form κ) : NextForm κ (execBandgapCheck s) := by
  unfold Machine.execBandgapCheck
  extract_lets
  split
  · exact .ok hs
  · exact .ite (.ok hs) (.ok (.gapAnew (.offer (.setB hs))))

theorem NextForm.execMonitorDiscardRecord (hs : s.Form κ) : NextForm κ (execMonitorDiscardRecord s) :=
  .ite (.ok hs) (.ok (.offer (.setMon hs)))

theorem State.Form.monPop (hs : s.Form κ) : (monPop s).2.Form κ := by
  unfold Machine.monPop
  split
  · exact hs
  · exact .monCount (.setMon hs)

theorem State.Form.monQ0Read {who : Nat} (hs : s.Form κ) : (monQ0Read who s).Form κ := by
  unfold Machine.monQ0Read
  split
  · next e => exact .put (.setRl (.setRl (.setRl (.of_eq (.monPop hs) e))))
  · next e => exact .put (.setRl (.setRl (.setRl (.of_eq (.monPop hs) e))))

theorem NextForm.execMonQ0Read {who : Fin 3} (hs : s.Form κ) : NextForm κ (execMonQ0Read who s) := .ok (.ite (.monQ0Read hs) (.put hs))

theorem State.Form.monClear (hs : s.Form κ) : (monClear s).Form κ := .monCount (.setMon hs)

theorem NextForm.execQClear (hs : s.Form κ) : NextForm κ (execQClear s) := .ok (.ite (.monClear hs) hs)

theorem cmdMonQRead_keepsForm : cmdMonQRead.KeepsForm := fun _ _ _ hs => .ite .error (.ok (.monCount (.setMon hs)))

/-! ### The operations of `Machine/Observe` -/

theorem State.Form.winPort {l : Nat} (hs : s.Form κ) : (winPort l s).Form κ := .ite (.wr (.wr hs)) (.wr (.wr hs))

theorem NextForm.execBandwidthWindowEnd {clients : List (Nat × Nat × Nat × Nat)} (hs : s.Form κ) :
    NextForm κ (execBandwidthWindowEnd clients s) := by
  unfold Machine.execBandwidthWindowEnd
  exact .ite (.ok hs) (.ok (.withWin (.ite hs (.each (fun _ _ ht => .winPort ht) (.withWin hs)))))

theorem cmdCntWindowRead_keepsForm : cmdCntWindowRead.KeepsForm := fun _ _ _ hs => .ok hs

theorem cmdLifeRead_keepsForm : cmdLifeRead.KeepsForm := fun _ _ _ hs => .ok hs

theorem State.Form.lifeWrite (hs : s.Form κ) : (lifeWrite s).Form κ := ⟨hs.on⟩

theorem NextForm.execLifeStoreWrite (hs : s.Form κ) : NextForm κ (execLifeStoreWrite s) :=
  .ite (.ok hs) (.ite (.ok (.lifeDue hs)) (.ok (.lifeWrite hs)))

theorem NextForm.execLifeStoreWriteComplete (hs : s.Form κ) : NextForm κ (execLifeStoreWriteComplete s) := by
  unfold Machine.execLifeStoreWriteComplete
  split
  · exact .ok hs
  · exact .ok (.ite (.lifeWrite ⟨hs.on⟩) ⟨hs.on⟩)

/-! ### The operations of `Machine/Units` -/

theorem State.Form.setPwr {p : PwrSt} (hs : s.Form κ) : (s.setPwr p).Form κ := ⟨hs.on⟩

theorem State.Form.setPD {d v : Nat} (hs : s.Form κ) : (setPD d v s).Form κ := .setF hs

theorem State.Form.chFollow {n : Nat} (hs : s.Form κ) : (chFollow n s).Form κ := .timChange (.monSources (.memberChanged (.fabRefresh hs)))

theorem State.Form.loopClear {n : Nat} (hs : s.Form κ) : (loopClear n s).Form κ := .ite hs (.offer (.unreg hs))

theorem State.Form.capTruncate {n : Nat} (hs : s.Form κ) : (capTruncate n s).Form κ := by
  unfold Machine.capTruncate
  split
  · exact .ite ⟨hs.on⟩ hs
  · exact hs

theorem State.Form.accrue {n : Nat} (hs : s.Form κ) : (accrue n s).Form κ := ⟨hs.on⟩

theorem State.Form.chStop {n : Nat} (hs : s.Form κ) : (chStop n s).Form κ :=
  .chFollow (.muteFollow (.rxTo (.setB (.setB (.setLine (.setHub (.setOh (.each (fun _ _ ht => .setPD ht) (.setF (.capTruncate
    (.loopClear (.accrue hs))))))))))))

theorem State.Form.convRestore {n : Nat} (hs : s.Form κ) : (convRestore n s).Form κ :=
  .each (fun _ _ ht => .via (fun hu => .setAdc (.ite (.setF hu) hu)) (.setB (.setB (.setB (.setF (.setB (.setF ht))))))) hs

theorem State.Form.chContentsLost {n : Nat} (hs : s.Form κ) : (chContentsLost n s).Form κ :=
  .each (fun _ _ ht => .endBlock ht) (.statusReset (.dropRegs (.memTo (.withHgcPat (.setHub (.setLeaf (.cphChannelLost (.setEng (.setLine
    (.setFec (.setOh (.each (fun _ _ ht => .halfDone ht) hs))))))))))))

theorem State.Form.chRecord {n new : Nat} (hs : s.Form κ) : (chRecord n new s).Form κ := .offer hs

theorem State.Form.chReached {n : Nat} (hs : s.Form κ) : (chReached n s).Form κ := .setPwr hs

theorem State.Form.chDarkened {n : Nat} (hs : s.Form κ) : (chDarkened n s).Form κ :=
  .chFollow (.chRecord (.chReached (.chContentsLost (.each (fun _ _ ht => .setPD ht) (.setF hs)))))

theorem State.Form.chResting {n : Nat} (hs : s.Form κ) : (chResting n s).Form κ :=
  .chFollow (.chRecord (.chReached (.muteFollow (.each (fun _ _ ht => .setPD ht) (.setPD (.setF hs))))))

theorem State.Form.framerStart {n : Nat} (hs : s.Form κ) : (framerStart n s).Form κ := .setOh hs

theorem State.Form.rxStart {n : Nat} (hs : s.Form κ) : (rxStart n s).Form κ := .ite (.setHub (.hubState (.setF hs))) (.rxTo hs)

theorem State.Form.chActive {n : Nat} (hs : s.Form κ) : (chActive n s).Form κ :=
  .chFollow (.muteFollow (.chRecord (.chReached (.rxStart (.beginDwell (.framerStart (.setPwr (.each (fun _ _ ht => .setPD ht)
    (.setF hs)))))))))

theorem State.Form.chExit {n : Nat} (hs : s.Form κ) : (chExit n s).Form κ :=
  .chFollow (.muteFollow (.chRecord (.chReached (.rxStart (.setLine (.setEng (.setOh (.setPwr (.each (fun _ _ ht => .setPD ht)
    (.setF hs))))))))))

theorem State.Form.chStart {n : Nat} (hs : s.Form κ) : (chStart n s).Form κ :=
  .convRestore (.each (fun _ _ ht => .setPD ht) (.setF (.withFree (.setEng hs))))

theorem State.Form.enqueue {i : StartItem} (hs : s.Form κ) : (enqueue i s).Form κ := .setPwr hs

theorem State.Form.queueDomain {d : Nat} (hs : s.Form κ) : (queueDomain d s).Form κ :=
  .ite hs (.enqueue (.ite (.setPD (.setPD hs)) (.setPD hs)))

theorem State.Form.unqueue {i : StartItem} (hs : s.Form κ) : (unqueue i s).Form κ := .setPwr hs

theorem State.Form.chForce {n : Nat} (hs : s.Form κ) : (chForce n s).Form κ :=
  .ite hs (.targetDone (.muteFollow (.setPwr (.unqueue (.ite (.chStop hs) (.each (fun _ _ ht => .setPD ht) (.setF hs)))))))

theorem State.Form.domRecord {d : Nat} {started : Bool} (hs : s.Form κ) : (domRecord d started s).Form κ := .offer hs

theorem State.Form.laneFresh {l : Nat} (hs : s.Form κ) : (laneFresh l s).Form κ := .setLane hs

theorem State.Form.quadStart {q : Nat} (hs : s.Form κ) : (quadStart q s).Form κ :=
  .monSources (.domRecord (.each (fun _ _ ht => .laneTo (.laneFresh ht)) (.setPD hs)))

theorem State.Form.quadStop {q : Nat} (hs : s.Form κ) : (quadStop q s).Form κ :=
  .each (fun _ _ ht => .ite (.portLocks ht) ht) (.each (fun _ _ ht => .laneLoopClear ht) hs)

theorem State.Form.quadDark {q : Nat} (hs : s.Form κ) : (quadDark q s).Form κ :=
  .monSources (.domRecord (.statusReset (.each (fun _ _ ht => .laneFresh ht) (.setPD hs))))

theorem State.Form.domOn {d : Nat} (hs : s.Form κ) : (domOn d s).Form κ :=
  .ite (.monStart (.domRecord (.setPD hs))) (.ite (.startCores (.domRecord (.setPD hs))) (.monSources (.each
    (fun _ _ ht => .mergeStart ht) (.domRecord (.setPD hs)))))

theorem State.Form.cphGate (hs : s.Form κ) : (cphGate s).Form κ := .setCph (.statusReset hs)

theorem State.Form.cphLost (hs : s.Form κ) : (cphLost s).Form κ :=
  .via (fun ht => .ite (.queueDomain ht) ht) (.cphGate (.dropRegs (.zeroiseAll hs)))

theorem State.Form.domDark {d : Nat} (hs : s.Form κ) : (domDark d s).Form κ :=
  .monSources (.domRecord (.ite (.statusReset (.setMon (.setPD hs))) (.ite (.statusReset (.memTo (.endBlock (.endBlock (.withMrg
    (.setPD hs)))))) (.cphLost (.memTo (.setPD hs))))))

theorem State.Form.hbmLost (hs : s.Form κ) : (hbmLost s).Form κ := by
  unfold Machine.hbmLost
  extract_lets t u _ v _ w
  have hu : u.Form κ := .via (fun h => .ite (.targetDone h) h) (.setB (.setF (.setB (.setB hs))))
  have hv : v.Form κ := .memWf hu fun _ => smWf_nil _
  have hw : w.Form κ := .setB (.withCb hv)
  exact .each (fun _ _ h => .storeLost h) (.each (fun _ _ h => .setOh h) (.withTest hw))

theorem State.Form.hbmDark (hs : s.Form κ) : (hbmDark s).Form κ := .monSources (.domRecord (.domRecord (.setPD (.setPD (.hbmLost hs)))))

theorem State.Form.hbmReady (hs : s.Form κ) : (hbmReady s).Form κ := by
  unfold Machine.hbmReady
  extract_lets t _ u
  have hu : u.Form κ := .memWf (.setPD (.setPD hs)) fun _ => smWf_nil _
  exact .monSources (.each (fun _ _ h => .storeLost h) (.offer (.memRefresh (.domRecord (.domRecord (.setB (.setB hu)))))))

theorem State.Form.dispatch {i : StartItem} (hs : s.Form κ) : (dispatch i s).Form κ := by
  unfold Machine.dispatch
  extract_lets
  split
  · exact .quadStart (.setPwr (.setPwr hs))
  · exact .chStart (.setPwr (.setPwr hs))
  · exact .setPwr hs

theorem NextForm.execStartQueueDispatch (hs : s.Form κ) : NextForm κ (execStartQueueDispatch s) := by
  unfold Machine.execStartQueueDispatch
  split
  · exact .ok hs
  · exact .ok (.dispatch hs)

theorem NextForm.execQuadReachesL0 {c : Ch} (hs : s.Form κ) : NextForm κ (execQuadReachesL0 c s) :=
  .ite (.ok hs) (.ok (.targetDone (.unqueue hs)))

theorem NextForm.execChannelActive {n : Ch} (hs : s.Form κ) : NextForm κ (execChannelActive n s) :=
  .ite (.ok hs) (.ok (.targetDone (.chActive (.unqueue hs))))

/-! ### The operations of `Machine/Boot` -/

theorem State.Form.setBoot {b : BootSt} (hs : s.Form κ) : (s.setBoot b).Form κ := ⟨hs.on⟩

/-- A cold start leaves a part of the register map, and an empty memory and recorder. -/
theorem State.Form.coldBase (hs : s.Form κ) : (coldBase s).Form κ := by
  unfold Machine.coldBase
  refine .setF (.setB (.setB (.setF ?_)))
  cases κ with
  | regMap => exact ⟨smWf_filter _ _ _ hs.on⟩
  | rest => exact ⟨smWf_nil _, Nat.zero_le _, rfl, fun _ e => (Option.some_ne_none _ e.symm).elim⟩

theorem State.Form.dropSoft (hs : s.Form κ) : (dropSoft s).Form κ := ⟨hs.on⟩

theorem State.Form.coldStart {kind : Nat} (hs : s.Form κ) : (coldStart kind s).Form κ :=
  .ite (.withMsix (.setF (.setBoot (.bumpF (.setF (.coldBase hs)))))) (.dropSoft (.setBoot (.bumpF (.setF (.coldBase hs)))))

theorem State.Form.powerOn {asel : Fin 4} : (powerOn asel s).Form κ := by
  unfold Machine.powerOn
  refine .dropSoft (.setB ?_)
  cases κ with
  | regMap => exact ⟨rfl⟩
  | rest => exact ⟨smWf_nil _, Nat.zero_le _, rfl, fun _ e => (Option.some_ne_none _ e.symm).elim⟩

theorem NextForm.execPowerOnReset {asel : Fin 4} : NextForm κ (execPowerOnReset asel s) := .ok .powerOn

theorem NextForm.execResetNLow (hs : s.Form κ) : NextForm κ (execResetNLow s) := .ite (.ok hs) (.ok (.setBoot (.ite hs (.coldStart hs))))

theorem State.Form.clockStage (hs : s.Form κ) : (clockStage s).Form κ := .setPD (.setPD (.setF hs))

theorem NextForm.execResetNRelease {straps : Straps} (hs : s.Form κ) : NextForm κ (execResetNRelease straps s) :=
  .ite (.ok hs) (.via (fun ht => .ite (.ok (.setBoot ht)) (.ite (.ok (.setBoot (.setBoot ht))) (.ok (.clockStage (.setBoot ht))))) (.ite
    (.coldStart hs) hs))

theorem State.Form.intReset (hs : s.Form κ) : (intReset s).Form κ := .withMsix (.dropRegs hs)

theorem NextForm.execPerstNLow (hs : s.Form κ) : NextForm κ (execPerstNLow s) :=
  .ite (.ok (.setBoot hs)) (.ok (.withMbxArrivedLaterEpDiscards (.countN (.intReset (.setBoot (.setBoot hs))))))

theorem State.Form.armAll (hs : s.Form κ) : (armAll s).Form κ := ⟨hs.on⟩

theorem NextForm.execLinkUpAfterEndpointReset (hs : s.Form κ) : NextForm κ (execLinkUpAfterEndpointReset s) :=
  .ite (.ok hs) (.ok (.withEpDiscards (.offer (.setB (.setB (.withMbx (.armAll (.setBoot hs))))))))

theorem NextForm.execPcieLinkUp (hs : s.Form κ) : NextForm κ (execPcieLinkUp s) := .ite (.ok hs) (.ok (.setBoot hs))

theorem State.Form.bootError {e : Nat} (hs : s.Form κ) : (bootError e s).Form κ := .setF (.setBoot hs)

theorem State.Form.failSlot {b : Bool} (hs : s.Form κ) : (failSlot b s).Form κ := .setBoot hs

theorem State.Form.nextSlot {l : List Bool} (hs : s.Form κ) : (nextSlot l s).Form κ := .setF (.setBoot hs)

theorem State.Form.imageStage (hs : s.Form κ) : (imageStage s).Form κ := .nextSlot hs

theorem NextForm.execHouseClockLocked {locked : Bool} (hs : s.Form κ) : NextForm κ (execHouseClockLocked locked s) :=
  .ite (.ok hs) (.ite (.ok (.setBoot hs)) (.ok (.setF (.bootError hs))))

theorem State.Form.setStage {k : Nat} (hs : s.Form κ) : (s.setStage k).Form κ := .setF hs

theorem NextForm.execFusesLoaded {good : Bool} (hs : s.Form κ) : NextForm κ (execFusesLoaded good s) :=
  .ite (.ok hs) (.ite (.ok (.setStage (.bootError (.setStage hs)))) (.ok (.imageStage (.setF (.setF (.setStage hs))))))

theorem State.Form.startFirmware {download slot : Bool} {header : List Byte} (hs : s.Form κ) : (startFirmware download slot header s).Form κ :=
  by
  unfold Machine.startFirmware
  extract_lets s1 s2 s3 logged _ s4 now s5 _ s6
  have h2 : s2.Form κ := .setF (.setB (.setF (.setF hs)))
  have h3 : s3.Form κ := .ite h2 (.setB h2)
  have h5 : s5.Form κ := .each (fun _ _ h => .offer ⟨h.on⟩) (.setBoot h3)
  have h6 : s6.Form κ := ⟨(h5.cb fun h => by rw [List.length_map]; exact h).on⟩
  exact .ite h6 (.setPD (.setPD h6))

theorem NextForm.execImageVerified {img : Image} (hs : s.Form κ) : NextForm κ (execImageVerified img s) := by
  refine .ite (.ok hs) ?_
  split
  · exact .ok hs
  · split
    · exact .ok (.startFirmware hs)
    · exact .ok (.nextSlot (.failSlot (.bootError (.setStage hs))))

theorem NextForm.execDownloadGo (hs : s.Form κ) : NextForm κ (execDownloadGo s) := by
  refine .ite (.ok hs) ?_
  split
  · exact .ok (.startFirmware hs)
  · exact .ok (.setStage (.bootError (.setStage hs)))

theorem State.Form.hbmBootFail (hs : s.Form κ) : (hbmBootFail s).Form κ := .setF (.setB (.setB (.ite hs (.offer (.setPD (.setPD hs))))))

theorem NextForm.execHbmStartComplete {good : Bool} (hs : s.Form κ) : NextForm κ (execHbmStartComplete good s) :=
  .ite (.ok (.setStage (.ite (.hbmReady hs) (.hbmBootFail hs)))) (.ite (.ite (.ok (.targetDone (.hbmReady (.unqueue hs)))) (.ok
    (.targetDone (.monSources (.offer (.setPD (.setPD (.unqueue hs)))))))) (.ok hs))

theorem NextForm.execReady (hs : s.Form κ) : NextForm κ (execReady s) :=
  .ite (.ok hs) (.ite (.ok (.setB (.setB (.offer (.setF (.armAll ⟨hs.on⟩)))))) (.ok (.wakeNotice (.setPwr (.offer (.setB (.setB (.offer
    (.setF (.armAll ⟨hs.on⟩))))))))))

theorem NextForm.execWatchdogExpiry (hs : s.Form κ) : NextForm κ (execWatchdogExpiry s) :=
  .ite (.ok hs) (.ok (.imageStage (.coldStart (.ite hs (.ite (.bootError hs) (.failSlot (.bootError hs)))))))

theorem cmdSysReset_keepsForm : cmdSysReset.KeepsForm := fun _ _ _ hs => .ok (.setBoot hs)

theorem NextForm.execWarmReset (hs : s.Form κ) : NextForm κ (execWarmReset s) := by
  unfold Machine.execWarmReset
  split
  · exact .ok hs
  · exact .ok (.imageStage (.setBoot (.coldStart hs)))

theorem cmdFwSvnCommit_keepsForm {blown : Nat} : (cmdFwSvnCommit blown).KeepsForm := fun _ _ _ hs =>
  .ite .error (.ite (.ok (.lifeDue (.setF (.setBoot hs)))) (.ok (.lifeDue (.setF (.setBoot hs)))))

/-! ### The operations of `Machine/Supply` -/

theorem State.Form.railOut {r : Nat} (hs : s.Form κ) : (railOut r s).Form κ := .ite hs (.setBoot hs)

theorem State.Form.railChannel {r n : Nat} (hs : s.Form κ) : (railChannel r n s).Form κ := .ite hs (.offer (.chForce hs))

theorem State.Form.railQuad {r q : Nat} (hs : s.Form κ) : (railQuad r q s).Form κ :=
  .ite hs (.targetDone (.offer (.quadDark (.quadStop (.unqueue hs)))))

theorem State.Form.railHbm (hs : s.Form κ) : (railHbm s).Form κ := .ite ⟨hs.on⟩ (.targetDone (.offer (.hbmDark (.unqueue ⟨hs.on⟩))))

theorem State.Form.brownOut (hs : s.Form κ) : (brownOut s).Form κ := .setBoot (.setF (.ite hs (.coldStart hs)))

theorem State.Form.darkRail {r : Nat} (hs : s.Form κ) : (darkRail r s).Form κ :=
  .ite (.railOut .powerOn) (.ite (.railOut hs) (.withOpsBootPwr (.railOut hs)))

theorem NextForm.execRailBelowThreshold {r : Fin 12} (hs : s.Form κ) : NextForm κ (execRailBelowThreshold r s) :=
  have ht : (Machine.railOut r s).Form κ := .railOut hs
  .ite (.ok (.darkRail hs)) (.ok (.ite (.railOut .powerOn) (.ite (.brownOut ht) (.ite (.each (fun _ _ h => .railChannel h) ht)
    (.ite (.each (fun _ _ h => .railQuad h) ht) (.ite (.railHbm ht) ht))))))

theorem NextForm.execRailRemovedInDarkHouse {r : Fin 12} (hs : s.Form κ) : NextForm κ (execRailRemovedInDarkHouse r s) :=
  .ite (.ok (.darkRail hs)) (.ok hs)

theorem NextForm.execRailBackInRange {r : Fin 12} (hs : s.Form κ) : NextForm κ (execRailBackInRange r s) :=
  .ite (.ok hs) (.ite (.ok (.ite (.draw (.setBoot hs)) (.wakeFires (.draw (.setBoot hs))))) (.ok (.setBoot hs)))

theorem NextForm.execBrownOutHoldEnd (hs : s.Form κ) : NextForm κ (execBrownOutHoldEnd s) :=
  .ite (.ok hs) (.ok (.ite (.setBoot hs) (.clockStage (.setBoot hs))))

theorem NextForm.execReceptacleRemoved (hs : s.Form κ) : NextForm κ (execReceptacleRemoved s) :=
  .ite (.ok hs) (.ok (.each (fun _ _ ht => .chForce ht) (.ite (.offer (.setB hs)) (.setB hs))))

theorem NextForm.execReceptacleFitted (hs : s.Form κ) : NextForm κ (execReceptacleFitted s) := .ok (.setB hs)

theorem State.Form.thermalShutdown {cause : Nat} (hs : s.Form κ) : (thermalShutdown cause s).Form κ :=
  .setBoot (.setPD (.setPD (.setF (.coldBase hs))))

theorem State.Form.thermalCycle {die : Int} (hs : s.Form κ) : (thermalCycle die s).Form κ :=
  .ite hs (.ite (.setBoot (.ite ⟨hs.on⟩ hs)) (.ite (.setBoot hs) hs))

theorem State.Form.thermRecord {code : Nat} {die : Int} (hs : s.Form κ) : (thermRecord code die s).Form κ := .ite (.offer hs) hs

theorem State.Form.thermWarn {die : Int} (hs : s.Form κ) : (thermWarn die s).Form κ :=
  .ite (.thermRecord (.setBoot (.setB hs))) (.ite (.setBoot hs) hs)

theorem State.Form.thermCrit {die : Int} (hs : s.Form κ) : (thermCrit die s).Form κ :=
  .ite (.thermRecord (.setBoot (.setB hs))) (.ite (.setBoot hs) hs)

theorem State.Form.stackHot {t : Temps} (hs : s.Form κ) : (stackHot t s).Form κ := .setB hs

theorem NextForm.execTemperatureCompare {t : Temps} (hs : s.Form κ) : NextForm κ (execTemperatureCompare t s) := by
  refine .ite (.ok hs) ?_
  split
  · exact .ok (.thermalShutdown hs)
  · exact .ok (.thermalCycle (.thermCrit (.thermWarn (.stackHot (.setF hs)))))

theorem NextForm.execThermtripRecheck {t : Temps} (hs : s.Form κ) : NextForm κ (execThermtripRecheck t s) := by
  unfold Machine.execThermtripRecheck
  split
  · exact .ite (.ok (.thermalShutdown hs)) (.ok hs)
  · exact .ok hs

theorem NextForm.execHeaterUnregulated {n : Ch} {temp : Nat} (hs : s.Form κ) : NextForm κ (execHeaterUnregulated n temp s) :=
  .ite (.ok hs) (.ok (.offer (.setB (.setF hs))))

theorem NextForm.execEngineOvertemperature {n : Ch} {temp : Nat} (hs : s.Form κ) : NextForm κ (execEngineOvertemperature n temp s) :=
  .ite (.ok hs) (.ok (.chForce (.offer (.setF hs))))

theorem NextForm.execShutdownCauseRead {who : Fin 3} (hs : s.Form κ) : NextForm κ (execShutdownCauseRead who s) :=
  .ite (.ok (.put hs)) (.ok (.ite (.withOut (.wakeFires (.unreg hs))) (.put (.unreg hs))))

theorem NextForm.execAvsEvaluation {move : Int} {sense readback : Nat} (hs : s.Form κ) :
    NextForm κ (execAvsEvaluation move sense readback s) :=
  .ite (.ok hs) (.ite (.ok (.setB (.setF hs))) (.ite (.ok (.setBoot (.setF (.setB (.setF hs))))) (.ite (.ok (.setBoot (.setF (.setB
    (.setF hs))))) (.ok (.offer (.setB (.setBoot (.setF (.setB (.setF hs))))))))))

/-! ### The operations of `Machine/Power` -/

theorem State.Form.chBegin {st n : Nat} (hs : s.Form κ) : (chBegin st n s).Form κ :=
  .ite (.ite (.enqueue (.setF (.setPwr hs))) (.each (fun _ _ ht => .setPD ht) (.setF (.setPwr (.setPwr hs))))) (.ite (.chStop
    (.setPwr hs)) (.each (fun _ _ ht => .setPD ht) (.setF (.setPwr hs))))

theorem BodyForm.setChannels {q : Request} {st : Nat} {ns : List Nat} (hs : s.Form κ) : BodyForm κ (setChannels q st ns s) := by
  unfold Machine.setChannels
  split
  · exact .error
  · exact .ok (.each (fun _ _ ht => .chBegin ht) hs)

theorem State.Form.laneSet {st l : Nat} (hs : s.Form κ) : (laneSet st l s).Form κ :=
  .ite (.ite (.laneTo hs) (.ite (.laneTo hs) (.ite (.laneTrain hs) hs))) (.ite hs (.portLost (.laneTo (.setLane (.setB (.setB hs))))))

theorem BodyForm.setLanes {q : Request} {st : Nat} {ls : List Nat} (hs : s.Form κ) : BodyForm κ (setLanes q st ls s) := by
  refine .ite .error (.ite .error ?_)
  split
  · exact .error
  · exact .ok (.each (fun _ _ ht => .laneSet ht) hs)

theorem BodyForm.setQuads {q : Request} {st : Nat} {qs : List Nat} (hs : s.Form κ) : BodyForm κ (setQuads q st qs s) := by
  refine .ite .error (.ite ?_ (.ite .error ?_))
  · extract_lets
    split
    · exact .error
    · exact .ok (.each (fun _ _ ht => .enqueue (.setPD ht)) hs)
  · split
    · exact .error
    · exact .ok (.each (fun _ _ ht => .quadStop (.setPD ht)) hs)

theorem State.Form.domBegin {d : Nat} (hs : s.Form κ) : (domBegin d s).Form κ :=
  .ite (.setPD (.setPD (.hbmLost hs))) (.ite (.setPD (.offer (.zeroiseAll hs))) (.setPD hs))

theorem BodyForm.setDomains {q : Request} {st : Nat} {ds : List Nat} (hs : s.Form κ) : BodyForm κ (setDomains q st ds s) := by
  refine .ite .error (.ite (.ok (.each (fun _ _ ht => .queueDomain ht) hs)) ?_)
  extract_lets
  split
  · exact .error
  · exact .ok (.each (fun _ _ ht => .domBegin ht) hs)

theorem NextForm.execChannelTransitionComplete {n : Ch} (hs : s.Form κ) : NextForm κ (execChannelTransitionComplete n s) := by
  unfold Machine.execChannelTransitionComplete
  extract_lets
  split
  · exact .ok (.targetDone (.chDarkened hs))
  · exact .ok (.targetDone (.chResting hs))
  · exact .ite (.ok (.targetDone (.chExit hs))) (.ok hs)
  · exact .ok hs

theorem State.Form.wentDark {d : Nat} (hs : s.Form κ) : (wentDark d s).Form κ :=
  .ite (.offer (.hbmDark hs)) (.ite (.quadDark hs) (.domDark hs))

theorem NextForm.execDomainTransitionComplete {d : Fin 32} (hs : s.Form κ) : NextForm κ (execDomainTransitionComplete d s) :=
  .ite (.ok hs) (.ite (.ite (.ok hs) (.ok (.targetDone (.domOn (.unqueue hs))))) (.ite (.ok hs) (.ok (.targetDone (.wentDark hs)))))

/-! ### The operations of `Machine/DarkHouse` -/

theorem State.Form.acctClear (hs : s.Form κ) : (acctClear s).Form κ := .each (fun _ _ ht => .unreg ht) hs

theorem State.Form.ledger {idx block : Nat} {abort : Bool} (hs : s.Form κ) : (ledger idx block abort s).Form κ :=
  .ite hs (.bumpF (.setB (.setF (.setF (.bumpF hs)))))

theorem State.Form.wakeCtrl {v : Word} (hs : s.Form κ) : (wakeCtrl v s).Form κ := .ite (.acctClear (.wr hs)) (.wr hs)

theorem State.Form.darken (hs : s.Form κ) : (darken s).Form κ :=
  .via (fun ht => .via (fun hu => .via (fun hv2 => .via (fun hv3 => .ite hv3 (.offer (.hbmDark hv3))) (.ite hv2 (.domDark hv2))) (.ite hu
    (.domDark hu))) (.ite ht (.domRecord (.cphGate (.setPD ht))))) (.each (fun _ _ ht => .ite ht (.quadDark (.quadStop ht))) (.each
    (fun _ _ ht => .ite ht (.chDarkened (.setPwr (.ite (.chStop ht) ht)))) (.setPwr hs)))

theorem BodyForm.enterDark {q : Request} (hs : s.Form κ) : BodyForm κ (enterDark q s) := by
  refine .ite (.ok (.offer hs)) ?_
  split
  · exact .ok (.ledger (.offer hs))
  · exact .ok (.setPwr (.darken (.endSessions hs)))

theorem cmdPwrStateSet_keepsForm : cmdPwrStateSet.KeepsForm := fun _ _ _ hs => by
  dsimp only [cmdPwrStateSet]
  split
  · exact .setChannels hs
  · exact .setLanes hs
  · exact .setQuads hs
  · exact .setDomains hs
  · exact .enterDark hs

theorem NextForm.execPwrStateSet {q : Request} (hs : s.Form κ) : NextForm κ (execPwrStateSet q s) := by
  refine .ite (.serve cmdPwrStateSet_keepsForm hs) ?_
  have ht : (Machine.serveState cmdPwrStateSet q s).Form κ := .serveState cmdPwrStateSet_keepsForm hs
  extract_lets
  split
  · exact .ok ht
  · exact .ok (.endOp ht)

theorem NextForm.execDarkHouseAbort (hs : s.Form κ) : NextForm κ (execDarkHouseAbort s) := by
  unfold Machine.execDarkHouseAbort
  split
  next e c _ _ =>
    extract_lets _ t u v w
    have hu : u.Form κ := .ledger (.offer (.setPwr hs))
    have hv : v.Form κ := by
      unfold v
      split
      · exact .endOp hu
      · exact hu
    have hw : w.Form κ := .queueDomain hv
    exact .ok (.ite (.queueDomain hw) hw)
  next => exact .ok hs

/-- The banks of a part asleep hold its eight timing inputs. -/
theorem State.Form.asleep {b : Banks} {op : List Op} (hb : κ = .rest → b.tim.inputs.length = 8) (hs : s.Form κ) : (asleep b op s).Form κ :=
  by
  unfold Machine.asleep
  extract_lets t retain _ _ u v w
  have hu : u.Form κ := ⟨(State.Form.banks (.coldBase hs) fun x e hx => Option.some.inj hx ▸ hb e).on⟩
  have hw : w.Form κ := .each (fun _ _ h => .wr h) (.wr hu)
  exact .setPD (.setPD ⟨hw.on⟩)

theorem NextForm.execDarkHouseCommit (hs : s.Form κ) : NextForm κ (execDarkHouseCommit s) := by
  unfold Machine.execDarkHouseCommit
  split
  · extract_lets retain t
    have ht : t.Form κ := .offer hs
    exact .ok (.asleep ht.inputs ht)
  · exact .ok hs

theorem NextForm.execWakeNLow (hs : s.Form κ) : NextForm κ (execWakeNLow s) :=
  .ite (.ok (.ite (.draw hs) (.wakeFires (.draw hs)))) (.ok (.wakeFires hs))

theorem NextForm.execI2cAddressMatch {addr : Fin 128} (hs : s.Form κ) : NextForm κ (execI2cAddressMatch addr s) :=
  .ite (.ok hs) (.ite (.ok (.ite (.draw hs) (.wakeFires (.draw hs)))) (.ok (.wakeFires hs)))

theorem NextForm.execWakeTimerExpiry (hs : s.Form κ) : NextForm κ (execWakeTimerExpiry s) := .ite (.ok (.wakeFires hs)) (.ok hs)

theorem NextForm.execWake (hs : s.Form κ) : NextForm κ (execWake s) := by
  unfold Machine.execWake
  split
  · exact .ok hs
  · exact .ite (.ok hs) (.ok (.clockStage (.setB (.setPwr (.setBoot (.ite (.setF (.setF (.setF hs))) hs))))))

theorem State.Form.putWords {m : SMap Word} (hs : s.Form κ) : (putWords m s).Form κ := .each (fun _ _ ht => .wr ht) hs

theorem State.Form.restoreKeys {b : Banks} (hs : s.Form κ) : (restoreKeys b s).Form κ := .setCph (.putWords hs)

theorem State.Form.loseKeys {b : Banks} (hs : s.Form κ) : (loseKeys b s).Form κ := .each (fun _ _ ht => .offer ht) (.setB hs)

theorem State.Form.restoreRecords {b : Banks} (hb : κ = .rest → b.tim.inputs.length = 8) (hs : s.Form κ) : (restoreRecords b s).Form κ := by
  unfold Machine.restoreRecords
  extract_lets ring epoch t u
  have hu : u.Form κ := .setF (.setB (.each (fun _ _ h => .wr h) hs))
  clear_value u
  match κ, hu with
  | .regMap, hu => exact ⟨hu.on⟩
  | .rest, ⟨a, b, _, d⟩ => exact ⟨a, b, hb rfl, d⟩

theorem State.Form.restoreTrace {b : Banks} (hs : s.Form κ) : (restoreTrace b s).Form κ := .each (fun _ _ ht => .setOh ht) hs

theorem State.Form.restoreBank {b : Banks} {i : Nat} (hb : κ = .rest → b.tim.inputs.length = 8) (hs : s.Form κ) :
    (restoreBank b i s).Form κ :=
  .via (fun h => .ite (.restoreKeys h) (.ite (.putWords h) (.ite (.putWords (.withClaims h)) (.ite (.restoreTrace (.putWords h))
    (.restoreRecords hb h))))) (.setF hs)

theorem State.Form.loseBank {b : Banks} {i : Nat} (hs : s.Form κ) : (loseBank b i s).Form κ :=
  .ite (.loseKeys (.offer (.setF hs))) (.offer (.setF hs))

theorem NextForm.execRetentionBanksRestored {bad : List Nat} (hs : s.Form κ) : NextForm κ (execRetentionBanksRestored bad s) := by
  unfold Machine.execRetentionBanksRestored
  split
  · exact .ok hs
  next b e =>
    have hb := hs.kept e
    refine .ite (.ok hs) ?_
    extract_lets t u
    have ht : t.Form κ := .each (fun _ _ h => .ite h (.ite (.loseBank h) (.restoreBank hb h))) hs
    clear_value t
    exact .ok (.timChange (.fabRefresh (.memRefresh (.queueDomain (.setPD (.setPD (.withoutBanks ht)))))))

theorem cmdPwrReport_keepsForm : cmdPwrReport.KeepsForm := fun _ _ _ hs => .ok hs

theorem cmdPwrWakeSet_keepsForm : cmdPwrWakeSet.KeepsForm := fun _ _ _ hs => .ok (.wr (.wakeCtrl hs))

theorem cmdPwrAcctRead_keepsForm : cmdPwrAcctRead.KeepsForm := fun _ _ _ hs => .ok (.ite (.acctClear hs) hs)

theorem NextForm.execAcctClear (hs : s.Form κ) : NextForm κ (execAcctClear s) := .ok (.ite (.acctClear hs) hs)

/-! ### The operations of `Machine/SelfTest` -/

theorem State.Form.setTest {t : TestSt} (hs : s.Form κ) : (s.setTest t).Form κ := ⟨hs.on⟩

theorem State.Form.bistStart {u : StartItem × Nat} (hs : s.Form κ) : (bistStart u s).Form κ := by
  refine .ite hs ?_
  split
  · exact .enqueue (.setPD hs)
  · exact .chBegin hs
  · exact .queueDomain hs

theorem cmdBistRun_keepsForm : cmdBistRun.KeepsForm := fun _ _ _ hs => by
  dsimp only [cmdBistRun]
  split
  · exact .error
  · exact .ok (.offer (.setF (.setB (.each (fun _ _ ht => .bistStart ht) (.setTest hs)))))

theorem State.Form.chRetest {n : Nat} (hs : s.Form κ) : (chRetest n s).Form κ :=
  .via (fun ht => .ite (.rxTo (.framerStart (.memTo (.setHub (.setLeaf ht))))) (.memTo (.setHub (.setLeaf ht)))) (.setOh (.setLine
    (.setFec (.dropRegs hs))))

theorem State.Form.bistReturn {u : StartItem × Nat} (hs : s.Form κ) : (bistReturn u s).Form κ := by
  unfold Machine.bistReturn
  split
  · exact .ite hs (.ite (.quadDark (.quadStop (.unqueue hs))) (.each (fun _ _ ht => .ite (.laneTrain ht) ht) hs))
  · exact .ite hs (.ite (.chDarkened (.ite (.chStop (.unqueue hs)) (.unqueue hs))) (.chRetest hs))
  · exact .ite hs (.ite (.wentDark (.unqueue hs)) (.domDark (.unqueue hs)))

theorem State.Form.bistStores {scope : Nat} (hs : s.Form κ) : (bistStores scope s).Form κ :=
  .via (fun ht => .ite (.memWf ht (smWf_filter _ _ _)) ht) (.ite (.memTo (.setTest ⟨hs.on⟩)) hs)

theorem State.Form.bistEnd {result : Nat} {r : Ref} {entries : List (Nat × Nat × Nat × Nat × Nat × Nat)} (hs : s.Form κ) :
    (bistEnd result r entries s).Form κ := by
  unfold Machine.bistEnd
  split
  · exact hs
  · extract_lets
    split
    · exact .endOp (.offer (.setF (.setB (.setTest (.bistStores (.each (fun _ _ ht => .bistReturn ht) hs))))))
    · exact .offer (.setF (.setB (.setTest (.bistStores (.each (fun _ _ ht => .bistReturn ht) hs)))))

theorem NextForm.execBistComplete {entries : List (Nat × Nat × Nat × Nat × Nat × Nat)} (hs : s.Form κ) :
    NextForm κ (execBistComplete entries s) :=
  .ite (.ok hs) (.ok (.bistEnd hs))

theorem NextForm.execBistAbort (hs : s.Form κ) : NextForm κ (execBistAbort s) := .ok (.bistEnd hs)

theorem State.Form.chLoop {n d atten : Nat} (hs : s.Form κ) : (chLoop n d atten s).Form κ :=
  .via (fun ht => .ite (.muteFollow ht) (.acqRestart (.muteFollow ht))) (.ite (.rxLosClear (.setLine (.setF (.setF hs)))) (.setLine
    (.setF (.setF hs))))

theorem cmdLoopbackSet_keepsForm : cmdLoopbackSet.KeepsForm := fun _ _ _ hs => by
  dsimp only [cmdLoopbackSet]
  split
  · exact .error
  · exact .ite (.ok (.ite (.offer (.chLoop (.laneLoopClear hs))) (.laneLoopClear hs))) (.ite (.ok (.offer (.setF hs))) (.ok (.offer
      (.chLoop hs))))

theorem State.Form.patStop {n : Nat} (hs : s.Form κ) : (patStop n s).Form κ := .setB hs

theorem State.Form.patSet {n : Nat} {gen chk : Bool} (hs : s.Form κ) : (patSet n gen chk s).Form κ := by
  unfold Machine.patSet
  extract_lets starts t p p2 p3 u v
  have ht : t.Form κ := .ite (.withFree hs) hs
  have hv : v.Form κ := .setB (.setB ⟨ht.on⟩)
  exact .ite (.offer (.setB hv)) hv

theorem cmdPatternSet_keepsForm : cmdPatternSet.KeepsForm := fun _ _ _ hs => .ite .error (.ite .error (.ok (.patSet hs)))

theorem NextForm.execPatErrRead {n : Ch} (hs : s.Form κ) : NextForm κ (execPatErrRead n s) := .ok (.ite (.put (.unreg hs)) (.put hs))

theorem State.Form.useFuse (hs : s.Form κ) : (useFuse s).Form κ := .setF (.lifeDue ⟨hs.on⟩)

theorem cmdRepairApply_keepsForm {blown : Bool} : (cmdRepairApply blown).KeepsForm := fun _ _ _ hs =>
  .ite .error (.ite .error (.ite .error (.ite (.ok (.offer (.setTest hs))) (.ite (.ok (.offer (.setTest hs)))
    (.ite (.ok (.useFuse hs)) (.ok (.offer (.useFuse (.setTest hs)))))))))

theorem State.Form.capFire {a : CapArm} (hs : s.Form κ) : (capFire a s).Form κ := .setTest hs

theorem cmdCaptureArm_keepsForm : cmdCaptureArm.KeepsForm := fun _ _ _ hs =>
  .ite .error (.ite .error (.ok (.ite (.capFire (.setB (.memTo ⟨hs.on⟩))) (.setB (.memTo ⟨hs.on⟩)))))

theorem NextForm.execCaptureTrigger (hs : s.Form κ) : NextForm κ (execCaptureTrigger s) := by
  unfold Machine.execCaptureTrigger
  split
  · exact .ite (.ok hs) (.ok (.capFire hs))
  · exact .ok hs

theorem State.Form.capNotice {num flags : Nat} (hs : s.Form κ) : (capNotice num flags s).Form κ := by
  unfold Machine.capNotice
  split
  · exact .endOp hs
  · exact hs

theorem NextForm.execCaptureDrained (hs : s.Form κ) : NextForm κ (execCaptureDrained s) := by
  unfold Machine.execCaptureDrained
  split
  · exact .ok hs
  · exact .ite (.ok hs) (.ok (.capNotice (.offer (.setB (.setTest hs)))))

theorem cmdCaptureRead_keepsForm : cmdCaptureRead.KeepsForm := fun _ _ _ hs => by
  dsimp only [cmdCaptureRead]
  split
  · exact .ok hs
  · exact .error

theorem cmdCaptureCancel_keepsForm : cmdCaptureCancel.KeepsForm := fun _ _ _ hs => by
  dsimp only [cmdCaptureCancel]
  split
  · exact .error
  · exact .ite (.ok hs) (.ok (.capNotice (.setB (.setTest hs))))

/-! ### The operations of `Machine/Cue` -/

theorem State.Form.cueOver {b fn : Nat} (hs : s.Form κ) : (cueOver b fn s).Form κ := .cueDone ⟨hs.on⟩

theorem State.Form.halfRun {b fn : Nat} (hs : s.Form κ) : (halfRun b fn s).Form κ :=
  .ite (.halfTakes hs) (.toEqualiser (.ite (.rxDown (.halfTakes hs)) (.halfTakes hs)))

theorem State.Form.startHalf {b : Nat} {p : Pending} (hs : s.Form κ) : (startHalf b p s).Form κ := .ite hs (.halfShow ⟨hs.on⟩)

theorem State.Form.placeHalf {b fn : Nat} {p : Pending} {was : State} (hs : s.Form κ) : (placeHalf b fn p was s).Form κ := by
  unfold Machine.placeHalf
  extract_lets n f put
  have hp {h : RxHalf} : (put h).Form κ := .halfShow ⟨hs.on⟩
  clear_value put
  split
  · exact .ite (.cueOver hs) hp
  · exact .halfRun hp

theorem State.Form.pathFresh {n : Nat} (hs : s.Form κ) : (pathFresh n s).Form κ := .setDefect (.setDefect (.setOh hs))

theorem State.Form.roleFollow {n was : Nat} (hs : s.Form κ) : (roleFollow n was s).Form κ :=
  .ite hs (.via (fun ht => .ite (.countRanged ht) (.ite (.rxStart (.rxTo (.countRanged ht))) (.leafFollow (.ite (.pathFresh (.rxTo
    (.countRanged ht))) (.countRanged ht))))) (.unreg (.unreg (.unreg (.setLeaf (.setHub hs))))))

theorem State.Form.chanFollow {n : Nat} (hs : s.Form κ) : (chanFollow n s).Form κ :=
  .cphRefresh (.timChange (.injFollow (.muteFollow (.fabRefresh hs))))

theorem State.Form.lineForce {n fn : Nat} {r : Rehearsal} {p : Pending} (hs : s.Form κ) : (lineForce n fn r p s).Form κ :=
  .ite (.chanFollow (.cueOver (.dropSession (.intoForce hs)))) (.placeHalf (.chanFollow (.roleFollow (.offer (.ite (.gather (.dropSession
    (.intoForce hs))) (.dropSession (.intoForce hs)))))))

theorem State.Form.slotsForce {n fn : Nat} {r : Rehearsal} {p : Pending} (hs : s.Form κ) : (slotsForce n fn r p s).Form κ :=
  .via (fun ht => .via (fun hu => .via (fun hv2 => .ite (.chanFollow (.slotsRx (.cueOver hv2))) (.placeHalf (.chanFollow hv2))) (.ite hu
    (.queueDomain hu))) (.each (fun _ _ hu => .freeSet hu) (.ite (.patStop (.setOh ht)) (.setOh ht)))) (.each (fun _ _ ht => .each
    (fun _ _ hu => .cntClear hu) ht) (.dropSession (.intoForce hs)))

theorem State.Form.grantsForce {n : Nat} {r : Rehearsal} (hs : s.Form κ) : (grantsForce n r s).Form κ := by
  refine .cueOver (.setB (.setHub ?_))
  split
  · exact .offer (.countRanged (.dropSession (.intoForce hs)))
  · exact .countRanged (.dropSession (.intoForce hs))

theorem State.Form.pairForce {p fn : Nat} {r : Rehearsal} (hs : s.Form κ) : (pairForce p fn r s).Form κ :=
  .via (fun ht => .cueOver (.chanFollow (.chanFollow (.ite ht (.chanFollow (.chanFollow ht)))))) (.ite (.pairStart (.ite (.queueDomain
    (.dropSession (.intoForce hs))) (.dropSession (.intoForce hs)))) (.ite (.pairStop (.dropSession (.intoForce hs))) (.ite (.via
    (fun ht => .mrgEval (.mrgGlobal (.ite ht (.ite (.offer (.wtrOff ht)) (.setF ht))))) (.ite (.dropSession (.intoForce hs)) (.ite
    (.storeLost (.offer (.dropSession (.intoForce hs)))) (.storeNear (.offer (.dropSession (.intoForce hs))))))) (.dropSession
    (.intoForce hs)))))

theorem State.Form.cueForce {b fn : Nat} {r : Rehearsal} {p : Pending} (hs : s.Form κ) : (cueForce b fn r p s).Form κ :=
  .ite (.lineForce hs) (.ite (.cueOver (.dropSession (.intoForce hs))) (.ite (.slotsForce hs) (.ite (.grantsForce hs) (.pairForce hs))))

theorem State.Form.carryOut {b fn : Nat} (hs : s.Form κ) : (carryOut b fn s).Form κ := by
  unfold Machine.carryOut
  split
  · exact hs
  · split
    · exact hs
    · extract_lets
      split
      · exact .cueRefused hs
      · exact .cueForce hs

theorem NextForm.execCueCarriedOut {block frame : Nat} (hs : s.Form κ) : NextForm κ (execCueCarriedOut block frame s) := by
  refine .ite (.ok hs) ?_
  split
  · exact .ok hs
  · split
    · exact .ok hs
    · exact .ite (.ok hs) (.ok (.carryOut hs))

theorem NextForm.execLineCueRxHalf {n : Ch} {slots : Bool} {frame : Nat} (hs : s.Form κ) : NextForm κ (execLineCueRxHalf n slots frame s) :=
  by
  unfold Machine.execLineCueRxHalf
  extract_lets
  split
  · exact .ok hs
  · exact .ok (.ite (.halfRun hs) hs)

theorem NextForm.execRotationBoundary {n : Ch} {corr : List (Nat × Int × Int × Int)} (hs : s.Form κ) :
    NextForm κ (execRotationBoundary n corr s) :=
  .ok (.rotationBoundary (.carryOut hs))

theorem NextForm.execGrantMapInForce {n : Ch} (hs : s.Form κ) : NextForm κ (execGrantMapInForce n s) := by
  unfold Machine.execGrantMapInForce
  split
  · exact .ok hs
  · exact .ite (.ok hs) (.ok (.carryOut hs))

theorem State.Form.announceMap {n : Nat} (hs : s.Form κ) : (announceMap n s).Form κ := .setB (.setHub hs)

theorem State.Form.setCue {b : Nat} {p : Pending} (hs : s.Form κ) : (setCue b p s).Form κ := .startHalf (.setSession hs)

theorem cmdCue_keepsForm : cmdCue.KeepsForm := fun _ _ _ hs => .ownSession fun _ => by
  refine .ite .error ?_
  dsimp only
  split
  · exact .error
  · exact .via (fun h => .ite (.ok h) (.ok h)) (.via (fun h => .ite (.announceMap h) h) (.setCue hs))

theorem NextForm.cueServed {c : Cmd} {b : Request → Nat} {q : Request} (hc : c.KeepsForm) (hs : s.Form κ) :
    NextForm κ (cueServed c b q s) :=
  .ite (.serve hc hs) (.ok (.ite (.carryOut (.serveState hc hs)) (.serveState hc hs)))

theorem cmdStageGet_keepsForm : cmdStageGet.KeepsForm := fun _ _ _ hs => by
  refine .ite (.ok hs) ?_
  split
  · exact .ok hs
  · exact .error

theorem BodyForm.implicitCue {b code : Nat} {q : Request} {words : List (Nat × Word)} (hs : s.Form κ) :
    BodyForm κ (implicitCue b code q words s) := by
  unfold Machine.implicitCue
  split
  · exact .error
  · exact .ok (.setCue (.setSession (.openSession hs)))

theorem cmdPairCreate_keepsForm : cmdPairCreate.KeepsForm := fun _ _ _ hs => by
  dsimp only [cmdPairCreate]
  split
  · exact .error
  · exact .ite .error (.implicitCue hs)

theorem cmdPairDelete_keepsForm : cmdPairDelete.KeepsForm := fun _ _ _ hs => by
  dsimp only [cmdPairDelete]
  split
  · exact .error
  · exact .ite .error (.implicitCue hs)

theorem cmdDvIdent_keepsForm : cmdDvIdent.KeepsForm := fun _ _ _ hs => .ok hs

theorem cmdDvChanSet_keepsForm : cmdDvChanSet.KeepsForm := fun _ _ _ hs => .ok ⟨hs.on⟩

theorem cmdDvPmRead_keepsForm : cmdDvPmRead.KeepsForm := fun _ _ _ hs => .ok hs

theorem cmdDvPmClear_keepsForm : cmdDvPmClear.KeepsForm := fun _ _ _ hs => .ok (.setOh hs)

theorem cmdDvAlarms_keepsForm : cmdDvAlarms.KeepsForm := fun _ _ _ hs => .ok hs

theorem cmdDvTxEnable_keepsForm : cmdDvTxEnable.KeepsForm := fun _ _ _ hs => .ite .error (.ok (.muteFollow (.setEng hs)))

theorem cmdDvRateSet_keepsForm : cmdDvRateSet.KeepsForm := fun _ _ _ hs => by
  dsimp only [cmdDvRateSet]
  split
  · exact .error
  · exact .implicitCue hs

/-! ### The operations of `Machine/RegAccess` -/

theorem State.Form.cfgError {f : Fld} {off : Nat} (hs : s.Form κ) : (cfgError f off s).Form κ := .setB (.ite (.wr hs) hs)

theorem State.Form.writeLive {off : Nat} {w : Word} (hs : s.Form κ) : (writeLive off w s).Form κ := .wr hs

theorem State.Form.writeDark {off : Nat} {w : Word} (hs : s.Form κ) : (writeDark off w s).Form κ := by
  refine .ite hs ?_
  split
  · exact hs
  · exact .ite (.wr hs) (.cfgError hs)

theorem State.Form.writeCue {off : Nat} {w : Word} (hs : s.Form κ) : (writeCue off w s).Form κ := by
  unfold Machine.writeCue
  split
  · exact hs
  · extract_lets
    split
    · exact .ite (.setSession hs) (.ite hs (.cfgError hs))
    · exact .ite hs (.cfgError hs)

theorem State.Form.chWritten {n k : Nat} {w : Word} (hs : s.Form κ) : (chWritten n k w s).Form κ :=
  .ite (.muteFollow (.ite (.setB hs) hs)) (.ite (.ite (.acqRestart hs) hs) (.ite (.injFollow hs) (.ite (.timDefect (.ptDefects hs)) hs)))

theorem State.Form.avsWritten (hs : s.Form κ) : (avsWritten s).Form κ := .ite hs (.setBoot (.setB (.setF hs)))

theorem State.Form.written {off : Nat} {w : Word} {was : State} (hs : s.Form κ) : (written off w was s).Form κ := by
  refine .ite (.fabWritten hs) (.ite ⟨hs.on⟩ (.ite (.wakeCtrl hs) (.ite (.avsWritten hs) (.ite (.timWritten hs) (.ite (.ite
    (.monClear hs) hs)
    (.ite (.monWritten hs) (.ite (.ite (.mrgEval hs) hs) (.ite (.ite (.mrgEval hs) hs) ?_))))))))
  split
  · exact .chWritten hs
  · exact hs

theorem State.Form.writeShared {off : Nat} {w : Word} (hs : s.Form κ) : (writeShared off w s).Form κ :=
  .ite (.cfgError hs) (.written (.ite hs (.writeCue (.writeDark (.writeLive hs)))))

theorem State.Form.writeQueue {f : Pr} {hgc : Option Ch} {k : Nat} {w : Word} (hs : s.Form κ) : (writeQueue f hgc k w s).Form κ :=
  .ite (.queueWrite hs) (.ite (.queueWrite hs) (.ite (.ite (.onQueue hs) hs) (.ite (.onQueue (.ite (.releaseQueue hs) hs)) hs)))

theorem State.Form.writeOwn {f : Pr} {off : Nat} {w : Word} (hs : s.Form κ) : (writeOwn f off w s).Form κ :=
  .ite (.armVectors hs) (.ite (.msixTake hs) (.ite (.writeQueue (.writeLive hs)) (.writeLive hs)))

theorem State.Form.dlWrite {off : Nat} {w : Word} (hs : s.Form κ) : (dlWrite off w s).Form κ := ⟨hs.on⟩

theorem State.Form.writeEarly {f : Pr} {off : Nat} {w : Word} (hs : s.Form κ) : (writeEarly f off w s).Form κ :=
  .ite hs (.ite (.earlyWord hs) (.ite hs (.ite (.writeLive hs) (.ite (.dlWrite hs) hs))))

theorem State.Form.cntHiWrite {off : Nat} {w : Word} (hs : s.Form κ) : (cntHiWrite off w s).Form κ := by
  unfold Machine.cntHiWrite
  split
  · exact .ite (.cntUnwrap hs) hs
  · exact hs

theorem State.Form.writeZero {off : Nat} {w : Word} (hs : s.Form κ) : (writeZero off w s).Form κ :=
  .ite (.cntHiWrite hs) (.ite (.writeQueue (.writeLive hs)) (.ite (.ite (.wr hs) (.wr hs)) (.writeShared hs)))

theorem State.Form.regWrite {f : Pr} {off : Nat} {w : Word} (hs : s.Form κ) : (regWrite f off w s).Form κ :=
  .ite hs (.ite (.writeEarly hs) (.ite (.writeOwn hs) (.ite (.writeZero hs) hs)))

theorem NextForm.execRegisterWrite {f : Pr} {off : Nat} {v : Word} (hs : s.Form κ) : NextForm κ (execRegisterWrite f off v s) :=
  .ok (.regWrite hs)

theorem State.Form.i2cRead {off : Nat} (hs : s.Form κ) : (i2cRead off s).Form κ := by
  refine .ite (.put (.setRl hs)) (.ite (.todLoRead hs) (.ite (.monQ0Read hs) (.ite (.put hs) (.ite (.put (.unreg hs)) (.ite (.mrgOcc
    (.put (.unreg hs))) (.ite (.hgcRead hs) ?_))))))
  split
  · exact .ite (.put (.setRl hs)) (.ite (.put (.unreg hs)) (.put hs))
  · exact .put hs

theorem NextForm.execI2cRegisterRead {addr : Fin 128} {off : Nat} (hs : s.Form κ) : NextForm κ (execI2cRegisterRead addr off s) :=
  .ite (.ok hs) (.ok (.withOut (.ite (.i2cRead (.wakeFires hs)) (.put (.wakeFires hs)))))

/-! ### The operations of `Machine/Dispatch` -/

theorem NextForm.exec {i : Instr} (hs : s.Form κ) : NextForm κ (exec i s) := by
  unfold Machine.exec
  split
  · exact .execPowerOnReset
  · exact .execResetNLow hs
  · exact .execResetNRelease hs
  · exact .execPerstNLow hs
  · exact .execLinkUpAfterEndpointReset hs
  · exact .execWatchdogExpiry hs
  · exact .execBrownOutHoldEnd hs
  · exact .execRailBelowThreshold hs
  · exact .execRailRemovedInDarkHouse hs
  · exact .execReceptacleRemoved hs
  · exact .execReceptacleFitted hs
  · exact .execTemperatureCompare hs
  · exact .execThermtripRecheck hs
  · exact .execAvsEvaluation hs
  · exact .execHeaterUnregulated hs
  · exact .execEngineOvertemperature hs
  · exact .execHouseClockLocked hs
  · exact .execFusesLoaded hs
  · exact .execPcieLinkUp hs
  · exact .execImageVerified hs
  · exact .execDownloadGo hs
  · exact .execHbmStartComplete hs
  · exact .execReady hs
  · exact .execStartQueueDispatch hs
  · exact .execQuadReachesL0 hs
  · exact .execChannelActive hs
  · exact .execMalformedPacket hs
  · exact .execUnassignedDestPacket hs
  · exact .execPreReadyRequest hs
  · exact .execMbxReqDataWrite hs
  · exact .execMbxReqEndWrite hs
  · exact .execMbxReqCancel hs
  · exact .execMbxRspDataRead hs
  · exact .execMbxRspMark hs
  · exact .execMbxRspRewind hs
  · exact .execMbxRspRelease hs
  · exact .execReplyPacketQueued hs
  · exact .execI2cRegisterRead hs
  · exact .execI2cRequestWrite hs
  · exact .execI2cReplyRead hs
  · exact .execI2cCreditRead hs
  · exact .execRegisterWrite hs
  · exact .execCommandTimeout hs
  · exact .serve cmdNop_keepsForm hs
  · exact .serve cmdIdentify_keepsForm hs
  · exact .serve cmdClaim_keepsForm hs
  · exact .serve cmdRelease_keepsForm hs
  · exact .serve cmdClaimQuery_keepsForm hs
  · exact .serve cmdStageOpen_keepsForm hs
  · exact .serve cmdStageSet_keepsForm hs
  · exact .cueServed cmdCue_keepsForm hs
  · exact .execCueCarriedOut hs
  · exact .execLineCueRxHalf hs
  · exact .serve cmdStageAbandon_keepsForm hs
  · exact .serve cmdStageGet_keepsForm hs
  · exact .serve cmdAccessSet_keepsForm hs
  · exact .serve cmdSysReset_keepsForm hs
  · exact .serve cmdFwSvnCommit_keepsForm hs
  · exact .serve cmdDvIdent_keepsForm hs
  · exact .serve cmdDvChanSet_keepsForm hs
  · exact .serve cmdDvPmRead_keepsForm hs
  · exact .serve cmdDvPmClear_keepsForm hs
  · exact .serve cmdDvAlarms_keepsForm hs
  · exact .serve cmdDvTxEnable_keepsForm hs
  · exact .cueServed cmdDvRateSet_keepsForm hs
  · exact .execFeedMeasurement hs
  · exact .execFeedGoodAgain hs
  · exact .execBiasSearchLocked hs
  · exact .execBiasSampleHourly hs
  · exact .execTxRampComplete hs
  · exact .execRxLosSet hs
  · exact .execRxLosCleared hs
  · exact .execRotationBoundary hs
  · exact .execUnderstudyHandover hs
  · exact .execSliceCompare hs
  · exact .execSliceTestComplete hs
  · exact .execDacFault hs
  · exact .execDacTestComplete hs
  · exact .execBiasRecentre hs
  · exact .serve cmdSliceTest_keepsForm hs
  · exact .serve cmdEngReport_keepsForm hs
  · exact .execAcquisitionStart hs
  · exact .execAcquired hs
  · exact .execAcqFail hs
  · exact .execHoldingExpiry hs
  · exact .execReacquiredFromHolding hs
  · exact .execModeSuspect hs
  · exact .execFrequencyTrackingLost hs
  · exact .execAcqRestart hs
  · exact .serve cmdLineAcquire_keepsForm hs
  · exact .serve cmdLineReport_keepsForm hs
  · exact .serve cmdLinePlan_keepsForm hs
  · exact .execGrantStart hs
  · exact .execBurstDetected hs
  · exact .execFalseStart hs
  · exact .execBurstCapture hs
  · exact .execBurstCommit hs
  · exact .execBurstDescriptor hs
  · exact .execBurstCollision hs
  · exact .execBurstCodewordDecoded hs
  · exact .execBurstEnd hs
  · exact .execHubLosSet hs
  · exact .execUpstreamFrameRelease hs
  · exact .execStageDoorOpening hs
  · exact .execDiscoveryBurstReceived hs
  · exact .execStageDoorEntryAged hs
  · exact .execGrantMapInForce hs
  · exact .execRogueLimitCheck hs
  · exact .execFalseStartRateHigh hs
  · exact .execLeafBurstFire hs
  · exact .execLeafDiscoveryFire hs
  · exact .execLeafGrantMessage hs
  · exact .execLeafMapAnnouncement hs
  · exact .execLeafRangingCorrection hs
  · exact .execLeafJoinReply hs
  · exact .execLeafSilenceOrder hs
  · exact .execLeafDownstreamLost hs
  · exact .serve cmdHubSdList_keepsForm hs
  · exact .serve cmdHubLeafAdmit_keepsForm hs
  · exact .serve cmdHubLeafEvict_keepsForm hs
  · exact .serve cmdHubLeafSilence_keepsForm hs
  · exact .serve cmdHubReport_keepsForm hs
  · exact .serve cmdHubLeafReport_keepsForm hs
  · exact .serve cmdLeafJoin_keepsForm hs
  · exact .execFrameTransmitted hs
  · exact .execLineFrameReceived hs
  · exact .execLofTimer hs
  · exact .execFecWindowEnd hs
  · exact .serve cmdFecReport_keepsForm hs
  · exact .serve cmdFecSet_keepsForm hs
  · exact .execPerSecondLatch hs
  · exact .execSecondClassified hs
  · exact .execSubrateOverflow hs
  · exact .serve cmdOhTraceSet_keepsForm hs
  · exact .serve cmdOhTraceGet_keepsForm hs
  · exact .serve cmdDmRun_keepsForm hs
  · exact .serve cmdPerfLatchRead_keepsForm hs
  · exact .execFnLoRead hs
  · exact .execMergeCopyArrival hs
  · exact .execCopyDeclaredMissing hs
  · exact .execFarStorePrefetch hs
  · exact .execLedgerEntryRetired hs
  · exact .execPairWaiting hs
  · exact .execWtrExpiry hs
  · exact .execCrossedTimer hs
  · exact .cueServed cmdPairCreate_keepsForm hs
  · exact .cueServed cmdPairDelete_keepsForm hs
  · exact .serve cmdPairRequest_keepsForm hs
  · exact .serve cmdPairReport_keepsForm hs
  · exact .serve cmdPairLedgerRead_keepsForm hs
  · exact .execOccMaxRead hs
  · exact .serve cmdKeyEstablish_keepsForm hs
  · exact .serve cmdKeyInstall_keepsForm hs
  · exact .execKeyActivate hs
  · exact .execKeyBecomesCurrent hs
  · exact .serve cmdKeyIdentity_keepsForm hs
  · exact .serve cmdKeyZeroise_keepsForm hs
  · exact .serve cmdSessionReport_keepsForm hs
  · exact .serve cmdCipherReport_keepsForm hs
  · exact .execTagVerdictResolved hs
  · exact .execCoreTestComplete hs
  · exact .execIdleUnderstudyTest hs
  · exact .execLaneTrainingComplete hs
  · exact .execLaneTrainingTimeout hs
  · exact .execLaneLos hs
  · exact .execLaneSignalReturn hs
  · exact .execLaneHoldExpiry hs
  · exact .execLaneTestComplete hs
  · exact .execHgcPacketReceived hs
  · exact .serve cmdHostPortReport_keepsForm hs
  · exact .serve cmdHostLaneReport_keepsForm hs
  · exact .serve cmdHostRetrain_keepsForm hs
  · exact .execSelectorEvaluation hs
  · exact .execInputLoa hs
  · exact .execInputFrequencyCheck hs
  · exact .execInputValidated hs
  · exact .execInputWtrExpiry hs
  · exact .execSwitchComplete hs
  · exact .execAcquiringBandwidthStep hs
  · exact .execPpsPulse hs
  · exact .execPpsMissing hs
  · exact .execInternalSecond hs
  · exact .serve cmdTimReport_keepsForm hs
  · exact .serve cmdTimSet_keepsForm hs
  · exact .serve cmdTodStep_keepsForm hs
  · exact .serve cmdTodGet_keepsForm hs
  · exact .execTodLoRead hs
  · exact .execPatrolScrub hs
  · exact .execSramScrub hs
  · exact .execMemoryErrorRecords hs
  · exact .execMemFlipArm hs
  · exact .execMemSflipArm hs
  · exact .serve cmdMemRetire_keepsForm hs
  · exact .serve cmdMemLogRead_keepsForm hs
  · exact .serve cmdMemPpr_keepsForm hs
  · exact .execPprComplete hs
  · exact .serve cmdMemReport_keepsForm hs
  · exact .execFabricDataUnitReceived hs
  · exact .execFabricControlUnitReceived hs
  · exact .execFabricLinkDown hs
  · exact .execFabricUnitSent hs
  · exact .execAdvertisementPeriod hs
  · exact .execAdvertisementReceived hs
  · exact .execRouteExpiry hs
  · exact .execAddressOfferSent hs
  · exact .execAddressOfferReceived hs
  · exact .execForwardedReplyReceived hs
  · exact .execForwardedRequestTimeout hs
  · exact .serve cmdFabReport_keepsForm hs
  · exact .serve cmdFabSet_keepsForm hs
  · exact .serve cmdFabAclSet_keepsForm hs
  · exact .serve cmdFabRouteRead_keepsForm hs
  · exact .execPwrStateSet hs
  · exact .execChannelTransitionComplete hs
  · exact .execDomainTransitionComplete hs
  · exact .execDarkHouseCommit hs
  · exact .execDarkHouseAbort hs
  · exact .execWakeNLow hs
  · exact .execI2cAddressMatch hs
  · exact .execWakeTimerExpiry hs
  · exact .execWake hs
  · exact .execRetentionBanksRestored hs
  · exact .serve cmdPwrReport_keepsForm hs
  · exact .serve cmdPwrWakeSet_keepsForm hs
  · exact .serve cmdPwrAcctRead_keepsForm hs
  · exact .execAcctClear hs
  · exact .execShutdownCauseRead hs
  · exact .execMonitorConversion hs
  · exact .execMonitorRoundBoundary hs
  · exact .execMonitorCalibrationComplete hs
  · exact .execBandgapCheck hs
  · exact .execMonitorDiscardRecord hs
  · exact .execMonQ0Read hs
  · exact .execQClear hs
  · exact .execCounterTick hs
  · exact .execCntLoRead hs
  · exact .execSerialLoRead hs
  · exact .execBandwidthWindowEnd hs
  · exact .execCallboardRecordWritten hs
  · exact .execCallboardArchiveWrite hs
  · exact .serve cmdCntRead_keepsForm hs
  · exact .serve cmdCbRead_keepsForm hs
  · exact .serve cmdCntWindowRead_keepsForm hs
  · exact .serve cmdLifeRead_keepsForm hs
  · exact .serve cmdMonQRead_keepsForm hs
  · exact .execLifeStoreWrite hs
  · exact .execLifeStoreWriteComplete hs
  · exact .serve cmdBistRun_keepsForm hs
  · exact .execBistComplete hs
  · exact .execBistAbort hs
  · exact .serve cmdLoopbackSet_keepsForm hs
  · exact .serve cmdPatternSet_keepsForm hs
  · exact .execPatErrRead hs
  · exact .serve cmdRepairApply_keepsForm hs
  · exact .serve cmdCaptureArm_keepsForm hs
  · exact .execCaptureTrigger hs
  · exact .execCaptureDrained hs
  · exact .serve cmdCaptureRead_keepsForm hs
  · exact .serve cmdCaptureCancel_keepsForm hs
  · exact .execIntRearm hs
  · exact .execMsixUnmask hs
  · exact .execUndefinedOpcode hs
  · exact .execWarmReset hs
  · exact .execRailBackInRange hs
  · exact .execBiasLockLost hs
  · exact .execLaneLockLost hs
  · exact .execPortLockChanged hs
  · exact .execFaultOrderedSetsFromHost hs
  · exact .execLoaCleared hs

/-! ### The operations of `Machine/Step` -/

theorem State.Form.idle (hs : s.Form κ) : (idle s).Form κ := .passTime hs

/-- Every step keeps both invariants. -/
theorem NextForm.step (hs : s.Form κ) : NextForm κ (step s) := by
  unfold Machine.step
  split
  · exact .next (.idle hs)
  · exact .exec ⟨hs.on⟩

end

/-- Settles O59: the step keeps the canonical form, by `NextForm.step`, one lemma for each operation that a command is made of. -/
theorem stepsKeepTheRegisterMap : Obligations.StepsKeepTheRegisterMap := by
  intro s t h e
  have hn : NextForm .regMap (step s) := .step ((form_regMap s).2 h)
  rw [e] at hn
  exact (form_regMap t).1 hn

end Sys2Proof.Machine
end


/-! # Trace, delay measurement, latch and frame number reads (O35) -/
section
namespace Sys2Proof.Machine

open Sys2Proof

/-! ### Bytes of a block -/

@[simp] theorem le_length (k v : Nat) : (le k v).length = k := by
  induction k generalizing v with
  | zero => rfl
  | succ k ih => simp [le, ih]

@[simp] theorem be_length (k v : Nat) : (be k v).length = k := by simp [be]

@[simp] theorem slice_length (bs : List Byte) (off n : Nat) : (slice bs off n).length = n := by
  simp only [slice, List.length_append, List.length_take, List.length_replicate]
  omega

theorem unle_le (k v : Nat) : unle (le k v) = v % 2 ^ (8 * k) := by
  induction k generalizing v with
  | zero => simp [le, unle, Nat.mod_one]
  | succ k ih =>
    have h8 : (2 : Nat) ^ (8 * (k + 1)) = 256 * 2 ^ (8 * k) := by rw [Nat.mul_succ, Nat.add_comm, Nat.pow_add]
    simp only [le, unle, ih, BitVec.toNat_ofNat, h8, Nat.mod_mul]

theorem unbe_be (k v : Nat) : unbe (be k v) = v % 2 ^ (8 * k) := by simp [unbe, be, unle_le]

/-- A slice that lies in the block is a part of it. -/
theorem slice_eq (bs : List Byte) (off n : Nat) (h : off + n ≤ bs.length) : slice bs off n = (bs.drop off).take n := by
  have hl : ((bs.drop off).take n).length = n := by simp; omega
  simp [slice, hl]

/-- The slice of a block between what stands before it and what stands after it. -/
theorem slice_middle (a b c : List Byte) (off n : Nat) (ha : a.length = off) (hb : b.length = n) : slice (a ++ (b ++ c)) off n = b := by
  subst ha hb
  rw [slice_eq _ _ _ (by simp), List.drop_left, List.take_left]

/-- The numbers of a block's fields, most significant byte first. -/
theorem fbe_middle (a c : List Byte) (off n v : Nat) (ha : a.length = off) : fbe (a ++ (be n v ++ c)) off n = v % 2 ^ (8 * n) := by
  rw [fbe, slice_middle _ _ _ _ _ ha (be_length n v), unbe_be]

/-- A slice at the front of a block. -/
theorem slice_front (b c : List Byte) (n : Nat) (hb : b.length = n) : slice (b ++ c) 0 n = b := slice_middle [] b c 0 n rfl hb

/-! ### The trace that a channel sends (R244) -/

theorem traceSent_length (s : State) (n : Nat) : (s.traceSent n).length = 256 := by simp [State.traceSent]

theorem clampN_lt (lo hi v b : Nat) (hl : lo < b) (hh : hi < b) : clampN lo hi v < b := by
  unfold clampN
  split
  · exact hl
  · split <;> omega

/-- The fields of the trace that the channel fills in itself. -/
theorem traceSent_fields (s : State) (n : Nat) :
    slice (s.traceSent n) 0 16 = slice (s.ohOf n).tx.sapi 0 16 ∧ fbe (s.traceSent n) 32 8 = Config.serial.toNat ∧
      fbe (s.traceSent n) 44 4 = s.feedGhz n ∧ fbe (s.traceSent n) 252 4 = (crc32c (slice (s.traceSent n) 0 252)).toNat := by
  have hg : s.feedGhz n < 2 ^ (8 * 4) := clampN_lt _ _ _ _ (by norm_num) (by norm_num)
  unfold State.traceSent
  extract_lets tx pair b
  have hb : b.length = 252 := by simp [b]
  refine ⟨?_, ?_, ?_, ?_⟩
  · simp only [b, List.append_assoc]
    exact slice_front _ _ _ (by simp)
  · generalize be 4 (crc32c b).toNat = k
    have h := fbe_middle (slice tx.sapi 0 16 ++ slice tx.dest 0 16)
      (be 2 s.node ++ (be 1 n ++ (be 1 pair ++ (be 4 (s.feedGhz n) ++ (slice tx.oper 0 204 ++ k))))) 32 8 Config.serial.toNat (by simp)
    simp only [b, List.append_assoc] at h ⊢
    exact h.trans (Nat.mod_eq_of_lt Config.serial.isLt)
  · generalize be 4 (crc32c b).toNat = k
    have h := fbe_middle (slice tx.sapi 0 16 ++ slice tx.dest 0 16 ++ be 8 Config.serial.toNat ++ be 2 s.node ++ be 1 n ++ be 1 pair)
      (slice tx.oper 0 204 ++ k) 44 4 (s.feedGhz n) (by simp)
    simp only [b, List.append_assoc] at h ⊢
    exact h.trans (Nat.mod_eq_of_lt hg)
  · rw [slice_front _ _ _ hb]
    have h := fbe_middle b [] 252 4 (crc32c b).toNat hb
    rw [List.append_nil] at h
    rw [h]
    exact Nat.mod_eq_of_lt (crc32c b).isLt

/-! ### Defects (R248) -/

theorem bit_eq_testBit (v k : Nat) : bit v k = v.testBit k := by
  rw [bit, Nat.testBit_eq_decide_div_mod_eq, beq_eq_decide]

theorem bit_mod_pow (v k w : Nat) (h : k < w) : bit (v % 2 ^ w) k = bit v k := by
  simp [bit_eq_testBit, Nat.testBit_mod_two_pow, h]

theorem bit_withBit (v k : Nat) (on : Bool) : bit (withBit v k on) k = on := by
  have hp : 0 < 2 ^ k := Nat.two_pow_pos k
  unfold withBit
  split
  · assumption
  next h =>
    cases on with
    | true =>
      have h0 : v / 2 ^ k % 2 ≠ 1 := by simpa [bit] using h
      simp only [bit, if_true, Nat.add_div_right _ hp, beq_iff_eq]
      omega
    | false =>
      have h1 : v / 2 ^ k % 2 = 1 := by simpa [bit] using h
      have h2 : v - 2 ^ k * 1 = v - 2 ^ k := by rw [Nat.mul_one]
      simp only [bit, Bool.false_eq_true, if_false, beq_eq_false_iff_ne, ne_eq, ← h2, Nat.sub_mul_div]
      omega

theorem rOH_RX_STATUS_ne_cb (n : Nat) : rOH_RX_STATUS n ≠ rCB_STATUS := by
  unfold rOH_RX_STATUS chBase rCB_STATUS
  omega

theorem gather_regs (n : Nat) (f : SecAcc → SecAcc) (s : State) : (gather n f s).regs = s.regs := rfl

/-- A record of a defect changes no defect. -/
theorem fld_defectRec (n k c : Nat) (on : Bool) (s : State) :
    (defectRec n k c on s).fld (fOH_RX_STATUS_DEFECTS n) = s.fld (fOH_RX_STATUS_DEFECTS n) := by
  unfold defectRec
  rw [fld_offer _ _ _ _ _ _ (rOH_RX_STATUS_ne_cb n)]
  cases on with
  | false => rfl
  | true =>
    simp only [if_true]
    rw [State.fld_congr (gather_regs n _ _), State.fld_setF_apart _ _ _ _ (by simp [Fld.ok]) (by simp [Fld.apart])]

theorem OnlyRegs.defectRec {l : List Nat} {s t : State} (h : OnlyRegs l s t) (n k c : Nat) (on : Bool) (hm : rOH_RX_STATUS n ∈ l) :
    OnlyRegs l s (defectRec n k c on t) := by
  refine OnlyRegs.offer ?_ _ _ _ _
  cases on with
  | false => exact h
  | true =>
    have hs : OnlyRegs l s (t.setF (fOH_RX_STATUS_SEEN n) (withBit (t.fld (fOH_RX_STATUS_SEEN n)) k true)) := h.setF _ hm
    simp only [if_true]
    exact hs.trans (.of_regs (gather_regs n _ _))

theorem OnlyRegs.setDefect {l : List Nat} {s t : State} (h : OnlyRegs l s t) (n k : Nat) (on : Bool) (hm : rOH_RX_STATUS n ∈ l) :
    OnlyRegs l s (setDefect n k on t) := by
  unfold Machine.setDefect
  split
  · exact h
  · have hs : OnlyRegs l s (t.setF (fOH_RX_STATUS_DEFECTS n) (withBit (t.fld (fOH_RX_STATUS_DEFECTS n)) k on)) := h.setF _ hm
    exact hs.defectRec n k 0 on hm

/-- A defect that is set or cleared reads so. -/
theorem defect_setDefect (n k : Nat) (on : Bool) (s : State) (hk : k < 11) : (setDefect n k on s).defect n k = on := by
  unfold setDefect
  split
  · assumption
  · rw [State.defect, fld_defectRec, State.fld_setF_same _ _ _ (by simp [Fld.ok]), bit_mod_pow _ _ _ hk, bit_withBit]

/-- A change of a defect leaves the framer of every channel as it was. -/
theorem setDefect_tx (n k : Nat) (on : Bool) (s : State) (c : Nat) : ((setDefect n k on s).ohOf c).tx = (s.ohOf c).tx := by
  unfold setDefect
  split
  · rfl
  · cases on with
    | false => simp [defectRec, State.ohOf]
    | true =>
      simp only [defectRec, if_true, State.ohOf, offer_oh, gather, setOh, State.setF_oh]
      by_cases hc : ch4 c = ch4 n
      · simp [hc]
      · rw [Four.get_set_other _ _ _ _ hc]

/-! ### Reads of HBM -/

/-- An entry in the log of HBM errors changes counters and the memory's own state only. -/
theorem logErr_other (k die : Nat) (unc lasting : Bool) (s : State) :
    logErr k die unc lasting s = { s with cnt := (logErr k die unc lasting s).cnt, mem := (logErr k die unc lasting s).mem } := by
  unfold logErr
  cases unc <;> rfl

theorem readCw_other (k : Nat) (err : BitVec 256) (s : State) :
    (readCw k err s).2 = { s with cnt := (readCw k err s).2.cnt, mem := (readCw k err s).2.mem } := by
  unfold readCw
  split
  · rfl
  · dsimp only
    split
    · rfl
    · exact logErr_other _ _ _ _ s
    · exact logErr_other _ _ _ _ s

theorem hbmReadFrom_other (errs : List (Nat × BitVec 256)) (fuel addr n : Nat) (s : State) :
    (hbmReadFrom errs fuel addr n s).2 = { s with cnt := (hbmReadFrom errs fuel addr n s).2.cnt, mem := (hbmReadFrom errs fuel addr n s).2.mem } := by
  induction fuel generalizing addr n s with
  | zero => rfl
  | succ fuel ih =>
    unfold hbmReadFrom
    split
    · rfl
    · dsimp only
      rw [ih, readCw_other]

/-- A read of HBM changes counters and the memory's own state only. -/
theorem hbmRead_other (errs : List (Nat × BitVec 256)) (addr n : Nat) (s : State) :
    (hbmRead errs addr n s).2 = { s with cnt := (hbmRead errs addr n s).2.cnt, mem := (hbmRead errs addr n s).2.mem } :=
  hbmReadFrom_other errs _ addr n s

@[simp] theorem hbmRead_regs (errs : List (Nat × BitVec 256)) (addr n : Nat) (s : State) : (hbmRead errs addr n s).2.regs = s.regs := by
  rw [hbmRead_other]

@[simp] theorem hbmRead_oh (errs : List (Nat × BitVec 256)) (addr n : Nat) (s : State) : (hbmRead errs addr n s).2.oh = s.oh := by
  rw [hbmRead_other]

theorem readCw_length (k : Nat) (err : BitVec 256) (s : State) (d : List Byte) (h : (readCw k err s).1 = some d) : d.length = 28 := by
  unfold readCw at h
  split at h
  · cases h
  · dsimp only at h
    split at h
    · cases h
      exact le_length 28 _
    · cases h
      exact le_length 28 _
    · cases h

theorem hbmReadFrom_length (errs : List (Nat × BitVec 256)) (fuel addr n : Nat) (s : State) (h : addr % 28 + n ≤ 28 * fuel) :
    (hbmReadFrom errs fuel addr n s).1.1.length = n := by
  induction fuel generalizing addr n s with
  | zero =>
    have hn : n = 0 := by omega
    rw [hn]
    rfl
  | succ fuel ih =>
    unfold hbmReadFrom
    split
    next hn => exact hn.symm
    next hn =>
      dsimp only
      rw [List.length_append, ih _ _ _ (by omega)]
      split
      next d hd =>
        rw [List.length_take, List.length_drop, readCw_length _ _ _ _ hd]
        omega
      next =>
        rw [List.length_replicate]
        omega

theorem hbmRead_length (errs : List (Nat × BitVec 256)) (addr n : Nat) (s : State) : (hbmRead errs addr n s).1.1.length = n :=
  hbmReadFrom_length errs _ addr n s (by omega)

/-! ### Latch records (R249) -/

/-- The latch records of some seconds are 64 bytes each; reading them changes neither registers nor the frame path. -/
theorem readLatches_spec (n : Nat) (ks : List Nat) (s : State) :
    (readLatches n ks s).1.length = 64 * ks.length ∧ (readLatches n ks s).2.oh = s.oh ∧ (readLatches n ks s).2.regs = s.regs := by
  induction ks generalizing s with
  | nil => exact ⟨rfl, rfl, rfl⟩
  | cons k ks ih =>
    unfold readLatches
    split
    next b t e =>
      have hb : b.length = 64 ∧ t.oh = s.oh ∧ t.regs = s.regs := by
        split at e
        · have hl := hbmRead_length [] (latchAddr n k) 64 s
          have ho := hbmRead_oh [] (latchAddr n k) 64 s
          have hr := hbmRead_regs [] (latchAddr n k) 64 s
          generalize hbmRead [] (latchAddr n k) 64 s = r at e hl ho hr
          cases e
          refine ⟨?_, ho, hr⟩
          split
          · exact hl
          · simp
        · cases e
          exact ⟨slice_length _ _ _, rfl, rfl⟩
      obtain ⟨hl, ho, hr⟩ := hb
      obtain ⟨il, io, ir⟩ := ih t
      dsimp only
      refine ⟨?_, io.trans ho, ir.trans hr⟩
      rw [List.length_append, hl, il, List.length_cons]
      omega

/-- Without HBM a record is the one that is kept, and reading changes nothing. -/
theorem readLatches_kept (n k : Nat) (ks : List Nat) (s : State) (h : s.flag fMEM_STATUS_HBM_READY = false) :
    (readLatches n ks s).2 = s ∧
      ∃ r, (readLatches n (k :: ks) s).1 = slice ((smLookup (s.ohOf n).latches k).getD []) 0 64 ++ r := by
  have hs : ∀ ks, (readLatches n ks s).2 = s := by
    intro ks
    induction ks with
    | nil => rfl
    | cons k ks ih =>
      unfold readLatches
      simp only [h, Bool.false_eq_true, if_false]
      exact ih
  refine ⟨hs ks, (readLatches n ks s).1, ?_⟩
  rw [readLatches]
  simp only [h, Bool.false_eq_true, if_false]

/-! ### The requests of R252 -/

theorem filt_setOh_same (n : Nat) (o : OhSt) (s : State) : (setOh n o s).filt n = o.filt := congrArg OhSt.filt (Four.get_set_same s.oh (ch4 n) o)

theorem State.flag_congr {s t : State} (h : t.regs = s.regs) (f : Fld) : t.flag f = s.flag f := by simp [State.flag, State.fld_congr h]

theorem ohOf_setOh_same (n : Nat) (o : OhSt) (s : State) : (setOh n o s).ohOf n = o := Four.get_set_same _ _ _

theorem firstBad_none (l : List (Bool × Nat)) : firstBad l = none ↔ ∀ e ∈ l, e.1 = false := by
  induction l with
  | nil => simp [firstBad]
  | cons e l ih =>
    obtain ⟨b, off⟩ := e
    cases b <;> simp [firstBad, ih]

/-- `OH_TRACE_SET` keeps what is to be sent and expected, and the TIM defect follows the new SAPI. -/
theorem ohTraceSet_body (q : Request) (t : State) (hp : t.notP2p (fld q.params 0 1) = false) :
    ∃ o, cmdOhTraceSet.body q t = .ok (timDefect (fld q.params 0 1) (setOh (fld q.params 0 1) o t), .done []) ∧
      o.tx.pend = some (slice q.params 4 16, slice q.params 20 16, slice q.params 52 204) ∧ o.tx.expSapi = slice q.params 36 16 ∧
      o.tx.sapi = (t.ohOf (fld q.params 0 1)).tx.sapi ∧ o.filt = t.filt (fld q.params 0 1) := by
  exact ⟨_, if_neg (Bool.eq_false_iff.1 hp), rfl, rfl, rfl, rfl⟩

/-- `PERF_LATCH_READ` with HBM: the records from some second on. -/
theorem perfLatchRead_body_hbm (q : Request) (t : State) (hi : t.fld (fLINE_MODE_IOP (fld q.params 0 1)) = 0)
    (hr : t.flag fMEM_STATUS_HBM_READY = true) : ∃ k, cmdPerfLatchRead.body q t =
      .ok ((readLatches (fld q.params 0 1) (span k (fld q.params 1 1)) t).2,
        .done (readLatches (fld q.params 0 1) (span k (fld q.params 1 1)) t).1) := by
  exact ⟨_, if_neg (by simp [hi, hr])⟩

/-- Without HBM: the records from the second that is kept, where the timestamp lies in it. -/
theorem perfLatchRead_body_kept (q : Request) (t : State) (k : Nat) (b : List Byte) (hi : t.fld (fLINE_MODE_IOP (fld q.params 0 1)) = 0)
    (hl : (t.ohOf (fld q.params 0 1)).latches = [(k, b)]) (h1 : fld q.params 4 8 ≤ fld b 0 8) (h2 : fld b 0 8 < fld q.params 4 8 + 1000000000) :
    cmdPerfLatchRead.body q t =
      .ok ((readLatches (fld q.params 0 1) (span k (fld q.params 1 1)) t).2,
        .done (readLatches (fld q.params 0 1) (span k (fld q.params 1 1)) t).1) := by
  simp [cmdPerfLatchRead, hi, hl, h1, h2]

/-- Refused: an interoperable mode, or without HBM a second that is not kept. -/
theorem perfLatchRead_body_error (q : Request) (t : State)
    (h : t.fld (fLINE_MODE_IOP (fld q.params 0 1)) ≠ 0 ∨ (t.flag fMEM_STATUS_HBM_READY = false ∧
      ∀ k b, (k, b) ∈ (t.ohOf (fld q.params 0 1)).latches → fld b 0 8 < fld q.params 4 8)) :
    cmdPerfLatchRead.body q t = .error { status := stWRONG_STATE } := by
  rcases h with hi | ⟨hr, hl⟩
  · simp [cmdPerfLatchRead, hi]
  · cases hrev : (t.ohOf (fld q.params 0 1)).latches.reverse with
    | nil => simp [cmdPerfLatchRead, hr, hrev]
    | cons e es =>
      have hlt := hl e.1 e.2 (by rw [← List.mem_reverse, hrev]; exact List.mem_cons_self)
      simp [cmdPerfLatchRead, hr, hrev, Nat.not_le.2 hlt]

/-- A read of a frame number at READY: the low word, and the high one latched for the requester. -/
theorem fnLoRead_next (who : Fin 3) (n : Ch) (tx : Bool) (s : State) (hr : s.ready = true) (v off : Nat)
    (hv : v = if tx then (s.rd (rOH_TX_FN_LO n)).toNat + (s.rd (rOH_TX_FN_HI n)).toNat * 2 ^ 32 else (s.ohOf n).lastFn)
    (ho : off = if tx then rOH_TX_FN_HI n else rOH_RX_FN_HI n) :
    Completes (.fnLoRead who n tx) s fun t => t.out.data = BitVec.ofNat 32 v ∧ t.rlOf who off = BitVec.ofNat 32 (v / 2 ^ 32 % 65536) ∧
      t.regs = s.regs ∧ t.oh = s.oh ∧ t.cb = s.cb := by
  subst hv ho
  refine ⟨_, congrArg ok (if_pos hr), ?_, ?_, ?_, ?_, ?_⟩
  · rw [settle_data]
    rfl
  · rw [State.rlOf, settle_rl]
    exact smGet_smSet_same _ _ _ _
  · rw [settle_regs]
    rfl
  · rw [settle_oh]
    rfl
  · rw [settle_cb]
    rfl

/-- Settles O35. Each request by what its body answers; the reads by the number that they tell. -/
theorem overheadRequests : Obligations.OverheadRequests := by
  unfold Obligations.OverheadRequests
  refine ⟨?_, ?_, ?_, ?_, ?_, ?_, ?_, ?_, ?_, ?_, ?_⟩
  · refine does_of (fun _ _ => rfl) fun q t _ hp => ?_
    obtain ⟨o, hb, hpend, hexp, hsapi, hfilt⟩ := ohTraceSet_body q t hp
    refine ⟨_, _, hb, rfl, ?_, ?_, ?_, ?_, ?_⟩
    · rw [timDefect, setDefect_tx, ohOf_setOh_same, hpend]
    · rw [timDefect, setDefect_tx, ohOf_setOh_same, hexp]
    · rw [timDefect, setDefect_tx, ohOf_setOh_same, hsapi]
    · rw [timDefect, defect_setDefect _ _ _ _ (by decide), ohOf_setOh_same, hexp, filt_setOh_same, hfilt, State.flag_congr (setOh_regs _ _ _)]
    · exact .setDefect (.of_regs rfl) _ _ _ (by simp)
  · exact turned_of (fun _ _ => rfl) fun q t _ hp => if_pos hp
  · refine does_of (fun _ _ => rfl) fun q t _ hi => ?_
    refine ⟨_, _, if_neg (not_not_intro hi), rfl, _, rfl, ?_, fun h0 => ?_⟩
    · split
      · exact traceSent_length t _
      · exact slice_length _ _ _
    · simp only [h0, if_true]
      exact traceSent_fields t _
  · exact turned_of (fun _ _ => rfl) fun q t _ hi => if_pos hi
  · refine does_of (fun _ _ => rfl) fun q t _ hp => ?_
    refine ⟨_, _, if_neg (Bool.eq_false_iff.1 hp), ?_, ?_, rfl, rfl, _, rfl, rfl, rfl, rfl⟩
    · rw [ohOf_setOh_same]
    · rw [ohOf_setOh_same]
  · exact turned_of (fun _ _ => rfl) fun q t _ hp => if_pos hp
  · refine does_of (fun _ _ => rfl) fun q t _ h => ?_
    obtain ⟨hi, hr⟩ := h
    obtain ⟨k, hb⟩ := perfLatchRead_body_hbm q t hi hr
    have hs := readLatches_spec (fld q.params 0 1) (span k (fld q.params 1 1)) t
    rw [span_length] at hs
    obtain ⟨hlen, hoh, hregs⟩ := hs
    exact ⟨_, _, hb, ⟨_, rfl, hlen⟩, hoh, hregs⟩
  · refine does_of (fun _ _ => rfl) fun q t hq h => ?_
    obtain ⟨hi, hr, k, b, hl, h1, h2⟩ := h
    have hk : 1 ≤ fld q.params 1 1 := by
      have hq' := (firstBad_none _).1 hq (miss q.params 1 1 || outside 1 63 (fld q.params 1 1), 1) (by simp)
      simp only [outside, Bool.or_eq_false_iff, decide_eq_false_iff_not] at hq'
      omega
    have hs := readLatches_spec (fld q.params 0 1) (span k (fld q.params 1 1)) t
    rw [span_length] at hs
    refine ⟨_, _, perfLatchRead_body_kept q t k b hi hl h1 h2, (readLatches_kept _ k _ _ hr).1, _, k, b, rfl, hs.1, hl, ?_⟩
    obtain ⟨n, hn⟩ : ∃ n, fld q.params 1 1 = n + 1 := ⟨_, (Nat.sub_add_cancel hk).symm⟩
    rw [hn, span]
    obtain ⟨r, hrd⟩ := (readLatches_kept (fld q.params 0 1) k (span (k + 1) n) t hr).2
    rw [hrd, slice_front _ _ _ (slice_length _ _ _), hl]
    simp [smLookup]
  · exact turned_of (fun _ _ => rfl) fun q t _ h => perfLatchRead_body_error q t h
  · intro who n s hr
    refine ⟨?_, fnLoRead_next who n false s hr _ _ rfl rfl⟩
    obtain ⟨t, ht, hd, hl, hrest⟩ := fnLoRead_next who n true s hr _ _ rfl rfl
    refine ⟨t, ht, hd.trans ?_, hl.trans ?_, hrest⟩
    · exact BitVec.eq_of_toNat_eq (by simpa using (s.rd (rOH_TX_FN_LO n)).isLt)
    · have hlo := (s.rd (rOH_TX_FN_LO n)).isLt
      simp only [if_true, Nat.add_mul_div_right _ _ (Nat.two_pow_pos 32), Nat.div_eq_of_lt hlo, Nat.zero_add]
  · intro who n tx s hr
    exact congrArg ok (if_neg (Bool.eq_false_iff.1 hr))

end Sys2Proof.Machine
end


/-! # Copies of the merge (O37) -/
section
namespace Sys2Proof.Machine

open Sys2Proof

/-! ### The state of a pair slot -/

@[simp] theorem pairSt_setPair (p : Pr) (x : MrgSt) (s : State) : (setPair p x s).pairSt p = x := by
  simp [State.pairSt, setPair, pr2_val]

theorem pairSt_congr {s t : State} (h : t.mrg = s.mrg) (p : Nat) : t.pairSt p = s.pairSt p := by simp [State.pairSt, h]

@[simp] theorem pairSt_setMem (p : Pr) (m : Nat) (f : MrgMem → MrgMem) (s : State) :
    (setMem p m f s).pairSt p = { s.pairSt p with mem := (s.pairSt p).mem.set (mIdx m) (f ((s.pairSt p).mem.get (mIdx m))) } := pairSt_setPair _ _ _

/-- Showing the occupancy writes registers only. -/
theorem mrgOcc_other (p : Nat) (s : State) : mrgOcc p s = { s with regs := (mrgOcc p s).regs } := by
  unfold mrgOcc
  dsimp only
  split <;> rfl

@[simp] theorem mrgOcc_mrg (p : Nat) (s : State) : (mrgOcc p s).mrg = s.mrg := by rw [mrgOcc_other]

@[simp] theorem mrgOcc_cnt (p : Nat) (s : State) : (mrgOcc p s).cnt = s.cnt := by rw [mrgOcc_other]

@[simp] theorem mrgOcc_cb (p : Nat) (s : State) : (mrgOcc p s).cb = s.cb := by rw [mrgOcc_other]

@[simp] theorem mrgOcc_out (p : Nat) (s : State) : (mrgOcc p s).out = s.out := by rw [mrgOcc_other]

/-- A write to an SRAM entry changes the memory's own state, and `MEM_SFLIP` where an injection is armed. -/
theorem sramWrite_other (st i : Nat) (s : State) :
    sramWrite st i s = { s with mem := (sramWrite st i s).mem, regs := (sramWrite st i s).regs } := by
  unfold sramWrite
  dsimp only
  split
  · rfl
  · split <;> rfl

@[simp] theorem sramWrite_mrg (st i : Nat) (s : State) : (sramWrite st i s).mrg = s.mrg := by rw [sramWrite_other]

@[simp] theorem sramWrite_cnt (st i : Nat) (s : State) : (sramWrite st i s).cnt = s.cnt := by rw [sramWrite_other]

theorem OnlyRegs.sramWrite {l : List Nat} {s t : State} (h : OnlyRegs l s t) (st i : Nat) (hm : rMEM_SFLIP ∈ l) :
    OnlyRegs l s (sramWrite st i t) := by
  unfold Machine.sramWrite
  dsimp only
  split
  · exact .setB (f := fMEM_SFLIP_ARM) (h.trans (.of_regs rfl)) _ hm
  · split
    · exact h
    · exact h.trans (.of_regs rfl)

/-! ### Ledger entries -/

/-- The entry of a frame number carries it. -/
theorem entry_fn {x : MrgSt} {fn : Nat} {e : Ledger} (h : x.entry fn = some e) : e.fn = fn := by
  unfold MrgSt.entry at h
  split at h
  · split at h
    next he =>
      cases h
      exact he
    · cases h
  · cases h

theorem pairSt_setEntry (p : Pr) (e : Ledger) (s : State) : (setEntry p e s).pairSt p =
    { s.pairSt p with ledger := smSet (fun _ => none) (s.pairSt p).ledger (e.fn % 65536) (some e) } :=
  (pairSt_congr (sramWrite_mrg _ _ _) p).trans (pairSt_setPair _ _ _)

/-- An entry that is written is there. -/
theorem entry_setEntry (p : Pr) (e : Ledger) (s : State) : ((setEntry p e s).pairSt p).entry e.fn = some e := by
  simp [pairSt_setEntry, MrgSt.entry]

theorem setEntry_cnt (p : Nat) (e : Ledger) (s : State) : (setEntry p e s).cnt = s.cnt := sramWrite_cnt _ _ _

theorem OnlyRegs.setEntry (p : Nat) (e : Ledger) (s : State) : OnlyRegs [rMEM_SFLIP] s (setEntry p e s) :=
  .sramWrite (.of_regs rfl) _ _ (List.mem_singleton.2 rfl)

theorem mark_fn (e : Ledger) (m v t : Nat) : (e.mark m v t).fn = e.fn := by
  unfold Ledger.mark
  split <;> rfl

theorem mark_done (e : Ledger) (m v t : Nat) : (e.mark m v t).done m = true := by
  unfold Ledger.mark Ledger.done
  split <;> rfl

theorem mark_verdict (e : Ledger) (m v t : Nat) : (e.mark m v t).verdict m = v := by
  unfold Ledger.mark Ledger.verdict
  split <;> rfl

theorem flag_verdict (e : Ledger) (k m : Nat) : (e.flag k).verdict m = e.verdict m := by
  unfold Ledger.verdict
  split <;> rfl

/-- A copy that is declared MISSING: its entry is written, done and with verdict MISSING, and nothing else changes but an armed injection. -/
theorem declare_missing (p : Pr) (m fn : Nat) (s : State) (h : (((s.pairSt p).entry fn).getD (s.freshEntry p fn)).done m = false) :
    ∃ e, ((declare p m fn s).pairSt p).entry fn = some e ∧ e.done m = true ∧ e.verdict m = 3 ∧
      OnlyRegs [rMEM_SFLIP] s (declare p m fn s) := by
  have hfn : (((s.pairSt p).entry fn).getD (s.freshEntry p fn)).fn = fn := by
    cases he : (s.pairSt p).entry fn with
    | none => rfl
    | some e => exact entry_fn he
  simp only [declare, h, Bool.false_eq_true, if_false]
  generalize ((s.pairSt p).entry fn).getD (s.freshEntry p fn) = e at hfn
  refine ⟨e.mark m 3 0, ?_, mark_done _ _ _ _, mark_verdict _ _ _ _, .setEntry _ _ _⟩
  have h := entry_setEntry p (e.mark m 3 0) s
  rwa [mark_fn, hfn] at h

/-! ### Stored copies -/

theorem copy_setStore (p : Pr) (m fn : Nat) (f : MrgMem → List MCopy) (s : State) :
    ((setMem p m (fun y => { y with store := f y }) s).pairSt p).copy m fn =
      (f ((s.pairSt p).mem.get (mIdx m))).find? fun c => c.fr.fn == fn := by
  simp [MrgSt.copy]

/-- The copy of a frame number carries it. -/
theorem copy_fn {x : MrgSt} {m fn : Nat} {c : MCopy} (h : x.copy m fn = some c) : c.fr.fn = fn := by
  simpa using List.find?_some h

theorem find_dropped (l : List MCopy) (fn : Nat) : ((l.filter fun d => d.fr.fn != fn).find? fun c => c.fr.fn == fn) = none := by
  simp only [List.find?_eq_none, List.mem_filter, bne_iff_ne, beq_iff_eq]
  exact fun _ h => h.2

/-- A change of the ledger alone leaves the copies. -/
theorem copy_setEntry (p : Pr) (e : Ledger) (s : State) (m fn : Nat) : ((setEntry p e s).pairSt p).copy m fn = (s.pairSt p).copy m fn := by
  rw [pairSt_setEntry]
  rfl

/-! ### What a read of HBM counts -/

@[simp] theorem hbmRead_mrg (errs : List (Nat × BitVec 256)) (addr n : Nat) (s : State) : (hbmRead errs addr n s).2.mrg = s.mrg := by
  rw [hbmRead_other]

@[simp] theorem hbmRead_cb (errs : List (Nat × BitVec 256)) (addr n : Nat) (s : State) : (hbmRead errs addr n s).2.cb = s.cb := by
  rw [hbmRead_other]

theorem counter_congr {s t : State} (h : t.cnt = s.cnt) (k : Nat) : t.counter k = s.counter k := by simp [State.counter, h]

/-- An HBM error counts among the counters of HBM, which begin at 368. -/
theorem counter_logErr (k die : Nat) (unc lasting : Bool) (s : State) (j : Nat) (hj : j < 368) :
    (logErr k die unc lasting s).counter j = s.counter j := by
  have hc : (logErr k die unc lasting s).cnt =
      (if unc then count (cMEM (if regionOf (k / pageCws) = 0 then 16 else 17)) s else count (cMEM die) s).cnt := rfl
  rw [counter_congr hc]
  split
  · exact counter_countN_other _ _ _ _ (by simp only [cMEM]; omega)
  · exact counter_countN_other _ _ _ _ (by simp only [cMEM]; omega)

theorem counter_readCw (k : Nat) (err : BitVec 256) (s : State) (j : Nat) (hj : j < 368) : (readCw k err s).2.counter j = s.counter j := by
  unfold readCw
  split
  · rfl
  · dsimp only
    split
    · rfl
    · exact counter_logErr _ _ _ _ s j hj
    · exact counter_logErr _ _ _ _ s j hj

theorem counter_hbmReadFrom (errs : List (Nat × BitVec 256)) (fuel addr n : Nat) (s : State) (j : Nat) (hj : j < 368) :
    (hbmReadFrom errs fuel addr n s).2.counter j = s.counter j := by
  induction fuel generalizing addr n s with
  | zero => rfl
  | succ fuel ih =>
    unfold hbmReadFrom
    split
    · rfl
    · exact (ih _ _ _).trans (counter_readCw _ _ _ j hj)

/-- A read of HBM leaves the counters below those of HBM. -/
theorem counter_hbmRead (errs : List (Nat × BitVec 256)) (addr n : Nat) (s : State) (j : Nat) (hj : j < 368) :
    (hbmRead errs addr n s).2.counter j = s.counter j := counter_hbmReadFrom errs _ addr n s j hj

/-! ### The commands -/

/-- A copy that reads back whole replaces the far one. -/
theorem farStorePrefetch_whole (p m : Pr) (fn : Nat) (errs : List (Nat × BitVec 256)) (c : MCopy) (e : Ledger) (s : State)
    (hc : (s.pairSt p).copy m fn = some c) (he : (s.pairSt p).entry fn = some e) (hf : c.far = true) (hu : s.mergeUp p = true)
    (bs : List Byte) (t : State) (hr : hbmRead errs (17024 * e.place) 16576 s = ((bs, true), t)) (h1 : fld bs 16512 6 = fn)
    (h2 : fld bs 16572 4 = (crc32c (bs.take 16572)).toNat) :
    exec (.farStorePrefetch p m fn errs) s = .next (settle (setMem p m (fun y =>
      { y with store := (y.store.filter fun d => d.fr.fn != fn) ++ [⟨{ c.fr with bytes := bs.take 16512 }, false⟩] }) t)) := by
  simp only [exec, execFarStorePrefetch, hc, he, hf, hu, hr, h1, h2, beq_self_eq_true, Bool.and_self, Bool.not_true, Bool.or_self,
    Bool.false_eq_true, if_false, if_true]
  rfl

/-- One that does not is dropped and MISSING. -/
theorem farStorePrefetch_bad (p m : Pr) (fn : Nat) (errs : List (Nat × BitVec 256)) (c : MCopy) (e : Ledger) (s : State)
    (hc : (s.pairSt p).copy m fn = some c) (he : (s.pairSt p).entry fn = some e) (hf : c.far = true) (hu : s.mergeUp p = true)
    (bs : List Byte) (good : Bool) (t : State) (hr : hbmRead errs (17024 * e.place) 16576 s = ((bs, good), t))
    (h : ¬(good = true ∧ fld bs 16512 6 = fn ∧ fld bs 16572 4 = (crc32c (bs.take 16572)).toNat)) :
    exec (.farStorePrefetch p m fn errs) s = .next (settle (settleNow p ((t.pairSt p).lastTd / 65536) (mrgOcc p (setEntry p
      ((e.mark m 3 (e.time m)).flag 3) (setMem p m (fun y => { y with store := y.store.filter fun d => d.fr.fn != fn })
        (count (cPAIR p kHBM_UNC) t)))))) := by
  have hb : (good && fld bs 16512 6 == fn && fld bs 16572 4 == (crc32c (bs.take 16572)).toNat) = false := by
    rw [Bool.eq_false_iff]
    simpa only [ne_eq, Bool.and_eq_true, beq_iff_eq, and_assoc] using h
  have hp (f : MrgMem → MrgMem) : ((setMem p m f (count (cPAIR p kHBM_UNC) t)).pairSt p).lastTd = (t.pairSt p).lastTd := by
    rw [pairSt_setMem]
    rfl
  simp only [exec, execFarStorePrefetch, hc, he, hf, hu, hr, hb, Bool.not_true, Bool.or_self, Bool.false_eq_true, if_false, hp]
  rfl

/-- What stands after a bad read-back: the copy is gone, counted, and its entry says MISSING. -/
theorem farStorePrefetch_dropped (p m : Pr) (fn : Nat) (e : Ledger) (t : State) (he : e.fn = fn) : ∃ e',
    let u := mrgOcc p (setEntry p ((e.mark m 3 (e.time m)).flag 3) (setMem p m (fun y => { y with store := y.store.filter fun d => d.fr.fn != fn })
      (count (cPAIR p kHBM_UNC) t)))
    (u.pairSt p).copy m fn = none ∧ Counted (cPAIR p kHBM_UNC) 1 t u ∧ (u.pairSt p).entry fn = some e' ∧ e'.verdict m = 3 := by
  have hfn : ((e.mark m 3 (e.time m)).flag 3).fn = fn := (mark_fn _ _ _ _).trans he
  refine ⟨(e.mark m 3 (e.time m)).flag 3, ?_, ?_, ?_, (flag_verdict _ _ _).trans (mark_verdict _ _ _ _)⟩
  · rw [pairSt_congr (mrgOcc_mrg _ _), copy_setEntry, copy_setStore, find_dropped]
  · rw [Counted, counter_congr ((mrgOcc_cnt _ _).trans (setEntry_cnt _ _ _))]
    exact counter_countN _ 1 t
  · have hent := entry_setEntry p ((e.mark m 3 (e.time m)).flag 3)
      (setMem p m (fun y => { y with store := y.store.filter fun d => d.fr.fn != fn }) (count (cPAIR p kHBM_UNC) t))
    rw [hfn] at hent
    rwa [pairSt_congr (mrgOcc_mrg _ _)]

/-- The copy that takes the far one's place is the one that is found. -/
theorem farStorePrefetch_replaced (p m : Pr) (fn : Nat) (d : MCopy) (t : State) (hd : d.fr.fn = fn) :
    ((setMem p m (fun y => { y with store := (y.store.filter fun d => d.fr.fn != fn) ++ [d] }) t).pairSt p).copy m fn = some d := by
  rw [copy_setStore, List.find?_append, find_dropped, Option.none_or]
  simp only [List.find?_cons, hd, beq_self_eq_true]

/-- A copy that arrives at a merge that works is taken off the deframer's queue and handed to the merge. -/
theorem mergeCopyArrival_up (p m : Pr) (x : Nat) (bad : List (Nat × Nat × Nat)) (badEntry : Bool) (fr : RxFrame) (rest : List RxFrame) (s : State)
    (hq : (s.ohOf (s.memCh p m)).toMerge = fr :: rest) (hu : s.mergeUp p = true) :
    ∃ u, exec (.mergeCopyArrival p m x bad badEntry) s = .next (settle (mergeCopy p m fr x u)) ∧
      (u.ohOf (s.memCh p m)).toMerge = rest ∧ (u.pairSt p).badWords = (s.pairSt p).badWords ++ bad ∧ (u.pairSt p).mem = (s.pairSt p).mem ∧
      (u.pairSt p).ledger = (s.pairSt p).ledger ∧ u.regs = s.regs ∧ u.cb = s.cb := by
  have hu' (o : OhSt) : (setOh (s.memCh p m) o s).mergeUp p = true := hu
  simp only [exec, execMergeCopyArrival, hq, hu', Bool.not_true, Bool.false_eq_true, if_false]
  refine ⟨_, rfl, ?_, ?_, ?_, ?_, rfl, rfl⟩
  · exact congrArg OhSt.toMerge (Four.get_set_same s.oh _ _)
  · rw [pairSt_setPair]
    rfl
  · rw [pairSt_setPair]
    rfl
  · rw [pairSt_setPair]
    rfl

/-- At a merge that does not work the frame is lost. -/
theorem mergeCopyArrival_down (p m : Pr) (x : Nat) (bad : List (Nat × Nat × Nat)) (badEntry : Bool) (s : State) (hu : s.mergeUp p = false) :
    Completes (.mergeCopyArrival p m x bad badEntry) s fun t => (t.ohOf (s.memCh p m)).toMerge = (s.ohOf (s.memCh p m)).toMerge.drop 1 ∧
      t.mrg = s.mrg ∧ t.regs = s.regs ∧ t.cb = s.cb ∧ t.cnt = s.cnt := by
  have hu' (o : OhSt) : (setOh (s.memCh p m) o s).mergeUp p = false := hu
  cases hq : (s.ohOf (s.memCh p m)).toMerge with
  | nil =>
    refine ⟨settle s, by simp only [exec, execMergeCopyArrival, hq]; rfl, ?_⟩
    simpa [State.ohOf] using hq
  | cons fr rest =>
    refine ⟨_, by simp only [exec, execMergeCopyArrival, hq, hu', Bool.not_false, if_true]; rfl, ?_⟩
    simp [State.ohOf, setOh]

/-- An entry that is retired is gone, and no other. -/
theorem entry_retired (x : MrgSt) (fn f : Nat) :
    ({ x with ledger := smDel x.ledger (fn % 65536) } : MrgSt).entry f = if f % 65536 = fn % 65536 then none else x.entry f := by
  by_cases h : f % 65536 = fn % 65536
  · simp [MrgSt.entry, h]
  · simp [MrgSt.entry, h, smGet_smDel_other _ _ _ _ h]

/-- The read of the greatest occupancy starts it again from the present one. -/
theorem occMax_restarts (p : Pr) (s : State) (ho : (s.pairSt p).occ < 2 ^ 17) :
    (mrgOcc p (s.unreg (rMRG_OCC_MAX p))).fld (fMRG_OCC_MAX_OCC_MAX p) = (s.pairSt p).occ ∧
      (mrgOcc p (s.unreg (rMRG_OCC_MAX p))).fld (fMRG_OCC_OCC p) = (s.pairSt p).occ := by
  have hreg : rMRG_OCC_MAX p ≠ rMRG_OCC p := by unfold rMRG_OCC_MAX rMRG_OCC; omega
  unfold mrgOcc
  extract_lets o t
  have hoc : t.fld (fMRG_OCC_OCC p) = o := (State.fld_setF_same _ _ _ (by simp [Fld.ok])).trans (Nat.mod_eq_of_lt ho)
  have h0 : t.fld (fMRG_OCC_MAX_OCC_MAX p) = 0 := by
    rw [State.fld_setF_reg _ _ _ _ hreg, State.fld, State.rd_unreg_same]
    match p with
    | 0 => rfl
    | 1 => rfl
  rw [h0]
  split
  next hlt =>
    refine ⟨(State.fld_setF_same _ _ _ (by simp [Fld.ok])).trans (Nat.mod_eq_of_lt ho), ?_⟩
    rw [State.fld_setF_reg _ _ _ _ hreg.symm, hoc]
    rfl
  next hge => exact ⟨h0.trans (Nat.eq_zero_of_not_pos hge).symm, hoc⟩

theorem OnlyRegs.mrgOcc {l : List Nat} {s t : State} (h : OnlyRegs l s t) (p : Nat) (h1 : rMRG_OCC p ∈ l) (h2 : rMRG_OCC_MAX p ∈ l) :
    OnlyRegs l s (mrgOcc p t) := by
  unfold Machine.mrgOcc
  extract_lets o u
  have hu : OnlyRegs l s u := h.setF (f := fMRG_OCC_OCC p) o h1
  split
  · exact hu.setF (f := fMRG_OCC_MAX_OCC_MAX p) o h2
  · exact hu

/-- Settles O37. The far store's two outcomes rest on what a read of HBM leaves unchanged (`hbmRead_other`, `counter_hbmRead`). -/
theorem mergeCopies : Obligations.MergeCopies := by
  unfold Obligations.MergeCopies
  refine ⟨mergeCopyArrival_up, ?_, mergeCopyArrival_down, ?_, ?_, ?_, ?_, ?_, ?_⟩
  · intro p m x bad badEntry s hq
    simp only [exec, execMergeCopyArrival, hq]
    rfl
  · intro p m fn x nx w s hnx hw
    refine ⟨fun hu h0 hcap hdone hx => ?_, fun hx => ?_⟩
    · obtain ⟨e, he, hd, hv, hr⟩ := declare_missing p m fn s hdone
      refine ⟨declare p m fn s, e, ?_, he, hd, hv, hr⟩
      simp only [exec, execCopyDeclaredMissing, hnx, hw, hu, h0, hcap, hdone, hx, decide_true, Bool.not_false, Bool.and_self, if_true]
      rfl
    · simp only [exec, execCopyDeclaredMissing, hnx, hw, Int.not_le.2 hx, decide_false, Bool.and_false, Bool.false_eq_true, if_false]
      rfl
  · intro p m fn errs c e s hc he hf hu
    have hregs := hbmRead_regs errs (17024 * e.place) 16576 s
    have hcb := hbmRead_cb errs (17024 * e.place) 16576 s
    have hmrg := hbmRead_mrg errs (17024 * e.place) 16576 s
    have hcnt := counter_hbmRead errs (17024 * e.place) 16576 s (cPAIR p kHBM_UNC) (by simp only [cPAIR, kHBM_UNC]; omega)
    rcases hr : hbmRead errs (17024 * e.place) 16576 s with ⟨⟨bs, good⟩, t⟩
    rw [hr] at hregs hcb hmrg hcnt
    intro r whole
    refine ⟨fun hw => ?_, fun hw => ?_⟩
    · obtain ⟨hg, h1, h2⟩ := hw
      cases hg
      refine ⟨_, farStorePrefetch_whole p m fn errs c e s hc he hf hu bs t hr h1 h2, ?_, ?_, ?_⟩
      · have hfn : c.fr.fn = fn := copy_fn hc
        rw [pairSt_congr (settle_mrg _)]
        exact farStorePrefetch_replaced p m fn _ t hfn
      · rw [settle_regs]
        exact hregs
      · rw [settle_cb]
        exact hcb
    · have hlast : (t.pairSt p).lastTd = (s.pairSt p).lastTd := by rw [pairSt_congr hmrg]
      have hx := farStorePrefetch_bad p m fn errs c e s hc he hf hu bs good t hr hw
      rw [hlast] at hx
      obtain ⟨e', hcopy, hcount, hent⟩ := farStorePrefetch_dropped p m fn e t (entry_fn he)
      rw [Counted, hcnt] at hcount
      exact ⟨_, e', hx, hcopy, hcount, hent⟩
  · intro p m fn errs s h
    show execFarStorePrefetch p m fn errs s = ok s
    unfold execFarStorePrefetch
    extract_lets x
    split
    next c e hc _ =>
      rcases h with hn | hu
      · rw [hn] at hc
        cases hc
      · exact if_pos (by simp [hu])
    next => rfl
  · intro p fn x e s he hd
    refine ⟨fun hx => ?_, fun hx => ?_⟩
    · refine ⟨_, by simp only [exec, execLedgerEntryRetired, he, hd, hx, ne_eq, not_false_eq_true, decide_true, Bool.and_self, if_true]; rfl, ?_⟩
      simp only [pairSt_congr (settle_mrg _), pairSt_setPair, entry_retired, if_true, settle_regs, settle_cb]
      exact ⟨trivial, rfl, rfl, fun f hf => if_neg hf⟩
    · simp only [exec, execLedgerEntryRetired, he, Nat.not_le.2 hx, decide_false, Bool.and_false, Bool.false_eq_true, if_false]
      rfl
  · intro p s hr
    refine ⟨_, congrArg ok (if_pos hr), ?_, fun ho => ?_, ?_, ?_⟩
    · rw [settle_data, mrgOcc_out]
      rfl
    · rw [fld_settle, fld_settle]
      exact occMax_restarts p { s with out := { s.out with data := s.rd (rMRG_OCC_MAX p) } } ho
    · exact .settle (.mrgOcc (.unreg (.of_regs rfl) (by simp)) p (by simp) (by simp))
    · rw [settle_cb, mrgOcc_cb]
      rfl
  · intro p s hr
    exact congrArg ok (if_neg (Bool.eq_false_iff.1 hr))

end Sys2Proof.Machine
end


/-! # Time of day and the timing requests (O47) -/
section
namespace Sys2Proof.Machine

open Sys2Proof

/-! ### Steps of the time of day (R357) -/

/-- What a step leaves: the new time, the next epoch, a valid time of day. -/
theorem todStep_spec (sec ns cause : Nat) (s : State) :
    (todStep sec ns cause s).tim = { s.tim with sec := sec % 2 ^ 34, ns := ns } ∧
      (todStep sec ns cause s).fld fTIM_STATUS_EPOCH = (s.fld fTIM_STATUS_EPOCH + 1) % 16 ∧
      (todStep sec ns cause s).flag fTIM_STATUS_TOD_VALID = true ∧
      OnlyRegs [rTIM_STATUS] s (todStep sec ns cause s) ∧
      Logged s (todStep sec ns cause s) [(0x090A, bTIM, sat32 (((sec : Int) * 1000000000 + ns - s.todNs).tdiv 1000000),
        s.fld fTIM_STATUS_EPOCH + 256 * cause)] := by
  unfold todStep
  extract_lets e d _ t
  have hcb : rTIM_STATUS ≠ rCB_STATUS := by decide
  refine ⟨?_, ?_, ?_, ?_, ?_⟩
  · rw [offer_tim]
    rfl
  · rw [fld_offer _ _ _ _ _ _ hcb, State.fld_setB_apart _ _ _ _ (by decide) (by decide), State.fld_setF_same _ _ _ (by decide)]
    exact Nat.mod_mod _ _
  · rw [State.flag, fld_offer _ _ _ _ _ _ hcb]
    exact State.flag_setB_same _ _ _ (by decide) (by decide)
  · have ht : OnlyRegs [rTIM_STATUS] s t := .of_regs rfl
    exact .offer (.setB (f := fTIM_STATUS_TOD_VALID) (.setF (f := fTIM_STATUS_EPOCH) ht _ (by simp)) _ (by simp)) _ _ _ _
  · exact (logged_one _ _ _ _ _).start rfl

/-- A step leaves the fields of `TIM_STATUS` but `EPOCH` and `TOD_VALID`. -/
theorem fld_todStep (sec ns cause : Nat) (s : State) (f : Fld) (hr : f.reg ≠ rCB_STATUS) (he : fTIM_STATUS_EPOCH.apart f)
    (hv : fTIM_STATUS_TOD_VALID.apart f) : (todStep sec ns cause s).fld f = s.fld f := by
  unfold todStep
  rw [fld_offer _ _ _ _ _ _ hr, State.fld_setB_apart _ _ _ _ (by decide) hv, State.fld_setF_apart _ _ _ _ (by decide) he]
  rfl

/-! ### PPS (R354) -/

/-- The PPS flags take their values, with record 0x090B where that changes them. -/
theorem ppsFlags_spec (los lock : Bool) (s : State) :
    (ppsFlags los lock s).flag fTIM_STATUS_PPS_LOS = los ∧ (ppsFlags los lock s).flag fTIM_STATUS_PPS_LOCK = lock ∧
      (ppsFlags los lock s).tim = s.tim ∧ (ppsFlags los lock s).fld fTIM_STATUS_EPOCH = s.fld fTIM_STATUS_EPOCH ∧
      OnlyRegs [rTIM_STATUS] s (ppsFlags los lock s) ∧
      Logged s (ppsFlags los lock s) (if s.flag fTIM_STATUS_PPS_LOS = los ∧ s.flag fTIM_STATUS_PPS_LOCK = lock then []
        else [(0x090B, bTIM, b2n los + 2 * b2n lock, 0)]) := by
  have hcb : rTIM_STATUS ≠ rCB_STATUS := by decide
  unfold ppsFlags
  split
  next h =>
    simp only [Bool.and_eq_true, decide_eq_true_eq] at h
    rw [if_pos h]
    exact ⟨h.1, h.2, rfl, rfl, .refl _ _, .refl _⟩
  next h =>
    simp only [Bool.and_eq_true, decide_eq_true_eq] at h
    rw [if_neg h]
    refine ⟨?_, ?_, ?_, ?_, ?_, ?_⟩
    · rw [State.flag, fld_offer _ _ _ _ _ _ hcb, State.fld_setB_apart _ _ _ _ (by decide) (by decide)]
      exact State.flag_setB_same _ _ _ (by decide) (by decide)
    · rw [State.flag, fld_offer _ _ _ _ _ _ hcb]
      exact State.flag_setB_same _ _ _ (by decide) (by decide)
    · rw [offer_tim]
      rfl
    · rw [fld_offer _ _ _ _ _ _ hcb, State.fld_setB_apart _ _ _ _ (by decide) (by decide), State.fld_setB_apart _ _ _ _ (by decide) (by decide)]
    · exact .offer (.setB (f := fTIM_STATUS_PPS_LOCK) (.setB (f := fTIM_STATUS_PPS_LOS) (.refl _ _) _ (by simp)) _ (by simp)) _ _ _ _
    · exact (logged_one _ _ _ _ _).start rfl

/-- A pulse in time lies within 10 us of whole seconds after the previous one. -/
theorem ppsInTime_iff (gap : Int) : ppsInTime gap = true ↔ ∃ k : Int, 1 ≤ k ∧ (gap - k * 1000000000).natAbs ≤ 10000 := by
  simp only [ppsInTime, Bool.and_eq_true, decide_eq_true_eq]
  constructor
  · intro h
    exact ⟨(gap + 10000) / 1000000000, by omega, by omega⟩
  · rintro ⟨k, hk, hg⟩
    omega

theorem todNs_congr {s t : State} (h : t.tim = s.tim) : t.todNs = s.todNs := by rw [State.todNs, State.todNs, h]

theorem flag_settle (s : State) (f : Fld) : (settle s).flag f = s.flag f := State.flag_congr (settle_regs s) f

theorem todNs_settle (s : State) : (settle s).todNs = s.todNs := todNs_congr (settle_tim s)

/-- What a pulse within 100 ns leaves: the error to slew away, one more good pulse, and `PPS_LOCK` from the third on. -/
theorem ppsValid_near (err : Int) (s : State) (h : err.natAbs ≤ 800) : let t := ppsValid err s
    let k := s.flag fTIM_STATUS_PPS_LOCK || decide (2 ≤ s.tim.ppsGood)
    t.flag fTIM_STATUS_PPS_LOS = false ∧ t.flag fTIM_STATUS_PPS_LOCK = k ∧
      t.tim = { s.tim with ppsMiss := 0, ppsSeen := true, ppsGood := s.tim.ppsGood + 1, ppsBad := 0, slew := err } ∧
      OnlyRegs [rTIM_STATUS] s t ∧
      Logged s t (if s.flag fTIM_STATUS_PPS_LOS = false ∧ s.flag fTIM_STATUS_PPS_LOCK = k then [] else [(0x090B, bTIM, 2 * b2n k, 0)]) := by
  intro t k
  let u : State := { s with tim := { s.tim with ppsMiss := 0, ppsSeen := true, ppsGood := s.tim.ppsGood + 1, ppsBad := 0, slew := err } }
  have hk : (s.flag fTIM_STATUS_PPS_LOCK || decide (3 ≤ s.tim.ppsGood + 1)) = k := by simp [k]
  have ht : t = ppsFlags false k u := by
    rw [← hk]
    exact if_pos h
  obtain ⟨hlos, hlock, htim, -, hregs, hlog⟩ := ppsFlags_spec false k u
  have hu : OnlyRegs [rTIM_STATUS] s u := .of_regs rfl
  rw [ht]
  refine ⟨hlos, hlock, htim, hu.trans hregs, ?_⟩
  have hz : b2n false + 2 * b2n k = 2 * b2n k := Nat.zero_add _
  rw [hz] at hlog
  exact hlog.start rfl

/-- What a pulse further away leaves: the flags clear, one more bad pulse, and from the third in a row a step. -/
theorem ppsValid_far (err : Int) (s : State) (h : 800 < err.natAbs) : ∃ u : State,
    u.flag fTIM_STATUS_PPS_LOS = false ∧ u.flag fTIM_STATUS_PPS_LOCK = false ∧ u.fld fTIM_STATUS_EPOCH = s.fld fTIM_STATUS_EPOCH ∧
      u.tim = { s.tim with ppsMiss := 0, ppsSeen := true, ppsGood := 0, ppsBad := s.tim.ppsBad + 1 } ∧
      OnlyRegs [rTIM_STATUS] s u ∧
      Logged s u (if s.flag fTIM_STATUS_PPS_LOS = false ∧ s.flag fTIM_STATUS_PPS_LOCK = false then [] else [(0x090B, bTIM, 0, 0)]) ∧
      ppsValid err s = if s.tim.ppsBad = 2 then ppsStep err { u with tim := { u.tim with ppsBad := 0, slew := 0 } } else u := by
  let v : State := { s with tim := { s.tim with ppsMiss := 0, ppsSeen := true, ppsGood := 0, ppsBad := s.tim.ppsBad + 1 } }
  obtain ⟨hlos, hlock, htim, hepoch, hregs, hlog⟩ := ppsFlags_spec false false v
  have hv : OnlyRegs [rTIM_STATUS] s v := .of_regs rfl
  refine ⟨ppsFlags false false v, hlos, hlock, hepoch, htim, hv.trans hregs, hlog.start rfl, ?_⟩
  have hx : ppsValid err s = if s.tim.ppsBad + 1 = 3 then
      ppsStep err { ppsFlags false false v with tim := { (ppsFlags false false v).tim with ppsBad := 0, slew := 0 } }
    else ppsFlags false false v := if_neg (Nat.not_le.2 h)
  simpa only [Nat.add_eq_right, Nat.reduceEqDiff] using hx

/-- The change that a step onto a pulse makes: back by what the pulse is later, forward by what it is earlier, in ns. -/
def ppsChange (err : Int) : Int :=
  if err < 0 then 1 + (((-err / 8).toNat % 1000000000 : Nat) : Int) else -(((err / 8).toNat % 1000000000 : Nat) : Int)

/-- What a step onto a pulse leaves. -/
theorem ppsStep_spec (err : Int) (s : State) : let t := ppsStep err s
    t.tim = { s.tim with sec := (if err < 0 then s.tim.sec + 1 else s.tim.sec) % 2 ^ 34, ns := 0 } ∧
      t.fld fTIM_STATUS_EPOCH = (s.fld fTIM_STATUS_EPOCH + 1) % 16 ∧ t.flag fTIM_STATUS_TOD_VALID = true ∧
      t.fld fTIM_STATUS_PPS_LOS = s.fld fTIM_STATUS_PPS_LOS ∧ t.fld fTIM_STATUS_PPS_LOCK = s.fld fTIM_STATUS_PPS_LOCK ∧
      OnlyRegs [rTIM_STATUS] s t ∧
      Logged s t [(0x090A, bTIM, sat32 ((ppsChange err).tdiv 1000000), s.fld fTIM_STATUS_EPOCH + 256)] := by
  obtain ⟨sec, ns, hx, htim, hd⟩ : ∃ sec ns, ppsStep err s = todStep sec 0 1 { s with tim := { s.tim with ns := ns } } ∧
      sec = (if err < 0 then s.tim.sec + 1 else s.tim.sec) ∧
      (sec : Int) * 1000000000 + (0 : Nat) - ((s.tim.sec : Int) * 1000000000 + (ns : Nat)) = ppsChange err := by
    unfold ppsStep ppsChange
    dsimp only
    split
    · exact ⟨_, _, rfl, rfl, by omega⟩
    · exact ⟨_, _, rfl, rfl, by omega⟩
  have hs : OnlyRegs [rTIM_STATUS] s { s with tim := { s.tim with ns := ns } } := .of_regs rfl
  obtain ⟨ht, he, hv, hr, hl⟩ := todStep_spec sec 0 1 { s with tim := { s.tim with ns := ns } }
  intro t
  have htt : t = todStep sec 0 1 { s with tim := { s.tim with ns := ns } } := hx
  rw [htt, ← htim, ← hd]
  refine ⟨ht, he, hv, ?_, ?_, hs.trans hr, hl.start rfl⟩
  · exact fld_todStep _ _ _ _ _ (by decide) (by decide) (by decide)
  · exact fld_todStep _ _ _ _ _ (by decide) (by decide) (by decide)

/-- Missing pulses: their number, and `PPS_LOS` with the third. -/
theorem ppsMissed_spec (m : Nat) (s : State) : let t := ppsMissed m s
    t.tim = { s.tim with ppsMiss := max s.tim.ppsMiss m } ∧ t.flag fTIM_STATUS_PPS_LOCK = s.flag fTIM_STATUS_PPS_LOCK ∧
      t.flag fTIM_STATUS_PPS_LOS = (s.flag fTIM_STATUS_PPS_LOS || (decide (s.tim.ppsMiss < 3) && decide (3 ≤ m))) ∧ OnlyRegs [rTIM_STATUS] s t := by
  intro t
  obtain ⟨u, hu⟩ : ∃ u : State, u = { s with tim := { s.tim with ppsMiss := max s.tim.ppsMiss m } } := ⟨_, rfl⟩
  have hregs : u.regs = s.regs := by rw [hu]
  have htim : u.tim = { s.tim with ppsMiss := max s.tim.ppsMiss m } := by rw [hu]
  have ht : t = if s.tim.ppsMiss < 3 && 3 ≤ m then ppsFlags true (u.flag fTIM_STATUS_PPS_LOCK) u else u := by
    rw [hu]
    rfl
  rw [ht]
  have hur : OnlyRegs [rTIM_STATUS] s u := .of_regs hregs
  cases hc : decide (s.tim.ppsMiss < 3) && decide (3 ≤ m) with
  | true =>
    obtain ⟨hlos, hlock, hft, -, hfr, -⟩ := ppsFlags_spec true (u.flag fTIM_STATUS_PPS_LOCK) u
    rw [if_pos rfl, Bool.or_true]
    exact ⟨hft.trans htim, hlock.trans (State.flag_congr hregs _), hlos, hur.trans hfr⟩
  | false =>
    rw [if_neg Bool.false_ne_true, Bool.or_false]
    exact ⟨htim, State.flag_congr hregs _, State.flag_congr hregs _, hur⟩

/-! ### The internal second (R354, R355, R358) -/

theorem fld_lt (s : State) (f : Fld) : s.fld f < 2 ^ f.w := ((s.rd f.reg).extractLsb' f.lo f.w).isLt

/-- A field of a register that has not changed. -/
theorem OnlyRegs.fld {l : List Nat} {s t : State} (h : OnlyRegs l s t) {f : Fld} (hc : f.reg ≠ rCB_STATUS) (hl : f.reg ∉ l) : t.fld f = s.fld f :=
  congrArg f.of (h f.reg hc hl)

/-- The waits of some inputs run down by a second each. -/
theorem each_wtrSecond (l : List Nat) (hl : l.Nodup) (s : State) (x : Nat) :
    (each l wtrSecond s).fld (fTIM_IN_STATUS_WTR_LEFT x) = s.fld (fTIM_IN_STATUS_WTR_LEFT x) - if x ∈ l then 1 else 0 := by
  induction l generalizing s with
  | nil => rfl
  | cons y l ih =>
    obtain ⟨hy, hl⟩ := List.nodup_cons.1 hl
    have hstep : (wtrSecond y s).fld (fTIM_IN_STATUS_WTR_LEFT x) = s.fld (fTIM_IN_STATUS_WTR_LEFT x) - if x = y then 1 else 0 := by
      unfold wtrSecond
      split
      next h =>
        have hlt := fld_lt s (fTIM_IN_STATUS_WTR_LEFT y)
        rw [h, State.fld_setF_same _ _ _ (by simp [Fld.ok]), Nat.mod_eq_of_lt (by omega)]
      next h =>
        have hr : rTIM_IN_STATUS x ≠ rTIM_IN_STATUS y := by unfold rTIM_IN_STATUS; omega
        exact State.fld_setF_reg _ _ _ _ hr
    have hc : (each (y :: l) wtrSecond s).fld (fTIM_IN_STATUS_WTR_LEFT x) = (each l wtrSecond (wtrSecond y s)).fld (fTIM_IN_STATUS_WTR_LEFT x) := rfl
    rw [hc, ih hl, hstep]
    by_cases h : x = y
    · simp [h, hy]
    · simp [h]

theorem OnlyRegs.each {α : Type} {l : List Nat} {s t : State} (h : OnlyRegs l s t) {f : α → State → State} (xs : List α)
    (hf : ∀ a ∈ xs, ∀ u, OnlyRegs l s u → OnlyRegs l s (f a u)) : OnlyRegs l s (each xs f t) := by
  induction xs generalizing t with
  | nil => exact h
  | cons a xs ih => exact ih (hf a List.mem_cons_self t h) fun b hb => hf b (List.mem_cons_of_mem a hb)

theorem each_wtrSecond_other (l : List Nat) (s : State) : each l wtrSecond s = { s with regs := (each l wtrSecond s).regs } := by
  induction l generalizing s with
  | nil => rfl
  | cons y l ih => exact ih (wtrSecond y s)

/-- The edge on `PPS_OUT`. -/
theorem ppsEdge_spec (ofs : Int) (s : State) : ∃ o, ppsEdge ofs s = { s with out := o } ∧
    o.pps = (if s.flag fTIM_PPS_PPS_OUT_EN then some (ofs, clampN 1 1000 (s.fld fTIM_PPS_WIDTH)) else none) ∧
    o.fp = s.out.fp + b2n (s.flag fTIM_PPS_PPS_OUT_EN && s.fpSrc == 6) := by
  unfold ppsEdge
  cases hf : s.flag fTIM_PPS_PPS_OUT_EN with
  | false => exact ⟨_, rfl, rfl, rfl⟩
  | true =>
    by_cases h6 : s.fpSrc = 6
    · exact ⟨_, if_pos h6, rfl, by rw [h6]; rfl⟩
    · exact ⟨_, if_neg h6, rfl, by rw [beq_eq_false_iff_ne.2 h6]; rfl⟩

/-- What the internal second does before the seconds count: the slew, the edge on `PPS_OUT`, the waits. -/
def secondBegun (s : State) : State :=
  ppsEdge (clampI (-500000000) 500000000 (s.sfld fTIM_PPS_OFS_OFS_NS) * 8 + (s.fld fTIM_PPS_FRAC_FRAC : Int)) (each (span 0 8) wtrSecond
    { s with tim := { s.tim with slew := s.tim.slew - clampI (-80) 80 s.tim.slew,
                                 ppsOfs := clampI (-500000000) 500000000 (s.sfld fTIM_PPS_OFS_OFS_NS) * 8 + (s.fld fTIM_PPS_FRAC_FRAC : Int) } })

theorem secondBegun_spec (s : State) : let u := secondBegun s
    let ofs := clampI (-500000000) 500000000 (s.sfld fTIM_PPS_OFS_OFS_NS) * 8 + (s.fld fTIM_PPS_FRAC_FRAC : Int)
    u.tim = { s.tim with slew := s.tim.slew - clampI (-80) 80 s.tim.slew, ppsOfs := ofs } ∧ u.cb = s.cb ∧ u.ops = s.ops ∧
      u.out.pps = (if s.flag fTIM_PPS_PPS_OUT_EN then some (ofs, clampN 1 1000 (s.fld fTIM_PPS_WIDTH)) else none) ∧
      u.out.fp = s.out.fp + b2n (s.flag fTIM_PPS_PPS_OUT_EN && s.fpSrc == 6) ∧
      OnlyRegs ((span 0 8).map rTIM_IN_STATUS) s u ∧
      ∀ x : Fin 8, u.fld (fTIM_IN_STATUS_WTR_LEFT x) = s.fld (fTIM_IN_STATUS_WTR_LEFT x) - 1 := by
  intro u ofs
  obtain ⟨v, hv⟩ : ∃ v : State, v = { s with tim := { s.tim with slew := s.tim.slew - clampI (-80) 80 s.tim.slew, ppsOfs := ofs } } := ⟨_, rfl⟩
  have hu : u = ppsEdge ofs (each (span 0 8) wtrSecond v) := by rw [hv]; rfl
  have hvr : v.regs = s.regs := by rw [hv]
  have hw := each_wtrSecond_other (span 0 8) v
  have hwr : OnlyRegs ((span 0 8).map rTIM_IN_STATUS) s (each (span 0 8) wtrSecond v) :=
    .each (.of_regs hvr) _ fun x hx t ht => ht.setF (f := fTIM_IN_STATUS_WTR_LEFT x) _ (List.mem_map_of_mem hx)
  have hwl : ∀ x : Fin 8, (each (span 0 8) wtrSecond v).fld (fTIM_IN_STATUS_WTR_LEFT x) = s.fld (fTIM_IN_STATUS_WTR_LEFT x) - 1 := by
    intro x
    rw [each_wtrSecond _ (by decide), State.fld_congr hvr, if_pos ((mem_span _ _ _).2 ⟨Nat.zero_le _, by omega⟩)]
  generalize each (span 0 8) wtrSecond v = w at hu hw hwr hwl
  obtain ⟨o, ho, hpps, hfp⟩ := ppsEdge_spec ofs w
  have hen : w.fld fTIM_PPS_PPS_OUT_EN = s.fld fTIM_PPS_PPS_OUT_EN := hwr.fld (by decide) (by decide)
  have hwi : w.fld fTIM_PPS_WIDTH = s.fld fTIM_PPS_WIDTH := hwr.fld (by decide) (by decide)
  have hfs : w.fld fTIM_PPS_FP_SRC = s.fld fTIM_PPS_FP_SRC := hwr.fld (by decide) (by decide)
  rw [State.flag, hen, hwi] at hpps
  rw [State.flag, State.fpSrc, hen, hfs] at hfp
  have hout : w.out = s.out := by rw [hw, hv]
  rw [hout] at hfp
  rw [hu, ho]
  have hor : ({ w with out := o } : State).regs = w.regs := rfl
  refine ⟨?_, ?_, ?_, hpps, hfp, hwr.trans (.of_regs hor), fun x => (State.fld_congr hor _).trans (hwl x)⟩
  · show w.tim = _
    rw [hw, hv]
  · show w.cb = _
    rw [hw, hv]
  · show w.ops = _
    rw [hw, hv]

/-! ### What an evaluation of the selector may write (R345 to R353) -/

/-- The registers that an evaluation of the selector writes. -/
def timRegs : List Nat := [rTIM_STATUS, rTIM_FREQ, rTIM_HO_FREQ, rINT_STATUS 0, rINT_STATUS 1] ++ (span 0 8).map rTIM_IN_STATUS

theorem status_mem_timRegs : rTIM_STATUS ∈ timRegs := by decide
theorem freq_mem_timRegs : rTIM_FREQ ∈ timRegs := by decide
theorem hoFreq_mem_timRegs : rTIM_HO_FREQ ∈ timRegs := by decide

theorem inStatus_mem_timRegs {x : Nat} (h : x < 8) : rTIM_IN_STATUS x ∈ timRegs :=
  List.mem_append_right _ (List.mem_map_of_mem ((mem_span _ _ _).2 ⟨Nat.zero_le _, by omega⟩))

section
variable {s t : State}

theorem OnlyRegs.timIrq (h : OnlyRegs timRegs s t) : OnlyRegs timRegs s (timIrq t) :=
  .setB (f := fINT_STATUS_TIM 1) (.setB (f := fINT_STATUS_TIM 0) h _ (by decide)) _ (by decide)

theorem OnlyRegs.setTimIn {l : List Nat} (h : OnlyRegs l s t) (x : Nat) (i : TimIn) : OnlyRegs l s (t.setTimIn x i) := h.trans (.of_regs rfl)

theorem OnlyRegs.timInvalid (h : OnlyRegs timRegs s t) {x : Nat} (hx : x < 8) : OnlyRegs timRegs s (timInvalid x t) := by
  have hm := inStatus_mem_timRegs hx
  unfold Machine.timInvalid
  extract_lets i was t1 t2
  have h1 : OnlyRegs timRegs s t1 :=
    .setB (f := fTIM_IN_STATUS_WTR_RUN x) (.setB (f := fTIM_IN_STATUS_VALID x) (h.setTimIn _ _) _ hm) _ hm
  have h2 : OnlyRegs timRegs s t2 := h1.setF (f := fTIM_IN_STATUS_WTR_LEFT x) _ hm
  split
  · exact (h2.offer _ _ _ _).timIrq
  · exact h2

theorem OnlyRegs.ite {l : List Nat} {u : State} {c : Prop} [Decidable c] (ht : OnlyRegs l s t) (hu : OnlyRegs l s u) :
    OnlyRegs l s (if c then t else u) := by
  split
  · exact ht
  · exact hu

theorem OnlyRegs.timInput (h : OnlyRegs timRegs s t) {x : Nat} (hx : x < 8) : OnlyRegs timRegs s (timInput x t) := by
  have hm := inStatus_mem_timRegs hx
  unfold Machine.timInput
  extract_lets un _ t1 t2 q old t3 bad t4 el t5
  have h1 : OnlyRegs timRegs s t1 := .ite (h.setTimIn _ _) h
  have h2 : OnlyRegs timRegs s t2 := h1.setB (f := fTIM_IN_STATUS_UNCONFIGURED x) _ hm
  have h3 : OnlyRegs timRegs s t3 := .ite h2 (.offer (h2.setF (f := fTIM_IN_STATUS_QL x) _ hm) _ _ _ _)
  have h4 : OnlyRegs timRegs s t4 := .ite (h3.timInvalid hx) (.ite (.timIrq (h3.setB (f := fTIM_IN_STATUS_VALID x) _ hm)) h3)
  have h5 : OnlyRegs timRegs s t5 := h4.setB (f := fTIM_IN_STATUS_ELIGIBLE x) _ hm
  exact .ite (h5.offer _ _ _ _) h5

theorem OnlyRegs.lockFollow {l : List Nat} (h : OnlyRegs l s t) (st : Nat) : OnlyRegs l s (lockFollow st t) :=
  .ite (h.trans (.of_regs rfl)) (.ite (h.trans (.of_regs rfl)) h)

theorem OnlyRegs.selState (h : OnlyRegs timRegs s t) (st : Nat) (sel : Option Nat) : OnlyRegs timRegs s (selState st sel t) := by
  have hm := status_mem_timRegs
  unfold Machine.selState
  extract_lets old t1
  have h1 : OnlyRegs timRegs s t1 := h.lockFollow st
  cases sel with
  | none =>
    have h2 := h1.setB (f := fTIM_STATUS_SEL_VALID) false hm
    exact .ite h2 (.timIrq (.offer (h2.setF (f := fTIM_STATUS_STATE) _ hm) _ _ _ _))
  | some x =>
    have h2 := (h1.setF (f := fTIM_STATUS_SEL) x hm).setB (f := fTIM_STATUS_SEL_VALID) true hm
    exact .ite h2 (.timIrq (.offer (h2.setF (f := fTIM_STATUS_STATE) _ hm) _ _ _ _))

theorem OnlyRegs.selHoldover (h : OnlyRegs timRegs s t) : OnlyRegs timRegs s (selHoldover t) :=
  .ite h (.ite (h.selState _ _) (.selState (.setB (f := fTIM_STATUS_HO_SHORT) (.setF (f := fTIM_HO_FREQ_OFFS) h _ hoFreq_mem_timRegs) _
    status_mem_timRegs) _ _))

theorem OnlyRegs.selAcquire (h : OnlyRegs timRegs s t) (x : Nat) : OnlyRegs timRegs s (selAcquire x t) := by
  have hb : OnlyRegs timRegs s { t with tim := { t.tim with bw := 1024 * max 500 t.bwGoal } } := h.trans (.of_regs rfl)
  exact hb.selState 1 (some x)

theorem OnlyRegs.selFollow (h : OnlyRegs timRegs s t) : OnlyRegs timRegs s (selFollow t) := by
  unfold Machine.selFollow
  extract_lets st
  split
  · exact .ite h h.selHoldover
  · exact .ite (.ite h (.offer (.selState (.setF (f := fTIM_HO_FREQ_OFFS) h _ hoFreq_mem_timRegs) _ _) _ _ _ _)) (.ite h (h.selAcquire _))

theorem OnlyRegs.selEval (h : OnlyRegs timRegs s t) : OnlyRegs timRegs s (selEval t) := by
  unfold Machine.selEval
  extract_lets mode st t1 t2 sel
  have h1 : OnlyRegs timRegs s t1 := .ite h.selHoldover h
  have h2 : OnlyRegs timRegs s t2 := .ite h (.ite h1.selHoldover (.ite (h1.selState _ _) (.ite (h1.selState _ _) h1.selFollow)))
  exact h2.setB (f := fTIM_STATUS_SOFT_SEL) _ status_mem_timRegs

theorem OnlyRegs.timEval (h : OnlyRegs timRegs s t) (freq : Int) : OnlyRegs timRegs s (timEval freq t) := by
  have hin : OnlyRegs timRegs s (Sys2Proof.each (span 0 8) Machine.timInput t) := h.each _ fun x hx u hu => hu.timInput (by
    have := (mem_span _ _ _).1 hx
    omega)
  have hf : OnlyRegs timRegs s (timFreq freq (Machine.selEval (Sys2Proof.each (span 0 8) Machine.timInput t))) :=
    hin.selEval.setF (f := fTIM_FREQ_OFFS) _ freq_mem_timRegs
  exact hf.setF (f := fTIM_STATUS_QL_SENT) _ status_mem_timRegs

/-- A write to a timing register sets nothing going that writes a configuration register. -/
theorem OnlyRegs.timWritten (h : OnlyRegs timRegs s t) (old : Nat) : OnlyRegs timRegs s (timWritten old t) := by
  obtain ⟨u, hu⟩ : ∃ u : State, u = { t with tim := { t.tim with ppsBad := 0, ppsGood := 0, ppsMiss := 0, ppsSeen := false, slew := 0 } } :=
    ⟨_, rfl⟩
  have hur : OnlyRegs timRegs s u := h.trans (.of_regs (by rw [hu]))
  obtain ⟨-, -, -, -, hr, -⟩ := ppsFlags_spec false false u
  have h1 : OnlyRegs timRegs s (if t.ppsSrc = old then t else ppsFlags false false u) :=
    .ite h (hur.trans (hr.mono (by simp [status_mem_timRegs])))
  have hx : Machine.timWritten old t = timChange (if t.ppsSrc = old then t else ppsFlags false false u) := by
    rw [hu]
    rfl
  rw [hx]
  exact h1.timEval _

end

/-! ### The entries of `TIM_SET` (R361) -/

/-- Some words written in order. -/
def writeWords (reg : Nat → Nat) (w : Nat → Word) (a n : Nat) (s : State) : State := each (span a n) (fun k s => s.wr (reg k) (w k)) s

theorem rd_writeWords_other (reg : Nat → Nat) (w : Nat → Word) (a n off : Nat) (s : State) (h : ∀ j, a ≤ j → j < a + n → reg j ≠ off) :
    (writeWords reg w a n s).rd off = s.rd off := by
  induction n generalizing a s with
  | zero => rfl
  | succ n ih =>
    refine (ih (a + 1) (s.wr (reg a) (w a)) fun j h1 h2 => h j (by omega) (by omega)).trans ?_
    exact State.rd_wr_other _ _ _ _ (h a (Nat.le_refl a) (by omega)).symm

/-- A register holds the last word that is written to it. -/
theorem rd_writeWords (reg : Nat → Nat) (w : Nat → Word) (a n k : Nat) (s : State) (h1 : a ≤ k) (h2 : k < a + n)
    (h : ∀ j, k < j → j < a + n → reg j ≠ reg k) : (writeWords reg w a n s).rd (reg k) = w k := by
  induction n generalizing a s with
  | zero => omega
  | succ n ih =>
    by_cases hk : k = a
    · subst hk
      refine (rd_writeWords_other reg w (k + 1) n (reg k) (s.wr (reg k) (w k)) fun j hj1 hj2 => h j (by omega) (by omega)).trans ?_
      exact State.rd_wr_same _ _ _
    · exact ih (a + 1) (s.wr (reg a) (w a)) (by omega) (by omega) fun j hj1 hj2 => h j hj1 (by omega)

theorem OnlyRegs.writeWords {l : List Nat} (reg : Nat → Nat) (w : Nat → Word) (a n : Nat) (s : State) (h : ∀ j ∈ span a n, reg j ∈ l) :
    OnlyRegs l s (writeWords reg w a n s) :=
  .each (.refl l s) _ fun j hj _ hu => hu.wr _ (h j hj)

/-- A configuration register is none that an evaluation writes, nor `CB_STATUS`. -/
theorem timConfig_apart (off : Nat) (h : timConfig off = true) : off ∉ timRegs ∧ off ≠ rCB_STATUS := by
  simp only [timConfig, Bool.and_eq_true, Bool.or_eq_true, decide_eq_true_eq, beq_iff_eq] at h
  refine ⟨fun hm => ?_, fun hc => ?_⟩
  · simp only [timRegs, span, List.map_cons, List.map_nil, List.cons_append, List.nil_append, List.mem_cons, List.not_mem_nil, or_false,
      rTIM_STATUS, rTIM_FREQ, rTIM_HO_FREQ, rINT_STATUS, rTIM_IN_STATUS, fnBase] at hm
    omega
  · simp only [rCB_STATUS] at hc
    omega

/-- The parameters of `TIM_SET` name configuration registers. -/
theorem timSet_config (q : Request) (t : State) (h : cmdTimSet.params q.params t = none) (k : Nat) (hk : k < fld q.params 0 1) :
    timConfig (timEntry q.params k).1 = true := by
  have hb := (firstBad_none _).1 h (miss q.params (4 + 8 * k) 4 || !timConfig (timEntry q.params k).1, 4 + 8 * k)
    (List.mem_append_right _ (List.mem_flatMap.2 ⟨k, (mem_span _ _ _).2 ⟨Nat.zero_le _, by omega⟩, List.mem_cons_self⟩))
  simp only [Bool.or_eq_false_iff, Bool.not_eq_false'] at hb
  exact hb.2

theorem timSet_does : Does cmdTimSet .timSet (fun _ _ => True) fun q t ans u => ans = .done [] ∧
    (∀ k, k < fld q.params 0 1 → (∀ j, k < j → j < fld q.params 0 1 → (timEntry q.params j).1 ≠ (timEntry q.params k).1) →
      u.rd (timEntry q.params k).1 = BitVec.ofNat 32 (timEntry q.params k).2) ∧
    OnlyRegs (timRegs ++ (span 0 (fld q.params 0 1)).map fun k => (timEntry q.params k).1) t u := by
  refine does_of (fun _ _ => rfl) fun q t hq _ => ?_
  let w := writeWords (fun k => (timEntry q.params k).1) (fun k => BitVec.ofNat 32 (timEntry q.params k).2) 0 (fld q.params 0 1) t
  have hw : OnlyRegs timRegs w (timWritten t.ppsSrc w) := .timWritten (.refl _ _) _
  refine ⟨_, timWritten t.ppsSrc w, rfl, rfl, fun k hk hlast => ?_, ?_⟩
  · obtain ⟨hout, hcb⟩ := timConfig_apart _ (timSet_config q t hq k hk)
    rw [hw _ hcb hout]
    exact rd_writeWords (fun k => (timEntry q.params k).1) (fun k => BitVec.ofNat 32 (timEntry q.params k).2) 0 _ k t (Nat.zero_le _) (by omega)
      fun j h1 h2 => hlast j h1 (by omega)
  · have hws : OnlyRegs ((span 0 (fld q.params 0 1)).map fun k => (timEntry q.params k).1) t w :=
      .writeWords _ _ _ _ _ fun j hj => List.mem_map_of_mem hj
    exact (hws.mono fun _ hx => List.mem_append_right _ hx).trans (hw.mono fun _ hx => List.mem_append_left _ hx)

/-! ### The reports (R361) -/

theorem fld_middle (a c : List Byte) (off n v : Nat) (ha : a.length = off) : fld (a ++ (le n v ++ c)) off n = v % 2 ^ (8 * n) := by
  rw [fld, slice_middle _ _ _ _ _ ha (le_length n v), unle_le]

/-- A list of consecutive numbers about one of them. -/
theorem span_split (a n x : Nat) (h : x < n) : span a n = span a x ++ (a + x) :: span (a + x + 1) (n - x - 1) := by
  induction x generalizing a n with
  | zero =>
    obtain ⟨m, rfl⟩ : ∃ m, n = m + 1 := ⟨n - 1, by omega⟩
    rfl
  | succ x ih =>
    obtain ⟨m, rfl⟩ : ∃ m, n = m + 1 := ⟨n - 1, by omega⟩
    have h1 : a + 1 + x = a + (x + 1) := by omega
    have h2 : m + 1 - (x + 1) - 1 = m - x - 1 := by omega
    rw [span, ih (a + 1) m (by omega), span, h1, h2, List.cons_append]

theorem flatMap_length (l : List Nat) (f : Nat → List Byte) (w : Nat) (hf : ∀ x, (f x).length = w) : (l.flatMap f).length = w * l.length := by
  induction l with
  | nil => rfl
  | cons y l ih => rw [List.flatMap_cons, List.length_append, hf, ih, List.length_cons, Nat.mul_succ, Nat.add_comm]

/-- The bytes of `TIM_REPORT`. -/
def timReport (s : State) : List Byte :=
  le 4 (s.rd rTIM_STATUS).toNat ++ le 4 (s.rd rTIM_FREQ).toNat ++ le 4 (s.rd rTIM_HO_FREQ).toNat ++
    (span 0 8).flatMap fun x => le 4 (s.rd (rTIM_IN_STATUS x)).toNat ++ le 4 (s.rd (rTIM_IN_OFFS x)).toNat

theorem timReport_spec (t : State) : (timReport t).length = 76 ∧ fld (timReport t) 0 4 = (t.rd rTIM_STATUS).toNat ∧
    fld (timReport t) 4 4 = (t.rd rTIM_FREQ).toNat ∧ fld (timReport t) 8 4 = (t.rd rTIM_HO_FREQ).toNat ∧
    ∀ x, x < 8 → fld (timReport t) (12 + 8 * x) 4 = (t.rd (rTIM_IN_STATUS x)).toNat ∧
      fld (timReport t) (16 + 8 * x) 4 = (t.rd (rTIM_IN_OFFS x)).toNat := by
  have hin (l : List Nat) : (l.flatMap fun x => le 4 (t.rd (rTIM_IN_STATUS x)).toNat ++ le 4 (t.rd (rTIM_IN_OFFS x)).toNat).length = 8 * l.length :=
    flatMap_length _ _ 8 fun x => by simp
  have hw (w : Word) : w.toNat % 2 ^ (8 * 4) = w.toNat := Nat.mod_eq_of_lt w.isLt
  refine ⟨?_, ?_, ?_, ?_, fun x hx => ?_⟩
  · simp only [timReport, List.length_append, le_length, hin, span_length]
  · simp only [timReport, List.append_assoc]
    exact (fld_middle [] _ 0 4 _ rfl).trans (hw _)
  · simp only [timReport, List.append_assoc]
    exact (fld_middle (le 4 _) _ 4 4 _ (by simp)).trans (hw _)
  · simp only [timReport]
    rw [List.append_assoc]
    exact (fld_middle (le 4 _ ++ le 4 _) _ 8 4 _ (by simp)).trans (hw _)
  · have hs : timReport t = (le 4 (t.rd rTIM_STATUS).toNat ++ le 4 (t.rd rTIM_FREQ).toNat ++ le 4 (t.rd rTIM_HO_FREQ).toNat ++
        (span 0 x).flatMap fun x => le 4 (t.rd (rTIM_IN_STATUS x)).toNat ++ le 4 (t.rd (rTIM_IN_OFFS x)).toNat) ++
        (le 4 (t.rd (rTIM_IN_STATUS x)).toNat ++ (le 4 (t.rd (rTIM_IN_OFFS x)).toNat ++
          (span (x + 1) (8 - x - 1)).flatMap fun x => le 4 (t.rd (rTIM_IN_STATUS x)).toNat ++ le 4 (t.rd (rTIM_IN_OFFS x)).toNat)) := by
      rw [timReport, span_split 0 8 x hx, List.flatMap_append, List.flatMap_cons]
      simp only [List.append_assoc, Nat.zero_add]
    have hl := hin (span 0 x)
    rw [span_length] at hl
    generalize ((span 0 x).flatMap fun x => le 4 (t.rd (rTIM_IN_STATUS x)).toNat ++ le 4 (t.rd (rTIM_IN_OFFS x)).toNat) = p at hs hl
    refine ⟨?_, ?_⟩
    · rw [hs]
      exact (fld_middle _ _ (12 + 8 * x) 4 _ (by simp [hl]; omega)).trans (hw _)
    · rw [hs, ← List.append_assoc]
      exact (fld_middle _ _ (16 + 8 * x) 4 _ (by simp [hl]; omega)).trans (hw _)

/-- The bytes of `TOD_GET`. -/
def todReport (s : State) : List Byte :=
  le 8 s.tim.sec ++ le 4 s.tim.ns ++ [BitVec.ofNat 8 (b2n (s.flag fTIM_STATUS_TOD_VALID) + 16 * s.fld fTIM_STATUS_EPOCH), 0#8, 0#8, 0#8] ++
    le 8 s.life.toNat

theorem todReport_spec (t : State) : (todReport t).length = 24 ∧ fld (todReport t) 0 8 = t.tim.sec % 2 ^ 64 ∧
    fld (todReport t) 8 4 = t.tim.ns % 2 ^ 32 ∧
    fld (todReport t) 12 1 = b2n (t.flag fTIM_STATUS_TOD_VALID) + 16 * t.fld fTIM_STATUS_EPOCH ∧ fld (todReport t) 16 8 = t.life.toNat := by
  have he : t.fld fTIM_STATUS_EPOCH < 2 ^ 4 := fld_lt t fTIM_STATUS_EPOCH
  have hb : b2n (t.flag fTIM_STATUS_TOD_VALID) ≤ 1 := by cases t.flag fTIM_STATUS_TOD_VALID <;> decide
  have hv : b2n (t.flag fTIM_STATUS_TOD_VALID) + 16 * t.fld fTIM_STATUS_EPOCH < 2 ^ (8 * 1) := by omega
  unfold todReport
  generalize b2n (t.flag fTIM_STATUS_TOD_VALID) + 16 * t.fld fTIM_STATUS_EPOCH = v at hv ⊢
  refine ⟨by simp, ?_, ?_, ?_, ?_⟩
  · simp only [List.append_assoc]
    exact fld_middle [] _ 0 8 _ rfl
  · simp only [List.append_assoc]
    exact fld_middle (le 8 _) _ 8 4 _ (by simp)
  · have h := fld_middle (le 8 t.tim.sec ++ le 4 t.tim.ns) ([0#8, 0#8, 0#8] ++ le 8 t.life.toNat) 12 1 v (by simp)
    simp only [List.append_assoc] at h ⊢
    exact h.trans (Nat.mod_eq_of_lt hv)
  · have h := fld_middle (le 8 t.tim.sec ++ le 4 t.tim.ns ++ [BitVec.ofNat 8 v, 0#8, 0#8, 0#8]) [] 16 8 t.life.toNat (by simp)
    rw [List.append_nil] at h
    exact h.trans (Nat.mod_eq_of_lt t.life.isLt)

/-! ### Steps by command (R358) -/

/-- The parameters of a step by a signed number of ns keep the time of day in its range. -/
theorem todStep_range (q : Request) (t : State) (h : cmdTodStep.params q.params t = none) (h1 : fld q.params 0 1 = 1)
    (hv : t.flag fTIM_STATUS_TOD_VALID = true) :
    0 ≤ t.todNs + signed 64 (fld q.params 4 8) ∧ t.todNs + signed 64 (fld q.params 4 8) < 2 ^ 34 * 1000000000 := by
  have hp := (firstBad_none _).1 h _ (List.mem_cons_of_mem _ (List.mem_cons_of_mem _ List.mem_cons_self))
  simp only [h1, hv, Bool.or_eq_false_iff, Bool.and_eq_false_iff, decide_eq_false_iff_not, beq_self_eq_true, Bool.and_self, Bool.true_eq_false,
    false_or] at hp
  omega

/-- The parameters of a step to a time of day lie in its range. -/
theorem todStep_sec (q : Request) (t : State) (h : cmdTodStep.params q.params t = none) (h2 : fld q.params 0 1 = 2) :
    fld q.params 4 8 < 2 ^ 34 := by
  have hp := (firstBad_none _).1 h _ (List.mem_cons_of_mem _ (List.mem_cons_of_mem _ List.mem_cons_self))
  simp only [h2, Bool.or_eq_false_iff, Bool.and_eq_false_iff, decide_eq_false_iff_not, beq_self_eq_true, Bool.or_true, Bool.true_eq_false,
    false_or] at hp
  omega

/-- A read of `TIM_TOD_LO`. -/
theorem todLoRead_completes (who : Fin 3) (s : State) : Completes (.todLoRead who) s fun t => t.regs = s.regs ∧
    (s.ready = true → t.out.data = BitVec.ofNat 32 s.tim.sec ∧ t.rlOf who rTIM_TOD_HI = BitVec.ofNat 32 (s.tim.sec / 2 ^ 32 % 4) ∧
      t.rlOf who rTIM_TOD_NS = BitVec.ofNat 32 s.tim.ns) ∧
    (s.ready = false → t.out.data = 0#32 ∧ t.rl = s.rl) := by
  cases hr : s.ready with
  | true =>
    refine ⟨_, congrArg ok (if_pos hr), ?_, fun _ => ⟨?_, ?_, ?_⟩, nofun⟩
    · rw [settle_regs]
      rfl
    · rw [settle_data]
      rfl
    · rw [State.rlOf, settle_rl]
      exact smGet_smSet_same _ _ _ _
    · rw [State.rlOf, settle_rl]
      refine (smGet_smSet_other _ _ _ _ _ ?_).trans (smGet_smSet_same _ _ _ _)
      simp only [rTIM_TOD_HI, rTIM_TOD_NS]
      omega
  | false =>
    refine ⟨_, congrArg ok (if_neg (Bool.eq_false_iff.1 hr)), ?_, nofun, fun _ => ⟨?_, ?_⟩⟩
    · rw [settle_regs]
      rfl
    · rw [settle_data]
      rfl
    · rw [settle_rl]
      rfl

/-! ### The third bad pulse, and the end of the second -/

theorem Logged.trans {s u t : State} {l m : List (Nat × Nat × Nat × Nat)} (h : Logged s u l) (h' : Logged u t m) : Logged s t (l ++ m) := by
  refine ⟨by rw [h'.1, h.1, List.length_append, BitVec.ofNat_add, BitVec.add_assoc], fun hr => ?_⟩
  rw [List.length_append] at hr
  have hu := h.2 (by omega)
  have hlen : u.cb.input.length = s.cb.input.length + l.length := by simpa using congrArg List.length hu
  rw [h'.2 (by omega), hu, List.map_append, List.append_assoc]

/-- The third bad pulse in a row steps the time onto it. -/
theorem ppsValid_third (err : Int) (s : State) (h : 800 < err.natAbs) (h2 : s.tim.ppsBad = 2) : let t := ppsValid err s
    t.flag fTIM_STATUS_PPS_LOS = false ∧ t.flag fTIM_STATUS_PPS_LOCK = false ∧ t.flag fTIM_STATUS_TOD_VALID = true ∧
      t.fld fTIM_STATUS_EPOCH = (s.fld fTIM_STATUS_EPOCH + 1) % 16 ∧
      t.tim = { s.tim with ppsMiss := 0, ppsSeen := true, ppsGood := 0, ppsBad := 0, slew := 0, ns := 0,
                           sec := (if err < 0 then s.tim.sec + 1 else s.tim.sec) % 2 ^ 34 } ∧
      OnlyRegs [rTIM_STATUS] s t ∧
      Logged s t ((if s.flag fTIM_STATUS_PPS_LOS = false ∧ s.flag fTIM_STATUS_PPS_LOCK = false then [] else [(0x090B, bTIM, 0, 0)]) ++
        [(0x090A, bTIM, sat32 ((ppsChange err).tdiv 1000000), s.fld fTIM_STATUS_EPOCH + 256)]) := by
  intro t
  obtain ⟨u, hlos, hlock, hepoch, htim, hregs, hlog, hx⟩ := ppsValid_far err s h
  rw [if_pos h2] at hx
  obtain ⟨w, hw⟩ : ∃ w : State, w = { u with tim := { u.tim with ppsBad := 0, slew := 0 } } := ⟨_, rfl⟩
  have hwr : w.regs = u.regs := by rw [hw]
  have hwc : w.cb = u.cb := by rw [hw]
  have hwt : w.tim = { u.tim with ppsBad := 0, slew := 0 } := by rw [hw]
  obtain ⟨ht, he, hv, hl, hk, hr, hg⟩ := ppsStep_spec err w
  have htx : t = ppsStep err w := by rw [hw]; exact hx
  rw [htx]
  have hwu : OnlyRegs [rTIM_STATUS] u w := .of_regs hwr
  refine ⟨?_, ?_, hv, ?_, ?_, (hregs.trans hwu).trans hr, ?_⟩
  · rw [State.flag, hl, State.fld_congr hwr]
    exact hlos
  · rw [State.flag, hk, State.fld_congr hwr]
    exact hlock
  · rw [he, State.fld_congr hwr, hepoch]
  · rw [ht, hwt, htim]
  · rw [State.fld_congr hwr, hepoch] at hg
    exact hlog.trans (hg.start hwc.symm)

/-- Before the third, the flags clear and the bad pulses count. -/
theorem ppsValid_bad (err : Int) (s : State) (h : 800 < err.natAbs) (h2 : s.tim.ppsBad ≠ 2) : let t := ppsValid err s
    t.flag fTIM_STATUS_PPS_LOS = false ∧ t.flag fTIM_STATUS_PPS_LOCK = false ∧
      t.tim = { s.tim with ppsMiss := 0, ppsSeen := true, ppsGood := 0, ppsBad := s.tim.ppsBad + 1 } ∧ OnlyRegs [rTIM_STATUS] s t := by
  intro t
  obtain ⟨u, hlos, hlock, -, htim, hregs, -, hx⟩ := ppsValid_far err s h
  rw [if_neg h2] at hx
  have htx : t = u := hx
  rw [htx]
  exact ⟨hlos, hlock, htim, hregs⟩

/-- The next second of a state. -/
def secondAdvanced (s : State) : State := { s with tim := { s.tim with sec := (s.tim.sec + 1) % 2 ^ 34, ns := 0, pendingStep := none } }

theorem internalSecond_none (s : State) (h : s.tim.pendingStep = none) :
    exec .internalSecond s = .next (settle (secondAdvanced (secondBegun s))) := by
  have hp : (secondBegun s).tim.pendingStep = none := by
    obtain ⟨ht, -⟩ := secondBegun_spec s
    rw [ht]
    exact h
  show execInternalSecond s = ok _
  unfold execInternalSecond
  extract_lets left ofs _ u
  have hu : u = secondBegun s := rfl
  clear_value u
  subst hu
  split
  next => rw [secondAdvanced, ← hp]
  next hs =>
    rw [hp] at hs
    cases hs

theorem internalSecond_some (s : State) (v : Nat) (o : Origin) (h : s.tim.pendingStep = some (v, o)) :
    let u := todStep v 0 0 (secondAdvanced (secondBegun s))
    (∀ op, (s.ops.find? fun x => x.opcode == 0x0504 && decide (x.org = o)) = some op →
        exec .internalSecond s = .next (settle (endOp op { status := stOK } [] u))) ∧
      ((s.ops.find? fun x => x.opcode == 0x0504 && decide (x.org = o)) = none → exec .internalSecond s = .next (settle u)) := by
  intro u
  obtain ⟨ht, -, ho, -⟩ := secondBegun_spec s
  have hp : (secondBegun s).tim.pendingStep = some (v, o) := by
    rw [ht]
    exact h
  have hops : u.ops = s.ops := (offer_ops _ _ _ _ _).trans ho
  have hx : execInternalSecond s = match (u.ops.find? fun x => x.opcode == 0x0504 && decide (x.org = o)) with
      | some op => ok (endOp op { status := stOK } [] u)
      | none => ok u := by
    unfold execInternalSecond
    extract_lets left ofs _ w
    have hw : w = secondBegun s := rfl
    clear_value w
    subst hw
    split
    next hs =>
      rw [hp] at hs
      cases hs
    next v' o' hs =>
      rw [hp] at hs
      cases hs
      rfl
  rw [hops] at hx
  refine ⟨fun op hf => ?_, fun hf => ?_⟩
  · rw [hf] at hx
    exact hx
  · rw [hf] at hx
    exact hx

/-- What an internal second leaves, whether or not it brings a pending step into force. -/
def SecondDone (s t : State) : Prop :=
  t.tim.slew = s.tim.slew - clampI (-80) 80 s.tim.slew ∧
    t.tim.ppsOfs = clampI (-500000000) 500000000 (s.sfld fTIM_PPS_OFS_OFS_NS) * 8 + (s.fld fTIM_PPS_FRAC_FRAC : Int) ∧
    t.out.pps = (if s.flag fTIM_PPS_PPS_OUT_EN then some (t.tim.ppsOfs, clampN 1 1000 (s.fld fTIM_PPS_WIDTH)) else none) ∧
    t.out.fp = s.out.fp + b2n (s.flag fTIM_PPS_PPS_OUT_EN && s.fpSrc == 6) ∧ t.tim.ns = 0 ∧ t.tim.pendingStep = none ∧
    ∀ x : Fin 8, t.fld (fTIM_IN_STATUS_WTR_LEFT x) = s.fld (fTIM_IN_STATUS_WTR_LEFT x) - 1

theorem secondAdvanced_done (s : State) : SecondDone s (secondAdvanced (secondBegun s)) := by
  obtain ⟨htim, -, -, hpps, hfp, -, hw⟩ := secondBegun_spec s
  refine ⟨congrArg TimSt.slew htim, congrArg TimSt.ppsOfs htim, ?_, hfp, rfl, rfl, hw⟩
  have hofs : (secondAdvanced (secondBegun s)).tim.ppsOfs = (secondBegun s).tim.ppsOfs := rfl
  rw [hofs, htim]
  exact hpps

theorem SecondDone.settle {s t : State} (h : SecondDone s t) : SecondDone s (settle t) := by
  have ho : (Machine.settle t).out.pps = t.out.pps ∧ (Machine.settle t).out.fp = t.out.fp := by
    rw [settle_other]
    exact ⟨rfl, rfl⟩
  simpa only [SecondDone, settle_tim, fld_settle, ho.1, ho.2] using h

/-- A step to a whole second leaves what the internal second did. -/
theorem SecondDone.todStep {s t : State} (h : SecondDone s t) (sec cause : Nat) : SecondDone s (todStep sec 0 cause t) := by
  obtain ⟨hslew, hofs, hpps, hfp, -, hnone, hw⟩ := h
  obtain ⟨htim, -, -, hregs, -⟩ := todStep_spec sec 0 cause t
  have ho : (Machine.todStep sec 0 cause t).out = t.out := offer_out _ _ _ _ _
  refine ⟨(congrArg TimSt.slew htim).trans hslew, (congrArg TimSt.ppsOfs htim).trans hofs, ?_, ?_,
    congrArg TimSt.ns htim, (congrArg TimSt.pendingStep htim).trans hnone, fun x => ?_⟩
  · rw [ho, hpps, congrArg TimSt.ppsOfs htim]
  · rw [ho]
    exact hfp
  · refine (hregs.fld ?_ ?_).trans (hw x) <;> revert x <;> decide

/-- What an internal second leaves with no step pending. -/
theorem internalSecond_completes (s : State) (h : s.tim.pendingStep = none) : Completes .internalSecond s fun t =>
    SecondDone s t ∧ t.tim.sec = (s.tim.sec + 1) % 2 ^ 34 ∧ t.cb = s.cb ∧ OnlyRegs ((span 0 8).map rTIM_IN_STATUS) s t := by
  obtain ⟨htim, hcb, -, -, -, hregs, -⟩ := secondBegun_spec s
  refine ⟨_, internalSecond_none s h, (secondAdvanced_done s).settle, ?_, (settle_cb _).trans hcb, OnlyRegs.settle (hregs.trans (.of_regs rfl))⟩
  rw [settle_tim, secondAdvanced, htim]

/-- A pending step that comes into force with an internal second. -/
theorem pendingStep_taken (s : State) (v : Nat) : let u := todStep v 0 0 (secondAdvanced (secondBegun s))
    SecondDone s u ∧ u.tim.sec = v % 2 ^ 34 ∧ u.fld fTIM_STATUS_EPOCH = (s.fld fTIM_STATUS_EPOCH + 1) % 16 ∧
      u.flag fTIM_STATUS_TOD_VALID = true ∧ OnlyRegs (rTIM_STATUS :: (span 0 8).map rTIM_IN_STATUS) s u := by
  obtain ⟨-, -, -, -, -, hregs, -⟩ := secondBegun_spec s
  obtain ⟨w, hw⟩ : ∃ w, w = secondAdvanced (secondBegun s) := ⟨_, rfl⟩
  have hws : OnlyRegs ((span 0 8).map rTIM_IN_STATUS) s w := by
    rw [hw]
    exact hregs.trans (.of_regs rfl)
  have hdone : SecondDone s w := by
    rw [hw]
    exact secondAdvanced_done s
  obtain ⟨htim, hepoch, hvalid, hr, -⟩ := todStep_spec v 0 0 w
  rw [← hw]
  refine ⟨hdone.todStep v 0, congrArg TimSt.sec htim, ?_, hvalid, ?_⟩
  · rw [hepoch, hws.fld (by decide) (by decide)]
  · exact (hws.mono fun _ hx => List.mem_cons_of_mem _ hx).trans (hr.mono fun _ hx => List.mem_cons.2 (.inl (List.mem_singleton.1 hx)))

/-- A mode 0 `TOD_STEP` pends until the next internal second. -/
theorem todStep_pends : Does cmdTodStep .todStep (fun q _ => fld q.params 0 1 = 0) fun q t ans u =>
    u.tim.pendingStep = some (fld q.params 4 8, q.org) ∧ u.todNs = t.todNs ∧
    u.regs = t.regs ∧ u.cb = t.cb ∧ ∃ op, ans = .defer op ∧ op.org = q.org ∧ op.opcode = 0x0504 ∧ op.holds = [resTIM] :=
  does_of (fun _ _ => rfl) fun _ _ _ h0 => ⟨_, _, (if_neg (by simp [h0])).trans (if_pos h0), rfl, rfl, rfl, rfl, _, rfl, rfl, rfl, rfl⟩

/-- A mode 1 `TOD_STEP` adds a signed number of ns. -/
theorem todStep_adds : Does cmdTodStep .todStep (fun q t => fld q.params 0 1 = 1 ∧ t.flag fTIM_STATUS_TOD_VALID = true) fun q t ans u =>
    ans = .done [] ∧ u.todNs = t.todNs + signed 64 (fld q.params 4 8) ∧ u.fld fTIM_STATUS_EPOCH = (t.fld fTIM_STATUS_EPOCH + 1) % 16 ∧
      OnlyRegs [rTIM_STATUS] t u := by
  refine does_of (fun _ _ => rfl) fun q t hq h => ?_
  obtain ⟨h1, hv⟩ := h
  obtain ⟨hlo, hhi⟩ := todStep_range q t hq h1 hv
  obtain ⟨htim, hepoch, -, hregs, -⟩ := todStep_spec ((t.todNs + signed 64 (fld q.params 4 8)).toNat / 1000000000)
    ((t.todNs + signed 64 (fld q.params 4 8)).toNat % 1000000000) 0 t
  refine ⟨_, _, (if_neg (by simp [hv])).trans ((if_neg (by simp [h1])).trans (if_pos h1)), rfl, ?_, hepoch, hregs⟩
  rw [State.todNs, htim]
  generalize t.todNs + signed 64 (fld q.params 4 8) = r at hlo hhi
  show ((r.toNat / 1000000000 % 2 ^ 34 : Nat) : Int) * 1000000000 + ((r.toNat % 1000000000 : Nat) : Int) = r
  omega

/-- A mode 2 `TOD_STEP` sets the time of day. -/
theorem todStep_sets : Does cmdTodStep .todStep (fun q _ => fld q.params 0 1 = 2) fun q t ans u =>
    ans = .done [] ∧ u.tim.sec = fld q.params 4 8 ∧ u.tim.ns = fld q.params 12 4 ∧
    u.flag fTIM_STATUS_TOD_VALID = true ∧ u.fld fTIM_STATUS_EPOCH = (t.fld fTIM_STATUS_EPOCH + 1) % 16 ∧ OnlyRegs [rTIM_STATUS] t u := by
  refine does_of (fun _ _ => rfl) fun q t hq h2 => ?_
  obtain ⟨htim, hepoch, hvalid, hregs, -⟩ := todStep_spec (fld q.params 4 8) (fld q.params 12 4) 0 t
  refine ⟨_, _, (if_neg (by simp [h2])).trans ((if_neg (by simp [h2])).trans (if_neg (by simp [h2]))), rfl, ?_, congrArg TimSt.ns htim, hvalid,
    hepoch, hregs⟩
  exact (congrArg TimSt.sec htim).trans (Nat.mod_eq_of_lt (todStep_sec q t hq h2))

/-! ### The statement -/

theorem ppsPulse_valid (b : Bool) (gap err : Int) (s : State) (hsrc : s.ppsSrc = (if b then 2 else 1))
    (hg : s.tim.ppsSeen = false ∨ ∃ k : Int, 1 ≤ k ∧ (gap - k * 1000000000).natAbs ≤ 10000) :
    exec (.ppsPulse b gap err) s = .next (settle (ppsValid err s)) := by
  have h0 : s.ppsSrc ≠ 0 := by cases b <;> simp [hsrc]
  rw [← ppsInTime_iff] at hg
  exact (if_neg (by simp [h0, ← hsrc])).trans (if_pos (by simpa using hg))

theorem ppsPulse_invalid (b : Bool) (gap err : Int) (s : State) (hsrc : s.ppsSrc = (if b then 2 else 1)) (hs : s.tim.ppsSeen = true)
    (hg : ∀ k : Int, 1 ≤ k → 10000 < (gap - k * 1000000000).natAbs) :
    exec (.ppsPulse b gap err) s = .next (settle (ppsMissed ((gap - 10001) / 1000000000).toNat s)) := by
  have h0 : s.ppsSrc ≠ 0 := by cases b <;> simp [hsrc]
  have hn : ppsInTime gap = false := by
    rw [Bool.eq_false_iff, ne_eq, ppsInTime_iff]
    rintro ⟨k, hk, hle⟩
    exact Nat.not_le.2 (hg k hk) hle
  exact (if_neg (by simp [h0, ← hsrc])).trans (if_neg (by simp [hs, hn]))

/-- Settles O47: each event and request by the lemma that says what it leaves; a pulse by whether it lies within 100 ns. -/
theorem timeOfDayAndTimingRequests : Obligations.TimeOfDayAndTimingRequests := by
  unfold Obligations.TimeOfDayAndTimingRequests
  refine ⟨?_, ?_, ?_, ?_, ?_, ?_, todStep_pends, todStep_adds, todStep_sets, ?_, timSet_does, ?_, ?_, todLoRead_completes⟩
  · intro sec ns cause s t e
    obtain ⟨htim, hepoch, hvalid, hregs, hlog⟩ := todStep_spec sec ns cause s
    refine ⟨congrArg TimSt.sec htim, congrArg TimSt.ns htim, hepoch, hvalid, ?_, hregs, hlog⟩
    exact offer_life _ _ _ _ _
  · intro b gap err s hsrc hg
    have hx := ppsPulse_valid b gap err s hsrc hg
    refine ⟨fun h => ⟨_, hx, ?_⟩, fun h => ⟨_, hx, ?_⟩⟩
    · obtain ⟨hlos, hlock, htim, hregs, hlog⟩ := ppsValid_near err s h
      simp only [flag_settle, todNs_settle, settle_tim]
      refine ⟨hlos, hlock, congrArg TimSt.slew htim, ?_, congrArg TimSt.ppsGood htim, congrArg TimSt.ppsBad htim, congrArg TimSt.ppsMiss htim,
        congrArg TimSt.ppsSeen htim, hregs.settle, hlog.settle⟩
      rw [State.todNs, htim]
      rfl
    · simp only [flag_settle, fld_settle, todNs_settle, settle_tim]
      by_cases h2 : s.tim.ppsBad = 2
      · obtain ⟨hlos, hlock, hvalid, hepoch, htim, hregs, hlog⟩ := ppsValid_third err s h h2
        exact ⟨hlos, hlock, congrArg TimSt.ppsGood htim, congrArg TimSt.ppsMiss htim, congrArg TimSt.ppsSeen htim, hregs.settle,
          fun hn => absurd h2 hn, fun _ => ⟨congrArg TimSt.ppsBad htim, congrArg TimSt.slew htim, congrArg TimSt.sec htim,
            congrArg TimSt.ns htim, hepoch, hlog.settle, hvalid⟩⟩
      · obtain ⟨hlos, hlock, htim, hregs⟩ := ppsValid_bad err s h h2
        refine ⟨hlos, hlock, congrArg TimSt.ppsGood htim, congrArg TimSt.ppsMiss htim, congrArg TimSt.ppsSeen htim, hregs.settle,
          fun _ => ⟨congrArg TimSt.ppsBad htim, ?_⟩, fun hn => absurd hn h2⟩
        rw [State.todNs, htim]
        rfl
  · intro b gap err s _ hsrc hs hg m
    obtain ⟨htim, hlock, hlos, hregs⟩ := ppsMissed_spec m s
    refine ⟨_, ppsPulse_invalid b gap err s hsrc hs hg, ?_⟩
    simp only [flag_settle, todNs_settle, settle_tim]
    refine ⟨congrArg TimSt.ppsMiss htim, hlock, hlos, ?_, (congrArg TimSt.slew htim).trans rfl, hregs.settle⟩
    rw [State.todNs, htim]
    rfl
  · intro s h0
    obtain ⟨htim, hlock, hlos, hregs⟩ := ppsMissed_spec (s.tim.ppsMiss + 1) s
    refine ⟨_, if_neg h0, ?_⟩
    simp only [flag_settle, todNs_settle, settle_tim]
    refine ⟨?_, hlock, ?_, ?_, hregs.settle⟩
    · rw [htim]
      exact Nat.max_eq_right (Nat.le_succ _)
    · have hthird : (decide (s.tim.ppsMiss < 3) && decide (3 ≤ s.tim.ppsMiss + 1)) = (s.tim.ppsMiss == 2) := by
        rw [Bool.eq_iff_iff]
        simp only [Bool.and_eq_true, decide_eq_true_eq, beq_iff_eq]
        omega
      rw [hlos, hthird]
    · rw [State.todNs, htim]
      rfl
  · intro b gap err s
    exact ⟨fun h => if_pos (by simp [h]), fun h => if_pos h⟩
  · intro s after
    exact ⟨internalSecond_completes s, fun v o h =>
      let ⟨hdone, hsec, hepoch, hvalid, hregs⟩ := pendingStep_taken s v
      ⟨_, hdone, hsec, hepoch, hvalid, hregs, internalSecond_some s v o h⟩⟩
  · exact turned_of (fun _ _ => rfl) fun q t _ h => if_pos (by simp [h.1, h.2])
  · refine does_of (fun _ _ => rfl) fun q t _ _ => ?_
    exact ⟨_, t, rfl, rfl, _, rfl, timReport_spec t⟩
  · refine does_of (fun _ _ => rfl) fun q t _ _ => ?_
    exact ⟨_, t, rfl, rfl, _, rfl, todReport_spec t⟩

end Sys2Proof.Machine
end

section
namespace Sys2Proof.Machine

open Sys2Proof

/-! # Register writes by the class of each field (O13) -/

/-! ### Bits under a mask -/

/-- Two words agree in some bits when their difference has none of them. -/
theorem xor_and_eq_zero_iff (a b m : Word) : (a ^^^ b) &&& m = 0#32 ↔ a &&& m = b &&& m := by
  have hd : (a ^^^ b) &&& m = (a &&& m) ^^^ (b &&& m) := BitVec.eq_of_getLsbD_eq fun i _ => by
    simp only [BitVec.getLsbD_and, BitVec.getLsbD_xor, Bool.and_xor_distrib_right]
  rw [hd]
  exact BitVec.xor_eq_zero_iff

theorem getLsbD_mix (m new old : Word) (i : Nat) : (mix m new old).getLsbD i = if m.getLsbD i then new.getLsbD i else old.getLsbD i := by
  simp only [mix, BitVec.getLsbD_or, BitVec.getLsbD_and, BitVec.getLsbD_not]
  cases hm : m.getLsbD i with
  | true => simp
  | false =>
    cases ho : old.getLsbD i with
    | true => simp [BitVec.lt_of_getLsbD ho]
    | false => simp

theorem mix_and_mask (m new old : Word) : mix m new old &&& m = new &&& m := BitVec.eq_of_getLsbD_eq fun i _ => by
  rw [BitVec.getLsbD_and, BitVec.getLsbD_and, getLsbD_mix]
  cases m.getLsbD i <;> simp

theorem mix_and_not (m new old : Word) : mix m new old &&& ~~~m = old &&& ~~~m := BitVec.eq_of_getLsbD_eq fun i _ => by
  rw [BitVec.getLsbD_and, BitVec.getLsbD_and, getLsbD_mix, BitVec.getLsbD_not]
  cases m.getLsbD i <;> simp

/-! ### Configuration errors -/

/-- A configuration error sets its bit, and leaves the offset where no error was set. -/
theorem cfgError_spec (f : Fld) (off : Nat) (s : State) (hf : f.reg = rSYS_CFG_ERR) (hok : f.ok) (hw : 0 < f.w) :
    (cfgError f off s).flag f = true ∧ OnlyRegs [rSYS_CFG_ERR, rSYS_CFG_ERR_ADDR] s (cfgError f off s) ∧
      (s.rd rSYS_CFG_ERR = 0#32 → (cfgError f off s).rd rSYS_CFG_ERR_ADDR = BitVec.ofNat 32 off) ∧
      (s.rd rSYS_CFG_ERR ≠ 0#32 → (cfgError f off s).rd rSYS_CFG_ERR_ADDR = s.rd rSYS_CFG_ERR_ADDR) := by
  have hr : rSYS_CFG_ERR_ADDR ≠ f.reg := by
    rw [hf]
    decide
  unfold cfgError
  extract_lets u
  have hu : OnlyRegs [rSYS_CFG_ERR, rSYS_CFG_ERR_ADDR] s u := by
    by_cases h : s.rd rSYS_CFG_ERR = 0#32
    · rw [show u = _ from if_pos h]
      exact .wr (.refl _ s) _ (List.mem_cons_of_mem _ List.mem_cons_self)
    · rw [show u = _ from if_neg h]
      exact .refl _ s
  refine ⟨State.flag_setB_same _ _ _ hok hw, hu.setB (f := f) _ (hf ▸ List.mem_cons_self), fun h => ?_, fun h => ?_⟩
  · rw [State.setB, State.rd_setF_other _ _ _ _ hr, show u = _ from if_pos h]
    exact State.rd_wr_same _ _ _
  · rw [State.setB, State.rd_setF_other _ _ _ _ hr, show u = _ from if_neg h]

theorem cfgError_rehearsals (f : Fld) (off : Nat) (s : State) : (cfgError f off s).rehearsals = s.rehearsals := by
  unfold cfgError
  dsimp only
  split <;> rfl

/-! ### The classes -/

theorem getLsbD_writeLive (off : Nat) (w : Word) (s : State) (i : Nat) : ((writeLive off w s).rd off).getLsbD i =
    ((if (fieldBits off .rw .live).getLsbD i then (liveTaken off (s.rd off) w).getLsbD i else (s.rd off).getLsbD i) &&
      !((fieldBits off .rw1c .none).getLsbD i && w.getLsbD i)) := by
  unfold writeLive
  rw [State.rd_wr_same, BitVec.getLsbD_and, getLsbD_mix, BitVec.getLsbD_not, BitVec.getLsbD_and, Bool.and_comm (w.getLsbD i)]
  by_cases hi : i < 32
  · simp only [hi, decide_true, Bool.true_and]
  · simp [BitVec.getLsbD_of_ge _ i (Nat.le_of_not_lt hi)]

/-- A written value that the Dark fields have already changes nothing. -/
theorem writeDark_same (off : Nat) (w : Word) (s : State) (h : w &&& fieldBits off .rw .dark = s.rd off &&& fieldBits off .rw .dark) :
    writeDark off w s = s := if_pos ((xor_and_eq_zero_iff _ _ _).2 h)

/-- Another value is taken while the domain is DARK, and an error otherwise. -/
theorem writeDark_differs (off d : Nat) (w : Word) (s : State) (hd : regDomain off = some d)
    (h : w &&& fieldBits off .rw .dark ≠ s.rd off &&& fieldBits off .rw .dark) :
    writeDark off w s = if s.fld (fPD d) = 0 then s.wr off (mix (fieldBits off .rw .dark) w (s.rd off)) else cfgError fSYS_CFG_ERR_DARK_WRITE off s := by
  refine (if_neg (mt (xor_and_eq_zero_iff _ _ _).1 h)).trans ?_
  rw [hd]

theorem writeDark_dark (off d : Nat) (w : Word) (s : State) (hd : regDomain off = some d) (h0 : s.fld (fPD d) = 0) :
    let m := fieldBits off .rw .dark
    (writeDark off w s).rd off &&& m = w &&& m ∧ (writeDark off w s).rd off &&& ~~~m = s.rd off &&& ~~~m ∧
      ∀ j, j ≠ off → (writeDark off w s).rd j = s.rd j := by
  intro m
  by_cases h : w &&& m = s.rd off &&& m
  · rw [writeDark_same off w s h]
    exact ⟨h.symm, rfl, fun _ _ => rfl⟩
  · rw [writeDark_differs off d w s hd h, if_pos h0, State.rd_wr_same]
    exact ⟨mix_and_mask _ _ _, mix_and_not _ _ _, fun j hj => State.rd_wr_other _ _ _ _ hj⟩

/-- A session whose bank takes the Cue fields of a written word. -/
def Rehearsal.cueTaken (off : Nat) (w : Word) (r : Rehearsal) : Rehearsal :=
  { r with bank := bankWr r.bank off (mix (cueBits off) w (bankRd r.bank off)) }

/-- The Cue fields go to the bank of a session that master 1 owns. -/
theorem writeCue_owned (off b : Nat) (w : Word) (r : Rehearsal) (s : State) (hb : cueBlock off = some b) (hs : s.session b = some r)
    (ho : r.owner = ⟨1, 0, 0⟩) : writeCue off w s = setSession b (Rehearsal.cueTaken off w) s := by
  unfold writeCue
  rw [hb]
  dsimp only
  rw [hs]
  exact if_pos (by simp [sameWho, ho])

/-- Without such a session another value is an error. -/
theorem writeCue_unowned (off b : Nat) (w : Word) (s : State) (hb : cueBlock off = some b)
    (hs : ∀ r, s.session b = some r → r.owner ≠ ⟨1, 0, 0⟩) (h : w &&& cueBits off ≠ s.rd off &&& cueBits off) :
    writeCue off w s = cfgError fSYS_CFG_ERR_NO_SESSION off s := by
  have hx := mt (xor_and_eq_zero_iff w (s.rd off) (cueBits off)).1 h
  unfold writeCue
  rw [hb]
  dsimp only
  split
  next r hr => exact (if_neg (by simp [sameWho, hs r hr])).trans (if_neg hx)
  next => exact if_neg hx

/-- What a search finds after the first hit is replaced by something that is a hit as well. -/
theorem find?_replaceFirst {α : Type} (p : α → Bool) (f : α → α) (l : List α) (hf : ∀ x, p x = true → p (f x) = true) :
    (replaceFirst p f l).find? p = (l.find? p).map f := by
  induction l with
  | nil => rfl
  | cons x l ih =>
    cases hx : p x with
    | true => simp [replaceFirst, hx, hf x hx]
    | false => simp [replaceFirst, hx, ih]

theorem session_setSession (b : Nat) (f : Rehearsal → Rehearsal) (s : State) (hf : ∀ r, (f r).block = r.block) :
    (setSession b f s).session b = (s.session b).map f :=
  find?_replaceFirst _ _ _ fun r h => by rw [hf]; exact h

/-! ### The path of a write -/

/-- A write through function 0 at READY to a register that is not its own, nor a counter, nor one of a queue or of an injection. -/
theorem regWrite_shared (off : Nat) (w : Word) (s : State) (hr : s.ready = true) (h4 : off % 4 = 0) (hb : off < fnBase)
    (ho : (regFind .perFn 0 off regTable).isSome = false) (hc : ¬ (0x30000 ≤ off ∧ off < 0x3C000)) (hq : ¬ (0x301000 ≤ off ∧ off < 0x301100))
    (hm : off ≠ rMEM_FLIP) (hs : off ≠ rMEM_SFLIP) : regWrite 0 off w s = writeShared off w s := by
  have hz : writeZero off w s = writeShared off w s :=
    (if_neg (by simpa using hc)).trans ((if_neg (by simpa using hq)).trans (if_neg (by simp [hm, hs])))
  exact (if_neg (by simp [h4, hb])).trans ((if_neg (by simp [hr])).trans ((if_neg (by simp [ho])).trans ((if_pos rfl).trans hz)))

/-- The write is turned away by another's claim. -/
theorem writeShared_claimed (off r : Nat) (w : Word) (s : State) (hr : regClaim off = some r) (hc : s.claimedByOther ⟨1, 0, 0⟩ r = true)
    (hb : cfgBits off ≠ 0#32) : writeShared off w s = cfgError fSYS_CFG_ERR_CLAIMED off s := by
  unfold writeShared
  rw [hr]
  exact if_pos (by simp [hc, hb])

theorem writeShared_unclaimed (off : Nat) (w : Word) (s : State) (hw : off ≠ rPWR_WAKE_CTRL)
    (hc : ∀ r, regClaim off = some r → s.claimedByOther ⟨1, 0, 0⟩ r = false) :
    writeShared off w s = written off w s (writeCue off w (writeDark off w (writeLive off w s))) := by
  unfold writeShared
  rw [if_neg hw]
  refine if_neg ?_
  split
  next r hr => simp [hc r hr]
  next => simp

/-- The registers that a claim covers are none of the counters and injections. -/
theorem regClaim_apart (off r : Nat) (h : regClaim off = some r) :
    ¬ (0x30000 ≤ off ∧ off < 0x3C000) ∧ off ≠ rMEM_FLIP ∧ off ≠ rMEM_SFLIP := by
  have hn : 0x50000 ≤ off ∧ off < 0x51000 ∨ 0x100000 ≤ off := by
    by_contra hc
    simp only [not_or, not_and, not_lt, not_le] at hc
    obtain ⟨ht, hl⟩ := hc
    unfold regClaim at h
    rw [if_neg, if_neg, if_neg, if_neg, if_neg] at h
    · cases h
    all_goals simp only [Bool.and_eq_true, decide_eq_true_eq, not_and, not_lt]; omega
  simp only [rMEM_FLIP, rMEM_SFLIP]
  omega

/-- Settles O13: the path of a write, then each class of fields, then the write that a claim turns away. -/
theorem registerFieldsByClass : Obligations.RegisterFieldsByClass := by
  unfold Obligations.RegisterFieldsByClass
  refine ⟨?_, ?_, ?_, ?_, ?_, ?_⟩
  · intro off w s hr h4 hb ho hc hq hm hs hw hcl
    rw [← writeShared_unclaimed off w s hw hcl, ← regWrite_shared off w s hr h4 hb ho hc hq hm hs]
    rfl
  · intro off w s t live clr
    refine ⟨rfl, fun j hj => State.rd_wr_other _ _ _ _ hj, fun i => ?_⟩
    have hbit : (t.rd off).getLsbD i = _ := getLsbD_writeLive off w s i
    rw [hbit]
    refine ⟨fun hc hw => ?_, fun hl hc => ?_, fun hl hc => ?_⟩
    · simp [show (fieldBits off .rw1c .none).getLsbD i = true from hc, hw]
    · simp [show (fieldBits off .rw1c .none).getLsbD i = false from hc, show (fieldBits off .rw .live).getLsbD i = true from hl]
    · rw [show ((fieldBits off .rw1c .none).getLsbD i && w.getLsbD i) = false from hc]
      simp [show (fieldBits off .rw .live).getLsbD i = false from hl]
  · intro off d w s hd m
    refine ⟨writeDark_dark off d w s hd, fun h0 h => ?_, fun h j => by rw [writeDark_same off w s h]⟩
    rw [writeDark_differs off d w s hd h, if_neg h0]
    obtain ⟨hflag, hregs, -⟩ := cfgError_spec fSYS_CFG_ERR_DARK_WRITE off s rfl (by decide) (by decide)
    exact ⟨hflag, hregs⟩
  · intro off b w r s hb hs
    refine ⟨fun ho => ?_, fun ho h => ?_⟩
    · have hx : (setSession b (Rehearsal.cueTaken off w) s).session b = some (r.cueTaken off w) := by
        rw [session_setSession b (Rehearsal.cueTaken off w) s fun _ => rfl, hs]
        rfl
      rw [writeCue_owned off b w r s hb hs ho]
      refine ⟨_, hx, rfl, rfl, ?_, fun j hj => smGet_smSet_other _ _ _ _ _ hj, rfl⟩
      rw [Rehearsal.cueTaken, bankRd, bankWr, smGet_smSet_same]
      exact mix_and_mask _ _ _
    · rw [writeCue_unowned off b w s hb (fun r' hr' => by rw [hs] at hr'; cases hr'; exact ho) h]
      obtain ⟨hflag, hregs, -⟩ := cfgError_spec fSYS_CFG_ERR_NO_SESSION off s rfl (by decide) (by decide)
      exact ⟨hflag, hregs, cfgError_rehearsals _ _ _⟩
  · intro off b w s hb hs h
    rw [writeCue_unowned off b w s hb (fun r' hr' => by rw [hs] at hr'; cases hr') h]
    obtain ⟨hflag, hregs, -⟩ := cfgError_spec fSYS_CFG_ERR_NO_SESSION off s rfl (by decide) (by decide)
    exact ⟨hflag, hregs⟩
  · intro off r w s hr h4 hb ho hq hcl hoth hbits
    obtain ⟨hc, hm, hsf⟩ := regClaim_apart off r hcl
    obtain ⟨hflag, hregs, hfirst, hlater⟩ := cfgError_spec fSYS_CFG_ERR_CLAIMED off s rfl (by decide) (by decide)
    refine ⟨settle (cfgError fSYS_CFG_ERR_CLAIMED off s), ?_, ?_⟩
    · rw [← writeShared_claimed off r w s hcl hoth hbits, ← regWrite_shared off w s hr h4 hb ho hc hq hm hsf]
      rfl
    · dsimp only
      rw [flag_settle, rd_settle]
      exact ⟨hflag, hregs.settle, hfirst, hlater⟩

end Sys2Proof.Machine
end


/-! # Frames sent (O31) -/
section
namespace Sys2Proof.Machine

open Sys2Proof

/-! ### What the payload and the cipher leave of a state -/

section
variable {s t : State}

/-- The parts that the payload of a frame and its cipher leave as they are: the registers of the channels (R2), the leaves, the life timestamp
and the bytes sent. -/
def State.TxParts (s : State) (regs : SMap Word) (leaf : Four LeafSt) (life : BitVec 64) (bytes : List Byte) : Prop :=
  (∀ off, 0x100000 ≤ off → off < 0x200000 → smGet resetWord regs off = s.rd off) ∧ leaf = s.leaf ∧ life = s.life ∧ bytes = s.out.bytes

/-- Between two states of a transmitter these parts are the same. As it is said of the parts, an update of any other part has it by `⟨h.on⟩`. -/
structure TxKeeps (s t : State) : Prop where
  on : s.TxParts t.regs t.leaf t.life t.out.bytes

theorem TxKeeps.refl (s : State) : TxKeeps s s := ⟨fun _ _ _ => rfl, rfl, rfl, rfl⟩

theorem TxKeeps.rd (h : TxKeeps s t) {off : Nat} (hl : 0x100000 ≤ off) (hu : off < 0x200000) : t.rd off = s.rd off := h.on.1 off hl hu

theorem TxKeeps.leaf (h : TxKeeps s t) : t.leaf = s.leaf := h.on.2.1

theorem TxKeeps.life (h : TxKeeps s t) : t.life = s.life := h.on.2.2.1

theorem TxKeeps.bytes (h : TxKeeps s t) : t.out.bytes = s.out.bytes := h.on.2.2.2

theorem TxKeeps.ite {c : Prop} {_ : Decidable c} {u : State} (ht : TxKeeps s t) (hu : TxKeeps s u) : TxKeeps s (if c then t else u) := by
  split
  · exact ht
  · exact hu

theorem TxKeeps.each {α : Type} {f : α → State → State} {l : List α} (hf : ∀ a u, TxKeeps s u → TxKeeps s (f a u)) (h : TxKeeps s t) :
    TxKeeps s (Sys2Proof.each l f t) := each_inv (TxKeeps s) f hf l t h

/-- A walk that carries a value beside the state. -/
theorem TxKeeps.foldl {α β : Type} {f : β × State → α → β × State} {l : List α} {a : β × State}
    (hf : ∀ b e, TxKeeps s b.2 → TxKeeps s (f b e).2) (h : TxKeeps s a.2) : TxKeeps s (l.foldl f a).2 :=
  List.foldlRecOn (motive := fun b : β × State => TxKeeps s b.2) l f h fun b hb e _ => hf b e hb

theorem TxKeeps.pairIte {α : Type} {c : Prop} {_ : Decidable c} {x y : α × State} (hx : TxKeeps s x.2) (hy : TxKeeps s y.2) :
    TxKeeps s (if c then x else y).2 := by
  split
  · exact hx
  · exact hy

/-- The state of a pair that a match has taken apart. -/
theorem TxKeeps.of_eq {α : Type} {x : α × State} {a : α} (h : TxKeeps s x.2) (e : x = (a, t)) : TxKeeps s t := by
  rw [e] at h
  exact h

/-- A state in two parts. -/
theorem TxKeeps.via {u : State} (hf : TxKeeps s t → TxKeeps s u) (h : TxKeeps s t) : TxKeeps s u := hf h

theorem TxKeeps.wr {off : Nat} {v : Word} (h : TxKeeps s t) (ho : off < 0x100000 ∨ 0x200000 ≤ off) : TxKeeps s (t.wr off v) :=
  ⟨fun j hl hu => (State.rd_wr_other t off j v (by omega)).trans (h.rd hl hu), h.on.2⟩

theorem TxKeeps.setF {f : Fld} {v : Nat} (h : TxKeeps s t) (ho : f.reg < 0x100000 ∨ 0x200000 ≤ f.reg) : TxKeeps s (t.setF f v) := h.wr ho

theorem TxKeeps.setB {f : Fld} {b : Bool} (h : TxKeeps s t) (ho : f.reg < 0x100000 ∨ 0x200000 ≤ f.reg) : TxKeeps s (t.setB f b) := h.wr ho

theorem TxKeeps.unreg {off : Nat} (h : TxKeeps s t) (ho : off < 0x100000 ∨ 0x200000 ≤ off) : TxKeeps s (t.unreg off) :=
  ⟨fun j hl hu => (State.rd_unreg_other t off j (by omega)).trans (h.rd hl hu), h.on.2⟩

theorem above_channels {a k : Nat} (h : 0x200000 ≤ a) : a + k < 0x100000 ∨ 0x200000 ≤ a + k := .inr (Nat.le_add_right_of_le h)

theorem TxKeeps.countN {k n : Nat} (h : TxKeeps s t) : TxKeeps s (countN k n t) := ⟨h.on⟩

theorem TxKeeps.count {k : Nat} (h : TxKeeps s t) : TxKeeps s (count k t) := .countN h

theorem TxKeeps.cntClear {k : Nat} (h : TxKeeps s t) : TxKeeps s (cntClear k t) := ⟨h.on⟩

theorem TxKeeps.setCph {c : CphSt} (h : TxKeeps s t) : TxKeeps s (t.setCph c) := ⟨h.on⟩

theorem TxKeeps.setKey {i : Nat} {k : Option KeyBytes} (h : TxKeeps s t) : TxKeeps s (setKey i k t) := ⟨h.on⟩

theorem TxKeeps.offer {code block p0 p1 : Nat} (h : TxKeeps s t) : TxKeeps s (offer code block p0 p1 t) :=
  .ite ⟨h.on⟩ (.setB (.count ⟨h.on⟩) (.inl (by decide)))

theorem TxKeeps.setFlips {st i n : Nat} (h : TxKeeps s t) : TxKeeps s (setFlips st i n t) := ⟨h.on⟩

theorem TxKeeps.withOh {x : Four OhSt} (h : TxKeeps s t) : TxKeeps s { t with oh := x } := ⟨h.on⟩

theorem TxKeeps.withPat {x : Four PatSt} (h : TxKeeps s t) : TxKeeps s { t with pat := x } := ⟨h.on⟩

theorem TxKeeps.setMapper {n c : Nat} {m : MapTx} (h : TxKeeps s t) : TxKeeps s (setMapper n c m t) := .withOh h

/-! ### The notice of an abandoned activation (R310) -/

theorem TxKeeps.toMbx {f : Nat} {notice : Bool} {pkt : List Byte} (h : TxKeeps s t) : TxKeeps s (toMbx f notice pkt t) := by
  have hr : rMBX_RSP_STATUS f < 0x100000 ∨ 0x200000 ≤ rMBX_RSP_STATUS f := by
    unfold rMBX_RSP_STATUS fnBase
    omega
  have hi : rINT_STATUS f < 0x100000 ∨ 0x200000 ≤ rINT_STATUS f := by
    unfold rINT_STATUS fnBase
    omega
  exact .ite (.count ⟨h.on⟩) (.ite (.setB (.count h) hr) (.ite (.setB ⟨h.on⟩ hi) ⟨h.on⟩))

theorem TxKeeps.toI2c {notice : Bool} {pkt : List Byte} (h : TxKeeps s t) : TxKeeps s (toI2c notice pkt t) :=
  .ite h (.ite (.count h) ⟨h.on⟩)

theorem TxKeeps.linkSend {n : Nat} {pkt : List Byte} (h : TxKeeps s t) : TxKeeps s (linkSend n pkt t) := .ite ⟨h.on⟩ (.count h)

theorem TxKeeps.toFabric {o : Origin} {mk : Nat → List Byte} (h : TxKeeps s t) : TxKeeps s (toFabric o mk t) := by
  refine .ite (.linkSend h) ?_
  split
  · exact .linkSend h
  · exact .count h

theorem TxKeeps.answerPacket {o : Origin} {kind opcode status : Nat} {params : List Byte} (h : TxKeeps s t) :
    TxKeeps s (answerPacket o kind opcode status params t) := by
  unfold Machine.answerPacket
  extract_lets
  split
  · exact .toMbx h
  · exact .toMbx h
  · exact .toI2c h
  · exact .toFabric h
  · exact h

theorem TxKeeps.answer {o : Origin} {kind opcode status : Nat} {params : List Byte} (h : TxKeeps s t) :
    TxKeeps s (answer o kind opcode status params t) := .ite (.answerPacket h) ⟨(TxKeeps.answerPacket h).on⟩

theorem TxKeeps.endOp {op : Op} {r : Ref} {params : List Byte} (h : TxKeeps s t) : TxKeeps s (endOp op r params t) :=
  .via (fun h => .ite (.answer (.count (.offer h))) (.answer h)) (t := dropOp op t) ⟨h.on⟩

/-! ### The cipher (R300, R302, R313, R317) -/

theorem TxKeeps.freeSet {x : Nat} (h : TxKeeps s t) : TxKeeps s (freeSet x t) := .ite h (.each (fun _ _ hu => .cntClear hu) (.setCph h))

theorem TxKeeps.dropAct {i : Nat} (h : TxKeeps s t) : TxKeeps s (dropAct i t) := by
  unfold Machine.dropAct
  split
  · exact h
  · extract_lets
    split
    · exact .endOp (.setCph h)
    · exact .setCph h

theorem TxKeeps.wipe {i : Nat} (h : TxKeeps s t) : TxKeeps s (wipe i t) :=
  .freeSet (.setKey (.unreg (.unreg (.setCph h) (above_channels (by decide))) (above_channels (by decide))))

theorem TxKeeps.zeroise {i : Nat} (h : TxKeeps s t) : TxKeeps s (zeroise i t) := .ite (.offer (.wipe (.dropAct h))) (.wipe (.dropAct h))

theorem TxKeeps.meetCtx {i : Nat} (h : TxKeeps s t) : TxKeeps s (meetCtx i t) :=
  .ite (.setFlips (.zeroise (.offer (.count h)))) (.ite (.count h) h)

theorem TxKeeps.cphRefresh (h : TxKeeps s t) : TxKeeps s (cphRefresh t) := by
  have hs : rCPH_STATUS < 0x100000 ∨ 0x200000 ≤ rCPH_STATUS := .inr (by decide)
  have hl : rCPH_LOAD < 0x100000 ∨ 0x200000 ≤ rCPH_LOAD := .inr (by decide)
  exact .ite h (.via (fun h => .ite (.offer h) h) (.setF (.setF (.setB (.setF (.setF (.setF h hs) hs) hs) hs) hl) hl))

theorem TxKeeps.testCore {c : Nat} (h : TxKeeps s t) : TxKeeps s (testCore c t) :=
  .ite h (.cphRefresh (.setF (.setCph h) (above_channels (by decide))))

theorem TxKeeps.jobRounds {j : Nat} {l : List (List Nat)} (h : TxKeeps s t) : TxKeeps s (jobRounds j l t).2 := by
  induction l generalizing j t with
  | nil => exact h
  | cons cs r ih =>
    have ht : TxKeeps s (Sys2Proof.each cs Machine.testCore t) := .each (fun _ _ h => .testCore h) h
    unfold Machine.jobRounds
    extract_lets
    split
    · exact ht
    · split
      · exact ht
      · exact ih (.count ht)

theorem TxKeeps.jobFaults {l : List (Nat × List (List Nat))} (h : TxKeeps s t) : TxKeeps s (jobFaults l t).2 := by
  induction l generalizing t with
  | nil => exact h
  | cons e r ih =>
    unfold Machine.jobFaults
    exact ih (.jobRounds h)

theorem TxKeeps.useCtx {i n mf : Nat} {k : KeyBytes} (h : TxKeeps s t) : TxKeeps s (useCtx i n mf k t) := by
  have ha : rCPH_CTX_A i < 0x100000 ∨ 0x200000 ≤ rCPH_CTX_A i := above_channels (by decide)
  exact .setKey (.wr (.ite h (.setF (.setB h ha) ha)) (above_channels (by decide)))

theorem TxKeeps.blockTx {n x fn : Nat} (h : TxKeeps s t) : TxKeeps s (blockTx n x fn t) :=
  .via (fun h => .ite (.offer (.setCph h)) h) (.ite (.count h) h)

theorem TxKeeps.txSession {n fn : Nat} {dropped : List Nat} {e : Nat × Nat} {a : List Byte × State} (h : TxKeeps s a.2) :
    TxKeeps s (txSession n fn dropped e a).2 := by
  obtain ⟨pay, t⟩ := a
  obtain ⟨x, c⟩ := e
  have hu : TxKeeps s (if fn % 256 = 0 then setTxDrop x false t else t) := .ite (.setCph h) h
  unfold Machine.txSession
  dsimp only
  generalize (if fn % 256 = 0 then setTxDrop x false t else t) = u at hu ⊢
  split
  · exact .blockTx hu
  · split
    · exact .blockTx hu
    · split
      · exact .blockTx hu
      · split
        · exact .useCtx (.offer (.count (.setCph hu)))
        · exact .ite (.withOh (.useCtx hu)) (.useCtx hu)

theorem TxKeeps.retireTx {n mf : Nat} (h : TxKeeps s t) : TxKeeps s (retireTx n mf t) := .each (fun _ _ hu => .wipe hu) h

theorem TxKeeps.txCipher {n fn : Nat} {faults : List (Nat × List (List Nat))} {pay : List Byte} (h : TxKeeps s t) :
    TxKeeps s (txCipher n fn faults pay t).2 :=
  .via (fun h => .ite (.retireTx h) h)
    (.foldl (fun _ _ h => .txSession h) (.setCph (.each (fun _ _ hu => .meetCtx hu) (.jobFaults h))))

/-! ### The payload (R234, R456) -/

theorem TxKeeps.packClient {n fn c : Nat} {a : List Byte × State} (h : TxKeeps s a.2) : TxKeeps s (packClient n fn a c).2 := by
  unfold Machine.packClient
  dsimp only
  split
  · exact h
  · exact .via (fun h => .ite h (.countN h)) (.via (fun h => .ite h (.countN h)) (.setMapper h))

theorem TxKeeps.txPayload {n fn : Nat} (h : TxKeeps s t) : TxKeeps s (txPayload n fn t).2 := by
  generalize e : Machine.txPayload n fn t = r
  unfold Machine.txPayload at e
  split at e
  · extract_lets p at e
    split at e
    subst e
    exact .withPat h
  · subst e
    exact .foldl (fun _ _ h => .packClient h) h

end

/-! ### The bytes of a frame on the line (R222 to R225, R230) -/

/-- The first bytes of a frame go out unscrambled. -/
theorem scrFrame_append (keep fn : Nat) (head rest : List Byte) (h : head.length = keep) :
    scrFrame keep fn (head ++ rest) = head ++ scramble (scrSeed fn) rest := by
  rw [scrFrame, ← h, List.take_left, List.drop_left]

/-- A share goes out with its alignment word and the MFAS unscrambled. -/
theorem shareBytes_eq (s : State) (n k fn : Nat) (pay : List Byte) : ∃ rest, shareBytes s n k fn pay = (be 2 0x3B5D ++ be 1 (fn % 256)) ++ rest := by
  unfold shareBytes
  extract_lets m
  rw [List.append_assoc, List.append_assoc, List.append_assoc]
  exact ⟨_, scrFrame_append 3 fn _ _ (by rw [List.length_append, be_length, be_length])⟩

/-! ### The number of the frame sent (R225, R251) -/

/-- `OH_TX_FN` shows a frame number. -/
def showFn (n fn : Nat) (s : State) : State := (s.wr (rOH_TX_FN_LO n) (BitVec.ofNat 32 fn)).wr (rOH_TX_FN_HI n) (BitVec.ofNat 32 (fn / 2 ^ 32))

/-- Frame fn was the last that channel n sent or gathered: the next number is due, and the registers show this one. -/
structure FrameSent (n fn : Nat) (s : State) : Prop where
  next : (s.ohOf n).tx.fn = (fn + 1) % 2 ^ 48
  lo : s.rd (rOH_TX_FN_LO n) = BitVec.ofNat 32 fn
  hi : s.rd (rOH_TX_FN_HI n) = BitVec.ofNat 32 (fn / 2 ^ 32)

@[simp] theorem ohOf_showFn (n fn c : Nat) (s : State) : (showFn n fn s).ohOf c = s.ohOf c := by
  rw [State.ohOf, showFn, State.wr_oh, State.wr_oh, State.ohOf]

theorem frameSent_showFn {n fn : Nat} {s : State} (h : (s.ohOf n).tx.fn = (fn + 1) % 2 ^ 48) : FrameSent n fn (showFn n fn s) := by
  have hne : rOH_TX_FN_LO n ≠ rOH_TX_FN_HI n := by
    unfold rOH_TX_FN_LO rOH_TX_FN_HI
    omega
  exact ⟨by rw [ohOf_showFn, h], (State.rd_wr_other _ _ _ _ hne).trans (State.rd_wr_same _ _ _), State.rd_wr_same _ _ _⟩

@[simp] theorem ohOf_settle (s : State) (n : Nat) : (settle s).ohOf n = s.ohOf n := by rw [State.ohOf, settle_oh, State.ohOf]

theorem FrameSent.settle {n fn : Nat} {s : State} (h : FrameSent n fn s) : FrameSent n fn (settle s) := by
  obtain ⟨hn, hl, hh⟩ := h
  exact ⟨by rw [ohOf_settle, hn], (rd_settle s _).trans hl, (rd_settle s _).trans hh⟩

theorem rd_showFn_below (n fn k : Nat) (s : State) (hk : k < 0x7010) : (showFn n fn s).rd (chBase n + k) = s.rd (chBase n + k) :=
  (State.rd_wr_other _ _ _ _ (Nat.ne_of_lt (Nat.add_lt_add_left (hk.trans (by decide)) _))).trans
    (State.rd_wr_other _ _ _ _ (Nat.ne_of_lt (Nat.add_lt_add_left hk _)))

/-! ### The encoder (R201 to R203) -/

@[simp] theorem settle_outLanes (s : State) : (settle s).out.lanes = s.out.lanes := by rw [settle_other]

@[simp] theorem encodeFrame_bytes (n fn len : Nat) (lanes : Bool → List (List Byte) → List (List Bool)) (bs : List Byte) (s : State) :
    (encodeFrame n fn len lanes bs s).out.bytes = bs := rfl

@[simp] theorem encodeFrame_fn (n k len : Nat) (lanes : Bool → List (List Byte) → List (List Bool)) (bs : List Byte) (s : State) :
    ((encodeFrame n k len lanes bs s).ohOf n).tx.fn = (s.ohOf n).tx.fn := by simp [encodeFrame, State.ohOf, setOh]

@[simp] theorem encodeFrame_bip (n k len : Nat) (lanes : Bool → List (List Byte) → List (List Bool)) (bs : List Byte) (s : State) :
    ((encodeFrame n k len lanes bs s).ohOf n).tx.bip = (s.ohOf n).tx.bip := by simp [encodeFrame, State.ohOf, setOh]

theorem FrameSent.encodeFrame {n fn : Nat} {s : State} (h : FrameSent n fn s) (k len : Nat)
    (lanes : Bool → List (List Byte) → List (List Bool)) (bs : List Byte) :
    FrameSent n fn (encodeFrame n k len lanes bs s) := ⟨(encodeFrame_fn n k len lanes bs s).trans h.next, h.lo, h.hi⟩

/-- A frame that is an interleaver block of its own is coded at once. -/
theorem encodeFrame_lanes_single (n fn : Nat) (lanes : Bool → List (List Byte) → List (List Bool)) (bs : List Byte) (s : State) :
    (encodeFrame n fn 1 lanes bs s).out.lanes = lanes (s.flag (fFEC_CTRL_LOW_LAT n)) [bs] := by
  simp [encodeFrame, Nat.mod_one]

/-- Before the last frame of an interleaver block no coded bits go out. -/
theorem encodeFrame_lanes_open (n fn len : Nat) (lanes : Bool → List (List Byte) → List (List Bool)) (bs : List Byte) (s : State)
    (h : fn % len ≠ len - 1) :
    (encodeFrame n fn len lanes bs s).out.lanes = [] := by
  simp [encodeFrame, h]

/-! ### A native point-to-point channel -/

theorem txMultiframe_regs (n : Nat) (s : State) : (txMultiframe n s).regs = s.regs := by
  unfold txMultiframe setOh fpPulse
  dsimp only
  split <;> rfl

theorem hgcUnit_regs (n : Nat) (s : State) : (hgcUnit n s).2.regs = s.regs := by
  unfold hgcUnit
  extract_lets
  split <;> rfl

theorem stageUnit_regs (n : Nat) (s : State) : (stageUnit n s).regs = s.regs := by
  unfold stageUnit
  extract_lets
  split
  · rfl
  · dsimp only
    split
    · rfl
    · split <;> rfl

theorem hfbUnit_regs (n m : Nat) (s : State) : (hfbUnit n m s).2.regs = s.regs := by
  have ht : (if ((s.link n).staged.isEmpty && (s.link n).txSent != 0) = true then stageUnit n s else s).regs = s.regs := by
    split
    · exact stageUnit_regs n s
    · rfl
  unfold hfbUnit
  split
  · rfl
  · split
    · rfl
    · extract_lets
      split
      · exact ht
      · exact ht

theorem loopSend_regs (n : Nat) (frame : List Byte) (s : State) : (loopSend n frame s).regs = s.regs := by
  unfold loopSend
  split <;> rfl

theorem loopSend_oh (n : Nat) (frame : List Byte) (s : State) : (loopSend n frame s).oh = s.oh := by
  unfold loopSend
  split <;> rfl

@[simp] theorem loopSend_ohOf (n c : Nat) (frame : List Byte) (s : State) : (loopSend n frame s).ohOf c = s.ohOf c := by
  rw [State.ohOf, loopSend_oh, State.ohOf]

theorem FrameSent.loopSend {n fn : Nat} {s : State} (h : FrameSent n fn s) (frame : List Byte) : FrameSent n fn (loopSend n frame s) where
  next := by rw [loopSend_ohOf, h.next]
  lo := (State.rd_congr (loopSend_regs n frame s) _).trans h.lo
  hi := (State.rd_congr (loopSend_regs n frame s) _).trans h.hi

/-- What a native channel sends, as its encoder takes it: a line frame after its two clear fields, from a state whose framer is past it. -/
theorem sendNative_eq (n : Ch) (faults : List (Nat × List (List Nat))) (s : State) : let fn := (s.ohOf n).tx.fn
    ∃ (w : State) (rest : List Byte), let line := (be 8 0xF5A31C6E0B97D24D ++ be 4 (fn % 2 ^ 32)) ++ rest
      sendNative n faults s = encodeFrame n fn (if w.flag (fFEC_CTRL_LOW_LAT n) then 1 else 16)
        (fun low => pointLanes low (w.fld (fLINE_MODE_NSC n))) line w ∧
      FrameSent n fn w ∧ (w.ohOf n).tx.bip = parity16 (line.drop 12) ∧
      w.fld (fFEC_CTRL_LOW_LAT n) = s.fld (fFEC_CTRL_LOW_LAT n) ∧ w.fld (fLINE_MODE_NSC n) = s.fld (fLINE_MODE_NSC n) := by
  unfold sendNative
  extract_lets fn t
  have ht : t.regs = s.regs := by
    unfold t
    split
    · exact txMultiframe_regs n s
    · rfl
  clear_value t
  split
  next pay u e =>
  have hu : TxKeeps t u := .of_eq (.txPayload (.refl t)) e
  split
  next ct v e =>
  have hv : TxKeeps t v := .of_eq (.pairIte hu (.txCipher hu)) e
  split
  next hgc v1 e =>
  have h1 : v1.regs = v.regs := (congrArg (fun x => x.2.regs) e).symm.trans (hgcUnit_regs n v)
  split
  next hfb v2 e =>
  have h2 : v2.regs = v1.regs := (congrArg (fun x => x.2.regs) e).symm.trans (hfbUnit_regs n (fn % 256) v1)
  extract_lets line o tx w0 w1 w
  have hline : line = (be 8 0xF5A31C6E0B97D24D ++ be 4 (fn % 2 ^ 32)) ++ scramble (scrSeed fn) (txOverhead n fn hfb hgc v2 ++ ct) := by
    unfold line
    rw [List.append_assoc]
    exact scrFrame_append 12 fn _ _ (by rw [List.length_append, be_length, be_length])
  have hw : w = loopSend n line (showFn n fn w0) := rfl
  have hrd : ∀ k < 0x7000, w.rd (chBase n + k) = s.rd (chBase n + k) := by
    intro k hk
    calc w.rd (chBase n + k) = (showFn n fn w0).rd (chBase n + k) := by rw [hw, State.rd_congr (loopSend_regs n line _)]
      _ = w0.rd (chBase n + k) := rd_showFn_below n fn k w0 (by omega)
      _ = v2.rd (chBase n + k) := rfl
      _ = v.rd (chBase n + k) := State.rd_congr (h2.trans h1) _
      _ = t.rd (chBase n + k) := hv.rd (by unfold chBase; omega) (by unfold chBase; omega)
      _ = s.rd (chBase n + k) := State.rd_congr ht _
  have h0 : w0.ohOf n = { v2.ohOf n with tx := { (v2.ohOf n).tx with fn := (fn + 1) % 2 ^ 48, bip := parity16 (line.drop 12) } } :=
    ohOf_setOh_same n _ v2
  have hw0 : (w0.ohOf n).tx.fn = (fn + 1) % 2 ^ 48 := by rw [h0]
  have hbip : (w0.ohOf n).tx.bip = parity16 (line.drop 12) := by rw [h0]
  refine ⟨w, scramble (scrSeed fn) (txOverhead n fn hfb hgc v2 ++ ct), ?_⟩
  rw [← hline]
  refine ⟨rfl, .loopSend (frameSent_showFn hw0) line, ?_, ?_, ?_⟩
  · rw [hw, loopSend_ohOf, ohOf_showFn, hbip]
  · exact congrArg (Fld.of _) (hrd 0x6000 (by decide))
  · exact congrArg (Fld.of _) (hrd 0x4000 (by decide))

/-- A native frame: its number, its clear bytes, its parity, and when its coded bits go out. -/
theorem sendNative_spec (n : Ch) (faults : List (Nat × List (List Nat))) (s : State) : let fn := (s.ohOf n).tx.fn
    let t := sendNative n faults s
    FrameSent n fn t ∧ slice t.out.bytes 0 12 = be 8 0xF5A31C6E0B97D24D ++ be 4 (fn % 2 ^ 32) ∧ (t.ohOf n).tx.bip = parity16 (t.out.bytes.drop 12) ∧
      (s.flag (fFEC_CTRL_LOW_LAT n) = true → t.out.lanes = pointLanes true (s.fld (fLINE_MODE_NSC n)) [t.out.bytes]) ∧
      (s.flag (fFEC_CTRL_LOW_LAT n) = false → fn % 16 ≠ 15 → t.out.lanes = []) := by
  intro fn t
  obtain ⟨w, rest, he, hsent, hbip, hlow, hnsc⟩ := sendNative_eq n faults s
  have hflag : w.flag (fFEC_CTRL_LOW_LAT n) = s.flag (fFEC_CTRL_LOW_LAT n) := congrArg (· != 0) hlow
  rw [show t = _ from he]
  refine ⟨hsent.encodeFrame _ _ _ _, ?_, ?_, fun hl => ?_, fun hl h16 => ?_⟩
  · rw [encodeFrame_bytes]
    exact slice_front _ _ 12 (by rw [List.length_append, be_length, be_length])
  · rw [encodeFrame_bip, hbip, encodeFrame_bytes]
  · rw [encodeFrame_bytes, if_pos (hflag.trans hl), encodeFrame_lanes_single, hflag, hl, hnsc]
  · rw [if_neg (by rw [hflag, hl]; decide), encodeFrame_lanes_open _ _ _ _ _ _ h16]

/-! ### A hub -/

/-- What a hub sends begins with the clear bytes of its first share. -/
theorem sendHub_spec (n : Nat) (faults : List (Nat × List (List Nat))) (s : State) : let fn := (s.ohOf n).tx.fn
    FrameSent n fn (sendHub n faults s) ∧ slice (sendHub n faults s).out.bytes 0 3 = be 2 0x3B5D ++ be 1 (fn % 256) := by
  intro fn
  unfold sendHub
  extract_lets t
  clear_value t
  split
  next pay u e =>
  split
  next ct v e =>
  extract_lets shares o tx w0 w1
  have hw : w1 = showFn n fn w0 := rfl
  have hfn : (w0.ohOf n).tx.fn = (fn + 1) % 2 ^ 48 := by rw [show w0.ohOf n = _ from ohOf_setOh_same n _ v]
  refine ⟨.encodeFrame (hw ▸ frameSent_showFn hfn) _ _ _ _, ?_⟩
  obtain ⟨rest, hr⟩ := shareBytes_eq v n 0 fn ct
  have hs : shares.flatten = shareBytes v n 0 fn ct ++ ((span 1 15).map fun k => shareBytes v n k fn ct).flatten := rfl
  rw [encodeFrame_bytes, hs, hr, List.append_assoc]
  exact slice_front _ _ 3 (by rw [List.length_append, be_length, be_length])

/-! ### A leaf (R170, R176) -/

@[simp] theorem leafOf_setLeaf_same (n : Nat) (l : LeafSt) (s : State) : (setLeaf n l s).leafOf n = l := Four.get_set_same _ _ _

@[simp] theorem leafOf_setOh (n c : Nat) (o : OhSt) (s : State) : (setOh n o s).leafOf c = s.leafOf c := rfl

@[simp] theorem leafOf_showFn (n fn c : Nat) (s : State) : (showFn n fn s).leafOf c = s.leafOf c := by
  rw [State.leafOf, showFn, State.wr_leaf, State.wr_leaf, State.leafOf]

@[simp] theorem out_showFn (n fn : Nat) (s : State) : (showFn n fn s).out = s.out := by rw [showFn, State.wr_out, State.wr_out]

@[simp] theorem leafOf_settle (s : State) (n : Nat) : (settle s).leafOf n = s.leafOf n := by rw [State.leafOf, settle_leaf, State.leafOf]

/-- A tag that goes to the leaf's bursts leaves the number due, the frames that wait and the outputs. -/
theorem leafTag_spec (n fn : Nat) (s : State) : ((leafTag n fn s).ohOf n).tx.fn = (s.ohOf n).tx.fn ∧
    ((leafTag n fn s).leafOf n).up = (s.leafOf n).up ∧ (leafTag n fn s).out = s.out := by
  unfold leafTag
  extract_lets o
  split
  · exact ⟨rfl, rfl, rfl⟩
  · exact ⟨by rw [ohOf_setOh_same], by rw [leafOf_setOh, leafOf_setLeaf_same], rfl⟩

/-- A leaf without a grant or lock, or with its frame gathered, sends nothing. -/
theorem sendLeaf_idle (n : Nat) (faults : List (Nat × List (List Nat))) (s : State)
    (h : s.leafSt n ≠ 5 ∨ s.leafUp n = false ∨ s.leafFn n = ((s.ohOf n).lastFn + 1) % 2 ^ 48) : sendLeaf n faults s = s := by
  unfold sendLeaf
  rw [if_pos]
  simpa [or_assoc] using h

/-- A leaf gathers an upstream frame, which waits for a grant. -/
theorem sendLeaf_spec (n : Nat) (faults : List (Nat × List (List Nat))) (s : State) (h5 : s.leafSt n = 5) (hup : s.leafUp n = true)
    (hne : s.leafFn n ≠ ((s.ohOf n).lastFn + 1) % 2 ^ 48) : let fn := s.leafFn n
    FrameSent n fn (sendLeaf n faults s) ∧ (sendLeaf n faults s).out.bytes = s.out.bytes ∧
      ∃ bs, ((sendLeaf n faults s).leafOf n).up = (s.leafOf n).up ++ [(fn, s.life.toNat, bs)] := by
  intro fn
  unfold sendLeaf
  have hcond : ¬ (decide (s.leafSt n ≠ 5) || !s.leafUp n || s.leafFn n == ((s.ohOf n).lastFn + 1) % 2 ^ 48) = true := by
    rw [h5, hup, beq_eq_false_iff_ne.2 hne]
    decide
  rw [if_neg hcond]
  split
  next pay u e =>
  have hu : TxKeeps s u := .of_eq (.txPayload (.refl s)) e
  split
  next ct v e =>
  have hv : TxKeeps s v := .of_eq (.pairIte hu (.txCipher hu)) e
  extract_lets js l w0 o tx w1 w
  have h1fn : (w1.ohOf n).tx.fn = (fn + 1) % 2 ^ 48 := by rw [show w1.ohOf n = _ from ohOf_setOh_same n _ w0]
  have h1up : (w1.leafOf n).up = (s.leafOf n).up ++ [(fn, s.life.toNat, takeSlots ct js)] := by
    have hl : l = s.leafOf n := congrArg (Four.get · (ch4 n)) hv.leaf
    rw [show w1.leafOf n = _ from leafOf_setLeaf_same n _ v, hl, hv.life]
  have h1out : w1.out.bytes = s.out.bytes := hv.bytes
  obtain ⟨hwfn, hwup, hwout⟩ : (w.ohOf n).tx.fn = (w1.ohOf n).tx.fn ∧ (w.leafOf n).up = (w1.leafOf n).up ∧ w.out = w1.out := by
    unfold w
    split
    · exact leafTag_spec n _ w1
    · exact ⟨rfl, rfl, rfl⟩
  change FrameSent n fn (showFn n fn w) ∧ (showFn n fn w).out.bytes = s.out.bytes ∧
    ∃ bs, ((showFn n fn w).leafOf n).up = (s.leafOf n).up ++ [(fn, s.life.toNat, bs)]
  exact ⟨frameSent_showFn (hwfn.trans h1fn), by rw [out_showFn, hwout, h1out], _, by rw [leafOf_showFn, hwup, h1up]⟩

/-! ### The command -/

/-- FRAME_TRANSMITTED by role and mode, from the state u in which the host codewords have come. -/
theorem exec_frameTransmitted (n : Ch) (host : List (Nat × List HostCw)) (faults : List (Nat × List (List Nat))) (maps : List (Nat × Nat))
    (s u : State) (hu : u = each host (fun e s => portIn e.1 e.2 s) s) :
    exec (.frameTransmitted n host faults maps) s =
      if (!u.active n || u.memberB n) = true then ok u
      else if u.fld (fLINE_MODE_IOP n) ≠ 0 then ok (mapCounts n maps u)
      else if u.fld (fHUB_CTRL_ROLE n) = 1 then ok (sendHub n faults u)
      else if u.fld (fHUB_CTRL_ROLE n) = 2 then ok (sendLeaf n faults u)
      else ok (sendNative n faults u) := by
  subst hu
  rfl

/-- Settles O31: the command's branches in turn, each by what its sender does. -/
theorem framesSent : Obligations.FramesSent := by
  unfold Obligations.FramesSent
  intro n host faults maps s u x fn mine
  have hx : x = _ := exec_frameTransmitted n host faults maps s u rfl
  have hrun : mine → ¬ (!u.active n || u.memberB n) = true := by
    rintro ⟨ha, hb⟩
    rw [ha, hb]
    decide
  clear_value u x
  refine ⟨fun h => ?_, fun hm hi => ?_, fun hm hi h1 h2 => ?_, fun hm hi h1 => ?_, fun hm hi h2 h5 hup hne => ?_, fun hm hi h2 h => ?_⟩
  · have hidle : (!u.active n || u.memberB n) = true := by simpa using h
    rw [hx, if_pos hidle, ok]
  · rw [hx, if_neg (hrun hm), if_pos hi, ok]
  · rw [if_neg (hrun hm), if_neg (not_not.2 hi), if_neg h1, if_neg h2] at hx
    obtain ⟨hsent, hbytes, hbip, hlow, hblock⟩ := sendNative_spec n faults u
    obtain ⟨hnext, hlo, hhi⟩ := hsent.settle
    refine ⟨_, hx, hnext, hlo, hhi, ?_⟩
    rw [settle_bytes, ohOf_settle, settle_outLanes]
    exact ⟨hbytes, hbip, hlow, hblock⟩
  · rw [if_neg (hrun hm), if_neg (not_not.2 hi), if_pos h1] at hx
    obtain ⟨hsent, hbytes⟩ := sendHub_spec n faults u
    obtain ⟨hnext, hlo, hhi⟩ := hsent.settle
    exact ⟨_, hx, hnext, hlo, hhi, by rw [settle_bytes, hbytes]⟩
  · rw [if_neg (hrun hm), if_neg (not_not.2 hi), if_neg (by omega), if_pos h2] at hx
    obtain ⟨hsent, hbytes, bs, hbs⟩ := sendLeaf_spec n faults u h5 hup hne
    obtain ⟨hnext, hlo, hhi⟩ := hsent.settle
    exact ⟨_, hx, hlo, hhi, by rw [settle_bytes, hbytes], hnext, bs, by rw [leafOf_settle, hbs]⟩
  · rw [hx, if_neg (hrun hm), if_neg (not_not.2 hi), if_neg (by omega), if_pos h2, sendLeaf_idle n faults u h, ok]

end Sys2Proof.Machine
end

/-! # The I2C port (O12) -/
section
namespace Sys2Proof.Machine

open Sys2Proof

/-! ### An addressed port as a wake source (R407) -/

/-- A wake source that fires is noted among the power states, and nothing else changes. -/
theorem wakeFires_setPwr (code : Nat) (s : State) : ∃ p, wakeFires code s = s.setPwr p := by
  by_cases h : wakeFires code s = s
  · exact ⟨s.pwr, h⟩
  · refine ⟨{ s.pwr with wake := some code }, ?_⟩
    unfold wakeFires at h ⊢
    exact if_pos (by_contra fun hn => h (if_neg hn))

theorem sysStatus_setPwr (s : State) (p : PwrSt) : (s.setPwr p).sysStatus = s.sysStatus := rfl
theorem node_setPwr (s : State) (p : PwrSt) : (s.setPwr p).node = s.node := rfl
theorem cbHead_setPwr (s : State) (p : PwrSt) : (s.setPwr p).cbHead = s.cbHead := rfl
theorem cbWord_setPwr (s : State) (p : PwrSt) (off : Nat) : (s.setPwr p).cbWord off = s.cbWord off := rfl
theorem hpStatus_setPwr (s : State) (p : PwrSt) (l : Nat) : (s.setPwr p).hpStatus l = s.hpStatus l := rfl
theorem routeWord_setPwr (s : State) (p : PwrSt) (k : Nat) : (s.setPwr p).routeWord k = s.routeWord k := rfl
theorem hgcWord_setPwr (s : State) (p : PwrSt) (who n k : Nat) : (s.setPwr p).hgcWord who n k = s.hgcWord who n k := rfl
theorem shown_setPwr (s : State) (p : PwrSt) (off : Nat) : (s.setPwr p).shown off = s.shown off := rfl

/-- What a register reads as does not depend on the power states. -/
theorem readReg_setPwr (s : State) (p : PwrSt) (who off : Nat) : (s.setPwr p).readReg who off = s.readReg who off := by
  rw [State.readReg, State.readReg, sysStatus_setPwr, node_setPwr, cbHead_setPwr, cbWord_setPwr, hpStatus_setPwr, routeWord_setPwr, hgcWord_setPwr,
    shown_setPwr]
  cases chOff off with
  | none => rfl
  | some x => rfl

/-! ### Register reads (command 0x01) -/

/-- A register read: the word that may be read, or zeros, with the port's wake source noted. -/
theorem exec_i2cRegisterRead (a : Fin 128) (off : Nat) (s : State) (h : s.i2cAt a = true) : ∃ p, ∃ t : State,
    t = (if s.i2cMay off = true then i2cRead off (s.setPwr p) else put 0#32 (s.setPwr p)) ∧
      exec (.i2cRegisterRead a off) s = .next (settle { t with out := { t.out with bytes := le 4 t.out.data.toNat } }) := by
  obtain ⟨p, hp⟩ := wakeFires_setPwr 2 s
  refine ⟨p, _, rfl, ?_⟩
  change execI2cRegisterRead a off s = _
  rw [execI2cRegisterRead, h, hp]
  rfl

/-- A read without side effects puts the register's word out. -/
theorem i2cRead_plain (off : Nat) (s : State) (hoff : off < 0x100000) (hrl : rlCompanion off = false)
    (hside : off ∉ [rSYS_ID_SERIAL_LO, rTIM_TOD_LO, rMON_Q0, rPWR_SHUTDOWN_CAUSE]) : i2cRead off s = put (s.readReg 2 off) s := by
  simp only [List.mem_cons, List.not_mem_nil, or_false, not_or] at hside
  obtain ⟨h1, h2, h3, h4⟩ := hside
  have hocc : ¬ (off = rMRG_OCC_MAX 0 ∨ off = rMRG_OCC_MAX 1) := by
    rintro (e | e)
    · exact absurd (e ▸ hoff) (by decide)
    · exact absurd (e ▸ hoff) (by decide)
  have hch : chOff off = none := if_neg (by simp only [Bool.and_eq_true, decide_eq_true_eq]; omega)
  have hhgc : ¬ (0x301000 ≤ off) := by omega
  simp only [Bool.or_eq_true, decide_eq_true_eq, i2cRead, if_neg h1, if_neg h2, if_neg h3, hrl, if_neg h4, if_neg hocc, hch, hhgc, decide_false, Bool.false_and,
    Bool.false_eq_true, if_false]

theorem le_zero : le 4 (0#32).toNat = [0#8, 0#8, 0#8, 0#8] := by decide

/-- The registers that may be read before READY are words of the first function's space. -/
theorem earlyRegs_aligned : ∀ off ∈ earlyRegs, off % 4 = 0 ∧ off < fnBase := by decide

theorem i2cMay_early (off : Nat) (s : State) (hr : s.ready = false) : s.i2cMay off = true ↔ off ∈ earlyRegs := by
  simp only [State.i2cMay, hr, Bool.not_false, if_true, Bool.and_eq_true, beq_iff_eq, decide_eq_true_eq, List.contains_iff_mem]
  exact ⟨fun h => h.2, fun h => ⟨earlyRegs_aligned off h, h⟩⟩

theorem i2cMay_serial (s : State) (hr : s.ready = true) : s.i2cMay rSYS_ID_SERIAL_LO = true := by
  rw [State.i2cMay, hr]
  decide +kernel

/-! ### Request writes (command 0x10) -/

/-- A byte as an entry of the port's queues. -/
def i2cEntry (b : Byte) : Word := b.setWidth 32

theorem i2cEntry_byte (b : Byte) : (i2cEntry b).setWidth 8 = b := by
  apply BitVec.eq_of_toNat_eq
  simp only [i2cEntry, BitVec.toNat_setWidth]
  have := b.isLt
  omega

/-- An entry with credit joins the packet that is being written. -/
theorem writeEntry_more (cap : Nat) (w : Word) (m : Mailbox) (ho : m.isOpen = true) (hd : m.dropping = false) (hc : m.part.length + m.held < cap) :
    writeEntry cap m.isOpen w false m = ({ m with part := m.part ++ [w] }, false, none) := by
  simp [writeEntry, ho, hd, hc]

/-- The last entry of a packet, with credit, completes it. -/
theorem writeEntry_last (cap : Nat) (w : Word) (m : Mailbox) (ho : m.isOpen = true) (hd : m.dropping = false) (hc : m.part.length + m.held < cap) :
    writeEntry cap m.isOpen w true m = ({ m with part := [], held := m.held + m.part.length + 1 }, false, some (m.part ++ [w])) := by
  simp [writeEntry, ho, hd, hc]

/-- The last byte written: the STOP that meets a whole packet completes it. -/
theorem i2cAppend_one (b : Byte) (stop : Bool) (m : Mailbox) (ho : m.isOpen = true) (hd : m.dropping = false) (hc : m.part.length + m.held < 32768) :
    i2cAppend [b] stop m =
      if (stop && packetDone (m.part ++ [i2cEntry b])) = true then
        ({ m with part := [], held := m.held + m.part.length + 1 }, some (m.part ++ [i2cEntry b]))
      else ({ m with part := m.part ++ [i2cEntry b] }, none) := by
  have hlast : (stop && (m.dropping || packetDone (m.part ++ [b.setWidth 32]))) = (stop && packetDone (m.part ++ [i2cEntry b])) := by
    rw [hd, Bool.false_or, i2cEntry]
  rw [i2cAppend, hlast]
  cases stop && packetDone (m.part ++ [i2cEntry b]) with
  | true => rw [writeEntry_last 32768 _ m ho hd hc]; rfl
  | false => rw [writeEntry_more 32768 _ m ho hd hc]; rfl

/-- Bytes within credit: a STOP that meets a whole packet completes it, otherwise they join the packet that is being written. -/
theorem i2cAppend_credit (bs : List Byte) (stop : Bool) (m : Mailbox) (hne : bs ≠ []) (ho : m.isOpen = true) (hd : m.dropping = false)
    (hc : m.part.length + m.held + bs.length ≤ 32768) :
    i2cAppend bs stop m =
      if (stop && packetDone (m.part ++ bs.map i2cEntry)) = true then
        ({ m with part := [], held := m.held + m.part.length + bs.length }, some (m.part ++ bs.map i2cEntry))
      else ({ m with part := m.part ++ bs.map i2cEntry }, none) := by
  induction bs generalizing m with
  | nil => exact absurd rfl hne
  | cons b bs ih =>
    rw [List.length_cons] at hc
    cases bs with
    | nil => exact i2cAppend_one b stop m ho hd (by omega)
    | cons c cs =>
      have hstep : i2cAppend (b :: c :: cs) stop m = i2cAppend (c :: cs) stop { m with part := m.part ++ [i2cEntry b] } := by
        change i2cAppend (c :: cs) stop (writeEntry 32768 m.isOpen (i2cEntry b) false m).1 = _
        rw [writeEntry_more 32768 _ m ho hd (by omega)]
      have hrest := ih { m with part := m.part ++ [i2cEntry b] } (List.cons_ne_nil c cs) ho hd
        (by simp only [List.length_append, List.length_cons, List.length_nil] at hc ⊢; omega)
      have hheld : m.held + (m.part ++ [i2cEntry b]).length + (c :: cs).length = m.held + m.part.length + (b :: c :: cs).length := by
        simp only [List.length_append, List.length_cons, List.length_nil]
        omega
      have hpart : m.part ++ [i2cEntry b] ++ (c :: cs).map i2cEntry = m.part ++ (b :: c :: cs).map i2cEntry := by simp
      rw [hstep, hrest, hpart, hheld]

theorem swapReq_other (bank : Nat) (m : Mailbox) : m.swapReq bank = { m with drain := (m.swapReq bank).drain } := by
  unfold Mailbox.swapReq
  split <;> rfl

/-- A request write: the bytes join the queue, and a packet they complete is taken up, with the port's wake source noted. -/
theorem exec_i2cRequestWrite (a : Fin 128) (bs : List Byte) (stop : Bool) (s : State) (h : s.i2cAt a = true) (m : Mailbox) (d : Option (List Word))
    (hm : i2cAppend bs stop s.i2c = (m, d)) : ∃ p, ∃ t : State, t = { s.setPwr p with i2c := m.swapReq 16384 } ∧
      exec (.i2cRequestWrite a bs stop) s =
        .next (settle (match d with | none => t | some ws => localPacket 3 (ws.map fun w => w.setWidth 8) ws.length t)) := by
  obtain ⟨p, hp⟩ := wakeFires_setPwr 2 s
  refine ⟨p, _, rfl, ?_⟩
  change execI2cRequestWrite a bs stop s = _
  have hq : i2cAppend bs stop (s.setPwr p).i2c = (m, d) := hm
  simp only [execI2cRequestWrite, h, hp, hq, Bool.not_true, Bool.false_eq_true, if_false]
  cases d with
  | none => rfl
  | some ws => rfl

/-- A good packet is done: its bytes are there by its own length. -/
theorem packetDone_good (ws : List Word) (h : goodPacket (ws.map fun w => w.setWidth 8) = true) : packetDone ws = true := by
  simp only [goodPacket, Bool.and_eq_true, decide_eq_true_eq, List.length_map] at h
  obtain ⟨⟨⟨⟨⟨⟨⟨h20, _⟩, hlen⟩, _⟩, _⟩, _⟩, _⟩, _⟩ := h
  simp only [packetDone, Bool.and_eq_true, decide_eq_true_eq]
  exact ⟨h20, hlen⟩

/-- A good request for this part takes its place in the serial order. -/
theorem localPacket_here (master : Nat) (bs : List Byte) (size : Nat) (s : State) (hg : goodPacket bs = true) (hh : s.forHere (pktDest bs) = true) :
    localPacket master bs size s = arrive ⟨master, 0, 0⟩ 0 (bs.take (pktLen bs)) size s := by
  simp [localPacket, hg, hh]

/-! ### Reply and credit reads (commands 0x11 and 0x12) -/

theorem swapRsp_other (bank : Nat) (m : Mailbox) : m.swapRsp bank = { m with rspDrain := (m.swapRsp bank).rspDrain } := by
  unfold Mailbox.swapRsp
  split <;> rfl

/-- Placing waiting answers adds them behind what the reply queue holds. -/
theorem placeAll_spec (cap bank : Nat) (l : List (List Word)) (m : Mailbox) : ∃ more, (Mailbox.placeAll cap bank l m).rsp = m.rsp ++ more ∧
    (l = [] → more = []) ∧ (Mailbox.placeAll cap bank l m).rd = m.rd := by
  induction l generalizing m with
  | nil => exact ⟨[], (List.append_nil _).symm, fun _ => rfl, rfl⟩
  | cons ws r ih =>
    rw [Mailbox.placeAll]
    split
    · obtain ⟨more, hrsp, -, hrd⟩ := ih (m.push bank ws)
      refine ⟨marked ws ++ more, ?_, nofun, ?_⟩
      · rw [hrsp, Mailbox.push, swapRsp_other]
        simp
      · rw [hrd, Mailbox.push, swapRsp_other]
    · exact ⟨[], (List.append_nil _).symm, fun _ => rfl, rfl⟩

/-- RELEASE frees the entries before the read position; answers that waited follow (R104, R105). -/
theorem releaseRsp_spec (bank : Nat) (m : Mailbox) : ∃ more, (releaseRsp bank m).rsp = m.rsp.drop m.rd ++ more ∧
    (m.wait = [] → more = []) ∧ (releaseRsp bank m).rd = 0 := by
  rw [releaseRsp, swapRsp_other]
  exact placeAll_spec _ _ _ _

theorem drop_min_length {α : Type} (l : List α) (n : Nat) : l.drop (min n l.length) = l.drop n := by
  rcases Nat.le_total n l.length with h | h
  · rw [Nat.min_eq_left h]
  · rw [Nat.min_eq_right h, List.drop_length, List.drop_of_length_le h]

/-- Bytes clocked out of a queue: those it has from the front, zeros beyond them. -/
theorem getD_slice_front (bs : List Byte) (n k : Nat) (h : k < n) : (slice bs 0 n).getD k 0#8 = bs.getD k 0#8 := by
  simp only [slice, List.drop_zero, List.getD_eq_getElem?_getD]
  rcases Nat.lt_or_ge k bs.length with hk | hk
  · rw [List.getElem?_append_left (by rw [List.length_take]; omega), List.getElem?_take_of_lt h]
  · rw [List.getElem?_append_right (by rw [List.length_take]; omega), List.getElem?_eq_none hk, List.getElem?_replicate]
    split <;> rfl

/-- A reply read: bytes from the front of the queue, which its STOP releases. -/
theorem exec_i2cReplyRead (a : Fin 128) (n : Nat) (s : State) (h : s.i2cAt a = true) (hr : s.ready = true) : ∃ p,
    exec (.i2cReplyRead a n) s = .next (settle { s.setPwr p with
      i2c := releaseRsp 16384 { s.i2c with rd := min n s.i2c.rsp.length }
      out := { s.out with bytes := slice ((s.i2c.rsp.take n).map fun q => q.word.setWidth 8) 0 n } }) := by
  obtain ⟨p, hp⟩ := wakeFires_setPwr 2 s
  refine ⟨p, ?_⟩
  change execI2cReplyRead a n s = _
  rw [execI2cReplyRead, h, hr, hp]
  rfl

/-- A credit read: the byte credit and the number of whole reply packets. -/
theorem exec_i2cCreditRead (a : Fin 128) (s : State) (h : s.i2cAt a = true) (hr : s.ready = true) : ∃ p,
    exec (.i2cCreditRead a) s = .next (settle { s.setPwr p with
      out := { s.out with bytes := le 4 (s.i2c.credit 32768 % 65536 + sat 4095 s.i2c.packets * 65536) } }) := by
  obtain ⟨p, hp⟩ := wakeFires_setPwr 2 s
  refine ⟨p, ?_⟩
  change execI2cCreditRead a s = _
  rw [execI2cCreditRead, h, hr, hp]
  rfl

/-- A port that does not serve or is not addressed does nothing. -/
theorem exec_i2c_silent (a : Fin 128) (off n : Nat) (bs : List Byte) (stop : Bool) (s : State) (h : s.i2cAt a = false) :
    exec (.i2cRegisterRead a off) s = .next (settle s) ∧ exec (.i2cRequestWrite a bs stop) s = .next (settle s) ∧
      exec (.i2cReplyRead a n) s = .next (settle s) ∧ exec (.i2cCreditRead a) s = .next (settle s) := by
  have hn : (!s.i2cAt a) = true := congrArg Bool.not h
  have hn' : (!s.i2cAt a || !s.ready) = true := by rw [hn, Bool.true_or]
  exact ⟨if_pos hn, if_pos hn, if_pos hn', if_pos hn'⟩

/-! ### The statement -/

/-- Settles O12: each command of the port, in the state where the port is addressed and in the one where it is not. -/
theorem i2cPortServes : Obligations.I2cPortServes := by
  unfold Obligations.I2cPortServes
  refine ⟨fun s => ⟨rfl, fun a => rfl⟩, ?noRight, ?plain, ?serial, fun off s hr => i2cMay_early off s hr, ?partly, ?whole, ?reply, ?credit,
    fun a off n bs stop s h => exec_i2c_silent a off n bs stop s h⟩
  case noRight =>
    intro a off s ha hmay
    obtain ⟨p, t, rfl, hnext⟩ := exec_i2cRegisterRead a off s ha
    refine ⟨_, hnext, ?_⟩
    rw [hmay, if_neg Bool.false_ne_true]
    simp only [settle_bytes, settle_regs, settle_rl, settle_mon, settle_cb]
    exact ⟨le_zero, rfl, rfl, rfl, rfl⟩
  case plain =>
    intro a off s ha hmay hoff hrl hside
    obtain ⟨p, t, rfl, hnext⟩ := exec_i2cRegisterRead a off s ha
    refine ⟨_, hnext, ?_⟩
    rw [hmay, if_pos rfl, i2cRead_plain off _ hoff hrl hside, readReg_setPwr]
    simp only [settle_bytes, settle_regs, settle_rl, settle_mon, settle_cb]
    exact ⟨rfl, rfl, rfl, rfl, rfl⟩
  case serial =>
    intro a s ha hr
    obtain ⟨p, t, rfl, hnext⟩ := exec_i2cRegisterRead a rSYS_ID_SERIAL_LO s ha
    refine ⟨_, hnext, ?_⟩
    have hread : i2cRead rSYS_ID_SERIAL_LO (s.setPwr p) =
        put (Config.serial.setWidth 32) (setRl 2 rSYS_ID_SERIAL_HI ((Config.serial >>> 32).setWidth 32) (s.setPwr p)) := if_pos rfl
    rw [i2cMay_serial s hr, if_pos rfl, hread]
    simp only [settle_bytes, settle_regs, State.rlOf, settle_rl]
    exact ⟨rfl, smGet_smSet_same _ _ _ _, rfl⟩
  case partly =>
    intro a bs stop s ha hne ho hd hc hdone
    have hopen : (stop && packetDone (s.i2c.part ++ bs.map i2cEntry)) = false := by
      cases stop with
      | false => rfl
      | true => exact hdone rfl
    have happ := i2cAppend_credit bs stop s.i2c hne ho hd hc
    rw [hopen, if_neg Bool.false_ne_true] at happ
    obtain ⟨p, t, rfl, hnext⟩ := exec_i2cRequestWrite a bs stop s ha _ _ happ
    refine ⟨_, hnext, ?_⟩
    simp only [settle_i2c, settle_arrived, settle_regs, settle_mbx]
    rw [swapReq_other]
    exact ⟨rfl, rfl, rfl, rfl, rfl, rfl⟩
  case whole =>
    intro a bs s ha hr hne ho hd hc all hg _ hh
    have hall : (s.i2c.part ++ bs.map i2cEntry).map (fun w => w.setWidth 8) = all := by
      have hbs : (bs.map i2cEntry).map (fun w => w.setWidth 8) = bs := by
        rw [List.map_map]
        exact (List.map_congr_left fun b _ => i2cEntry_byte b).trans (List.map_id bs)
      rw [List.map_append, hbs]
    have hdone : (true && packetDone (s.i2c.part ++ bs.map i2cEntry)) = true := packetDone_good _ (hall ▸ hg)
    have happ := i2cAppend_credit bs true s.i2c hne ho hd hc
    rw [hdone, if_pos rfl] at happ
    obtain ⟨p, t, ht, hnext⟩ := exec_i2cRequestWrite a bs true s ha _ _ happ
    rw [swapReq_other] at ht
    dsimp only at hnext
    rw [hall, localPacket_here _ _ _ t hg (by rw [ht]; exact hh)] at hnext
    refine ⟨_, hnext, ?_⟩
    beta_reduce
    rw [settle_i2c, settle_arrived, ht]
    exact ⟨rfl, rfl, _, rfl, rfl, rfl, rfl⟩
  case reply =>
    intro a n s ha hr
    obtain ⟨more, hrsp, hmore, hrd⟩ := releaseRsp_spec 16384 { s.i2c with rd := min n s.i2c.rsp.length }
    obtain ⟨p, hnext⟩ := exec_i2cReplyRead a n s ha hr
    refine ⟨_, hnext, ?_⟩
    simp only [settle_bytes, settle_i2c, settle_regs]
    refine ⟨slice_length _ _ _, fun k hk => ?_, ⟨more, ?_, hmore⟩, hrd, rfl⟩
    · rw [getD_slice_front _ _ _ hk, List.getD_eq_getElem?_getD, List.getElem?_map, List.getElem?_take_of_lt hk]
    · rw [hrsp, drop_min_length]
  case credit =>
    intro a s ha hr
    obtain ⟨p, hnext⟩ := exec_i2cCreditRead a s ha hr
    refine ⟨_, hnext, ?_⟩
    simp only [settle_bytes, settle_i2c, settle_regs]
    exact ⟨trivial, rfl, rfl⟩

end Sys2Proof.Machine
end

/-! # Supplies and temperature (O5) -/
section
namespace Sys2Proof.Machine

open Sys2Proof

/-! ### Rails (R46, R47) -/

/-- Noting a rail out of range puts it on the list of rails, and changes nothing else. -/
theorem railOut_setBoot (r : Nat) (s : State) : ∃ l : List Nat, railOut r s = s.setBoot { s.boot with railsLow := l } ∧ l.contains r = true := by
  unfold railOut
  split
  next h => exact ⟨s.boot.railsLow, rfl, h⟩
  next => exact ⟨s.boot.railsLow ++ [r], rfl, by simp⟩

/-- `RAIL_BELOW_THRESHOLD` of a rail other than those that end everything, by rail group. -/
theorem exec_railBelowThreshold_group (r : Fin 12) (s : State) (ha : s.pwr.asleep = false) (hlo : 2 ≤ r.val) (hhi : r.val < 10) :
    exec (.railBelowThreshold r) s = .next (settle (
      if r.val < 6 then each (span 0 4) (fun n t => railChannel r n t) (railOut r s)
      else if r.val < 8 then each (span 0 4) (fun q t => railQuad r q t) (railOut r s)
      else railHbm (railOut r s))) := by
  have h11 : ¬ r = 11 := by omega
  have h2 : ¬ r < 2 := by omega
  have h10 : r < 10 := by omega
  have h6 : r < 6 ↔ r.val < 6 := Iff.rfl
  have h8 : r < 8 ↔ r.val < 8 := Iff.rfl
  change execRailBelowThreshold r s = _
  simp only [execRailBelowThreshold, ha, Bool.false_eq_true, if_false, h11, h2, h10, if_true, h6, h8, ok]

theorem exec_railRemovedInDarkHouse (r : Fin 12) (s : State) (ha : s.pwr.asleep = true) :
    exec (.railRemovedInDarkHouse r) s = .next (settle (darkRail r s)) := if_pos ha

/-- A rail of the dark house other than `VDD_AON` and `VDD_IO18` is a power-down (R46). -/
theorem darkRail_powerDown (r : Nat) (s : State) (h : r < 10) : ∃ l : List Nat, l.contains r = true ∧ darkRail r s =
    { s with boot := { s.boot with railsLow := l, powerDown := true }, ops := [], pwr := { s.pwr with wake := none } } := by
  obtain ⟨l, hout, hl⟩ := railOut_setBoot r s
  refine ⟨l, hl, ?_⟩
  rw [darkRail, if_neg (by omega), if_neg (by omega), hout]
  rfl

/-- `VDD_IO18` of the dark house is noted, and the part sleeps on (R46). -/
theorem darkRail_pads (s : State) : ∃ l : List Nat, l.contains 10 = true ∧ darkRail 10 s = s.setBoot { s.boot with railsLow := l } := by
  obtain ⟨l, hout, hl⟩ := railOut_setBoot 10 s
  exact ⟨l, hl, hout⟩

/-- `VDD_AON` of the dark house takes the whole part down (R46). -/
theorem darkRail_alwaysOn (s : State) : ∃ l : List Nat, l.contains 11 = true ∧
    darkRail 11 s = (powerOn s.boot.asel s).setBoot { (powerOn s.boot.asel s).boot with railsLow := l } := by
  obtain ⟨l, hout, hl⟩ := railOut_setBoot 11 (powerOn s.boot.asel s)
  exact ⟨l, hl, hout⟩

/-- `RAIL_BACK_IN_RANGE`: the rail leaves the list. With `VDD_IO18` back in the dark house the part may wake. -/
theorem exec_railBackInRange (r : Fin 12) (s : State) (h : s.boot.railsLow.contains r.val = true) : ∃ t : State,
    exec (.railBackInRange r) s = .next (settle t) ∧ t.boot.railsLow = (s.boot.railsLow.filter fun x => x != r.val) ∧ t.regs = s.regs ∧
      (r.val ≠ 10 ∨ s.pwr.asleep = false → t.pwr = s.pwr) := by
  have hlow : ¬ (!s.boot.railsLow.contains r.val) = true := by rw [h]; decide
  change ∃ t : State, execRailBackInRange r s = _ ∧ _
  rw [execRailBackInRange, if_neg hlow]
  dsimp only
  by_cases hw : (decide (r = 10) && s.pwr.asleep) = true
  · obtain ⟨h10, hs⟩ : r = 10 ∧ s.pwr.asleep = true := by simpa using hw
    have hno : ¬ (r.val ≠ 10 ∨ s.pwr.asleep = false) := by rw [h10, hs]; decide
    refine ⟨_, if_pos hw, ?_⟩
    split
    · exact ⟨rfl, rfl, fun hc => absurd hc hno⟩
    · obtain ⟨p, hp⟩ := wakeFires_setPwr ((s.setBoot { s.boot with railsLow := s.boot.railsLow.filter fun x => x != r.val }).draw.1 % 3)
        (s.setBoot { s.boot with railsLow := s.boot.railsLow.filter fun x => x != r.val }).draw.2
      rw [hp]
      exact ⟨rfl, rfl, fun hc => absurd hc hno⟩
  · exact ⟨_, if_neg hw, rfl, rfl, fun _ => rfl⟩

/-- The house starts: boot stage 1, `PD01` and `PD02` powered (R68). -/
theorem clockStage_spec (s : State) : (clockStage s).stage = 1 ∧ (clockStage s).fld (fPD 1) = 2 ∧ (clockStage s).fld (fPD 2) = 2 ∧
    (clockStage s).boot = s.boot := by
  refine ⟨?_, ?_, ?_, rfl⟩
  · simp (disch := decide) only [State.stage, clockStage, setPD, State.fld_setF_reg, State.fld_setF_same, Nat.reducePow, Nat.reduceMod]
  · simp (disch := decide) only [clockStage, setPD, State.fld_setF_apart, State.fld_setF_same, Nat.reducePow, Nat.reduceMod]
  · simp (disch := decide) only [clockStage, setPD, State.fld_setF_same, Nat.reducePow, Nat.reduceMod]

/-- `BROWN_OUT_HOLD_END` with the core rails back: the hold ends, and boot resumes unless a reset or a thermal shutdown holds the part. -/
theorem exec_brownOutHoldEnd (s : State) (hb : s.boot.brown = true) (hc : s.coreLow = false) : exec .brownOutHoldEnd s =
    .next (settle (if (s.boot.resetLow || s.boot.gated) = true then s.setBoot { s.boot with brown := false }
      else clockStage (s.setBoot { s.boot with brown := false }))) := by
  change execBrownOutHoldEnd s = _
  rw [execBrownOutHoldEnd, hb, hc]
  rfl

/-! ### The receptacle (R36) -/

theorem firmware_congr {s t : State} (h : t.stage = s.stage) : t.firmware = s.firmware := by rw [State.firmware, State.firmware, h]

theorem firmware_setB_reg (s : State) (f : Fld) (b : Bool) (h : rSYS_BOOT_STATUS ≠ f.reg) : (s.setB f b).firmware = s.firmware :=
  firmware_congr (State.fld_setB_reg s f fSYS_BOOT_STATUS_STAGE b h)

theorem flag_offer (code block p0 p1 : Nat) (f : Fld) (s : State) (h : f.reg ≠ rCB_STATUS) : (offer code block p0 p1 s).flag f = s.flag f := by
  rw [State.flag, State.flag, fld_offer _ _ _ _ _ _ h]

/-- `RECEPTACLE_REMOVED`: the field is cleared, firmware records it, and every channel is forced DARK. -/
theorem exec_receptacleRemoved (s : State) (h : s.flag fPWR_CH_STATE_RECEPTACLE = true) : ∃ u : State,
    exec .receptacleRemoved s = .next (settle (each (span 0 4) chForce u)) ∧ u.flag fPWR_CH_STATE_RECEPTACLE = false ∧
      (s.firmware = true → u.cb.seq = s.cb.seq + 1#32) := by
  have hgone : (s.setB fPWR_CH_STATE_RECEPTACLE false).flag fPWR_CH_STATE_RECEPTACLE = false := State.flag_setB_same _ _ _ (by decide) (by decide)
  refine ⟨_, if_neg (show ¬ (!s.flag fPWR_CH_STATE_RECEPTACLE) = true by rw [h]; decide), ?_⟩
  split
  next hf => exact ⟨(flag_offer _ _ _ _ _ _ (by decide)).trans hgone, fun _ => offer_seq _ _ _ _ _⟩
  next hf => exact ⟨hgone, fun h => absurd ((firmware_setB_reg _ _ _ (by decide)).trans h) hf⟩

/-- `RECEPTACLE_FITTED` writes the one field. -/
theorem exec_receptacleFitted (s : State) : exec .receptacleFitted s = .next (settle (s.setB fPWR_CH_STATE_RECEPTACLE true)) := rfl

theorem fCH_apart_receptacle (n : Ch) : fPWR_CH_STATE_RECEPTACLE.apart (fCH n) := by
  have := n.isLt
  right
  change 2 * n.val + 2 ≤ 8
  omega

/-! ### Temperature (R59 to R62) -/

/-- A comparison's record touches no register but `CB_STATUS`. -/
theorem fld_thermRecord (code : Nat) (die : Int) (f : Fld) (s : State) (h : f.reg ≠ rCB_STATUS) : (thermRecord code die s).fld f = s.fld f := by
  unfold thermRecord
  split
  · exact fld_offer _ _ _ _ _ _ h
  · rfl

theorem thermRecord_boot (code : Nat) (die : Int) (s : State) : (thermRecord code die s).boot = s.boot := by
  unfold thermRecord
  split
  · exact offer_boot _ _ _ _ _
  · rfl

theorem fld_setBoot (b : BootSt) (f : Fld) (s : State) : (s.setBoot b).fld f = s.fld f := rfl

theorem thermalCycle_regs (die : Int) (s : State) : (thermalCycle die s).regs = s.regs := by
  unfold thermalCycle
  dsimp only
  split
  · rfl
  · split
    · split <;> rfl
    · split <;> rfl

/-- The warning threshold writes its own flag and `CB_STATUS`. -/
theorem fld_thermWarn (die : Int) (f : Fld) (s : State) (h : f.reg ≠ rCB_STATUS) (hf : fPWR_THERM_WARN.apart f) :
    (thermWarn die s).fld f = s.fld f := by
  unfold thermWarn
  dsimp only
  split
  · rw [fld_thermRecord _ _ _ _ h, fld_setBoot, State.fld_setB_apart _ _ _ _ (by decide) hf]
  · split <;> rfl

/-- The critical threshold writes its own flag and `CB_STATUS`. -/
theorem fld_thermCrit (die : Int) (f : Fld) (s : State) (h : f.reg ≠ rCB_STATUS) (hf : fPWR_THERM_CRIT.apart f) :
    (thermCrit die s).fld f = s.fld f := by
  unfold thermCrit
  split
  · rw [fld_thermRecord _ _ _ _ h, fld_setBoot, State.fld_setB_apart _ _ _ _ (by decide) hf]
  · split <;> rfl

theorem thermWarn_critHot (die : Int) (s : State) : (thermWarn die s).boot.critHot = s.boot.critHot := by
  unfold thermWarn
  dsimp only
  split
  · rw [thermRecord_boot]; rfl
  · split <;> rfl

/-- The warning flag is set as the threshold is crossed. -/
theorem thermWarn_crossed (die : Int) (s : State) (hh : s.boot.warnHot = false) (hw : (s.fld fPWR_THERM_WARN_C : Int) * 8 ≤ die) :
    (thermWarn die s).flag fPWR_THERM_WARN = true := by
  have hc : (decide ((s.fld fPWR_THERM_WARN_C : Int) * 8 ≤ die) && !s.boot.warnHot) = true := by rw [hh, decide_eq_true hw]; rfl
  rw [thermWarn, if_pos hc, State.flag, fld_thermRecord _ _ _ _ (by decide)]
  exact State.flag_setB_same s fPWR_THERM_WARN true (by decide) (by decide)

/-- The critical flag is set as the threshold is crossed. -/
theorem thermCrit_crossed (die : Int) (s : State) (hh : s.boot.critHot = false) (hw : 840 ≤ die) :
    (thermCrit die s).flag fPWR_THERM_CRIT = true := by
  have hc : (decide (105 * 8 ≤ die) && !s.boot.critHot) = true := by rw [hh, decide_eq_true (show 105 * 8 ≤ die from hw)]; rfl
  rw [thermCrit, if_pos hc, State.flag, fld_thermRecord _ _ _ _ (by decide)]
  exact State.flag_setB_same s fPWR_THERM_CRIT true (by decide) (by decide)

/-- The state that the thresholds of a comparison find: the reading taken, and whether a stack is hot. -/
def State.measured (x : Temps) (s : State) : State := stackHot x (s.setF fPWR_THERM_TJ_MAX (unsigned 16 x.die))

/-- The state that a comparison below the shutdown thresholds leaves. -/
def State.compared (x : Temps) (s : State) : State := thermalCycle x.die (thermCrit x.die (thermWarn x.die (s.measured x)))

theorem exec_temperatureCompare_below (x : Temps) (s : State) (h0 : s.stage ≠ 0) (hx : tripCause x = none) :
    exec (.temperatureCompare x) s = .next (settle (s.compared x)) := by
  change execTemperatureCompare x s = _
  rw [execTemperatureCompare, if_neg h0, hx]
  rfl

/-- The warning threshold is not changed by a measurement. -/
theorem measured_threshold (x : Temps) (s : State) : (s.measured x).fld fPWR_THERM_WARN_C = s.fld fPWR_THERM_WARN_C := by
  rw [State.measured, stackHot, State.fld_setB_reg _ _ _ _ (by decide), State.fld_setF_apart _ _ _ _ (by decide) (by decide)]

/-- What the thresholds leave as it is. -/
theorem fld_compared (x : Temps) (f : Fld) (s : State) (h : f.reg ≠ rCB_STATUS) (hw : fPWR_THERM_WARN.apart f) (hc : fPWR_THERM_CRIT.apart f) :
    (s.compared x).fld f = (s.measured x).fld f := by
  rw [State.compared, State.fld_congr (thermalCycle_regs _ _), fld_thermCrit _ _ _ h hc, fld_thermWarn _ _ _ h hw]

/-- The reading of the die is taken as a signed number. -/
theorem compared_reading (x : Temps) (s : State) : ((s.compared x).rd rPWR_THERM).extractLsb' 16 16 = BitVec.ofInt 16 x.die := by
  apply BitVec.eq_of_toNat_eq
  change (s.compared x).fld fPWR_THERM_TJ_MAX = _
  rw [fld_compared x _ s (by decide) (by decide) (by decide), State.measured, stackHot, State.fld_setB_reg _ _ _ _ (by decide),
    State.fld_setF_same _ _ _ (by decide), BitVec.toNat_ofInt]
  exact Nat.mod_eq_of_lt (by simp only [unsigned]; omega)

/-- A stack that has its supply is hot above 85 degrees. -/
theorem compared_hot (x : Temps) (s : State) : (s.compared x).flag fMEM_STATUS_HOT =
    ((s.fld (fPD 30) != 0 && decide (680 < x.hbmA)) || (s.fld (fPD 31) != 0 && decide (680 < x.hbmB))) := by
  have hpd : ∀ d v, (s.setF fPWR_THERM_TJ_MAX v).fld (fPD d) = s.fld (fPD d) := fun d v => State.fld_setF_reg _ _ _ _ (by
    change (if d < 16 then rPWR_DOMAIN_A else rPWR_DOMAIN_B) ≠ rPWR_THERM
    split <;> decide)
  rw [State.flag, fld_compared x _ s (by decide) (by decide) (by decide), ← State.flag, State.measured, stackHot,
    State.flag_setB_same _ _ _ (by decide) (by decide), hpd, hpd]
  rfl

theorem compared_warn (x : Temps) (s : State) (hh : s.boot.warnHot = false) (hw : (s.fld fPWR_THERM_WARN_C : Int) * 8 ≤ x.die) :
    (s.compared x).flag fPWR_THERM_WARN = true := by
  rw [State.compared, State.flag_congr (thermalCycle_regs _ _), State.flag, fld_thermCrit _ _ _ (by decide) (by decide), ← State.flag]
  exact thermWarn_crossed _ _ hh (by rw [measured_threshold]; exact hw)

theorem compared_crit (x : Temps) (s : State) (hh : s.boot.critHot = false) (hc : 840 ≤ x.die) : (s.compared x).flag fPWR_THERM_CRIT = true := by
  rw [State.compared, State.flag_congr (thermalCycle_regs _ _)]
  exact thermCrit_crossed _ _ ((thermWarn_critHot _ _).trans hh) hc

/-- Everything but `PD00` is at its reset value: no boot stage, no operation, no key (R63). -/
theorem coldBase_spec (s : State) : (coldBase s).stage = 0 ∧ (coldBase s).ops = [] ∧ (coldBase s).cph.keys = [] := by
  refine ⟨?_, rfl, rfl⟩
  simp (disch := decide) only [State.stage, coldBase, State.fld_setF_reg, State.fld_setB_reg, State.fld_setB_apart, State.fld_setF_same, Nat.zero_mod]

/-- A thermal shutdown (R61). -/
theorem thermalShutdown_spec (c : Nat) (s : State) (hc : c < 16) : let t := thermalShutdown c s
    t.fld fPWR_SHUTDOWN_CAUSE_CAUSE = c ∧ t.boot.thermtrip = true ∧ t.boot.gated = true ∧ t.cph.keys = [] ∧ t.ops = [] ∧ t.stage = 0 := by
  obtain ⟨hstage, hops, hkeys⟩ := coldBase_spec s
  refine ⟨?_, rfl, rfl, hkeys, hops, ?_⟩
  · rw [thermalShutdown, State.fld_congr (State.setBoot_regs _ _)]
    simp (disch := decide) only [setPD, State.fld_setF_reg, State.fld_setF_same]
    exact Nat.mod_eq_of_lt hc
  · rw [State.stage, thermalShutdown, State.fld_congr (State.setBoot_regs _ _)]
    simp (disch := decide) only [setPD, State.fld_setF_reg]
    exact hstage

theorem tripCause_lt (x : Temps) (c : Nat) (h : tripCause x = some c) : c < 16 := by
  unfold tripCause at h
  split at h
  · cases h; decide
  · split at h
    · cases h; decide
    · cases h

theorem exec_temperatureCompare_trip (x : Temps) (c : Nat) (s : State) (h0 : s.stage ≠ 0) (hx : tripCause x = some c) :
    exec (.temperatureCompare x) s = .next (settle (thermalShutdown c s)) := by
  change execTemperatureCompare x s = _
  rw [execTemperatureCompare, if_neg h0, hx]
  rfl

theorem exec_thermtripRecheck_trip (x : Temps) (c : Nat) (s : State) (h1 : s.stage = 1) (hx : tripCause x = some c) :
    exec (.thermtripRecheck x) s = .next (settle (thermalShutdown c s)) := by
  change execThermtripRecheck x s = _
  rw [execThermtripRecheck, hx]
  exact if_pos h1

/-! ### The engine (R59) -/

theorem rENG_STATUS_bounds (n : Ch) : 0x100000 ≤ rENG_STATUS n := by
  change 0x100000 ≤ chBase n + 0x1008
  unfold chBase
  omega

/-- A field outside the channel regions is none of an engine's. -/
theorem ne_rENG_STATUS (n : Ch) {off : Nat} (h : off < 0x100000) : off ≠ rENG_STATUS n := by
  have := rENG_STATUS_bounds n
  omega

/-- The channel states are in one register. -/
theorem fCH_reg_ne (n : Ch) {off : Nat} (h : rPWR_CH_STATE ≠ off) : (fCH n).reg ≠ off := h

theorem fCH_reg_ne_engine (n : Ch) : (fCH n).reg ≠ rENG_STATUS n := fCH_reg_ne n (ne_rENG_STATUS n (by decide))

theorem exec_heaterUnregulated (n : Ch) (temp : Nat) (s : State) (h : s.chDark n = false) : exec (.heaterUnregulated n temp) s =
    .next (settle (offer 0x0223 (bCH n) (temp % 256) 0 ((s.setF (fENG_STATUS_ENG_TEMP n) temp).setB (fENG_STATUS_UNREG n) true))) :=
  if_neg (by rw [h]; decide)

theorem exec_engineOvertemperature (n : Ch) (temp : Nat) (s : State) (h : s.chDark n = false) (ht : 164 ≤ temp) :
    exec (.engineOvertemperature n temp) s =
      .next (settle (chForce n (offer 0x0224 (bCH n) (temp % 256) 0 (s.setF (fENG_STATUS_ENG_TEMP n) temp)))) :=
  if_neg (by rw [h, decide_eq_false (by omega)]; decide)

/-! ### The shutdown cause (R62) -/

theorem resetWord_shutdownCause : resetWord rPWR_SHUTDOWN_CAUSE = 0#32 := by decide +kernel

theorem rd_unreg_shutdownCause (s : State) : (s.unreg rPWR_SHUTDOWN_CAUSE).rd rPWR_SHUTDOWN_CAUSE = 0#32 :=
  (State.rd_unreg_same s _).trans resetWord_shutdownCause

theorem exec_shutdownCauseRead_pcie (f : Fin 3) (s : State) (hf : f.val < 2) (hr : s.ready = true) :
    exec (.shutdownCauseRead f) s = .next (settle (put (s.rd rPWR_SHUTDOWN_CAUSE) (s.unreg rPWR_SHUTDOWN_CAUSE))) := by
  have h2 : ¬ f = 2 := by omega
  change execShutdownCauseRead f s = _
  simp only [execShutdownCauseRead, if_neg h2, hr]
  rfl

theorem exec_shutdownCauseRead_i2c (s : State) (h : s.i2cServed = true) : ∃ p, exec (.shutdownCauseRead 2) s =
    .next (settle { (s.unreg rPWR_SHUTDOWN_CAUSE).setPwr p with
      out := { s.out with data := s.rd rPWR_SHUTDOWN_CAUSE, bytes := le 4 (s.rd rPWR_SHUTDOWN_CAUSE).toNat } }) := by
  obtain ⟨p, hp⟩ := wakeFires_setPwr 2 (s.unreg rPWR_SHUTDOWN_CAUSE)
  refine ⟨p, ?_⟩
  change execShutdownCauseRead 2 s = _
  simp only [execShutdownCauseRead, if_true, h, Bool.not_true, Bool.false_eq_true, if_false, hp]
  rfl

/-! ### The adaptive core voltage (R48) -/

theorem clampI_range (lo hi v : Int) (h : lo ≤ hi) : lo ≤ clampI lo hi v ∧ clampI lo hi v ≤ hi := by
  unfold clampI
  split
  · exact ⟨le_refl lo, h⟩
  · split
    · exact ⟨h, le_refl hi⟩
    · omega

/-- The voltage at the sense pins and the limit go into the status. -/
def State.avsSensed (move : Int) (sense : Nat) (s : State) : State :=
  (s.setF fPWR_AVS_STATUS_SENSE (sat 65535 sense)).setB fPWR_AVS_STATUS_AT_LIMIT (s.fld fPWR_AVS_STATUS_SETPOINT == 32 && decide (0 < move))

theorem fld_avsSensed (move : Int) (sense : Nat) (f : Fld) (s : State) (hs : fPWR_AVS_STATUS_SENSE.apart f) (hl : fPWR_AVS_STATUS_AT_LIMIT.apart f) :
    (s.avsSensed move sense).fld f = s.fld f :=
  (State.fld_setB_apart _ _ _ _ (by decide) hl).trans (State.fld_setF_apart _ _ _ _ (by decide) hs)

/-- The loop takes its step and finds the regulator within 15 mV of it. -/
theorem exec_avsEvaluation_good (move : Int) (sense back v : Nat) (s : State) (hr : s.ready = true) (hen : s.flag fPWR_AVS_CTRL_AVS_EN = true)
    (hh : s.flag fPWR_AVS_CTRL_HOLD = false) (hb : s.flag fPWR_AVS_STATUS_READBACK_ERR = false) (ht : s.test.bist = none)
    (hv : avsMove false (s.fld fPWR_AVS_STATUS_SETPOINT) move = v) (hback : ((back : Int) - (6200 + 50 * (v : Int))).natAbs ≤ 150) :
    exec (.avsEvaluation move sense back) s = .next (settle (
      if v = s.fld fPWR_AVS_STATUS_SETPOINT then s.avsSensed move sense
      else ((s.avsSensed move sense).setF fPWR_AVS_STATUS_SETPOINT v).setBoot { s.boot with avsBad := 0 })) := by
  have hhold : (s.avsSensed move sense).flag fPWR_AVS_CTRL_HOLD = false := by
    rw [State.flag, State.avsSensed, State.fld_setB_reg _ _ _ _ (by decide), State.fld_setF_reg _ _ _ _ (by decide)]
    exact hh
  have hok : (s.avsSensed move sense).flag fPWR_AVS_STATUS_READBACK_ERR = false := by
    rw [State.flag, fld_avsSensed _ _ _ _ (by decide) (by decide)]
    exact hb
  change execAvsEvaluation move sense back s = _
  rw [State.avsSensed] at hhold hok
  rw [State.avsSensed]
  simp only [execAvsEvaluation, hr, hen, hhold, hok, Bool.not_true, Bool.or_self, Bool.false_eq_true, if_false, State.setB_test, State.setF_test, ht,
    Option.isSome_none, hv, hback, if_true]
  split <;> rfl

/-! ### Pins (R26) -/

/-- Without `VDD_IO18` the pads of 1.8 V have no defined state while the part is awake (R47). -/
theorem pin_undefined (p : Pin) (s : State) (h : s.boot.railsLow.contains 10 = true) (ha : s.pwr.asleep = false) (hp : p.cmos18 = true) :
    s.pin p = .undefined := by
  simp only [State.pin, h, ha, hp, Bool.false_eq_true, if_false, Bool.and_self, Bool.or_true, if_true]

/-- Under `RESET_N` low, with every rail in range, a pin shows what it does in the Reset column. -/
theorem pin_reset (p : Pin) (s : State) (hl : s.boot.railsLow = []) : s.pin p = s.pinDriven p := by
  simp only [State.pin, hl, List.contains_nil, Bool.false_and, Bool.or_false, Bool.false_eq_true, if_false]

theorem phase_reset (s : State) (hr : s.boot.resetLow = true) : s.phase = .reset := if_pos hr

/-- The step the loop takes outside a self-test lies within the range of the setpoint. -/
theorem avsMove_false (sp : Nat) (move : Int) :
    (avsMove false sp move : Int) = clampI 0 32 ((sp : Int) + clampI (-1) 1 move) ∧ avsMove false sp move ≤ 32 := by
  obtain ⟨hlo, hhi⟩ := clampI_range 0 32 ((sp : Int) + clampI (-1) 1 move) (by decide)
  change (((clampI 0 32 ((sp : Int) + clampI (-1) 1 move)).toNat : Nat) : Int) = _ ∧ (clampI 0 32 ((sp : Int) + clampI (-1) 1 move)).toNat ≤ 32
  omega

/-! ### The statement -/

/-- Settles O5: each event by its own lemma, in the order of the statement. -/
theorem supplyEventsComplete : Obligations.SupplyEventsComplete := by
  unfold Obligations.SupplyEventsComplete
  refine ⟨?rail2, ?rail6, ?rail8, ?darkRail, ?darkPads, ?back, ?hold, ?held, fun s h => exec_receptacleRemoved s h, ?fitted, ?below, ?trip, ?recheck,
    ?heater, ?engine, ?causePcie, ?causeI2c, ?avs, fun p s h ha hp => pin_undefined p s h ha hp, ?pins⟩
  case rail2 =>
    intro r s ha hlo hhi
    rw [exec_railBelowThreshold_group r s ha hlo (by omega), if_pos hhi]
  case rail6 =>
    intro r s ha hlo hhi
    rw [exec_railBelowThreshold_group r s ha (by omega) (by omega), if_neg (by omega), if_pos hhi]
  case rail8 =>
    intro r s ha hlo hhi
    rw [exec_railBelowThreshold_group r s ha (by omega) hhi, if_neg (by omega), if_neg (by omega)]
  case darkRail =>
    intro r s ha hr
    obtain ⟨l, hl, hdark⟩ := darkRail_powerDown r.val s hr
    refine ⟨_, exec_railRemovedInDarkHouse r s ha, ?_⟩
    rw [hdark]
    simp only [settle_boot, settle_regs, settle_banks, settle_ops, settle_pwr]
    exact ⟨trivial, hl, trivial, trivial, trivial, trivial⟩
  case darkPads =>
    intro s ha
    obtain ⟨l, hl, hpads⟩ := darkRail_pads s
    obtain ⟨k, hk, haon⟩ := darkRail_alwaysOn s
    have hnext10 : exec (.railRemovedInDarkHouse 10) s = .next (settle (darkRail 10 s)) := exec_railRemovedInDarkHouse 10 s ha
    have hnext11 : exec (.railRemovedInDarkHouse 11) s = .next (settle (darkRail 11 s)) := exec_railRemovedInDarkHouse 11 s ha
    refine ⟨⟨_, hnext10, ?_⟩, ⟨_, hnext11, ?_⟩⟩
    · simp only [settle_boot, settle_regs, settle_banks, settle_ops, settle_pwr]
      rw [hpads]
      exact ⟨hl, rfl, rfl, rfl, rfl⟩
    · simp only [settle_boot, settle_banks, settle_ops, settle_life]
      rw [haon]
      exact ⟨hk, rfl, rfl, rfl, rfl⟩
  case back =>
    intro r s h
    obtain ⟨t, hnext, hlow, hregs, hpwr⟩ := exec_railBackInRange r s h
    refine ⟨_, hnext, ?_, (settle_regs t).trans hregs, fun hc => (settle_pwr t).trans (hpwr hc)⟩
    rw [settle_boot, hlow]
    simp
  case hold =>
    intro s hb hc hr hg
    obtain ⟨hstage, h1, h2, hboot⟩ := clockStage_spec (s.setBoot { s.boot with brown := false })
    refine ⟨_, exec_brownOutHoldEnd s hb hc, ?_⟩
    beta_reduce
    rw [if_neg (by rw [hr, hg]; decide), State.stage, fld_settle, fld_settle, fld_settle, settle_boot, hboot]
    exact ⟨rfl, hstage, h1, h2⟩
  case held =>
    intro s hb hc hheld
    refine ⟨_, exec_brownOutHoldEnd s hb hc, ?_⟩
    beta_reduce
    rw [if_pos (by simpa using hheld), settle_boot, settle_regs]
    exact ⟨rfl, rfl⟩
  case fitted =>
    intro s
    refine ⟨_, exec_receptacleFitted s, ?_, fun off hoff => ?_, fun n => ?_⟩
    · rw [flag_settle]
      exact State.flag_setB_same _ _ _ (by decide) (by decide)
    · rw [rd_settle, State.rd_setB_other _ _ _ _ hoff]
    · rw [fld_settle, State.fld_setB_apart _ _ _ _ (by decide) (fCH_apart_receptacle n)]
  case below =>
    intro x s h0 hx
    refine ⟨_, exec_temperatureCompare_below x s h0 hx, ?_⟩
    simp only [rd_settle, flag_settle]
    exact ⟨compared_reading x s, compared_hot x s, compared_warn x s, compared_crit x s⟩
  case trip =>
    intro x c s h0 hx
    refine ⟨_, exec_temperatureCompare_trip x c s h0 hx, ?_⟩
    simp only [State.stage, fld_settle, settle_boot, settle_cph, settle_ops]
    exact thermalShutdown_spec c s (tripCause_lt x c hx)
  case recheck =>
    intro x c s h1 hx
    obtain ⟨-, htrip, hgated, -, -, hstage⟩ := thermalShutdown_spec c s (tripCause_lt x c hx)
    refine ⟨_, exec_thermtripRecheck_trip x c s h1 hx, ?_⟩
    simp only [State.stage, fld_settle, settle_boot]
    exact ⟨htrip, hgated, hstage⟩
  case heater =>
    intro n temp s h
    refine ⟨_, exec_heaterUnregulated n temp s h, ?_, ?_, ?_⟩
    · rw [flag_settle, flag_offer _ _ _ _ _ _ (ne_rENG_STATUS n (by decide)).symm]
      exact State.flag_setB_same _ _ _ (show 5 + 1 ≤ 32 by decide) (show 0 < 1 by decide)
    · rw [fld_settle, fld_offer _ _ _ _ _ _ (fCH_reg_ne n (by decide)), State.fld_setB_reg _ _ _ _ (fCH_reg_ne_engine n),
        State.fld_setF_reg _ _ _ _ (fCH_reg_ne_engine n)]
    · rw [settle_cb, offer_seq]
      rfl
  case engine =>
    intro n temp s h ht
    refine ⟨_, exec_engineOvertemperature n temp s h ht, offer_seq _ _ _ _ _, ?_⟩
    rw [fld_offer _ _ _ _ _ _ (fCH_reg_ne n (by decide)), State.fld_setF_reg _ _ _ _ (fCH_reg_ne_engine n)]
  case causePcie =>
    intro f s hf hr
    refine ⟨_, exec_shutdownCauseRead_pcie f s hf hr, ?_⟩
    simp only [settle_data, rd_settle, rd_put]
    exact ⟨rfl, rd_unreg_shutdownCause s, fun off hoff => State.rd_unreg_other s _ off hoff⟩
  case causeI2c =>
    intro s hs
    obtain ⟨p, hnext⟩ := exec_shutdownCauseRead_i2c s hs
    refine ⟨_, hnext, ?_⟩
    beta_reduce
    rw [settle_bytes, rd_settle]
    exact ⟨rfl, rd_unreg_shutdownCause s⟩
  case avs =>
    intro move sense back s hr hen hh hb ht _ hback
    obtain ⟨hv, hle⟩ := avsMove_false (s.fld fPWR_AVS_STATUS_SETPOINT) move
    refine ⟨_, exec_avsEvaluation_good move sense back _ s hr hen hh hb ht rfl (by rw [hv]; exact hback), ?_⟩
    beta_reduce
    rw [flag_settle, fld_settle, ← hv]
    split
    next heq =>
      rw [State.flag, fld_avsSensed _ _ _ _ (by decide) (by decide), fld_avsSensed _ _ _ _ (by decide) (by decide), ← State.flag]
      exact ⟨congrArg _ heq.symm, hb⟩
    next =>
      rw [State.flag, fld_setBoot, fld_setBoot, State.fld_setF_same _ _ _ (by decide), State.fld_setF_apart _ _ _ _ (by decide) (by decide),
        fld_avsSensed _ _ _ _ (by decide) (by decide), ← State.flag]
      exact ⟨congrArg _ (Nat.mod_eq_of_lt (Nat.lt_of_le_of_lt hle (by decide))), hb⟩
  case pins =>
    intro s hl hr
    have hph := phase_reset s hr
    simp only [pin_reset _ s hl, State.pinDriven, hph, hr]
    simp

end Sys2Proof.Machine
end

/-! # Register writes of one register each (O14) -/
section
namespace Sys2Proof.Machine

open Sys2Proof

/-! ### The path of a write (R78, R85, R464) -/

theorem exec_registerWrite (f : Pr) (off : Nat) (w : Word) (s : State) :
    exec (.registerWrite f off w) s = .next (settle (regWrite f off w s)) := rfl

/-- An offset between two words, or above BAR0, ignores a write. -/
theorem regWrite_outside (f : Pr) (off : Nat) (w : Word) (s : State) (h : off % 4 ≠ 0 ∨ fnBase ≤ off) : regWrite f off w s = s :=
  if_pos (by simpa using h)

/-- Below READY only what R78 names is written. -/
theorem regWrite_early (f : Pr) (off : Nat) (w : Word) (s : State) (hr : s.ready = false) (h4 : off % 4 = 0) (hb : off < fnBase) :
    regWrite f off w s = writeEarly f off w s :=
  (if_neg (by simp [h4, hb])).trans (if_pos (by simp [hr]))

theorem regWrite_own (f : Pr) (off : Nat) (w : Word) (s : State) (hr : s.ready = true) (h4 : off % 4 = 0) (hb : off < fnBase)
    (ho : (regFind .perFn 0 off regTable).isSome = true) : regWrite f off w s = writeOwn f off w s :=
  (if_neg (by simp [h4, hb])).trans ((if_neg (by simp [hr])).trans (if_pos ho))

theorem regWrite_zero (off : Nat) (w : Word) (s : State) (hr : s.ready = true) (h4 : off % 4 = 0) (hb : off < fnBase)
    (ho : (regFind .perFn 0 off regTable).isSome = false) : regWrite 0 off w s = writeZero off w s :=
  (if_neg (by simp [h4, hb])).trans ((if_neg (by simp [hr])).trans ((if_neg (by simp [ho])).trans (if_pos rfl)))

/-- Function 1 changes no register that the functions share. -/
theorem regWrite_one (off : Nat) (w : Word) (s : State) (hr : s.ready = true) (ho : (regFind .perFn 0 off regTable).isSome = false) :
    regWrite 1 off w s = s := by
  by_cases h : off % 4 ≠ 0 ∨ fnBase ≤ off
  · exact regWrite_outside 1 off w s h
  · exact (if_neg (by simpa using h)).trans ((if_neg (by simp [hr])).trans ((if_neg (by simp [ho])).trans (if_neg (by decide))))

/-! ### Before READY (R74, R78) -/

theorem writeEarly_ignored (f : Pr) (off : Nat) (w : Word) (s : State) (h8 : s.stage ≠ 8)
    (hoff : off ∉ [rSYS_DL_PAGE, rMBX_REQ_DATA 0, rMBX_REQ_END 0]) : writeEarly f off w s = s := by
  simp only [List.mem_cons, List.not_mem_nil, or_false, not_or] at hoff
  obtain ⟨hpage, hdata, hend⟩ := hoff
  simp [writeEarly, hpage, hdata, hend, h8]

theorem regWrite_ignored (f : Pr) (off : Nat) (w : Word) (s : State) (hr : s.ready = false) (h8 : s.stage ≠ 8)
    (hoff : off ∉ [rSYS_DL_PAGE, rMBX_REQ_DATA 0, rMBX_REQ_END 0]) : regWrite f off w s = s := by
  by_cases h : off % 4 ≠ 0 ∨ fnBase ≤ off
  · exact regWrite_outside f off w s h
  · simp only [ne_eq, not_or, not_not, Nat.not_le] at h
    obtain ⟨h4, hb⟩ := h
    rw [regWrite_early f off w s hr h4 hb, writeEarly_ignored f off w s h8 hoff]

/-- The link that is not up, and a stage before it could be, are conditions of `earlyWord` as well. -/
theorem writeEarly_word (f : Pr) (last : Bool) (off : Nat) (w : Word) (s : State) (hoff : off = if last then rMBX_REQ_END 0 else rMBX_REQ_DATA 0) :
    writeEarly f off w s = earlyWord f last s := by
  by_cases hl : (!s.boot.linkUp || decide (s.stage < 3)) = true
  · exact (if_pos hl).trans (if_pos hl).symm
  · refine (if_neg hl).trans ?_
    cases last <;> subst hoff <;> rfl

theorem regWrite_earlyWord (f : Pr) (last : Bool) (w : Word) (s : State) (hr : s.ready = false) :
    regWrite f (if last then rMBX_REQ_END 0 else rMBX_REQ_DATA 0) w s = earlyWord f last s := by
  rw [← writeEarly_word f last _ w s rfl]
  cases last <;> exact regWrite_early f _ w s hr (by decide) (by decide)

/-- In download wait the window takes the word. -/
theorem regWrite_window (off : Nat) (w : Word) (s : State) (h8 : s.stage = 8) (hl : s.boot.linkUp = true) (h4 : off % 4 = 0)
    (hlo : 0x80000 ≤ off) (hhi : off < 0x90000) : regWrite 0 off w s = dlWrite off w s := by
  have hr : s.ready = false := by simp [State.ready, h8]
  have hb : off < fnBase := Nat.lt_trans hhi (by decide)
  have hpage : off ≠ rSYS_DL_PAGE := (Nat.lt_of_lt_of_le (by decide) hlo).ne'
  have hdata : off ≠ rMBX_REQ_DATA 0 := (Nat.lt_of_lt_of_le (by decide) hlo).ne'
  have hend : off ≠ rMBX_REQ_END 0 := (Nat.lt_of_lt_of_le (by decide) hlo).ne'
  rw [regWrite_early 0 off w s hr h4 hb]
  simp [writeEarly, hl, h8, hpage, hdata, hend, hlo, hhi]

/-- What a run of values stored from a base on leaves under each key. -/
theorem smGet_run {α : Type} [DecidableEq α] (d : Nat → α) (base : Nat) (v : Nat → α) (j a n : Nat) (m : SMap α) :
    smGet d ((span a n).foldl (fun m i => smSet d m (base + i) (v i)) m) j =
      if base + a ≤ j ∧ j < base + a + n then v (j - base) else smGet d m j := by
  induction n generalizing a m with
  | zero => exact (if_neg (by omega)).symm
  | succ n ih =>
    rw [span, List.foldl_cons, ih, smGet_smSet]
    by_cases ha : j = base + a
    · subst ha
      rw [if_neg (by omega), if_pos rfl, if_pos (by omega), Nat.add_sub_cancel_left]
    · rw [if_neg ha]
      exact if_congr (by omega) rfl rfl

/-- The four bytes of a word in the download window, least significant first. -/
theorem dlWrite_bytes (off : Nat) (w : Word) (s : State) (j : Nat) :
    let base := s.fld fSYS_DL_PAGE_PAGE * 65536 + (off - 0x80000)
    smGet (fun _ => 0#8) (dlWrite off w s).boot.dl j =
      if base ≤ j ∧ j < base + 4 then w.extractLsb' (8 * (j - base)) 8 else smGet (fun _ => 0#8) s.boot.dl j := by
  intro base
  rw [BitVec.extractLsb', Nat.shiftRight_eq_div_pow]
  have hrun := smGet_run (fun _ => 0#8) base (fun i => BitVec.ofNat 8 (w.toNat / 2 ^ (8 * i))) j 0 4 s.boot.dl
  rw [Nat.add_zero] at hrun
  exact hrun

/-! ### Fields after a write by class -/

/-- A field is made of its bits. -/
theorem Fld.of_congr (f : Fld) (v w : Word) (h : ∀ i, i < f.w → v.getLsbD (f.lo + i) = w.getLsbD (f.lo + i)) : f.of v = f.of w := by
  unfold Fld.of
  congr 1
  refine BitVec.eq_of_getLsbD_eq fun i hi => ?_
  rw [BitVec.getLsbD_extractLsb', BitVec.getLsbD_extractLsb', h i hi]

/-- A field of one bit is set when that bit is. -/
theorem State.flag_eq_getLsbD (s : State) (f : Fld) (h : f.w = 1) : s.flag f = (s.rd f.reg).getLsbD f.lo := by
  obtain ⟨reg, lo, width⟩ := f
  subst h
  simp only [State.flag, State.fld, Fld.of, BitVec.extractLsb', BitVec.toNat_ofNat, BitVec.getLsbD, Nat.testBit, Nat.and_comm 1,
    Nat.and_one_is_mod, pow_one]

/-- A register whose every bit is a Live field takes the whole word. -/
theorem writeLive_whole (off : Nat) (w : Word) (s : State) (hlive : fieldBits off .rw .live = BitVec.allOnes 32)
    (hclr : fieldBits off .rw1c .none = 0#32) (htaken : liveTaken off (s.rd off) w = w) : writeLive off w s = s.wr off w := by
  have hrd : (writeLive off w s).rd off = w := BitVec.eq_of_getLsbD_eq fun i hi => by
    rw [getLsbD_writeLive, hlive, hclr, htaken, BitVec.getLsbD_allOnes, decide_eq_true hi, BitVec.getLsbD_zero]
    exact Bool.and_true _
  exact congrArg (s.wr off) ((State.rd_wr_same s off _).symm.trans hrd)

theorem fieldBits_intEnable (f : Pr) :
    fieldBits (rINT_ENABLE f) .rw .live = BitVec.allOnes 32 ∧ fieldBits (rINT_ENABLE f) .rw1c .none = 0#32 := by
  revert f
  decide +kernel

/-- `INT_ENABLE` of the writing function (R469). -/
theorem regWrite_intEnable (f : Pr) (w : Word) (s : State) (hr : s.ready = true) :
    regWrite f (rINT_ENABLE 0) w s = s.wr (rINT_ENABLE f) w := by
  obtain ⟨hlive, hclr⟩ := fieldBits_intEnable f
  have htaken : liveTaken (rINT_ENABLE f) (s.rd (rINT_ENABLE f)) w = w := by
    fin_cases f <;> rfl
  have hat : rINT_ENABLE 0 + f.val * fnBase = rINT_ENABLE f := congrArg _ (Nat.mul_comm _ _)
  rw [regWrite_own f _ w s hr (by decide) (by decide) (by decide +kernel), ← writeLive_whole (rINT_ENABLE f) w s hlive hclr htaken, ← hat]
  rfl

/-! ### The warning threshold (R62) -/

/-- No claim covers `PWR_THERM`, it has no Cue or Dark fields, and a write to it sets nothing going. -/
theorem regWrite_therm (w : Word) (s : State) (hr : s.ready = true) : regWrite 0 rPWR_THERM w s = writeLive rPWR_THERM w s := by
  have hdark : ∀ t : State, writeDark rPWR_THERM w t = t := fun t => writeDark_same _ w t (by
    rw [show fieldBits rPWR_THERM .rw .dark = 0#32 by decide +kernel, BitVec.and_zero, BitVec.and_zero])
  have hcue : ∀ t : State, writeCue rPWR_THERM w t = t := fun t => by
    rw [writeCue, show cueBlock rPWR_THERM = none by decide +kernel]
  have hclaim : ∀ r, regClaim rPWR_THERM = some r → s.claimedByOther ⟨1, 0, 0⟩ r = false := fun r h => nomatch h
  rw [regWrite_shared rPWR_THERM w s hr (by decide) (by decide) (by decide +kernel) (by decide) (by decide) (by decide) (by decide),
    writeShared_unclaimed _ w s (by decide) hclaim, hdark, hcue]
  rfl

/-- A threshold outside its range leaves the field (`liveTaken`). -/
theorem thermWarnC_writeLive (w : Word) (s : State) : (writeLive rPWR_THERM w s).fld fPWR_THERM_WARN_C =
    if 70 ≤ w.toNat % 256 ∧ w.toNat % 256 ≤ 104 then w.toNat % 256 else s.fld fPWR_THERM_WARN_C := by
  have hlive : ∀ i, i < 8 → (fieldBits rPWR_THERM .rw .live).getLsbD i = true := by decide +kernel
  have hclr : ∀ i, i < 8 → (fieldBits rPWR_THERM .rw1c .none).getLsbD i = false := by decide +kernel
  have hmask : ∀ i, i < 8 → fPWR_THERM_WARN_C.mask.getLsbD i = true := by decide
  have hw : fPWR_THERM_WARN_C.of w = w.toNat % 256 := rfl
  have hfld : (writeLive rPWR_THERM w s).fld fPWR_THERM_WARN_C = fPWR_THERM_WARN_C.of (liveTaken rPWR_THERM (s.rd rPWR_THERM) w) :=
    Fld.of_congr _ _ _ fun i hi => by
      have h8 : 0 + i < 8 := by rw [Nat.zero_add]; exact hi
      rw [getLsbD_writeLive, hlive _ h8, hclr _ h8]
      simp
  rw [hfld, liveTaken, if_pos rfl, hw]
  by_cases h : 70 ≤ w.toNat % 256 ∧ w.toNat % 256 ≤ 104
  · rw [if_pos h, if_neg (by simp [outside, h.1, h.2]), hw]
  · rw [if_neg h, if_pos (by simp only [outside, Bool.or_eq_true, decide_eq_true_eq]; omega)]
    refine Fld.of_congr _ _ _ fun i hi => ?_
    rw [getLsbD_mix, hmask _ (by rw [Nat.zero_add]; exact hi)]
    rfl

/-- WARN in bit 8 and CRIT in bit 9 are cleared by writing 1. -/
theorem thermFlag_writeLive (w : Word) (s : State) (k : Nat) (hk : k = 8 ∨ k = 9) :
    (writeLive rPWR_THERM w s).flag ⟨rPWR_THERM, k, 1⟩ = (s.flag ⟨rPWR_THERM, k, 1⟩ && !w.getLsbD k) := by
  have hlive : (fieldBits rPWR_THERM .rw .live).getLsbD k = false := by
    rcases hk with rfl | rfl <;> decide +kernel
  have hclr : (fieldBits rPWR_THERM .rw1c .none).getLsbD k = true := by
    rcases hk with rfl | rfl <;> decide +kernel
  rw [State.flag_eq_getLsbD _ _ rfl, State.flag_eq_getLsbD _ _ rfl, getLsbD_writeLive, hlive, hclr, Bool.true_and]
  rfl

theorem thermTj_writeLive (w : Word) (s : State) : (writeLive rPWR_THERM w s).fld fPWR_THERM_TJ_MAX = s.fld fPWR_THERM_TJ_MAX := by
  have hlive : ∀ i, i < 16 → (fieldBits rPWR_THERM .rw .live).getLsbD (16 + i) = false := by decide +kernel
  have hclr : ∀ i, i < 16 → (fieldBits rPWR_THERM .rw1c .none).getLsbD (16 + i) = false := by decide +kernel
  refine Fld.of_congr _ _ _ fun i hi => ?_
  rw [getLsbD_writeLive, hlive i hi, hclr i hi]
  exact Bool.and_true _

/-! ### Armed injections (R372) -/

/-- With ARM set either register takes its own fields and stays armed. -/
theorem regWrite_armed (off : Nat) (w : Word) (s : State) (hr : s.ready = true) (hw : w.getLsbD 31 = true)
    (hoff : off = rMEM_FLIP ∨ off = rMEM_SFLIP) :
    regWrite 0 off w s = s.wr off ((w &&& if off = rMEM_FLIP then 0x00FFFFFF#32 else 0x000FFF7F#32) ||| 0x80000000#32) := by
  have harm : bit w.toNat 31 = true := (bit_eq_testBit _ _).trans hw
  rcases hoff with rfl | rfl
  all_goals
    rw [regWrite_zero _ w s hr (by decide) (by decide) (by decide +kernel)]
    exact (if_neg (by decide)).trans ((if_neg (by decide)).trans (if_pos (by rw [harm]; rfl)))

/-- A write that stores one word completes with that word and every other register as it was. -/
theorem completes_wr (i : Instr) (off : Nat) (v : Word) (s : State) (h : exec i s = .next (settle (s.wr off v))) :
    Completes i s fun t => t.rd off = v ∧ ∀ j, j ≠ off → t.rd j = s.rd j :=
  ⟨_, h, (rd_settle _ _).trans (State.rd_wr_same _ _ _), fun _ hj => (rd_settle _ _).trans (State.rd_wr_other _ _ _ _ hj)⟩

/-! ### The statement -/

/-- Settles O14: each clause is the path of its write, then what the operation at its end leaves. -/
theorem registerWritesComplete : Obligations.RegisterWritesComplete := by
  unfold Obligations.RegisterWritesComplete
  refine ⟨?intEnable, ?therm, ?functionOne, ?outside, ?early, ?earlyWords, ?window, ?flips⟩
  case intEnable =>
    intro f w s hr
    refine ⟨settle (s.wr (rINT_ENABLE f) w), by rw [exec_registerWrite, regWrite_intEnable f w s hr], ?_⟩
    simp only [rd_settle, settle_mbx, settle_cb, State.rd_wr_same, State.wr_mbx, State.wr_cb]
    exact ⟨trivial, fun j hj => State.rd_wr_other _ _ _ _ hj, trivial, trivial⟩
  case therm =>
    intro w s hr
    refine ⟨settle (writeLive rPWR_THERM w s), by rw [exec_registerWrite, regWrite_therm w s hr], ?_⟩
    simp only [rd_settle, fld_settle, flag_settle]
    exact ⟨thermWarnC_writeLive w s, thermFlag_writeLive w s 8 (.inl rfl), thermFlag_writeLive w s 9 (.inr rfl), thermTj_writeLive w s,
      fun j hj => State.rd_wr_other _ _ _ _ hj⟩
  case functionOne =>
    intro off w s hr _ ho
    rw [exec_registerWrite, regWrite_one off w s hr ho]
  case outside =>
    intro f off w s h
    rw [exec_registerWrite, regWrite_outside f off w s h]
  case early =>
    intro f off w s hr h8 hoff
    rw [exec_registerWrite, regWrite_ignored f off w s hr h8 hoff]
  case earlyWords =>
    intro f w s hr
    have hword (last : Bool) : exec (.registerWrite f (if last then rMBX_REQ_END 0 else rMBX_REQ_DATA 0) w) s = .next (settle (earlyWord f last s)) := by
      rw [exec_registerWrite, regWrite_earlyWord f last w s hr]
    exact ⟨hword false, hword true⟩
  case window =>
    intro off w s h8 hl h4 hlo hhi
    refine ⟨settle (dlWrite off w s), by rw [exec_registerWrite, regWrite_window off w s h8 hl h4 hlo hhi], settle_regs _, fun i hi => ?_, fun j hj => ?_⟩
    · rw [settle_boot, dlWrite_bytes, if_pos (by omega), Nat.add_sub_cancel_left]
    · rw [settle_boot, dlWrite_bytes, if_neg (by omega)]
  case flips =>
    intro w s hr hw
    exact ⟨completes_wr _ _ _ s (congrArg (fun t => Host.Outcome.next (settle t)) (regWrite_armed rMEM_FLIP w s hr hw (.inl rfl))),
      completes_wr _ _ _ s (congrArg (fun t => Host.Outcome.next (settle t)) (regWrite_armed rMEM_SFLIP w s hr hw (.inr rfl)))⟩

end Sys2Proof.Machine
end

/-! # The state right after power-on (O1, O58) -/
section
namespace Sys2Proof.Machine

open Sys2Proof

/-- Settles O1: the fields of `State.reset` one by one; the registers by their reset words. -/
theorem resetAsTheSpecSays : Obligations.ResetAsTheSpecSays := by
  unfold Obligations.ResetAsTheSpecSays
  refine ⟨rfl, rfl, rfl, rfl, rfl, rfl, rfl, rfl, ?_, ?_, ?_, rfl, rfl, ?_, ?_, ?_, ?_⟩ <;> decide +kernel

theorem reset_regsWf : State.reset.regsWf := by decide +kernel

theorem reset_inv : State.reset.Inv where
  mem := reset_memWf
  input := by decide +kernel
  inputs := List.length_replicate
  kept := fun _ h => nomatch (show (none : Option Banks) = some _ from h)

/-- Settles O58: the one register that differs from its reset value, and the stores that hold nothing. -/
theorem resetIsInForm : Obligations.ResetIsInForm := ⟨reset_regsWf, reset_inv⟩

end Sys2Proof.Machine
end

/-! # What each kind of reset clears (O3) -/
section
namespace Sys2Proof.Machine

open Sys2Proof

/-! ### Registers that are left out -/

theorem smLookup_filter {α : Type} (p : Nat → Bool) (m : SMap α) (i : Nat) :
    smLookup (m.filter fun e => p e.1) i = if p i then smLookup m i else none := by
  induction m with
  | nil => exact (ite_self none).symm
  | cons e r ih =>
    obtain ⟨k, w⟩ := e
    by_cases hk : i = k
    · subst hk
      cases hp : p i <;> simp [hp, smLookup, ih]
    · cases hp : p k <;> simp [hp, smLookup, hk, ih]

/-- A key that is left out reads as an unlisted one. -/
theorem smGet_filter {α : Type} (d : Nat → α) (p : Nat → Bool) (m : SMap α) (i : Nat) :
    smGet d (m.filter fun e => p e.1) i = if p i then smGet d m i else d i := by
  rw [smGet, smLookup_filter]
  cases p i <;> rfl

theorem rd_dropRegs (p : Nat → Bool) (s : State) (off : Nat) : (dropRegs p s).rd off = if p off then resetWord off else s.rd off := by
  refine (smGet_filter resetWord (fun j => !p j) s.regs off).trans ?_
  cases p off <;> rfl

/-! ### Cold starts (R63) -/

/-- What every cold start clears, with the kind that it shows (R67). -/
def Cleared (k : Nat) (s t : State) : Prop :=
  t.claims = [] ∧ t.rehearsals = [] ∧ t.ops = [] ∧ t.arrived = [] ∧ t.cph.keys = [] ∧ t.cph.kek = none ∧ t.banks = none ∧
    t.mbx = Two.all Mailbox.closed ∧ t.i2c = Mailbox.closed ∧ t.rd rPWR_DOMAIN_B = 0#32 ∧
    (∀ n : Ch, t.fld (fCH n) = 0) ∧ t.fld fSYS_RESET_CAUSE_KIND = k ∧ t.pending = s.pending

/-- The parts of a state that `Cleared` speaks of, but for the registers. -/
def State.clearedParts (s : State) :=
  (s.claims, s.rehearsals, s.ops, s.arrived, s.cph.keys, s.cph.kek, s.banks, s.mbx, s.i2c, s.pending)

/-- What leaves those parts, the domains, the channel states and the cause as they are leaves a cleared part cleared. -/
theorem Cleared.congr {k : Nat} {s t u : State} (h : Cleared k s t) (hp : u.clearedParts = t.clearedParts)
    (hd : u.rd rPWR_DOMAIN_B = t.rd rPWR_DOMAIN_B) (hc : u.rd rPWR_CH_STATE = t.rd rPWR_CH_STATE)
    (hk : u.rd rSYS_RESET_CAUSE = t.rd rSYS_RESET_CAUSE) : Cleared k s u := by
  simp only [State.clearedParts, Prod.mk.injEq] at hp
  obtain ⟨h1, h2, h3, h4, h5, h6, h7, h8, h9, h10⟩ := hp
  simp only [Cleared, State.fld, h1, h2, h3, h4, h5, h6, h7, h8, h9, h10, hd, hc, hk]
  exact h

theorem Cleared.settle {k : Nat} {s t : State} (h : Cleared k s t) : Cleared k s (settle t) :=
  h.congr (by simp [State.clearedParts]) (rd_settle _ _) (rd_settle _ _) (rd_settle _ _)

theorem Cleared.setBoot {k : Nat} {s t : State} (h : Cleared k s t) (b : BootSt) : Cleared k s (t.setBoot b) := h

theorem Cleared.setF {k : Nat} {s t : State} (h : Cleared k s t) (f : Fld) (v : Nat)
    (hf : f.reg ∉ [rPWR_DOMAIN_B, rPWR_CH_STATE, rSYS_RESET_CAUSE]) : Cleared k s (t.setF f v) := by
  simp only [List.mem_cons, List.not_mem_nil, or_false, not_or] at hf
  obtain ⟨hd, hc, hk⟩ := hf
  exact h.congr rfl (State.rd_setF_other _ _ _ _ (Ne.symm hd)) (State.rd_setF_other _ _ _ _ (Ne.symm hc)) (State.rd_setF_other _ _ _ _ (Ne.symm hk))

/-- The registers that a cold start writes beside the kind, the count and the fuses (R63). -/
theorem rd_coldBase (s : State) (off : Nat) (hb : off ≠ rSYS_BOOT_STATUS) (hc : off ≠ rPWR_CH_STATE) (ht : off ≠ rTIM_STATUS) :
    (coldBase s).rd off = if coldKeeps off then s.rd off else resetWord off := by
  unfold coldBase
  rw [State.rd_setF_other _ _ _ _ ht, State.rd_setB_other _ _ _ _ hc, State.rd_setB_other _ _ _ _ hb, State.rd_setF_other _ _ _ _ hb]
  exact smGet_filter resetWord coldKeeps s.regs off

theorem resetWord_domainB : resetWord rPWR_DOMAIN_B = 0#32 := by decide +kernel
theorem resetWord_chState : resetWord rPWR_CH_STATE = 0#32 := by decide +kernel

theorem Fld.of_zero (f : Fld) : f.of 0#32 = 0 := by simp [Fld.of]

theorem fld_chState_coldBase (s : State) (n : Ch) : (coldBase s).fld (fCH n) = 0 := by
  unfold coldBase
  rw [State.fld_setF_reg _ _ _ _ (fCH_reg_ne n (by decide)), State.fld_setB_apart _ _ _ _ (by decide) (fCH_apart_receptacle n),
    State.fld_setB_reg _ _ _ _ (fCH_reg_ne n (by decide)), State.fld_setF_reg _ _ _ _ (fCH_reg_ne n (by decide))]
  refine (congrArg (fCH n).of (smGet_filter resetWord coldKeeps s.regs rPWR_CH_STATE)).trans ?_
  rw [if_neg (by decide), resetWord_chState, Fld.of_zero]

/-- What `coldStart` adds to `coldBase`: the kind and the count in the cause register, and the fuses left (R67). -/
theorem coldStart_regs (k : Nat) (s : State) : (coldStart k s).regs =
    (let t := ((coldBase s).setF fSYS_RESET_CAUSE_KIND k).bumpF fSYS_RESET_CAUSE_SINCE_POWER_ON
     if 4 ≤ k then t.setF fTST_STATUS_FUSES_LEFT (256 - t.store.cur.fuses) else t).regs := by
  by_cases hk : 4 ≤ k
  · simp only [coldStart, if_pos hk]
    rfl
  · simp only [coldStart, if_neg hk]
    rfl

theorem rd_coldStart (k : Nat) (s : State) (off : Nat) (hc : off ≠ rSYS_RESET_CAUSE) (hf : off ≠ rTST_STATUS) :
    (coldStart k s).rd off = (coldBase s).rd off := by
  refine (State.rd_congr (coldStart_regs k s) off).trans ?_
  dsimp only
  split
  · rw [State.rd_setF_other _ _ _ _ hf, State.bumpF, State.rd_setF_other _ _ _ _ hc, State.rd_setF_other _ _ _ _ hc]
  · rw [State.bumpF, State.rd_setF_other _ _ _ _ hc, State.rd_setF_other _ _ _ _ hc]

theorem fld_coldStart_kind (k : Nat) (s : State) (hk : k < 16) : (coldStart k s).fld fSYS_RESET_CAUSE_KIND = k := by
  have hset (t : State) : ((t.setF fSYS_RESET_CAUSE_KIND k).bumpF fSYS_RESET_CAUSE_SINCE_POWER_ON).fld fSYS_RESET_CAUSE_KIND = k := by
    rw [State.bumpF, State.fld_setF_apart _ _ _ _ (by decide) (by decide), State.fld_setF_same _ _ _ (by decide)]
    exact Nat.mod_eq_of_lt hk
  refine (State.fld_congr (coldStart_regs k s) _).trans ?_
  dsimp only
  split
  · rw [State.fld_setF_reg _ _ _ _ (by decide), hset]
  · exact hset _

theorem coldStart_parts (k : Nat) (s : State) : (coldStart k s).clearedParts =
    ([], [], [], [], [], none, none, Two.all Mailbox.closed, Mailbox.closed, s.pending) := by
  unfold coldStart
  split <;> rfl

theorem cleared_coldStart (k : Nat) (s : State) (hk : k < 16) : Cleared k s (coldStart k s) := by
  have hp := coldStart_parts k s
  simp only [State.clearedParts, Prod.mk.injEq] at hp
  obtain ⟨h1, h2, h3, h4, h5, h6, h7, h8, h9, h10⟩ := hp
  refine ⟨h1, h2, h3, h4, h5, h6, h7, h8, h9, ?_, fun n => ?_, fld_coldStart_kind k s hk, h10⟩
  · rw [rd_coldStart k s _ (by decide) (by decide), rd_coldBase s _ (by decide) (by decide) (by decide), if_neg (by decide), resetWord_domainB]
  · rw [State.fld, rd_coldStart k s _ (fCH_reg_ne n (by decide)) (fCH_reg_ne n (by decide))]
    exact fld_chState_coldBase s n

theorem coldStart_stage (k : Nat) (s : State) : (coldStart k s).stage = 0 := by
  rw [State.stage, State.fld, rd_coldStart k s _ (by decide) (by decide)]
  exact (coldBase_spec s).1

theorem coldStart_life (k : Nat) (s : State) : (coldStart k s).life = s.life := by
  unfold coldStart
  split <;> rfl

/-- The shutdown cause is held in `PD00` (R62). -/
theorem fld_coldStart_cause (k : Nat) (s : State) :
    (coldStart k s).fld fPWR_SHUTDOWN_CAUSE_CAUSE = s.fld fPWR_SHUTDOWN_CAUSE_CAUSE := by
  rw [State.fld, rd_coldStart k s _ (by decide) (by decide), rd_coldBase s _ (by decide) (by decide) (by decide), if_pos (by decide), State.fld]

/-- A watchdog and a warm reset keep the PCIe link (R63). -/
theorem coldStart_linkUp (k : Nat) (s : State) (hk : 4 ≤ k) : (coldStart k s).boot.linkUp = s.boot.linkUp := by
  unfold coldStart
  rw [if_pos hk]
  rfl

/-! ### Power-on -/

theorem powerOn_regs (asel : Fin 4) (s : State) :
    (powerOn asel s).regs = (State.reset.setB fPWR_CH_STATE_RECEPTACLE (s.flag fPWR_CH_STATE_RECEPTACLE)).regs := rfl

theorem cleared_powerOn (asel : Fin 4) (s : State) : Cleared 1 s (powerOn asel s) := by
  refine ⟨rfl, rfl, rfl, rfl, rfl, rfl, rfl, rfl, rfl, ?_, fun n => ?_, ?_, rfl⟩
  · rw [State.rd_congr (powerOn_regs asel s), State.rd_setB_other _ _ _ _ (by decide)]
    decide +kernel
  · rw [State.fld_congr (powerOn_regs asel s), State.fld_setB_apart _ _ _ _ (by decide) (fCH_apart_receptacle n)]
    revert n
    decide +kernel
  · rw [State.fld_congr (powerOn_regs asel s), State.fld_setB_reg _ _ _ _ (by decide)]
    decide +kernel

theorem fld_powerOn_cause (asel : Fin 4) (s : State) : (powerOn asel s).fld fPWR_SHUTDOWN_CAUSE_CAUSE = 0 := by
  rw [State.fld_congr (powerOn_regs asel s), State.fld_setB_reg _ _ _ _ (by decide)]
  decide +kernel

/-! ### The image stage after a cold start (R73) -/

theorem nextSlot_stage (l : List Bool) (s : State) : (nextSlot l s).stage = if l.isEmpty then 8 else 3 := by
  rw [State.stage, nextSlot, State.fld_setF_same _ _ _ (by decide)]
  split <;> rfl

theorem imageStage_stage (s : State) : (imageStage s).stage = 3 ∨ (imageStage s).stage = 8 := by
  rw [imageStage, nextSlot_stage]
  exact (ite_eq_or_eq _ 8 3).symm

theorem Cleared.imageStage {k : Nat} {s t : State} (h : Cleared k s t) : Cleared k s (imageStage t) :=
  (h.setBoot _).setF _ _ (by decide)

/-! ### The commands -/

theorem exec_powerOnReset (asel : Fin 4) (s : State) : exec (.powerOnReset asel) s = .next (settle (powerOn asel s)) := rfl

theorem exec_resetNLow (s : State) (hr : s.boot.resetLow = false) (hp : s.boot.powerDown = false) : exec .resetNLow s =
    .next (settle ((coldStart 2 s).setBoot { (coldStart 2 s).boot with resetLow := true, thermtrip := false, gated := false })) := by
  change execResetNLow s = _
  rw [execResetNLow, if_neg (by rw [hr]; decide), hp]
  rfl

/-- A watchdog that expires notes a failed attempt of the slot before READY (R66), and then the part starts from cold. -/
theorem exec_watchdogExpiry (s : State) (h : s.boot.watchdog = true) : ∃ u : State, u.pending = s.pending ∧ u.boot.linkUp = s.boot.linkUp ∧
    exec .watchdogExpiry s = .next (settle (imageStage (coldStart 5 u))) := by
  have hexec (u : State) (hu : (if s.ready then s else
      let t := bootError 8 s
      if s.flag fSYS_BOOT_STATUS_SOURCE then t else failSlot (s.flag fSYS_BOOT_STATUS_SLOT) t) = u) :
      exec .watchdogExpiry s = .next (settle (imageStage (coldStart 5 u))) := by
    change execWatchdogExpiry s = _
    rw [execWatchdogExpiry, if_neg (by rw [h]; decide), ← hu]
    rfl
  refine ⟨_, ?_, ?_, hexec _ rfl⟩
  all_goals
    split
    · rfl
    · dsimp only
      split
      · rfl
      · unfold failSlot
        split <;> rfl

theorem exec_warmReset (k : Nat) (s : State) (h : s.boot.warm = some k) : exec .warmReset s = .next (settle (imageStage
    ((coldStart 4 s).setBoot { (coldStart 4 s).boot with named := if k = 0 then none else some (k == 2) }))) := by
  change execWarmReset s = _
  rw [execWarmReset, h]
  rfl

theorem exec_railBelowThreshold_core (r : Fin 12) (s : State) (hr : r.val < 2) (ha : s.pwr.asleep = false) :
    exec (.railBelowThreshold r) s = .next (settle (brownOut (railOut r s))) := by
  have h11 : ¬ r = 11 := by omega
  have h2 : r < 2 := hr
  change execRailBelowThreshold r s = _
  simp only [execRailBelowThreshold, ha, Bool.false_eq_true, if_false, h11, h2, if_true, ok]

/-- A brown-out of a part that runs is a cold start, with its cause in `PWR_SHUTDOWN_CAUSE` (R47). -/
theorem brownOut_running (s : State) (h : s.stage ≠ 0) : ∃ b : BootSt, b.brown = true ∧
    brownOut s = ((coldStart 3 s).setF fPWR_SHUTDOWN_CAUSE_CAUSE 3).setBoot b := by
  refine ⟨_, ?_, by rw [brownOut, if_neg h]⟩
  rfl

theorem brownOut_held (s : State) (h : s.stage = 0) :
    brownOut s = (s.setF fPWR_SHUTDOWN_CAUSE_CAUSE 3).setBoot { s.boot with brown := true } := by
  rw [brownOut, if_pos h]
  rfl

theorem railOut_regs (r : Nat) (s : State) : (railOut r s).regs = s.regs := by
  obtain ⟨l, hl, -⟩ := railOut_setBoot r s
  rw [hl]
  rfl

theorem railOut_pending (r : Nat) (s : State) : (railOut r s).pending = s.pending := by
  obtain ⟨l, hl, -⟩ := railOut_setBoot r s
  rw [hl]
  rfl

/-! ### The endpoint reset (R65) -/

/-- The state after an endpoint reset that follows READY. -/
theorem exec_perstNLow (s : State) (hr : s.ready = true) (hp : s.boot.perstLow = false) : ∃ (c : Counters) (b : BootSt) (e : Nat),
    b.linkUp = false ∧ b.perstLow = true ∧ exec .perstNLow s = .next (settle { dropRegs intReg s with
      msix := Two.all Msix.init, cnt := c, boot := b, epDiscards := e, mbx := Two.all Mailbox.closed
      later := s.later.filter fun l => !toPcie l.org
      arrived := s.arrived.map fun a => if a.who.master = 1 ∨ a.who.master = 2 then { a with size := 0 } else a }) := by
  have hr' : (s.setBoot { s.boot with linkUp := false }).ready = true := hr
  have hgo : ¬ (!(s.setBoot { s.boot with linkUp := false }).ready || (s.setBoot { s.boot with linkUp := false }).boot.perstLow) = true := by
    rw [hr', State.setBoot_boot, hp]
    decide
  refine ⟨_, _, _, ?_, ?_, if_neg hgo⟩ <;> rfl

/-- The mailboxes open, and each function is told that notices were lost. -/
theorem exec_linkUpAfterEndpointReset (s : State) (hr : s.ready = true) (hp : s.boot.perstLow = true) : ∃ t : State,
    exec .linkUpAfterEndpointReset s = .next (settle t) ∧ t.mbx = Two.all Mailbox.fresh ∧ t.boot.linkUp = true ∧ t.boot.perstLow = false ∧
      t.claims = s.claims ∧ t.epDiscards = 0 ∧
      ∃ u : State, OnlyRegs [] ((u.setB (fMBX_RSP_STATUS_NOTICE_LOST 0) true).setB (fMBX_RSP_STATUS_NOTICE_LOST 1) true) t := by
  have hgo : ¬ (!s.ready || !s.boot.perstLow) = true := by
    rw [hr, hp]
    decide
  refine ⟨_, if_neg hgo, ?_, ?_, ?_, ?_, rfl, _, (OnlyRegs.refl _ _).offer _ _ _ _⟩
  · exact (offer_mbx _ _ _ _ _).trans rfl
  · exact congrArg BootSt.linkUp (offer_boot _ _ _ _ _)
  · exact congrArg BootSt.perstLow (offer_boot _ _ _ _ _)
  · exact (offer_claims _ _ _ _ _).trans rfl

/-! ### The statement -/

/-- Settles O3: every cold start goes through `cleared_coldStart`; the endpoint reset by the state it leaves. -/
theorem coldStartsClear : Obligations.ColdStartsClear := by
  unfold Obligations.ColdStartsClear
  intro cleared
  refine ⟨?powerOn, ?pin, ?watchdog, ?warm, ?brownOut, ?held, ?endpoint, ?linkUp⟩
  case powerOn =>
    intro asel s
    refine ⟨_, exec_powerOnReset asel s, (cleared_powerOn asel s).settle, ?_⟩
    rw [settle_life, settle_cb, fld_settle, settle_boot]
    exact ⟨rfl, rfl, fld_powerOn_cause asel s, rfl, rfl⟩
  case pin =>
    intro s hr hp
    refine ⟨_, exec_resetNLow s hr hp, ((cleared_coldStart 2 s (by decide)).setBoot _).settle, ?_⟩
    rw [State.stage, settle_boot, fld_settle, fld_settle, settle_life]
    exact ⟨rfl, coldStart_stage 2 s, coldStart_life 2 s, fld_coldStart_cause 2 s⟩
  case watchdog =>
    intro s h
    obtain ⟨u, hpend, hlink, hnext⟩ := exec_watchdogExpiry s h
    refine ⟨_, hnext, ?_, ?_, ?_⟩
    · have hc := (cleared_coldStart 5 u (by decide)).imageStage.settle
      rw [Cleared, hpend] at hc
      exact hc
    · rw [settle_boot]
      exact (coldStart_linkUp 5 u (by decide)).trans hlink
    · rw [State.stage, fld_settle]
      exact imageStage_stage _
  case warm =>
    intro k s h
    refine ⟨_, exec_warmReset k s h, ((cleared_coldStart 4 s (by decide)).setBoot _).imageStage.settle, ?_, ?_⟩
    · rw [settle_boot]
      exact coldStart_linkUp 4 s (by decide)
    · rw [State.stage, fld_settle]
      exact imageStage_stage _
  case brownOut =>
    intro r s hr ha h0
    have hstage : (railOut r s).stage ≠ 0 := by rwa [State.stage, State.fld_congr (railOut_regs r s)]
    obtain ⟨b, hb, hout⟩ := brownOut_running (railOut r s) hstage
    refine ⟨_, exec_railBelowThreshold_core r s hr ha, ?_⟩
    rw [hout]
    refine ⟨?_, ?_, ?_, ?_⟩
    · have hc := (((cleared_coldStart 3 (railOut r s) (by decide)).setF fPWR_SHUTDOWN_CAUSE_CAUSE 3 (by decide)).setBoot b).settle
      rw [Cleared, railOut_pending] at hc
      exact hc
    · rw [fld_settle, fld_setBoot, State.fld_setF_same _ _ _ (by decide)]
      rfl
    · rw [settle_boot]
      exact hb
    · rw [State.stage, fld_settle, fld_setBoot, State.fld_setF_reg _ _ _ _ (by decide)]
      exact coldStart_stage 3 _
  case held =>
    intro r s hr ha h0
    have hstage : (railOut r s).stage = 0 := by rwa [State.stage, State.fld_congr (railOut_regs r s)]
    refine ⟨_, exec_railBelowThreshold_core r s hr ha, ?_⟩
    rw [brownOut_held _ hstage]
    refine ⟨?_, ?_, ?_⟩
    · rw [fld_settle, fld_setBoot, State.fld_setF_same _ _ _ (by decide)]
      rfl
    · rw [settle_boot]
      rfl
    · exact (((OnlyRegs.of_regs (railOut_regs r s)).setF 3 (by decide)).trans (.of_regs (State.setBoot_regs _ _))).settle
  case endpoint =>
    intro s hr hp
    obtain ⟨c, b, e, hlink, hperst, hnext⟩ := exec_perstNLow s hr hp
    refine ⟨_, hnext, ?_⟩
    simp only [settle_mbx, settle_boot, settle_claims, settle_rehearsals, settle_ops, settle_i2c, settle_arrived, settle_later, settle_fab, rd_settle]
    refine ⟨trivial, hlink, hperst, rfl, rfl, rfl, rfl, trivial, fun l hl => ?_, rfl, fun off hoff => ?_, fun off hoff => ?_⟩
    · have hno := (List.mem_filter.1 hl).2
      simpa [toPcie] using hno
    · exact (rd_dropRegs intReg s off).trans (if_neg (by rw [hoff]; decide))
    · exact (rd_dropRegs intReg s off).trans (if_pos hoff)
  case linkUp =>
    intro s hr hp
    obtain ⟨t, hnext, hmbx, hlink, hperst, hclaims, hdisc, u, hregs⟩ := exec_linkUpAfterEndpointReset s hr hp
    refine ⟨_, hnext, ?_⟩
    simp only [settle_mbx, settle_boot, settle_claims, settle_epDiscards, flag_settle]
    refine ⟨hmbx, hlink, hperst, hclaims, ?_, ?_, hdisc⟩
    · rw [State.flag, hregs.fld (by decide) (by decide), State.fld_setB_reg _ _ _ _ (by decide), ← State.flag]
      exact State.flag_setB_same _ _ _ (by decide) (by decide)
    · rw [State.flag, hregs.fld (by decide) (by decide), ← State.flag]
      exact State.flag_setB_same _ _ _ (by decide) (by decide)

end Sys2Proof.Machine
end

/-! # The boot stages (O4) -/
section
namespace Sys2Proof.Machine

open Sys2Proof

/-! ### Errors and the slots that are left (R70, R73) -/

theorem lastN_getLast? {α : Type} (n : Nat) (l : List α) (x : α) (hn : 0 < n) : (lastN n (l ++ [x])).getLast? = some x := by
  have hlen : (l ++ [x]).length - n ≤ l.length := by
    rw [List.length_append, List.length_singleton]
    omega
  rw [lastN, List.drop_append_of_le_length hlen, List.getLast?_append]
  rfl

/-- An error goes to the end of the boot log with its stage and time, and into the status (R70). -/
theorem bootError_spec (e : Nat) (s : State) : (bootError e s).boot.log.getLast? = some (e, s.stage, s.life) ∧
    (bootError e s).fld fSYS_BOOT_STATUS_ERR = e % 256 :=
  ⟨lastN_getLast? 16 _ _ (by decide), State.fld_setF_same _ _ _ (by decide)⟩

theorem setStage_stage (k : Nat) (s : State) (hk : k < 16) : (s.setStage k).stage = k := by
  rw [State.stage, State.setStage, State.fld_setF_same _ _ _ (by decide)]
  exact Nat.mod_eq_of_lt hk

theorem fld_setStage (k : Nat) (s : State) (f : Fld) (hf : fSYS_BOOT_STATUS_STAGE.apart f) : (s.setStage k).fld f = s.fld f :=
  State.fld_setF_apart _ _ _ _ (by decide) hf

theorem fld_nextSlot (l : List Bool) (s : State) (f : Fld) (hf : fSYS_BOOT_STATUS_STAGE.apart f) : (nextSlot l s).fld f = s.fld f :=
  State.fld_setF_apart _ _ _ _ (by decide) hf

theorem failSlot_spec (b : Bool) (s : State) : (failSlot b s).boot.log = s.boot.log ∧ (failSlot b s).regs = s.regs := by
  unfold failSlot
  split <;> exact ⟨rfl, rfl⟩

theorem imageStageOf_lt (e : Nat) : imageStageOf e < 16 := by
  unfold imageStageOf
  split <;> decide

/-! ### The checks of an image (R71, R72) -/

theorem imageError_lt (svn revoked e : Nat) (img : Image) (h : imageError svn revoked img = some e) : e < 256 := by
  simp only [imageError] at h
  split at h
  · cases h; decide
  · split at h
    · cases h; decide
    · split at h
      · cases h; decide
      · split at h
        · cases h; decide
        · split at h
          · cases h; decide
          · split at h
            · cases h; decide
            · cases h

/-- The checks as one chain: an image passes when none of their conditions holds. -/
theorem ite_some_eq_none {α : Type} (c : Prop) [Decidable c] (a : α) (x : Option α) : (if c then some a else x) = none ↔ ¬ c ∧ x = none := by
  by_cases h : c
  · simp [h]
  · simp [h]

theorem imageError_eq_none (svn revoked : Nat) (img : Image) : imageError svn revoked img = none ↔ img.responds = true ∧ img.header.length = 512 ∧
    img.header.take 4 = [0x57#8, 0x54#8, 0x41#8, 0x46#8] ∧ fld img.header 4 2 = 1 ∧ (∀ b ∈ slice img.header 161 7 ++ slice img.header 264 248, b = 0#8) ∧
    fld img.header 8 4 ≤ 2 ^ 24 - 512 ∧ fld img.header 7 1 ≤ 3 ∧ bit revoked (fld img.header 7 1) = false ∧ keyOk img.header = true ∧
    sigOk img.header = true ∧ bodyOk img.header img.body = true ∧ svn ≤ fld img.header 6 1 := by
  have hres (l : List Byte) : (l.any fun b => b != 0#8) = false ↔ ∀ b ∈ l, b = 0#8 := by simp
  simp only [imageError, ite_some_eq_none, Bool.or_eq_true, decide_eq_true_eq, bne_iff_ne, not_or, not_not, Bool.not_eq_true, Bool.not_eq_true',
    Bool.not_eq_false, Nat.not_lt, and_true, hres, and_assoc]

/-! ### Firmware starts (R68) -/

/-- What the registers show of an image whose firmware starts. -/
def firmwareShown (download slot : Bool) (header : List Byte) (s : State) : State :=
  let t := (s.setF fSYS_BOOT_STATUS_STAGE 5).setF fSYS_BOOT_STATUS_IMAGE_SVN (fld header 6 1)
  let t := (t.setB fSYS_BOOT_STATUS_SOURCE download).setF fSYS_ID_FW_FW_VERSION (fld header 12 4)
  if download then t else t.setB fSYS_BOOT_STATUS_SLOT slot

/-- An entry of the boot log goes to the recorder with its own time (R70). -/
def logEntry (e : Nat × Nat × BitVec 64) (s : State) : State := offer 0x0101 bSYS e.1 e.2.1 { s with life := e.2.2 }

/-- The watchdog is armed, and the boot log goes to the recorder. -/
def bootLogged (s : State) : State :=
  let t := each s.boot.log logEntry (s.setBoot { s.boot with watchdog := true, slots := [], log := [] })
  { t with life := s.life, cb := { t.cb with input := t.cb.input.map fun r => if r.code == 0x0101#16 then { r with todValid := false } else r } }

theorem startFirmware_eq (download slot : Bool) (header : List Byte) (s : State) : startFirmware download slot header s =
    (let t := bootLogged (firmwareShown download slot header s)
     if t.boot.waking then t else setPD 31 3 (setPD 30 3 t)) := by
  cases download <;> rfl

theorem each_logEntry (l : List (Nat × Nat × BitVec 64)) (s : State) :
    OnlyRegs [] s (each l logEntry s) ∧ (each l logEntry s).boot = s.boot := by
  refine each_inv (fun t => OnlyRegs [] s t ∧ t.boot = s.boot) _ (fun e t ht => ?_) l s ⟨OnlyRegs.refl _ _, rfl⟩
  obtain ⟨hregs, hboot⟩ := ht
  exact ⟨(hregs.trans (.of_regs rfl)).trans ((OnlyRegs.refl _ _).offer _ _ _ _), (offer_boot _ _ _ _ _).trans hboot⟩

theorem bootLogged_spec (s : State) : OnlyRegs [] s (bootLogged s) ∧ (bootLogged s).boot.watchdog = true := by
  obtain ⟨hregs, hboot⟩ := each_logEntry s.boot.log (s.setBoot { s.boot with watchdog := true, slots := [], log := [] })
  exact ⟨((OnlyRegs.of_regs (State.setBoot_regs _ _)).trans hregs).trans (.of_regs rfl), congrArg BootSt.watchdog hboot⟩

/-- After the status, the start of firmware changes no register but the states of the stacks. -/
theorem startFirmware_spec (download slot : Bool) (header : List Byte) (s : State) :
    OnlyRegs [rPWR_DOMAIN_B] (firmwareShown download slot header s) (startFirmware download slot header s) ∧
      (startFirmware download slot header s).boot.watchdog = true := by
  obtain ⟨hregs, hdog⟩ := bootLogged_spec (firmwareShown download slot header s)
  have hlog := hregs.mono (m := [rPWR_DOMAIN_B]) nofun
  rw [startFirmware_eq]
  dsimp only
  split
  · exact ⟨hlog, hdog⟩
  · exact ⟨(hlog.setF (f := fPD 30) 3 (by decide)).setF (f := fPD 31) 3 (by decide), hdog⟩

/-- A field of the status that the slot does not touch. -/
theorem fld_firmwareShown (download slot : Bool) (header : List Byte) (s : State) (f : Fld) (hf : fSYS_BOOT_STATUS_SLOT.apart f) :
    (firmwareShown download slot header s).fld f =
      ((((s.setF fSYS_BOOT_STATUS_STAGE 5).setF fSYS_BOOT_STATUS_IMAGE_SVN (fld header 6 1)).setB fSYS_BOOT_STATUS_SOURCE download).setF
        fSYS_ID_FW_FW_VERSION (fld header 12 4)).fld f := by
  cases download
  · exact State.fld_setB_apart _ _ _ _ (by decide) hf
  · rfl

/-- What the status shows of the image in force. -/
theorem startFirmware_status (download slot : Bool) (header : List Byte) (s : State) :
    let t := startFirmware download slot header s
    t.stage = 5 ∧ t.boot.watchdog = true ∧ (download = false → t.flag fSYS_BOOT_STATUS_SLOT = slot) ∧ t.flag fSYS_BOOT_STATUS_SOURCE = download ∧
      t.fld fSYS_BOOT_STATUS_IMAGE_SVN = fld header 6 1 % 256 := by
  obtain ⟨hregs, hdog⟩ := startFirmware_spec download slot header s
  have hfld (f : Fld) (hf : f.reg = rSYS_BOOT_STATUS) :
      (startFirmware download slot header s).fld f = (firmwareShown download slot header s).fld f :=
    hregs.fld (by rw [hf]; decide) (by rw [hf]; decide)
  refine ⟨?_, hdog, fun hd => ?_, ?_, ?_⟩
  · rw [State.stage, hfld _ rfl, fld_firmwareShown _ _ _ _ _ (by decide)]
    simp (disch := decide) only [State.fld_setF_reg, State.fld_setB_apart, State.fld_setF_apart, State.fld_setF_same, Nat.reducePow, Nat.reduceMod]
  · rw [State.flag, hfld _ rfl, ← State.flag, hd]
    exact State.flag_setB_same _ _ _ (by decide) (by decide)
  · rw [State.flag, hfld _ rfl, fld_firmwareShown _ _ _ _ _ (by decide), State.fld_setF_reg _ _ _ _ (by decide), ← State.flag]
    exact State.flag_setB_same _ _ _ (by decide) (by decide)
  · rw [hfld _ rfl, fld_firmwareShown _ _ _ _ _ (by decide), State.fld_setF_reg _ _ _ _ (by decide),
      State.fld_setB_apart _ _ _ _ (by decide) (by decide), State.fld_setF_same _ _ _ (by decide)]
    rfl

/-! ### The events, each in the state that awaits it -/

theorem exec_resetNRelease (x : Straps) (s : State) (hr : s.boot.resetLow = true) (hl : s.boot.railsLow = []) (hp : s.boot.powerDown = false)
    (hb : s.boot.brown = false) : exec (.resetNRelease x) s = .next (settle (clockStage (s.setBoot { s.boot with
      resetLow := false, oscSel := x.osc, bootSel := x.bootSel, asel := x.asel, testEn := x.testEn, powerDown := false }))) := by
  change execResetNRelease x s = _
  simp only [execResetNRelease, State.coreLow, State.setBoot_boot, hr, hl, hp, hb, List.contains_nil, Bool.not_true, Bool.or_self, Bool.false_eq_true,
    if_false, Bool.false_and, ok]

theorem exec_houseClockLocked (locked : Bool) (s : State) (h1 : s.stage = 1) (hc : s.boot.clock = false) : exec (.houseClockLocked locked) s =
    .next (settle (if locked then s.setBoot { s.boot with clock := true } else (bootError 1 s).setStage 15)) := by
  change execHouseClockLocked locked s = _
  rw [execHouseClockLocked, if_neg (by simp [h1, hc])]
  cases locked <;> rfl

theorem exec_fusesLoaded (good : Bool) (s : State) (h1 : s.stage = 1) (hc : s.boot.clock = true) : exec (.fusesLoaded good) s =
    .next (settle (if good then
        imageStage (((s.setStage 2).setF fSYS_BOOT_STATUS_FUSED_SVN s.boot.svn).setF fTST_STATUS_FUSES_LEFT (256 - s.store.cur.fuses))
      else (bootError 2 (s.setStage 2)).setStage 15)) := by
  change execFusesLoaded good s = _
  rw [execFusesLoaded, if_neg (by simp [h1, hc])]
  cases good <;> rfl

theorem exec_imageVerified_good (img : Image) (x : Bool) (r : List Bool) (s : State) (h3 : s.stage = 3) (hs : s.boot.slots = x :: r)
    (hi : imageError s.boot.svn s.boot.revoked img = none) : exec (.imageVerified img) s = .next (settle (startFirmware false x img.header s)) := by
  change execImageVerified img s = _
  simp only [execImageVerified, if_neg (not_not.2 h3), hs, hi, ok]

theorem exec_imageVerified_bad (img : Image) (x : Bool) (r : List Bool) (e : Nat) (s : State) (h3 : s.stage = 3) (hs : s.boot.slots = x :: r)
    (hi : imageError s.boot.svn s.boot.revoked img = some e) :
    exec (.imageVerified img) s = .next (settle (nextSlot r (failSlot x (bootError e (s.setStage (imageStageOf e)))))) := by
  change execImageVerified img s = _
  simp only [execImageVerified, if_neg (not_not.2 h3), hs, hi, ok]

theorem exec_downloadGo_good (s : State) (h8 : s.stage = 8) (hl : s.boot.linkUp = true)
    (hi : imageError s.boot.svn s.boot.revoked (downloaded s) = none) :
    exec .downloadGo s = .next (settle (startFirmware true false (downloaded s).header s)) := by
  change execDownloadGo s = _
  rw [execDownloadGo, if_neg (by simp [h8, hl]), hi]
  exact rfl

theorem exec_downloadGo_bad (e : Nat) (s : State) (h8 : s.stage = 8) (hl : s.boot.linkUp = true)
    (hi : imageError s.boot.svn s.boot.revoked (downloaded s) = some e) :
    exec .downloadGo s = .next (settle ((bootError e (s.setStage 4)).setStage 8)) := by
  change execDownloadGo s = _
  rw [execDownloadGo, if_neg (by simp [h8, hl]), hi]
  exact rfl

/-- The stacks have trained, or failed to, at a boot (R69). -/
theorem exec_hbmStartComplete (good : Bool) (s : State) (h5 : s.stage = 5) (hw : s.boot.waking = false) (h30 : s.fld (fPD 30) = 3)
    (hl : s.hbmLow = false) : exec (.hbmStartComplete good) s =
    .next (settle ((if good then hbmReady s else ((offer 0x0A21 (bHBM 0) 3 0 (setPD 31 0 (setPD 30 0 s))).setB fSYS_BOOT_STATUS_HBM_FAIL true |>.setB
      fMEM_STATUS_HBM_FAIL true).setF fSYS_BOOT_STATUS_ERR 9).setStage 6)) := by
  change execHbmStartComplete good s = _
  rw [execHbmStartComplete, if_pos (by simp [h5, hw])]
  cases good
  · simp only [Bool.false_and, Bool.false_eq_true, if_false, hbmBootFail, h30]
    rfl
  · simp only [Bool.true_and, hl, h30]
    rfl

/-- `READY` of a boot (R78): the stage, record 0x0102 and the credit of both functions come after the queues and the count of boots. -/
theorem exec_ready (s : State) (h6 : s.stage = 6) (hw : s.boot.waking = false) : ∃ (u : State) (p0 p1 : Nat), exec .ready s =
    .next (settle (((offer 0x0102 bSYS p0 p1 (u.setStage 7)).setB (fINT_STATUS_MBX_CREDIT 0) true).setB (fINT_STATUS_MBX_CREDIT 1) true)) ∧
      u.mbx = ⟨s.mbx.p0.opened, s.mbx.p1.opened⟩ ∧ u.i2c = s.i2c.opened ∧ u.store.cur.boots = s.store.cur.boots + 1 := by
  have hgo : ¬ s.stage ≠ 6 := not_not.2 h6
  have hboot : (!s.boot.waking) = true := by rw [hw]; rfl
  exact ⟨_, _, _, (if_neg hgo).trans (if_pos hboot), rfl, rfl, rfl⟩

theorem exec_pcieLinkUp (s : State) (h0 : s.stage ≠ 0) (hp : s.boot.perstLow = false) :
    exec .pcieLinkUp s = .next (settle (s.setBoot { s.boot with linkUp := true })) := if_neg (by simp [h0, hp])

/-! ### The statement -/

/-- Settles O4: each stage by the lemma of its event; an image by `imageError_eq_none`. -/
theorem bootStagesComplete : Obligations.BootStagesComplete := by
  unfold Obligations.BootStagesComplete
  refine ⟨?release, ?clock, ?fuses, ?image, ?download, imageError_eq_none, ?hbm, ?ready, ?link⟩
  case release =>
    intro x s hr hl hp hb
    obtain ⟨hstage, h1, h2, hboot⟩ := clockStage_spec (s.setBoot { s.boot with
      resetLow := false, oscSel := x.osc, bootSel := x.bootSel, asel := x.asel, testEn := x.testEn, powerDown := false })
    refine ⟨_, exec_resetNRelease x s hr hl hp hb, ?_⟩
    simp only [State.stage, fld_settle, settle_boot, hboot]
    exact ⟨hstage, h1, h2, rfl, rfl, rfl, rfl, rfl⟩
  case clock =>
    intro s h1 hc
    refine ⟨⟨_, exec_houseClockLocked true s h1 hc, ?_⟩, ⟨_, exec_houseClockLocked false s h1 hc, ?_⟩⟩
    · beta_reduce
      rw [settle_boot, settle_regs]
      exact ⟨rfl, rfl⟩
    · beta_reduce
      rw [State.stage, fld_settle, fld_settle]
      exact ⟨setStage_stage 15 _ (by decide), (fld_setStage 15 _ _ (by decide)).trans (bootError_spec 1 s).2⟩
  case fuses =>
    intro s h1 hc
    refine ⟨⟨_, exec_fusesLoaded true s h1 hc, ?_⟩, ⟨_, exec_fusesLoaded false s h1 hc, ?_⟩⟩
    · beta_reduce
      rw [State.stage, fld_settle, fld_settle]
      refine ⟨?_, imageStage_stage _⟩
      rw [if_pos rfl, imageStage, fld_nextSlot _ _ _ (by decide), State.fld_setF_reg _ _ _ _ (by decide), State.fld_setF_same _ _ _ (by decide)]
      rfl
    · beta_reduce
      rw [State.stage, fld_settle, fld_settle]
      exact ⟨setStage_stage 15 _ (by decide), (fld_setStage 15 _ _ (by decide)).trans (bootError_spec 2 _).2⟩
  case image =>
    intro img x r s h3 hs
    cases hi : imageError s.boot.svn s.boot.revoked img with
    | none =>
      obtain ⟨hstage, hdog, hslot, hsrc, hsvn⟩ := startFirmware_status false x img.header s
      refine ⟨_, exec_imageVerified_good img x r s h3 hs hi, fun _ => ?_, nofun⟩
      simp only [State.stage, fld_settle, flag_settle, settle_boot]
      exact ⟨hstage, hdog, hslot rfl, hsrc, hsvn⟩
    | some e =>
      obtain ⟨hlog, herr⟩ := bootError_spec e (s.setStage (imageStageOf e))
      obtain ⟨hslog, hsregs⟩ := failSlot_spec x (bootError e (s.setStage (imageStageOf e)))
      refine ⟨_, exec_imageVerified_bad img x r e s h3 hs hi, nofun, fun e' he => ?_⟩
      obtain rfl : e = e' := Option.some.inj he
      simp only [State.stage, fld_settle, settle_boot]
      refine ⟨rfl, nextSlot_stage r _, ?_, ?_⟩
      · rw [fld_nextSlot _ _ _ (by decide), State.fld_congr hsregs, herr]
        exact Nat.mod_eq_of_lt (imageError_lt _ _ _ _ hi)
      · refine (congrArg List.getLast? hslog).trans (hlog.trans ?_)
        rw [setStage_stage _ _ (imageStageOf_lt e)]
        rfl
  case download =>
    intro s h8 hl
    cases hi : imageError s.boot.svn s.boot.revoked (downloaded s) with
    | none =>
      obtain ⟨hstage, hdog, -, hsrc, -⟩ := startFirmware_status true false (downloaded s).header s
      refine ⟨_, exec_downloadGo_good s h8 hl hi, fun _ => ?_, nofun⟩
      simp only [State.stage, fld_settle, flag_settle, settle_boot]
      exact ⟨hstage, hdog, hsrc⟩
    | some e =>
      refine ⟨_, exec_downloadGo_bad e s h8 hl hi, nofun, fun e' he => ?_⟩
      obtain rfl : e = e' := Option.some.inj he
      simp only [State.stage, fld_settle, settle_boot]
      refine ⟨setStage_stage 8 _ (by decide), ?_, rfl⟩
      rw [fld_setStage _ _ _ (by decide), (bootError_spec e _).2]
      exact Nat.mod_eq_of_lt (imageError_lt _ _ _ _ hi)
  case hbm =>
    intro s h5 hw h30 hl
    refine ⟨⟨_, exec_hbmStartComplete true s h5 hw h30 hl, ?_⟩, ⟨_, exec_hbmStartComplete false s h5 hw h30 hl, ?_⟩⟩
    · beta_reduce
      rw [State.stage, fld_settle]
      exact setStage_stage 6 _ (by decide)
    · beta_reduce
      simp only [State.stage, State.flag, fld_settle, Bool.false_eq_true, if_false]
      refine ⟨setStage_stage 6 _ (by decide), ?_, ?_, ?_, ?_⟩
      · rw [fld_setStage _ _ _ (by decide), State.fld_setF_apart _ _ _ _ (by decide) (by decide), State.fld_setB_reg _ _ _ _ (by decide)]
        exact State.flag_setB_same _ _ _ (by decide) (by decide)
      · rw [fld_setStage _ _ _ (by decide), State.fld_setF_same _ _ _ (by decide)]
        rfl
      all_goals
        rw [fld_setStage _ _ _ (by decide), State.fld_setF_reg _ _ _ _ (by decide), State.fld_setB_reg _ _ _ _ (by decide),
          State.fld_setB_reg _ _ _ _ (by decide), fld_offer _ _ _ _ _ _ (by decide)]
        simp (disch := decide) only [setPD, State.fld_setF_apart, State.fld_setF_same]
        rfl
  case ready =>
    intro s h6 hw
    obtain ⟨u, p0, p1, hnext, hmbx, hi2c, hboots⟩ := exec_ready s h6 hw
    refine ⟨_, hnext, ?_⟩
    simp only [State.ready, State.stage, State.flag, fld_settle, settle_mbx, settle_i2c, settle_store, State.setB_mbx, State.setB_i2c, State.setB_store,
      offer_mbx, offer_i2c, offer_store]
    refine ⟨?_, hmbx, hi2c, hboots, ?_, ?_⟩
    · rw [State.fld_setB_reg _ _ _ _ (by decide), State.fld_setB_reg _ _ _ _ (by decide), fld_offer _ _ _ _ _ _ (by decide)]
      exact beq_iff_eq.2 (setStage_stage 7 u (by decide))
    · rw [State.fld_setB_reg _ _ _ _ (by decide)]
      exact State.flag_setB_same _ _ _ (by decide) (by decide)
    · exact State.flag_setB_same _ _ _ (by decide) (by decide)
  case link =>
    intro s h0 hp
    refine ⟨_, exec_pcieLinkUp s h0 hp, ?_⟩
    beta_reduce
    rw [settle_boot, settle_regs]
    exact ⟨rfl, rfl⟩

end Sys2Proof.Machine
end

/-! # Answers placed, packets taken: what they leave of a state (R95, R103, R105) -/
section
namespace Sys2Proof.Machine

open Sys2Proof

/-! ### What an answer changes -/

/-- The registers that placing an answer may write. -/
def answerRegs : List Nat := [rINT_STATUS 0, rINT_STATUS 1, rMBX_RSP_STATUS 0, rMBX_RSP_STATUS 1]

/-- Between two states only queues, the fabric, counters of notices and links, and the registers of answers have changed. -/
structure Answered (s t : State) : Prop where
  frame : t = { s with mbx := t.mbx, i2c := t.i2c, fab := t.fab, cnt := t.cnt, regs := t.regs, epDiscards := t.epDiscards, later := t.later }
  regs : OnlyRegs answerRegs s t
  counters : ∀ k, k < 64 → k ≠ cNOTICE_LOST → t.counter k = s.counter k

section
variable {s t u : State}

theorem Answered.refl (s : State) : Answered s s := ⟨rfl, .refl _ _, fun _ _ _ => rfl⟩

theorem Answered.trans (h : Answered s t) (h' : Answered t u) : Answered s u where
  frame := h'.frame.trans (by rw [h.frame])
  regs := h.regs.trans h'.regs
  counters k hk hn := (h'.counters k hk hn).trans (h.counters k hk hn)

theorem Answered.ite {c : Prop} {_ : Decidable c} (ht : Answered s t) (hu : Answered s u) : Answered s (if c then t else u) := by
  split
  · exact ht
  · exact hu

theorem Answered.setB (h : Answered s t) {f : Fld} (b : Bool) (hf : f.reg ∈ answerRegs) : Answered s (t.setB f b) :=
  h.trans ⟨rfl, (OnlyRegs.refl _ _).setB b hf, fun _ _ _ => rfl⟩

theorem Answered.count (h : Answered s t) (j : Nat) (hj : j = cNOTICE_LOST ∨ 64 ≤ j) : Answered s (count j t) :=
  h.trans ⟨rfl, .of_regs rfl, fun k hk hn => counter_countN_other j 1 k t (by omega)⟩

theorem Answered.withMbx (h : Answered s t) (x : Two Mailbox) : Answered s { t with mbx := x } :=
  h.trans ⟨rfl, .of_regs rfl, fun _ _ _ => rfl⟩

theorem Answered.withI2c (h : Answered s t) (x : Mailbox) : Answered s { t with i2c := x } :=
  h.trans ⟨rfl, .of_regs rfl, fun _ _ _ => rfl⟩

theorem Answered.withFab (h : Answered s t) (x : FabSt) : Answered s { t with fab := x } :=
  h.trans ⟨rfl, .of_regs rfl, fun _ _ _ => rfl⟩

theorem Answered.withEpDiscards (h : Answered s t) (n : Nat) : Answered s { t with epDiscards := n } :=
  h.trans ⟨rfl, .of_regs rfl, fun _ _ _ => rfl⟩

theorem Answered.withLater (h : Answered s t) (l : List Later) : Answered s { t with later := l } :=
  h.trans ⟨rfl, .of_regs rfl, fun _ _ _ => rfl⟩

theorem intStatus_mem_answerRegs (f : Pr) : rINT_STATUS f ∈ answerRegs := by
  revert f
  decide

theorem rspStatus_mem_answerRegs (f : Pr) : rMBX_RSP_STATUS f ∈ answerRegs := by
  revert f
  decide

theorem Answered.toMbx (h : Answered s t) (f : Pr) (notice : Bool) (pkt : List Byte) : Answered s (toMbx f.val notice pkt t) := by
  unfold Machine.toMbx
  dsimp only
  exact .ite ((h.withEpDiscards _).count _ (.inl rfl)) (.ite ((h.count _ (.inl rfl)).setB _ (rspStatus_mem_answerRegs f))
    (.ite ((h.withMbx _).setB _ (intStatus_mem_answerRegs f)) (h.withMbx _)))

theorem Answered.toI2c (h : Answered s t) (notice : Bool) (pkt : List Byte) : Answered s (toI2c notice pkt t) :=
  .ite h (.ite (h.count _ (.inl rfl)) (h.withI2c _))

theorem Answered.linkSend (h : Answered s t) (n : Nat) (pkt : List Byte) : Answered s (linkSend n pkt t) :=
  .ite (h.withFab _) (h.count _ (.inr (by unfold cCH; omega)))

theorem Answered.toFabric (h : Answered s t) (o : Origin) (mk : Nat → List Byte) : Answered s (toFabric o mk t) := by
  unfold Machine.toFabric
  refine .ite (h.linkSend _ _) ?_
  split
  · exact h.linkSend _ _
  · exact h.count _ (.inr (by unfold cCH; omega))

theorem Answered.answerPacket (h : Answered s t) (o : Origin) (kind code status : Nat) (ps : List Byte) :
    Answered s (answerPacket o kind code status ps t) := by
  unfold Machine.answerPacket
  dsimp only
  split
  · exact h.toMbx 0 _ _
  · exact h.toMbx 1 _ _
  · exact h.toI2c _ _
  · exact h.toFabric _ _
  · exact h

theorem Answered.answer (h : Answered s t) (o : Origin) (kind code status : Nat) (ps : List Byte) :
    Answered s (answer o kind code status ps t) :=
  .ite (h.answerPacket _ _ _ _ _) ((h.answerPacket _ _ _ _ _).withLater _)

/-! What an answer leaves. -/

theorem Answered.cb (h : Answered s t) : t.cb = s.cb := by rw [h.frame]
theorem Answered.ops (h : Answered s t) : t.ops = s.ops := by rw [h.frame]
theorem Answered.arrived (h : Answered s t) : t.arrived = s.arrived := by rw [h.frame]
theorem Answered.claims (h : Answered s t) : t.claims = s.claims := by rw [h.frame]
theorem Answered.pwr (h : Answered s t) : t.pwr = s.pwr := by rw [h.frame]
theorem Answered.cph (h : Answered s t) : t.cph = s.cph := by rw [h.frame]
theorem Answered.boot (h : Answered s t) : t.boot = s.boot := by rw [h.frame]
theorem Answered.rehearsals (h : Answered s t) : t.rehearsals = s.rehearsals := by rw [h.frame]

theorem Answered.fld (h : Answered s t) {f : Fld} (hc : f.reg ≠ rCB_STATUS) (hf : f.reg ∉ answerRegs) : t.fld f = s.fld f := h.regs.fld hc hf

end

theorem answered (o : Origin) (kind code status : Nat) (ps : List Byte) (s : State) : Answered s (answer o kind code status ps s) :=
  (Answered.refl s).answer o kind code status ps

@[simp] theorem answer_ops (o : Origin) (kind code status : Nat) (ps : List Byte) (s : State) : (answer o kind code status ps s).ops = s.ops :=
  (answered o kind code status ps s).ops

/-! ### Refusals (R88) -/

theorem refuseRecord_logged (o : Origin) (code : Nat) (r : Ref) (s : State) :
    Logged s (refuseRecord o code r s) [(0x0100 + r.status, 0, r.p0 o.who.master, code)] :=
  (logged_one _ _ _ _ s).congr rfl

theorem OnlyRegs.refuseRecord (o : Origin) (code : Nat) (r : Ref) (s : State) : OnlyRegs [] s (refuseRecord o code r s) :=
  ((OnlyRegs.refl [] s).offer _ _ _ _).trans (.of_regs rfl)

theorem counter_offer (code block p0 p1 k : Nat) (s : State) (h : k ≠ cCB_DROPPED) : (offer code block p0 p1 s).counter k = s.counter k := by
  rcases offer_cases code block p0 p1 s with ⟨-, r, -, -, -, -, -, -, hr⟩ | ⟨-, hr⟩
  · rw [hr]
    rfl
  · rw [hr]
    exact counter_countN_other cCB_DROPPED 1 k _ h

theorem counter_refuseRecord (o : Origin) (code : Nat) (r : Ref) (s : State) :
    (refuseRecord o code r s).counter cREFUSED = (s.counter cREFUSED + 1) % 2 ^ 48 := by
  rw [refuseRecord, count, counter_countN, counter_offer _ _ _ _ _ _ (by decide)]

/-- A refusal puts only its record and its count beside its answer. -/
theorem refuseRecord_other (o : Origin) (code : Nat) (r : Ref) (s : State) : refuseRecord o code r s =
    { s with cb := (refuseRecord o code r s).cb, cnt := (refuseRecord o code r s).cnt, regs := (refuseRecord o code r s).regs } := by
  rw [refuseRecord, offer_other]
  rfl

theorem refuse_answered (o : Origin) (code : Nat) (r : Ref) (s : State) : Answered (refuseRecord o code r s) (refuse o code r s) :=
  answered _ _ _ _ _ _

theorem refuse_logged (o : Origin) (code : Nat) (r : Ref) (s : State) :
    Logged s (refuse o code r s) [(0x0100 + r.status, 0, r.p0 o.who.master, code)] :=
  (refuseRecord_logged o code r s).congr (refuse_answered o code r s).cb

theorem counter_refuse (o : Origin) (code : Nat) (r : Ref) (s : State) :
    (refuse o code r s).counter cREFUSED = (s.counter cREFUSED + 1) % 2 ^ 48 :=
  ((refuse_answered o code r s).counters _ (by decide) (by decide)).trans (counter_refuseRecord o code r s)

theorem refuse_ops (o : Origin) (code : Nat) (r : Ref) (s : State) : (refuse o code r s).ops = s.ops := by
  rw [(refuse_answered o code r s).ops, refuseRecord_other]

/-! ### A packet in the mailbox of a PCIe function (R105) -/

theorem answerPacket_function (f : Pr) (o : Origin) (kind code status : Nat) (ps : List Byte) (s : State) (h : o.who.master = 1 + f.val) :
    answerPacket o kind code status ps s = toMbx f.val (kind == kUnsolicited) (packet kind 32 s.node s.node o.tag code status o.who.master ps) s := by
  unfold answerPacket
  fin_cases f
  all_goals
    simp only at h
    rw [h]
    rfl

/-- A packet that finds room, with no answer waiting before it, is placed, and `MBX_RSP` says so (R469). -/
theorem toMbx_placed (f : Pr) (pkt : List Byte) (s : State) (ho : (s.mbx.get f).isOpen = true) (hw : (s.mbx.get f).wait = [])
    (hr : (s.mbx.get f).rsp.length + (toWords pkt).length ≤ 8192) :
    toMbx f.val false pkt s =
      ({ s with mbx := s.mbx.set f ((s.mbx.get f).push 4096 (toWords pkt)) } : State).setB (fINT_STATUS_MBX_RSP f.val) true := by
  have hpush : ((s.mbx.get f).push 4096 (toWords pkt)).wait = [] := by
    rw [Mailbox.push, swapRsp_other]
    exact hw
  simp only [toMbx, pr2_val, ho, Mailbox.deliver, hw, hr, hpush, Bool.not_true, Bool.false_and, Bool.false_eq_true, if_false, if_true,
    List.isEmpty_nil, decide_true, Bool.and_self]

/-- A reply that finds none, or others before it, waits. -/
theorem toMbx_waits (f : Pr) (pkt : List Byte) (s : State) (ho : (s.mbx.get f).isOpen = true)
    (hr : (s.mbx.get f).wait ≠ [] ∨ 8192 < (s.mbx.get f).rsp.length + (toWords pkt).length) :
    toMbx f.val false pkt s = { s with mbx := s.mbx.set f { s.mbx.get f with wait := (s.mbx.get f).wait ++ [toWords pkt] } } := by
  have hno : ((s.mbx.get f).wait.isEmpty && decide ((s.mbx.get f).rsp.length + (toWords pkt).length ≤ 8192)) = false := by
    rcases hr with hr | hr
    · cases hw : (s.mbx.get f).wait with
      | nil => exact absurd hw hr
      | cons => rfl
    · rw [decide_eq_false (by omega), Bool.and_false]
  have hlen : ¬ (s.mbx.get f).wait.length + 1 = (s.mbx.get f).wait.length := by omega
  simp only [toMbx, pr2_val, ho, Mailbox.deliver, hno, Bool.not_true, Bool.false_and, Bool.false_eq_true, if_false, List.length_append,
    List.length_singleton, hlen]

/-- A notice that finds unreserved room is placed as a reply is. -/
theorem toMbx_notice (f : Pr) (pkt : List Byte) (s : State)
    (hr : (s.mbx.get f).rsp.length + (toWords pkt).length + s.reserved ⟨1 + f.val, 0, 0⟩ ≤ 8192) : toMbx f.val true pkt s = toMbx f.val false pkt s := by
  have hno : ¬ 8192 < (s.mbx.get f).rsp.length + (toWords pkt).length + s.reserved ⟨1 + f.val, 0, 0⟩ := by omega
  simp only [toMbx, pr2_val, hno, decide_false, Bool.and_false]

/-- A notice that finds none is lost. -/
theorem toMbx_lost (f : Pr) (pkt : List Byte) (s : State) (ho : (s.mbx.get f).isOpen = true)
    (hr : 8192 < (s.mbx.get f).rsp.length + (toWords pkt).length + s.reserved ⟨1 + f.val, 0, 0⟩) :
    toMbx f.val true pkt s = (count cNOTICE_LOST s).setB (fMBX_RSP_STATUS_NOTICE_LOST f.val) true := by
  simp only [toMbx, pr2_val, ho, hr, decide_true, Bool.and_self, Bool.not_true, Bool.false_eq_true, if_false, if_true]

theorem push_spec (bank : Nat) (ws : List Word) (m : Mailbox) : (m.push bank ws).rsp = m.rsp ++ marked ws ∧ (m.push bank ws).wait = m.wait := by
  rw [Mailbox.push, swapRsp_other]
  exact ⟨rfl, rfl⟩

/-! ### A packet taken out of the serial order (R95, R103) -/

/-- Between two states a packet has left the serial order, and its queue entries are released. -/
structure Dequeued (s t : State) : Prop where
  frame : t = { s with arrived := t.arrived, mbx := t.mbx, i2c := t.i2c, fab := t.fab, regs := t.regs }
  regs : OnlyRegs [rINT_STATUS 0, rINT_STATUS 1] s t
  order : ∀ a ∈ t.arrived, a ∈ s.arrived

theorem releaseArrival_other (a : Arrival) (s : State) : releaseArrival a s =
    { s with mbx := (releaseArrival a s).mbx, i2c := (releaseArrival a s).i2c, fab := (releaseArrival a s).fab, regs := (releaseArrival a s).regs } := by
  unfold releaseArrival
  split
  · rfl
  · split <;> rfl

theorem OnlyRegs.releaseArrival (a : Arrival) (s : State) : OnlyRegs [rINT_STATUS 0, rINT_STATUS 1] s (releaseArrival a s) := by
  unfold Machine.releaseArrival
  split
  · exact .refl _ _
  · split
    · exact (OnlyRegs.of_regs rfl).setB _ (by decide)
    · exact (OnlyRegs.of_regs rfl).setB _ (by decide)
    · exact .of_regs rfl
    · exact .of_regs rfl
    · exact .refl _ _

theorem dequeued_takeFirst (p : Arrival → Bool) (s : State) : Dequeued s (takeFirst p s).2 := by
  have hsame : Dequeued s s := ⟨rfl, .refl _ _, fun _ h => h⟩
  unfold takeFirst
  split
  · exact hsame
  next a r hs =>
    split
    · refine ⟨?_, (OnlyRegs.of_regs rfl).trans (.releaseArrival a _), fun b hb => ?_⟩
      · rw [releaseArrival_other]
      · rw [releaseArrival_other] at hb
        rw [hs]
        exact List.mem_cons_of_mem a hb
    · exact hsame

theorem dequeued_taken (q : Request) (code : Nat) (s : State) : Dequeued s (s.taken q code) := dequeued_takeFirst _ _

theorem dequeued_takeBytes (w : Who) (bs : List Byte) (s : State) : Dequeued s (takeBytes w bs s) := dequeued_takeFirst _ _

section
variable {s t : State}

theorem Dequeued.cb (h : Dequeued s t) : t.cb = s.cb := by rw [h.frame]
theorem Dequeued.cnt (h : Dequeued s t) : t.cnt = s.cnt := by rw [h.frame]
theorem Dequeued.ops (h : Dequeued s t) : t.ops = s.ops := by rw [h.frame]
theorem Dequeued.claims (h : Dequeued s t) : t.claims = s.claims := by rw [h.frame]
theorem Dequeued.stage (h : Dequeued s t) : t.stage = s.stage := h.regs.fld (by decide) (by decide)
theorem Dequeued.ready (h : Dequeued s t) : t.ready = s.ready := by rw [State.ready, State.ready, h.stage]

end

end Sys2Proof.Machine
end

/-! # The checks of a request, and its refusal (O6) -/
section
namespace Sys2Proof.Machine

open Sys2Proof

/-! ### Each check of R86, with those before it passed -/

section
variable {c : Cmd} {excess : Bool} {q : Request} {t : State}

theorem checks_notPermitted (h : (t.permits q.org.who c.code c.access && c.permit q t) = false) :
    checks c excess q t = .error { status := stNOT_PERMITTED } := by
  simp [checks, h]

theorem checks_reserved (h : (t.permits q.org.who c.code c.access && c.permit q t) = true) (hr : q.rsvd ≠ 0) :
    checks c excess q t = .error { status := stBAD_PARAM, off := 0xFFFF } := by
  simp [checks, h, hr]

theorem checks_params (h : (t.permits q.org.who c.code c.access && c.permit q t) = true) (hr : q.rsvd = 0) {off : Nat}
    (hp : c.params q.params t = some off) : checks c excess q t = .error { status := stBAD_PARAM, off := off } := by
  simp [checks, h, hr, hp]

theorem checks_ownBusy (h : (t.permits q.org.who c.code c.access && c.permit q t) = true) (hr : q.rsvd = 0)
    (hp : c.params q.params t = none) (hb : ownBusy c excess q t = true) :
    checks c excess q t = .error { status := stBUSY, b0 := q.org.who.master } := by
  simp [checks, h, hr, hp, hb]

theorem checks_blocked (h : (t.permits q.org.who c.code c.access && c.permit q t) = true) (hr : q.rsvd = 0)
    (hp : c.params q.params t = none) (hb : ownBusy c excess q t = false) {m : Nat} (hm : t.blocked q.org.who (c.touches q t) = some m) :
    checks c excess q t = .error { status := stBUSY, b0 := m } := by
  simp [checks, h, hr, hp, hb, hm]

theorem checks_darkening (h : (t.permits q.org.who c.code c.access && c.permit q t) = true) (hr : q.rsvd = 0)
    (hp : c.params q.params t = none) (hb : ownBusy c excess q t = false) (hm : t.blocked q.org.who (c.touches q t) = none)
    (he : t.pwr.entry.isSome = true) : checks c excess q t = .error { status := stWRONG_STATE } := by
  simp [checks, h, hr, hp, hb, hm, he]

end

/-- A packet that is not at the head of the serial order waits (R95). -/
theorem serve_outOfTurn (c : Cmd) (q : Request) (s : State) (hl : q.params.length ≤ 4076) (ht : s.inTurn (arrivalIs q c.code) = false) :
    serve c q s = .next (settle s) := by
  simp only [serve, if_neg (Nat.not_lt.mpr hl), serveState_eq, ht, Bool.not_false, if_true, ok]

/-- A request that fails a check is refused. -/
theorem serve_refused (c : Cmd) (q : Request) (s : State) (r : Ref) (hl : q.params.length ≤ 4076) (ht : s.inTurn (arrivalIs q c.code) = true)
    (hr : (s.taken q c.code).ready = true)
    (hc : checks c (overLimit (takeArrival q c.code s).1 q (s.taken q c.code)) q (s.taken q c.code) = .error r) :
    serve c q s = .next (settle (refuse q.org c.code r (s.taken q c.code))) := by
  simp only [serve, if_neg (Nat.not_lt.mpr hl), serveState_eq, ht, hr, hc, Bool.not_true, Bool.false_eq_true, if_false, ok]

/-! ### The record of a refusal (R88) -/

/-- The fields of parameter 0, in the order of their weights. -/
theorem Ref.p0_fields (r : Ref) (m : Nat) : bits (r.p0 m) 2 0 = m % 8 ∧ bits (r.p0 m) 3 3 = 0 ∧ bits (r.p0 m) 11 4 = r.b0 % 256 ∧
    bits (r.p0 m) 19 12 = r.b1 % 256 ∧ bits (r.p0 m) 31 20 = (if r.off = 0xFFFF then 0xFFF else r.off % 4096) := by
  have ho : (if r.off = 0xFFFF then 0xFFF else r.off % 4096) < 4096 := by
    split <;> omega
  simp only [bits, Ref.p0]
  omega

/-! ### The reply that carries a refusal (R105) -/

theorem refuse_function (f : Pr) (o : Origin) (code : Nat) (r : Ref) (s : State) (h : o.who.master = 1 + f.val) :
    refuse o code r s =
      toMbx f.val false (packet kReply 32 s.node s.node o.tag code r.status o.who.master r.bytes) (refuseRecord o code r s) := by
  have hn : (refuseRecord o code r s).node = s.node := (OnlyRegs.refuseRecord o code r s).fld (by decide) (by simp)
  have hlen : r.bytes.length ≤ 4076 := by simp [Ref.bytes]
  rw [refuse, answer, if_pos hlen, answerPacket_function f o _ _ _ _ _ h, hn]
  rfl

theorem mbxRsp_ok (f : Pr) : (fINT_STATUS_MBX_RSP f).ok ∧ 0 < (fINT_STATUS_MBX_RSP f).w := by
  revert f
  decide

theorem refuseRecord_mbx (o : Origin) (code : Nat) (r : Ref) (s : State) : (refuseRecord o code r s).mbx = s.mbx := by
  rw [refuseRecord_other]

/-- Settles O6: each check by its own lemma, the record by its fields' weights, the reply by what the mailbox has room for. -/
theorem requestsFollowTheChecks : Obligations.RequestsFollowTheChecks := by
  unfold Obligations.RequestsFollowTheChecks
  refine ⟨?_, ?_, ?_, ?_, ?_, ?_⟩
  · exact fun c q s => serve_outOfTurn c q s
  · intro c q s hl ht t out may free
    have refused := fun r => serve_refused c q s r hl ht
    refine ⟨serve_early c q s hl ht, ?_, ?_, ?_, ?_, ?_, ?_, ?_, ?_⟩
    · exact fun hr hm => refused _ hr (checks_notPermitted hm)
    · exact fun hr hm hv => refused _ hr (checks_reserved hm hv)
    · exact fun hr hm hv off hp => refused _ hr (checks_params hm hv hp)
    · exact fun hr hm hv hp hf => refused _ hr (checks_ownBusy hm hv hp (by simpa [free] using hf))
    · exact fun hr hm hv hp hf m hb => refused _ hr (checks_blocked hm hv hp (by simpa [free] using hf) hb)
    · exact fun hr hm hv hp hf hb he => refused _ hr (checks_darkening hm hv hp (by simpa [free] using hf) hb he)
    · exact fun hp r hb => serve_error c q s r hp hb
    · exact fun hp u ans hb => serve_ok c q s u ans hp hb
  · intro o code r s
    exact ⟨refuse_logged o code r s, counter_refuse o code r s, r.p0_fields o.who.master⟩
  · intro f o code r s hm ho ws m u
    have hu : u = toMbx f.val false (packet kReply 32 s.node s.node o.tag code r.status o.who.master r.bytes) (refuseRecord o code r s) :=
      refuse_function f o code r s hm
    have hbox := refuseRecord_mbx o code r s
    rw [hu]
    constructor
    · intro hw hr
      rw [toMbx_placed f _ _ (by rw [hbox]; exact ho) (by rw [hbox]; exact hw) (by rw [hbox]; exact hr), hbox]
      refine ⟨?_, ?_, State.flag_setB_same _ _ _ (mbxRsp_ok f).1 (mbxRsp_ok f).2⟩
      · rw [State.setB_mbx, Two.get_set_same, (push_spec _ _ _).1]
        rfl
      · rw [State.setB_mbx, Two.get_set_same, (push_spec _ _ _).2]
        exact hw
    · intro hr
      rw [toMbx_waits f _ _ (by rw [hbox]; exact ho) (by rw [hbox]; exact hr), hbox]
      exact ⟨by rw [Two.get_set_same], by rw [Two.get_set_same]; rfl, rfl⟩
  · intro q code s hd ht hr
    have hr' : (takeArrival q code s).2.ready = true := hr
    simp only [exec, execUndefinedOpcode, hd, ht, Bool.not_true, Bool.or_self, Bool.false_eq_true, if_false, hr', if_true, ok]
    rfl
  · intro q code s hd ht hr
    have hr' : (takeArrival q code s).2.ready = false := hr
    refine ⟨_, by simp only [exec, execUndefinedOpcode, hd, ht, Bool.not_true, Bool.or_self, Bool.false_eq_true, if_false, hr', ok]; rfl, ?_⟩
    have hdq := dequeued_taken q code s
    refine ⟨?_, ?_⟩
    · rw [counter_congr (settle_cnt _), count, counter_countN]
      exact congrArg (fun n => (n + 1) % 2 ^ 48) (counter_congr hdq.cnt _)
    · rw [settle_cb]
      exact hdq.cb

end Sys2Proof.Machine
end

/-! # Words written to and read from a mailbox (O9) -/
section
namespace Sys2Proof.Machine

open Sys2Proof

/-! ### The mailbox of one function -/

theorem Two.get_set_apart {α : Type} (v : Two α) (p : Pr) (x : α) : (v.set p x).get (1 - p) = v.get (1 - p) := by
  match p with
  | 0 => rfl
  | 1 => rfl

theorem Four.set_set {α : Type} (v : Four α) (n : Ch) (x y : α) : (v.set n x).set n y = v.set n y := by
  match n with
  | 0 | 1 | 2 | 3 => rfl

/-- Replace the mailbox of function f. -/
def State.setMbx (s : State) (f : Pr) (m : Mailbox) : State := { s with mbx := s.mbx.set f m }

theorem State.setMbx_mbx (s : State) (f : Pr) (m : Mailbox) : (s.setMbx f m).mbx = s.mbx.set f m := rfl

theorem State.setMbx_regs (s : State) (f : Pr) (m : Mailbox) : (s.setMbx f m).regs = s.regs := rfl

theorem State.setMbx_arrived (s : State) (f : Pr) (m : Mailbox) : (s.setMbx f m).arrived = s.arrived := rfl

theorem overrun_ok (f : Pr) : (fMBX_REQ_STATUS_OVERRUN f).ok ∧ 0 < (fMBX_REQ_STATUS_OVERRUN f).w := by
  revert f
  decide

/-- An overrun is told in the status of its own queue. -/
theorem onlyRegs_overrun (f : Pr) (m : Mailbox) (s : State) :
    OnlyRegs [rMBX_REQ_STATUS f] s ((s.setMbx f m).setB (fMBX_REQ_STATUS_OVERRUN f) true) :=
  .setB (.of_regs (State.setMbx_regs s f m)) true (List.mem_singleton.mpr rfl)

theorem flag_overrun (f : Pr) (s : State) : (s.setB (fMBX_REQ_STATUS_OVERRUN f) true).flag (fMBX_REQ_STATUS_OVERRUN f) = true :=
  State.flag_setB_same _ _ _ (overrun_ok f).1 (overrun_ok f).2

/-! ### What one entry does (R103) -/

section
variable (cap : Nat) (opened last : Bool) (w : Word) (m : Mailbox)

/-- While a packet is being dropped its words go, up to its end mark. -/
theorem writeEntry_dropping (hd : m.dropping = true) : writeEntry cap opened w last m = ({ m with dropping := !last }, false, none) := by
  simp [writeEntry, hd]

/-- A word without credit is an overrun, and begins the dropping. -/
theorem writeEntry_noCredit (hd : m.dropping = false) (hc : opened = false ∨ cap ≤ m.part.length + m.held) :
    writeEntry cap opened w last m = ({ m with dropping := !last }, true, none) := by
  have hno : (!opened || decide (cap ≤ m.part.length + m.held)) = true := by simpa using hc
  simp only [writeEntry, hd, Bool.false_eq_true, if_false, hno, if_true]

/-- A queue counts as open from its own state, or from outside. -/
theorem writeEntry_credit (ho : opened = true) (hd : m.dropping = false) (hc : m.part.length + m.held < cap) :
    writeEntry cap opened w last m =
      if last then ({ m with part := [], held := m.held + m.part.length + 1 }, false, some (m.part ++ [w]))
      else ({ m with part := m.part ++ [w] }, false, none) := by
  cases last <;> simp [writeEntry, ho, hd, hc]

end

section
variable (f : Pr) (w : Word) (last : Bool) (s : State)

theorem mbxWrite_dropping (hd : (s.mbx.get f).dropping = true) :
    mbxWrite f w last s = s.setMbx f (({ s.mbx.get f with dropping := !last } : Mailbox).swapReq 4096) := by
  simp only [mbxWrite, writeEntry_dropping _ _ _ _ _ hd, Bool.false_eq_true, if_false]
  rfl

theorem mbxWrite_noCredit (hd : (s.mbx.get f).dropping = false)
    (hc : (s.mbx.get f).isOpen = false ∨ 8192 ≤ (s.mbx.get f).part.length + (s.mbx.get f).held) :
    mbxWrite f w last s =
      (s.setMbx f (({ s.mbx.get f with dropping := !last } : Mailbox).swapReq 4096)).setB (fMBX_REQ_STATUS_OVERRUN f) true := by
  simp only [mbxWrite, writeEntry_noCredit _ _ _ _ _ hd hc, if_true]
  rfl

section
variable (hd : (s.mbx.get f).dropping = false) (ho : (s.mbx.get f).isOpen = true)
  (hc : (s.mbx.get f).part.length + (s.mbx.get f).held < 8192)
include hd ho hc

theorem mbxWrite_more : mbxWrite f w false s = s.setMbx f (({ s.mbx.get f with part := (s.mbx.get f).part ++ [w] } : Mailbox).swapReq 4096) := by
  simp only [mbxWrite, writeEntry_credit _ _ _ _ _ ho hd hc, Bool.false_eq_true, if_false]
  rfl

theorem mbxWrite_whole : mbxWrite f w true s = localPacket (1 + f) (ofWords ((s.mbx.get f).part ++ [w])) ((s.mbx.get f).part ++ [w]).length
    (s.setMbx f (({ s.mbx.get f with part := [], held := (s.mbx.get f).held + (s.mbx.get f).part.length + 1 } : Mailbox).swapReq 4096)) := by
  simp only [mbxWrite, writeEntry_credit _ _ _ _ _ ho hd hc, Bool.false_eq_true, if_false, if_true]
  rfl

/-- A good request for this part takes its place in the serial order. -/
theorem mbxWrite_request (hg : goodPacket (ofWords ((s.mbx.get f).part ++ [w])) = true)
    (hh : s.forHere (pktDest (ofWords ((s.mbx.get f).part ++ [w]))) = true) :
    mbxWrite f w true s = arrive ⟨1 + f, 0, 0⟩ 0
      ((ofWords ((s.mbx.get f).part ++ [w])).take (pktLen (ofWords ((s.mbx.get f).part ++ [w])))) ((s.mbx.get f).part ++ [w]).length
      (s.setMbx f (({ s.mbx.get f with part := [], held := (s.mbx.get f).held + (s.mbx.get f).part.length + 1 } : Mailbox).swapReq 4096)) :=
  (mbxWrite_whole f w s hd ho hc).trans (localPacket_here _ _ _ _ hg hh)

end

/-- A word of either kind, data or end, written to a function's mailbox. -/
theorem exec_word : exec (if last then .mbxReqEndWrite f none w else .mbxReqDataWrite f none w) s = .next (settle (queueWrite f none w last s)) := by
  cases last <;> rfl

theorem queueWrite_ready (hr : s.ready = true) : queueWrite f none w last s = mbxWrite f w last s := by
  simp [queueWrite, hr]

theorem queueWrite_early (hr : s.ready = false) (hl : s.boot.linkUp = true) (hs : 3 ≤ s.stage) : queueWrite f none w last s =
    if (s.mbx.get f).dropping then s.setMbx f { s.mbx.get f with dropping := !last }
    else (s.setMbx f { s.mbx.get f with dropping := !last }).setB (fMBX_REQ_STATUS_OVERRUN f) true := by
  have hno : ¬ (!s.boot.linkUp || decide (s.stage < 3)) = true := by simp [hl, hs]
  simp only [queueWrite, hr, Bool.not_false, if_true, earlyWord, if_neg hno]
  rfl

end

/-! ### The serial order (R95) -/

/-- A packet goes behind those of other cycles, and in its own cycle behind those of no higher place. -/
theorem insertArrival_split (a : Arrival) (l : List Arrival) : ∃ l1 l2, l = l1 ++ l2 ∧ insertArrival a l = l1 ++ a :: l2 ∧
    (∀ b ∈ l1, b.time = a.time → b.rank ≤ a.rank) ∧ (∀ b, l2.head? = some b → b.time = a.time ∧ a.rank < b.rank) := by
  induction l with
  | nil => exact ⟨[], [], rfl, rfl, nofun, nofun⟩
  | cons b r ih =>
    rw [insertArrival]
    split
    next hgo =>
      obtain ⟨l1, l2, hr, hins, hbefore, hafter⟩ := ih
      refine ⟨b :: l1, l2, by rw [hr]; rfl, by rw [hins]; rfl, fun x hx ht => ?_, hafter⟩
      rcases List.mem_cons.mp hx with rfl | hx
      · simpa [ht] using hgo
      · exact hbefore x hx ht
    next hstop =>
      refine ⟨[], b :: r, rfl, rfl, nofun, fun x hx => ?_⟩
      cases hx
      simpa using hstop

/-! ### HGC queues (R338) -/

section
variable (n : Ch) (w : Word) (s : State) (ho : s.hgcOpen n = true) (hd : (s.hgc.get n).mbx.dropping = false)
  (hc : (s.hgc.get n).mbx.part.length + (s.hgc.get n).mbx.held < 8192)
include ho hd hc

theorem hgcWrite_more : hgcWrite n w false s = s.setHgc n { s.hgc.get n with
    mbx := ({ (s.hgc.get n).mbx with part := (s.hgc.get n).mbx.part ++ [w] } : Mailbox).swapReq 4096 } := by
  simp only [hgcWrite, writeEntry_credit _ _ _ _ _ ho hd hc, Bool.false_eq_true, if_false]

/-- A whole packet of at most 511 words can be sent. -/
theorem hgcWrite_whole (hl : (s.hgc.get n).mbx.part.length < 511) : ∃ m : Mailbox, m.part = [] ∧
    hgcWrite n w true s = s.setHgc n { s.hgc.get n with
      mbx := m, tx := (s.hgc.get n).tx ++ [(ofWords ((s.hgc.get n).mbx.part ++ [w]), (s.hgc.get n).mbx.part.length + 1)] } := by
  have hfits : ¬ 2044 < 4 * ((s.hgc.get n).mbx.part.length + 1) := by omega
  refine ⟨({ (s.hgc.get n).mbx with part := [], held := (s.hgc.get n).mbx.held + (s.hgc.get n).mbx.part.length + 1 } : Mailbox).swapReq 4096,
    by rw [swapReq_other], ?_⟩
  simp only [hgcWrite, writeEntry_credit _ _ _ _ _ ho hd hc, Bool.false_eq_true, if_false, if_true, hfits, State.setHgc, Four.get_set_same,
    Four.set_set, List.length_append, List.length_singleton]

omit hd hc in
theorem queueWrite_hgc (last : Bool) : queueWrite 0 (some n) w last s = hgcWrite n w last s := by
  have hr : s.ready = true := by
    simp only [State.hgcOpen, Bool.and_eq_true] at ho
    exact ho.1.1.1
  simp [queueWrite, hr]

end

/-! ### Reads (R106) -/

theorem readWord_some {m : Mailbox} {x : QWord} (h : m.rsp[m.rd]? = some x) : readWord m = (x.word, { m with rd := m.rd + 1, lastEnd := x.last }) := by
  simp only [readWord, h]

theorem readWord_none {m : Mailbox} (h : m.rsp[m.rd]? = none) : readWord m = (0#32, { m with lastEnd := false }) := by
  simp only [readWord, h]

theorem exec_read (f : Pr) (s : State) (hr : s.ready = true) : exec (.mbxRspDataRead f none) s =
    .next (settle (put (readWord (s.mbx.get f)).1 (s.setMbx f (readWord (s.mbx.get f)).2))) := by
  change execMbxRspDataRead f none s = _
  simp only [execMbxRspDataRead, hr, Bool.not_true, Bool.false_eq_true, if_false]
  rfl

theorem exec_hgcRead (f : Pr) (n : Ch) (s : State) (hr : s.ready = true) : exec (.mbxRspDataRead f (some n)) s = .next (settle (hgcRead f.val n s)) := by
  change execMbxRspDataRead f (some n) s = _
  simp only [execMbxRspDataRead, hr, Bool.not_true, Bool.false_eq_true, if_false]
  rfl

theorem exec_cancel (f : Pr) (s : State) (hr : s.ready = true) :
    exec (.mbxReqCancel f none) s = .next (settle (s.setMbx f (cancelReq (s.mbx.get f)))) := by
  change execMbxReqCancel f none s = _
  simp only [execMbxReqCancel, hr, if_true]
  rfl

/-- The companion latched for one function leaves that of the other. -/
theorem rlOf_setRl_apart (f : Pr) (off : Nat) (v : Word) (s : State) : (setRl f.val off v s).rlOf (1 - f).val off = s.rlOf (1 - f).val off := by
  have hkey : (1 - f).val * 2 ^ 24 + off ≠ f.val * 2 ^ 24 + off := by
    match f with
    | 0 | 1 => simp
  exact smGet_smSet_other _ _ _ _ _ hkey

/-- Settles O9: what each word does by `mbxWrite` and `hgcWrite`, with and without credit; a read by `readWord`. -/
theorem mailboxWords : Obligations.MailboxWords := by
  unfold Obligations.MailboxWords
  refine ⟨?early, insertArrival_split, ?more, ?noCredit, ?dropping, ?whole, ?hgcWrite, ?cancel, ?read, ?readEmpty, ?hgcRead⟩
  case early =>
    intro f w last s hr hl hs
    refine ⟨_, exec_word f w last s, ?_⟩
    rw [queueWrite_early f w last s hr hl hs]
    cases hd : (s.mbx.get f).dropping
    · simp only [Bool.false_eq_true, if_false, settle_mbx, State.setB_mbx, State.setMbx_mbx, Two.get_set_same, settle_arrived,
        State.setB_arrived, State.setMbx_arrived, flag_settle, flag_overrun, implies_true, true_and, and_true]
      exact (onlyRegs_overrun f _ s).settle
    · simp only [if_true, settle_mbx, State.setMbx_mbx, Two.get_set_same, settle_arrived, State.setMbx_arrived, true_and]
      exact ⟨.of_regs (settle_regs _), nofun⟩
  case more =>
    intro f w s hr hd ho hc
    refine ⟨_, exec_word f w false s, ?_⟩
    rw [queueWrite_ready f w false s hr, mbxWrite_more f w s hd ho hc, swapReq_other]
    simp only [settle_mbx, State.setMbx_mbx, Two.get_set_same, Two.get_set_apart, settle_regs, State.setMbx_regs, settle_arrived,
      State.setMbx_arrived, and_self]
  case noCredit =>
    intro f w last s hr hd hc
    refine ⟨_, exec_word f w last s, ?_⟩
    rw [queueWrite_ready f w last s hr, mbxWrite_noCredit f w last s hd hc, swapReq_other]
    simp only [settle_mbx, State.setB_mbx, State.setMbx_mbx, Two.get_set_same, flag_settle, flag_overrun, settle_arrived, State.setB_arrived,
      State.setMbx_arrived, true_and, and_true]
    exact (onlyRegs_overrun f _ s).settle
  case dropping =>
    intro f w last s hr hd
    refine ⟨_, exec_word f w last s, ?_⟩
    rw [queueWrite_ready f w last s hr, mbxWrite_dropping f w last s hd, swapReq_other]
    simp only [settle_mbx, State.setMbx_mbx, Two.get_set_same, settle_regs, State.setMbx_regs, settle_arrived, State.setMbx_arrived, and_self]
  case whole =>
    intro f w s hr hd ho hc bs hg hk hh
    refine ⟨_, exec_word f w true s, ?_⟩
    rw [queueWrite_ready f w true s hr, mbxWrite_request f w s hd ho hc hg hh, swapReq_other]
    simp only [settle_mbx, settle_regs, settle_arrived]
    refine ⟨?_, ?_, rfl, _, rfl, rfl, rfl, rfl, ?_⟩
    · exact congrArg Mailbox.part (Two.get_set_same _ _ _)
    · exact congrArg Mailbox.held (Two.get_set_same _ _ _)
    · match f with
      | 0 | 1 => rfl
  case hgcWrite =>
    intro n w s ho hd hc
    refine ⟨⟨_, rfl, ?_⟩, fun hl => ⟨_, rfl, ?_⟩⟩
    · rw [queueWrite_hgc n w s ho, hgcWrite_more n w s ho hd hc, swapReq_other]
      simp only [settle_hgc, settle_regs, settle_mbx, State.setHgc, Four.get_set_same]
      exact ⟨trivial, trivial, trivial⟩
    · obtain ⟨m, hm, hnext⟩ := hgcWrite_whole n w s ho hd hc hl
      rw [queueWrite_hgc n w s ho, hnext]
      simp only [settle_hgc, settle_regs, State.setHgc, Four.get_set_same]
      exact ⟨hm, trivial, trivial⟩
  case cancel =>
    intro f s hr
    refine ⟨_, exec_cancel f s hr, ?_⟩
    simp only [settle_mbx, settle_regs, State.setMbx_mbx, Two.get_set_same, Two.get_set_apart]
    exact ⟨rfl, rfl, rfl, rfl, trivial⟩
  case read =>
    intro f x s hr hx
    refine ⟨_, exec_read f s hr, ?_⟩
    rw [readWord_some hx]
    simp only [settle_mbx, settle_regs, settle_data]
    refine ⟨rfl, ?_⟩
    simp only [put, State.setMbx_mbx, Two.get_set_same]
    exact ⟨trivial, trivial, trivial, rfl⟩
  case readEmpty =>
    intro f s hr hx
    refine ⟨_, exec_read f s hr, ?_⟩
    rw [readWord_none hx]
    simp only [settle_mbx, settle_regs, settle_data]
    refine ⟨rfl, ?_⟩
    simp only [put, State.setMbx_mbx, Two.get_set_same]
    exact ⟨trivial, trivial, rfl⟩
  case hgcRead =>
    intro f n x s hr hx
    refine ⟨_, exec_hgcRead f n s hr, ?_⟩
    simp only [hgcRead, readWord_some hx, settle_data, settle_hgc, settle_mbx, State.rlOf, settle_rl]
    refine ⟨rfl, congrArg (fun h : HgcPort => h.mbx.rd) (Four.get_set_same _ _ _), rfl, smGet_smSet_same _ _ _ _, rlOf_setRl_apart f _ _ _⟩

end Sys2Proof.Machine
end

/-! # Packets that are no request, later packets and timeouts (O11) -/
section
namespace Sys2Proof.Machine

open Sys2Proof

/-! ### Words of a packet -/

theorem toWords_length (bs : List Byte) : (toWords bs).length = (bs.length + 3) / 4 := by
  induction bs using toWords.induct with
  | case1 | case2 | case3 | case4 => simp [toWords]
  | case5 a b c d r ih =>
    simp only [toWords, List.length_cons, ih]
    omega

theorem packet_length (kind hop dest src tag opcode status master : Nat) (ps : List Byte) :
    (packet kind hop dest src tag opcode status master ps).length = 20 + ps.length := by
  simp [packet, header]
  omega

/-! ### Packets out of their turn, and those that are taken out of the serial order -/

section
variable (w : Who) (via : Nat) (bs : List Byte) (s : State)

theorem exec_outOfTurn (h : s.outOfTurn w bs = true) : exec (.malformedPacket w bs) s = .next (settle s) ∧
    exec (.unassignedDestPacket w via bs) s = .next (settle s) ∧ exec (.preReadyRequest w bs) s = .next (settle s) := by
  refine ⟨?_, ?_, ?_⟩
  · change execMalformedPacket w bs s = _
    simp only [execMalformedPacket, h, Bool.or_true, if_true, ok]
  · change execUnassignedDestPacket w via bs s = _
    simp only [execUnassignedDestPacket, h, Bool.or_true, if_true, ok]
  · change execPreReadyRequest w bs s = _
    simp only [execPreReadyRequest, h, Bool.or_true, if_true, ok]

theorem exec_malformed (ht : s.outOfTurn w bs = false) (hr : s.ready = true) (hm : malformed w bs = true) :
    exec (.malformedPacket w bs) s = .next (settle (offer 0x0104 bSYS w.master 0 (count cPKT_BAD (takeBytes w bs s)))) := by
  have hr' : (count cPKT_BAD (takeBytes w bs s)).ready = true := ((dequeued_takeBytes w bs s).ready).trans hr
  change execMalformedPacket w bs s = _
  simp only [execMalformedPacket, ht, hm, hr', Bool.not_true, Bool.or_self, Bool.false_eq_true, if_false, if_true, ok]

theorem onlyRegs_count_takeBytes (k : Nat) : OnlyRegs [rINT_STATUS 0, rINT_STATUS 1] s (count k (takeBytes w bs s)) := by
  have hcount : (count k (takeBytes w bs s)).regs = (takeBytes w bs s).regs := rfl
  exact (dequeued_takeBytes w bs s).regs.trans (.of_regs hcount)

theorem malformed_logged : Logged s (offer 0x0104 bSYS w.master 0 (count cPKT_BAD (takeBytes w bs s))) [(0x0104, 0, w.master, 0)] := by
  have hcb : (count cPKT_BAD (takeBytes w bs s)).cb = s.cb := (dequeued_takeBytes w bs s).cb
  exact ((Logged.refl s).congr hcb).trans (logged_one 0x0104 bSYS w.master 0 _)

theorem malformed_iff : malformed w bs = true ↔ goodPacket bs = false ∨ (w.master ≠ 4 ∧ pktKind bs ≠ 1) := by
  simp [malformed]

theorem exec_preReady (ht : s.outOfTurn w bs = false) (hr : s.ready = false) :
    exec (.preReadyRequest w bs) s = .next (settle (count cPKT_BAD (takeBytes w bs s))) := by
  change execPreReadyRequest w bs s = _
  simp only [execPreReadyRequest, ht, hr, Bool.or_self, Bool.false_eq_true, if_false, ok]

section
variable (ht : s.outOfTurn w bs = false) (hr : (takeBytes w bs s).ready = true) (hg : goodPacket bs = true) (hlo : 0x1001 ≤ pktDest bs)
  (hhi : pktDest bs ≤ 0xFFFE)
include ht hr hg hlo hhi

theorem exec_unassigned : exec (.unassignedDestPacket w via bs) s = .next (settle (if pktKind bs = 1 then
      refuse ⟨requester w.master via bs, via, w.master == 4 && pktSrc bs == 0, pktTag bs⟩ (pktOpcode bs) { status := stBAD_PARAM, off := 2 }
        (takeBytes w bs s)
    else count (if w.master = 4 then cCH via 44 else cPKT_BAD) (takeBytes w bs s))) := by
  have hu : unassigned (pktDest bs) = true := by simp [unassigned, hlo, hhi]
  change execUnassignedDestPacket w via bs s = _
  simp only [execUnassignedDestPacket, ht, hr, hg, hu, Bool.not_true, Bool.or_self, Bool.false_eq_true, if_false, ok]
  split <;> rfl

end

/-- A packet that is taken out and counted, and no more. -/
theorem counter_count_takeBytes (k : Nat) : (settle (count k (takeBytes w bs s))).counter k = (s.counter k + 1) % 2 ^ 48 := by
  rw [counter_congr (settle_cnt _), count, counter_countN]
  exact congrArg (fun n => (n + 1) % 2 ^ 48) (counter_congr (dequeued_takeBytes w bs s).cnt _)

end

/-! ### Notices and later packets (R105) -/

theorem rspFlag_ok (f : Pr) : (fINT_STATUS_MBX_RSP f).ok ∧ 0 < (fINT_STATUS_MBX_RSP f).w := by
  revert f
  decide

theorem lostFlag_ok (f : Pr) : (fMBX_RSP_STATUS_NOTICE_LOST f).ok ∧ 0 < (fMBX_RSP_STATUS_NOTICE_LOST f).w := by
  revert f
  decide

/-- What a packet placed in the mailbox of a function leaves. -/
structure Placed (f : Pr) (ws : List Word) (s t : State) : Prop where
  rsp : (t.mbx.get f).rsp = (s.mbx.get f).rsp ++ marked ws
  flag : t.flag (fINT_STATUS_MBX_RSP f) = true
  regs : OnlyRegs [rINT_STATUS f] s t

theorem placed_toMbx (f : Pr) (pkt : List Byte) (s : State) (ho : (s.mbx.get f).isOpen = true) (hw : (s.mbx.get f).wait = [])
    (hr : (s.mbx.get f).rsp.length + (toWords pkt).length ≤ 8192) : Placed f (toWords pkt) s (settle (toMbx f.val false pkt s)) := by
  rw [toMbx_placed f pkt s ho hw hr]
  refine ⟨?_, ?_, ?_⟩
  · rw [settle_mbx, State.setB_mbx, Two.get_set_same, (push_spec _ _ _).1]
  · rw [flag_settle]
    exact State.flag_setB_same _ _ _ (rspFlag_ok f).1 (rspFlag_ok f).2
  · refine OnlyRegs.settle (OnlyRegs.setB (OnlyRegs.of_regs ?_) true (List.mem_singleton.mpr ?_)) <;> rfl

theorem exec_notice (f : Pr) (o : Origin) (code st : Nat) (ps : List Byte) (s : State) (hr : s.ready = true) (ho : o.who = ⟨1 + f.val, 0, 0⟩)
    (hl : ps.length ≤ 4076) : exec (.replyPacketQueued o (some (code, st, ps))) s =
      .next (settle (toMbx f.val true (packet 4 32 s.node s.node 0 code st o.who.master ps) s)) := by
  change execReplyPacketQueued o (some (code, st, ps)) s = _
  have hm : ({ o with tag := 0 } : Origin).who.master = 1 + f.val := congrArg Who.master ho
  simp only [execReplyPacketQueued, hr, Bool.not_true, Bool.false_eq_true, if_false, answer, if_pos hl, answerPacket_function f _ _ _ _ _ _ hm, ok]
  rfl

theorem exec_noticePlaced (f : Pr) (o : Origin) (code st : Nat) (ps : List Byte) (s : State) (hr : s.ready = true) (ho : o.who = ⟨1 + f.val, 0, 0⟩)
    (hl : ps.length ≤ 4076) (hopen : (s.mbx.get f).isOpen = true) (hw : (s.mbx.get f).wait = [])
    (hroom : (s.mbx.get f).rsp.length + (toWords (packet 4 32 s.node s.node 0 code st o.who.master ps)).length + s.reserved o.who ≤ 8192) :
    Completes (.replyPacketQueued o (some (code, st, ps))) s (Placed f (toWords (packet 4 32 s.node s.node 0 code st o.who.master ps)) s) := by
  refine ⟨_, exec_notice f o code st ps s hr ho hl, ?_⟩
  rw [toMbx_notice f _ s (by rw [← ho]; exact hroom)]
  exact placed_toMbx f _ s hopen hw (by omega)

theorem exec_noticeLost (f : Pr) (o : Origin) (code st : Nat) (ps : List Byte) (s : State) (hr : s.ready = true) (ho : o.who = ⟨1 + f.val, 0, 0⟩)
    (hl : ps.length ≤ 4076) (hopen : (s.mbx.get f).isOpen = true)
    (hroom : 8192 < (s.mbx.get f).rsp.length + (toWords (packet 4 32 s.node s.node 0 code st o.who.master ps)).length + s.reserved o.who) :
    Completes (.replyPacketQueued o (some (code, st, ps))) s fun t => t.mbx = s.mbx ∧ t.flag (fMBX_RSP_STATUS_NOTICE_LOST f) = true ∧
      t.counter cNOTICE_LOST = (s.counter cNOTICE_LOST + 1) % 2 ^ 48 ∧ OnlyRegs [rMBX_RSP_STATUS f] s t := by
  refine ⟨_, exec_notice f o code st ps s hr ho hl, ?_⟩
  rw [toMbx_lost f _ s hopen (by rw [← ho]; exact hroom)]
  refine ⟨settle_mbx _, ?_, ?_, ?_⟩
  · rw [flag_settle]
    exact State.flag_setB_same _ _ _ (lostFlag_ok f).1 (lostFlag_ok f).2
  · rw [counter_congr (settle_cnt _)]
    exact counter_countN cNOTICE_LOST 1 s
  · refine OnlyRegs.settle (OnlyRegs.setB (OnlyRegs.of_regs ?_) true (List.mem_singleton.mpr ?_)) <;> rfl

/-! The next packet of a multi-packet answer. -/

theorem room_function (f : Pr) (o : Origin) (n : Nat) (s : State) (ho : o.who = ⟨1 + f.val, 0, 0⟩) :
    s.room o.who n = decide ((s.mbx.get f).rsp.length + n + s.reserved o.who ≤ 8192) := by
  rw [ho]
  match f with
  | 0 | 1 => rfl

/-- The kind of a packet of an answer says whether others follow (R83). -/
def laterKind (l : Later) : Nat := if l.rest.length ≤ 4076 then l.kind else l.kind + 8

/-- The packet that goes out next. -/
def laterPacket (l : Later) (s : State) : List Byte :=
  packet (laterKind l) 32 s.node s.node l.org.tag l.opcode l.status l.org.who.master (l.rest.take 4076)

theorem laterPacket_words (l : Later) (s : State) : (toWords (laterPacket l s)).length = (20 + min 4076 l.rest.length + 3) / 4 := by
  rw [toWords_length, laterPacket, packet_length, List.length_take]

/-- What is still to come after it. -/
def laterAfter (l : Later) (s : State) : List Later :=
  (replaceFirst (fun x => decide (x = l)) (fun _ => { l with rest := l.rest.drop 4076 }) s.later).filter fun x => !x.rest.isEmpty

theorem placeLater_function (f : Pr) (l : Later) (s : State) (ho : l.org.who = ⟨1 + f.val, 0, 0⟩) :
    placeLater l s = toMbx f.val (laterKind l == kUnsolicited) (laterPacket l s) { s with later := laterAfter l s } := by
  have hkind : (if (l.rest.drop 4076).isEmpty then l.kind else l.kind + 8) = laterKind l := by
    simp [laterKind, List.isEmpty_iff, List.drop_eq_nil_iff]
  have hm : l.org.who.master = 1 + f.val := congrArg Who.master ho
  rw [placeLater]
  dsimp only
  rw [hkind, answerPacket_function f _ _ _ _ _ _ hm]
  rfl

theorem placed_placeLater (f : Pr) (l : Later) (s : State) (ho : l.org.who = ⟨1 + f.val, 0, 0⟩) (hopen : (s.mbx.get f).isOpen = true)
    (hw : (s.mbx.get f).wait = [])
    (hroom : (s.mbx.get f).rsp.length + (20 + min 4076 l.rest.length + 3) / 4 + s.reserved l.org.who ≤ 8192) :
    Placed f (toWords (laterPacket l s)) s (settle (placeLater l s)) := by
  have hfits : (s.mbx.get f).rsp.length + (toWords (laterPacket l s)).length + s.reserved ⟨1 + f.val, 0, 0⟩ ≤ 8192 := by
    rw [laterPacket_words, ← ho]
    exact hroom
  have hreply : toMbx f.val (laterKind l == kUnsolicited) (laterPacket l s) { s with later := laterAfter l s } =
      toMbx f.val false (laterPacket l s) { s with later := laterAfter l s } := by
    cases laterKind l == kUnsolicited
    · rfl
    · exact toMbx_notice f _ _ hfits
  rw [placeLater_function f l s ho, hreply]
  obtain ⟨hrsp, hflag, hregs⟩ := placed_toMbx f (laterPacket l s) { s with later := laterAfter l s } hopen hw (by dsimp only; omega)
  exact ⟨hrsp, hflag, (OnlyRegs.of_regs rfl).trans hregs⟩

theorem exec_nextPacket (f : Pr) (o : Origin) (l : Later) (s : State) (hr : s.ready = true) (ho : o.who = ⟨1 + f.val, 0, 0⟩)
    (hl : (s.later.find? fun l => decide (l.org = o)) = some l) : exec (.replyPacketQueued o none) s = .next (settle
      (if (s.mbx.get f).rsp.length + (20 + min 4076 l.rest.length + 3) / 4 + s.reserved o.who ≤ 8192 then placeLater l s else s)) := by
  change execReplyPacketQueued o none s = _
  simp only [execReplyPacketQueued, hr, hl, Bool.not_true, Bool.false_eq_true, if_false, room_function f o _ s ho, decide_eq_true_eq]
  split <;> rfl

/-! ### The end of an operation (R89, R414) -/

theorem endOp_refusal (op : Op) (r : Ref) (ps : List Byte) (s : State) (h : 0x10 ≤ r.status) :
    Answered (refuseRecord op.org op.opcode r (dropOp op s)) (endOp op r ps s) := by
  rw [endOp, finish, if_pos h]
  exact answered _ _ _ _ _ _

theorem endOp_ops (op : Op) (r : Ref) (ps : List Byte) (s : State) : (endOp op r ps s).ops = s.ops.filter fun x => !decide (x = op) := by
  rw [endOp, finish]
  split
  · rw [answer_ops, refuseRecord_other]
    rfl
  · rw [answer_ops]
    rfl

theorem endOp_logged (op : Op) (r : Ref) (ps : List Byte) (s : State) (h : 0x10 ≤ r.status) :
    Logged s (endOp op r ps s) [(0x0100 + r.status, 0, r.p0 op.org.who.master, op.opcode)] :=
  ((Logged.refl s).congr rfl).trans ((refuseRecord_logged op.org op.opcode r (dropOp op s)).congr (endOp_refusal op r ps s h).cb)

theorem counter_endOp (op : Op) (r : Ref) (ps : List Byte) (s : State) (h : 0x10 ≤ r.status) :
    (endOp op r ps s).counter cREFUSED = (s.counter cREFUSED + 1) % 2 ^ 48 :=
  ((endOp_refusal op r ps s h).counters _ (by decide) (by decide)).trans (counter_refuseRecord _ _ _ _)

/-- Settles O11: each kind of packet by its own command, placed packets by `placed_toMbx`, a timeout by the end of its operation. -/
theorem packetsThatAreNoRequest : Obligations.PacketsThatAreNoRequest := by
  unfold Obligations.PacketsThatAreNoRequest
  refine ⟨exec_outOfTurn, ?malformed, malformed_iff, ?request, ?other, ?early, ?notice, ?later, ?timeout⟩
  case malformed =>
    intro w bs s ht hr hm
    have hdq := dequeued_takeBytes w bs s
    refine ⟨_, exec_malformed w bs s ht hr hm, ?_, ?_, ?_, ?_, ?_, ?_⟩
    · rw [counter_congr (settle_cnt _), counter_offer _ _ _ _ _ _ (by decide), count, counter_countN]
      exact congrArg (fun n => (n + 1) % 2 ^ 48) (counter_congr hdq.cnt _)
    · exact (malformed_logged w bs s).settle
    · exact ((onlyRegs_count_takeBytes w bs s _).offer _ _ _ _).settle
    · rw [settle_arrived, offer_arrived]
      exact hdq.order
    · rw [settle_ops, offer_ops]
      exact hdq.ops
    · rw [settle_claims, offer_claims]
      exact hdq.claims
  case request =>
    intro w via bs s ht hr hg hlo hhi hk
    rw [exec_unassigned w via bs s ht hr hg hlo hhi, if_pos hk]
  case other =>
    intro w via bs s ht hr hg hlo hhi hk
    refine ⟨_, exec_unassigned w via bs s ht hr hg hlo hhi, ?_⟩
    rw [if_neg hk]
    exact ⟨counter_count_takeBytes w bs s _, (settle_cb _).trans (dequeued_takeBytes w bs s).cb⟩
  case early =>
    intro w bs s ht hr
    have hdq := dequeued_takeBytes w bs s
    exact ⟨_, exec_preReady w bs s ht hr, counter_count_takeBytes w bs s _, (settle_cb _).trans hdq.cb, (onlyRegs_count_takeBytes w bs s _).settle⟩
  case notice =>
    intro f o code st ps s hr ho hl hopen ws
    refine ⟨fun hw hroom => ?_, exec_noticeLost f o code st ps s hr ho hl hopen⟩
    obtain ⟨t, hnext, hrsp, hflag, hregs⟩ := exec_noticePlaced f o code st ps s hr ho hl hopen hw hroom
    exact ⟨t, hnext, hrsp, hflag, hregs⟩
  case later =>
    intro f o l s hr ho hopen hw hl n
    have hnext := exec_nextPacket f o l s hr ho hl
    have horg : l.org = o := by simpa using List.find?_some hl
    refine ⟨fun hroom => ⟨_, hnext, ?_⟩, fun hroom => ⟨_, hnext, ?_⟩⟩
    · rw [if_pos hroom]
      obtain ⟨hrsp, hflag, hregs⟩ := placed_placeLater f l s (horg ▸ ho) hopen hw (horg ▸ hroom)
      rw [laterPacket, horg] at hrsp
      exact ⟨hrsp, hflag, hregs⟩
    · rw [if_neg (Nat.not_le.mpr hroom)]
      exact ⟨settle_mbx _, settle_later _, settle_regs _⟩
  case timeout =>
    intro w tag op s hop
    have hnext : exec (.commandTimeout w tag) s = .next (settle (endOp op { status := stTIMEOUT } (lateParams op s) s)) := by
      change execCommandTimeout w tag s = _
      simp only [execCommandTimeout, hop, ok]
    have hst : 0x10 ≤ ({ status := stTIMEOUT } : Ref).status := by decide
    refine ⟨hnext, _, hnext, ?_, fun o hin hne => ?_, (endOp_logged op _ _ s hst).settle, ?_⟩
    · rw [settle_ops, endOp_ops]
      simp
    · rw [settle_ops, endOp_ops]
      simp [hin, hne]
    · rw [counter_congr (settle_cnt _)]
      exact counter_endOp op _ _ s hst

end Sys2Proof.Machine
end

/-! # What a change of a unit leaves: power states, and keys

One lemma for each operation that a unit's change of state leads to. They carry one relation between the state before and the state
after, in the scopes of `Realm`, so that each operation is gone through once. -/
section
namespace Sys2Proof.Machine

open Sys2Proof

/-! ### The relation -/

/-- What is asked of a change: that it leaves the power states; that it leaves the keys; that it leaves the keys where no channel belongs
to a pair and no receive half waits, so that nothing received is taken up. -/
inductive Realm where
  | power | keys | lone
  deriving DecidableEq

/-- The registers that a scope keeps: the power registers, the key contexts, and for `lone` the configuration of the pairs. -/
abbrev Realm.holds (κ : Realm) (off : Nat) : Prop :=
  (κ = .power ∧ 0x40000 ≤ off ∧ off < 0x50000) ∨ (κ ≠ .power ∧ 0x220000 ≤ off ∧ off < 0x240000) ∨ (κ = .lone ∧ (off = 0x200000 ∨ off = 0x200100))

/-- No channel belongs to a pair, and no receive half waits. -/
def State.Lone (s : State) : Prop := s.pairValid 0 = false ∧ s.pairValid 1 = false ∧ s.halves = []

/-- What a scope says of the parts of a later state. -/
def Realm.On (κ : Realm) (r : State) (regs : SMap Word) (pwr : PwrSt) (ops : List Op) (rehearsals : List Rehearsal)
    (halves : List (Nat × RxHalf)) (keys : SMap (Option KeyBytes)) (kek : Option (List Byte)) : Prop :=
  (∀ off, κ.holds off → smLookup regs off = smLookup r.regs off) ∧
    match κ with
    | .power => pwr = r.pwr ∧ (∀ o ∈ ops, ∃ o' ∈ r.ops, o'.org = o.org) ∧ (r.rehearsals = [] → rehearsals = [])
    | .keys => keys = r.cph.keys ∧ kek = r.cph.kek
    | .lone => keys = r.cph.keys ∧ kek = r.cph.kek ∧ r.Lone ∧ halves = []

/-- A change from r to s is within a scope. It is said of the parts, so an update of any other part is by `⟨h.on⟩`. -/
structure Quiet (κ : Realm) (r s : State) : Prop where
  on : κ.On r s.regs s.pwr s.ops s.rehearsals s.halves s.cph.keys s.cph.kek

section
variable {κ : Realm} {r s t : State}

theorem Quiet.power_refl (s : State) : Quiet .power s s := ⟨fun _ _ => rfl, rfl, fun o ho => ⟨o, ho, rfl⟩, id⟩

theorem Quiet.keys_refl (s : State) : Quiet .keys s s := ⟨fun _ _ => rfl, rfl, rfl⟩

theorem Quiet.lone_refl (h : s.Lone) : Quiet .lone s s := ⟨fun _ _ => rfl, rfl, rfl, h, h.2.2⟩

theorem Quiet.lookup (h : Quiet κ r s) {off : Nat} (ho : κ.holds off) : smLookup s.regs off = smLookup r.regs off := h.on.1 off ho

/-- A register of the scope reads as it did. -/
theorem Quiet.rd (h : Quiet κ r s) {off : Nat} (ho : κ.holds off) : s.rd off = r.rd off := by
  rw [State.rd, State.rd, smGet, smGet, h.lookup ho]

theorem Quiet.fld (h : Quiet κ r s) {f : Fld} (ho : κ.holds f.reg) : s.fld f = r.fld f := congrArg f.of (h.rd ho)

theorem Quiet.pwr (h : Quiet .power r s) : s.pwr = r.pwr := h.on.2.1

theorem Quiet.ops (h : Quiet .power r s) {o : Op} (ho : o ∈ s.ops) : ∃ o' ∈ r.ops, o'.org = o.org := h.on.2.2.1 o ho

theorem Quiet.rehearsals (h : Quiet .power r s) (hr : r.rehearsals = []) : s.rehearsals = [] := h.on.2.2.2 hr

theorem Quiet.keys (h : Quiet κ r s) (hκ : κ ≠ .power) : s.cph.keys = r.cph.keys ∧ s.cph.kek = r.cph.kek :=
  match κ, h with
  | .power, _ => absurd rfl hκ
  | .keys, h => h.on.2
  | .lone, h => ⟨h.on.2.1, h.on.2.2.1⟩

/-- Nothing in the scope `lone` makes a pair or a receive half that waits. -/
theorem Quiet.lone (h : Quiet .lone r s) : s.Lone := by
  obtain ⟨h0, h1, -⟩ := h.on.2.2.2.1
  have hcfg : ∀ p, p = 0 ∨ p = 1 → s.pairValid p = r.pairValid p := fun p hp =>
    congrArg (fun n => n != 0) (h.fld (f := fMRG_CFG_VALID p) (.inr (.inr ⟨rfl, by rcases hp with rfl | rfl <;> decide⟩)))
  exact ⟨(hcfg 0 (.inl rfl)).trans h0, (hcfg 1 (.inr rfl)).trans h1, h.on.2.2.2.2⟩

theorem Quiet.trans (h : Quiet κ r s) (h' : Quiet κ s t) : Quiet κ r t := by
  refine ⟨fun off ho => (h'.lookup ho).trans (h.lookup ho), ?_⟩
  match κ, h, h' with
  | .power, h, h' =>
    refine ⟨h'.pwr.trans h.pwr, fun o ho => ?_, fun hr => h'.rehearsals (h.rehearsals hr)⟩
    obtain ⟨o', ho', heq⟩ := h'.ops ho
    obtain ⟨o'', ho'', heq'⟩ := h.ops ho'
    exact ⟨o'', ho'', heq'.trans heq⟩
  | .keys, h, h' => exact ⟨h'.on.2.1.trans h.on.2.1, h'.on.2.2.trans h.on.2.2⟩
  | .lone, h, h' => exact ⟨h'.on.2.1.trans h.on.2.1, h'.on.2.2.1.trans h.on.2.2.1, h.on.2.2.2.1, h'.on.2.2.2.2⟩

/-! ### Updates of single parts -/

theorem Quiet.regs (h : Quiet κ r s) {m : SMap Word} (hm : ∀ off, κ.holds off → smLookup m off = smLookup s.regs off) :
    Quiet κ r { s with regs := m } := ⟨fun off ho => (hm off ho).trans (h.lookup ho), h.on.2⟩

theorem smLookup_smSet_other {α : Type} [DecidableEq α] (d : Nat → α) (m : SMap α) (i j : Nat) (v : α) (h : j ≠ i) :
    smLookup (smSet d m i v) j = smLookup m j := by
  unfold smSet
  split
  · exact smLookup_smDel_other m i j h
  · exact smLookup_smPut_other m i j v h

theorem Quiet.wr {off : Nat} {v : Word} (ho : ¬ κ.holds off) (h : Quiet κ r s) :
    Quiet κ r (s.wr off v) := h.regs fun _ hj => smLookup_smSet_other _ _ _ _ _ fun e => ho (e ▸ hj)

theorem Quiet.setF {f : Fld} {v : Nat} (ho : ¬ κ.holds f.reg) (h : Quiet κ r s) :
    Quiet κ r (s.setF f v) := .wr ho h

theorem Quiet.setB {f : Fld} {b : Bool} (ho : ¬ κ.holds f.reg) (h : Quiet κ r s) :
    Quiet κ r (s.setB f b) := .wr ho h

theorem Quiet.unreg {off : Nat} (ho : ¬ κ.holds off) (h : Quiet κ r s) : Quiet κ r (s.unreg off) :=
  h.regs fun _ hj => smLookup_smDel_other _ _ _ fun e => ho (e ▸ hj)

theorem Quiet.withOps (h : Quiet κ r s) {l : List Op} (hl : ∀ o ∈ l, ∃ o' ∈ s.ops, o'.org = o.org) : Quiet κ r { s with ops := l } :=
  match κ, h with
  | .power, h => h.trans ⟨fun _ _ => rfl, rfl, hl, id⟩
  | .keys, h => ⟨h.on⟩
  | .lone, h => ⟨h.on⟩

theorem Quiet.withRehearsals (h : Quiet κ r s) {l : List Rehearsal} (hl : s.rehearsals = [] → l = []) : Quiet κ r { s with rehearsals := l } :=
  match κ, h with
  | .power, h => h.trans ⟨fun _ _ => rfl, rfl, fun o ho => ⟨o, ho, rfl⟩, hl⟩
  | .keys, h => ⟨h.on⟩
  | .lone, h => ⟨h.on⟩

theorem Quiet.withHalves (h : Quiet κ r s) {l : List (Nat × RxHalf)} (hl : s.halves = [] → l = []) : Quiet κ r { s with halves := l } :=
  match κ, h with
  | .power, h => ⟨h.on⟩
  | .keys, h => ⟨h.on⟩
  | .lone, h => ⟨h.on.1, h.on.2.1, h.on.2.2.1, h.on.2.2.2.1, hl h.on.2.2.2.2⟩

/-- An update of the ciphers' state that leaves the keys and the KEK. -/
theorem Quiet.cphKeeping {c : CphSt} (hk : c.keys = s.cph.keys) (hc : c.kek = s.cph.kek) (h : Quiet κ r s) : Quiet κ r (s.setCph c) :=
  match κ, h with
  | .power, h => ⟨h.on⟩
  | .keys, h => ⟨h.on.1, hk.trans h.on.2.1, hc.trans h.on.2.2⟩
  | .lone, h => ⟨h.on.1, hk.trans h.on.2.1, hc.trans h.on.2.2.1, h.on.2.2.2⟩

theorem Quiet.setCph {c : CphSt} (h : Quiet .power r s) : Quiet .power r (s.setCph c) := ⟨h.on⟩

theorem Quiet.setPwr (hκ : κ ≠ .power) (h : Quiet κ r s) {p : PwrSt} : Quiet κ r (s.setPwr p) :=
  match κ, h with
  | .power, _ => absurd rfl hκ
  | .keys, h => ⟨h.on⟩
  | .lone, h => ⟨h.on⟩

theorem Quiet.setPD {d v : Nat} (hκ : κ ≠ .power) (h : Quiet κ r s) : Quiet κ r (setPD d v s) := .setF (by grind) h

theorem Quiet.setKey {i : Nat} {k : Option KeyBytes} (h : Quiet .power r s) : Quiet .power r (setKey i k s) := ⟨h.on⟩

/-! ### Steps put together -/

theorem Quiet.ite {c : Prop} {_ : Decidable c} (hs : Quiet κ r s) (ht : Quiet κ r t) : Quiet κ r (if c then s else t) := by
  split
  · exact hs
  · exact ht

/-- A walk over a list. -/
theorem Quiet.each {α : Type} {f : α → State → State} {l : List α} (hf : ∀ a t, Quiet κ r t → Quiet κ r (f a t)) (hs : Quiet κ r s) :
    Quiet κ r (Sys2Proof.each l f s) := each_inv (Quiet κ r) f hf l s hs

/-- A walk over a list whose members are known. -/
theorem Quiet.eachMem {α : Type} {f : α → State → State} {l : List α} (hf : ∀ a ∈ l, ∀ t, Quiet κ r t → Quiet κ r (f a t)) (hs : Quiet κ r s) :
    Quiet κ r (Sys2Proof.each l f s) :=
  List.foldlRecOn (motive := Quiet κ r) l (fun u a => f a u) hs fun u hu a ha => hf a ha u hu

/-- A walk over the first n numbers. -/
theorem Quiet.eachUpto {n : Nat} {f : Nat → State → State} (hf : ∀ a, a < n → ∀ t, Quiet κ r t → Quiet κ r (f a t)) (hs : Quiet κ r s) :
    Quiet κ r (Sys2Proof.each (span 0 n) f s) := .eachMem (fun a ha => hf a (by rw [mem_span] at ha; omega)) hs

/-- A walk that carries a value beside the state. -/
theorem Quiet.foldl {α β : Type} {f : β × State → α → β × State} {l : List α} {a : β × State}
    (hf : ∀ a e, Quiet κ r a.2 → Quiet κ r (f a e).2) (hs : Quiet κ r a.2) : Quiet κ r (l.foldl f a).2 :=
  List.foldlRecOn (motive := fun a : β × State => Quiet κ r a.2) l f hs fun a ha e _ => hf a e ha

/-- The state of a pair that a match has taken apart. -/
theorem Quiet.of_eq {α : Type} {x : α × State} {a : α} (hs : Quiet κ r x.2) (e : x = (a, t)) : Quiet κ r t := by
  rw [e] at hs
  exact hs

/-- A state in two parts. -/
theorem Quiet.via (hf : Quiet κ r s → Quiet κ r t) (hs : Quiet κ r s) : Quiet κ r t := hf hs

/-! Updates of the parts that no scope speaks of. -/

theorem Quiet.withMbx (h : Quiet κ r s) {x : Two Mailbox} : Quiet κ r { s with mbx := x } := ⟨h.on⟩
theorem Quiet.withCb (h : Quiet κ r s) {x : Callboard} : Quiet κ r { s with cb := x } := ⟨h.on⟩
theorem Quiet.withOut (h : Quiet κ r s) {x : Ports} : Quiet κ r { s with out := x } := ⟨h.on⟩
theorem Quiet.withMem (h : Quiet κ r s) {x : MemSt} : Quiet κ r { s with mem := x } := ⟨h.on⟩
theorem Quiet.state_setMem (h : Quiet κ r s) {x : MemSt} : Quiet κ r (s.setMem x) := ⟨h.on⟩
theorem Quiet.withMrg (h : Quiet κ r s) {x : Two MrgSt} : Quiet κ r { s with mrg := x } := ⟨h.on⟩
theorem Quiet.withPat (h : Quiet κ r s) {x : Four PatSt} : Quiet κ r { s with pat := x } := ⟨h.on⟩
theorem Quiet.withLine (h : Quiet κ r s) {x : Four LineSt} : Quiet κ r { s with line := x } := ⟨h.on⟩
theorem Quiet.withFab (h : Quiet κ r s) {x : FabSt} : Quiet κ r { s with fab := x } := ⟨h.on⟩
theorem Quiet.withTest (h : Quiet κ r s) {x : TestSt} : Quiet κ r { s with test := x } := ⟨h.on⟩
theorem Quiet.withHgcPat (h : Quiet κ r s) {x : Four HgcPort} {y : Four PatSt} : Quiet κ r { s with hgc := x, pat := y } := ⟨h.on⟩

/-! ### What some operations may touch at all -/

/-- The parts of an operation that loses a target: its requester is the same. -/
theorem replaceFirst_org {op op' : Op} (l : List Op) (hop : op ∈ l) (horg : op'.org = op.org) :
    ∀ o ∈ replaceFirst (fun x => decide (x = op)) (fun _ => op') l, ∃ o' ∈ l, o'.org = o.org := by
  intro o ho
  suffices h : o ∈ l ∨ o = op' by
    rcases h with h | rfl
    · exact ⟨o, h, rfl⟩
    · exact ⟨op, hop, horg.symm⟩
  clear hop
  induction l with
  | nil => cases ho
  | cons x l ih =>
    rw [replaceFirst] at ho
    split at ho
    · rcases List.mem_cons.mp ho with rfl | ho
      · exact .inr rfl
      · exact .inl (List.mem_cons_of_mem x ho)
    · rcases List.mem_cons.mp ho with rfl | ho
      · exact .inl List.mem_cons_self
      · exact (ih ho).imp (List.mem_cons_of_mem x) id

theorem memberOf_lone (h : s.Lone) (n : Nat) : s.memberOf n = none := by
  obtain ⟨h0, h1, -⟩ := h
  rw [State.pairValid] at h0 h1
  simp [State.memberOf, h0, h1]

/-- Without a pair no pair follows a channel. -/
theorem memberChanged_lone (h : s.Lone) (n : Nat) : memberChanged n s = s := by
  rw [memberChanged, memberOf_lone h]

/-- Where no half waits, none comes into force. -/
theorem halfDone_lone (h : s.halves = []) (b fn : Nat) : halfDone b fn s = s := by
  rw [halfDone, h]
  rfl

theorem smLookup_foldl_statusReset (p : Nat → Bool) {off : Nat} (hp : p off = false) (l m : SMap Word) :
    smLookup (l.foldl (fun m e => if p e.1 then smSet resetWord m e.1 (atReset e.1 (cfgBits e.1 ||| keptBits e.1) e.2) else m) m) off =
      smLookup m off := by
  induction l generalizing m with
  | nil => rfl
  | cons e l ih =>
    rw [List.foldl_cons, ih]
    split
    next he => exact smLookup_smSet_other _ _ _ _ _ fun h => by rw [h, he] at hp; cases hp
    · rfl

theorem Quiet.statusReset {p : Nat → Bool} (h : Quiet κ r s) (hp : ∀ off, κ.holds off → p off = false) : Quiet κ r (statusReset p s) :=
  h.regs fun off ho => smLookup_foldl_statusReset p (hp off ho) _ _

theorem Quiet.dropRegs {p : Nat → Bool} (h : Quiet κ r s) (hp : ∀ off, κ.holds off → p off = false) : Quiet κ r (dropRegs p s) :=
  h.regs fun off ho => by rw [smLookup_filter (fun j => !p j), hp off ho]; rfl

/-- Entries left out by their keys among those of another range. -/
theorem smLookup_filter_entries {α : Type} (p : Nat × α → Bool) (m : SMap α) (off : Nat) (hp : ∀ v, p (off, v) = true) :
    smLookup (m.filter p) off = smLookup m off := by
  induction m with
  | nil => rfl
  | cons e m ih =>
    obtain ⟨k, v⟩ := e
    by_cases hk : off = k
    · subst hk
      rw [List.filter_cons_of_pos (hp v), smLookup, smLookup, if_pos rfl, if_pos rfl]
    · by_cases he : p (k, v) = true
      · rw [List.filter_cons_of_pos he, smLookup, smLookup, if_neg hk, if_neg hk, ih]
      · rw [List.filter_cons_of_neg he, smLookup, if_neg hk, ih]

/-! ### Each operation -/

theorem Quiet.countN {k n : Nat} (hs : Quiet κ r s) : Quiet κ r (countN k n s) := ⟨hs.on⟩

theorem Quiet.count {k : Nat} (hs : Quiet κ r s) : Quiet κ r (count k s) := .countN hs

theorem Quiet.toMbx {f : Nat} {notice : Bool} {pkt : List Byte} (hs : Quiet κ r s) : Quiet κ r (toMbx f notice pkt s) :=
  .ite (.count ⟨hs.on⟩) (.ite (.setB (by grind [fnBase]) (.count hs)) (.ite (.setB (by grind [fnBase]) (.withMbx hs)) ⟨hs.on⟩))

theorem Quiet.toI2c {notice : Bool} {pkt : List Byte} (hs : Quiet κ r s) : Quiet κ r (toI2c notice pkt s) :=
  .ite hs (.ite (.count hs) ⟨hs.on⟩)

theorem Quiet.linkSendTo {n leaf : Nat} {pkt : List Byte} (hs : Quiet κ r s) : Quiet κ r (linkSendTo n leaf pkt s) :=
  .ite ⟨hs.on⟩ (.count hs)

theorem Quiet.linkSend {n : Nat} {pkt : List Byte} (hs : Quiet κ r s) : Quiet κ r (linkSend n pkt s) := .linkSendTo hs

theorem Quiet.toFabric {o : Origin} {mk : Nat → List Byte} (hs : Quiet κ r s) : Quiet κ r (toFabric o mk s) := by
  refine .ite (.linkSend hs) ?_
  split
  · exact .linkSend hs
  · exact .count hs

theorem Quiet.answerPacket {o : Origin} {kind opcode status : Nat} {params : List Byte} (hs : Quiet κ r s) :
    Quiet κ r (answerPacket o kind opcode status params s) := by
  unfold Machine.answerPacket
  extract_lets
  split
  · exact .toMbx hs
  · exact .toMbx hs
  · exact .toI2c hs
  · exact .toFabric hs
  · exact hs

theorem Quiet.answer {o : Origin} {kind opcode status : Nat} {params : List Byte} (hs : Quiet κ r s) :
    Quiet κ r (answer o kind opcode status params s) :=
  .ite (.answerPacket hs) (⟨(Quiet.answerPacket hs).on⟩)

theorem Quiet.offer {code block p0 p1 : Nat} (hs : Quiet κ r s) : Quiet κ r (offer code block p0 p1 s) :=
  .ite ⟨hs.on⟩ (.setB (by grind) (.count (.withCb hs)))

theorem Quiet.refuseRecord {o : Origin} {opcode : Nat} {x : Ref} (hs : Quiet κ r s) : Quiet κ r (refuseRecord o opcode x s) :=
  .count (.offer hs)

theorem Quiet.finish {op : Op} {x : Ref} {params : List Byte} (hs : Quiet κ r s) : Quiet κ r (finish op x params s) :=
  .ite (.answer (.refuseRecord hs)) (.answer hs)

theorem Quiet.dropOp {op : Op} (hs : Quiet κ r s) : Quiet κ r (dropOp op s) := hs.withOps fun o ho => ⟨o, (List.mem_filter.mp ho).1, rfl⟩

theorem Quiet.endOp {op : Op} {x : Ref} {params : List Byte} (hs : Quiet κ r s) : Quiet κ r (endOp op x params s) := .finish (.dropOp hs)

theorem Quiet.targetDone {opcode target : Nat} {failed : Option Nat} {params : List Byte} (hs : Quiet κ r s) :
    Quiet κ r (targetDone opcode target failed params s) := by
  unfold Machine.targetDone
  split
  · exact hs
  next op hop =>
    extract_lets fail op' t
    have ht : Quiet κ r t := hs.withOps (replaceFirst_org s.ops (List.mem_of_find?_eq_some hop) (op' := op') rfl)
    clear_value fail t
    refine .ite ?_ ht
    cases fail
    · exact .endOp ht
    · exact .endOp ht

theorem Quiet.timQl (hs : Quiet κ r s) : Quiet κ r (timQl s) := .setF (by grind) hs

theorem Quiet.timFreq {freq : Int} (hs : Quiet κ r s) : Quiet κ r (timFreq freq s) := .setF (by grind) hs

theorem Quiet.lockFollow {st : Nat} (hs : Quiet κ r s) : Quiet κ r (lockFollow st s) := .ite ⟨hs.on⟩ (.ite ⟨hs.on⟩ hs)

theorem Quiet.timIrq (hs : Quiet κ r s) : Quiet κ r (timIrq s) := .setB (by grind [fnBase]) (.setB (by grind) hs)

theorem Quiet.selState {st : Nat} {sel : Option Nat} (hs : Quiet κ r s) : Quiet κ r (selState st sel s) := by
  refine .via (fun ht => .ite ht (.timIrq (.offer (.setF (by grind) ht)))) ?_
  split
  · exact .setB (by grind) (.setF (by grind) (.lockFollow hs))
  · exact .setB (by grind) (.lockFollow hs)

theorem Quiet.selHoldover (hs : Quiet κ r s) : Quiet κ r (selHoldover s) :=
  .ite hs (.ite (.selState hs) (.selState (.setB (by grind) (.setF (by grind) hs))))

theorem Quiet.selAcquire {x : Nat} (hs : Quiet κ r s) : Quiet κ r (selAcquire x s) := .selState ⟨hs.on⟩

theorem Quiet.selFollow (hs : Quiet κ r s) : Quiet κ r (selFollow s) := by
  unfold Machine.selFollow
  extract_lets
  split
  · exact .ite hs (.selHoldover hs)
  · exact .ite (.ite hs (.offer (.selState (.setF (by grind) hs)))) (.ite hs (.selAcquire hs))

theorem Quiet.selEval (hs : Quiet κ r s) : Quiet κ r (selEval s) :=
  .setB (by grind) (.ite hs (.via (fun ht => .ite (.selHoldover ht) (.ite (.selState ht) (.ite (.selState ht) (.selFollow ht)))) (.ite
    (.selHoldover hs) hs)))

theorem Quiet.setTimIn {x : Nat} {i : TimIn} (hs : Quiet κ r s) : Quiet κ r (s.setTimIn x i) := ⟨hs.on⟩

theorem Quiet.timInvalid {x : Nat} (hx : κ = .power ∨ x < 8) (hs : Quiet κ r s) : Quiet κ r (timInvalid x s) :=
  .via (fun ht => .ite (.timIrq (.offer (.setF (by grind) ht))) (.setF (by grind) ht)) (.setB (by grind) (.setB (by grind) (.setTimIn hs)))

theorem Quiet.timInput {x : Nat} (hx : κ = .power ∨ x < 8) (hs : Quiet κ r s) : Quiet κ r (timInput x s) :=
  .via (fun ht => .via (fun hu => .via (fun hv2 => .ite (.offer (.setB (by grind) hv2)) (.setB (by grind) hv2)) (.ite (.timInvalid hx hu) (.ite
    (.timIrq
    (.setB (by grind) hu)) hu))) (.ite (.setB (by grind) ht) (.offer (.setF (by grind) (.setB (by grind) ht))))) (.ite (.setTimIn hs) hs)

theorem Quiet.timEval {freq : Int} (hs : Quiet κ r s) : Quiet κ r (timEval freq s) :=
  .timQl (.timFreq (.selEval (.eachUpto (fun _ hx _ ht => .timInput (.inr hx) ht) hs)))

theorem Quiet.timChange (hs : Quiet κ r s) : Quiet κ r (timChange s) := .timEval hs

theorem Quiet.setMon {m : MonSt} (hs : Quiet κ r s) : Quiet κ r (s.setMon m) := ⟨hs.on⟩

theorem Quiet.gapAnew {i : Nat} (hs : Quiet κ r s) : Quiet κ r (gapAnew i s) := .ite (.setMon hs) hs

theorem Quiet.setChain {i : Nat} {c : MonChain} (hs : Quiet κ r s) : Quiet κ r (s.setChain i c) := .setMon hs

theorem Quiet.monReset {i : Nat} {at0 : Option (BitVec 64)} (hi : κ = .power ∨ i < 64) (hs : Quiet κ r s) : Quiet κ r (monReset i at0 s) :=
  .setB (by grind) (.setChain (.gapAnew (.setMon hs)))

theorem Quiet.monSources (hs : Quiet κ r s) : Quiet κ r (monSources s) :=
  .ite hs (.eachUpto (fun i hi _ ht => .ite ht (.ite (.setB (by grind) ht) (.monReset (.inr hi) (.setB (by grind) ht)))) hs)

theorem Quiet.setPair {p : Nat} {m : MrgSt} (hs : Quiet κ r s) : Quiet κ r (setPair p m s) := ⟨hs.on⟩

theorem Quiet.wtrOff {p : Nat} (hp : κ = .power ∨ p < 2) (hs : Quiet κ r s) : Quiet κ r (wtrOff p s) :=
  .setF (by grind) (.setB (by grind) (.setPair hs))

theorem Quiet.wtrRule {p : Nat} (hp : κ = .power ∨ p < 2) (hs : Quiet κ r s) : Quiet κ r (wtrRule p s) :=
  .ite (.setF (by grind) (.setB (by grind) (.setPair hs))) (.ite hs (.ite (.wtrOff hp hs) (.ite hs (.ite (.wtrOff hp hs) (.offer (.setF (by grind)
    (.setB (by grind) hs)))))))

theorem Quiet.indicate {p k : Nat} {f : Fld} {on : Bool} (hf : ¬ κ.holds f.reg) (hs : Quiet κ r s) : Quiet κ r (indicate p k f on s) :=
  .ite hs (.offer (.setB hf hs))

theorem Quiet.srSent {p : Nat} (hp : κ = .power ∨ p < 2) (hs : Quiet κ r s) : Quiet κ r (srSent p s) := .wr (by grind) hs

theorem Quiet.mrgEval {p : Nat} (hp : κ = .power ∨ p < 2) (hs : Quiet κ r s) : Quiet κ r (mrgEval p s) :=
  .ite hs (.via (fun ht => .via (fun hu => .via (fun hv2 => .srSent hp (.ite (.indicate (by grind) (.indicate (by grind) hv2)) (.setPair
    (.indicate (by grind) (.indicate (by grind) hv2))))) (.ite hu (.offer (.count (.setB (by grind) hu))))) (.ite (.setPair (.setB (by grind)
    (.setF (by grind) ht))) (.setB (by grind) (.setF (by grind) ht)))) (.setF (by grind) (.setB (by grind) (.setF (by grind) (.setPair
    (.wtrRule hp hs))))))

theorem Quiet.setOh {n : Nat} {o : OhSt} (hs : Quiet κ r s) : Quiet κ r (setOh n o s) := ⟨hs.on⟩

theorem Quiet.setFilt {n : Nat} {f : OhFilt} (hs : Quiet κ r s) : Quiet κ r (setFilt n f s) := .setOh hs

theorem Quiet.pairTo {p st : Nat} (hs : Quiet .power r s) : Quiet .power r (pairTo p st s) :=
  .ite hs (.via (fun ht => .ite (.setFilt (.setB (by grind) ht)) ht) (.ite (.offer (.offer (.setF (by grind) hs))) (.ite (.offer (.offer (.setF
    (by grind) hs))) (.offer
    (.setF (by grind) hs)))))

theorem Quiet.pairState {p : Nat} (hs : Quiet .power r s) : Quiet .power r (pairState p s) :=
  .ite hs (.ite (.ite (.pairTo hs) (.ite (.pairTo hs) (.pairTo hs))) (.ite (.pairTo hs) hs))

theorem Quiet.memberTo {p m st : Nat} (hs : Quiet .power r s) : Quiet .power r (memberTo p m st s) :=
  .ite hs (.mrgEval (.inl rfl) (.pairState (.offer (.setF (by grind) hs))))

theorem Quiet.setMem {p m : Nat} {f : MrgMem → MrgMem} (hs : Quiet κ r s) : Quiet κ r (Machine.setMem p m f s) := .setPair hs

theorem Quiet.sramUnc {st i : Nat} (hs : Quiet κ r s) : Quiet κ r (sramUnc st i s) := .offer (.count hs)

theorem Quiet.sramRead {st i : Nat} (hs : Quiet κ r s) : Quiet κ r (sramRead st i s) := .ite (.count hs) hs

theorem Quiet.sramWrite {st i : Nat} (hs : Quiet κ r s) : Quiet κ r (sramWrite st i s) :=
  .ite (.setB (by grind) (.withMem hs)) (.ite hs (.withMem hs))

theorem Quiet.setEntry {p : Nat} {e : Ledger} (hs : Quiet κ r s) : Quiet κ r (setEntry p e s) := .sramWrite (.setPair hs)

theorem Quiet.setHgc {n : Ch} {h : HgcPort} (hs : Quiet κ r s) : Quiet κ r (s.setHgc n h) := ⟨hs.on⟩

theorem Quiet.hgcIn {n : Nat} {u : List Byte} (hs : Quiet κ r s) : Quiet κ r (hgcIn n u s) := .ite hs (.setHgc hs)

theorem Quiet.setLink {n : Nat} {l : FabLink} (hs : Quiet κ r s) : Quiet κ r (s.setLink n l) := ⟨hs.on⟩

theorem Quiet.unitIn {n m : Nat} {good : Bool} {u : List Byte} (hs : Quiet .power r s) : Quiet .power r (unitIn n m good u s) := .ite hs (.setLink hs)

theorem Quiet.checkPattern {n : Nat} {pay : List Byte} (hs : Quiet .power r s) : Quiet .power r (checkPattern n pay s) :=
  .ite hs (.ite (.setB (by grind [chBase]) (.setF (by grind [chBase]) (.withPat hs))) (.offer (.setB (by grind [chBase]) (.setF (by grind [chBase])
    (.withPat hs)))))

theorem Quiet.setFlips {st i n : Nat} (hs : Quiet κ r s) : Quiet κ r (setFlips st i n s) := ⟨hs.on⟩

theorem Quiet.cntClear {k : Nat} (hs : Quiet κ r s) : Quiet κ r (cntClear k s) := ⟨hs.on⟩

theorem Quiet.freeSet {x : Nat} (hs : Quiet .power r s) : Quiet .power r (freeSet x s) := .ite hs (.each (fun _ _ ht => .cntClear ht) (.setCph hs))

theorem Quiet.wipe {i : Nat} (hs : Quiet .power r s) : Quiet .power r (wipe i s) :=
  .freeSet (.setKey (.unreg (by grind) (.unreg (by grind) (.setCph hs))))

theorem Quiet.dropAct {i : Nat} (hs : Quiet κ r s) : Quiet κ r (dropAct i s) := by
  unfold Machine.dropAct
  split
  · exact hs
  · extract_lets
    split
    · exact .endOp (.cphKeeping rfl rfl hs)
    · exact .cphKeeping rfl rfl hs

theorem Quiet.zeroise {i : Nat} (hs : Quiet .power r s) : Quiet .power r (zeroise i s) := .ite (.offer (.wipe (.dropAct hs))) (.wipe (.dropAct hs))

theorem Quiet.meetCtx {i : Nat} (hs : Quiet .power r s) : Quiet .power r (meetCtx i s) := .ite (.setFlips (.zeroise (.sramUnc hs))) (.sramRead hs)

theorem Quiet.setAccs {n : Nat} {l : List MfAcc} (hs : Quiet κ r s) : Quiet κ r (setAccs n l s) := .cphKeeping rfl rfl hs

theorem Quiet.noteRx {n fn verdict : Nat} {short : List Nat} {tags : List (Nat × List Byte)} (hs : Quiet .power r s) :
    Quiet .power r (noteRx n fn verdict short tags s) := by
  unfold Machine.noteRx
  extract_lets
  split
  · exact .setAccs (.setCph hs)
  · exact .ite (.setAccs hs) (.setAccs (.setCph hs))

theorem Quiet.useCtx {i n mf : Nat} {k : KeyBytes} (hs : Quiet .power r s) : Quiet .power r (useCtx i n mf k s) :=
  .setKey (.wr (by grind) (.ite hs (.setF (by grind) (.setB (by grind) hs))))

theorem Quiet.dropJob {n x : Nat} (hs : Quiet .power r s) : Quiet .power r (dropJob n x s) := .offer (.count hs)

theorem Quiet.pendHash {x fn : Nat} {ct : List Byte} (hs : Quiet .power r s) : Quiet .power r (pendHash x fn ct s) := by
  unfold Machine.pendHash
  split
  · exact hs
  · split
    · exact hs
    · exact .setKey hs

theorem Quiet.rxSession {n fn : Nat} {dropped : List Nat} {e : Nat × Nat} {a : List Byte × State} (ha : Quiet .power r a.2) :
    Quiet .power r (rxSession n fn dropped e a).2 := by
  obtain ⟨pay, s⟩ := a
  unfold Machine.rxSession
  dsimp only
  split
  · exact ha
  · split
    · exact ha
    · split
      · exact .useCtx (.dropJob ha)
      · exact .pendHash (.useCtx ha)

theorem Quiet.closeRx {n : Nat} (hs : Quiet .power r s) : Quiet .power r (closeRx n s) := by
  unfold Machine.closeRx
  split
  · exact hs
  · exact .setAccs hs

theorem Quiet.rxCipher {n fn verdict : Nat} {filled : List Nat} {tags : List (Nat × List Byte)} {pay : List Byte} (hs : Quiet .power r s) :
    Quiet .power r (rxCipher n fn verdict filled tags pay s).2 := by
  unfold Machine.rxCipher
  extract_lets all xs t mine gone drop _ u v
  have hv : Quiet .power r v := .noteRx (.setCph (.ite hs (.each (fun _ _ h => .meetCtx h) hs)))
  clear_value v
  split
  next hr =>
  refine .via (fun h => .ite (.closeRx h) h) (.of_eq ?_ hr)
  split
  · exact hv
  · exact .foldl (fun _ _ ha => .rxSession ha) hv

theorem Quiet.setPtr {n c : Nat} {v : Option (Nat × Bool)} (hs : Quiet .power r s) : Quiet .power r (setPtr n c v s) := .setOh hs

theorem Quiet.ptrValid {n c : Nat} {valid : Bool} (hs : Quiet .power r s) : Quiet .power r (ptrValid n c valid s) :=
  .setB (by grind [chBase]) (.setOh hs)

theorem Quiet.setDemap {n c : Nat} {m : MapRx} (hs : Quiet .power r s) : Quiet .power r (setDemap n c m s) := .setOh hs

theorem Quiet.rebase {n c k p : Nat} (hs : Quiet .power r s) : Quiet .power r (rebase n c k p s) := .setDemap (.ptrValid (.setPtr hs))

theorem Quiet.pointer {n : Nat} {good : Bool} {pay : List Byte} {c : Nat} (hs : Quiet .power r s) : Quiet .power r (pointer n good pay c s) := by
  unfold Machine.pointer
  split
  · exact hs
  · extract_lets k p st
    clear_value k p st
    refine .ite (.setPtr hs) (.ite (.ptrValid (.setPtr hs)) ?_)
    split
    · exact .rebase hs
    · exact .ite (.ptrValid (.setPtr hs)) (.ite (.offer (.rebase hs)) (.setPtr hs))

theorem Quiet.portCounted {k n : Nat} (hs : Quiet .power r s) : Quiet .power r (portCounted k n s) := by
  unfold Machine.portCounted
  split
  · exact hs
  · exact .ite (.setF (by grind) (.countN hs)) (.countN hs)

theorem Quiet.showPort {h : Nat} {bs : List Blk} (hs : Quiet .power r s) : Quiet .power r (showPort h bs s) := ⟨hs.on⟩

theorem Quiet.setLane {l : Nat} {x : LaneSt} (hs : Quiet κ r s) : Quiet κ r (s.setLane l x) := ⟨hs.on⟩

theorem Quiet.portLocks {h : Nat} {am pcs cal : Bool} (hs : Quiet κ r s) : Quiet κ r (portLocks h am pcs cal s) :=
  .via (fun ht => .ite ht (.offer (.setF (by grind) (.setB (by grind) (.setB (by grind) (.setB (by grind) ht)))))) (.ite hs (.setLane hs))

theorem Quiet.winAdd {n c a b : Nat} (hs : Quiet .power r s) : Quiet .power r (winAdd n c a b s) := ⟨hs.on⟩

theorem Quiet.setMapper {n c : Nat} {m : MapTx} (hs : Quiet .power r s) : Quiet .power r (setMapper n c m s) := .setOh hs

theorem Quiet.mapTake {n c : Nat} {bs : List Blk} (hs : Quiet .power r s) : Quiet .power r (mapTake n c bs s) :=
  .ite hs (.ite (.setMapper (.winAdd hs)) (.via (fun ht => .ite ht (.setOh (.countN ht))) (.ite (.setMapper (.winAdd hs)) (.countN
    (.setMapper (.winAdd hs))))))

theorem Quiet.mapIn {n : Nat} {e : Nat × List Blk} (hs : Quiet .power r s) : Quiet .power r (mapIn n e s) := .ite hs (.mapTake hs)

theorem Quiet.portBlocks {h : Nat} {bs : List Blk} (hs : Quiet .power r s) : Quiet .power r (portBlocks h bs s) :=
  .ite (.each (fun _ _ ht => .mapIn ht) (.portLocks (.setLane hs))) (.each (fun _ _ ht => .mapIn ht) hs)

theorem Quiet.blkCount {h : Nat} {bs : List Blk} (hs : Quiet .power r s) : Quiet .power r (blkCount h bs s) :=
  .portCounted (.portCounted (.portCounted hs))

theorem Quiet.sendPort {h : Nat} {bs : List Blk} (hs : Quiet .power r s) : Quiet .power r (sendPort h bs s) :=
  .ite hs (.ite (.portBlocks (.blkCount (.portCounted (.showPort hs)))) (.portCounted (.showPort hs)))

theorem Quiet.portOut {n : Nat} (hs : Quiet .power r s) : Quiet .power r (portOut n s) := .each (fun _ _ ht => .sendPort ht) ⟨hs.on⟩

theorem Quiet.demapClient {n fn : Nat} {lost : Bool} {pay : List Byte} {c : Nat} (hs : Quiet .power r s) :
    Quiet .power r (demapClient n fn lost pay c s) :=
  .ite hs (.via (fun ht => .ite (.mapTake ht) ht)
    (.winAdd (.withOut (.via (fun ht => .ite ht (.countN ht)) (.setOh (.setDemap hs))))))

theorem Quiet.demapAll {n fn : Nat} {good : Bool} {lost : List Nat} {plain : List Byte} (hs : Quiet .power r s) :
    Quiet .power r (demapAll n fn good lost plain s) :=
  .portOut (.each (fun _ _ ht => .demapClient ht) (.ite (.each (fun _ _ ht => .pointer ht) ⟨hs.on⟩) ⟨hs.on⟩))

theorem Quiet.releasePayload {n fn verdict : Nat} {lost : List Nat} {tags : List (Nat × List Byte)} {pay : List Byte} (hs : Quiet .power r s) :
    Quiet .power r (releasePayload n fn verdict lost tags pay s) :=
  .withOut (.demapAll (.rxCipher (.checkPattern hs)))

theorem Quiet.lineInput {n : Nat} (hs : Quiet κ r s) : Quiet κ r (lineInput n s) := .ite hs (.timChange hs)

theorem Quiet.filtSsm {n : Nat} {bs : List Byte} (hs : Quiet .power r s) : Quiet .power r (filtSsm n bs s) :=
  .ite (.each (fun _ _ ht => .lineInput (.setF (by grind [chBase]) ht)) (.setFilt hs)) (.setFilt hs)

theorem Quiet.gather {n : Nat} {f : SecAcc → SecAcc} (hs : Quiet κ r s) : Quiet κ r (gather n f s) := .setOh hs

theorem Quiet.defectRec {n k c : Nat} {on : Bool} (hn : κ = .power ∨ n < 4) (hs : Quiet κ r s) : Quiet κ r (defectRec n k c on s) :=
  .via (fun ht => .offer (.ite (.gather ht) ht)) (.ite (.setF (by grind [chBase]) hs) hs)

theorem Quiet.setDefect {n k : Nat} {on : Bool} (hn : κ = .power ∨ n < 4) (hs : Quiet κ r s) : Quiet κ r (setDefect n k on s) :=
  .ite hs (.defectRec hn (.setF (by grind [chBase]) hs))

theorem Quiet.filtStat {n fn : Nat} {bs : List Byte} (hs : Quiet .power r s) : Quiet .power r (filtStat n fn bs s) :=
  .via (fun ht => .setDefect (.inl rfl) (.ite ht (.gather (.countN ht)))) (.each (fun _ _ ht => .setF (by grind [chBase]) ht) (.setFilt hs))

theorem Quiet.acceptSr {n v : Nat} (hs : Quiet .power r s) : Quiet .power r (acceptSr n v s) := by
  unfold Machine.acceptSr
  split
  · exact .setB (by grind) (.wr (by grind) hs)
  · exact .setB (by grind [chBase]) (.wr (by grind [chBase]) hs)

theorem Quiet.filtSr {n : Nat} {bs : List Byte} (hs : Quiet .power r s) : Quiet .power r (filtSr n bs s) :=
  .ite (.acceptSr (.setFilt hs)) (.setFilt hs)

theorem Quiet.noteMap {n m : Nat} {good : Bool} {bs : List Byte} (hs : Quiet .power r s) : Quiet .power r (noteMap n m good bs s) := .setFilt hs

theorem Quiet.noteTrace {n m : Nat} {good : Bool} {bs : List Byte} (hs : Quiet .power r s) : Quiet .power r (noteTrace n m good bs s) := .setFilt hs

theorem Quiet.notePt {n m : Nat} {good : Bool} {bs : List Byte} (hs : Quiet .power r s) : Quiet .power r (notePt n m good bs s) := .setFilt hs

theorem Quiet.endMap {n : Nat} (hs : Quiet .power r s) : Quiet .power r (endMap n s) :=
  .ite hs (.each (fun _ _ ht => .defectRec (.inl rfl) ht) (.each (fun _ _ ht => .defectRec (.inl rfl) ht) (.setF (by grind [chBase]) (.setFilt hs))))

theorem Quiet.timDefect {n : Nat} (hs : Quiet .power r s) : Quiet .power r (timDefect n s) := .setDefect (.inl rfl) hs

theorem Quiet.endTrace {n : Nat} (hs : Quiet .power r s) : Quiet .power r (endTrace n s) := .ite (.timDefect (.setFilt hs)) (.setFilt hs)

theorem Quiet.ptDefects {n : Nat} (hs : Quiet .power r s) : Quiet .power r (ptDefects n s) := by
  unfold Machine.ptDefects
  split
  · exact hs
  · exact .ite (.setDefect (.inl rfl) (.setDefect (.inl rfl) hs)) (.ite (.setDefect (.inl rfl) hs) (.setDefect (.inl rfl) (.setDefect (.inl rfl) hs)))

theorem Quiet.endPt {n : Nat} (hs : Quiet .power r s) : Quiet .power r (endPt n s) := by
  unfold Machine.endPt
  extract_lets
  split
  · exact .setFilt hs
  · exact .ite (.ptDefects (.setF (by grind [chBase]) (.setFilt hs))) (.setFilt hs)

theorem Quiet.filters {n fn verdict : Nat} {bs : List Byte} (hs : Quiet .power r s) : Quiet .power r (filters n fn verdict bs s) :=
  .via (fun ht => .ite (.endMap (.endTrace (.endPt ht))) ht) (.noteMap (.noteTrace (.notePt (.ite (.filtSsm (.filtStat (.filtSr hs))) hs))))

theorem Quiet.releaseFrame {n fn verdict : Nat} {bs : List Byte} (hs : Quiet .power r s) : Quiet .power r (releaseFrame n fn verdict bs s) :=
  .releasePayload (.filters (.hgcIn (.unitIn hs)))

theorem Quiet.mrgOcc {p : Nat} (hp : κ = .power ∨ p < 2) (hs : Quiet κ r s) : Quiet κ r (mrgOcc p s) :=
  .ite (.setF (by grind) (.setF (by grind) hs)) (.setF (by grind) hs)

theorem Quiet.dropCopies {p fn : Nat} (hs : Quiet .power r s) : Quiet .power r (dropCopies p fn s) := .setPair (.setMem (.setMem hs))

theorem Quiet.readOut {p m : Nat} {e : Ledger} {c : MCopy} (hs : Quiet .power r s) : Quiet .power r (readOut p m e c s).2.1 := by
  unfold Machine.readOut
  extract_lets t
  have ht : Quiet .power r t := .ite hs (.sramRead hs)
  clear_value t
  split
  · exact ht
  · extract_lets u
    have hu : Quiet .power r u := .each (fun _ _ h => .sramUnc h) ht
    clear_value u
    split
    · extract_lets
      split
      · exact .countN hu
      · exact hu
    · exact hu

theorem Quiet.decideNext {p t : Nat} {forced : Bool} (hs : Quiet .power r s) : Quiet .power r (decideNext p t forced s) := by
  unfold Machine.decideNext
  extract_lets x pr
  split
  · exact hs
  · next fn _ =>
    extract_lets e0 bad s1 sel subst
    have h1 : Quiet .power r s1 := .ite (.sramUnc (.count hs)) (.sramRead hs)
    clear_value s1 subst sel
    split
    next s2 e2 hr =>
    have h2 : Quiet .power r s2 := by
      split at hr
      · cases hr
        exact h1
      · split at hr
        · next m _ c _ =>
          have h : Quiet .power r (Machine.readOut p m e0 c s1).2.1 := .readOut h1
          rw [hr] at h
          exact h
        · cases hr
          exact h1
    extract_lets td e e' u1 u2 u3 u4 u5 u6
    have h3 : Quiet .power r u3 := by
      unfold u3
      split
      · exact .count (.count (.setEntry h2))
      · exact .count (.count (.setEntry h2))
    have h4 : Quiet .power r u4 := .ite (.count h3) h3
    have h5 : Quiet .power r u5 := .ite (.count h4) h4
    have h6 : Quiet .power r u6 := .ite (.setB (by grind) h5) h5
    exact .mrgEval (.inl rfl) (.releaseFrame (.mrgOcc (.inl rfl) (.dropCopies (.ite (.offer (.setPair (.setPair h6))) (.setPair h6)))))

theorem Quiet.declare {p m fn : Nat} (hs : Quiet .power r s) : Quiet .power r (declare p m fn s) := .ite hs (.setEntry hs)

theorem Quiet.flushPair {p t j : Nat} (hs : Quiet .power r s) : Quiet .power r (flushPair p t j s) := by
  induction j generalizing s with
  | zero => exact hs
  | succ j ih =>
    unfold Machine.flushPair
    extract_lets x
    split
    · exact hs
    · exact .ite hs (ih (.decideNext (.declare (.declare hs))))

theorem Quiet.noteBip {p m : Nat} {fr : RxFrame} (hs : Quiet .power r s) : Quiet .power r (noteBip p m fr s) := by
  unfold Machine.noteBip
  split
  · exact .setEntry hs
  · exact hs

theorem Quiet.measure {p : Nat} {d : Int} (hs : Quiet .power r s) : Quiet .power r (measure p d s) :=
  .mrgEval (.inl rfl) (.pairState (.wr (by grind) (.setB (by grind) (.setPair (.wr (by grind) hs)))))

theorem Quiet.outOfRange {p m : Nat} {bLater : Bool} (hs : Quiet .power r s) : Quiet .power r (outOfRange p m bLater s) :=
  .memberTo (.wr (by grind) (.setMem (.setB (by grind) (.setPair hs))))

theorem Quiet.joinPair {p m : Nat} (hs : Quiet .power r s) : Quiet .power r (joinPair p m s) := by
  unfold Machine.joinPair
  extract_lets
  split
  · exact .memberTo hs
  · exact .via (fun ht => .ite (.outOfRange ht) (.memberTo ht)) (.ite (.wr (by grind) hs) (.measure hs))

theorem Quiet.forceNext {p t : Nat} (hs : Quiet .power r s) : Quiet .power r (forceNext p t s) := by
  unfold Machine.forceNext
  extract_lets
  split
  · exact hs
  · exact .via (fun ht => .ite (.outOfRange (.decideNext (.setPair ht))) (.decideNext (.setPair ht))) (.ite (.offer (.setB (by grind) (.count
      (.declare (.declare hs))))) (.setB (by grind) (.count (.declare (.declare hs)))))

theorem Quiet.forceUpTo {p t fn j : Nat} (hs : Quiet .power r s) : Quiet .power r (forceUpTo p t fn j s) := by
  induction j generalizing s with
  | zero => exact hs
  | succ j ih =>
    unfold Machine.forceUpTo
    split
    · exact .ite (ih (.forceNext hs)) hs
    · exact hs

theorem Quiet.entryFor {p fn t : Nat} (hs : Quiet .power r s) : Quiet .power r (entryFor p fn t s).2 := by
  unfold Machine.entryFor
  split
  · exact hs
  · split
    · exact hs
    · split
      · exact hs
      · split
        · exact hs
        · dsimp only
          split
          · exact .forceUpTo hs
          · exact hs

theorem Quiet.tooLate {p m fn : Nat} (hs : Quiet .power r s) : Quiet .power r (tooLate p m fn s) := by
  unfold Machine.tooLate
  extract_lets
  split
  · exact .setEntry (.setMem (.setB (by grind) (.count hs)))
  · exact .setMem (.setB (by grind) (.count hs))

theorem Quiet.makeRoom {p t : Nat} (hs : Quiet .power r s) : Quiet .power r (makeRoom p t s) := .ite (.forceNext hs) (.setPair hs)

theorem Quiet.settlePair {p t j : Nat} (hs : Quiet .power r s) : Quiet .power r (settlePair p t j s) := by
  induction j generalizing s with
  | zero => exact hs
  | succ j ih =>
    unfold Machine.settlePair
    extract_lets x
    split
    · exact hs
    · split
      · exact hs
      · extract_lets t
        have ht : Quiet .power r t := .ite (.declare hs) (.ite (.declare hs) hs)
        clear_value t
        split
        · exact .ite (ih (.decideNext ht)) ht
        · exact ht

theorem Quiet.settleNow {p t : Nat} (hs : Quiet .power r s) : Quiet .power r (settleNow p t s) := .settlePair hs

theorem Quiet.putCw {j : Nat} {c : BitVec 256} (hs : Quiet .power r s) : Quiet .power r (putCw j c s) := ⟨hs.on⟩

theorem Quiet.storeCw {k : Nat} {c : BitVec 256} (hs : Quiet .power r s) : Quiet .power r (storeCw k c s) :=
  .ite (.setB (by grind) (.putCw hs)) (.putCw hs)

theorem Quiet.writeCw {k : Nat} {data : List Byte} (hs : Quiet .power r s) : Quiet .power r (writeCw k data s) := .ite hs (.storeCw hs)

theorem Quiet.hbmWriteFrom {fuel addr : Nat} {bs : List Byte} (hs : Quiet .power r s) : Quiet .power r (hbmWriteFrom fuel addr bs s) := by
  induction fuel generalizing addr bs s with
  | zero => exact hs
  | succ n ih =>
    unfold Machine.hbmWriteFrom
    exact .ite hs (ih (.writeCw hs))

theorem Quiet.hbmWrite {addr : Nat} {bs : List Byte} (hs : Quiet .power r s) : Quiet .power r (hbmWrite addr bs s) := .hbmWriteFrom hs

theorem Quiet.storeCopy {p m : Nat} {fr : RxFrame} {t : Nat} {e : Ledger} (hs : Quiet .power r s) : Quiet .power r (storeCopy p m fr t e s) :=
  .mrgOcc (.inl rfl) (.setMem (.ite (.hbmWrite hs) (.sramWrite hs)))

theorem Quiet.backInRange {p m : Nat} (hs : Quiet .power r s) : Quiet .power r (backInRange p m s) := .ite (.memberTo hs) hs

theorem Quiet.takeCopy {p m : Nat} {fr : RxFrame} {t : Nat} (hs : Quiet .power r s) : Quiet .power r (takeCopy p m fr t s) := by
  unfold Machine.takeCopy
  extract_lets s1 lone x s2 s3 st s4 byNum other
  have h4 : Quiet .power r s4 := .via (fun h => .ite h (.joinPair h)) (.setMem (.setPair (.noteBip hs)))
  have hn {u : State} (hu : Quiet .power r u) : Quiet .power r (byNum u) := by
    unfold byNum
    split
    · exact .measure hu
    · exact hu
  have ho {e : Ledger} {u : State} (hu : Quiet .power r u) : Quiet .power r (other e u) := .ite (.measure hu) (.ite (hn hu) hu)
  clear_value s4 byNum other
  split
  next e0 s5 he =>
  have h5 : Quiet .power r s5 := .of_eq (.entryFor h4) he
  split
  · exact hn (.tooLate h5)
  · refine .ite (ho (.tooLate h5)) ?_
    extract_lets full s6
    have h6 : Quiet .power r s6 := .ite (.makeRoom h5) h5
    exact .ite (.tooLate h6) (.ite (.settleNow (.setEntry (.count h6))) (.backInRange (.settleNow (ho (.setEntry (.storeCopy h6))))))

theorem Quiet.moveSeq {p t : Nat} (hs : Quiet .power r s) : Quiet .power r (moveSeq p t s) := by
  unfold Machine.moveSeq
  extract_lets
  split
  · exact hs
  · exact .each (fun _ _ ht => .takeCopy ht) (.ite (.offer (.setPair (.setMem (.setMem (.flushPair (.setPair hs)))))) (.setPair (.setMem
      (.setMem (.flushPair (.setPair hs))))))

theorem Quiet.mrgRefresh {p : Nat} (hs : Quiet .power r s) : Quiet .power r (mrgRefresh p s) :=
  .ite hs (.via (fun ht => .mrgEval (.inl rfl) (.ite (.setPair ht) (.moveSeq (.setPair ht)))) (.each (fun _ _ ht => .memberTo (.setMem ht)) hs))

theorem Quiet.memberChanged {n : Nat} (hκ : κ ≠ .keys) (hs : Quiet κ r s) : Quiet κ r (memberChanged n s) := by
  match κ, hs with
  | .power, hs =>
    unfold Machine.memberChanged
    split
    · exact .mrgRefresh hs
    · exact hs
  | .lone, hs =>
    rw [memberChanged_lone hs.lone]
    exact hs
  | .keys, _ => exact absurd rfl hκ

theorem Quiet.linkState {n st : Nat} (hn : n < 4) (hs : Quiet κ r s) : Quiet κ r (linkState n st s) := .ite hs (.offer (.setF (by grind) hs))

theorem Quiet.countRoutes (hs : Quiet κ r s) : Quiet κ r (countRoutes s) := .setF (by grind) hs

theorem Quiet.dropRoutes {n : Nat} (hs : Quiet κ r s) : Quiet κ r (dropRoutes n s) := by
  unfold Machine.dropRoutes
  extract_lets gone idx
  refine .countRoutes (.withFab (hs.regs fun off ho => smLookup_filter_entries _ _ _ fun v => ?_))
  have hout : isRouteReg off = false := by grind [isRouteReg]
  simp only [gone, hout, Bool.false_and, Bool.not_false]

theorem Quiet.linkDown {n st : Nat} (hn : n < 4) (hs : Quiet κ r s) : Quiet κ r (linkDown n st s) :=
  .linkState hn (.dropRoutes (.countN (.setLink hs)))

theorem Quiet.linkRefresh {n : Nat} (hn : n < 4) (hs : Quiet κ r s) : Quiet κ r (linkRefresh n s) :=
  .ite (.ite hs (.linkDown hn hs)) (.ite hs (.linkDown hn hs))

theorem Quiet.fabRefresh (hs : Quiet κ r s) : Quiet κ r (fabRefresh s) := .eachUpto (fun _ hn _ ht => .linkRefresh hn ht) hs

theorem Quiet.chFollow {n : Nat} (hκ : κ ≠ .keys) (hs : Quiet κ r s) : Quiet κ r (chFollow n s) :=
  .timChange (.monSources (.memberChanged hκ (.fabRefresh hs)))

theorem Quiet.loopClear {n : Nat} (hn : κ = .power ∨ n < 4) (hs : Quiet κ r s) : Quiet κ r (loopClear n s) :=
  .ite hs (.offer (.unreg (by grind [chBase]) hs))

theorem Quiet.capTruncate {n : Nat} (hs : Quiet κ r s) : Quiet κ r (capTruncate n s) := by
  unfold Machine.capTruncate
  split
  · exact .ite ⟨hs.on⟩ hs
  · exact hs

theorem Quiet.muteFollow {n : Nat} (hn : κ = .power ∨ n < 4) (hs : Quiet κ r s) : Quiet κ r (muteFollow n s) := .setB (by grind [chBase]) hs

theorem Quiet.setLine {n : Nat} {l : LineSt} (hs : Quiet κ r s) : Quiet κ r (setLine n l s) := ⟨hs.on⟩

theorem Quiet.stopRelease {n : Nat} (hn : κ = .power ∨ n < 4) (hκ : κ ≠ .keys) (hs : Quiet κ r s) : Quiet κ r (stopRelease n s) := by
  unfold Machine.stopRelease
  exact .memberChanged hκ (.ite (.setFilt (.setB (by grind [chBase]) (.setB (by grind [chBase]) hs))) (.setB (by grind [chBase]) (.setB
    (by grind [chBase]) hs)))

theorem Quiet.halfShow {n : Nat} (hn : κ = .power ∨ n < 4) (hs : Quiet κ r s) : Quiet κ r (halfShow n s) := .setB (by grind [chBase]) hs

theorem Quiet.cancelHalf {b : Nat} (hs : Quiet κ r s) : Quiet κ r (cancelHalf b s) :=
  .ite (.halfShow (.inr (Nat.mod_lt _ (by decide))) (hs.withHalves fun h => by rw [h]; rfl)) hs

theorem Quiet.dropSession {b : Nat} (hs : Quiet κ r s) : Quiet κ r (dropSession b s) := .cancelHalf (hs.withRehearsals fun h => by rw [h]; rfl)

theorem Quiet.setSession {b : Nat} {f : Rehearsal → Rehearsal} (hs : Quiet κ r s) : Quiet κ r (setSession b f s) :=
  hs.withRehearsals fun h => by rw [h]; rfl

theorem Quiet.answerCue {b : Nat} {x : Ref} {params : List Byte} (hs : Quiet κ r s) : Quiet κ r (answerCue b x params s) := by
  unfold Machine.answerCue
  split
  · exact .endOp hs
  · exact hs

theorem Quiet.cueRefused {b : Nat} {x : Rehearsal} {ref : Ref} (hs : Quiet .power r s) : Quiet .power r (cueRefused b x ref s) :=
  .answerCue (.ite (.dropSession hs) (.cancelHalf (.setSession hs)))

theorem Quiet.slotsRx {n : Nat} {old new : Reader} (hs : Quiet .power r s) : Quiet .power r (slotsRx n old new s) :=
  .each (fun _ _ ht => .ptrValid (.setPtr ht)) hs

theorem Quiet.halfMade {b fn : Nat} {old new : Reader} (hs : Quiet .power r s) : Quiet .power r (halfMade b fn old new s) :=
  .ite (.offer hs) (.slotsRx hs)

theorem Quiet.halfAhead {b fn : Nat} {h : RxHalf} (hs : Quiet .power r s) : Quiet .power r (halfAhead b fn h s) := by
  unfold Machine.halfAhead
  split
  · exact hs
  · split
    · exact hs
    · split
      · exact .cueRefused hs
      · exact .halfMade (.halfShow (.inl rfl) ⟨hs.on⟩)

theorem Quiet.cueDone {target : Nat} (hs : Quiet κ r s) : Quiet κ r (cueDone target s) := by
  unfold Machine.cueDone
  split
  · exact .endOp hs
  · exact hs

/-- In the scope `lone` no half waits. -/
theorem Quiet.halfDone {b fn : Nat} (hκ : κ ≠ .keys) (hs : Quiet κ r s) : Quiet κ r (halfDone b fn s) := by
  match κ, hs with
  | .power, hs =>
    unfold Machine.halfDone
    split
    · exact hs
    · exact .ite hs (.cueDone (.halfMade (.halfShow (.inl rfl) (.withHalves hs fun h => by rw [h]; rfl))))
  | .lone, hs =>
    rw [halfDone_lone hs.lone.2.2]
    exact hs
  | .keys, _ => exact absurd rfl hκ

theorem Quiet.halfTakes {b fn : Nat} (hs : Quiet .power r s) : Quiet .power r (halfTakes b fn s).2 := by
  unfold Machine.halfTakes
  split
  · exact hs
  · split
    · exact hs
    · exact .ite (.halfAhead hs) (.halfDone nofun hs)

theorem Quiet.toEqualiser {n : Nat} (hs : Quiet .power r s) : Quiet .power r (toEqualiser n s) := by
  unfold Machine.toEqualiser
  exact .via (fun h => .ite h (.lineInput (.memberChanged nofun (.setDefect (.inl rfl) h)))) (.setB (by grind [chBase]) (.setF (by grind [chBase])
    (.withLine hs)))

/-- In the scope `lone` no half waits. -/
theorem Quiet.halvesLost {n : Nat} {oof : Bool} (hκ : κ ≠ .keys) (hs : Quiet κ r s) : Quiet κ r (halvesLost n oof s) := by
  match κ, hs with
  | .power, hs => exact .each (fun _ _ ht => .ite (.toEqualiser (.halfTakes ht)) (.halfTakes ht)) hs
  | .lone, hs =>
    rw [Machine.halvesLost, hs.lone.2.2]
    exact hs
  | .keys, _ => exact absurd rfl hκ

theorem Quiet.decoding {n : Nat} {on : Bool} (hn : κ = .power ∨ n < 4) (hs : Quiet κ r s) : Quiet κ r (decoding n on s) :=
  .ite hs (.offer (.setB (by grind [chBase]) hs))

theorem Quiet.oofSet {n : Nat} (hn : κ = .power ∨ n < 4) (hκ : κ ≠ .keys) (hs : Quiet κ r s) : Quiet κ r (oofSet n s) :=
  .halvesLost hκ (.stopRelease hn hκ (.decoding hn (.count (.setDefect hn (.setDefect hn (.setOh hs))))))

theorem Quiet.pathLost {n : Nat} (hn : κ = .power ∨ n < 4) (hκ : κ ≠ .keys) (hs : Quiet κ r s) : Quiet κ r (pathLost n s) :=
  .ite (.stopRelease hn hκ hs) (.oofSet hn hκ hs)

theorem Quiet.rxDown {n : Nat} (hn : κ = .power ∨ n < 4) (hκ : κ ≠ .keys) (hs : Quiet κ r s) : Quiet κ r (rxDown n s) :=
  .ite (.pathLost hn hκ hs) (.decoding hn hs)

theorem Quiet.losFollow {n : Nat} (hn : κ = .power ∨ n < 4) (hκ : κ ≠ .keys) (hs : Quiet κ r s) : Quiet κ r (losFollow n s) :=
  .ite hs (.lineInput (.memberChanged hκ (.setDefect hn hs)))

theorem Quiet.rxTo {n st : Nat} (hn : κ = .power ∨ n < 4) (hκ : κ ≠ .keys) (hs : Quiet κ r s) : Quiet κ r (rxTo n st s) :=
  .losFollow hn hκ (.ite (.rxDown hn hκ (.setB (by grind [chBase]) (.setF (by grind [chBase]) (.setLine hs)))) (.setB (by grind [chBase]) (.setF
    (by grind [chBase]) (.setLine hs))))

theorem Quiet.setEng {n : Nat} {e : EngSt} (hs : Quiet κ r s) : Quiet κ r (setEng n e s) := ⟨hs.on⟩

theorem Quiet.setFec {n : Nat} {f : FecSt} (hs : Quiet κ r s) : Quiet κ r (setFec n f s) := ⟨hs.on⟩

theorem Quiet.setHub {n : Nat} {h : HubSt} (hs : Quiet κ r s) : Quiet κ r (setHub n h s) := ⟨hs.on⟩

theorem Quiet.setLeaf {n : Nat} {l : LeafSt} (hs : Quiet κ r s) : Quiet κ r (setLeaf n l s) := ⟨hs.on⟩

theorem Quiet.cphChannelLost {n : Nat} (hs : Quiet .power r s) : Quiet .power r (cphChannelLost n s) := .each (fun _ _ ht => .wipe ht) (.setAccs hs)

theorem Quiet.sessionNotice {x : Rehearsal} {byMaster : Option Nat} (hs : Quiet κ r s) : Quiet κ r (sessionNotice x byMaster s) := .answer hs

theorem Quiet.endSession {byMaster : Option Nat} {x : Rehearsal} (hs : Quiet κ r s) : Quiet κ r (endSession byMaster x s) :=
  .sessionNotice (.answerCue (.dropSession hs))

theorem Quiet.endBlock {b : Nat} (hs : Quiet κ r s) : Quiet κ r (endBlock b s) := by
  unfold Machine.endBlock
  split
  · exact .endSession hs
  · exact hs

theorem Quiet.chContentsLost {n : Nat} (hs : Quiet .power r s) : Quiet .power r (chContentsLost n s) := by
  unfold Machine.chContentsLost
  exact .each (fun _ _ ht => .endBlock ht) (.statusReset (.dropRegs (.withMem (.withHgcPat (.setHub (.setLeaf (.cphChannelLost (.setEng (.setLine
    (.setFec (.setOh (.each (fun _ _ ht => .halfDone nofun ht) hs)))))))))) (fun off ho => by grind [inLeaf, chBase]))
    (fun off ho => by grind [inCh, chBase]))

theorem Quiet.framerStart {n : Nat} (hs : Quiet κ r s) : Quiet κ r (framerStart n s) := .setOh hs

theorem Quiet.hubState {n : Nat} (hs : Quiet .power r s) : Quiet .power r (hubState n s) := .setF (by grind [chBase]) hs

theorem Quiet.rxStart {n : Nat} (hs : Quiet .power r s) : Quiet .power r (rxStart n s) :=
  .ite (.setHub (.hubState (.setF (by grind [chBase]) hs))) (.rxTo (.inl rfl) nofun hs)

theorem Quiet.setAdc {n c : Nat} {a : AdcSt} (hs : Quiet .power r s) : Quiet .power r (setAdc n c a s) := .setEng hs

theorem Quiet.interpolate {n c k : Nat} (hs : Quiet .power r s) : Quiet .power r (interpolate n c k s) :=
  .setB (by grind [chBase]) (.setF (by grind [chBase]) hs)

theorem Quiet.endInterp {n c : Nat} (hs : Quiet .power r s) : Quiet .power r (endInterp n c s) := by
  unfold Machine.endInterp
  split
  · exact .interpolate hs
  · exact .ite (.interpolate hs) (.setB (by grind [chBase]) hs)

theorem Quiet.adcBoundary {n c dwell : Nat} (hs : Quiet .power r s) : Quiet .power r (adcBoundary n c dwell s) :=
  .via (fun ht => .via (fun hu => .ite (.ite (.setAdc hu) hu) (.ite hu (.ite (.setAdc (.setF (by grind [chBase]) hu)) (.ite (.setAdc (.setF
    (by grind [chBase]) hu)) hu)))) (.ite
    (.endInterp ht) ht)) (.ite hs (.setAdc hs))

theorem Quiet.beginDwell {n d : Nat} (hs : Quiet .power r s) : Quiet .power r (beginDwell n d s) := .each (fun _ _ ht => .adcBoundary ht) (.setEng hs)

theorem Quiet.convRestore {n : Nat} (hs : Quiet .power r s) : Quiet .power r (convRestore n s) :=
  .each (fun _ _ ht => .via (fun hu => .setAdc (.ite (.setF (by grind [fPLACE, chBase]) hu) hu)) (.setB (by grind [chBase]) (.setB
    (by grind [chBase]) (.setB (by grind [chBase]) (.setF (by grind [chBase]) (.setB (by grind [chBase]) (.setF (by grind [chBase]) ht))))))) hs

theorem Quiet.laneLoopClear {l : Nat} (hs : Quiet κ r s) : Quiet κ r (laneLoopClear l s) := .ite hs (.offer (.setF (by grind) hs))

theorem Quiet.quadStop {q : Nat} (hs : Quiet κ r s) : Quiet κ r (quadStop q s) :=
  .each (fun _ _ ht => .ite (.portLocks ht) ht) (.each (fun _ _ ht => .laneLoopClear ht) hs)

theorem Quiet.laneTo {l st : Nat} (hs : Quiet .power r s) : Quiet .power r (laneTo l st s) :=
  .ite hs (.offer (.setF (by grind) (.ite (.laneLoopClear hs) hs)))

theorem Quiet.laneFresh {l : Nat} (hs : Quiet κ r s) : Quiet κ r (laneFresh l s) := .setLane hs

theorem Quiet.domRecord {d : Nat} {started : Bool} (hs : Quiet κ r s) : Quiet κ r (domRecord d started s) := .offer hs

theorem Quiet.monFigures {i : Nat} (hs : Quiet .power r s) : Quiet .power r (monFigures i s) :=
  .ite (.setMon (.setB (by grind) (.setF (by grind) (.setF (by grind) hs)))) (.ite (.setB (by grind) (.setF (by grind) (.setF (by grind) hs)))
    (.offer (.setMon (.setB (by grind) (.setF (by grind) (.setF (by grind) hs))))))

theorem Quiet.monStart (hs : Quiet .power r s) : Quiet .power r (monStart s) :=
  .monSources (.each (fun _ _ ht => .monFigures (.monReset (.inl rfl) ht)) (.setMon hs))

theorem Quiet.cphRefresh (hs : Quiet .power r s) : Quiet .power r (cphRefresh s) :=
  .ite hs (.via (fun ht => .ite (.offer ht) ht) (.setF (by grind) (.setF (by grind) (.setB (by grind) (.setF (by grind) (.setF (by grind) (.setF
    (by grind) hs)))))))

theorem Quiet.startCores (hs : Quiet .power r s) : Quiet .power r (startCores s) :=
  .cphRefresh (.setB (by grind) (.setCph (.each (fun _ _ ht => .setF (by grind) ht) hs)))

theorem Quiet.storeFlag {p : Nat} {lost : Bool} (hp : κ = .power ∨ p < 2) (hs : Quiet κ r s) : Quiet κ r (storeFlag p lost s) := by
  unfold Machine.storeFlag
  refine .ite hs ?_
  extract_lets t x drop
  have ht : Quiet κ r t := .offer (.setB (by grind) hs)
  have hd {m : Nat} {u : State} (hu : Quiet κ r u) : Quiet κ r (drop m u) := by
    refine .each (fun c v hv => .count (.setMem ?_)) hu
    split
    · exact .setEntry hv
    · exact hv
  exact .mrgEval hp (.mrgOcc hp (.ite (hd (hd ht)) ht))

theorem Quiet.storeLost {p : Nat} {lost : Bool} (hp : κ = .power ∨ p < 2) (hs : Quiet κ r s) : Quiet κ r (storeLost p lost s) :=
  .ite (.storeFlag hp hs) hs

theorem Quiet.mergeStart {p : Nat} (hs : Quiet .power r s) : Quiet .power r (mergeStart p s) :=
  .storeLost (.inl rfl) (.mrgEval (.inl rfl) (.pairTo (.setF (by grind) (.unreg (by grind) (.unreg (by grind) (.unreg (by grind) (.unreg (by grind)
    (.setPair hs))))))))

theorem Quiet.cphGate (hs : Quiet κ r s) : Quiet κ r (cphGate s) := .cphKeeping rfl rfl (hs.statusReset fun off ho => by grind [regDomain, ctxReg])

theorem Quiet.zeroiseAll (hs : Quiet .power r s) : Quiet .power r (zeroiseAll s) := .setB (by grind) (.setCph (.each (fun _ _ ht => .zeroise ht) hs))

theorem Quiet.hbmLost (hs : Quiet κ r s) : Quiet κ r (hbmLost s) := by
  unfold Machine.hbmLost
  extract_lets t u _ v _ w
  have hu : Quiet κ r u := .via (fun h => .ite (.targetDone h) h) (.setB (by grind) (.setF (by grind) (.setB (by grind) (.setB (by grind) hs))))
  have hv : Quiet κ r v := .withMem hu
  have hw : Quiet κ r w := .setB (by grind) (.withCb hv)
  exact .eachUpto (fun _ hp _ h => .storeLost (.inr hp) h) (.each (fun _ _ h => .setOh h) (.withTest hw))

theorem Quiet.portLost {l : Nat} (hs : Quiet .power r s) : Quiet .power r (portLost l s) := by
  unfold Machine.portLost
  split
  · exact .ite hs (.portLocks hs)
  · exact hs

theorem Quiet.laneTrain {l : Nat} (hs : Quiet .power r s) : Quiet .power r (laneTrain l s) :=
  .portLost (.laneTo (.setB (by grind) (.setB (by grind) (.setLane hs))))

end
end Sys2Proof.Machine
end

/-! # The power states of units

What a channel, lane, quad or domain shows after each step of a change. `PowerAt` follows the power registers through a list of updates;
everything else a change does is `Quiet`. -/
section
namespace Sys2Proof.Machine

open Sys2Proof

/-! ### Fields of the power registers -/

section
variable {s t : State} {ch pd : Nat → Nat} {p : PwrSt}

theorem Quiet.fldCH (h : Quiet .power s t) (n : Nat) : t.fld (fCH n) = s.fld (fCH n) := h.fld (by grind)

theorem Quiet.fldPD (h : Quiet .power s t) (d : Nat) : t.fld (fPD d) = s.fld (fPD d) := h.fld (by grind)

theorem fPD_reg_ne (d n : Nat) : (fPD d).reg ≠ (fCH n).reg := by
  change (if d < 16 then rPWR_DOMAIN_A else rPWR_DOMAIN_B) ≠ rPWR_CH_STATE
  grind

theorem fld_setPD (s : State) (d e v : Nat) (hd : d < 32) (he : e < 32) (hv : v < 4) :
    (setPD d v s).fld (fPD e) = if e = d then v else s.fld (fPD e) := by
  have hok : (fPD d).ok := by change 2 * (d % 16) + 2 ≤ 32; omega
  split
  next h => rw [h, setPD, State.fld_setF_same _ _ _ hok]; exact Nat.mod_eq_of_lt hv
  next h =>
    by_cases hr : (fPD e).reg = (fPD d).reg
    · have hlt : d < 16 ↔ e < 16 := by
        change (if e < 16 then rPWR_DOMAIN_A else rPWR_DOMAIN_B) = if d < 16 then rPWR_DOMAIN_A else rPWR_DOMAIN_B at hr
        grind
      refine State.fld_setF_apart _ _ _ _ hok ?_
      change 2 * (d % 16) + 2 ≤ 2 * (e % 16) ∨ 2 * (e % 16) + 2 ≤ 2 * (d % 16)
      omega
    · exact State.fld_setF_reg _ _ _ _ hr

theorem fld_setCH (s : State) (n m v : Nat) (hn : n < 4) (hv : v < 4) :
    (s.setF (fCH n) v).fld (fCH m) = if m = n then v else s.fld (fCH m) := by
  have hok : (fCH n).ok := by change 2 * n + 2 ≤ 32; omega
  split
  next h => rw [h, State.fld_setF_same _ _ _ hok]; exact Nat.mod_eq_of_lt hv
  next h => exact State.fld_setF_apart _ _ _ _ hok (by change 2 * n + 2 ≤ 2 * m ∨ 2 * m + 2 ≤ 2 * n; omega)

/-! ### The power registers through a list of updates -/

/-- A function with the value v over a list. -/
def setOn (l : List Nat) (v : Nat) (f : Nat → Nat) (i : Nat) : Nat := if i ∈ l then v else f i

/-- The channels' states, the domains' states and the power machinery of a state. -/
structure PowerAt (s : State) (ch pd : Nat → Nat) (p : PwrSt) : Prop where
  ch : ∀ n, n < 4 → s.fld (fCH n) = ch n
  pd : ∀ d, d < 32 → s.fld (fPD d) = pd d
  pwr : s.pwr = p

theorem PowerAt.self (s : State) : PowerAt s (fun n => s.fld (fCH n)) (fun d => s.fld (fPD d)) s.pwr := ⟨fun _ _ => rfl, fun _ _ => rfl, rfl⟩

theorem PowerAt.quiet (h : PowerAt s ch pd p) (hq : Quiet .power s t) : PowerAt t ch pd p :=
  ⟨fun n hn => (hq.fldCH n).trans (h.ch n hn), fun d hd => (hq.fldPD d).trans (h.pd d hd), hq.pwr.trans h.pwr⟩

theorem PowerAt.setPwr (h : PowerAt s ch pd p) (p' : PwrSt) : PowerAt (s.setPwr p') ch pd p' := ⟨h.ch, h.pd, rfl⟩

theorem PowerAt.setPD (h : PowerAt s ch pd p) {d v : Nat} (hd : d < 32) (hv : v < 4) : PowerAt (setPD d v s) ch (setOn [d] v pd) p := by
  refine ⟨fun n hn => (State.fld_setF_reg _ _ _ _ (fPD_reg_ne d n).symm).trans (h.ch n hn), fun e he => ?_, h.pwr⟩
  rw [fld_setPD s d e v hd he hv, setOn, h.pd e he]
  simp only [List.mem_singleton]

theorem PowerAt.setCH (h : PowerAt s ch pd p) {n v : Nat} (hn : n < 4) (hv : v < 4) : PowerAt (s.setF (fCH n) v) (setOn [n] v ch) pd p := by
  have hpd : ∀ d, (s.setF (fCH n) v).fld (fPD d) = s.fld (fPD d) := fun d => State.fld_setF_reg _ _ _ _ (fPD_reg_ne d n)
  refine ⟨fun m hm => ?_, fun d hd => ?_, ?_⟩
  case refine_2 => rw [hpd, h.pd d hd]
  case refine_3 => rw [State.setF_pwr, h.pwr]
  rw [fld_setCH s n m v hn hv, setOn, h.ch m hm]
  simp only [List.mem_singleton]

theorem setOn_cons (d : Nat) (l : List Nat) (v : Nat) (f : Nat → Nat) : setOn l v (setOn [d] v f) = setOn (d :: l) v f := by
  funext i
  simp only [setOn, List.mem_cons, List.not_mem_nil, or_false]
  split <;> simp_all

theorem PowerAt.eachPD {l : List Nat} (h : PowerAt s ch pd p) {v : Nat} (hl : ∀ d ∈ l, d < 32) (hv : v < 4) :
    PowerAt (each l (fun d s => Machine.setPD d v s) s) ch (setOn l v pd) p := by
  induction l generalizing s pd with
  | nil => exact ⟨h.ch, h.pd, h.pwr⟩
  | cons d l ih =>
    rw [← setOn_cons]
    exact ih (h.setPD (hl d List.mem_cons_self) hv) fun e he => hl e (List.mem_cons_of_mem d he)

/-- The states of the domains of a list are not its only content that stays. -/
theorem eachPD_other (l : List Nat) (v : Nat) (s : State) :
    each l (fun d s => setPD d v s) s = { s with regs := (each l (fun d s => setPD d v s) s).regs } :=
  each_inv (fun t => t = { s with regs := t.regs }) _ (fun _ _ h => by rw [h]; rfl) l s rfl

theorem eachPD_life (l : List Nat) (v : Nat) (s : State) : (each l (fun d s => setPD d v s) s).life = s.life := by rw [eachPD_other]

theorem eachPD_ops (l : List Nat) (v : Nat) (s : State) : (each l (fun d s => setPD d v s) s).ops = s.ops := by rw [eachPD_other]

theorem chPds_lt {n : Nat} (hn : n < 4) : ∀ d ∈ chPds n, d < 32 := by
  intro d hd
  simp only [chPds, List.mem_cons, List.not_mem_nil, or_false] at hd
  omega

/-! ### Channels -/

/-- The power machinery as a channel stops being ACTIVE. -/
def PwrSt.stopped (p : PwrSt) (n : Nat) : PwrSt := { p with since := p.since.set (ch4 n) none }

/-- The power machinery as a channel has reached a state. -/
def PwrSt.reached (p : PwrSt) (n : Nat) : PwrSt := { p with target := p.target.set (ch4 n) none, exits := p.exits.filter fun x => x != n }

/-- The power machinery as a channel becomes ACTIVE at a time. -/
def PwrSt.running (p : PwrSt) (n : Nat) (at0 : BitVec 64) : PwrSt := { p with since := p.since.set (ch4 n) (some at0) }

theorem PowerAt.accrue (h : PowerAt s ch pd p) (n : Nat) : PowerAt (accrue n s) ch pd (p.stopped n) := ⟨h.ch, h.pd, by rw [← h.pwr]; rfl⟩

theorem PowerAt.chReached (h : PowerAt s ch pd p) (n : Nat) : PowerAt (chReached n s) ch pd (p.reached n) := by
  rw [← h.pwr]
  exact h.setPwr _

/-- The power registers of a channel that stops are set first; what follows leaves them. -/
theorem quiet_chStop (n : Nat) (s : State) : Quiet .power
    (each (chPds n) (fun d s => setPD d 3 s) ((capTruncate n (loopClear n (accrue n s))).setF (fCH n) 3)) (chStop n s) :=
  .chFollow nofun (.muteFollow (.inl rfl) (.rxTo (.inl rfl) nofun (.setB (by grind [chBase]) (.setB (by grind [chBase])
    (.setLine (.setHub (.setOh (.power_refl _))))))))

theorem PowerAt.chStop (h : PowerAt s ch pd p) {n : Nat} (hn : n < 4) :
    PowerAt (chStop n s) (setOn [n] 3 ch) (setOn (chPds n) 3 pd) (p.stopped n) := by
  have h1 : PowerAt (capTruncate n (loopClear n (Machine.accrue n s))) ch pd (p.stopped n) :=
    (h.accrue n).quiet (.capTruncate (.loopClear (.inl rfl) (.power_refl _)))
  exact ((h1.setCH hn (by decide)).eachPD (chPds_lt hn) (by decide)).quiet (quiet_chStop n s)

theorem PowerAt.chDarkened (h : PowerAt s ch pd p) {n : Nat} (hn : n < 4) :
    PowerAt (chDarkened n s) (setOn [n] 0 ch) (setOn (chPds n) 0 pd) (p.reached n) := by
  have h1 := (h.setCH hn (v := 0) (by decide)).eachPD (chPds_lt hn) (v := 0) (by decide)
  exact ((h1.quiet (.chContentsLost (.power_refl _))).chReached n).quiet (.chFollow nofun (.offer (.power_refl _)))

theorem PowerAt.chResting (h : PowerAt s ch pd p) {n : Nat} (hn : n < 4) :
    PowerAt (chResting n s) (setOn [n] 1 ch) (setOn [4 + n, 8 + n, 12 + n, 20 + n] 1 (setOn [16 + n] 2 pd)) (p.reached n) := by
  have h1 := ((h.setCH hn (v := 1) (by decide)).setPD (d := 16 + n) (v := 2) (by omega) (by decide)).eachPD
    (l := [4 + n, 8 + n, 12 + n, 20 + n]) (v := 1) (by grind) (by decide)
  exact ((h1.quiet (.muteFollow (.inl rfl) (.power_refl _))).chReached n).quiet (.chFollow nofun (.offer (.power_refl _)))

theorem PowerAt.running (h : PowerAt s ch pd p) (n : Nat) : PowerAt (s.setPwr { s.pwr with since := s.pwr.since.set (ch4 n) (some s.life) })
    ch pd (p.running n s.life) := by
  rw [← h.pwr]
  exact h.setPwr _

/-- The channel and its domains ON, and the time since which it is ACTIVE. -/
theorem PowerAt.chOn (h : PowerAt s ch pd p) {n : Nat} (hn : n < 4) {u : State}
    (hu : u = each (chPds n) (fun d s => Machine.setPD d 2 s) (s.setF (fCH n) 2)) :
    PowerAt (u.setPwr { u.pwr with since := u.pwr.since.set (ch4 n) (some u.life) }) (setOn [n] 2 ch) (setOn (chPds n) 2 pd)
      (p.running n s.life) := by
  have hlife : u.life = s.life := by rw [hu, eachPD_life, State.setF_life]
  rw [← hlife]
  refine PowerAt.running ?_ n
  rw [hu]
  exact (h.setCH hn (by decide)).eachPD (chPds_lt hn) (by decide)

theorem PowerAt.chActive (h : PowerAt s ch pd p) {n : Nat} (hn : n < 4) :
    PowerAt (chActive n s) (setOn [n] 2 ch) (setOn (chPds n) 2 pd) ((p.running n s.life).reached n) :=
  (((h.chOn hn rfl).quiet (.rxStart (.beginDwell (.framerStart (.power_refl _))))).chReached n).quiet
    (.chFollow nofun (.muteFollow (.inl rfl) (.offer (.power_refl _))))

theorem PowerAt.chExit (h : PowerAt s ch pd p) {n : Nat} (hn : n < 4) :
    PowerAt (chExit n s) (setOn [n] 2 ch) (setOn (chPds n) 2 pd) ((p.running n s.life).reached n) :=
  (((h.chOn hn rfl).quiet (.rxStart (.setLine (.setEng (.setOh (.power_refl _)))))).chReached n).quiet
    (.chFollow nofun (.muteFollow (.inl rfl) (.offer (.power_refl _))))

theorem PowerAt.chStart (h : PowerAt s ch pd p) {n : Nat} (hn : n < 4) :
    PowerAt (chStart n s) (setOn [n] 3 ch) (setOn (chPds n) 3 pd) p := by
  have h0 : PowerAt ({ setEng n { s.engOf n with cal := some s.free, corr := [] } s with free := s.free + 1 } : State) ch pd p := ⟨h.ch, h.pd, h.pwr⟩
  exact ((h0.setCH hn (by decide)).eachPD (chPds_lt hn) (by decide)).quiet (.convRestore (.power_refl _))

end
end Sys2Proof.Machine
end

/-! # Power states: the ends of changes, the start queue, reports and accounting -/
section
namespace Sys2Proof.Machine

open Sys2Proof

section
variable {s t : State} {ch pd : Nat → Nat} {p : PwrSt}

theorem mem_setOn {l : List Nat} {v : Nat} {f : Nat → Nat} {i : Nat} (h : i ∈ l) : setOn l v f i = v := if_pos h

theorem not_mem_setOn {l : List Nat} {v : Nat} {f : Nat → Nat} {i : Nat} (h : i ∉ l) : setOn l v f i = f i := if_neg h

/-- The power machinery without a start. -/
def PwrSt.without (p : PwrSt) (i : StartItem) : PwrSt :=
  { p with queue := p.queue.filter fun x => !decide (x = i), starting := p.starting.filter fun x => !decide (x = i) }

theorem PowerAt.unqueue (h : PowerAt s ch pd p) (i : StartItem) : PowerAt (unqueue i s) ch pd (p.without i) := by
  rw [← h.pwr]
  exact h.setPwr _

theorem contains_filter_ne (l : List StartItem) (i : StartItem) : (l.filter fun x => !decide (x = i)).contains i = false := by
  simp

/-! ### Channels (R402, R403) -/

theorem exec_channelActive (n : Ch) (s : State) (h : s.pwr.starting.contains (.channel n) = true) :
    exec (.channelActive n) s = .next (settle (targetDone 0x0600 (tChan n) none [] (chActive n (unqueue (.channel n) s)))) := by
  change execChannelActive n s = _
  rw [execChannelActive, State.isStarting, h]
  rfl

theorem exec_channelActive_idle (n : Ch) (s : State) (h : s.pwr.starting.contains (.channel n) = false) :
    exec (.channelActive n) s = .next (settle s) := by
  change execChannelActive n s = _
  rw [execChannelActive, State.isStarting, h]
  rfl

theorem chActive_started (n : Ch) (s : State) : let u := chActive n (unqueue (.channel n) s)
    u.fld (fCH n) = 2 ∧ (∀ d ∈ chPds n, u.fld (fPD d) = 2) ∧ u.pwr.target.get n = none ∧ u.pwr.since.get n = some s.life ∧
      u.pwr.starting.contains (.channel n) = false := by
  have h := ((PowerAt.self s).unqueue (.channel n)).chActive n.isLt
  refine ⟨(h.ch n n.isLt).trans (mem_setOn (by simp)), fun d hd => (h.pd d (chPds_lt n.isLt d hd)).trans (mem_setOn hd), ?_⟩
  rw [h.pwr]
  refine ⟨?_, ?_, ?_⟩
  · simp [PwrSt.reached]
  · simp [PwrSt.reached, PwrSt.running, Machine.unqueue]
  · exact contains_filter_ne _ _

/-! ### Lanes (R326, R329, R330, R404) -/

theorem nodup_span (a n : Nat) : (span a n).Nodup := by
  induction n generalizing a with
  | zero => exact .nil
  | succ n ih => exact List.nodup_cons.2 ⟨by rw [mem_span]; omega, ih _⟩

/-- The registers of the ports, and those of a lane with them. -/
def portRegs : List Nat := (span 0 64).map rHP_STATUS
def laneRegs (l : Nat) : List Nat := rHL_STATUS l :: rHL_LOOP l :: portRegs

/-- Work on lanes: some registers, and nothing that tells of a lane that it has FAILED. -/
structure LaneWork (L : List Nat) (r s : State) : Prop where
  regs : OnlyRegs L r s
  failed : ∀ j, (s.lane j).failed = (r.lane j).failed

section
variable {L M : List Nat} {r u : State} {l j : Nat}

theorem LaneWork.refl (s : State) : LaneWork L s s := ⟨.refl _ _, fun _ => rfl⟩

theorem LaneWork.trans (h : LaneWork L r s) (h' : LaneWork L s t) : LaneWork L r t :=
  ⟨h.regs.trans h'.regs, fun j => (h'.failed j).trans (h.failed j)⟩

theorem LaneWork.mono (h : LaneWork L r s) (hs : ∀ x ∈ L, x ∈ M) : LaneWork M r s := ⟨h.regs.mono hs, h.failed⟩

theorem LaneWork.ite {c : Prop} {_ : Decidable c} (hs : LaneWork L r s) (ht : LaneWork L r t) : LaneWork L r (if c then s else t) := by
  split
  · exact hs
  · exact ht

theorem LaneWork.setF (h : LaneWork L r s) {f : Fld} {v : Nat} (hf : f.reg ∈ L) : LaneWork L r (s.setF f v) := ⟨h.regs.setF v hf, h.failed⟩

theorem LaneWork.setB (h : LaneWork L r s) {f : Fld} {b : Bool} (hf : f.reg ∈ L) : LaneWork L r (s.setB f b) := ⟨h.regs.setB b hf, h.failed⟩

theorem LaneWork.offer (h : LaneWork L r s) {code block p0 p1 : Nat} : LaneWork L r (offer code block p0 p1 s) :=
  ⟨h.regs.offer _ _ _ _, fun j => by rw [State.lane, offer_other]; exact h.failed j⟩

/-- A lane's working state that keeps whether it has FAILED. -/
theorem LaneWork.setLane (h : LaneWork L r s) {x : LaneSt} (hx : x.failed = (s.lane l).failed) : LaneWork L r (s.setLane l x) := by
  refine ⟨h.regs.trans (.of_regs rfl), fun j => Eq.trans ?_ (h.failed j)⟩
  rw [State.lane, State.setLane, smGet_smSet]
  split
  next hj => rw [hj, hx]
  · rfl

theorem mem_portRegs (h : l < 64) : rHP_STATUS l ∈ portRegs := List.mem_map.2 ⟨l, (mem_span _ _ _).2 (by omega), rfl⟩

theorem portRegs_sub (l : Nat) : ∀ x ∈ portRegs, x ∈ laneRegs l := fun _ hx => List.mem_cons_of_mem _ (List.mem_cons_of_mem _ hx)

theorem status_mem (l : Nat) : rHL_STATUS l ∈ laneRegs l := List.mem_cons_self

theorem loop_mem (l : Nat) : rHL_LOOP l ∈ laneRegs l := List.mem_cons_of_mem _ List.mem_cons_self

/-- No other register is the status or the configuration of a lane. -/
theorem status_notMem_portRegs (hj : j < 64) : rHL_STATUS j ∉ portRegs := by
  intro h
  obtain ⟨k, -, hk⟩ := List.mem_map.1 h
  grind

theorem status_notMem (hj : j < 64) (hne : j ≠ l) : rHL_STATUS j ∉ laneRegs l := by
  intro h
  rcases List.mem_cons.1 h with h | h
  · grind
  rcases List.mem_cons.1 h with h | h
  · grind
  · exact status_notMem_portRegs hj h

theorem config_notMem (hj : j < 64) : rHL_CFG j ∉ laneRegs l := by
  intro h
  rcases List.mem_cons.1 h with h | h
  · grind
  rcases List.mem_cons.1 h with h | h
  · grind
  · obtain ⟨k, -, hk⟩ := List.mem_map.1 h
    grind

theorem LaneWork.laneSt (h : LaneWork L r s) (hj : rHL_STATUS j ∉ L) : s.laneSt j = r.laneSt j :=
  h.regs.fld (f := fHL_STATUS_STATE j) (by grind) hj

theorem LaneWork.role (h : LaneWork (laneRegs l) r s) (hj : j < 64) : s.fld (fHL_CFG_ROLE j) = r.fld (fHL_CFG_ROLE j) :=
  h.regs.fld (f := fHL_CFG_ROLE j) (by grind) (config_notMem hj)

theorem LaneWork.laneLoopClear (h : LaneWork L r s) (hl : rHL_LOOP l ∈ L) : LaneWork L r (laneLoopClear l s) :=
  .ite h (.offer (.setF h hl))

theorem LaneWork.laneTo (h : LaneWork L r s) {st : Nat} (hs : rHL_STATUS l ∈ L) (hl : rHL_LOOP l ∈ L) : LaneWork L r (laneTo l st s) :=
  .ite h (.offer (.setF (.ite (.laneLoopClear h hl) h) hs))

theorem laneSt_laneTo (l st : Nat) (s : State) (hst : st < 8) : (laneTo l st s).laneSt l = st := by
  rw [laneTo]
  split
  next h => exact h
  next h =>
    rw [State.laneSt, fld_offer _ _ _ _ _ _ (by grind), State.fld_setF_same _ _ _ (by simp [Fld.ok])]
    exact Nat.mod_eq_of_lt hst

theorem LaneWork.portLocks (h : LaneWork L r s) {am pcs cal : Bool} (hl : rHP_STATUS l ∈ L) : LaneWork L r (portLocks l am pcs cal s) := by
  have h1 : LaneWork L r (if am && pcs then s else s.setLane l { s.lane l with cal := CalRx.init }) := .ite h (.setLane h (by rfl))
  exact .ite h1 (.offer (.setF (.setB (.setB (.setB h1 hl) hl) hl) hl))

theorem LaneWork.portLost (h : LaneWork L r s) (hl : l < 64) (hL : ∀ x ∈ portRegs, x ∈ L) : LaneWork L r (portLost l s) := by
  rw [Machine.portLost]
  split
  next k hk =>
    have hk := (mem_span _ _ _).1 (List.mem_of_find?_eq_some hk)
    exact .ite h (.portLocks h (hL _ (mem_portRegs (by omega))))
  · exact h

/-- A change of a port leaves every lane its state. -/
theorem laneSt_portLost (hl : l < 64) (hj : j < 64) (s : State) : (portLost l s).laneSt j = s.laneSt j :=
  ((LaneWork.refl s).portLost (L := portRegs) hl fun _ h => h).laneSt (status_notMem_portRegs hj)

theorem LaneWork.laneTrain (h : LaneWork L r s) (hl : l < 64) (hs : rHL_STATUS l ∈ L) (ho : rHL_LOOP l ∈ L) (hL : ∀ x ∈ portRegs, x ∈ L) :
    LaneWork L r (laneTrain l s) :=
  .portLost (.laneTo (.setB (.setB (.setLane h (by rfl)) hs) hs) hs ho) hl hL

theorem laneSt_laneTrain (hl : l < 64) (s : State) : (laneTrain l s).laneSt l = 1 := by
  rw [laneTrain, laneSt_portLost hl hl, laneSt_laneTo _ _ _ (by decide)]

theorem LaneWork.laneSet (h : LaneWork L r s) {st : Nat} (hl : l < 64) (hs : rHL_STATUS l ∈ L) (ho : rHL_LOOP l ∈ L)
    (hL : ∀ x ∈ portRegs, x ∈ L) : LaneWork L r (laneSet st l s) :=
  .ite (.ite (.laneTo h hs ho) (.ite (.laneTo h hs ho) (.ite (.laneTrain h hl hs ho hL) h)))
    (.ite h (.portLost (.laneTo (.setLane (.setB (.setB h hs) hs) (by rfl)) hs ho) hl hL))

theorem laneWork_laneSet (st : Nat) (hl : l < 64) (s : State) : LaneWork (laneRegs l) s (laneSet st l s) :=
  .laneSet (.refl s) hl (status_mem l) (loop_mem l) (portRegs_sub l)

/-- What a lane shows after a command, of what it showed and whether it has FAILED. -/
def laneGoal (st old : Nat) (failed : Bool) : Nat :=
  if st ≠ 0 then 4 + st else if failed then 7 else if old = 5 then 4 else if old = 6 then 1 else old

theorem laneSt_laneSet (st : Nat) (hst : st < 3) (hl : l < 64) (s : State) :
    (laneSet st l s).laneSt l = laneGoal st (s.laneSt l) (s.lane l).failed := by
  rw [laneSet, laneGoal]
  by_cases h0 : st = 0
  · rw [if_pos h0, if_neg (not_not.2 h0)]
    split
    · exact laneSt_laneTo _ _ _ (by decide)
    split
    · exact laneSt_laneTo _ _ _ (by decide)
    split
    · exact laneSt_laneTrain hl s
    · rfl
  · rw [if_neg h0, if_pos h0]
    split
    next h => exact h
    · rw [laneSt_portLost hl hl, laneSt_laneTo _ _ _ (by omega)]

/-- A walk over lanes each of which is worked on by itself: what each shows is what it comes to from the first state. -/
theorem laneSt_each {f : Nat → State → State} {v : Nat → State → Nat} (hf : ∀ l, l < 64 → ∀ s, LaneWork (laneRegs l) s (f l s))
    (hv : ∀ l, l < 64 → ∀ s, (f l s).laneSt l = v l s) (hk : ∀ l k, l < 64 → k < 64 → l ≠ k → ∀ s, v l (f k s) = v l s)
    {ls : List Nat} (hls : ∀ l ∈ ls, l < 64) (hn : ls.Nodup) (s : State) (hj : j < 64) :
    (each ls f s).laneSt j = if j ∈ ls then v j s else s.laneSt j := by
  induction ls generalizing s with
  | nil => rfl
  | cons l ls ih =>
    obtain ⟨hl, hn⟩ := List.nodup_cons.1 hn
    have hl64 := hls l List.mem_cons_self
    have step := ih (fun k hk => hls k (List.mem_cons_of_mem l hk)) hn (f l s)
    change (each ls f (f l s)).laneSt j = _
    rw [step]
    by_cases hjl : j = l
    · rw [hjl, if_neg hl, if_pos List.mem_cons_self, hv l hl64]
    · rw [((hf l hl64 s).laneSt (status_notMem hj hjl)), hk j l hj hl64 hjl]
      simp only [List.mem_cons, hjl, false_or]

theorem laneSt_eachSet (st : Nat) (hst : st < 3) {ls : List Nat} (hls : ∀ l ∈ ls, l < 64) (hn : ls.Nodup) (s : State) (hj : j < 64) :
    (each ls (laneSet st) s).laneSt j = if j ∈ ls then laneGoal st (s.laneSt j) (s.lane j).failed else s.laneSt j :=
  laneSt_each (fun l hl s => laneWork_laneSet st hl s) (fun l hl s => laneSt_laneSet st hst hl s)
    (fun l k hl hk hne s => by
      have h := laneWork_laneSet st hk s
      rw [h.laneSt (status_notMem hl hne), h.failed])
    hls hn s hj

/-- A lane of a quad that starts. -/
def laneUp (l : Nat) (s : State) : State :=
  laneTo l (if s.fld (fHL_CFG_ROLE l) = 0 then 6 else if (s.lane l).failed then 7 else 1) (laneFresh l s)

theorem LaneWork.laneUp (h : LaneWork L r s) (hs : rHL_STATUS l ∈ L) (ho : rHL_LOOP l ∈ L) : LaneWork L r (laneUp l s) :=
  .laneTo (.setLane h (by rfl)) hs ho

theorem laneWork_laneUp (l : Nat) (s : State) : LaneWork (laneRegs l) s (laneUp l s) := .laneUp (.refl s) (status_mem l) (loop_mem l)

theorem laneSt_eachUp {ls : List Nat} (hls : ∀ l ∈ ls, l < 64) (hn : ls.Nodup) (s : State) (hj : j ∈ ls) :
    (each ls laneUp s).laneSt j = if s.fld (fHL_CFG_ROLE j) = 0 then 6 else if (s.lane j).failed then 7 else 1 := by
  have h := laneSt_each (j := j) (v := fun l s => if s.fld (fHL_CFG_ROLE l) = 0 then 6 else if (s.lane l).failed then 7 else 1)
    (fun l _ s => laneWork_laneUp l s) (fun l _ s => laneSt_laneTo _ _ _ (by split <;> [decide; (split <;> decide)]))
    (fun l k hl _ _ s => by simp only [(laneWork_laneUp k s).role hl, (laneWork_laneUp k s).failed l]) hls hn s (hls j hj)
  rw [h, if_pos hj]

theorem OnlyRegs.monReset (h : OnlyRegs L r s) {i : Nat} (at0 : Option (BitVec 64)) (hi : rMON_IN_LAST i ∈ L) :
    OnlyRegs L r (monReset i at0 s) := by
  refine .setB ?_ _ hi
  have hg : ∀ t : State, (gapAnew i t).regs = t.regs := fun t => by rw [gapAnew]; split <;> rfl
  exact h.trans (.of_regs (hg _))

theorem OnlyRegs.monSources (h : OnlyRegs L r s) (hL : ∀ i, i < 64 → rMON_IN_LAST i ∈ L) : OnlyRegs L r (monSources s) := by
  refine .ite h (.each h _ fun i hi u hu => ?_)
  have hm := hL i (by rw [mem_span] at hi; omega)
  exact .ite hu (.ite (.setB hu _ hm) (.monReset (.setB hu _ hm) _ hm))

end

/-! ### The start queue (R79) -/

theorem PowerAt.settle (h : PowerAt s ch pd p) : PowerAt (settle s) ch pd p :=
  ⟨fun n hn => (fld_settle _ _).trans (h.ch n hn), fun d hd => (fld_settle _ _).trans (h.pd d hd), (settle_pwr s).trans h.pwr⟩

/-- The power machinery as a start leaves the queue at a time. -/
def PwrSt.dispatched (p : PwrSt) (i : StartItem) (at0 : BitVec 64) : PwrSt :=
  { p with queue := p.queue.filter (fun x => !decide (x = i)), starting := p.starting ++ [i], lastAny := some at0 }

theorem quadStart_eq (q : Nat) (s : State) :
    quadStart q s = monSources (domRecord (24 + q) true (each (quadLanes q) laneUp (setPD (24 + q) 2 s))) := rfl

theorem Quiet.laneUp {r : State} {l : Nat} (h : Quiet .power r s) : Quiet .power r (laneUp l s) := .laneTo (.laneFresh h)

theorem PowerAt.quadStart (h : PowerAt s ch pd p) {q : Nat} (hq : q < 4) : PowerAt (quadStart q s) ch (setOn [24 + q] 2 pd) p :=
  (h.setPD (by omega) (by decide)).quiet (.monSources (.domRecord (.each (fun _ _ ht => .laneUp ht) (.power_refl _))))

theorem quadLanes_lt {q : Nat} (hq : q < 4) : ∀ l ∈ quadLanes q, l < 64 := by
  intro l hl
  rw [quadLanes, mem_span] at hl
  omega

/-- The lanes of a quad that starts. -/
theorem laneSt_quadStart {q l : Nat} (hq : q < 4) (hl : l ∈ quadLanes q) (s : State) :
    (quadStart q s).laneSt l = if s.fld (fHL_CFG_ROLE l) = 0 then 6 else if (s.lane l).failed then 7 else 1 := by
  have hlt := quadLanes_lt hq l hl
  have hmon : ∀ t : State, (monSources t).laneSt l = t.laneSt l := fun t =>
    (OnlyRegs.monSources (L := (span 0 64).map rMON_IN_LAST) (.refl _ t) fun i hi => List.mem_map.2 ⟨i, (mem_span _ _ _).2 (by omega), rfl⟩).fld
      (f := fHL_STATUS_STATE l) (by grind) (by
        intro hm
        obtain ⟨i, hi, he⟩ := List.mem_map.1 hm
        rw [mem_span] at hi
        grind)
  have hpd : ∀ f : Fld, f.reg ≠ rPWR_DOMAIN_B → (setPD (24 + q) 2 s).fld f = s.fld f := fun f hf =>
    State.fld_setF_reg _ _ _ _ (by change _ ≠ (if 24 + q < 16 then _ else _); rw [if_neg (by omega)]; exact hf)
  rw [quadStart_eq, hmon, domRecord, State.laneSt, fld_offer _ _ _ _ _ _ (by grind)]
  refine (laneSt_eachUp (quadLanes_lt hq) (nodup_span _ _) _ hl).trans ?_
  rw [hpd _ (by grind)]
  rfl

theorem ok_eq (s : State) : ok s = .next (settle s) := rfl

theorem exec_startQueueDispatch_none (s : State) (h : s.pwr.queue.find? s.spaced = none) : exec .startQueueDispatch s = .next (settle s) := by
  change execStartQueueDispatch s = _
  rw [execStartQueueDispatch, h, ← ok_eq]

theorem exec_startQueueDispatch_some (s : State) {i : StartItem} (h : s.pwr.queue.find? s.spaced = some i) :
    exec .startQueueDispatch s = .next (settle (dispatch i s)) := by
  change execStartQueueDispatch s = _
  rw [execStartQueueDispatch, h, ← ok_eq]

theorem powerAt_dispatchQuad (q : Ch) (s : State) : PowerAt (dispatch (.quad q) s) (fun n => s.fld (fCH n))
    (setOn [24 + q.val] 2 fun d => s.fld (fPD d))
    { s.pwr.dispatched (.quad q) s.life with lastQuad := some s.life } := ((PowerAt.self s).setPwr _).quadStart q.isLt

theorem powerAt_dispatchChannel (n : Ch) (s : State) :
    PowerAt (dispatch (.channel n) s) (setOn [n.val] 3 fun n => s.fld (fCH n)) (setOn (chPds n) 3 fun d => s.fld (fPD d))
      { s.pwr.dispatched (.channel n) s.life with lastChan := some s.life } := ((PowerAt.self s).setPwr _).chStart n.isLt

/-- Whatever starts, it leaves the queue. -/
theorem dispatch_pwr (i : StartItem) (s : State) : (dispatch i s).pwr.queue = s.pwr.queue.filter (fun x => !decide (x = i)) ∧
    (dispatch i s).pwr.starting = s.pwr.starting ++ [i] ∧ (dispatch i s).pwr.lastAny = some s.life := by
  cases i with
  | quad q => rw [(powerAt_dispatchQuad q s).pwr]; exact ⟨rfl, rfl, rfl⟩
  | channel n => rw [(powerAt_dispatchChannel n s).pwr]; exact ⟨rfl, rfl, rfl⟩
  | domain d => exact ⟨rfl, rfl, rfl⟩

theorem dispatch_quad_lanes (q : Ch) (s : State) {l : Nat} (hl : l ∈ quadLanes q) :
    (dispatch (.quad q) s).laneSt l = if s.fld (fHL_CFG_ROLE l) = 0 then 6 else if (s.lane l).failed then 7 else 1 :=
  laneSt_quadStart q.isLt hl _

theorem spaced_any {i : StartItem} (h : s.spaced i = true) : s.sinceNs s.pwr.lastAny 2000000 = true := (Bool.and_eq_true_iff.1 h).1

theorem spaced_channel {n : Ch} (h : s.spaced (.channel n) = true) : s.sinceNs s.pwr.lastChan 40000000 = true := (Bool.and_eq_true_iff.1 h).2

theorem spaced_quad {q : Ch} (h : s.spaced (.quad q) = true) : s.sinceNs s.pwr.lastQuad 10000000 = true := (Bool.and_eq_true_iff.1 h).2

theorem sinceNs_some {a : BitVec 64} {ns : Nat} (h : s.sinceNs (some a) ns = true) : a.toNat + ns ≤ s.life.toNat := of_decide_eq_true h

theorem startQueue (s : State) : (s.pwr.queue.find? s.spaced = none → exec .startQueueDispatch s = .next (settle s)) ∧
    (∀ i, s.pwr.queue.find? s.spaced = some i → Completes .startQueueDispatch s fun t => t.pwr.queue = s.pwr.queue.filter (fun x => !decide (x = i)) ∧
      t.pwr.starting = s.pwr.starting ++ [i] ∧ t.pwr.lastAny = some s.life ∧
      (∀ n : Ch, i = .channel n → t.fld (fCH n) = 3 ∧ (∀ d ∈ chPds n, t.fld (fPD d) = 3) ∧ t.pwr.lastChan = some s.life) ∧
      (∀ x : Ch, i = .quad x → t.fld (fPD (24 + x)) = 2 ∧ t.pwr.lastQuad = some s.life ∧
        ∀ l ∈ quadLanes x, t.laneSt l = if s.fld (fHL_CFG_ROLE l) = 0 then 6 else if (s.lane l).failed then 7 else 1)) ∧
    (∀ i a, s.pwr.lastAny = some a → s.spaced i = true → a.toNat + 2000000 ≤ s.life.toNat) ∧
    (∀ n a, s.pwr.lastChan = some a → s.spaced (.channel n) = true → a.toNat + 40000000 ≤ s.life.toNat) ∧
    (∀ n a, s.pwr.lastQuad = some a → s.spaced (.quad n) = true → a.toNat + 10000000 ≤ s.life.toNat) := by
  refine ⟨exec_startQueueDispatch_none s, fun i h => ⟨_, exec_startQueueDispatch_some s h, ?_⟩, fun i a ha h => ?_, fun n a ha h => ?_,
      fun n a ha h => ?_⟩
  · obtain ⟨hq, hs, ha⟩ := dispatch_pwr i s
    refine ⟨by rw [settle_pwr, hq], by rw [settle_pwr, hs], by rw [settle_pwr, ha], fun n hi => ?_, fun x hi => ?_⟩
    · subst hi
      have hp := (powerAt_dispatchChannel n s).settle
      exact ⟨(hp.ch n n.isLt).trans (mem_setOn (by simp)), fun d hd => (hp.pd d (chPds_lt n.isLt d hd)).trans (mem_setOn hd), by rw [hp.pwr]⟩
    · subst hi
      have hp := (powerAt_dispatchQuad x s).settle
      refine ⟨(hp.pd _ (by omega)).trans (mem_setOn (by simp)), by rw [hp.pwr], fun l hl => ?_⟩
      rw [State.laneSt, fld_settle]
      exact dispatch_quad_lanes x s hl
  · exact sinceNs_some (ha ▸ spaced_any h)
  · exact sinceNs_some (ha ▸ spaced_channel h)
  · exact sinceNs_some (ha ▸ spaced_quad h)

/-! ### The ends of changes (R403, R404) -/

theorem exec_channelTransition_dark (n : Ch) (s : State) (h : s.pwr.target.get n = some 0) :
    exec (.channelTransitionComplete n) s = .next (settle (targetDone 0x0600 (tChan n) none [] (chDarkened n s))) := by
  change execChannelTransitionComplete n s = _
  simp only [execChannelTransitionComplete, h, ok_eq]

theorem exec_channelTransition_rest (n : Ch) (s : State) (h : s.pwr.target.get n = some 1) :
    exec (.channelTransitionComplete n) s = .next (settle (targetDone 0x0600 (tChan n) none [] (chResting n s))) := by
  change execChannelTransitionComplete n s = _
  simp only [execChannelTransitionComplete, h, ok_eq]

theorem exec_channelTransition_exit (n : Ch) (s : State) (k : Nat) (h : s.pwr.target.get n = some (k + 2)) (he : s.pwr.exits.head? = some n.val) :
    exec (.channelTransitionComplete n) s = .next (settle (targetDone 0x0600 (tChan n) none [] (chExit n s))) := by
  change execChannelTransitionComplete n s = _
  simp only [execChannelTransitionComplete, h, he, if_true, ok_eq]

theorem exec_channelTransition_idle (n : Ch) (s : State)
    (h : s.pwr.target.get n = none ∨ ∃ k, s.pwr.target.get n = some (k + 2) ∧ s.pwr.exits.head? ≠ some n.val) :
    exec (.channelTransitionComplete n) s = .next (settle s) := by
  change execChannelTransitionComplete n s = _
  rcases h with h | ⟨k, h, he⟩
  · simp only [execChannelTransitionComplete, h, ok_eq]
  · simp only [execChannelTransitionComplete, h, he, if_false, ok_eq]

theorem reached_target (p : PwrSt) (n : Ch) : (p.reached n).target.get n = none := by simp [PwrSt.reached]

theorem channelTransition (n : Ch) (s : State) :
    let ends := fun (post : State → Prop) => ∃ u, exec (.channelTransitionComplete n) s = .next (settle (targetDone 0x0600 (tChan n) none [] u)) ∧
      u.pwr.target.get n = none ∧ post u
    (s.pwr.target.get n = some 0 → ends fun u => u.fld (fCH n) = 0 ∧ ∀ d ∈ chPds n, u.fld (fPD d) = 0) ∧
    (s.pwr.target.get n = some 1 → ends fun u => u.fld (fCH n) = 1 ∧ u.fld (fPD (16 + n)) = 2 ∧ ∀ d ∈ chPds n, d ≠ 16 + n.val → u.fld (fPD d) = 1) ∧
    (∀ k, s.pwr.target.get n = some (k + 2) → s.pwr.exits.head? = some n.val → ends fun u => u.fld (fCH n) = 2 ∧ ∀ d ∈ chPds n, u.fld (fPD d) = 2) ∧
    ((s.pwr.target.get n = none ∨ ∃ k, s.pwr.target.get n = some (k + 2) ∧ s.pwr.exits.head? ≠ some n.val) →
      exec (.channelTransitionComplete n) s = .next (settle s)) := by
  intro ends
  have hself : n.val ∈ [n.val] := by simp
  refine ⟨fun h => ⟨_, exec_channelTransition_dark n s h, ?_⟩, fun h => ⟨_, exec_channelTransition_rest n s h, ?_⟩,
    fun k h he => ⟨_, exec_channelTransition_exit n s k h he, ?_⟩, exec_channelTransition_idle n s⟩
  · have hp := (PowerAt.self s).chDarkened n.isLt
    exact ⟨by rw [hp.pwr, reached_target], (hp.ch n n.isLt).trans (mem_setOn hself),
      fun d hd => (hp.pd d (chPds_lt n.isLt d hd)).trans (mem_setOn hd)⟩
  · have hp := (PowerAt.self s).chResting n.isLt
    have hn := n.isLt
    refine ⟨by rw [hp.pwr, reached_target], (hp.ch n n.isLt).trans (mem_setOn hself), ?_, fun d hd hne => ?_⟩
    · rw [hp.pd _ (by omega), not_mem_setOn (by simp), mem_setOn (by simp)]
    · rw [hp.pd d (chPds_lt n.isLt d hd)]
      exact mem_setOn ((List.mem_cons.1 hd).resolve_left hne)
  · have hp := (PowerAt.self s).chExit n.isLt
    exact ⟨by rw [hp.pwr, reached_target], (hp.ch n n.isLt).trans (mem_setOn hself),
      fun d hd => (hp.pd d (chPds_lt n.isLt d hd)).trans (mem_setOn hd)⟩

theorem exec_quadReachesL0 (c : Ch) (s : State) (h : s.pwr.starting.contains (.quad c) = true ∧
    ∀ l ∈ quadLanes c, s.laneSt l = 4 ∨ s.fld (fHL_CFG_ROLE l) = 0) :
    exec (.quadReachesL0 c) s = .next (settle (targetDone 0x0600 (tDom (24 + c)) none [] (unqueue (.quad c) s))) := by
  change execQuadReachesL0 c s = _
  have hall : ((quadLanes c).all fun l => s.laneSt l == 4 || s.fld (fHL_CFG_ROLE l) == 0) = true := by
    simpa [List.all_eq_true] using h.2
  rw [execQuadReachesL0, State.isStarting, h.1, hall]
  rfl

theorem exec_quadReachesL0_idle (c : Ch) (s : State) (h : ¬ (s.pwr.starting.contains (.quad c) = true ∧
    ∀ l ∈ quadLanes c, s.laneSt l = 4 ∨ s.fld (fHL_CFG_ROLE l) = 0)) : exec (.quadReachesL0 c) s = .next (settle s) := by
  change execQuadReachesL0 c s = _
  have hcond : (!s.isStarting (.quad c) || !((quadLanes c).all fun l => s.laneSt l == 4 || s.fld (fHL_CFG_ROLE l) == 0)) = true := by
    rw [← Bool.not_and, Bool.not_eq_true', ← Bool.not_eq_true, Bool.and_eq_true, List.all_eq_true]
    simpa [State.isStarting] using h
  rw [execQuadReachesL0, hcond]
  rfl

theorem PowerAt.domOn (h : PowerAt s ch pd p) {d : Nat} (hd : d < 32) : PowerAt (domOn d s) ch (setOn [d] 2 pd) p :=
  (h.setPD hd (by decide)).quiet (.ite (.monStart (.domRecord (.power_refl _))) (.ite (.startCores (.domRecord (.power_refl _)))
    (.monSources (.each (fun _ _ ht => .mergeStart ht) (.domRecord (.power_refl _))))))

theorem not_inQuad (q : Nat) {off : Nat} (h : Realm.power.holds off) : inQuad q off = false := by
  have hd : regDomain off = none := by
    unfold regDomain
    grind
  rw [inQuad, hd]
  rfl

theorem PowerAt.quadDark (h : PowerAt s ch pd p) {q : Nat} (hq : q < 4) : PowerAt (quadDark q s) ch (setOn [24 + q] 0 pd) p :=
  (h.setPD (by omega) (by decide)).quiet (.monSources (.domRecord (.statusReset (.each (fun _ _ ht => .laneFresh ht) (.power_refl _))
    fun _ ho => not_inQuad q ho)))

theorem PowerAt.hbmDark (h : PowerAt s ch pd p) : PowerAt (hbmDark s) ch (setOn [31] 0 (setOn [30] 0 pd)) p :=
  (((h.quiet (.hbmLost (.power_refl _))).setPD (d := 30) (by decide) (by decide)).setPD (d := 31) (by decide) (by decide)).quiet
    (.monSources (.domRecord (.domRecord (.power_refl _))))

theorem PowerAt.enqueue (h : PowerAt s ch pd p) (i : StartItem) : PowerAt (enqueue i s) ch pd { p with queue := p.queue ++ [i] } := by
  rw [← h.pwr]
  exact h.setPwr _

/-- A domain that is off and does not wait is to start. -/
theorem PowerAt.queueDomain (h : PowerAt s ch pd p) {d : Nat} (hd : d < 32) (h0 : pd d = 0) (hq : StartItem.domain d ∉ p.queue) :
    PowerAt (queueDomain d s) ch (if d = 30 then setOn [31] 3 (setOn [30] 3 pd) else setOn [d] 3 pd) { p with queue := p.queue ++ [.domain d] } := by
  have hcond : ¬ (s.fld (fPD d) != 0 || s.pwr.queue.contains (.domain d)) = true := by
    rw [h.pd d hd, h.pwr, h0]
    simpa using hq
  rw [Machine.queueDomain, if_neg hcond]
  refine PowerAt.enqueue ?_ _
  split
  · exact (h.setPD (by decide) (by decide)).setPD (by decide) (by decide)
  · exact h.setPD hd (by decide)

theorem not_ctxReg {off : Nat} (h : Realm.power.holds off) : ctxReg off = false := by grind [ctxReg]

/-- The ciphers as their domain has gone dark, but for a start that follows. -/
theorem Quiet.cphEmptied {r : State} (h : Quiet .power r s) : Quiet .power r (Machine.cphGate (Machine.dropRegs ctxReg (Machine.zeroiseAll s))) :=
  .cphGate (.dropRegs (.zeroiseAll h) fun _ ho => not_ctxReg ho)

theorem regDomain_power {off : Nat} (h : Realm.power.holds off) : regDomain off = none := by
  unfold regDomain
  grind

theorem domDark_monitor (s : State) : domDark 3 s = monSources (domRecord 3 false
    (statusReset (fun off => regDomain off == some 3) ((setPD 3 0 s).setMon (setPD 3 0 s).mon.fresh))) := rfl

/-- The keys' words of the SRAM without a flip. -/
def flipsButKeys (m : MemSt) : MemSt := { m with flips := m.flips.filter fun f => f.1 != stKEYS }

theorem domDark_cipher (s : State) : domDark 29 s = monSources (domRecord 29 false (cphLost ((setPD 29 0 s).setMem (flipsButKeys s.mem)))) := rfl

/-- The merge and what it holds in SRAM, emptied. -/
def mergeEmptied (s : State) : State :=
  let t := endBlock 0x11 (endBlock 0x10 { s with mrg := Two.all MrgSt.init })
  t.setMem { t.mem with flips := t.mem.flips.filter fun f => f.1 < 5 || decide (8 < f.1) }

theorem domDark_merge (s : State) : domDark 28 s = monSources (domRecord 28 false
    (statusReset (fun off => regDomain off == some 28) (mergeEmptied (setPD 28 0 s)))) := rfl

theorem Quiet.mergeEmptied {κ : Realm} {r : State} (h : Quiet κ r s) : Quiet κ r (mergeEmptied s) :=
  .withMem (.endBlock (.endBlock (.withMrg h)))

theorem PowerAt.domDark (h : PowerAt s ch pd p) {d : Nat} (hd : d = 3 ∨ d = 28) : PowerAt (Machine.domDark d s) ch (setOn [d] 0 pd) p := by
  have hreset : ∀ x off, Realm.power.holds off → (regDomain off == some x) = false := fun x off ho => by rw [regDomain_power ho]; rfl
  rcases hd with rfl | rfl
  · rw [domDark_monitor]
    exact (h.setPD (by decide) (by decide)).quiet (.monSources (.domRecord (.statusReset (.setMon (.power_refl _)) (hreset 3))))
  · rw [domDark_merge]
    exact (h.setPD (by decide) (by decide)).quiet (.monSources (.domRecord (.statusReset (.mergeEmptied (.power_refl _)) (hreset 28))))

theorem cphLost_quiet (s : State) (hk : s.cph.kek = none) : Quiet .power s (cphLost s) := by
  rw [cphLost, hk]
  exact .cphEmptied (.power_refl s)

theorem cphLost_again (s : State) (hk : s.cph.kek ≠ none) :
    cphLost s = queueDomain 29 (cphGate (dropRegs ctxReg (zeroiseAll s))) := if_pos (Option.isSome_iff_ne_none.2 hk)

/-- The cipher domain goes dark, without a KEK. -/
theorem PowerAt.cphDark (h : PowerAt s ch pd p) (hk : s.cph.kek = none) : PowerAt (Machine.domDark 29 s) ch (setOn [29] 0 pd) p := by
  rw [domDark_cipher]
  exact (h.setPD (by decide) (by decide)).quiet (.monSources (.domRecord (.trans (.withMem (.power_refl _)) (cphLost_quiet _ hk))))

/-- The cipher domain goes dark with a KEK that came after the command: it starts again. -/
theorem PowerAt.cphAgain (h : PowerAt s ch pd p) (hk : s.cph.kek ≠ none) (hq : StartItem.domain 29 ∉ p.queue) :
    PowerAt (Machine.domDark 29 s) ch (setOn [29] 3 (setOn [29] 0 pd)) { p with queue := p.queue ++ [.domain 29] } := by
  have h0 := (h.setPD (d := 29) (v := 0) (by decide) (by decide)).quiet
    (.cphEmptied (.state_setMem (x := flipsButKeys s.mem) (.power_refl _)))
  have h1 := h0.queueDomain (by decide) (mem_setOn (by simp)) hq
  rw [domDark_cipher, cphLost_again ((Machine.setPD 29 0 s).setMem (flipsButKeys s.mem)) hk]
  exact h1.quiet (.monSources (.domRecord (.power_refl _)))

/-! What a domain shows as its transition ends. -/

section
variable (d : Fin 32)

theorem exec_domainTransition_started (h : d.val = 3 ∨ (24 ≤ d.val ∧ d.val < 31)) (h3 : s.fld (fPD d) = 3) (h5 : 5 ≤ s.stage)
    (hup : s.pwr.starting.contains (.domain d) = true) (hd : d.val ≠ 30) : exec (.domainTransitionComplete d) s =
      .next (settle (targetDone 0x0600 (tDom d) none [] (domOn d (unqueue (.domain d) s)))) := by
  change execDomainTransitionComplete d s = _
  rw [execDomainTransitionComplete, if_neg (by simp [h3]; omega), State.isStarting, if_pos hup, if_neg hd, ok_eq]

/-- A domain that waits for a start, or for READY. -/
def State.domWaits (s : State) (d : Nat) : Prop := s.pwr.queue.contains (.domain d) = true ∨
  (24 ≤ d ∧ d < 28 ∧ s.pwr.queue.contains (.quad (ch4 (d - 24))) = true) ∨ (d = 30 ∧ s.ready = false)

theorem domWaits_iff (s : State) (d : Nat) : (s.pwr.queue.contains (.domain d) ||
    (24 ≤ d && d < 28 && s.pwr.queue.contains (.quad (ch4 (d - 24)))) || (d = 30 && !s.ready)) = true ↔ s.domWaits d := by
  simp only [Bool.or_eq_true, Bool.and_eq_true, decide_eq_true_eq, Bool.not_eq_true', State.domWaits, and_assoc, or_assoc]

theorem exec_domainTransition_stopped (h : d.val = 3 ∨ (24 ≤ d.val ∧ d.val < 31)) (h3 : s.fld (fPD d) = 3) (h5 : 5 ≤ s.stage)
    (hup : ¬ s.pwr.starting.contains (.domain d) = true) (hw : ¬ s.domWaits d) : exec (.domainTransitionComplete d) s =
      .next (settle (targetDone 0x0600 (tDom d) none [] (wentDark d s))) := by
  change execDomainTransitionComplete d s = _
  rw [execDomainTransitionComplete, if_neg (by simp [h3]; omega), State.isStarting, if_neg hup, if_neg (mt (domWaits_iff s d).1 hw), ok_eq]

theorem exec_domainTransition_idle (h : ¬ (d.val = 3 ∨ (24 ≤ d.val ∧ d.val < 31)) ∨ s.fld (fPD d) ≠ 3 ∨ s.stage < 5 ∨
    (s.pwr.starting.contains (.domain d) = true ∧ d.val = 30) ∨ (¬ s.pwr.starting.contains (.domain d) = true ∧ s.domWaits d)) :
    exec (.domainTransitionComplete d) s = .next (settle s) := by
  change execDomainTransitionComplete d s = _
  rw [execDomainTransitionComplete]
  split
  · rfl
  next hc =>
    simp only [Bool.or_eq_true, decide_eq_true_eq, not_or, not_not, not_lt, Bool.not_eq_true', Bool.not_eq_false, Bool.and_eq_true] at hc
    obtain ⟨⟨hm, h3⟩, h5⟩ := hc
    have h : (s.pwr.starting.contains (.domain d) = true ∧ d.val = 30) ∨ (¬ s.pwr.starting.contains (.domain d) = true ∧ s.domWaits d) :=
      ((h.resolve_left (not_not.2 hm)).resolve_left (not_not.2 h3)).resolve_left (by omega)
    rw [State.isStarting]
    rcases h with ⟨hup, h30⟩ | ⟨hup, hw⟩
    · rw [if_pos hup, if_pos h30]
      rfl
    · rw [if_neg hup, if_pos ((domWaits_iff s d).2 hw)]
      rfl

end

theorem wentDark_fields (d : Fin 32) (s : State) (h : d.val = 3 ∨ (24 ≤ d.val ∧ d.val < 31)) (hq : StartItem.domain d ∉ s.pwr.queue) :
    let u := wentDark d s
    (d.val ≠ 29 ∨ s.cph.kek = none → u.fld (fPD d) = 0) ∧ (d.val = 30 → u.fld (fPD 31) = 0) ∧
      (d.val = 29 → s.cph.kek ≠ none → u.fld (fPD 29) = 3 ∧ StartItem.domain 29 ∈ u.pwr.queue) := by
  intro u
  have hself := PowerAt.self s
  by_cases h30 : d.val = 30
  · have hu : u = offer 0x0A21 (bHBM 0) 2 0 (hbmDark s) := if_pos h30
    have hp := hself.hbmDark.quiet (.offer (code := 0x0A21) (block := bHBM 0) (p0 := 2) (p1 := 0) (.power_refl _))
    rw [← hu] at hp
    have h31 : u.fld (fPD 31) = 0 := (hp.pd 31 (by decide)).trans (mem_setOn (by simp))
    refine ⟨fun _ => ?_, fun _ => h31, fun h29 => absurd h29 (by omega)⟩
    rw [h30, hp.pd 30 (by decide), not_mem_setOn (by simp), mem_setOn (by simp)]
  by_cases hquad : d.val < 28 ∧ 24 ≤ d.val
  · have hu : u = quadDark (d.val - 24) s := (if_neg h30).trans (if_pos (by simpa using hquad.symm))
    have hp := hself.quadDark (q := d.val - 24) (by omega)
    rw [← hu] at hp
    refine ⟨fun _ => (hp.pd d d.isLt).trans (mem_setOn (by simp; omega)), fun hd => absurd hd h30, fun h29 => absurd h29 (by omega)⟩
  have hu : u = domDark d s := (if_neg h30).trans (if_neg (by simp; omega))
  rw [hu]
  by_cases h29 : d.val = 29
  · rw [h29] at hq ⊢
    refine ⟨fun hk => ?_, fun hd => absurd hd (by decide), fun _ hk => ?_⟩
    · exact ((hself.cphDark (hk.resolve_left (not_not.2 rfl))).pd 29 (by decide)).trans (mem_setOn (by simp))
    · have hp := hself.cphAgain hk hq
      refine ⟨(hp.pd 29 (by decide)).trans (mem_setOn (by simp)), ?_⟩
      rw [hp.pwr]
      exact List.mem_append_right _ (by simp)
  · have hp := hself.domDark (d := d) (by omega)
    exact ⟨fun _ => (hp.pd d d.isLt).trans (mem_setOn (by simp)), fun hd => absurd hd h30, fun hd => absurd hd h29⟩

theorem domainTransition (d : Fin 32) (s : State) : let mine := d.val = 3 ∨ (24 ≤ d.val ∧ d.val < 31)
    let up := s.pwr.starting.contains (.domain d) = true
    let ends := fun (post : State → Prop) => ∃ u, exec (.domainTransitionComplete d) s = .next (settle (targetDone 0x0600 (tDom d) none [] u)) ∧
      post u
    let waits := s.pwr.queue.contains (.domain d) = true ∨ (24 ≤ d.val ∧ d.val < 28 ∧ s.pwr.queue.contains (.quad (ch4 (d.val - 24))) = true) ∨
      (d.val = 30 ∧ s.ready = false)
    (mine → s.fld (fPD d) = 3 → 5 ≤ s.stage → up → d.val ≠ 30 → ends fun u => u.fld (fPD d) = 2 ∧ u.pwr.starting.contains (.domain d) = false) ∧
    (mine → s.fld (fPD d) = 3 → 5 ≤ s.stage → ¬ up → ¬ waits → ends fun u => (d.val ≠ 29 ∨ s.cph.kek = none → u.fld (fPD d) = 0) ∧
      (d.val = 30 → u.fld (fPD 31) = 0) ∧
      (d.val = 29 → s.cph.kek ≠ none → u.fld (fPD 29) = 3 ∧ StartItem.domain 29 ∈ u.pwr.queue)) ∧
    (¬ mine ∨ s.fld (fPD d) ≠ 3 ∨ s.stage < 5 ∨ (up ∧ d.val = 30) ∨ (¬ up ∧ waits) → exec (.domainTransitionComplete d) s = .next (settle s)) := by
  intro mine up ends waits
  refine ⟨fun hm h3 h5 hup hd => ⟨_, exec_domainTransition_started d hm h3 h5 hup hd, ?_⟩,
    fun hm h3 h5 hup hw => ⟨_, exec_domainTransition_stopped d hm h3 h5 hup hw, ?_⟩, exec_domainTransition_idle d⟩
  · have hp := ((PowerAt.self s).unqueue (.domain d)).domOn d.isLt
    refine ⟨(hp.pd d d.isLt).trans (mem_setOn (by simp)), ?_⟩
    rw [hp.pwr]
    exact contains_filter_ne _ _
  · exact wentDark_fields d s hm fun hq => hw (.inl (by simpa using hq))

/-! ### Reports, wake control and the accounting (R412 to R414) -/

theorem words_length (rs : List Nat) (w : Nat → Word) : (rs.flatMap fun r => le 4 (w r).toNat).length = 4 * rs.length :=
  flatMap_length rs _ 4 fun _ => le_length _ _

/-- A word of a list of words in an answer. -/
theorem fld_words (rs : List Nat) (w : Nat → Word) (k : Nat) (hk : k < rs.length) :
    fld (rs.flatMap fun r => le 4 (w r).toNat) (4 * k) 4 = (w rs[k]).toNat := by
  have hsplit : rs = rs.take k ++ rs[k] :: rs.drop (k + 1) := by
    rw [← List.drop_eq_getElem_cons hk, List.take_append_drop]
  have hlen : ((rs.take k).flatMap fun r => le 4 (w r).toNat).length = 4 * k := by
    rw [words_length, List.length_take, Nat.min_eq_left (by omega)]
  have hslice : slice (rs.flatMap fun r => le 4 (w r).toNat) (4 * k) 4 = le 4 (w rs[k]).toNat := by
    conv_lhs => rw [hsplit, List.flatMap_append, List.flatMap_cons]
    exact slice_middle _ _ _ _ _ hlen (le_length _ _)
  rw [fld, hslice, unle_le]
  exact Nat.mod_eq_of_lt (w rs[k]).isLt

theorem pwrReport : Does cmdPwrReport .pwrReport (fun _ _ => True) fun _ t ans u => u = t ∧ ∃ b, ans = .done b ∧ b.length = 16 ∧
    fld b 0 4 = (t.rd rPWR_DOMAIN_A).toNat ∧ fld b 4 4 = (t.rd rPWR_DOMAIN_B).toNat ∧ fld b 8 4 = (t.rd rPWR_CH_STATE).toNat ∧
    fld b 12 4 = (t.rd rPWR_RET_STATUS).toNat := by
  refine does_of (fun _ _ => rfl) fun q t _ _ => ⟨_, _, rfl, rfl, _, rfl, words_length _ _, ?_⟩
  have hw := fld_words [rPWR_DOMAIN_A, rPWR_DOMAIN_B, rPWR_CH_STATE, rPWR_RET_STATUS] t.rd
  exact ⟨hw 0 (by decide), hw 1 (by decide), hw 2 (by decide), hw 3 (by decide)⟩

/-- The registers of the accounting record. -/
def acctRegs : List Nat := [rPWR_ACCT_A, rPWR_ACCT_B, rPWR_ACCT_C, rPWR_ACCT_CNT 0, rPWR_ACCT_CNT 1, rPWR_ACCT_CNT 2, rPWR_ACCT_CNT 3]

theorem rd_eachUnreg (l : List Nat) (s : State) (off : Nat) :
    (each l (fun r (s : State) => s.unreg r) s).rd off = if off ∈ l then resetWord off else s.rd off := by
  induction l generalizing s with
  | nil => rfl
  | cons r l ih =>
    change (each l (fun r (s : State) => s.unreg r) (s.unreg r)).rd off = _
    rw [ih]
    by_cases h : off = r
    · simp [h]
    · simp [h, State.rd_unreg_other s r off h]

theorem rd_acctClear (s : State) (off : Nat) : (acctClear s).rd off = if off ∈ acctRegs then resetWord off else s.rd off := rd_eachUnreg _ s off

theorem onlyRegs_acctClear (s : State) : OnlyRegs acctRegs s (acctClear s) := fun off _ ho => by rw [rd_acctClear, if_neg ho]

theorem pwrAcctRead : Does cmdPwrAcctRead .pwrAcctRead (fun _ _ => True) fun q t ans u => (∃ b, ans = .done b ∧ b.length = 28 ∧
      ∀ k : Fin 7, fld b (4 * k) 4 = (t.rd (acctRegs.getD k 0)).toNat) ∧ OnlyRegs acctRegs t u ∧
    ∀ r ∈ acctRegs, u.rd r = if bit (fld q.params 0 1) 0 then resetWord r else t.rd r := by
  refine does_of (fun _ _ => rfl) fun q t _ _ => ⟨_, _, rfl, ⟨_, rfl, words_length acctRegs _, fun k => ?_⟩, ?_, fun r hr => ?_⟩
  · have hk : k.val < acctRegs.length := k.isLt
    rw [List.getD_eq_getElem _ _ hk]
    exact fld_words acctRegs t.rd k hk
  · split
    · exact onlyRegs_acctClear t
    · exact .refl _ t
  · split
    · rw [rd_acctClear, if_pos hr]
    · rfl

theorem acctClear_ready (s : State) (h : s.ready = true) : Completes .acctClear s fun t => OnlyRegs acctRegs s t ∧ ∀ r ∈ acctRegs, t.rd r =
    resetWord r := by
  refine ⟨settle (acctClear s), ?_, (onlyRegs_acctClear s).settle, fun r hr => by rw [rd_settle, rd_acctClear, if_pos hr]⟩
  change execAcctClear s = _
  rw [execAcctClear, h]
  rfl

theorem acctClear_early (s : State) (h : s.ready = false) : exec .acctClear s = .next (settle s) := by
  change execAcctClear s = _
  rw [execAcctClear, h]
  rfl

theorem acctRegs_not_wake {r : Nat} (h : r ∈ acctRegs) : r ≠ rPWR_WAKE_CTRL ∧ r ≠ rPWR_WAKE_TIMER := by
  simp only [acctRegs, List.mem_cons, List.not_mem_nil, or_false] at h
  grind

theorem pwrWakeSet : Does cmdPwrWakeSet .pwrWakeSet (fun _ _ => True) fun q t ans u => let v := BitVec.ofNat 32 (fld q.params 0 4)
    let anew := fPWR_WAKE_CTRL_ACCT_MODE.of v ≠ t.fld fPWR_WAKE_CTRL_ACCT_MODE ∨ fPWR_WAKE_CTRL_ACCT_CLEAR.of v = 1
    ans = .done [] ∧ u.rd rPWR_WAKE_CTRL = v &&& 0x107#32 ∧ u.rd rPWR_WAKE_TIMER = BitVec.ofNat 32 (fld q.params 4 4) ∧
      OnlyRegs (rPWR_WAKE_CTRL :: rPWR_WAKE_TIMER :: acctRegs) t u ∧ ∀ r ∈ acctRegs, u.rd r = if anew then resetWord r else t.rd r := by
  refine does_of (fun _ _ => rfl) fun q t _ _ => ⟨_, _, rfl, ?_⟩
  intro v anew
  have hclear : (fPWR_WAKE_CTRL_ACCT_MODE.of v != t.fld fPWR_WAKE_CTRL_ACCT_MODE || fPWR_WAKE_CTRL_ACCT_CLEAR.of v == 1) = true ↔ anew := by
    simp only [Bool.or_eq_true, bne_iff_ne, beq_iff_eq, anew]
  have hw : wakeCtrl v t = if anew then acctClear (t.wr rPWR_WAKE_CTRL (v &&& 0x107#32)) else t.wr rPWR_WAKE_CTRL (v &&& 0x107#32) :=
    if_congr hclear rfl rfl
  have hrd : ∀ off, off ≠ rPWR_WAKE_CTRL → (wakeCtrl v t).rd off = if anew ∧ off ∈ acctRegs then resetWord off else t.rd off := by
    intro off ho
    rw [hw]
    by_cases ha : anew
    · simp only [ha, if_true, true_and, rd_acctClear, State.rd_wr_other t _ _ _ ho]
    · simp only [ha, if_false, false_and, State.rd_wr_other t _ _ _ ho]
  refine ⟨rfl, ?_, State.rd_wr_same _ _ _, fun off _ ho => ?_, fun r hr => ?_⟩
  · rw [State.rd_wr_other _ _ _ _ (by decide), hw]
    split
    · rw [rd_acctClear, if_neg (by decide), State.rd_wr_same]
    · rw [State.rd_wr_same]
  · simp only [List.mem_cons, not_or] at ho
    obtain ⟨h1, h2, h3⟩ := ho
    rw [State.rd_wr_other _ _ _ _ h2, hrd off h1, if_neg fun h => h3 h.2]
  · obtain ⟨h1, h2⟩ := acctRegs_not_wake hr
    rw [State.rd_wr_other _ _ _ _ h2, hrd r h1]
    exact if_congr (and_iff_left hr) rfl rfl
end
end Sys2Proof.Machine
end

/-! # `PWR_STATE_SET` (R414): what each kind does -/
section
namespace Sys2Proof.Machine

open Sys2Proof

section
variable {s t u : State} {q : Request}

/-! ### Acceptance, and the end of an operation without targets -/

/-- Every operation of a later state belongs to a request whose operation an earlier one had. -/
def OrgsFrom (r s : State) : Prop := ∀ o ∈ s.ops, ∃ o' ∈ r.ops, o'.org = o.org

theorem Quiet.orgsFrom (h : Quiet .power s t) : OrgsFrom s t := fun _ ho => h.ops ho

theorem OrgsFrom.refl (s : State) : OrgsFrom s s := fun o ho => ⟨o, ho, rfl⟩

theorem OrgsFrom.trans (h : OrgsFrom s t) (h' : OrgsFrom t u) : OrgsFrom s u := fun o ho => by
  obtain ⟨o', ho', he⟩ := h' o ho
  obtain ⟨o'', ho'', he'⟩ := h o' ho'
  exact ⟨o'', ho'', he'.trans he⟩

theorem OrgsFrom.of_ops (h : OrgsFrom s t) (ho : u.ops = t.ops) : OrgsFrom s u := fun o hm => h o (ho ▸ hm)

/-- A request that passes the checks has no operation yet. -/
theorem org_free (hp : cmdPwrStateSet.passes q s = true) (hu : OrgsFrom (s.taken q 0x0600) u) : ∀ o ∈ u.ops, o.org ≠ q.org := by
  intro o ho horg
  obtain ⟨o', ho', he⟩ := hu o ho
  have hfree : ownBusy cmdPwrStateSet (overLimit (takeArrival q 0x0600 s).1 q (s.taken q 0x0600)) q (s.taken q 0x0600) = false := by
    simp only [Cmd.passes, Bool.and_eq_true, Bool.not_eq_true'] at hp
    exact hp.1.1.2
  have htag : tagInUse q (s.taken q 0x0600) = true := by
    rw [tagInUse, Bool.or_eq_true, List.any_eq_true]
    exact .inl ⟨o', ho', by simp [sameWho, he, horg]⟩
  have hbusy : ownBusy cmdPwrStateSet (overLimit (takeArrival q 0x0600 s).1 q (s.taken q 0x0600)) q (s.taken q 0x0600) = true := by
    simp only [ownBusy, htag, Bool.or_true, Bool.and_true]
    rfl
  exact Bool.noConfusion (hfree.symm.trans hbusy)

/-- What the execution looks for once a request has been served: its operation, with no target left. -/
def emptyOp (q : Request) (o : Op) : Bool := o.opcode == 0x0600 && o.targets.isEmpty && decide (o.org = q.org)

theorem exec_pwrStateSet {w : State} (hp : cmdPwrStateSet.passes q s = true) (hw : serveState cmdPwrStateSet q s = w) :
    exec (.pwrStateSet q) s = .next (settle (match w.ops.find? (emptyOp q) with
      | none => w
      | some op => endOp op { status := stOK } [] w)) := by
  have hl : ¬ 4076 < q.params.length := by
    have h' := hp
    simp only [Cmd.passes, Bool.and_eq_true, decide_eq_true_eq] at h'
    exact Nat.not_lt.mpr h'.1.1.1.1.1.1.1.1.1
  change execPwrStateSet q s = _
  rw [execPwrStateSet, if_neg hl, hw]
  change (match w.ops.find? (emptyOp q) with | none => ok w | some op => ok (endOp op { status := stOK } [] w)) = _
  split <;> rfl

theorem serveState_passed (hp : cmdPwrStateSet.passes q s = true) : serveState cmdPwrStateSet q s =
    match cmdPwrStateSet.body q (s.taken q 0x0600) with
    | .error r => refuse q.org 0x0600 r (s.taken q 0x0600)
    | .ok (t, ans) => place q 0x0600 ans t := by
  rw [serveState_eq, passes_turn _ q s hp, passes_ready _ q s hp, checks_passes _ q s hp]
  rfl

theorem find_emptyOp_none {l : List Op} (hl : ∀ o ∈ l, o.org ≠ q.org) : l.find? (emptyOp q) = none := by
  rw [List.find?_eq_none]
  intro o ho h
  simp only [emptyOp, Bool.and_eq_true, decide_eq_true_eq] at h
  exact hl o ho h.2

/-- A command that is turned away ends there. -/
theorem exec_pwrStateSet_error (hp : cmdPwrStateSet.passes q s = true) {r : Ref} (hb : cmdPwrStateSet.body q (s.taken q 0x0600) = .error r) :
    exec (.pwrStateSet q) s = .next (settle (refuse q.org 0x0600 r (s.taken q 0x0600))) := by
  have hw : serveState cmdPwrStateSet q s = refuse q.org 0x0600 r (s.taken q 0x0600) := by rw [serveState_passed hp, hb]
  rw [exec_pwrStateSet hp hw, find_emptyOp_none]
  intro o ho
  rw [refuse_ops] at ho
  exact org_free hp (.refl _) o ho

/-- A command that fails after its work ends there. -/
theorem exec_pwrStateSet_fail (hp : cmdPwrStateSet.passes q s = true) {r : Ref} (hb : cmdPwrStateSet.body q (s.taken q 0x0600) = .ok (u, .fail r))
    (hu : OrgsFrom (s.taken q 0x0600) u) : exec (.pwrStateSet q) s = .next (settle (refuse q.org 0x0600 r u)) := by
  have hw : serveState cmdPwrStateSet q s = refuse q.org 0x0600 r u := by
    rw [serveState_passed hp, hb]
    rfl
  rw [exec_pwrStateSet hp hw, find_emptyOp_none]
  intro o ho
  rw [refuse_ops] at ho
  exact org_free hp hu o ho

/-- A command that is accepted: its operation ends at once where it has no target. -/
theorem exec_pwrStateSet_accept (hp : cmdPwrStateSet.passes q s = true) {op : Op} {ts : List Nat} (horg : op.org = q.org)
    (hcode : op.opcode = 0x0600) (hts : op.targets = ts)
    (hb : cmdPwrStateSet.body q (s.taken q 0x0600) = .ok (u, .accept op)) (hu : OrgsFrom (s.taken q 0x0600) u) :
    exec (.pwrStateSet q) s = .next (settle (let w := place q 0x0600 (.accept op) u
      if ts.isEmpty then endOp op { status := stOK } [] w else w)) := by
  subst hts
  have hw : serveState cmdPwrStateSet q s = place q 0x0600 (.accept op) u := by
    rw [serveState_passed hp, hb]
  have hops : (place q 0x0600 (.accept op) u).ops = u.ops ++ [op] := answer_ops _ _ _ _ _ _
  have hfind : (place q 0x0600 (.accept op) u).ops.find? (emptyOp q) = if op.targets.isEmpty then some op else none := by
    rw [hops, List.find?_append, find_emptyOp_none (org_free hp hu), Option.none_or, List.find?_singleton, emptyOp, horg, hcode]
    simp
  rw [exec_pwrStateSet hp hw, hfind]
  by_cases he : op.targets.isEmpty = true
  · simp only [he, if_true]
  · simp only [he]
    rfl

/-- An accepted command, as the statements speak of it. -/
theorem accepted {ts : State → List Nat} {post : State → State → Prop} (hp : cmdPwrStateSet.passes q s = true)
    (hb : cmdPwrStateSet.body q (s.taken q 0x0600) = .ok (u, .accept (pwrOp q (ts u) (s.taken q 0x0600))))
    (hu : OrgsFrom (s.taken q 0x0600) u) (hpost : post (s.taken q 0x0600) u) :
    ∃ u op, op.org = q.org ∧ op.opcode = 0x0600 ∧ op.targets = ts u ∧
      exec (.pwrStateSet q) s = .next (settle (let w := place q 0x0600 (.accept op) u; if (ts u).isEmpty then endOp op { status := stOK } [] w else w)) ∧
      post (s.taken q 0x0600) u :=
  ⟨u, pwrOp q (ts u) (s.taken q 0x0600), rfl, rfl, rfl, exec_pwrStateSet_accept hp rfl rfl rfl hb hu, hpost⟩

theorem body_channels (h : fld q.params 0 1 = 0) : cmdPwrStateSet.body q t = setChannels q (fld q.params 1 1) (maskOf (fld q.params 4 8) 4) t := by
  simp only [cmdPwrStateSet, h]

theorem body_lanes (h : fld q.params 0 1 = 1) : cmdPwrStateSet.body q t = setLanes q (fld q.params 1 1) (maskOf (fld q.params 4 8) 64) t := by
  simp only [cmdPwrStateSet, h]

theorem body_quads (h : fld q.params 0 1 = 2) : cmdPwrStateSet.body q t = setQuads q (fld q.params 1 1) (maskOf (fld q.params 4 8) 4) t := by
  simp only [cmdPwrStateSet, h]

theorem body_domains (h : fld q.params 0 1 = 3) : cmdPwrStateSet.body q t = setDomains q (fld q.params 1 1) (domMask (fld q.params 4 8)) t := by
  simp only [cmdPwrStateSet, h]

theorem body_dark (h : fld q.params 0 1 = 4) : cmdPwrStateSet.body q t = enterDark q t := by
  simp only [cmdPwrStateSet, h]

theorem maskOf_lt {m w j : Nat} (h : j ∈ maskOf m w) : j < w := by
  have := (mem_span _ _ _).1 (List.mem_filter.1 h).1
  omega

theorem maskOf_nodup (m w : Nat) : (maskOf m w).Nodup := (nodup_span 0 w).filter _

/-! ### Channels -/

theorem enqueue_ops (i : StartItem) (s : State) : (enqueue i s).ops = s.ops := rfl

theorem orgsFrom_chStop (n : Nat) (s : State) : OrgsFrom s (chStop n s) := by
  have h0 : OrgsFrom s (accrue n s) := OrgsFrom.refl s
  have h1 : OrgsFrom s (capTruncate n (loopClear n (accrue n s))) :=
    h0.trans (Quiet.orgsFrom (.capTruncate (.loopClear (.inl rfl) (.power_refl _))))
  exact (h1.of_ops (by rw [eachPD_ops, State.setF_ops])).trans (quiet_chStop n s).orgsFrom

/-- The power machinery as a channel's change begins. -/
def PwrSt.begun (p : PwrSt) (st n old : Nat) : PwrSt :=
  { p with was := p.was.set (ch4 n) old, target := p.target.set (ch4 n) (some (2 - st)) }

/-- A channel whose change begins. -/
structure ChBegun (st n : Nat) (s t : State) : Prop where
  ch : ∀ m, m < 4 → t.fld (fCH m) = if m = n then 3 else s.fld (fCH m)
  target : t.pwr.target = s.pwr.target.set (ch4 n) (some (2 - st))
  queue : t.pwr.queue = s.pwr.queue ++ if st = 0 ∧ s.fld (fCH n) = 0 then [.channel (ch4 n)] else []
  orgs : OrgsFrom s t

theorem chBegun_of {st n : Nat} {pd : Nat → Nat} {p : PwrSt} (h : PowerAt t (setOn [n] 3 fun m => s.fld (fCH m)) pd p)
    (htarget : p.target = s.pwr.target.set (ch4 n) (some (2 - st)))
    (hqueue : p.queue = s.pwr.queue ++ if st = 0 ∧ s.fld (fCH n) = 0 then [.channel (ch4 n)] else []) (ho : OrgsFrom s t) : ChBegun st n s t := by
  refine ⟨fun m hm => ?_, by rw [h.pwr, htarget], by rw [h.pwr, hqueue], ho⟩
  rw [h.ch m hm, setOn]
  simp only [List.mem_singleton]

theorem chBegun_chBegin (st n : Nat) (hn : n < 4) (s : State) : ChBegun st n s (chBegin st n s) := by
  have h0 := (PowerAt.self s).setPwr (s.pwr.begun st n (s.fld (fCH n)))
  have horg : OrgsFrom s (s.setPwr (s.pwr.begun st n (s.fld (fCH n)))) := OrgsFrom.refl s
  by_cases hst : st = 0
  · by_cases hold : s.fld (fCH n) = 0
    · have hu : chBegin st n s = enqueue (.channel (ch4 n)) ((s.setPwr (s.pwr.begun st n (s.fld (fCH n)))).setF (fCH n) 3) :=
        (if_pos hst).trans (if_pos hold)
      have hqueue : s.pwr.queue ++ [.channel (ch4 n)] = s.pwr.queue ++ if st = 0 ∧ s.fld (fCH n) = 0 then [.channel (ch4 n)] else [] := by
        rw [if_pos ⟨hst, hold⟩]
      rw [hu]
      exact chBegun_of ((h0.setCH hn (by decide)).enqueue _) rfl hqueue (horg.of_ops (by rw [enqueue_ops, State.setF_ops]))
    · have hu : chBegin st n s = each (chPds n) (fun d s => setPD d 3 s) ((s.setPwr { s.pwr.begun st n (s.fld (fCH n)) with
          exits := s.pwr.exits ++ [n] }).setF (fCH n) 3) := (if_pos hst).trans (if_neg hold)
      have hqueue : s.pwr.queue = s.pwr.queue ++ if st = 0 ∧ s.fld (fCH n) = 0 then [.channel (ch4 n)] else [] := by
        rw [if_neg fun h => hold h.2, List.append_nil]
      rw [hu]
      exact chBegun_of (((h0.setPwr _).setCH hn (by decide)).eachPD (chPds_lt hn) (by decide)) rfl hqueue
        (horg.of_ops (by rw [eachPD_ops, State.setF_ops, State.setPwr_ops, State.setPwr_ops]))
  · have hqueue : s.pwr.queue = s.pwr.queue ++ if st = 0 ∧ s.fld (fCH n) = 0 then [.channel (ch4 n)] else [] := by
      rw [if_neg fun h => hst h.1, List.append_nil]
    by_cases hold : s.fld (fCH n) = 2
    · have hu : chBegin st n s = chStop n (s.setPwr (s.pwr.begun st n (s.fld (fCH n)))) := (if_neg hst).trans (if_pos hold)
      rw [hu]
      exact chBegun_of (h0.chStop hn) rfl hqueue (horg.trans (orgsFrom_chStop n _))
    · have hu : chBegin st n s = each (chPds n) (fun d s => setPD d 3 s) ((s.setPwr (s.pwr.begun st n (s.fld (fCH n)))).setF (fCH n) 3) :=
        (if_neg hst).trans (if_neg hold)
      rw [hu]
      exact chBegun_of ((h0.setCH hn (by decide)).eachPD (chPds_lt hn) (by decide)) rfl hqueue (horg.of_ops (by rw [eachPD_ops, State.setF_ops]))

/-- Channels whose changes begin. -/
structure ChsBegun (st : Nat) (ns : List Nat) (s t : State) : Prop where
  ch : ∀ m, m < 4 → t.fld (fCH m) = if m ∈ ns then 3 else s.fld (fCH m)
  target : ∀ n : Ch, n.val ∈ ns → t.pwr.target.get n = some (2 - st)
  queue : t.pwr.queue = s.pwr.queue ++ if st = 0 then (ns.filter fun n => s.fld (fCH n) == 0).map fun n => .channel (ch4 n) else []
  orgs : OrgsFrom s t

theorem chsBegun_each (st : Nat) {ns : List Nat} (hns : ∀ n ∈ ns, n < 4) (hn : ns.Nodup) (s : State) : ChsBegun st ns s (each ns (chBegin st) s) := by
  induction ns using List.reverseRecOn with
  | nil => exact ⟨fun _ _ => rfl, nofun, by simp [each], .refl s⟩
  | append_singleton ns n ih =>
    have hstep : each (ns ++ [n]) (chBegin st) s = chBegin st n (each ns (chBegin st) s) := by simp [each]
    obtain ⟨hn, -, hdis⟩ := List.nodup_append.1 hn
    have hnot : n ∉ ns := fun h => hdis n h n (by simp) rfl
    have ih := ih (fun m hm => hns m (List.mem_append_left _ hm)) hn
    have hn4 : n < 4 := hns n (by simp)
    have hb := chBegun_chBegin st n hn4 (each ns (chBegin st) s)
    rw [hstep]
    refine ⟨fun m hm => ?_, fun m hm => ?_, ?_, ih.orgs.trans hb.orgs⟩
    · rw [hb.ch m hm, ih.ch m hm]
      grind
    · rw [hb.target]
      by_cases he : m = ch4 n
      · rw [he, Four.get_set_same]
      · rw [Four.get_set_other _ _ _ _ he]
        refine ih.target m ((List.mem_append.1 hm).resolve_right fun h => he ?_)
        rw [← List.mem_singleton.1 h, ch4_val]
    · rw [hb.queue, ih.queue, ih.ch n hn4, if_neg hnot, List.append_assoc]
      by_cases hst : st = 0
      · by_cases h0 : s.fld (fCH n) = 0 <;> simp [hst, h0, List.filter_append, List.map_append]
      · simp [hst]

theorem setChannels_ok {st : Nat} {ns : List Nat} (h : chRefuse st ns t = none) : setChannels q st ns t =
    .ok (each (ns.filter fun n => t.fld (fCH n) != 2 - st) (chBegin st) t,
      .accept (pwrOp q ((ns.filter fun n => t.fld (fCH n) != 2 - st).map tChan) t)) := by
  rw [setChannels, h]

theorem setChannels_error {st : Nat} {ns : List Nat} {r : Ref} (h : chRefuse st ns t = some r) : setChannels q st ns t = .error r := by
  rw [setChannels, h]

theorem channels_commanded (hp : cmdPwrStateSet.passes q s = true) (hk : fld q.params 0 1 = 0) : let t := s.taken q 0x0600
    let st := fld q.params 1 1
    let ns := maskOf (fld q.params 4 8) 4
    let go := ns.filter fun n => t.fld (fCH n) != 2 - st
    (chRefuse st ns t = none → ∃ u op, op.org = q.org ∧ op.opcode = 0x0600 ∧ op.targets = go.map tChan ∧
      exec (.pwrStateSet q) s = .next (settle (let w := place q 0x0600 (.accept op) u; if (go.map tChan).isEmpty then endOp op { status := stOK } [] w else w)) ∧
        (∀ n : Ch, n.val ∈ go → u.fld (fCH n) = 3 ∧ u.pwr.target.get n = some (2 - st)) ∧ (∀ n : Ch, n.val ∉ go → u.fld (fCH n) = t.fld (fCH n)) ∧
        u.pwr.queue = t.pwr.queue ++ (if st = 0 then (go.filter fun n => t.fld (fCH n) == 0).map fun n => .channel (ch4 n) else [])) ∧
    (∀ r, chRefuse st ns t = some r → exec (.pwrStateSet q) s = .next (settle (refuse q.org 0x0600 r t))) := by
  intro t st ns go
  refine ⟨fun hr => ?_, fun r hr => exec_pwrStateSet_error hp ((body_channels hk).trans (setChannels_error hr))⟩
  have hgo : ∀ n ∈ go, n < 4 := fun n hn => maskOf_lt (List.mem_filter.1 hn).1
  have hb := chsBegun_each st hgo ((maskOf_nodup _ _).filter _) t
  refine accepted (ts := fun _ => go.map tChan) (post := fun t u => (∀ n : Ch, n.val ∈ go → u.fld (fCH n) = 3 ∧ u.pwr.target.get n = some (2 - st)) ∧
    (∀ n : Ch, n.val ∉ go → u.fld (fCH n) = t.fld (fCH n)) ∧
    u.pwr.queue = t.pwr.queue ++ (if st = 0 then (go.filter fun n => t.fld (fCH n) == 0).map fun n => .channel (ch4 n) else [])) hp
    ((body_channels hk).trans (setChannels_ok hr)) hb.orgs ⟨fun n hn => ⟨?_, hb.target n hn⟩, fun n hn => ?_, hb.queue⟩
  · rw [hb.ch n n.isLt, if_pos hn]
  · rw [hb.ch n n.isLt, if_neg hn]

/-- The refusals of a change of channels. -/
theorem chRefuse_cases (st : Nat) (ns : List Nat) (s : State) : let chg := ∃ n ∈ ns, s.fld (fCH n) = 3
    let dark := ∃ n ∈ ns, s.fld (fCH n) = 0
    (chg → chRefuse st ns s = some { status := stBUSY, b0 := 0 }) ∧
    (¬ chg → dark → (st = 1 ∨ (st = 0 ∧ s.flag fPWR_CH_STATE_RECEPTACLE = false)) → chRefuse st ns s = some { status := stWRONG_STATE }) ∧
    (¬ chg → st = 0 → (¬ dark ∨ s.flag fPWR_CH_STATE_RECEPTACLE = true) → chRefuse st ns s = none) ∧
    (¬ chg → (st = 1 → ¬ dark) → st = 1 ∨ st = 2 → chRefuse st ns s = (s.chDependant (ns.filter fun n => s.fld (fCH n) != 2 - st)).map fun b =>
      { status := stCONFLICT, b1 := b }) := by
  intro chg dark
  have hchg : (ns.any fun n => s.fld (fCH n) == 3) = decide chg := by
    rw [Bool.eq_iff_iff, List.any_eq_true, decide_eq_true_eq]
    simp only [beq_iff_eq, chg]
  have hdark : ns.any s.chDark = decide dark := by
    rw [Bool.eq_iff_iff, List.any_eq_true, decide_eq_true_eq]
    simp only [State.chDark, beq_iff_eq, dark]
  have heq : chRefuse st ns s = firstRef ([(decide chg, { status := stBUSY, b0 := 0 }), (st == 1 && decide dark, { status := stWRONG_STATE }),
      (st == 0 && decide dark && !s.flag fPWR_CH_STATE_RECEPTACLE, { status := stWRONG_STATE })] ++
      (if st = 0 then [] else match s.chDependant (ns.filter fun n => s.fld (fCH n) != 2 - st) with | some b => [(true, conflict b)] | none => [])) := by
    rw [chRefuse, hchg, hdark] <;> rfl
  rw [heq]
  refine ⟨fun h => ?_, fun h hd hst => ?_, fun h hst hd => ?_, fun h hd hst => ?_⟩
  · simp [firstRef, h]
  · rcases hst with rfl | ⟨rfl, hr⟩
    · simp [firstRef, h, hd]
    · simp [firstRef, h, hd, hr]
  · rcases hd with hd | hr
    · simp [firstRef, h, hst, hd]
    · simp [firstRef, h, hst, hr]
  · have h0 : st ≠ 0 := by omega
    have h1 : (st == 1 && decide dark) = false := by
      rcases hst with hst | hst
      · simp [hd hst]
      · simp [hst]
    cases hdep : s.chDependant (ns.filter fun n => s.fld (fCH n) != 2 - st) with
    | none => simp [firstRef, h, h0, h1]
    | some b => simp [firstRef, h, h0, h1, conflict]

/-! ### Lanes -/

theorem setLanes_spec (st : Nat) (ls : List Nat) (t : State) : let pd := fun l => t.fld (fPD (24 + l / 16))
    ((∃ l ∈ ls, pd l = 3) → setLanes q st ls t = .error { status := stBUSY, b0 := 0 }) ∧
    ((∀ l ∈ ls, pd l ≠ 3) → ((∃ l ∈ ls, pd l = 0) ∨ (st = 1 ∧ ∃ l ∈ ls, t.laneSt l = 6)) → setLanes q st ls t = .error { status := stWRONG_STATE }) ∧
    ((∀ l ∈ ls, pd l ≠ 3 ∧ pd l ≠ 0) → (st = 1 → ∀ l ∈ ls, t.laneSt l ≠ 6) → (∀ l, st ≠ 0 → ls.find? t.liveLane = some l →
      setLanes q st ls t = .error (conflict (bLane l))) ∧ ((st = 0 ∨ ls.find? t.liveLane = none) → setLanes q st ls t =
        .ok (each ls (laneSet st) t,
          .accept (pwrOp q ((if st = 0 then ls.filter fun l => (each ls (laneSet st) t).laneSt l != 4 else []).map tPLane) t)))) := by
  intro pd
  refine ⟨fun h => ?_, fun h3 h => ?_, fun h h6 => ⟨fun l h0 hl => ?_, fun hl => ?_⟩⟩
  · exact if_pos (by simpa [pd] using h)
  · refine (if_neg (by simpa [pd] using h3)).trans (if_pos ?_)
    simpa [pd] using h
  all_goals
    refine (if_neg (by simpa [pd] using fun l hl => (h l hl).1)).trans ((if_neg ?_).trans ?_)
    · simp only [Bool.or_eq_true, List.any_eq_true, beq_iff_eq, Bool.and_eq_true, decide_eq_true_eq, not_or, not_exists, not_and]
      exact ⟨fun l hl => (h l hl).2, h6⟩
  · rw [if_neg h0, hl]
  · have hfind : (if st = 0 then none else ls.find? t.liveLane) = none := by
      rcases hl with hl | hl
      · rw [if_pos hl]
      · rw [hl, ite_self]
    rw [hfind]

/-- A lane is sent to L0, L1 or L2. -/
theorem laneTarget_lt (hp : cmdPwrStateSet.passes q s = true) (hk : fld q.params 0 1 = 1) : fld q.params 1 1 < 3 := by
  have h : badPwr q.params = none := passes_params _ q s hp
  rw [badPwr, firstBad_none] at h
  have := h _ (List.mem_cons_of_mem _ List.mem_cons_self)
  have hlt : fld q.params 1 1 ≤ 2 := by simpa [hk] using (Bool.or_eq_false_iff.1 this).2
  omega

theorem Quiet.laneSet {r : State} {st l : Nat} (h : Quiet .power r s) : Quiet .power r (laneSet st l s) :=
  .ite (.ite (.laneTo h) (.ite (.laneTo h) (.ite (.laneTrain h) h)))
    (.ite h (.portLost (.laneTo (.setLane (.setB (by grind) (.setB (by grind) h))))))

theorem lanes_commanded (hp : cmdPwrStateSet.passes q s = true) (hk : fld q.params 0 1 = 1) : let t := s.taken q 0x0600
    let st := fld q.params 1 1
    let ls := maskOf (fld q.params 4 8) 64
    let pd := fun l => t.fld (fPD (24 + l / 16))
    ((∀ l ∈ ls, pd l ≠ 3 ∧ pd l ≠ 0) → (st = 1 → ∀ l ∈ ls, t.laneSt l ≠ 6) → (st ≠ 0 → ∀ l ∈ ls, t.liveLane l = false) →
      ∃ u op, op.org = q.org ∧ op.opcode = 0x0600 ∧ op.targets = (if st = 0 then ls.filter fun l => u.laneSt l != 4 else []).map tPLane ∧
        exec (.pwrStateSet q) s = .next (settle (let w := place q 0x0600 (.accept op) u
          if ((if st = 0 then ls.filter fun l => u.laneSt l != 4 else []).map tPLane).isEmpty then endOp op { status := stOK } [] w else w)) ∧
        ∀ l, l < 64 → u.laneSt l = if l ∈ ls then (if st ≠ 0 then 4 + st else if (t.lane l).failed then 7 else if t.laneSt l =
          5 then 4 else if t.laneSt l = 6 then 1 else t.laneSt l)
          else t.laneSt l) ∧
    ((∃ l ∈ ls, pd l = 3) → exec (.pwrStateSet q) s = .next (settle (refuse q.org 0x0600 { status := stBUSY, b0 := 0 } t))) ∧
    ((∀ l ∈ ls, pd l ≠ 3) → ((∃ l ∈ ls, pd l = 0) ∨ (st = 1 ∧ ∃ l ∈ ls, t.laneSt l = 6)) →
      exec (.pwrStateSet q) s = .next (settle (refuse q.org 0x0600 { status := stWRONG_STATE } t))) ∧
    ((∀ l ∈ ls, pd l ≠ 3 ∧ pd l ≠ 0) → (st = 1 → ∀ l ∈ ls, t.laneSt l ≠ 6) → st ≠ 0 → ∀ l, ls.find? t.liveLane = some l →
      exec (.pwrStateSet q) s = .next (settle (refuse q.org 0x0600 { status := stCONFLICT, b1 := bLane l } t))) := by
  intro t st ls pd
  obtain ⟨hbusy, hwrong, hrest⟩ := setLanes_spec (q := q) st ls t
  have hst : st < 3 := laneTarget_lt hp hk
  refine ⟨fun h h6 hl => ?_, fun h => exec_pwrStateSet_error hp ((body_lanes hk).trans (hbusy h)),
    fun h3 h => exec_pwrStateSet_error hp ((body_lanes hk).trans (hwrong h3 h)),
    fun h h6 h0 l hl => exec_pwrStateSet_error hp ((body_lanes hk).trans ((hrest h h6).1 l h0 hl))⟩
  have hfind : st = 0 ∨ ls.find? t.liveLane = none := by
    rw [List.find?_eq_none]
    by_cases h0 : st = 0
    · exact .inl h0
    · exact .inr fun l hm => by rw [hl h0 l hm]; decide
  refine accepted (ts := fun u => (if st = 0 then ls.filter fun l => u.laneSt l != 4 else []).map tPLane)
    (post := fun t u => ∀ l, l < 64 → u.laneSt l = if l ∈ ls then laneGoal st (t.laneSt l) (t.lane l).failed else t.laneSt l) hp
    ((body_lanes hk).trans ((hrest h h6).2 hfind)) ?_ fun l hl64 => laneSt_eachSet st hst (fun _ => maskOf_lt) (maskOf_nodup _ _) t hl64
  exact Quiet.orgsFrom (.each (fun _ _ ht => .laneSet ht) (.power_refl t))

/-! ### Quads -/

theorem bLane_quad {x l : Nat} (h : l ∈ quadLanes x) : bLane l = bHQ x := by
  rw [quadLanes, mem_span] at h
  rw [bLane, show l / 16 = x by omega]

/-- The first live lane of some quads is in the first of them that has one. -/
theorem find_flatMap_none (p : Nat → Bool) (l : List Nat) :
    (l.flatMap quadLanes).find? p = none ↔ l.find? (fun x => (quadLanes x).any p) = none := by
  simp only [List.find?_eq_none, List.mem_flatMap, forall_exists_index, and_imp, List.any_eq_true, not_exists, not_and]
  exact ⟨fun h x hx l hl => h l x hx hl, fun h l x hx hl => h x hx l hl⟩

theorem find_flatMap_some (p : Nat → Bool) (l : List Nat) (x : Nat) (h : l.find? (fun x => (quadLanes x).any p) = some x) :
    ∃ k, (l.flatMap quadLanes).find? p = some k ∧ k ∈ quadLanes x := by
  induction l with
  | nil => cases h
  | cons y l ih =>
    rw [List.flatMap_cons, List.find?_append]
    by_cases hy : (quadLanes y).any p = true
    · rw [List.find?_cons_of_pos (p := fun x => (quadLanes x).any p) hy] at h
      cases h
      obtain ⟨k, hk, hp⟩ := List.any_eq_true.1 hy
      obtain ⟨k', hk'⟩ := Option.isSome_iff_exists.1 (List.find?_isSome.2 ⟨k, hk, hp⟩)
      exact ⟨k', by rw [hk', Option.some_or], List.mem_of_find?_eq_some hk'⟩
    · rw [List.find?_cons_of_neg (p := fun x => (quadLanes x).any p) hy] at h
      obtain ⟨k, hk, hm⟩ := ih h
      refine ⟨k, ?_, hm⟩
      rw [List.find?_eq_none.2 fun k hk hp => hy (List.any_eq_true.2 ⟨k, hk, hp⟩), Option.none_or, hk]

/-- A quad that is to start, and one that is to go dark. -/
def quadQueued (x : Nat) (s : State) : State := enqueue (.quad (ch4 x)) (setPD (24 + x) 3 s)
def quadStopped (x : Nat) (s : State) : State := quadStop x (setPD (24 + x) 3 s)

/-- Quads whose changes begin. -/
structure QuadsBegun (starts : List StartItem) (go : List Nat) (s t : State) : Prop where
  pd : ∀ x ∈ go, t.fld (fPD (24 + x)) = 3
  queue : t.pwr.queue = s.pwr.queue ++ starts
  orgs : OrgsFrom s t

theorem quadsQueued (go : List Nat) (hgo : ∀ x ∈ go, x < 4) (s : State) :
    QuadsBegun (go.map fun x => .quad (ch4 x)) go s (each go quadQueued s) := by
  induction go using List.reverseRecOn with
  | nil => exact ⟨nofun, by simp [each], .refl s⟩
  | append_singleton go x ih =>
    have hstep : each (go ++ [x]) quadQueued s = quadQueued x (each go quadQueued s) := by simp [each]
    obtain ⟨hpd, hqueue, horgs⟩ := ih fun y hy => hgo y (List.mem_append_left _ hy)
    have hx := hgo x (by simp)
    rw [hstep]
    have hp := ((PowerAt.self (each go quadQueued s)).setPD (d := 24 + x) (v := 3) (by omega) (by decide)).enqueue (.quad (ch4 x))
    refine ⟨fun y hy => ?_, ?_, horgs⟩
    · have hy4 := hgo y hy
      refine (hp.pd _ (by omega)).trans ?_
      rw [setOn]
      split
      · rfl
      next hne => exact hpd y ((List.mem_append.1 hy).resolve_right fun h => hne (by rw [List.mem_singleton.1 h]; simp))
    · rw [quadQueued, hp.pwr, hqueue, List.map_append, List.append_assoc]
      rfl

theorem quadsStopped (go : List Nat) (hgo : ∀ x ∈ go, x < 4) (s : State) : QuadsBegun [] go s (each go quadStopped s) := by
  induction go using List.reverseRecOn with
  | nil => exact ⟨nofun, by simp [each], .refl s⟩
  | append_singleton go x ih =>
    have hstep : each (go ++ [x]) quadStopped s = quadStopped x (each go quadStopped s) := by simp [each]
    obtain ⟨hpd, hqueue, horgs⟩ := ih fun y hy => hgo y (List.mem_append_left _ hy)
    have hx := hgo x (by simp)
    rw [hstep]
    have hq : Quiet .power (setPD (24 + x) 3 (each go quadStopped s)) (quadStopped x (each go quadStopped s)) := .quadStop (.power_refl _)
    have hp := ((PowerAt.self (each go quadStopped s)).setPD (d := 24 + x) (v := 3) (by omega) (by decide)).quiet hq
    refine ⟨fun y hy => ?_, ?_, OrgsFrom.trans horgs hq.orgsFrom⟩
    · have hy4 := hgo y hy
      refine (hp.pd _ (by omega)).trans ?_
      rw [setOn]
      split
      · rfl
      next hne => exact hpd y ((List.mem_append.1 hy).resolve_right fun h => hne (by rw [List.mem_singleton.1 h]; simp))
    · rw [hp.pwr, hqueue]

/-- The quads that a command would change, and the first that it may not. -/
def State.quadsGo (t : State) (st : Nat) (qs : List Nat) : List Nat := qs.filter fun x => t.fld (fPD (24 + x)) == (if st = 0 then 0 else 2)
def State.quadBad (t : State) (st : Nat) (go : List Nat) : Option Nat :=
  go.find? fun x => if st = 0 then !(layoutOk t x && layoutServes t x) else (quadLanes x).any t.liveLane

theorem setQuads_busy (st : Nat) (qs : List Nat) (t : State) (h : ∃ x ∈ qs, t.fld (fPD (24 + x)) = 3) :
    setQuads q st qs t = .error { status := stBUSY, b0 := 0 } := if_pos (by simpa using h)

theorem setQuads_start {st : Nat} {qs : List Nat} {t : State} (h3 : ∀ x ∈ qs, t.fld (fPD (24 + x)) ≠ 3) (h0 : st = 0) : setQuads q st qs t =
    match t.quadBad st (t.quadsGo st qs) with
    | some x => .error (conflict (bHQ x))
    | none => .ok (each (t.quadsGo st qs) quadQueued t, .accept (pwrOp q ((t.quadsGo st qs).map fun x => tDom (24 + x)) t)) := by
  subst h0
  exact (if_neg (by simpa using h3)).trans (if_pos rfl)

theorem setQuads_paired {st : Nat} {qs : List Nat} {t : State} (h3 : ∀ x ∈ qs, t.fld (fPD (24 + x)) ≠ 3) (h0 : st ≠ 0)
    (hp : (t.quadsGo st qs).any t.paired = true) : setQuads q st qs t = .error (conflict bMRG) := by
  have hgo : t.quadsGo st qs = qs.filter fun x => t.fld (fPD (24 + x)) == 2 := by rw [State.quadsGo, if_neg h0]
  rw [hgo] at hp
  exact (if_neg (by simpa using h3)).trans ((if_neg h0).trans (if_pos hp))

theorem setQuads_stop {st : Nat} {qs : List Nat} {t : State} (h3 : ∀ x ∈ qs, t.fld (fPD (24 + x)) ≠ 3) (h0 : st ≠ 0)
    (hp : (t.quadsGo st qs).any t.paired = false) : setQuads q st qs t =
    match t.quadBad st (t.quadsGo st qs) with
    | some x => .error (conflict (bHQ x))
    | none => .ok (each (t.quadsGo st qs) quadStopped t, .accept (pwrOp q ((t.quadsGo st qs).map fun x => tDom (24 + x)) t)) := by
  have hgo : t.quadsGo st qs = qs.filter fun x => t.fld (fPD (24 + x)) == 2 := by rw [State.quadsGo, if_neg h0]
  have hbad : t.quadBad st (t.quadsGo st qs) = (t.quadsGo st qs).find? fun x => (quadLanes x).any t.liveLane := by
    simp only [State.quadBad, if_neg h0]
  rw [hbad]
  rw [hgo] at hp ⊢
  refine (if_neg (by simpa using h3)).trans ((if_neg h0).trans ((if_neg (by rw [hp]; decide)).trans ?_))
  cases hf : (qs.filter fun x => t.fld (fPD (24 + x)) == 2).find? fun x => (quadLanes x).any t.liveLane with
  | none => rw [(find_flatMap_none _ _).2 hf]; rfl
  | some x =>
    obtain ⟨k, hk, hm⟩ := find_flatMap_some _ _ _ hf
    rw [hk]
    simp only [bLane_quad hm]

theorem quads_commanded (hp : cmdPwrStateSet.passes q s = true) (hk : fld q.params 0 1 = 2) : let t := s.taken q 0x0600
    let st := fld q.params 1 1
    let ns := maskOf (fld q.params 4 8) 4
    let go := t.quadsGo st ns
    ((∀ x ∈ ns, t.fld (fPD (24 + x)) ≠ 3) → (st = 0 ∨ go.any t.paired = false) → t.quadBad st go = none →
      ∃ u op, op.org = q.org ∧ op.opcode = 0x0600 ∧ op.targets = go.map (fun x => tDom (24 + x)) ∧
        exec (.pwrStateSet q) s = .next (settle (let w := place q 0x0600 (.accept op) u
          if (go.map fun x => tDom (24 + x)).isEmpty then endOp op { status := stOK } [] w else w)) ∧
        (∀ x ∈ go, u.fld (fPD (24 + x)) = 3) ∧ u.pwr.queue = t.pwr.queue ++ (if st = 0 then go.map fun x => .quad (ch4 x) else [])) ∧
    ((∃ x ∈ ns, t.fld (fPD (24 + x)) = 3) → exec (.pwrStateSet q) s = .next (settle (refuse q.org 0x0600 { status := stBUSY, b0 := 0 } t))) ∧
    ((∀ x ∈ ns, t.fld (fPD (24 + x)) ≠ 3) → st ≠ 0 → go.any t.paired = true →
      exec (.pwrStateSet q) s = .next (settle (refuse q.org 0x0600 { status := stCONFLICT, b1 := bMRG } t))) ∧
    ((∀ x ∈ ns, t.fld (fPD (24 + x)) ≠ 3) → (st = 0 ∨ go.any t.paired = false) → ∀ x, t.quadBad st go = some x →
      exec (.pwrStateSet q) s = .next (settle (refuse q.org 0x0600 { status := stCONFLICT, b1 := bHQ x } t))) := by
  intro t st ns go
  have hgo : ∀ x ∈ go, x < 4 := fun x hx => maskOf_lt (List.mem_filter.1 hx).1
  have hbody : cmdPwrStateSet.body q t = setQuads q st ns t := body_quads hk
  refine ⟨fun h3 hpair hbad => ?_, fun h => exec_pwrStateSet_error hp (hbody.trans (setQuads_busy _ _ _ h)),
    fun h3 h0 hpair => exec_pwrStateSet_error hp (hbody.trans (setQuads_paired h3 h0 hpair)), fun h3 hpair x hbad => ?_⟩
  · have hrun : ∀ u, cmdPwrStateSet.body q t = .ok (u, .accept (pwrOp q (go.map fun x => tDom (24 + x)) t)) →
        QuadsBegun (if st = 0 then go.map fun x => .quad (ch4 x) else []) go t u → _ := fun u hb hu =>
      accepted (ts := fun _ => go.map fun x => tDom (24 + x)) (post := fun t u => (∀ x ∈ go, u.fld (fPD (24 + x)) = 3) ∧
        u.pwr.queue = t.pwr.queue ++ (if st = 0 then go.map fun x => .quad (ch4 x) else [])) hp hb hu.orgs ⟨hu.pd, hu.queue⟩
    by_cases h0 : st = 0
    · refine hrun (each go quadQueued t) ?_ (by rw [if_pos h0]; exact quadsQueued go hgo t)
      rw [hbody, setQuads_start h3 h0, hbad]
    · refine hrun (each go quadStopped t) ?_ (by rw [if_neg h0]; exact quadsStopped go hgo t)
      rw [hbody, setQuads_stop h3 h0 (hpair.resolve_left h0), hbad]
  · refine exec_pwrStateSet_error hp (hbody.trans ?_)
    by_cases h0 : st = 0
    · rw [setQuads_start h3 h0, hbad]
      rfl
    · rw [setQuads_stop h3 h0 (hpair.resolve_left h0), hbad]
      rfl

/-! ### Keys gone -/

theorem smLookup_isSome_iff {α : Type} {m : SMap α} {k : Nat} : (smLookup m k).isSome = true ↔ ∃ v, (k, v) ∈ m := by
  induction m with
  | nil => simp [smLookup]
  | cons e m ih =>
    obtain ⟨j, w⟩ := e
    rw [smLookup]
    by_cases h : k = j
    · subst h
      simp
    · rw [if_neg h, ih]
      simp [h]

/-- A context is listed when its first word is. -/
theorem mem_contexts (s : State) (i : Nat) : i ∈ s.contexts ↔ i < 0x4000 ∧ (smLookup s.regs (rCPH_CTX_A i)).isSome = true := by
  rw [smLookup_isSome_iff, State.contexts]
  simp only [List.mem_map, List.mem_filter, Bool.and_eq_true, decide_eq_true_eq, beq_iff_eq, Prod.exists]
  constructor
  · rintro ⟨k, v, ⟨hm, ⟨hlo, hhi⟩, h8⟩, rfl⟩
    have hk : rCPH_CTX_A ((k - 0x220000) / 8) = k := by grind
    exact ⟨by omega, v, by rw [hk]; exact hm⟩
  · rintro ⟨hi, v, hm⟩
    exact ⟨_, v, ⟨hm, by grind⟩, by grind⟩

theorem contexts_nil_iff (s : State) : s.contexts = [] ↔ ∀ i, i < 0x4000 → smLookup s.regs (rCPH_CTX_A i) = none := by
  rw [List.eq_nil_iff_forall_not_mem]
  constructor
  · intro h i hi
    have := mt (mem_contexts s i).2 (h i)
    simpa [hi] using this
  · intro h i hm
    obtain ⟨hi, hs⟩ := (mem_contexts s i).1 hm
    rw [h i hi] at hs
    cases hs

theorem Quiet.contexts_nil {κ : Realm} (hκ : κ ≠ .power) (h : Quiet κ s t) (hs : s.contexts = []) : t.contexts = [] := by
  rw [contexts_nil_iff] at hs ⊢
  intro i hi
  rw [h.lookup (by grind), hs i hi]

theorem freeSet_regs (x : Nat) (s : State) : (freeSet x s).regs = s.regs := by
  rw [freeSet]
  split
  · rfl
  · exact each_inv (fun t => t.regs = s.regs) (fun k s => cntClear (kSession x k) s) (fun _ _ h => h) (span 0 6) _ rfl

theorem wipe_regs (i : Nat) (s : State) : (wipe i s).regs = smDel (smDel s.regs (rCPH_CTX_A i)) (rCPH_CTX_B i) := freeSet_regs _ _

theorem smLookup_wipe (i k : Nat) (s : State) :
    smLookup (wipe i s).regs (rCPH_CTX_A k) = if k = i then none else smLookup s.regs (rCPH_CTX_A k) := by
  rw [wipe_regs, smLookup_smDel_other _ _ _ (by grind)]
  split
  next h => rw [h, smLookup_smDel_same]
  next h => exact smLookup_smDel_other _ _ _ (by grind)

theorem smLookup_zeroise (i k : Nat) (hk : k < 0x4000) (s : State) :
    smLookup (zeroise i s).regs (rCPH_CTX_A k) = if k = i then none else smLookup s.regs (rCPH_CTX_A k) := by
  have hd : Quiet .keys s (dropAct i s) := .dropAct (.keys_refl s)
  have hz : smLookup (zeroise i s).regs (rCPH_CTX_A k) = smLookup (wipe i (dropAct i s)).regs (rCPH_CTX_A k) := by
    rw [zeroise]
    split
    · exact (Quiet.offer (.keys_refl _)).lookup (by grind)
    · rfl
  rw [hz, smLookup_wipe, hd.lookup (by grind)]

theorem smLookup_eachZeroise (l : List Nat) (k : Nat) (hk : k < 0x4000) (s : State) :
    smLookup (each l zeroise s).regs (rCPH_CTX_A k) = if k ∈ l then none else smLookup s.regs (rCPH_CTX_A k) := by
  induction l generalizing s with
  | nil => rfl
  | cons i l ih =>
    change smLookup (each l zeroise (zeroise i s)).regs _ = _
    rw [ih, smLookup_zeroise i k hk]
    by_cases h : k = i
    · simp [h]
    · simp [h]

/-- Zeroisation leaves no context and no KEK. -/
theorem zeroiseAll_spec (s : State) : (zeroiseAll s).contexts = [] ∧ (zeroiseAll s).cph.kek = none := by
  refine ⟨?_, rfl⟩
  have hquiet : ∀ t : State, ∀ k, smLookup (t.setB fCPH_STATUS_KEK_VALID false).regs (rCPH_CTX_A k) = smLookup t.regs (rCPH_CTX_A k) := fun t k =>
    smLookup_smSet_other _ _ _ _ _ (by grind)
  rw [contexts_nil_iff]
  intro k hk
  rw [zeroiseAll, hquiet]
  refine (smLookup_eachZeroise s.contexts k hk s).trans ?_
  split
  · rfl
  next h =>
    have := mt (mem_contexts s k).2 h
    simpa [hk] using this

/-! ### HBM gone -/

/-- The stacks' contents and the memory's status stay. -/
structure StacksKept (r s : State) : Prop where
  hbm : s.mem.hbm = r.mem.hbm
  status : s.rd rMEM_STATUS = r.rd rMEM_STATUS

section
variable {r : State}

theorem StacksKept.refl (s : State) : StacksKept s s := ⟨rfl, rfl⟩

theorem StacksKept.trans (h : StacksKept r s) (h' : StacksKept s t) : StacksKept r t := ⟨h'.hbm.trans h.hbm, h'.status.trans h.status⟩

theorem StacksKept.ite {c : Prop} {_ : Decidable c} (hs : StacksKept r s) (ht : StacksKept r t) : StacksKept r (if c then s else t) := by
  split
  · exact hs
  · exact ht

theorem StacksKept.wr (h : StacksKept r s) {off : Nat} {v : Word} (ho : rMEM_STATUS ≠ off) : StacksKept r (s.wr off v) :=
  ⟨h.hbm, (State.rd_wr_other _ _ _ _ ho).trans h.status⟩

theorem StacksKept.setF (h : StacksKept r s) {f : Fld} {v : Nat} (hf : rMEM_STATUS ≠ f.reg) : StacksKept r (s.setF f v) := h.wr hf

theorem StacksKept.setB (h : StacksKept r s) {f : Fld} {b : Bool} (hf : rMEM_STATUS ≠ f.reg) : StacksKept r (s.setB f b) := h.wr hf

theorem StacksKept.offer (h : StacksKept r s) {code block p0 p1 : Nat} : StacksKept r (offer code block p0 p1 s) :=
  ⟨by rw [offer_mem]; exact h.hbm, (rd_offer _ _ _ _ _ _ (by decide)).trans h.status⟩

theorem StacksKept.via (hf : StacksKept r s → StacksKept r t) (h : StacksKept r s) : StacksKept r t := hf h

theorem StacksKept.state_setMem (h : StacksKept r s) {m : MemSt} (hm : m.hbm = s.mem.hbm) : StacksKept r (s.setMem m) := ⟨hm.trans h.hbm, h.status⟩

theorem StacksKept.count (h : StacksKept r s) {k : Nat} : StacksKept r (count k s) := ⟨h.hbm, h.status⟩

theorem StacksKept.setPair (h : StacksKept r s) {p : Nat} {m : MrgSt} : StacksKept r (setPair p m s) := ⟨h.hbm, h.status⟩

theorem StacksKept.sramWrite (h : StacksKept r s) {st i : Nat} : StacksKept r (sramWrite st i s) := by
  exact .ite (.setB (.state_setMem h (by rfl)) (by grind)) (.ite h (.state_setMem h (by rfl)))

theorem StacksKept.setEntry (h : StacksKept r s) {p : Nat} {e : Ledger} : StacksKept r (setEntry p e s) := .sramWrite (.setPair h)

theorem StacksKept.mrgOcc (h : StacksKept r s) {p : Nat} : StacksKept r (mrgOcc p s) :=
  .ite (.setF (.setF h (by grind)) (by grind)) (.setF h (by grind))

theorem StacksKept.wtrOff (h : StacksKept r s) {p : Nat} : StacksKept r (wtrOff p s) := .setF (.setB (.setPair h) (by grind)) (by grind)

theorem StacksKept.wtrRule (h : StacksKept r s) {p : Nat} : StacksKept r (wtrRule p s) :=
  .ite (.setF (.setB (.setPair h) (by grind)) (by grind)) (.ite h (.ite (.wtrOff h) (.ite h (.ite (.wtrOff h)
    (.offer (.setF (.setB h (by grind)) (by grind)))))))

theorem StacksKept.indicate (h : StacksKept r s) {p k : Nat} {f : Fld} {on : Bool} (hf : rMEM_STATUS ≠ f.reg) :
    StacksKept r (indicate p k f on s) := .ite h (.offer (.setB h hf))

theorem StacksKept.srSent (h : StacksKept r s) {p : Nat} : StacksKept r (srSent p s) := .wr h (by grind)

theorem StacksKept.mrgEval (h : StacksKept r s) {p : Nat} : StacksKept r (mrgEval p s) :=
  .ite h (.via (fun ht => .via (fun hu => .via (fun hv => .srSent (.ite (.indicate (.indicate hv (by grind)) (by grind))
    (.setPair (.indicate (.indicate hv (by grind)) (by grind))))) (.ite hu (.offer (.count (.setB hu (by grind))))))
    (.ite (.setPair (.setB (.setF ht (by grind)) (by grind))) (.setB (.setF ht (by grind)) (by grind))))
    (.setF (.setB (.setF (.setPair (.wtrRule h)) (by grind)) (by grind)) (by grind)))

theorem StacksKept.each {α : Type} {f : α → State → State} {l : List α} (hf : ∀ a t, StacksKept r t → StacksKept r (f a t)) (h : StacksKept r s) :
    StacksKept r (each l f s) := each_inv (StacksKept r) f hf l s h

theorem StacksKept.storeFlag (h : StacksKept r s) {p : Nat} {lost : Bool} : StacksKept r (storeFlag p lost s) := by
  unfold Machine.storeFlag
  refine .ite h ?_
  extract_lets t x drop
  have ht : StacksKept r t := .offer (.setB h (by grind))
  have hd {m : Nat} {v : State} (hv : StacksKept r v) : StacksKept r (drop m v) := by
    refine .each (fun c w hw => .count (.setPair ?_)) hv
    split
    · exact .setEntry hw
    · exact hw
  exact .mrgEval (.mrgOcc (.ite (hd (hd ht)) ht))

theorem StacksKept.storeLost (h : StacksKept r s) {p : Nat} {lost : Bool} : StacksKept r (storeLost p lost s) := .ite (.storeFlag h) h

theorem StacksKept.answered (h : StacksKept r s) (ha : Answered s t) : StacksKept r t :=
  ⟨by rw [ha.frame]; exact h.hbm, (ha.regs rMEM_STATUS (by decide) (by decide)).trans h.status⟩

theorem StacksKept.endOp (h : StacksKept r s) {op : Op} {x : Ref} {ps : List Byte} : StacksKept r (endOp op x ps s) := by
  have hd : StacksKept r (dropOp op s) := ⟨h.hbm, h.status⟩
  have hr : StacksKept r (refuseRecord op.org op.opcode x (dropOp op s)) := .count (.offer hd)
  exact .ite (hr.answered (Machine.answered _ _ _ _ _ _)) (hd.answered (Machine.answered _ _ _ _ _ _))

theorem StacksKept.targetDone (h : StacksKept r s) {opcode target : Nat} {failed : Option Nat} {ps : List Byte} :
    StacksKept r (targetDone opcode target failed ps s) := by
  unfold Machine.targetDone
  split
  · exact h
  · extract_lets fail op' v
    have hv : StacksKept r v := ⟨h.hbm, h.status⟩
    clear_value fail v
    refine .ite ?_ hv
    cases fail
    · exact .endOp hv
    · exact .endOp hv

end

/-- With the stacks gone the memory is not ready, and no word of theirs is left. -/
theorem hbmLost_spec (s : State) : (hbmLost s).flag fMEM_STATUS_HBM_READY = false ∧ (hbmLost s).mem.hbm = [] := by
  unfold hbmLost
  extract_lets t u m v x w
  have ht : t.flag fMEM_STATUS_HBM_READY = false := by
    rw [State.flag, State.fld_setB_apart _ _ _ _ (by decide) (by decide), State.fld_setF_reg _ _ _ _ (by decide),
      State.fld_setB_reg _ _ _ _ (by decide), State.fld_setB_same _ _ _ (by decide) (by decide)]
    rfl
  have hu : StacksKept t u := .ite (.targetDone (.refl t)) (.refl t)
  have hready : v.flag fMEM_STATUS_HBM_READY = false := (congrArg (fun w => fMEM_STATUS_HBM_READY.of w != 0) hu.status).trans ht
  have hend : ∀ e, StacksKept v e → e.flag fMEM_STATUS_HBM_READY = false ∧ e.mem.hbm = [] := fun e he =>
    ⟨(congrArg (fun w => fMEM_STATUS_HBM_READY.of w != 0) he.status).trans hready, he.hbm⟩
  have hw : StacksKept v w := .setB (r := v) (f := fCB_STATUS_ARCHIVE) (b := false)
      (s := { v with cb := { x with archive := [], toArchive := [] } }) ⟨rfl, rfl⟩ (by decide)
  exact hend _ (.each (fun _ _ h => .storeLost h) (.each (fun _ _ h => ⟨h.hbm, h.status⟩) ⟨hw.hbm, hw.status⟩))

/-! ### Domains -/

/-- The targets of kind 3. -/
theorem domMask_mem {m d : Nat} (h : d ∈ domMask m) : d = 3 ∨ d = 28 ∨ d = 29 ∨ d = 30 := by
  simpa using (List.mem_filter.1 h).1

theorem domMask_nodup (m : Nat) : (domMask m).Nodup := List.Nodup.filter _ (by decide)

/-- A domain starts, or waits to start already. -/
theorem queueDomain_spec (d : Nat) (hd : d < 31) (s : State) (h0 : s.fld (fPD d) = 0) : let u := queueDomain d s
    (StartItem.domain d ∉ s.pwr.queue → u.fld (fPD d) = 3 ∧ (d = 30 → u.fld (fPD 31) = 3)) ∧ StartItem.domain d ∈ u.pwr.queue ∧
      (∀ x, x ∈ s.pwr.queue → x ∈ u.pwr.queue) ∧ (∀ x, x ∈ u.pwr.queue → x ∈ s.pwr.queue ∨ x = .domain d) ∧
      (∀ e, e < 32 → e ≠ d → (d = 30 → e ≠ 31) → u.fld (fPD e) = s.fld (fPD e)) ∧ OrgsFrom s u := by
  intro u
  by_cases hq : StartItem.domain d ∈ s.pwr.queue
  · have hu : u = s := if_pos (by simp [hq])
    rw [hu]
    exact ⟨fun h => absurd hq h, hq, fun _ h => h, fun _ h => .inl h, fun _ _ _ _ => rfl, .refl s⟩
  · have hp := (PowerAt.self s).queueDomain (d := d) (by omega) h0 hq
    have horgs : OrgsFrom s u := by
      change OrgsFrom s (queueDomain d s)
      rw [queueDomain, if_neg (by simp [h0, hq])]
      split <;> exact (OrgsFrom.refl s)
    have hqueue : u.pwr.queue = s.pwr.queue ++ [.domain d] := by rw [show u = queueDomain d s from rfl, hp.pwr]
    refine ⟨fun _ => ⟨(hp.pd d (by omega)).trans ?_, fun h30 => (hp.pd 31 (by decide)).trans ?_⟩, by rw [hqueue]; simp,
      fun x hx => by rw [hqueue]; exact List.mem_append_left _ hx, fun x hx => ?_, fun e he hne h31 => (hp.pd e he).trans ?_, horgs⟩
    · split
      next h => rw [h, not_mem_setOn (by simp), mem_setOn (by simp)]
      · exact mem_setOn (by simp)
    · rw [if_pos h30, mem_setOn (by simp)]
    · rw [hqueue, List.mem_append, List.mem_singleton] at hx
      exact hx
    · split
      next h => rw [not_mem_setOn (by simp; omega), not_mem_setOn (by simp; omega)]
      · exact not_mem_setOn (by simpa using hne)

/-- Domains that start, or wait to start already. -/
structure DomsQueued (go : List Nat) (s t : State) : Prop where
  pd : ∀ d ∈ go, StartItem.domain d ∉ s.pwr.queue → t.fld (fPD d) = 3 ∧ (d = 30 → t.fld (fPD 31) = 3)
  waits : ∀ d ∈ go, StartItem.domain d ∈ t.pwr.queue
  only : ∀ x ∈ t.pwr.queue, x ∈ s.pwr.queue ∨ ∃ d ∈ go, x = .domain d
  other : ∀ e, e < 31 → e ∉ go → t.fld (fPD e) = s.fld (fPD e)
  orgs : OrgsFrom s t

theorem domsQueued (go : List Nat) (hgo : ∀ d ∈ go, d < 31) (hn : go.Nodup) (s : State) (h0 : ∀ d ∈ go, s.fld (fPD d) = 0) :
    DomsQueued go s (each go queueDomain s) := by
  induction go using List.reverseRecOn with
  | nil => exact ⟨nofun, nofun, fun _ h => .inl h, fun _ _ _ => rfl, .refl s⟩
  | append_singleton go d ih =>
    have hstep : each (go ++ [d]) queueDomain s = queueDomain d (each go queueDomain s) := by simp [each]
    obtain ⟨hn, -, hdis⟩ := List.nodup_append.1 hn
    have hnot : d ∉ go := fun h => hdis d h d (by simp) rfl
    have hd : d < 31 := hgo d (by simp)
    have ih := ih (fun e he => hgo e (List.mem_append_left _ he)) hn fun e he => h0 e (List.mem_append_left _ he)
    obtain ⟨hpd, hin, hold, honly, hother, horgs⟩ := queueDomain_spec d hd _ ((ih.other d hd hnot).trans (h0 d (by simp)))
    rw [hstep]
    refine ⟨fun e he hq => ?_, fun e he => ?_, fun x hx => ?_, fun e he hne => ?_, ih.orgs.trans horgs⟩
    · rcases List.mem_append.1 he with he' | he'
      · have hne : e ≠ d := fun h => hnot (h ▸ he')
        have he31 := hgo e he
        obtain ⟨h3, h31⟩ := ih.pd e he' hq
        exact ⟨(hother e (by omega) hne (by omega)).trans h3, fun h => (hother 31 (by decide) (by omega) (by omega)).trans (h31 h)⟩
      · obtain rfl := List.mem_singleton.1 he'
        refine hpd fun hm => ?_
        rcases ih.only _ hm with h | ⟨e', he', heq⟩
        · exact hq h
        · cases heq
          exact hnot he'
    · rcases List.mem_append.1 he with he' | he'
      · exact hold _ (ih.waits e he')
      · exact List.mem_singleton.1 he' ▸ hin
    · rcases honly x hx with h | rfl
      · rcases ih.only x h with h | ⟨e, he, rfl⟩
        · exact .inl h
        · exact .inr ⟨e, List.mem_append_left _ he, rfl⟩
      · exact .inr ⟨d, by simp, rfl⟩
    · simp only [List.mem_append, List.mem_singleton, not_or] at hne
      exact (hother e (by omega) hne.2 (by omega)).trans (ih.other e he hne.1)

/-- The domains that change with one: the two stacks go together (R17). -/
def domPds (d : Nat) : List Nat := if d = 30 then [30, 31] else [d]

theorem setOn_append (l l' : List Nat) (v : Nat) (f : Nat → Nat) : setOn l' v (setOn l v f) = setOn (l ++ l') v f := by
  funext m
  simp only [setOn, List.mem_append]
  grind

theorem PowerAt.domBegin {ch pd : Nat → Nat} {p : PwrSt} (h : PowerAt s ch pd p) {d : Nat} (hd : d < 32) :
    PowerAt (domBegin d s) ch (setOn (domPds d) 3 pd) p := by
  rw [Machine.domBegin]
  by_cases h30 : d = 30
  · rw [if_pos h30, domPds, if_pos h30, ← setOn_cons]
    exact ((h.quiet (.hbmLost (.power_refl s))).setPD (by decide) (by decide)).setPD (by decide) (by decide)
  · rw [if_neg h30, domPds, if_neg h30]
    by_cases h29 : d = 29
    · rw [if_pos h29, h29]
      exact (h.quiet (.offer (.zeroiseAll (.power_refl s)))).setPD (by decide) (by decide)
    · rw [if_neg h29]
      exact h.setPD hd (by decide)

theorem PowerAt.eachDomBegin {ch pd : Nat → Nat} {p : PwrSt} {go : List Nat} (h : PowerAt s ch pd p) (hgo : ∀ d ∈ go, d < 32) :
    PowerAt (each go Machine.domBegin s) ch (setOn (go.flatMap domPds) 3 pd) p := by
  induction go generalizing s pd with
  | nil => exact h
  | cons d go ih =>
    rw [List.flatMap_cons, ← setOn_append]
    exact ih (h.domBegin (hgo d List.mem_cons_self)) fun e he => hgo e (List.mem_cons_of_mem _ he)

/-- No context and no KEK. -/
def NoKeys (s : State) : Prop := s.contexts = [] ∧ s.cph.kek = none

theorem Quiet.noKeys (h : Quiet .keys s t) (hs : NoKeys s) : NoKeys t := ⟨h.contexts_nil (by decide) hs.1, h.on.2.2.trans hs.2⟩

theorem noKeys_domBegin (d : Nat) (s : State) (h : d = 29 ∨ NoKeys s) : NoKeys (domBegin d s) := by
  rw [domBegin]
  by_cases h30 : d = 30
  · rw [if_pos h30]
    exact Quiet.noKeys (.setPD (by decide) (.setPD (by decide) (.hbmLost (.keys_refl s)))) (h.resolve_left (by omega))
  · rw [if_neg h30]
    by_cases h29 : d = 29
    · rw [if_pos h29]
      exact Quiet.noKeys (.setPD (by decide) (.offer (.keys_refl _))) (zeroiseAll_spec s)
    · rw [if_neg h29]
      exact Quiet.noKeys (.setPD (by decide) (.keys_refl s)) (h.resolve_left h29)

theorem noKeys_eachDomBegin (go : List Nat) (s : State) (h : 29 ∈ go ∨ NoKeys s) : NoKeys (each go domBegin s) := by
  induction go generalizing s with
  | nil => exact h.resolve_left (by simp)
  | cons d go ih =>
    refine ih (domBegin d s) ?_
    by_cases hd : 29 ∈ go
    · exact .inl hd
    · refine .inr (noKeys_domBegin d s (h.imp_left fun h => ?_))
      exact ((List.mem_cons.1 h).resolve_right hd).symm

/-- Neither stack is ready, and no word of theirs is left. -/
theorem domBegin_stacks (s : State) : (domBegin 30 s).flag fMEM_STATUS_HBM_READY = false ∧ (domBegin 30 s).mem.hbm = [] := by
  obtain ⟨hready, hempty⟩ := hbmLost_spec s
  refine ⟨?_, hempty⟩
  have hreg : ∀ d, (fPD d).reg ≠ fMEM_STATUS_HBM_READY.reg := fun d => by grind
  change (setPD 31 3 (setPD 30 3 (hbmLost s))).flag _ = false
  rw [State.flag, setPD, State.fld_setF_reg _ _ _ _ (hreg 31).symm, setPD, State.fld_setF_reg _ _ _ _ (hreg 30).symm]
  exact hready

theorem orgsFrom_domBegin (d : Nat) (s : State) : OrgsFrom s (domBegin d s) := by
  rw [domBegin]
  by_cases h30 : d = 30
  · rw [if_pos h30]
    exact (Quiet.orgsFrom (.hbmLost (.power_refl s))).of_ops (by rw [setPD, State.setF_ops, setPD, State.setF_ops])
  · rw [if_neg h30]
    by_cases h29 : d = 29
    · rw [if_pos h29]
      exact (Quiet.orgsFrom (.offer (.zeroiseAll (.power_refl s)))).of_ops (by rw [setPD, State.setF_ops])
    · rw [if_neg h29]
      exact (OrgsFrom.refl s).of_ops (by rw [setPD, State.setF_ops])

theorem orgsFrom_eachDomBegin (go : List Nat) (s : State) : OrgsFrom s (each go domBegin s) :=
  each_inv (OrgsFrom s) domBegin (fun d t ht => ht.trans (orgsFrom_domBegin d t)) go s (.refl s)

/-- The stacks are the last domain of a command. -/
theorem domMask_last {m : Nat} {p : Nat → Bool} (h : 30 ∈ (domMask m).filter p) : ∃ l, (domMask m).filter p = l ++ [30] := by
  have h30 : bit m 30 = true ∧ p 30 = true := by
    rw [List.mem_filter, domMask, List.mem_filter] at h
    exact ⟨h.1.2, h.2⟩
  refine ⟨([3, 28, 29].filter (bit m)).filter p, ?_⟩
  rw [domMask, show [3, 28, 29, 30] = [3, 28, 29] ++ [30] from rfl, List.filter_append, List.filter_append]
  simp [h30.1, h30.2]

/-- The domains that a command would change. -/
def State.domsGo (t : State) (st : Nat) (ds : List Nat) : List Nat := ds.filter fun d => t.fld (fPD d) == (if st = 0 then 0 else 2)

theorem setDomains_busy {st : Nat} {ds : List Nat} (h : ∃ d ∈ ds, t.fld (fPD d) = 3) :
    setDomains q st ds t = .error { status := stBUSY, b0 := 0 } := if_pos (by simpa using h)

theorem setDomains_start {st : Nat} {ds : List Nat} (h3 : ∀ d ∈ ds, t.fld (fPD d) ≠ 3) (h0 : st = 0) : setDomains q st ds t =
    .ok (each (t.domsGo st ds) queueDomain t, .accept (pwrOp q ((t.domsGo st ds).map tDom) t)) := by
  subst h0
  exact (if_neg (by simpa using h3)).trans (if_pos rfl)

theorem setDomains_stop {st : Nat} {ds : List Nat} (h3 : ∀ d ∈ ds, t.fld (fPD d) ≠ 3) (h0 : st ≠ 0) : setDomains q st ds t =
    match (t.domsGo st ds).findSome? t.domDependant with
    | some b => .error (conflict b)
    | none => .ok (each (t.domsGo st ds) domBegin t, .accept (pwrOp q ((t.domsGo st ds).map tDom) t)) := by
  rw [State.domsGo, if_neg h0]
  exact (if_neg (by simpa using h3)).trans (if_neg h0)

/-- What a command for domains has done. -/
structure DomsBegun (st : Nat) (go : List Nat) (t u : State) : Prop where
  pd : ∀ d ∈ go, (st = 0 → StartItem.domain d ∉ t.pwr.queue) → u.fld (fPD d) = 3 ∧ (d = 30 → u.fld (fPD 31) = 3)
  waits : st = 0 → ∀ d ∈ go, StartItem.domain d ∈ u.pwr.queue
  keys : st = 1 → 29 ∈ go → u.contexts = [] ∧ u.cph.kek = none
  hbm : st = 1 → 30 ∈ go → u.flag fMEM_STATUS_HBM_READY = false ∧ u.mem.hbm = []

theorem domsBegun_start {go : List Nat} (h : DomsQueued go t u) : DomsBegun 0 go t u :=
  ⟨fun d hd hq => h.pd d hd (hq rfl), fun _ => h.waits, nofun, nofun⟩

theorem domsBegun_stop {st m : Nat} {go : List Nat} {p : Nat → Bool} (h0 : st ≠ 0) (hgo : go = (domMask m).filter p) (t : State) :
    DomsBegun st go t (each go domBegin t) := by
  have h32 : ∀ d ∈ go, d < 32 := fun d hd => by
    rw [hgo] at hd
    rcases domMask_mem (List.mem_filter.1 hd).1 with h | h | h | h <;> omega
  have hp := (PowerAt.self t).eachDomBegin h32
  refine ⟨fun d hd _ => ⟨(hp.pd d (h32 d hd)).trans (mem_setOn ?_), fun h30 => (hp.pd 31 (by decide)).trans (mem_setOn ?_)⟩,
    fun h => absurd h h0, fun _ h29 => noKeys_eachDomBegin go t (.inl h29), fun _ h30 => ?_⟩
  · rw [List.mem_flatMap]
    exact ⟨d, hd, by rw [domPds]; split <;> simp [*]⟩
  · rw [List.mem_flatMap]
    exact ⟨d, hd, by rw [domPds, if_pos h30]; simp⟩
  · subst hgo
    obtain ⟨l, hl⟩ := domMask_last h30
    rw [hl, show each (l ++ [30]) domBegin t = domBegin 30 (each l domBegin t) by simp [each]]
    exact domBegin_stacks _

theorem domains_commanded (hp : cmdPwrStateSet.passes q s = true) (hk : fld q.params 0 1 = 3) : let t := s.taken q 0x0600
    let st := fld q.params 1 1
    let ds := domMask (fld q.params 4 8)
    let go := t.domsGo st ds
    ((∀ d ∈ ds, t.fld (fPD d) ≠ 3) → (st = 0 ∨ go.findSome? t.domDependant = none) →
      ∃ u op, op.org = q.org ∧ op.opcode = 0x0600 ∧ op.targets = go.map tDom ∧
        exec (.pwrStateSet q) s = .next (settle (let w := place q 0x0600 (.accept op) u
          if (go.map tDom).isEmpty then endOp op { status := stOK } [] w else w)) ∧ DomsBegun st go t u) ∧
    ((∃ d ∈ ds, t.fld (fPD d) = 3) → exec (.pwrStateSet q) s = .next (settle (refuse q.org 0x0600 { status := stBUSY, b0 := 0 } t))) ∧
    ((∀ d ∈ ds, t.fld (fPD d) ≠ 3) → st ≠ 0 → ∀ b, go.findSome? t.domDependant = some b →
      exec (.pwrStateSet q) s = .next (settle (refuse q.org 0x0600 { status := stCONFLICT, b1 := b } t))) := by
  intro t st ds go
  have hbody : cmdPwrStateSet.body q t = setDomains q st ds t := body_domains hk
  refine ⟨fun h3 hfree => ?_, fun h => exec_pwrStateSet_error hp (hbody.trans (setDomains_busy h)), fun h3 h0 b hb => ?_⟩
  · have hrun : ∀ u, cmdPwrStateSet.body q t = .ok (u, .accept (pwrOp q (go.map tDom) t)) → OrgsFrom t u → DomsBegun st go t u →
        _ := fun u hb ho hu =>
      accepted (ts := fun _ => go.map tDom) (post := DomsBegun st go) hp hb ho hu
    by_cases h0 : st = 0
    · have hq : DomsQueued go t (each go queueDomain t) := by
        refine domsQueued go (fun d hd => ?_) ((domMask_nodup _).filter _) t fun d hd => ?_
        · rcases domMask_mem (List.mem_filter.1 hd).1 with h | h | h | h <;> omega
        · have := (List.mem_filter.1 hd).2
          rw [if_pos h0] at this
          exact beq_iff_eq.1 this
      exact hrun (each go queueDomain t) (hbody.trans (setDomains_start h3 h0)) hq.orgs (h0 ▸ domsBegun_start hq)
    · refine hrun (each go domBegin t) ?_ (orgsFrom_eachDomBegin go t) (domsBegun_stop h0 rfl t)
      rw [hbody, setDomains_stop h3 h0, hfree.resolve_left h0]
  · refine exec_pwrStateSet_error hp (hbody.trans ?_)
    rw [setDomains_stop h3 h0, hb]
    rfl

/-! ### The obligation -/

/-- Settles O52: each kind of `PWR_STATE_SET` by its own lemma, and each event of the power machinery by what it leaves. -/
theorem powerStates : Obligations.PowerStates := by
  unfold Obligations.PowerStates
  intro runs turned
  refine ⟨fun q s hp => ⟨fun hk => channels_commanded hp hk, fun hk => lanes_commanded hp hk, fun hk => quads_commanded hp hk, fun hk => ?_⟩,
    chRefuse_cases, startQueue, fun c s => ⟨exec_quadReachesL0 c s, exec_quadReachesL0_idle c s⟩,
    fun n s => ⟨fun h => ⟨_, exec_channelActive n s h, chActive_started n s⟩, exec_channelActive_idle n s⟩, channelTransition, domainTransition,
    pwrReport, pwrWakeSet, pwrAcctRead, fun s => ⟨acctClear_ready s, acctClear_early s⟩⟩
  obtain ⟨hrun, hbusy, hconflict⟩ := domains_commanded hp hk
  refine ⟨fun h3 hfree => ?_, hbusy, hconflict⟩
  obtain ⟨u, op, horg, hcode, htargets, hexec, hpd, hwaits, hkeys, hhbm⟩ := hrun h3 hfree
  exact ⟨u, op, horg, hcode, htargets, hexec, hpd, hwaits, hkeys, hhbm⟩
end
end Sys2Proof.Machine
end

/-! # The dark house: wake sources, wake, and the requests that reset the part (R410, R411, R414) -/
section
namespace Sys2Proof.Machine

open Sys2Proof

section
variable {s t u : State} {q : Request}

/-! ### The requests -/

theorem sysReset_arms : Does cmdSysReset .sysReset (fun _ _ => True) fun q t ans u =>
    ans = .done [] ∧ u.boot.warm = some (fld q.params 1 1) ∧ u.regs = t.regs ∧ u.cb = t.cb :=
  does_of (fun _ _ => rfl) fun _ _ _ _ => ⟨_, _, rfl, rfl, rfl, rfl, rfl⟩

theorem fwSvnCommit_blows (k : Nat) : Does (cmdFwSvnCommit k) (fun q => .fwSvnCommit q k) (fun _ t => t.flag fSYS_BOOT_STATUS_SOURCE = false)
    fun _ t ans u =>
    let need := min 64 (t.fld fSYS_BOOT_STATUS_IMAGE_SVN) - t.boot.svn
    u.boot.svn = t.boot.svn + min k need ∧ u.fld fSYS_BOOT_STATUS_FUSED_SVN = u.boot.svn % 256 ∧ OnlyRegs [rSYS_BOOT_STATUS] t u ∧
      ans = if u.boot.svn < t.fld fSYS_BOOT_STATUS_IMAGE_SVN then .fail { status := stHW_FAULT } else .done (le 1 u.boot.svn) := by
  refine does_of (fun _ _ => rfl) fun q t _ hsource => ?_
  let v := t.boot.svn + min k (min 64 (t.fld fSYS_BOOT_STATUS_IMAGE_SVN) - t.boot.svn)
  let u := lifeDue ((t.setBoot { t.boot with svn := v }).setF fSYS_BOOT_STATUS_FUSED_SVN v)
  have hbody : (cmdFwSvnCommit k).body q t = if v < t.fld fSYS_BOOT_STATUS_IMAGE_SVN then .ok (u, .fail { status := stHW_FAULT })
      else .ok (u, .done (le 1 v)) :=
    if_neg (by rw [hsource]; decide)
  have hsvn : u.boot.svn = v := by
    change ((t.setBoot _).setF fSYS_BOOT_STATUS_FUSED_SVN v).boot.svn = v
    rw [State.setF_boot]
    rfl
  have hfused : u.fld fSYS_BOOT_STATUS_FUSED_SVN = v % 256 := State.fld_setF_same _ fSYS_BOOT_STATUS_FUSED_SVN v (by decide)
  have hregs : OnlyRegs [rSYS_BOOT_STATUS] t u := fun off _ hoff => State.rd_wr_other _ _ _ _ (by simpa using hoff)
  refine ⟨if v < t.fld fSYS_BOOT_STATUS_IMAGE_SVN then .fail { status := stHW_FAULT } else .done (le 1 v), u, ?_, hsvn, by rw [hsvn]; exact hfused,
      hregs, by rw [hsvn]⟩
  rw [hbody]
  split <;> rfl

theorem fwSvnCommit_download (k : Nat) : Turned (cmdFwSvnCommit k) (fun q => .fwSvnCommit q k) (fun _ t => t.flag fSYS_BOOT_STATUS_SOURCE = true)
    fun _ _ => { status := stWRONG_STATE } :=
  turned_of (fun _ _ => rfl) fun _ _ _ hsource => if_pos hsource

/-! ### Wake sources -/

/-- The condition on which an enabled source fires. -/
def State.mayWake (s : State) : Prop :=
  s.pwr.wake = none ∧ (s.pwr.entry.isSome = true ∨ s.pwr.asleep = true) ∧ s.boot.powerDown = false ∧ s.boot.resetLow = false ∧ s.boot.gated = false

/-- The enable of a source. -/
def State.wakeEnabled (s : State) (c : Nat) : Bool :=
  if c = 1 then s.flag fPWR_WAKE_CTRL_WAKE_N_EN else if c = 2 then s.flag fPWR_WAKE_CTRL_I2C_EN else s.flag fPWR_WAKE_CTRL_TIMER_EN

theorem wakeFires_on {c : Nat} (h : s.wakeEnabled c = true ∧ s.mayWake) : wakeFires c s = { s with pwr := { s.pwr with wake := some c } } := by
  obtain ⟨hen, hwake, hnight, hdown, hreset, hgated⟩ := h
  have hnight' : (s.pwr.entry.isSome || s.pwr.asleep) = true := by simpa using hnight
  refine if_pos ?_
  change (s.wakeEnabled c && s.pwr.wake.isNone && _ && _ && _ && _) = true
  rw [hen, hwake, hnight', hdown, hreset, hgated]
  rfl

theorem wakeFires_off {c : Nat} (h : ¬ (s.wakeEnabled c = true ∧ s.mayWake)) : wakeFires c s = s := by
  refine if_neg ?_
  change ¬ (s.wakeEnabled c && s.pwr.wake.isNone && _ && _ && _ && _) = true
  simp only [Bool.and_eq_true, Bool.or_eq_true, Bool.not_eq_true', Option.isNone_iff_eq_none]
  exact fun hall => h ⟨hall.1.1.1.1.1, hall.1.1.1.1.2, hall.1.1.1.2, hall.1.1.2, hall.1.2, hall.2⟩

/-- The source that wakes, after a source has had its event. -/
theorem wakeFires_spec (c : Nat) (s : State) {here : Prop} {_ : Decidable (s.wakeEnabled c = true ∧ here)} (hhere : here ↔ s.mayWake) :
    (wakeFires c s).pwr.wake = (if s.wakeEnabled c = true ∧ here then some c else s.pwr.wake) ∧ (wakeFires c s).regs = s.regs ∧
      (wakeFires c s).pwr.asleep = s.pwr.asleep := by
  by_cases h : s.wakeEnabled c = true ∧ here
  · rw [wakeFires_on (h.imp_right hhere.1), if_pos h]
    exact ⟨rfl, rfl, rfl⟩
  · rw [wakeFires_off (mt (And.imp_right hhere.2) h), if_neg h]
    exact ⟨rfl, rfl, rfl⟩

theorem wakeFires_free (c : Nat) (s : State) : (wakeFires c s).free = s.free := by
  by_cases h : s.wakeEnabled c = true ∧ s.mayWake
  · rw [wakeFires_on h]
  · rw [wakeFires_off h]

theorem exec_wakeNLow (s : State) : exec .wakeNLow s = .next (settle (if s.boot.railsLow.contains 10 = true then
    (if s.draw.1 % 2 = 0 then s.draw.2 else wakeFires 1 s.draw.2) else wakeFires 1 s)) := by
  change execWakeNLow s = _
  rw [execWakeNLow]
  split <;> rfl

theorem exec_i2cAddressMatch (s : State) {a : Fin 128} (h : a.val = s.i2cAddress) : exec (.i2cAddressMatch a) s = .next (settle (
    if s.boot.railsLow.contains 10 = true then (if s.draw.1 % 2 = 0 then s.draw.2 else wakeFires 2 s.draw.2) else wakeFires 2 s)) := by
  change execI2cAddressMatch a s = _
  rw [execI2cAddressMatch, if_neg (by simpa using h)]
  split <;> rfl

theorem exec_i2cAddressMatch_other (s : State) {a : Fin 128} (h : a.val ≠ s.i2cAddress) : exec (.i2cAddressMatch a) s = .next (settle s) := by
  change execI2cAddressMatch a s = _
  rw [execI2cAddressMatch, if_pos h]
  rfl

/-- A source whose event a pad may miss: the free choice is taken, and the source fires or nothing does. -/
theorem maybeFires_spec (c : Nat) (s : State) {here : Prop} {_ : Decidable (s.wakeEnabled c = true ∧ here)} (hhere : here ↔ s.mayWake) :
    let t := if s.draw.1 % 2 = 0 then s.draw.2 else wakeFires c s.draw.2
    t.free = s.free + 1 ∧ (t.pwr = s.pwr ∨ t.pwr.wake = (if s.wakeEnabled c = true ∧ here then some c else s.pwr.wake) ∧ t.regs = s.regs ∧
      t.pwr.asleep = s.pwr.asleep) := by
  by_cases h : s.draw.1 % 2 = 0
  · simp only [if_pos h]
    exact ⟨rfl, .inl rfl⟩
  · simp only [if_neg h]
    exact ⟨wakeFires_free c s.draw.2, .inr (wakeFires_spec c s.draw.2 hhere)⟩

theorem wakeSources (s : State) : let here := s.pwr.wake = none ∧ (s.pwr.entry.isSome = true ∨ s.pwr.asleep = true) ∧ s.boot.powerDown = false ∧
      s.boot.resetLow = false ∧ s.boot.gated = false
    let fires := fun (c : Nat) (en : Bool) (t : State) => t.pwr.wake = (if en = true ∧ here then some c else s.pwr.wake) ∧ t.regs = s.regs ∧
      t.pwr.asleep = s.pwr.asleep
    (s.boot.railsLow.contains 10 = false → Completes .wakeNLow s (fires 1 (s.flag fPWR_WAKE_CTRL_WAKE_N_EN)) ∧
      ∀ a : Fin 128, a.val = s.i2cAddress → Completes (.i2cAddressMatch a) s (fires 2 (s.flag fPWR_WAKE_CTRL_I2C_EN))) ∧
    (∀ a : Fin 128, a.val ≠ s.i2cAddress → exec (.i2cAddressMatch a) s = .next (settle s)) ∧
    (s.boot.railsLow.contains 10 = true →
      (Completes .wakeNLow s fun t => t.free = s.free + 1 ∧ (t.pwr = s.pwr ∨ fires 1 (s.flag fPWR_WAKE_CTRL_WAKE_N_EN) t)) ∧
      ∀ a : Fin 128, a.val = s.i2cAddress →
        (Completes (.i2cAddressMatch a) s fun t => t.free = s.free + 1 ∧ (t.pwr = s.pwr ∨ fires 2 (s.flag fPWR_WAKE_CTRL_I2C_EN) t))) ∧
    (let due := s.pwr.asleep = true ∧ s.pwr.commitLife.toNat + max 1 (s.fld fPWR_WAKE_TIMER_SECONDS) * 1000000000 ≤ s.life.toNat
     (due → Completes .wakeTimerExpiry s (fires 3 (s.flag fPWR_WAKE_CTRL_TIMER_EN))) ∧ (¬ due → exec .wakeTimerExpiry s = .next (settle s))) := by
  intro here fires
  have hfires : ∀ c, fires c (s.wakeEnabled c) (settle (wakeFires c s)) := fun c => by
    simp only [fires, settle_pwr, settle_regs]
    exact wakeFires_spec c s .rfl
  have hmaybe : ∀ c, let t := settle (if s.draw.1 % 2 = 0 then s.draw.2 else wakeFires c s.draw.2)
      t.free = s.free + 1 ∧ (t.pwr = s.pwr ∨ fires c (s.wakeEnabled c) t) := fun c => by
    simp only [fires, settle_pwr, settle_regs, settle_free]
    exact maybeFires_spec c s .rfl
  refine ⟨fun h => ?_, fun a ha => exec_i2cAddressMatch_other s ha, fun h => ?_, fun hdue => ?_, fun hdue => ?_⟩
  · exact ⟨⟨_, (exec_wakeNLow s).trans (by rw [h]; rfl), hfires 1⟩, fun a ha => ⟨_, (exec_i2cAddressMatch s ha).trans (by rw [h]; rfl), hfires 2⟩⟩
  · exact ⟨⟨_, (exec_wakeNLow s).trans (by rw [if_pos h]), hmaybe 1⟩, fun a ha => ⟨_, (exec_i2cAddressMatch s ha).trans (by rw [if_pos h]), hmaybe 2⟩⟩
  · exact ⟨_, if_pos (by simpa using hdue), hfires 3⟩
  · exact if_neg (by simpa using hdue)

/-! ### Wake -/

/-- The last-wake record, in its mode. -/
def wakeRecord (c : Nat) (s : State) : State :=
  if s.flag fPWR_WAKE_CTRL_ACCT_MODE then
    ((s.setF fPWR_ACCT_A_REFUSALS c).setF fPWR_ACCT_B_WAKE_T_LO s.life.toNat).setF fPWR_ACCT_C_WAKE_T_HI (s.life.toNat / 2 ^ 32)
  else s

/-- The part on its way up. -/
def woken (s : State) : State :=
  let s := s.setBoot { s.boot with waking := true }
  clockStage ((s.setPwr { s.pwr with asleep := false }).setB fPWR_RET_STATUS_WOKEN true)

theorem exec_wake {c : Nat} (hw : s.pwr.wake = some c) (ha : s.pwr.asleep = true) (hp : s.boot.powerDown = false) :
    exec .wake s = .next (settle (woken (wakeRecord c s))) := by
  change execWake s = _
  simp only [execWake, hw, ha, hp]
  rfl

theorem exec_wake_idle (h : s.pwr.wake = none ∨ s.pwr.asleep = false ∨ s.boot.powerDown = true) : exec .wake s = .next (settle s) := by
  change execWake s = _
  rw [execWake]
  split
  · rfl
  next c hc => exact if_pos (by simpa [hc] using h)

theorem clockStage_fld (f : Fld) (s : State) (hs : f.reg ≠ rSYS_BOOT_STATUS) (ha : f.reg ≠ rPWR_DOMAIN_A) : (clockStage s).fld f = s.fld f := by
  rw [clockStage, setPD, State.fld_setF_reg _ _ _ _ ha, setPD, State.fld_setF_reg _ _ _ _ ha, State.fld_setF_reg _ _ _ _ hs]

theorem woken_fld (f : Fld) (s : State) (hs : f.reg ≠ rSYS_BOOT_STATUS) (ha : f.reg ≠ rPWR_DOMAIN_A) (hr : f.reg ≠ rPWR_RET_STATUS) :
    (woken s).fld f = s.fld f := (clockStage_fld f _ hs ha).trans (State.fld_setB_reg _ _ _ _ hr)

theorem woken_spec (s : State) : let t := woken s
    t.pwr.asleep = false ∧ t.boot.waking = true ∧ t.stage = 1 ∧ t.fld (fPD 1) = 2 ∧ t.fld (fPD 2) = 2 ∧ t.flag fPWR_RET_STATUS_WOKEN = true ∧
      t.banks = s.banks := by
  obtain ⟨hstage, h1, h2, hboot⟩ := clockStage_spec
    (((s.setBoot { s.boot with waking := true }).setPwr { s.pwr with asleep := false }).setB fPWR_RET_STATUS_WOKEN true)
  refine ⟨rfl, (congrArg BootSt.waking hboot).trans rfl, hstage, h1, h2, ?_, rfl⟩
  rw [State.flag, woken, clockStage_fld _ _ (by decide) (by decide), State.fld_setB_same _ _ _ (by decide) (by decide)]
  rfl

theorem wakeRecord_spec (c : Nat) (h : s.flag fPWR_WAKE_CTRL_ACCT_MODE = true) : let t := wakeRecord c s
    t.fld fPWR_ACCT_A_REFUSALS = c % 65536 ∧ t.fld fPWR_ACCT_B_WAKE_T_LO = s.life.toNat % 2 ^ 32 ∧
      t.fld fPWR_ACCT_C_WAKE_T_HI = s.life.toNat / 2 ^ 32 := by
  have hlife := s.life.isLt
  have ht : wakeRecord c s = ((s.setF fPWR_ACCT_A_REFUSALS c).setF fPWR_ACCT_B_WAKE_T_LO s.life.toNat).setF fPWR_ACCT_C_WAKE_T_HI
    (s.life.toNat / 2 ^ 32) := if_pos h
  simp only [ht]
  refine ⟨?_, ?_, ?_⟩
  · rw [State.fld_setF_reg _ _ _ _ (by decide), State.fld_setF_reg _ _ _ _ (by decide), State.fld_setF_same _ _ _ (by decide)]
    rfl
  · rw [State.fld_setF_reg _ _ _ _ (by decide), State.fld_setF_same _ _ _ (by decide)]
  · rw [State.fld_setF_same _ _ _ (by decide), Nat.mod_eq_of_lt (by change _ < 2 ^ 32; omega)]

theorem wakeRecord_banks (c : Nat) (s : State) : (wakeRecord c s).banks = s.banks := by
  rw [wakeRecord]
  split
  · rw [State.setF_banks, State.setF_banks, State.setF_banks]
  · rfl

theorem wake_completes (s : State) : (∀ c, s.pwr.wake = some c → s.pwr.asleep = true → s.boot.powerDown = false → Completes .wake s fun t =>
      t.pwr.asleep = false ∧ t.boot.waking = true ∧ t.stage = 1 ∧ t.fld (fPD 1) = 2 ∧ t.fld (fPD 2) = 2 ∧ t.flag fPWR_RET_STATUS_WOKEN = true ∧
      t.banks = s.banks ∧ (s.flag fPWR_WAKE_CTRL_ACCT_MODE = true → t.fld fPWR_ACCT_A_REFUSALS = c % 65536 ∧
        t.fld fPWR_ACCT_B_WAKE_T_LO = s.life.toNat % 2 ^ 32 ∧ t.fld fPWR_ACCT_C_WAKE_T_HI = s.life.toNat / 2 ^ 32)) ∧
    (s.pwr.wake = none ∨ s.pwr.asleep = false ∨ s.boot.powerDown = true → exec .wake s = .next (settle s)) := by
  refine ⟨fun c hw ha hp => ⟨_, exec_wake hw ha hp, ?_⟩, exec_wake_idle⟩
  obtain ⟨hasleep, hwaking, hstage, h1, h2, hwoken, hbanks⟩ := woken_spec (wakeRecord c s)
  rw [State.stage, settle_pwr, settle_boot, fld_settle, fld_settle, fld_settle, flag_settle, settle_banks]
  refine ⟨hasleep, hwaking, hstage, h1, h2, hwoken, hbanks.trans (wakeRecord_banks c s), fun hm => ?_⟩
  obtain ⟨ha', hb', hc'⟩ := wakeRecord_spec c hm
  rw [fld_settle, fld_settle, fld_settle, woken_fld _ _ (by decide) (by decide) (by decide), woken_fld _ _ (by decide) (by decide) (by decide),
    woken_fld _ _ (by decide) (by decide) (by decide)]
  exact ⟨ha', hb', hc'⟩


/-! ### The commit point (R406, R408) -/

theorem mem_contexts_offer (code block p0 p1 : Nat) (s : State) (i : Nat) : i ∈ (offer code block p0 p1 s).contexts ↔ i ∈ s.contexts := by
  have h : Quiet .keys s (offer code block p0 p1 s) := .offer (.keys_refl s)
  rw [mem_contexts, mem_contexts]
  refine and_congr_right fun hi => ?_
  rw [h.lookup (by grind)]

theorem kept_offer (code block p0 p1 : Nat) (s : State) (i : Nat) : (offer code block p0 p1 s).kept.contains i = s.kept.contains i := by
  have hf : (offer code block p0 p1 s).fld (fCPH_CTX_A_STATE i) = s.fld (fCPH_CTX_A_STATE i) := fld_offer _ _ _ _ _ _ (by grind)
  rw [Bool.eq_iff_iff, List.contains_iff_mem, List.contains_iff_mem, State.kept, State.kept, List.mem_filter, List.mem_filter, mem_contexts_offer, hf]

/-- The part asleep, before its bank status. -/
def asleepBase (b : Banks) (ops : List Op) (s : State) : State :=
  let t := coldBase s
  { t with
    ops := ops
    lanes := s.lanes.filter fun e => e.2.failed
    boot := { t.boot with linkUp := false, named := none }
    pwr := { PwrSt.init with asleep := true, commitLife := s.life }
    banks := some b }

/-- The seals are the only registers that sealing writes. -/
theorem sealed_spec (k : Nat) (l : List Nat) (s : State) : let t := each l (fun i (t : State) => t.wr (rPWR_RET_SEAL i) (Config.bankSeal i k)) s
    (∀ off, off < 0x40060 → t.rd off = s.rd off) ∧ t = { s with regs := t.regs } := by
  refine each_inv (fun t => (∀ off, off < 0x40060 → t.rd off = s.rd off) ∧ t = { s with regs := t.regs })
      _ (fun i t ⟨hrd, ht⟩ => ⟨fun off hoff => ?_, ?_⟩) l s
    ⟨fun _ _ => rfl, rfl⟩
  · rw [State.rd_wr_other _ _ _ _ (by grind), hrd off hoff]
  · rw [State.wr]
    conv_lhs => rw [ht]

/-- The bank status, as it is sealed. -/
def retStatus (s : State) : Word := if s.flag fCPH_CTRL_KEY_RETAIN then 0x5555#32 else 0x5554#32

theorem asleep_eq (b : Banks) (ops : List Op) (s : State) : asleep b ops s = setPD 2 0 (setPD 1 0 { each (span 0 8)
    (fun i (t : State) => t.wr (rPWR_RET_SEAL i) (Config.bankSeal i s.free)) ((asleepBase b ops s).wr rPWR_RET_STATUS (retStatus s))
      with free := s.free + 1 }) := rfl

/-- The part asleep: what it shows, and what is left of it. -/
theorem asleep_spec (b : Banks) (ops : List Op) (s : State) : let t := asleep b ops s
    t.stage = 0 ∧ t.fld (fPD 1) = 0 ∧ t.fld (fPD 2) = 0 ∧ t.rd rPWR_RET_STATUS = retStatus s ∧
      t.pwr = { PwrSt.init with asleep := true, commitLife := s.life } ∧ t.life = s.life ∧ t.cph = CphSt.init ∧ t.ops = ops ∧ t.free = s.free + 1 ∧
      t.banks = some b := by
  rw [asleep_eq]
  obtain ⟨hrd, hparts⟩ := sealed_spec s.free (span 0 8) ((asleepBase b ops s).wr rPWR_RET_STATUS (retStatus s))
  generalize each (span 0 8) _ _ = v at hrd hparts
  intro t
  have hstage : v.stage = 0 := by
    rw [State.stage, State.fld, hrd _ (by decide), State.rd_wr_other _ _ _ _ (by decide)]
    exact (coldBase_spec s).1
  refine ⟨?_, ?_, State.fld_setF_same _ _ _ (by decide), ?_, ?_⟩
  · rw [State.stage, show t = setPD 2 0 (setPD 1 0 { v with free := s.free + 1 }) from rfl, setPD, State.fld_setF_reg _ _ _ _ (by decide), setPD,
      State.fld_setF_reg _ _ _ _ (by decide)]
    exact hstage
  · exact (State.fld_setF_apart _ _ _ _ (by decide) (by decide)).trans (State.fld_setF_same _ _ _ (by decide))
  · refine (State.rd_setF_other _ _ _ _ (by decide)).trans ((State.rd_setF_other _ _ _ _ (by decide)).trans ?_)
    exact (hrd _ (by decide)).trans (State.rd_wr_same _ _ _)
  · rw [show t = setPD 2 0 (setPD 1 0 { v with free := s.free + 1 }) from rfl, hparts]
    exact ⟨rfl, rfl, rfl, rfl, rfl, rfl⟩

/-- A commit without a wake source: the event record, and sleep. -/
def committed (e : Entry) (s : State) : State :=
  let retain := s.flag fCPH_CTRL_KEY_RETAIN
  let t := offer 0x0C22 bPWR (if retain then 0xFF else 0xFE) (b2n retain) s
  asleep (banksOf e.leaf (if retain then t.kept else []) t) (t.ops.filter fun o => o.targets.contains tDark) t

theorem exec_darkHouseCommit {e : Entry} (he : s.pwr.entry = some e) (hw : s.pwr.wake = none) :
    exec .darkHouseCommit s = .next (settle (committed e s)) := by
  change execDarkHouseCommit s = _
  rw [execDarkHouseCommit, he, hw]
  rfl

theorem darkHouseCommit (e : Entry) (s : State) (he : s.pwr.entry = some e) (hw : s.pwr.wake = none) : let keep := s.flag fCPH_CTRL_KEY_RETAIN
    Completes .darkHouseCommit s fun t => t.pwr.asleep = true ∧ t.pwr.entry = none ∧ t.pwr.commitLife = s.life ∧ t.life = s.life ∧
      t.stage = 0 ∧ t.cph.keys = [] ∧ t.cph.kek = none ∧ t.fld (fPD 1) = 0 ∧ t.fld (fPD 2) = 0 ∧ t.ops =
        s.ops.filter (fun o => o.targets.contains tDark) ∧
      t.rd rPWR_RET_STATUS = (if keep then 0x5555#32 else 0x5554#32) ∧ t.free = s.free + 1 ∧
      ∃ b, t.banks = some b ∧ b.claims = s.claims ∧ b.kek = (if keep then s.cph.kek else none) ∧ (keep = false → b.keys = [] ∧ b.ctx = []) ∧
        (keep = true → b.keys = s.cph.keys.filter fun x => s.kept.contains x.1) := by
  intro keep
  refine ⟨_, exec_darkHouseCommit he hw, ?_⟩
  beta_reduce
  rw [settle_pwr, settle_life, State.stage, settle_cph, fld_settle, fld_settle, fld_settle, settle_ops, rd_settle, settle_free, settle_banks]
  obtain ⟨o, ho⟩ : ∃ o, o = offer 0x0C22 bPWR (if keep then 0xFF else 0xFE) (b2n keep) s := ⟨_, rfl⟩
  have hc : committed e s = asleep (banksOf e.leaf (if keep then o.kept else []) o) (o.ops.filter fun o => o.targets.contains tDark) o := by
    rw [ho]
    rfl
  have hkeep : o.flag fCPH_CTRL_KEY_RETAIN = keep := by
    rw [State.flag, ho, fld_offer _ _ _ _ _ _ (by decide)]
    rfl
  obtain ⟨hstage, h1, h2, hret, hpwr, hlife, hcph, hops, hfree, hbanks⟩ := asleep_spec (banksOf e.leaf (if keep then o.kept else []) o)
    (o.ops.filter fun o => o.targets.contains tDark) o
  rw [hc, hpwr, hlife, hcph, hops, hfree, hbanks, hret, retStatus, hkeep]
  have holife : o.life = s.life := by rw [ho, offer_life]
  have hoops : o.ops = s.ops := by rw [ho, offer_ops]
  have hofree : o.free = s.free := by rw [ho, offer_free]
  have hocph : o.cph = s.cph := by rw [ho, offer_cph]
  refine ⟨rfl, rfl, holife, holife, hstage, rfl, rfl, h1, h2, by rw [hoops], rfl, by rw [hofree], _, rfl, ?_, ?_, fun hk => ?_, fun hk => ?_⟩
  · rw [ho]
    exact offer_claims _ _ _ _ _
  · rw [banksOf, hkeep, hocph]
  · rw [hk]
    simp [banksOf]
  · rw [banksOf, hk, hocph]
    simp only [if_true]
    refine List.filter_congr fun x _ => ?_
    rw [ho, kept_offer]

/-! ### The ledger, and an entry aborted (R407, R412) -/

theorem ledger_wakes {idx block : Nat} {abort : Bool} (h : s.flag fPWR_WAKE_CTRL_ACCT_MODE = true) : ledger idx block abort s = s := if_pos h

/-- An entry in the ledger. -/
theorem ledger_spec (idx block : Nat) (abort : Bool) (s : State) (h : s.flag fPWR_WAKE_CTRL_ACCT_MODE = false) : let t := ledger idx block abort s
    t.fld fPWR_ACCT_A_REFUSALS = min 65535 (s.fld fPWR_ACCT_A_REFUSALS + 1) ∧ t.fld fPWR_ACCT_A_LAST_BLOCK = block % 256 ∧
      t.fld fPWR_ACCT_A_LAST_INDEX = idx % 16 ∧ t.flag fPWR_ACCT_A_LAST_ABORT = abort := by
  have ht : ledger idx block abort s = ((((s.bumpF fPWR_ACCT_A_REFUSALS).setF fPWR_ACCT_A_LAST_BLOCK block).setF fPWR_ACCT_A_LAST_INDEX idx).setB
    fPWR_ACCT_A_LAST_ABORT abort).bumpF (fCNT idx) := if_neg (by rw [h]; decide)
  have hreg : ∀ f : Fld, f.reg = rPWR_ACCT_A → f.reg ≠ (fCNT idx).reg := fun f hf => by grind
  intro t
  rw [show t = _ from ht, State.bumpF, State.fld_setF_reg _ _ _ _ (hreg _ rfl), State.fld_setF_reg _ _ _ _ (hreg _ rfl),
    State.fld_setF_reg _ _ _ _ (hreg _ rfl), State.flag, State.fld_setF_reg _ _ _ _ (hreg _ rfl)]
  refine ⟨?_, ?_, ?_, ?_⟩
  · rw [State.fld_setB_apart _ _ _ _ (by decide) (by decide), State.fld_setF_apart _ _ _ _ (by decide) (by decide),
      State.fld_setF_apart _ _ _ _ (by decide) (by decide), State.bumpF, State.fld_setF_same _ _ _ (by decide)]
    change min _ (2 ^ 16 - 1) % 65536 = _
    omega
  · rw [State.fld_setB_apart _ _ _ _ (by decide) (by decide), State.fld_setF_apart _ _ _ _ (by decide) (by decide),
      State.fld_setF_same _ _ _ (by decide)]
    rfl
  · rw [State.fld_setB_apart _ _ _ _ (by decide) (by decide), State.fld_setF_same _ _ _ (by decide)]
    rfl
  · rw [State.fld_setB_same _ _ _ (by decide) (by decide)]
    cases abort <;> rfl

/-- The ledger is a part of the accounting record, and nothing else. -/
theorem ledger_other (idx block : Nat) (abort : Bool) (s : State) : (∀ off, (∀ k, off ≠ rPWR_ACCT_CNT k) → off ≠ rPWR_ACCT_A →
    (ledger idx block abort s).rd off = s.rd off) ∧ ledger idx block abort s = { s with regs := (ledger idx block abort s).regs } := by
  by_cases h : s.flag fPWR_WAKE_CTRL_ACCT_MODE = true
  · rw [ledger_wakes h]
    exact ⟨fun _ _ _ => rfl, rfl⟩
  · have ht : ledger idx block abort s = ((((s.bumpF fPWR_ACCT_A_REFUSALS).setF fPWR_ACCT_A_LAST_BLOCK block).setF fPWR_ACCT_A_LAST_INDEX idx).setB
      fPWR_ACCT_A_LAST_ABORT abort).bumpF (fCNT idx) := if_neg h
    rw [ht]
    refine ⟨fun off hcnt hacct => ?_, rfl⟩
    rw [State.bumpF, State.rd_setF_other _ _ _ _ (hcnt _), State.rd_setB_other _ _ _ _ hacct, State.rd_setF_other _ _ _ _ hacct,
      State.rd_setF_other _ _ _ _ hacct, State.bumpF, State.rd_setF_other _ _ _ _ hacct]

theorem PowerAt.ledger {ch pd : Nat → Nat} {p : PwrSt} (h : PowerAt s ch pd p) {idx block : Nat} {abort : Bool} :
    PowerAt (ledger idx block abort s) ch pd p := by
  obtain ⟨hrd, hparts⟩ := ledger_other idx block abort s
  refine ⟨fun n hn => ?_, fun d hd => ?_, by rw [hparts]; exact h.pwr⟩
  · exact (congrArg (fCH n).of (hrd _ (fun k => by grind) (by grind))).trans (h.ch n hn)
  · exact (congrArg (fPD d).of (hrd _ (fun k => by grind) (by grind))).trans (h.pd d hd)

theorem Quiet.keys_ledger {r : State} {idx block : Nat} {abort : Bool} (hidx : idx < 16) (h : Quiet .keys r s) :
    Quiet .keys r (ledger idx block abort s) :=
  .ite h (.setF (by grind) (.setB (by grind) (.setF (by grind) (.setF (by grind) (.setF (by grind) h)))))

theorem Quiet.keys_queueDomain {r : State} (h : Quiet .keys r s) {d : Nat} : Quiet .keys r (queueDomain d s) :=
  have hv : Quiet .keys r (if d = 30 then Machine.setPD 31 3 (Machine.setPD 30 3 s) else Machine.setPD d 3 s) :=
    .ite (.setPD (by decide) (.setPD (by decide) h)) (.setPD (by decide) h)
  .ite h (.setPwr (by decide) hv)

/-- The queue after a domain has been sent to start, if it was dark. -/
theorem queueDomain_pwr (d : Nat) (s : State) : ∃ l, (queueDomain d s).pwr = { s.pwr with queue := s.pwr.queue ++ l } ∧
    (s.fld (fPD d) = 0 → StartItem.domain d ∈ s.pwr.queue ++ l) := by
  by_cases h : (s.fld (fPD d) != 0 || s.pwr.queue.contains (.domain d)) = true
  · have ht : queueDomain d s = s := if_pos h
    refine ⟨[], by rw [ht, List.append_nil], fun h0 => ?_⟩
    rw [List.append_nil]
    simpa [h0] using h
  · have ht : queueDomain d s = enqueue (.domain d) (if d = 30 then setPD 31 3 (setPD 30 3 s) else setPD d 3 s) := if_neg h
    refine ⟨[.domain d], ?_, fun _ => by simp⟩
    rw [ht]
    split <;> rfl

theorem queueDomain_fld (d : Nat) (s : State) (f : Fld) (ha : f.reg ≠ rPWR_DOMAIN_A) (hb : f.reg ≠ rPWR_DOMAIN_B) :
    (queueDomain d s).fld f = s.fld f := by
  have hpd : ∀ e v (u : State), (setPD e v u).fld f = u.fld f := fun e v u => State.fld_setF_reg _ _ _ _ (by grind)
  rw [queueDomain]
  split
  · rfl
  · refine Eq.trans (b := (if d = 30 then setPD 31 3 (setPD 30 3 s) else setPD d 3 s).fld f) rfl ?_
    split
    · rw [hpd, hpd]
    · rw [hpd]

/-- The start of PD03 leaves the state of another domain. -/
theorem queueDomain_otherPD (d e : Nat) (hd : d < 30) (he : e < 32) (hne : e ≠ d) (s : State) : (queueDomain d s).fld (fPD e) = s.fld (fPD e) := by
  rw [queueDomain]
  split
  · rfl
  · rw [if_neg (by omega)]
    exact (fld_setPD s d e 3 (by omega) he (by decide)).trans (if_neg hne)

/-- The entry given up: its marks gone, the event record and the ledger written. -/
def abandoned (c : Nat) (s : State) : State :=
  ledger (11 + c) 0x80 true (offer 0x0C21 bPWR c 0 (s.setPwr { s.pwr with entry := none, wake := none }))

/-- The entry's own operation answered. -/
def entryEnded (c : Nat) (s : State) : State :=
  match s.ops.find? fun o => o.targets.contains tDark with
  | some op => endOp op { status := stCONFLICT, b0 := 11 + c, b1 := 0x80 } [] s
  | none => s

theorem exec_darkHouseAbort {e : Entry} {c : Nat} (he : s.pwr.entry = some e) (hw : s.pwr.wake = some c) : exec .darkHouseAbort s =
    .next (settle (if e.hbmOn then queueDomain 30 (queueDomain 3 (entryEnded c (abandoned c s)))
      else queueDomain 3 (entryEnded c (abandoned c s)))) := by
  change execDarkHouseAbort s = _
  rw [execDarkHouseAbort, he, hw]
  rfl

theorem Quiet.entryEnded {κ : Realm} {r : State} (h : Quiet κ r s) {c : Nat} : Quiet κ r (entryEnded c s) := by
  rw [Machine.entryEnded]
  split
  · exact .endOp h
  · exact h

theorem abandoned_power (c : Nat) (s : State) :
    PowerAt (entryEnded c (abandoned c s)) (fun n => s.fld (fCH n)) (fun d => s.fld (fPD d)) { s.pwr with entry := none, wake := none } :=
  ((((PowerAt.self s).setPwr _).quiet (.offer (.power_refl _))).ledger).quiet (.entryEnded (.power_refl _))

theorem darkHouseAbort (e : Entry) (c : Nat) (s : State) (he : s.pwr.entry = some e) (hw : s.pwr.wake = some c) (hc : c < 4) :
    Completes .darkHouseAbort s fun t => t.pwr.entry = none ∧ t.pwr.wake = none ∧ t.cph.keys = s.cph.keys ∧
      (s.fld (fPD 3) = 0 → StartItem.domain 3 ∈ t.pwr.queue) ∧ (e.hbmOn = true → s.fld (fPD 30) = 0 → StartItem.domain 30 ∈ t.pwr.queue) ∧
      (s.flag fPWR_WAKE_CTRL_ACCT_MODE = false → t.fld fPWR_ACCT_A_LAST_BLOCK = 0x80 ∧ t.fld fPWR_ACCT_A_LAST_INDEX = 11 + c ∧
        t.flag fPWR_ACCT_A_LAST_ABORT = true) := by
  refine ⟨_, exec_darkHouseAbort he hw, ?_⟩
  beta_reduce
  rw [settle_pwr, settle_cph, fld_settle, fld_settle, flag_settle]
  obtain ⟨v, hv⟩ : ∃ v, v = entryEnded c (abandoned c s) := ⟨_, rfl⟩
  have hp := hv ▸ abandoned_power c s
  have hk : Quiet .keys s v := hv ▸ .entryEnded (.keys_ledger (by omega) (.offer (.setPwr (by decide) (.keys_refl s))))
  have hacct : ∀ f : Fld, f.reg = rPWR_ACCT_A → v.fld f = (abandoned c s).fld f := fun f hf => by
    rw [hv]
    exact (Quiet.entryEnded (.power_refl (abandoned c s))).fld (by grind)
  rw [← hv]
  obtain ⟨l, hl, hl3⟩ := queueDomain_pwr 3 v
  obtain ⟨l', hl', hl30⟩ := queueDomain_pwr 30 (queueDomain 3 v)
  have h3 : v.fld (fPD 3) = s.fld (fPD 3) := hp.pd 3 (by decide)
  have h30 : (queueDomain 3 v).fld (fPD 30) =
      s.fld (fPD 30) := (queueDomain_otherPD 3 30 (by decide) (by decide) (by decide) v).trans (hp.pd 30 (by decide))
  have hfld : ∀ f : Fld, f.reg = rPWR_ACCT_A → (if e.hbmOn then queueDomain 30 (queueDomain 3 v) else queueDomain 3 v).fld f =
      (abandoned c s).fld f := fun f hf => by
    rw [← hacct f hf]
    split
    · rw [queueDomain_fld _ _ _ (by grind) (by grind), queueDomain_fld _ _ _ (by grind) (by grind)]
    · rw [queueDomain_fld _ _ _ (by grind) (by grind)]
  refine ⟨?_, ?_, ?_, fun h0 => ?_, fun hon h0 => ?_, fun hm => ?_⟩
  · split
    · rw [hl', hl, hp.pwr]
    · rw [hl, hp.pwr]
  · split
    · rw [hl', hl, hp.pwr]
    · rw [hl, hp.pwr]
  · split
    · exact (Quiet.keys_queueDomain (.keys_queueDomain hk)).on.2.1
    · exact (Quiet.keys_queueDomain hk).on.2.1
  · have hm3 := hl3 (h3.trans h0)
    split
    · rw [hl', hl]
      exact List.mem_append_left _ hm3
    · rw [hl]
      exact hm3
  · rw [if_pos hon, hl']
    exact hl30 (h30.trans h0)
  · have hm' : (offer 0x0C21 bPWR c 0 (s.setPwr { s.pwr with entry := none, wake := none })).flag fPWR_WAKE_CTRL_ACCT_MODE = false := by
      rw [State.flag, fld_offer _ _ _ _ _ _ (by decide)]
      exact hm
    obtain ⟨-, hblock, hindex, habort⟩ := ledger_spec (11 + c) 0x80 true _ hm'
    refine ⟨(hfld _ rfl).trans hblock, (hfld _ rfl).trans (hindex.trans (by omega)), ?_⟩
    rw [State.flag, hfld _ rfl]
    exact habort

theorem exec_darkHouseCommit_idle (h : s.pwr.entry = none ∨ s.pwr.wake ≠ none) : exec .darkHouseCommit s = .next (settle s) := by
  change execDarkHouseCommit s = _
  rw [execDarkHouseCommit]
  split
  next he hw => simp [he, hw] at h
  · rfl

theorem exec_darkHouseAbort_idle (h : s.pwr.entry = none ∨ s.pwr.wake = none) : exec .darkHouseAbort s = .next (settle s) := by
  change execDarkHouseAbort s = _
  rw [execDarkHouseAbort]
  split
  next he hw => simp [he, hw] at h
  · rfl

/-! ### The banks restored (R409, R411) -/

/-- What the end of a restoration leaves: the claims, the banks, the status of the keys, and whether there is a time of day. -/
structure Restored (r s : State) : Prop where
  claims : s.claims = r.claims
  banks : s.banks = r.banks
  status : s.rd rCPH_STATUS = r.rd rCPH_STATUS
  tod : s.fld fTIM_STATUS_TOD_VALID = r.fld fTIM_STATUS_TOD_VALID

section
variable {r : State}

theorem Restored.refl (s : State) : Restored s s := ⟨rfl, rfl, rfl, rfl⟩

/-- An update of a part that is not among them. -/
theorem Restored.same (h : Restored r s) (hc : t.claims = s.claims) (hb : t.banks = s.banks) (hr : t.regs = s.regs) : Restored r t :=
  ⟨hc.trans h.claims, hb.trans h.banks, (State.rd_congr hr _).trans h.status, (State.fld_congr hr _).trans h.tod⟩

theorem Restored.setF (h : Restored r s) {f : Fld} {v : Nat} (hf : f.reg ≠ rCPH_STATUS ∧ f.reg ≠ rTIM_STATUS) : Restored r (s.setF f v) :=
  ⟨h.claims, h.banks, (State.rd_setF_other _ _ _ _ hf.1.symm).trans h.status, (State.fld_setF_reg _ _ _ _ hf.2.symm).trans h.tod⟩

theorem Restored.setB (h : Restored r s) {f : Fld} {b : Bool} (hf : f.reg ≠ rCPH_STATUS ∧ f.reg ≠ rTIM_STATUS) : Restored r (s.setB f b) :=
  h.setF hf

/-- Another field of the timing status. -/
theorem Restored.setStatusF (h : Restored r s) {f : Fld} {v : Nat} (hf : f.ok ∧ f.apart fTIM_STATUS_TOD_VALID ∧ f.reg ≠ rCPH_STATUS) :
    Restored r (s.setF f v) :=
  ⟨h.claims, h.banks, (State.rd_setF_other _ _ _ _ hf.2.2.symm).trans h.status, (State.fld_setF_apart _ _ _ _ hf.1 hf.2.1).trans h.tod⟩

theorem Restored.setStatusB (h : Restored r s) {f : Fld} {b : Bool} (hf : f.ok ∧ f.apart fTIM_STATUS_TOD_VALID ∧ f.reg ≠ rCPH_STATUS) :
    Restored r (s.setB f b) := h.setStatusF hf

theorem Restored.ite {c : Prop} {_ : Decidable c} (hs : Restored r s) (ht : Restored r t) : Restored r (if c then s else t) := by
  split
  · exact hs
  · exact ht

theorem Restored.via (hf : Restored r s → Restored r t) (h : Restored r s) : Restored r t := hf h

theorem Restored.offer (h : Restored r s) {code block p0 p1 : Nat} : Restored r (offer code block p0 p1 s) :=
  ⟨(offer_claims _ _ _ _ _).trans h.claims, (offer_banks _ _ _ _ _).trans h.banks, (rd_offer _ _ _ _ _ _ (by decide)).trans h.status,
    (fld_offer _ _ _ _ _ _ (by decide)).trans h.tod⟩

theorem Restored.timIrq (h : Restored r s) : Restored r (timIrq s) := .setB (.setB h (by decide)) (by decide)

theorem Restored.setTimIn (h : Restored r s) {x : Nat} {i : TimIn} : Restored r (s.setTimIn x i) := h.same rfl rfl rfl

theorem Restored.timInvalid (h : Restored r s) {x : Nat} (hx : x < 8) : Restored r (timInvalid x s) :=
  .via (fun ht => .ite (.timIrq (.offer (.setF ht (by grind)))) (.setF ht (by grind))) (.setB (.setB (.setTimIn h) (by grind)) (by grind))

theorem Restored.timInput (h : Restored r s) {x : Nat} (hx : x < 8) : Restored r (timInput x s) :=
  .via (fun ht => .via (fun hu => .via (fun hv => .ite (.offer (.setB hv (by grind))) (.setB hv (by grind)))
    (.ite (.timInvalid hu hx) (.ite (.timIrq (.setB hu (by grind))) hu)))
    (.ite (.setB ht (by grind)) (.offer (.setF (.setB ht (by grind)) (by grind))))) (.ite (.setTimIn h) h)

theorem Restored.lockFollow (h : Restored r s) {st : Nat} : Restored r (lockFollow st s) := .ite (h.same rfl rfl rfl) (.ite (h.same rfl rfl rfl) h)

theorem Restored.selState (h : Restored r s) {st : Nat} {sel : Option Nat} : Restored r (selState st sel s) := by
  refine .via (fun ht => .ite ht (.timIrq (.offer (.setStatusF ht (by decide))))) ?_
  split
  · exact .setStatusB (.setStatusF (.lockFollow h) (by decide)) (by decide)
  · exact .setStatusB (.lockFollow h) (by decide)

theorem Restored.selHoldover (h : Restored r s) : Restored r (selHoldover s) :=
  .ite h (.ite (.selState h) (.selState (.setStatusB (.setF h (by decide)) (by decide))))

theorem Restored.selAcquire (h : Restored r s) {x : Nat} : Restored r (selAcquire x s) := by
  have hb : Restored r { s with tim := { s.tim with bw := 1024 * max 500 s.bwGoal } } := h.same rfl rfl rfl
  exact hb.selState (st := 1) (sel := some x)

theorem Restored.selFollow (h : Restored r s) : Restored r (selFollow s) := by
  unfold Machine.selFollow
  extract_lets
  split
  · exact .ite h (.selHoldover h)
  · exact .ite (.ite h (.offer (.selState (.setF h (by decide))))) (.ite h (.selAcquire h))

theorem Restored.selEval (h : Restored r s) : Restored r (selEval s) :=
  .setStatusB (.ite h (.via (fun ht => .ite (.selHoldover ht) (.ite (.selState ht) (.ite (.selState ht) (.selFollow ht)))) (.ite (.selHoldover h) h)))
    (by decide)

theorem Restored.each {f : Nat → State → State} {n : Nat} (hf : ∀ a, a < n → ∀ t, Restored r t → Restored r (f a t)) (h : Restored r s) :
    Restored r (each (span 0 n) f s) := by
  have key : ∀ (l : List Nat) (t : State), (∀ a ∈ l, a < n) → Restored r t → Restored r (Sys2Proof.each l f t) := by
    intro l
    induction l with
    | nil => exact fun _ _ ht => ht
    | cons a l ih => exact fun t hl ht => ih (f a t) (fun b hb => hl b (List.mem_cons_of_mem _ hb)) (hf a (hl a List.mem_cons_self) t ht)
  exact key _ _ (fun a ha => by have := (mem_span _ _ _).1 ha; omega) h

theorem Restored.timChange (h : Restored r s) : Restored r (timChange s) :=
  .setStatusF (.setF (.selEval (.each (fun _ hx _ ht => .timInput ht hx) h)) (by decide)) (by decide)

theorem Restored.linkState (h : Restored r s) {n st : Nat} (hn : n < 4) : Restored r (linkState n st s) := .ite h (.offer (.setF h (by grind)))

theorem Restored.countRoutes (h : Restored r s) : Restored r (countRoutes s) := .setF h (by decide)

theorem Restored.dropRoutes (h : Restored r s) {n : Nat} : Restored r (dropRoutes n s) := by
  unfold Machine.dropRoutes
  extract_lets gone idx
  have hrd : ∀ off, isRouteReg off = false → ({ s with regs := s.regs.filter fun e => !gone e } : State).rd off = s.rd off := fun off hout => by
    rw [State.rd, State.rd, smGet, smGet]
    refine congrArg (fun o : Option Word => o.getD (resetWord off)) (smLookup_filter_entries _ _ _ fun v => ?_)
    simp only [gone, hout, Bool.false_and, Bool.not_false]
  have hv : Restored r { s with regs := s.regs.filter fun e => !gone e } :=
    ⟨h.claims, h.banks, (hrd rCPH_STATUS (by decide)).trans h.status, (congrArg fTIM_STATUS_TOD_VALID.of (hrd rTIM_STATUS (by decide))).trans h.tod⟩
  exact .countRoutes (hv.same rfl rfl rfl)

theorem Restored.countN (h : Restored r s) {k n : Nat} : Restored r (countN k n s) := h.same rfl rfl rfl

theorem Restored.setLink (h : Restored r s) {n : Nat} {l : FabLink} : Restored r (s.setLink n l) := h.same rfl rfl rfl

theorem Restored.linkDown (h : Restored r s) {n st : Nat} (hn : n < 4) : Restored r (linkDown n st s) :=
  .linkState (.dropRoutes (.countN (.setLink h))) hn

theorem Restored.fabRefresh (h : Restored r s) : Restored r (fabRefresh s) :=
  .each (fun _ hn _ ht => .ite (.ite ht (.linkDown ht hn)) (.ite ht (.linkDown ht hn))) h

theorem Restored.memRefresh (h : Restored r s) : Restored r (memRefresh s) := by
  unfold Machine.memRefresh
  extract_lets t
  have ht : Restored r t := .setF (f := fMEM_FAR_SLOTS_SLOTS) (.setF (f := fMEM_STATUS_RETIRED) h (by decide)) (by decide)
  split
  · exact .setF (.setB ht (by decide)) (by decide)
  · exact .setF (.setB ht (by decide)) (by decide)

theorem Restored.setPD (h : Restored r s) {d v : Nat} : Restored r (setPD d v s) := .setF h (by grind)

theorem Restored.queueDomain (h : Restored r s) {d : Nat} : Restored r (queueDomain d s) := by
  refine .ite h (Restored.same (s := if d = 30 then Machine.setPD 31 3 (Machine.setPD 30 3 s) else Machine.setPD d 3 s) ?_ rfl rfl rfl)
  exact .ite (.setPD (.setPD h)) (.setPD h)

end

/-! ### One bank -/

theorem fld_setBank {i j : Nat} (hi : i < 8) (v : Nat) (hv : v < 4) (s : State) :
    (s.setF (fBANK i) v).fld (fBANK j) = if j = i then v else s.fld (fBANK j) := by
  have hok : (fBANK i).ok := by
    grind
  by_cases h : j = i
  · rw [if_pos h, h, State.fld_setF_same _ _ _ hok]
    exact Nat.mod_eq_of_lt hv
  · rw [if_neg h]
    refine State.fld_setF_apart _ _ _ _ hok ?_
    grind

/-- Words put back change the registers they name, and nothing else. -/
theorem putWords_spec (m : SMap Word) (s : State) : (∀ off, (∀ e ∈ m, e.1 ≠ off) → (putWords m s).rd off = s.rd off) ∧
    putWords m s = { s with regs := (putWords m s).regs } := by
  induction m generalizing s with
  | nil => exact ⟨fun _ _ => rfl, rfl⟩
  | cons e m ih =>
    obtain ⟨hrd, hparts⟩ := ih (s.wr e.1 e.2)
    have hstep : putWords (e :: m) s = putWords m (s.wr e.1 e.2) := rfl
    rw [hstep]
    refine ⟨fun off hoff => ?_, hparts⟩
    rw [hrd off fun e' he' => hoff e' (List.mem_cons_of_mem _ he'), State.rd_wr_other _ _ _ _ (hoff e List.mem_cons_self).symm]

/-- The words of the banks leave the bank status and the status of the keys. -/
def Banks.Sound (b : Banks) : Prop :=
  ∀ e, e ∈ b.sys ∨ e ∈ b.chan ∨ e ∈ b.leaf ∨ e ∈ b.ctx ∨ e ∈ b.timRegs → e.1 ≠ rPWR_RET_STATUS ∧ e.1 ≠ rCPH_STATUS

/-- What a bank's return leaves. -/
structure BankKept (s t : State) : Prop where
  ret : t.rd rPWR_RET_STATUS = s.rd rPWR_RET_STATUS
  status : t.rd rCPH_STATUS = s.rd rCPH_STATUS
  banks : t.banks = s.banks

theorem bankKept_putWords {m : SMap Word} (hm : ∀ e ∈ m, e.1 ≠ rPWR_RET_STATUS ∧ e.1 ≠ rCPH_STATUS) (s : State) : BankKept s (putWords m s) := by
  obtain ⟨hrd, hparts⟩ := putWords_spec m s
  exact ⟨hrd _ fun e he => (hm e he).1, hrd _ fun e he => (hm e he).2, by rw [hparts]⟩

theorem BankKept.trans (h : BankKept s t) (h' : BankKept t u) : BankKept s u :=
  ⟨h'.ret.trans h.ret, h'.status.trans h.status, h'.banks.trans h.banks⟩

theorem BankKept.of_regs (hr : t.regs = s.regs) (hb : t.banks = s.banks) : BankKept s t := ⟨State.rd_congr hr _, State.rd_congr hr _, hb⟩

/-- The traces of the channels change nothing but the overhead. -/
theorem restoreTrace_spec (b : Banks) (s : State) : (restoreTrace b s).regs = s.regs ∧ (restoreTrace b s).banks = s.banks ∧
    (restoreTrace b s).claims = s.claims ∧ (restoreTrace b s).cph = s.cph := by
  rw [restoreTrace]
  refine each_inv (fun t => t.regs = s.regs ∧ t.banks = s.banks ∧ t.claims = s.claims ∧ t.cph = s.cph) _ (fun n t ht => ?_) (span 0 4)
      s ⟨rfl, rfl, rfl, rfl⟩
  rw [setOh]
  exact ht

/-- The words of bank 7, written where they do not configure. -/
def timWords (b : Banks) (s : State) : State :=
  each b.timRegs (fun e (s : State) => s.wr e.1 ((s.rd e.1 &&& cfgBits e.1) ||| (e.2 &&& ~~~cfgBits e.1))) s

theorem timWords_spec (b : Banks) (s : State) : (∀ off, (∀ e ∈ b.timRegs, e.1 ≠ off) → (timWords b s).rd off = s.rd off) ∧
    timWords b s = { s with regs := (timWords b s).regs } := by
  rw [timWords]
  generalize b.timRegs = m
  induction m generalizing s with
  | nil => exact ⟨fun _ _ => rfl, rfl⟩
  | cons e m ih =>
    obtain ⟨hrd, hparts⟩ := ih (s.wr e.1 ((s.rd e.1 &&& cfgBits e.1) ||| (e.2 &&& ~~~cfgBits e.1)))
    refine ⟨fun off hoff => ?_, hparts⟩
    exact (hrd off fun e' he' => hoff e' (List.mem_cons_of_mem _ he')).trans (State.rd_wr_other _ _ _ _ (hoff e List.mem_cons_self).symm)

/-- The registers and the parts once the records are back. -/
theorem restoreRecords_spec (b : Banks) (s : State) : let t := restoreRecords b s
    t.regs = (((timWords b s).setB fTIM_STATUS_TOD_VALID false).setF fTIM_STATUS_EPOCH (s.fld fTIM_STATUS_EPOCH)).regs ∧ t.banks = s.banks ∧
      t.claims = s.claims ∧ t.cph = s.cph := by
  obtain ⟨-, hparts⟩ := timWords_spec b s
  refine ⟨rfl, ?_, ?_, ?_⟩
  · exact (congrArg State.banks hparts :)
  · exact (congrArg State.claims hparts :)
  · exact (congrArg State.cph hparts :)

theorem restoreRecords_timeless (b : Banks) (s : State) : (restoreRecords b s).flag fTIM_STATUS_TOD_VALID = false := by
  rw [State.flag, State.fld_congr (restoreRecords_spec b s).1, State.fld_setF_apart _ _ _ _ (by decide) (by decide),
    State.fld_setB_same _ _ _ (by decide) (by decide)]
  rfl

/-- A bank whose seal holds: what it writes beside its status. -/
def bankBack (b : Banks) (i : Nat) (s : State) : State :=
  if i = 0 then restoreKeys b s
  else if i < 5 then putWords (b.leaf.filter fun e => inLeaf (i - 1) e.1) s
  else if i = 5 then putWords b.sys { s with claims := b.claims }
  else if i = 6 then restoreTrace b (putWords b.chan s)
  else restoreRecords b s

theorem bankBack_kept (b : Banks) (hb : b.Sound) (i : Nat) (s : State) : BankKept s (bankBack b i s) := by
  rw [bankBack]
  by_cases h0 : i = 0
  · rw [if_pos h0]
    exact (bankKept_putWords (fun e he => hb e (by simp [he])) s).trans (.of_regs rfl rfl)
  rw [if_neg h0]
  by_cases h5 : i < 5
  · rw [if_pos h5]
    exact bankKept_putWords (fun e he => hb e (by simp [(List.mem_filter.1 he).1])) s
  rw [if_neg h5]
  by_cases h : i = 5
  · rw [if_pos h]
    exact (BankKept.of_regs (s := s) (t := { s with claims := b.claims }) rfl rfl).trans (bankKept_putWords (fun e he => hb e (.inl he)) _)
  rw [if_neg h]
  by_cases h6 : i = 6
  · rw [if_pos h6]
    obtain ⟨hregs, hbanks, -⟩ := restoreTrace_spec b (putWords b.chan s)
    exact (bankKept_putWords (fun e he => hb e (by simp [he])) s).trans (.of_regs hregs hbanks)
  · rw [if_neg h6]
    obtain ⟨hregs, hbanks, -⟩ := restoreRecords_spec b s
    obtain ⟨hrd, -⟩ := timWords_spec b s
    have hkeep : ∀ off, off ≠ rTIM_STATUS → (∀ e ∈ b.timRegs, e.1 ≠ off) → (restoreRecords b s).rd off = s.rd off := fun off hs hoff => by
      rw [State.rd_congr hregs, State.rd_setF_other _ _ _ _ hs, State.rd_setB_other _ _ _ _ hs, hrd off hoff]
    exact ⟨hkeep _ (by decide) fun e he => (hb e (by simp [he])).1, hkeep _ (by decide) fun e he => (hb e (by simp [he])).2, hbanks⟩

/-- The keys come with bank 0 only, and the claims with bank 5. -/
theorem bankBack_parts (b : Banks) (i : Nat) (s : State) : (i ≠ 0 → (bankBack b i s).cph = s.cph) ∧ (i ≠ 5 → (bankBack b i s).claims = s.claims) ∧
    (bankBack b 0 s).cph.kek = b.kek ∧ (bankBack b 0 s).cph.keys = b.keys ∧ (bankBack b 5 s).claims = b.claims := by
  have hput : ∀ (m : SMap Word) (t : State), (putWords m t).cph = t.cph ∧ (putWords m t).claims = t.claims := fun m t => by
    rw [(putWords_spec m t).2]
    exact ⟨rfl, rfl⟩
  have hcases : i ≠ 0 → i ≠ 5 → (bankBack b i s).cph = s.cph ∧ (bankBack b i s).claims = s.claims := fun h0 h5 => by
    rw [bankBack, if_neg h0, if_neg h5]
    by_cases h : i < 5
    · rw [if_pos h]
      exact hput _ _
    · rw [if_neg h]
      by_cases h6 : i = 6
      · rw [if_pos h6]
        obtain ⟨-, -, hclaims, hcph⟩ := restoreTrace_spec b (putWords b.chan s)
        exact ⟨hcph.trans (hput _ _).1, hclaims.trans (hput _ _).2⟩
      · rw [if_neg h6]
        obtain ⟨-, -, hclaims, hcph⟩ := restoreRecords_spec b s
        exact ⟨hcph, hclaims⟩
  refine ⟨fun h0 => ?_, fun h5 => ?_, rfl, rfl, (hput _ _).2⟩
  · by_cases h5 : i = 5
    · subst h5
      exact (hput _ _).1
    · exact (hcases h0 h5).1
  · by_cases h0 : i = 0
    · subst h0
      exact (hput _ _).2
    · exact (hcases h0 h5).2

theorem restoreBank_eq (b : Banks) (i : Nat) (s : State) : restoreBank b i s = bankBack b i (s.setF (fBANK i) 2) := rfl

/-- The records of the sessions whose keys are lost. -/
theorem eachOffer_spec {α : Type} (g : α → Nat × Nat × Nat × Nat) (l : List α) (s : State) :
    let t := each l (fun a s => offer (g a).1 (g a).2.1 (g a).2.2.1 (g a).2.2.2 s) s
    (∀ off, off ≠ rCB_STATUS → t.rd off = s.rd off) ∧ t.banks = s.banks ∧ t.claims = s.claims ∧ t.cph = s.cph := by
  refine each_inv (fun t => (∀ off, off ≠ rCB_STATUS → t.rd off = s.rd off) ∧ t.banks = s.banks ∧ t.claims = s.claims ∧ t.cph = s.cph) _
    (fun a t ⟨hrd, hbanks, hclaims, hcph⟩ => ⟨fun off hoff => (rd_offer _ _ _ _ _ _ hoff).trans (hrd off hoff), ?_, ?_, ?_⟩) l s
    ⟨fun _ _ => rfl, rfl, rfl, rfl⟩
  · exact (offer_banks _ _ _ _ _).trans hbanks
  · exact (offer_claims _ _ _ _ _).trans hclaims
  · exact (offer_cph _ _ _ _ _).trans hcph

theorem loseKeys_spec (b : Banks) (s : State) : let t := loseKeys b s
    (∀ off, off ≠ rCB_STATUS → off ≠ rCPH_STATUS → t.rd off = s.rd off) ∧ t.flag fCPH_STATUS_KEY_LOST = true ∧ t.banks = s.banks ∧
      t.claims = s.claims ∧ t.cph = s.cph := by
  obtain ⟨hrd, hbanks, hclaims, hcph⟩ := eachOffer_spec (fun h : Nat × Nat => (0x0714, bCPH, h.1 + 2 ^ 31, h.2))
    ((b.ctx.filter fun e => e.1 % 8 == 0).map fun e => ((fCPH_CTX_A_SESSION 0).of e.2, (fCPH_CTX_A_DIR 0).of e.2)).eraseDups
    (s.setB fCPH_STATUS_KEY_LOST true)
  refine ⟨fun off ho hs => (hrd off ho).trans (State.rd_setB_other _ _ _ _ hs), ?_, hbanks, hclaims, hcph⟩
  exact (congrArg (fun w => fCPH_STATUS_KEY_LOST.of w != 0) (hrd rCPH_STATUS (by decide))).trans (State.flag_setB_same _ _ _ (by decide) (by decide))

theorem loseBank_spec (b : Banks) (i : Nat) (s : State) : let t := loseBank b i s
    t.rd rPWR_RET_STATUS = (s.setF (fBANK i) 3).rd rPWR_RET_STATUS ∧ (i ≠ 0 → t.rd rCPH_STATUS = s.rd rCPH_STATUS) ∧
      (i = 0 → t.flag fCPH_STATUS_KEY_LOST = true) ∧ t.banks = s.banks ∧ t.claims = s.claims ∧ t.cph = s.cph := by
  obtain ⟨v, hv⟩ : ∃ v, v = offer 0x0C24 bPWR i (bankOwner i) (s.setF (fBANK i) 3) := ⟨_, rfl⟩
  have ht : loseBank b i s = if i = 0 then loseKeys b v else v := by rw [hv]; rfl
  have hret : v.rd rPWR_RET_STATUS = (s.setF (fBANK i) 3).rd rPWR_RET_STATUS := by rw [hv, rd_offer _ _ _ _ _ _ (by decide)]
  have hstatus : v.rd rCPH_STATUS = s.rd rCPH_STATUS := by
    rw [hv, rd_offer _ _ _ _ _ _ (by decide), State.rd_setF_other _ _ _ _ (by grind)]
  have hparts : v.banks = s.banks ∧ v.claims = s.claims ∧ v.cph = s.cph := by
    rw [hv, offer_banks, offer_claims, offer_cph, State.setF_banks, State.setF_claims, State.setF_cph]
    exact ⟨rfl, rfl, rfl⟩
  rw [ht]
  obtain ⟨hrd, hlost, hbanks, hclaims, hcph⟩ := loseKeys_spec b v
  by_cases h0 : i = 0
  · simp only [if_pos h0]
    exact ⟨(hrd _ (by decide) (by decide)).trans hret, fun h => absurd h0 h, fun _ => hlost, hbanks.trans hparts.1, hclaims.trans hparts.2.1,
      hcph.trans hparts.2.2⟩
  · simp only [if_neg h0]
    exact ⟨hret, fun _ => hstatus, fun h => absurd h h0, hparts⟩

/-- One bank, by its status and its seal. -/
def bankStep (b : Banks) (bad : List Nat) (i : Nat) (s : State) : State :=
  if s.fld (fBANK i) != 1 then s else if bad.contains i then loseBank b i s else restoreBank b i s

theorem bankStep_sealed {b : Banks} {bad : List Nat} {i : Nat} (h : s.fld (fBANK i) = 1) :
    bankStep b bad i s = if i ∈ bad then loseBank b i s else restoreBank b i s := by
  rw [bankStep, if_neg (by rw [h]; decide)]
  simp

theorem bankStep_unsealed {b : Banks} {bad : List Nat} {i : Nat} (h : s.fld (fBANK i) ≠ 1) : bankStep b bad i s = s := if_pos (by simpa using h)

/-- What a bank's status becomes. -/
def bankGoal (bad : List Nat) (i v : Nat) : Nat := if v = 1 then (if i ∈ bad then 3 else 2) else v

theorem bankStep_status (b : Banks) (hb : b.Sound) (bad : List Nat) {i j : Nat} (hi : i < 8) (s : State) :
    (bankStep b bad i s).fld (fBANK j) = if j = i then bankGoal bad i (s.fld (fBANK i)) else s.fld (fBANK j) := by
  by_cases h : s.fld (fBANK i) = 1
  · rw [bankStep_sealed h, bankGoal, if_pos h]
    by_cases hbad : i ∈ bad
    · rw [if_pos hbad, if_pos hbad, ← fld_setBank hi 3 (by decide)]
      exact congrArg (fBANK j).of (loseBank_spec b i s).1
    · rw [if_neg hbad, if_neg hbad, ← fld_setBank hi 2 (by decide), restoreBank_eq]
      exact congrArg (fBANK j).of (bankBack_kept b hb i _).ret
  · rw [bankStep_unsealed h, bankGoal, if_neg h]
    split
    next hji => rw [hji]
    · rfl

/-- A bank leaves the banks; bank 0 alone touches the keys and their status, bank 5 the claims. -/
theorem bankStep_kept (b : Banks) (hb : b.Sound) (bad : List Nat) (i : Nat) (s : State) : let t := bankStep b bad i s
    t.banks = s.banks ∧ (i ≠ 0 → t.cph = s.cph ∧ t.rd rCPH_STATUS = s.rd rCPH_STATUS) ∧ (i ≠ 5 → t.claims = s.claims) := by
  by_cases h : s.fld (fBANK i) = 1
  · rw [bankStep_sealed h]
    by_cases hbad : i ∈ bad
    · rw [if_pos hbad]
      obtain ⟨-, hstatus, -, hbanks, hclaims, hcph⟩ := loseBank_spec b i s
      exact ⟨hbanks, fun h0 => ⟨hcph, hstatus h0⟩, fun _ => hclaims⟩
    · rw [if_neg hbad, restoreBank_eq]
      obtain ⟨-, hstatus, hbanks⟩ := bankBack_kept b hb i (s.setF (fBANK i) 2)
      obtain ⟨hcph, hclaims, -⟩ := bankBack_parts b i (s.setF (fBANK i) 2)
      rw [State.setF_banks] at hbanks
      rw [State.setF_claims] at hclaims
      rw [State.setF_cph] at hcph
      exact ⟨hbanks, fun h0 => ⟨hcph h0, hstatus.trans (State.rd_setF_other _ _ _ _ (by grind))⟩, hclaims⟩
  · rw [bankStep_unsealed h]
    exact ⟨rfl, fun _ => ⟨rfl, rfl⟩, fun _ => rfl⟩

/-! ### All banks, and what starts after them -/

theorem each_bankStep_status (b : Banks) (hb : b.Sound) (bad : List Nat) (l : List Nat) (hl : ∀ i ∈ l, i < 8) (hn : l.Nodup) (s : State) (j : Nat) :
    (each l (bankStep b bad) s).fld (fBANK j) = if j ∈ l then bankGoal bad j (s.fld (fBANK j)) else s.fld (fBANK j) := by
  induction l generalizing s with
  | nil => rfl
  | cons i l ih =>
    obtain ⟨hi, hn⟩ := List.nodup_cons.1 hn
    refine (ih (fun k hk => hl k (List.mem_cons_of_mem _ hk)) hn (bankStep b bad i s)).trans ?_
    rw [bankStep_status b hb bad (hl i List.mem_cons_self)]
    by_cases hji : j = i
    · subst hji
      simp [hi]
    · simp [hji]

theorem each_bankStep_keys (b : Banks) (hb : b.Sound) (bad : List Nat) {l : List Nat} (hl : 0 ∉ l) (s : State) :
    (each l (bankStep b bad) s).cph = s.cph ∧ (each l (bankStep b bad) s).rd rCPH_STATUS = s.rd rCPH_STATUS := by
  induction l generalizing s with
  | nil => exact ⟨rfl, rfl⟩
  | cons i l ih =>
    obtain ⟨h0, hl⟩ := List.ne_and_not_mem_of_not_mem_cons hl
    obtain ⟨hcph, hstatus⟩ := (bankStep_kept b hb bad i s).2.1 h0.symm
    obtain ⟨hcph', hstatus'⟩ := ih hl (bankStep b bad i s)
    exact ⟨hcph'.trans hcph, hstatus'.trans hstatus⟩

theorem each_bankStep_claims (b : Banks) (hb : b.Sound) (bad : List Nat) {l : List Nat} (hl : 5 ∉ l) (s : State) :
    (each l (bankStep b bad) s).claims = s.claims := by
  induction l generalizing s with
  | nil => rfl
  | cons i l ih =>
    obtain ⟨h5, hl⟩ := List.ne_and_not_mem_of_not_mem_cons hl
    exact (ih hl (bankStep b bad i s)).trans ((bankStep_kept b hb bad i s).2.2 h5.symm)

/-- The eight banks, one after another. -/
def allBanks (b : Banks) (bad : List Nat) (s : State) : State := each (span 0 8) (bankStep b bad) s

theorem allBanks_keys (b : Banks) (hb : b.Sound) (bad : List Nat) (s : State) (h : s.fld (fBANK 0) = 1) :
    (0 ∈ bad → (allBanks b bad s).flag fCPH_STATUS_KEY_LOST = true ∧ (allBanks b bad s).cph.keys = s.cph.keys) ∧
      (0 ∉ bad → (allBanks b bad s).cph.kek = b.kek ∧ (allBanks b bad s).cph.keys = b.keys) := by
  have hall : allBanks b bad s = each [1, 2, 3, 4, 5, 6, 7] (bankStep b bad) (bankStep b bad 0 s) := by
    rw [allBanks, show span 0 8 = 0 :: [1, 2, 3, 4, 5, 6, 7] from rfl]
    rfl
  obtain ⟨hcph, hstatus⟩ := each_bankStep_keys b hb bad (l := [1, 2, 3, 4, 5, 6, 7]) (by decide) (bankStep b bad 0 s)
  rw [← hall] at hcph hstatus
  rw [hcph, bankStep_sealed h]
  refine ⟨fun hbad => ?_, fun hbad => ?_⟩
  · obtain ⟨-, -, hlost, -, -, hkeys⟩ := loseBank_spec b 0 s
    rw [bankStep_sealed h, if_pos hbad] at hstatus
    rw [if_pos hbad, hkeys]
    exact ⟨(congrArg (fun w => fCPH_STATUS_KEY_LOST.of w != 0) hstatus).trans (hlost rfl), rfl⟩
  · obtain ⟨-, -, hkek, hkeys, -⟩ := bankBack_parts b 0 (s.setF (fBANK 0) 2)
    rw [if_neg hbad, restoreBank_eq]
    exact ⟨hkek, hkeys⟩

theorem allBanks_claims (b : Banks) (hb : b.Sound) (bad : List Nat) (s : State) (h : s.fld (fBANK 5) = 1) (hbad : 5 ∉ bad) :
    (allBanks b bad s).claims = b.claims := by
  have hall : allBanks b bad s = each [6, 7] (bankStep b bad) (bankStep b bad 5 (each [0, 1, 2, 3, 4] (bankStep b bad) s)) := rfl
  have hfive : (each [0, 1, 2, 3, 4] (bankStep b bad) s).fld (fBANK 5) = 1 :=
    (each_bankStep_status b hb bad _ (by decide) (by decide) s 5).trans h
  rw [hall, each_bankStep_claims b hb bad (by decide), bankStep_sealed hfive, if_neg hbad, restoreBank_eq]
  exact (bankBack_parts b 5 _).2.2.2.2

theorem allBanks_timeless (b : Banks) (hb : b.Sound) (bad : List Nat) (s : State) (h : s.fld (fBANK 7) = 1) (hbad : 7 ∉ bad) :
    (allBanks b bad s).flag fTIM_STATUS_TOD_VALID = false := by
  have hall : allBanks b bad s = bankStep b bad 7 (each [0, 1, 2, 3, 4, 5, 6] (bankStep b bad) s) := rfl
  have hseven : (each [0, 1, 2, 3, 4, 5, 6] (bankStep b bad) s).fld (fBANK 7) = 1 :=
    (each_bankStep_status b hb bad _ (by decide) (by decide) s 7).trans h
  rw [hall, bankStep_sealed hseven, if_neg hbad, restoreBank_eq]
  exact restoreRecords_timeless b _

/-- The stacks and the monitor start, and what depends on the configuration follows it. -/
def restart (s : State) : State := timChange (fabRefresh (memRefresh (queueDomain 3 (setPD 31 3 (setPD 30 3 s)))))

theorem Quiet.memRefresh {κ : Realm} {r : State} (h : Quiet κ r s) : Quiet κ r (memRefresh s) := by
  unfold Machine.memRefresh
  extract_lets t
  have ht : Quiet κ r t := .setF (f := fMEM_FAR_SLOTS_SLOTS) (by grind) (.setF (f := fMEM_STATUS_RETIRED) (by grind) h)
  split
  · exact .setF (by grind) (.setB (by grind) ht)
  · exact .setF (by grind) (.setB (by grind) ht)

theorem restart_spec (s : State) : Restored s (restart s) ∧ (restart s).cph.keys = s.cph.keys ∧ (restart s).cph.kek = s.cph.kek ∧
    (restart s).fld (fPD 30) = 3 ∧ (restart s).fld (fPD 31) = 3 ∧ ∀ i, (restart s).fld (fBANK i) = s.fld (fBANK i) := by
  have hkeys : Quiet .keys s (restart s) :=
    .timChange (.fabRefresh (.memRefresh (.keys_queueDomain (.setPD (by decide) (.setPD (by decide) (.keys_refl s))))))
  have hquiet : Quiet .power (queueDomain 3 (setPD 31 3 (setPD 30 3 s))) (restart s) := .timChange (.fabRefresh (.memRefresh (.power_refl _)))
  refine ⟨.timChange (.fabRefresh (.memRefresh (.queueDomain (.setPD (.setPD (.refl s)))))), hkeys.on.2.1, hkeys.on.2.2, ?_, ?_, fun i => ?_⟩
  · rw [hquiet.fldPD, queueDomain_otherPD _ _ (by decide) (by decide) (by decide), fld_setPD _ _ _ _ (by decide) (by decide) (by decide),
      fld_setPD _ _ _ _ (by decide) (by decide) (by decide)]
    rfl
  · rw [hquiet.fldPD, queueDomain_otherPD _ _ (by decide) (by decide) (by decide), fld_setPD _ _ _ _ (by decide) (by decide) (by decide)]
    rfl
  · have hother : (fBANK i).reg ≠ rPWR_DOMAIN_A ∧ (fBANK i).reg ≠ rPWR_DOMAIN_B := ⟨by grind, by grind⟩
    have hpd : ∀ d v (u : State), (setPD d v u).fld (fBANK i) = u.fld (fBANK i) := fun d v u => State.fld_setF_reg _ _ _ _ (by grind)
    rw [hquiet.fld (by grind), queueDomain_fld _ _ _ hother.1 hother.2, hpd, hpd]

theorem exec_retentionBanksRestored {b : Banks} (bad : List Nat) (hbk : s.banks = some b) (hw : s.boot.waking = true) (h5 : s.stage = 5) :
    exec (.retentionBanksRestored bad) s = .next (settle (restart { allBanks b bad s with banks := none })) := by
  change execRetentionBanksRestored bad s = _
  rw [execRetentionBanksRestored, hbk]
  exact if_neg (by simp [hw, h5])

theorem exec_retentionBanksRestored_idle (bad : List Nat) (h : s.banks = none ∨ s.boot.waking = false ∨ s.stage ≠ 5) :
    exec (.retentionBanksRestored bad) s = .next (settle s) := by
  change execRetentionBanksRestored bad s = _
  rw [execRetentionBanksRestored]
  split
  · rfl
  next b hbk => exact if_pos (by simpa [hbk] using h)

theorem retentionBanksRestored (bad : List Nat) (b : Banks) (s : State) (hbk : s.banks = some b) (hw : s.boot.waking = true) (h5 : s.stage = 5)
    (hb : b.Sound) : Completes (.retentionBanksRestored bad) s fun t => t.banks = none ∧ t.fld (fPD 30) = 3 ∧ t.fld (fPD 31) = 3 ∧
      (∀ i, i < 8 → t.fld (fBANK i) = if s.fld (fBANK i) = 1 then (if i ∈ bad then 3 else 2) else s.fld (fBANK i)) ∧
      (s.fld (fBANK 0) = 1 → 0 ∈ bad → t.flag fCPH_STATUS_KEY_LOST = true ∧ t.cph.keys = s.cph.keys) ∧
      (s.fld (fBANK 0) = 1 → 0 ∉ bad → t.cph.kek = b.kek ∧ t.cph.keys = b.keys) ∧
      (s.fld (fBANK 5) = 1 → 5 ∉ bad → t.claims = b.claims) ∧ (s.fld (fBANK 7) = 1 → 7 ∉ bad → t.flag fTIM_STATUS_TOD_VALID = false) := by
  refine ⟨_, exec_retentionBanksRestored bad hbk hw h5, ?_⟩
  beta_reduce
  obtain ⟨hrest, hkeys, hkek, h30, h31, hbank⟩ := restart_spec { allBanks b bad s with banks := none }
  have hstatus : ∀ i, i < 8 → (allBanks b bad s).fld (fBANK i) = bankGoal bad i (s.fld (fBANK i)) := fun i hi =>
    (each_bankStep_status b hb bad _ (by decide) (by decide) s i).trans (if_pos ((mem_span _ _ _).2 ⟨Nat.zero_le _, by omega⟩))
  have hlost : (restart { allBanks b bad s with banks := none }).flag fCPH_STATUS_KEY_LOST = (allBanks b bad s).flag fCPH_STATUS_KEY_LOST :=
    congrArg (fun w => fCPH_STATUS_KEY_LOST.of w != 0) hrest.status
  have htod : (restart { allBanks b bad s with banks := none }).flag fTIM_STATUS_TOD_VALID = (allBanks b bad s).flag fTIM_STATUS_TOD_VALID :=
    congrArg (· != 0) hrest.tod
  simp only [settle_banks, settle_cph, settle_claims, fld_settle, flag_settle]
  rw [h30, h31, hrest.banks, hrest.claims, hkeys, hkek, hlost, htod]
  refine ⟨rfl, rfl, rfl, fun i hi => (hbank i).trans (hstatus i hi), fun h => (allBanks_keys b hb bad s h).1, fun h => (allBanks_keys b hb bad s h).2,
    allBanks_claims b hb bad s, allBanks_timeless b hb bad s⟩
end
end Sys2Proof.Machine
end

/-! # The dark house: the entry (R405, R406) -/
section
namespace Sys2Proof.Machine

open Sys2Proof

section
variable {r s t u : State} {q : Request}

/-! ### Sessions end -/

theorem cancelHalf_rehearsals (b : Nat) (s : State) : (cancelHalf b s).rehearsals = s.rehearsals := by
  rw [cancelHalf]
  split
  · rw [halfShow, State.setB_rehearsals]
  · rfl

theorem cancelHalf_ops (b : Nat) (s : State) : (cancelHalf b s).ops = s.ops := by
  rw [cancelHalf]
  split
  · rw [halfShow, State.setB_ops]
  · rfl

theorem dropSession_ops (b : Nat) (s : State) : (dropSession b s).ops = s.ops := cancelHalf_ops _ _

theorem dropSession_rehearsals (b : Nat) (s : State) : (dropSession b s).rehearsals = s.rehearsals.filter fun x =>
    !(x.block == b) := cancelHalf_rehearsals _ _

/-- Where no operation waits, the end of a session is told to its owner, and to nobody else. -/
theorem endSession_alone (m : Option Nat) (x : Rehearsal) (h : s.ops = []) : endSession m x s = sessionNotice x m (dropSession x.block s) := by
  have hcue : answerCue x.block { status := stWRONG_STATE } [] (dropSession x.block s) = dropSession x.block s := by
    rw [answerCue, dropSession_ops, h]
    rfl
  rw [endSession, hcue]

theorem endSession_rehearsals (m : Option Nat) (x : Rehearsal) (h : s.ops = []) :
    (endSession m x s).rehearsals = s.rehearsals.filter fun y => !(y.block == x.block) := by
  rw [endSession_alone m x h, sessionNotice, (answered _ _ _ _ _ _).rehearsals, dropSession_rehearsals]

theorem endSession_ops (m : Option Nat) (x : Rehearsal) (h : s.ops = []) : (endSession m x s).ops = [] := by
  rw [endSession_alone m x h, sessionNotice, answer_ops, dropSession_ops, h]

theorem eachEndSession_rehearsals (m : Option Nat) (l : List Rehearsal) (s : State) (h : s.ops = []) :
    ∀ y ∈ (each l (endSession m) s).rehearsals, y ∈ s.rehearsals ∧ ∀ x ∈ l, y.block ≠ x.block := by
  induction l generalizing s with
  | nil => exact fun y hy => ⟨hy, nofun⟩
  | cons x l ih =>
    intro y hy
    obtain ⟨hin, hne⟩ := ih (endSession m x s) (endSession_ops m x h) y hy
    rw [endSession_rehearsals m x h, List.mem_filter] at hin
    refine ⟨hin.1, fun x' hx' => ?_⟩
    rcases List.mem_cons.1 hx' with rfl | hx'
    · simpa using hin.2
    · exact hne x' hx'

/-- Every session ends. -/
theorem endSessions_all (m : Option Nat) (s : State) (h : s.ops = []) : (endSessions m (fun _ => true) s).rehearsals = [] := by
  rw [List.eq_nil_iff_forall_not_mem]
  intro y hy
  obtain ⟨hin, hne⟩ := eachEndSession_rehearsals m _ s h y hy
  exact hne y (List.mem_filter.2 ⟨hin, rfl⟩) rfl

theorem Quiet.endSessions {κ : Realm} (h : Quiet κ r s) {m : Option Nat} {p : Rehearsal → Bool} : Quiet κ r (endSessions m p s) :=
  .each (fun _ _ ht => .endSession ht) h

/-! ### Nothing of the part's work begins -/

/-- No operation and no rehearsal session. -/
def Idle (s : State) : Prop := s.ops = [] ∧ s.rehearsals = []

theorem Quiet.idle (h : Quiet .power s t) (hs : Idle s) : Idle t := by
  refine ⟨List.eq_nil_iff_forall_not_mem.2 fun o ho => ?_, h.rehearsals hs.2⟩
  obtain ⟨o', ho', -⟩ := h.ops ho
  rw [hs.1] at ho'
  cases ho'

theorem Idle.setF (h : Idle s) (f : Fld) (v : Nat) : Idle (s.setF f v) := h

theorem Idle.setPD (h : Idle s) (d v : Nat) : Idle (setPD d v s) := h.setF _ _

theorem Idle.eachPD (h : Idle s) (l : List Nat) (v : Nat) : Idle (each l (fun d s => Machine.setPD d v s) s) :=
  each_inv Idle _ (fun d _ ht => ht.setPD d v) l s h

theorem Idle.setPwr (h : Idle s) (p : PwrSt) : Idle (s.setPwr p) := h

theorem Idle.chStop (h : Idle s) {n : Nat} : Idle (chStop n s) := by
  have h1 : Idle (capTruncate n (loopClear n (accrue n s))) :=
    Quiet.idle (.capTruncate (.loopClear (.inl rfl) (.power_refl (accrue n s)))) h
  exact (quiet_chStop n s).idle ((h1.setF _ _).eachPD _ _)

theorem Idle.chDarkened (h : Idle s) {n : Nat} : Idle (chDarkened n s) := by
  have h1 := Quiet.idle (.chContentsLost (n := n) (.power_refl _)) ((h.setF (fCH n) 0).eachPD (chPds n) 0)
  exact Quiet.idle (.chFollow nofun (.offer (.power_refl _))) (h1.setPwr _)

theorem Idle.quadDark (h : Idle s) {q : Nat} : Idle (quadDark q s) :=
  Quiet.idle (.monSources (.domRecord (.statusReset (.each (fun _ _ ht => .laneFresh ht) (.power_refl _)) fun _ ho => not_inQuad q ho))) (h.setPD _ 0)

theorem Idle.hbmDark (h : Idle s) : Idle (hbmDark s) :=
  Quiet.idle (.monSources (.domRecord (.domRecord (.power_refl _)))) (((Quiet.idle (.hbmLost (.power_refl _)) h).setPD 30 0).setPD 31 0)

theorem Idle.domDark (h : Idle s) {d : Nat} (hd : d = 3 ∨ d = 28) : Idle (domDark d s) := by
  have hreset : ∀ x off, Realm.power.holds off → (regDomain off == some x) = false := fun x off ho => by rw [regDomain_power ho]; rfl
  rcases hd with rfl | rfl
  · rw [domDark_monitor]
    exact Quiet.idle (.monSources (.domRecord (.statusReset (.setMon (.power_refl _)) (hreset 3)))) (h.setPD _ _)
  · rw [domDark_merge]
    exact Quiet.idle (.monSources (.domRecord (.statusReset (.mergeEmptied (.power_refl _)) (hreset 28)))) (h.setPD _ _)

/-! ### The parts go dark one after another -/

/-- Channels and domains that are dark, nothing that waits to start, and the entry's marks as they were. -/
structure Night (chs pds : List Nat) (s : State) : Prop where
  ch : ∀ n ∈ chs, s.fld (fCH n) = 0
  pd : ∀ d ∈ pds, s.fld (fPD d) = 0
  queue : s.pwr.queue = []
  idle : Idle s

theorem Night.quiet {chs pds : List Nat} (h : Night chs pds s) (hq : Quiet .power s t) : Night chs pds t :=
  ⟨fun n hn => (hq.fldCH n).trans (h.ch n hn), fun d hd => (hq.fldPD d).trans (h.pd d hd), by rw [hq.pwr, h.queue], hq.idle h.idle⟩

/-- What a part's own lemma says of the power state, read as a step into the night. -/
theorem Night.next {chs pds l m : List Nat} (h : Night chs pds s) {p : PwrSt}
    (hp : PowerAt t (setOn l 0 fun n => s.fld (fCH n)) (setOn m 0 fun d => s.fld (fPD d)) p) (hqueue : p.queue = s.pwr.queue) (hi : Idle t)
    (hl : ∀ n ∈ l ++ chs, n < 4) (hm : ∀ d ∈ m ++ pds, d < 32) : Night (l ++ chs) (m ++ pds) t := by
  refine ⟨fun n hn => (hp.ch n (hl n hn)).trans ?_, fun d hd => (hp.pd d (hm d hd)).trans ?_, by rw [hp.pwr, hqueue, h.queue], hi⟩
  · by_cases hmem : n ∈ l
    · exact mem_setOn hmem
    · rw [not_mem_setOn hmem]
      exact h.ch n ((List.mem_append.1 hn).resolve_left hmem)
  · by_cases hmem : d ∈ m
    · exact mem_setOn hmem
    · rw [not_mem_setOn hmem]
      exact h.pd d ((List.mem_append.1 hd).resolve_left hmem)

theorem Night.mono {chs pds chs' pds' : List Nat} (h : Night chs pds s) (hc : ∀ n ∈ chs', n ∈ chs) (hp : ∀ d ∈ pds', d ∈ pds) : Night chs' pds' s :=
  ⟨fun n hn => h.ch n (hc n hn), fun d hd => h.pd d (hp d hd), h.queue, h.idle⟩

theorem Night.addCh {chs pds : List Nat} (h : Night chs pds s) {n : Nat} (h0 : s.fld (fCH n) = 0) : Night (n :: chs) pds s :=
  ⟨fun m hm => (List.mem_cons.1 hm).elim (fun e => e ▸ h0) (h.ch m), h.pd, h.queue, h.idle⟩

theorem Night.addPD {chs pds : List Nat} (h : Night chs pds s) {d : Nat} (h0 : s.fld (fPD d) = 0) : Night chs (d :: pds) s :=
  ⟨h.ch, fun e he => (List.mem_cons.1 he).elim (fun eq => eq ▸ h0) (h.pd e), h.queue, h.idle⟩

/-- Domains go dark: their fields, and otherwise nothing of the power state. -/
theorem Night.domains {chs pds m : List Nat} (h : Night chs pds s) {p : PwrSt} (hc : ∀ n ∈ chs, n < 4) (hpd : ∀ e ∈ m ++ pds, e < 32)
    (hp : PowerAt t (fun n => s.fld (fCH n)) (setOn m 0 fun d => s.fld (fPD d)) p) (hq : p = s.pwr) (hi : Idle t) : Night chs (m ++ pds) t := by
  have hempty : setOn [] 0 (fun n => s.fld (fCH n)) = fun n => s.fld (fCH n) := by
    funext n
    exact not_mem_setOn (by simp)
  exact h.next (l := []) (hempty.symm ▸ hp) (congrArg PwrSt.queue hq) hi hc hpd

/-- A channel goes dark in a state that the night has reached but for that channel. -/
theorem Night.channel {chs : List Nat} {ch pd : Nat → Nat} {p : PwrSt} (hp : PowerAt s ch pd p) (hq : p.queue = []) (hi : Idle s)
    (hc : ∀ m ∈ chs, m < 4) {n : Nat} (hn : n < 4) (hch : ∀ m ∈ chs, m ≠ n → ch m = 0) : Night (n :: chs) [] (chDarkened n s) := by
  have hd := hp.chDarkened hn
  refine ⟨fun m hm => ?_, nofun, by rw [hd.pwr]; exact hq, hi.chDarkened⟩
  by_cases hmn : m = n
  · rw [hmn, hd.ch n hn]
    exact mem_setOn (by simp)
  · have hm := (List.mem_cons.1 hm).resolve_left hmn
    rw [hd.ch m (hc m hm), not_mem_setOn (by simpa using hmn)]
    exact hch m hm hmn

/-- One channel of the entry. -/
def darkenCh (n : Nat) (s : State) : State :=
  if s.chDark n then s
  else
    let was := if s.fld (fCH n) = 3 then s.pwr.was.get (ch4 n) else s.fld (fCH n)
    let s := if s.active n then chStop n s else s
    chDarkened n (s.setPwr { s.pwr with was := s.pwr.was.set (ch4 n) was })

theorem Night.darkenCh {chs : List Nat} (h : Night chs [] s) (hc : ∀ m ∈ chs, m < 4) {n : Nat} (hn : n < 4) : Night (n :: chs) [] (darkenCh n s) := by
  rw [Machine.darkenCh]
  by_cases h0 : s.chDark n = true
  · rw [if_pos h0]
    exact h.addCh (by simpa [State.chDark] using h0)
  · rw [if_neg h0]
    extract_lets was v
    have hv : ∃ ch pd, PowerAt v ch pd v.pwr ∧ v.pwr.queue = [] ∧ Idle v ∧ ∀ m ∈ chs, m ≠ n → ch m = 0 := by
      by_cases ha : s.active n = true
      · have hstop := (PowerAt.self s).chStop hn
        rw [show v = chStop n s from if_pos ha]
        refine ⟨_, _, hstop.pwr ▸ hstop, by rw [hstop.pwr]; exact h.queue, h.idle.chStop, fun m hm hmn => ?_⟩
        rw [not_mem_setOn (by simpa using hmn)]
        exact h.ch m hm
      · rw [show v = s from if_neg ha]
        exact ⟨_, _, .self s, h.queue, h.idle, fun m hm _ => h.ch m hm⟩
    clear_value v was
    obtain ⟨ch, pd, hp, hq, hi, hch⟩ := hv
    exact Night.channel (s := v.setPwr { v.pwr with was := v.pwr.was.set (ch4 n) was }) (hp.setPwr _) hq (hi.setPwr _) hc hn hch

/-- One quad of the entry. -/
def darkenQuad (q : Nat) (s : State) : State := if s.fld (fPD (24 + q)) = 0 then s else quadDark q (quadStop q s)

theorem Night.darkenQuad {chs pds : List Nat} (h : Night chs pds s) (hc : ∀ n ∈ chs, n < 4) (hpd : ∀ d ∈ pds, d < 32) {q : Nat} (hq : q < 4) :
    Night chs ((24 + q) :: pds) (darkenQuad q s) := by
  rw [Machine.darkenQuad]
  split
  next h0 => exact h.addPD h0
  next =>
    have hstop : Quiet .power s (quadStop q s) := .quadStop (.power_refl s)
    refine h.domains (m := [24 + q]) hc ?_ (((PowerAt.self s).quiet hstop).quadDark hq) rfl (hstop.idle h.idle).quadDark
    exact fun e he => (List.mem_cons.1 he).elim (fun h => by omega) (hpd e)

/-- The domains of the entry, in their order. -/
def darkenRest (s : State) : State :=
  let s := if s.fld (fPD 29) = 0 then s else domRecord 29 false (cphGate (setPD 29 0 s))
  let s := if s.fld (fPD 28) = 0 then s else domDark 28 s
  let s := if s.fld (fPD 3) = 0 then s else domDark 3 s
  if s.fld (fPD 30) = 0 then s else offer 0x0A21 (bHBM 0) 2 0 (hbmDark s)

theorem darken_eq (s : State) : darken s = darkenRest (each (span 0 4) darkenQuad (each (span 0 4) darkenCh
    (s.setPwr { s.pwr with queue := [], starting := [], exits := [] }))) := rfl

theorem Night.darkenRest {chs pds : List Nat} (h : Night chs pds s) (hc : ∀ n ∈ chs, n < 4) (hpd : ∀ d ∈ pds, d < 32) :
    Night chs (30 :: 3 :: 28 :: 29 :: pds) (darkenRest s) := by
  have hlt : ∀ (d : Nat) (l : List Nat), d < 32 → (∀ e ∈ l, e < 32) → ∀ e ∈ d :: l, e < 32 := fun d l hd hl e he =>
    (List.mem_cons.1 he).elim (fun h => h ▸ hd) (hl e)
  have h29 := hlt 29 pds (by decide) hpd
  have h28 := hlt 28 _ (by decide) h29
  have h3 := hlt 3 _ (by decide) h28
  have h30 := hlt 30 _ (by decide) h3
  unfold Machine.darkenRest
  extract_lets a b c
  have ha : Night chs (29 :: pds) a := by
    by_cases h0 : s.fld (fPD 29) = 0
    · have hv : a = s := if_pos h0
      rw [hv]
      exact h.addPD h0
    · have hv : a = domRecord 29 false (cphGate (setPD 29 0 s)) := if_neg h0
      have hq : Quiet .power (setPD 29 0 s) (domRecord 29 false (cphGate (setPD 29 0 s))) := .domRecord (.cphGate (.power_refl _))
      rw [hv]
      exact h.domains (m := [29]) hc h29 (((PowerAt.self s).setPD (by decide) (by decide)).quiet hq) rfl (hq.idle (h.idle.setPD _ _))
  have hb : Night chs (28 :: 29 :: pds) b := by
    by_cases h0 : a.fld (fPD 28) = 0
    · have hv : b = a := if_pos h0
      rw [hv]
      exact ha.addPD h0
    · have hv : b = domDark 28 a := if_neg h0
      rw [hv]
      exact ha.domains (m := [28]) hc h28 ((PowerAt.self a).domDark (.inr rfl)) rfl (ha.idle.domDark (.inr rfl))
  have hcc : Night chs (3 :: 28 :: 29 :: pds) c := by
    by_cases h0 : b.fld (fPD 3) = 0
    · have hv : c = b := if_pos h0
      rw [hv]
      exact hb.addPD h0
    · have hv : c = domDark 3 b := if_neg h0
      rw [hv]
      exact hb.domains (m := [3]) hc h3 ((PowerAt.self b).domDark (.inl rfl)) rfl (hb.idle.domDark (.inl rfl))
  split
  next h0 => exact hcc.addPD h0
  next =>
    have hp := (PowerAt.self c).hbmDark
    rw [setOn_cons] at hp
    have hboth := hcc.domains (m := [30, 31]) hc (hlt 30 _ (by decide) (hlt 31 _ (by decide) h3)) hp rfl hcc.idle.hbmDark
    exact (hboth.mono (pds' := 30 :: 3 :: 28 :: 29 :: pds) (fun _ hm => hm) (by simp; grind)).quiet (.offer (.power_refl _))

theorem Night.eachCh {chs : List Nat} (l : List Nat) (hl : ∀ n ∈ l, n < 4) (h : Night chs [] s) (hc : ∀ m ∈ chs, m < 4) :
    Night (l ++ chs) [] (each l Machine.darkenCh s) := by
  induction l generalizing s chs with
  | nil => exact h
  | cons n l ih =>
    have hn : n < 4 := hl n List.mem_cons_self
    have hc' : ∀ m ∈ n :: chs, m < 4 := fun m hm => (List.mem_cons.1 hm).elim (fun e => e ▸ hn) (hc m)
    exact (ih (fun m hm => hl m (List.mem_cons_of_mem _ hm)) (h.darkenCh hc hn) hc').mono (by grind) nofun

theorem Night.eachQuad {chs pds : List Nat} (l : List Nat) (hl : ∀ q ∈ l, q < 4) (h : Night chs pds s) (hc : ∀ n ∈ chs, n < 4)
    (hpd : ∀ d ∈ pds, d < 32) : Night chs (l.map (24 + ·) ++ pds) (each l Machine.darkenQuad s) := by
  induction l generalizing s pds with
  | nil => exact h
  | cons q l ih =>
    have hq : q < 4 := hl q List.mem_cons_self
    have hpd' : ∀ d ∈ (24 + q) :: pds, d < 32 := fun d hd => (List.mem_cons.1 hd).elim (fun e => by omega) (hpd d)
    exact (ih (fun m hm => hl m (List.mem_cons_of_mem _ hm)) (h.darkenQuad hc hpd hq) hpd').mono (fun _ hm => hm) (by grind)

/-- Everything from PD03 on is dark, and nothing waits to start. -/
theorem night_darken (h : Idle s) : Night [0, 1, 2, 3] [3, 24, 25, 26, 27, 28, 29, 30] (darken s) := by
  have h0 : Night [] [] (s.setPwr { s.pwr with queue := [], starting := [], exits := [] }) := ⟨nofun, nofun, rfl, h⟩
  have h1 := h0.eachCh (span 0 4) (by decide) nofun
  have h2 := h1.eachQuad (span 0 4) (by decide) (by decide) nofun
  have h3 := h2.darkenRest (by decide) (by decide)
  rw [darken_eq]
  exact h3.mono (by decide) (by decide)

/-! ### The keys through the night -/

/-- The keys of every context but a RETIRING one, and the KEK, are as they were. -/
structure KeysKept (r s : State) : Prop where
  key : ∀ i, (i < 0x4000 → r.fld (fCPH_CTX_A_STATE i) ≠ cxRETIRING) → s.keyOf i = r.keyOf i
  state : ∀ i, i < 0x4000 → r.fld (fCPH_CTX_A_STATE i) ≠ cxRETIRING → s.fld (fCPH_CTX_A_STATE i) = r.fld (fCPH_CTX_A_STATE i)
  kek : s.cph.kek = r.cph.kek

theorem KeysKept.refl (s : State) : KeysKept s s := ⟨fun _ _ => rfl, fun _ _ _ => rfl, rfl⟩

theorem KeysKept.trans (h : KeysKept r s) (h' : KeysKept s t) : KeysKept r t := by
  have hstep : ∀ i, i < 0x4000 → r.fld (fCPH_CTX_A_STATE i) ≠ cxRETIRING → s.fld (fCPH_CTX_A_STATE i) ≠ cxRETIRING := fun i hi hr => by
    rw [h.state i hi hr]
    exact hr
  exact ⟨fun i hr => (h'.key i fun hi => hstep i hi (hr hi)).trans (h.key i hr), fun i hi hr =>
      (h'.state i hi (hstep i hi hr)).trans (h.state i hi hr),
    h'.kek.trans h.kek⟩

theorem Quiet.keysKept {κ : Realm} (hκ : κ ≠ .power) (h : Quiet κ s t) : KeysKept s t := by
  obtain ⟨hkeys, hkek⟩ := h.keys hκ
  exact ⟨fun i _ => by rw [State.keyOf, State.keyOf, hkeys], fun i _ _ => h.fld (by grind), hkek⟩

/-- What the loss of a session's set leaves. -/
theorem freeSet_parts (x : Nat) (s : State) : (freeSet x s).cph.keys = s.cph.keys ∧ (freeSet x s).cph.kek = s.cph.kek ∧
    (freeSet x s).halves = s.halves := by
  rw [freeSet]
  split
  · exact ⟨rfl, rfl, rfl⟩
  · exact each_inv (fun t => t.cph.keys = s.cph.keys ∧ t.cph.kek = s.cph.kek ∧ t.halves = s.halves) (fun k s => cntClear (kSession x k) s)
      (fun _ _ h => h) (span 0 6) _ ⟨rfl, rfl, rfl⟩

theorem wipe_parts (i : Nat) (s : State) : (wipe i s).cph.keys = smSet (fun _ => none) s.cph.keys i none ∧ (wipe i s).cph.kek = s.cph.kek ∧
    (wipe i s).halves = s.halves := freeSet_parts _ _

theorem keyOf_wipe (i j : Nat) (hij : j ≠ i) (s : State) : (wipe i s).keyOf j = s.keyOf j := by
  rw [State.keyOf, (wipe_parts i s).1]
  exact smGet_smSet_other _ _ _ _ _ hij

theorem rd_wipe (i : Nat) (s : State) {off : Nat} (ha : off ≠ rCPH_CTX_A i) (hb : off ≠ rCPH_CTX_B i) : (wipe i s).rd off = s.rd off := by
  rw [State.rd, State.rd, smGet, smGet, wipe_regs, smLookup_smDel_other _ _ _ hb, smLookup_smDel_other _ _ _ ha]

theorem lone_wipe (i : Nat) (_ : i < 0x4000) (h : s.Lone) : (wipe i s).Lone := by
  have hcfg : ∀ p, p < 2 → (wipe i s).pairValid p = s.pairValid p := fun p hp =>
    congrArg (fun w => (fMRG_CFG_VALID p).of w != 0) (rd_wipe i s (by grind) (by grind))
  obtain ⟨h0, h1, hhalves⟩ := h
  exact ⟨(hcfg 0 (by decide)).trans h0, (hcfg 1 (by decide)).trans h1, (wipe_parts i s).2.2.trans hhalves⟩

/-- Contexts are wiped: the others stay. -/
theorem eachWipe_spec (l : List Nat) (hl : ∀ i ∈ l, i < 0x4000) (s : State) (h : s.Lone) : let t := each l wipe s
    t.Lone ∧ t.cph.kek = s.cph.kek ∧ (∀ j, j ∉ l → t.keyOf j = s.keyOf j) ∧
      ∀ j, j ∉ l → t.fld (fCPH_CTX_A_STATE j) = s.fld (fCPH_CTX_A_STATE j) := by
  induction l generalizing s with
  | nil => exact ⟨h, rfl, fun _ _ => rfl, fun _ _ => rfl⟩
  | cons i l ih =>
    obtain ⟨hlone, hkek, hkey, hstate⟩ := ih (fun j hj => hl j (List.mem_cons_of_mem _ hj)) (wipe i s) (lone_wipe i (hl i List.mem_cons_self) h)
    refine ⟨hlone, hkek.trans (wipe_parts i s).2.1, fun j hj => ?_, fun j hj => ?_⟩
    · obtain ⟨hji, hj⟩ := List.ne_and_not_mem_of_not_mem_cons hj
      exact (hkey j hj).trans (keyOf_wipe i j hji s)
    · obtain ⟨hji, hj⟩ := List.ne_and_not_mem_of_not_mem_cons hj
      exact (hstate j hj).trans (congrArg (fCPH_CTX_A_STATE j).of (rd_wipe i s (by grind) (by grind)))

/-- The keys kept, in a state without pairs and without waiting halves. -/
structure LoneKept (r s : State) : Prop extends KeysKept r s where
  lone : s.Lone

theorem LoneKept.step (h : LoneKept r s) (hq : s.Lone → Quiet .lone s t) : LoneKept r t :=
  ⟨h.toKeysKept.trans ((hq h.lone).keysKept (by decide)), (hq h.lone).lone⟩

theorem LoneKept.cphChannelLost (h : LoneKept r s) {n : Nat} : LoneKept r (cphChannelLost n s) := by
  have h1 : LoneKept r (setAccs n [] s) := h.step fun hl => .setAccs (.lone_refl hl)
  rw [Machine.cphChannelLost]
  generalize setAccs n [] s = v at h1
  obtain ⟨hlone, hkek, hkey, hstate⟩ := eachWipe_spec (v.contexts.filter fun i =>
      v.fld (fCPH_CTX_A_STATE i) == cxRETIRING && v.fld (fCPH_CTX_A_CHANNEL i) == n)
    (fun i hi => ((mem_contexts v i).1 (List.mem_filter.1 hi).1).1) v h1.lone
  have hnot : ∀ i, (i < 0x4000 → v.fld (fCPH_CTX_A_STATE i) ≠ cxRETIRING) →
      i ∉ v.contexts.filter fun i => v.fld (fCPH_CTX_A_STATE i) == cxRETIRING && v.fld (fCPH_CTX_A_CHANNEL i) == n := fun i hi hm => by
    obtain ⟨hctx, hret⟩ := List.mem_filter.1 hm
    rw [Bool.and_eq_true, beq_iff_eq] at hret
    exact hi ((mem_contexts v i).1 hctx).1 hret.1
  exact ⟨h1.toKeysKept.trans ⟨fun i hi => hkey i (hnot i hi), fun i _ hr => hstate i (hnot i fun _ => hr), hkek⟩, hlone⟩

theorem LoneKept.chContentsLost (h : LoneKept r s) {n : Nat} (hn : n < 4) : LoneKept r (chContentsLost n s) := by
  unfold Machine.chContentsLost
  extract_lets a b
  have ha : a = s := by
    change each (s.halves.filter _) _ s = s
    rw [h.lone.2.2]
    rfl
  have hq : s.Lone → Quiet .lone s a := fun hl => by
    rw [ha]
    exact .lone_refl hl
  have hb : LoneKept r b := h.step fun hl => .setEng (.setLine (.setFec (.setOh (hq hl))))
  refine LoneKept.step (s := Machine.cphChannelLost n b) hb.cphChannelLost fun hl => ?_
  exact .each (fun _ _ ht => .endBlock ht) (.statusReset (.dropRegs (.withMem (.withHgcPat (.setHub (.setLeaf (.lone_refl hl)))))
    (fun off ho => by grind [inLeaf, chBase])) (fun off ho => by grind [inCh, chBase]))

theorem Quiet.eachPD {κ : Realm} (hκ : κ ≠ .power) (h : Quiet κ r s) {l : List Nat} {v : Nat} :
    Quiet κ r (Sys2Proof.each l (fun d s => Machine.setPD d v s) s) :=
  .each (fun _ _ ht => .setPD hκ ht) h

theorem Quiet.lone_chStop (h : Quiet .lone r s) {n : Nat} (hn : n < 4) : Quiet .lone r (chStop n s) := by
  have h1 : Quiet .lone r (accrue n s) := ⟨h.on⟩
  exact .chFollow nofun (.muteFollow (.inr hn) (.rxTo (.inr hn) nofun (.setB (by grind [chBase]) (.setB (by grind [chBase])
    (.setLine (.setHub (.setOh (.eachPD (by decide) (.setF (by grind) (.capTruncate (.loopClear (.inr hn) h1)))))))))))

theorem LoneKept.chDarkened (h : LoneKept r s) {n : Nat} (hn : n < 4) : LoneKept r (chDarkened n s) := by
  have h1 : LoneKept r (each (chPds n) (fun d s => setPD d 0 s) (s.setF (fCH n) 0)) := h.step fun hl => .eachPD (by decide)
      (.setF (by grind) (.lone_refl hl))
  exact (h1.chContentsLost hn).step fun hl => .chFollow nofun (.offer (.setPwr (by decide) (.lone_refl hl)))

theorem LoneKept.darkenCh (h : LoneKept r s) {n : Nat} (hn : n < 4) : LoneKept r (darkenCh n s) := by
  rw [Machine.darkenCh]
  split
  · exact h
  · extract_lets was v
    have hv : LoneKept r v := by
      by_cases ha : s.active n = true
      · rw [show v = chStop n s from if_pos ha]
        exact h.step fun hl => .lone_chStop (.lone_refl hl) hn
      · rw [show v = s from if_neg ha]
        exact h
    clear_value v was
    exact (hv.step fun hl => .setPwr (by decide) (.lone_refl hl)).chDarkened hn

theorem LoneKept.eachCh (l : List Nat) (hl : ∀ n ∈ l, n < 4) (h : LoneKept r s) : LoneKept r (each l Machine.darkenCh s) := by
  induction l generalizing s with
  | nil => exact h
  | cons n l ih => exact ih (fun m hm => hl m (List.mem_cons_of_mem _ hm)) (h.darkenCh (hl n List.mem_cons_self))

theorem Quiet.keys_darkenQuad (h : Quiet .keys r s) {q : Nat} (hq : q < 4) : Quiet .keys r (darkenQuad q s) :=
  .ite h (.monSources (.domRecord (.statusReset (.each (fun _ _ ht => .laneFresh ht) (.setPD (by decide) (.quadStop h)))
    fun off ho => by grind [inQuad, regDomain])))

theorem Quiet.keys_domDark (h : Quiet .keys r s) {d : Nat} (hd : d = 3 ∨ d = 28) : Quiet .keys r (domDark d s) := by
  have hreset : ∀ x, x ≠ 29 → ∀ off, Realm.keys.holds off → (regDomain off == some x) = false := fun x hx off ho => by
    have : regDomain off = some 29 := by grind [regDomain]
    rw [this]
    simpa using hx.symm
  rcases hd with rfl | rfl
  · rw [domDark_monitor]
    exact .monSources (.domRecord (.statusReset (.setMon (.setPD (by decide) h)) (hreset 3 (by decide))))
  · rw [domDark_merge]
    exact .monSources (.domRecord (.statusReset (.mergeEmptied (.setPD (by decide) h)) (hreset 28 (by decide))))

theorem Quiet.keys_darkenRest (h : Quiet .keys r s) : Quiet .keys r (darkenRest s) := by
  unfold Machine.darkenRest
  extract_lets a b c
  have ha : Quiet .keys r a := .ite h (.domRecord (.cphGate (.setPD (by decide) h)))
  have hb : Quiet .keys r b := .ite ha (.keys_domDark ha (.inr rfl))
  have hc : Quiet .keys r c := .ite hb (.keys_domDark hb (.inl rfl))
  exact .ite hc (.offer (.monSources (.domRecord (.domRecord (.setPD (by decide) (.setPD (by decide) (.hbmLost hc)))))))

/-- The keys through the darkening. -/
theorem keysKept_darken (h : s.Lone) : KeysKept s (darken s) := by
  rw [darken_eq]
  have h1 : LoneKept s (s.setPwr { s.pwr with queue := [], starting := [], exits := [] }) :=
    LoneKept.step ⟨.refl s, h⟩ fun hl => .setPwr (by decide) (.lone_refl hl)
  have h2 := h1.eachCh (span 0 4) (by decide)
  generalize each (span 0 4) darkenCh _ = v at h2
  exact h2.toKeysKept.trans (Quiet.keysKept (by decide) (.keys_darkenRest (.eachUpto (fun _ hq _ ht => .keys_darkenQuad ht hq) (.keys_refl v))))

/-! ### The entry -/

/-- An entry that nothing conflicts with meets no pair, no waiting half and no operation. -/
theorem entryConflict_none (h : s.entryConflict = none) : s.Lone ∧ s.ops = [] := by
  unfold State.entryConflict at h
  split at h
  · cases h
  split at h
  · cases h
  next hpair =>
  split at h
  · cases h
  split at h
  · cases h
  split at h
  · cases h
  split at h
  · cases h
  next hsys =>
  simp only [Bool.or_eq_true, not_or, Bool.not_eq_true] at hpair
  simp only [Bool.or_eq_true, not_or, Bool.not_eq_true', Bool.not_eq_false, List.isEmpty_iff] at hsys
  obtain ⟨⟨⟨⟨hops, hhalves⟩, -⟩, -⟩, -⟩ := hsys
  exact ⟨⟨hpair.1, hpair.2, hhalves⟩, hops⟩

/-- The part at the end of the entry's darkening. -/
def entered (s : State) : State := darken (endSessions none (fun _ => true) s)

theorem entered_night (h : s.ops = []) : Night [0, 1, 2, 3] [3, 24, 25, 26, 27, 28, 29, 30] (entered s) := by
  refine night_darken ⟨List.eq_nil_iff_forall_not_mem.2 fun o ho => ?_, endSessions_all none s h⟩
  obtain ⟨o', ho', -⟩ := (Quiet.endSessions (m := none) (p := fun _ => true) (.power_refl s)).ops ho
  rw [h] at ho'
  cases ho'

theorem entered_keys (h : s.Lone) : KeysKept s (entered s) := by
  have hq : Quiet .lone s (endSessions none (fun _ => true) s) := .endSessions (.lone_refl h)
  exact (hq.keysKept (by decide)).trans (keysKept_darken hq.lone)

theorem enterDark_asleep (h : s.noWake = true) : enterDark q s =
    .ok (offer 0x0C20 bPWR 0xFF stWRONG_STATE s, .fail { status := stWRONG_STATE }) := if_pos h

theorem enterDark_conflict {b : Nat} (hw : s.noWake = false) (h : s.entryConflict = some b) :
    enterDark q s = .ok (ledger (refuser b) b false (offer 0x0C20 bPWR b stCONFLICT s), .fail (conflict b)) := by
  rw [enterDark, if_neg (by rw [hw]; decide), h]

/-- What the entry remembers (R405, R408). -/
def entryOf (q : Request) (s : State) : Entry := ⟨q.org, s.pdOn 30, s.regs.filter fun x => (span 0 4).any fun n => inLeaf n x.1⟩

theorem enterDark_accept (hw : s.noWake = false) (h : s.entryConflict = none) : enterDark q s =
    .ok ((entered s).setPwr { (entered s).pwr with entry := some (entryOf q s), wake := none }, .accept (pwrOp q [tDark] s)) := by
  rw [enterDark, if_neg (by rw [hw]; decide), h]
  rfl

theorem entryRefused (hp : cmdPwrStateSet.passes q s = true) (hk : fld q.params 0 1 = 4) (hw : (s.taken q 0x0600).noWake = true) :
    ∃ u, exec (.pwrStateSet q) s = .next (settle (refuse q.org 0x0600 { status := stWRONG_STATE } u)) ∧ OnlyRegs [] (s.taken q 0x0600) u ∧
      Logged (s.taken q 0x0600) u [(0x0C20, bPWR, 0xFF, stWRONG_STATE)] ∧ u.pwr = (s.taken q 0x0600).pwr :=
  ⟨_, exec_pwrStateSet_fail hp ((body_dark hk).trans (enterDark_asleep hw)) ((OrgsFrom.refl _).of_ops (offer_ops _ _ _ _ _)),
    fun _ hoff _ => rd_offer _ _ _ _ _ _ hoff, logged_one _ _ _ _ _, offer_pwr _ _ _ _ _⟩

theorem entryConflicts {b : Nat} (hp : cmdPwrStateSet.passes q s = true) (hk : fld q.params 0 1 = 4) (hw : (s.taken q 0x0600).noWake = false)
    (hb : (s.taken q 0x0600).entryConflict = some b) : let t := s.taken q 0x0600
    ∃ u, exec (.pwrStateSet q) s = .next (settle (refuse q.org 0x0600 { status := stCONFLICT, b1 := b } u)) ∧
      Logged t u [(0x0C20, bPWR, b, stCONFLICT)] ∧ u.pwr = t.pwr ∧ (t.flag fPWR_WAKE_CTRL_ACCT_MODE = true → OnlyRegs [] t u) ∧
      (t.flag fPWR_WAKE_CTRL_ACCT_MODE = false → u.fld fPWR_ACCT_A_REFUSALS = min 65535 (t.fld fPWR_ACCT_A_REFUSALS + 1) ∧
        u.fld fPWR_ACCT_A_LAST_BLOCK = b % 256 ∧ u.fld fPWR_ACCT_A_LAST_INDEX = refuser b % 16 ∧ u.flag fPWR_ACCT_A_LAST_ABORT = false) := by
  intro t
  obtain ⟨o, ho⟩ : ∃ o, o = offer 0x0C20 bPWR b stCONFLICT t := ⟨_, rfl⟩
  obtain ⟨-, hparts⟩ := ledger_other (refuser b) b false o
  have hbody : cmdPwrStateSet.body q t = .ok (ledger (refuser b) b false o, .fail (conflict b)) := by
    rw [ho]
    exact (body_dark hk).trans (enterDark_conflict hw hb)
  have hops : (ledger (refuser b) b false o).ops = t.ops := by
    rw [hparts, ho]
    exact offer_ops _ _ _ _ _
  have hpwr : (ledger (refuser b) b false o).pwr = t.pwr := by
    rw [hparts, ho]
    exact offer_pwr _ _ _ _ _
  have hcb : (ledger (refuser b) b false o).cb = o.cb := by rw [hparts]
  have hmode : o.flag fPWR_WAKE_CTRL_ACCT_MODE = t.flag fPWR_WAKE_CTRL_ACCT_MODE := by
    rw [State.flag, ho, fld_offer _ _ _ _ _ _ (by decide)]
    rfl
  have hrefusals : o.fld fPWR_ACCT_A_REFUSALS = t.fld fPWR_ACCT_A_REFUSALS := by rw [ho, fld_offer _ _ _ _ _ _ (by decide)]
  refine ⟨_, exec_pwrStateSet_fail hp hbody ((OrgsFrom.refl t).of_ops hops), ?_, hpwr, fun hm => ?_, fun hm => ?_⟩
  · have hlog : Logged t o [(0x0C20, bPWR, b, stCONFLICT)] := by
      rw [ho]
      exact logged_one _ _ _ _ _
    exact hlog.congr hcb
  · rw [ledger_wakes (hmode.trans hm), ho]
    exact fun _ hoff _ => rd_offer _ _ _ _ _ _ hoff
  · rw [← hrefusals]
    exact ledger_spec _ _ _ _ (hmode.trans hm)

theorem entryAccepted (hp : cmdPwrStateSet.passes q s = true) (hk : fld q.params 0 1 = 4) (hw : (s.taken q 0x0600).noWake = false)
    (hnone : (s.taken q 0x0600).entryConflict = none) : ∃ u op, op.org = q.org ∧ op.opcode = 0x0600 ∧ op.targets = [tDark] ∧
      exec (.pwrStateSet q) s = .next (settle (place q 0x0600 (.accept op) u)) ∧ let t := s.taken q 0x0600
      u.rehearsals = [] ∧ (∀ n : Ch, u.fld (fCH n) = 0) ∧ (∀ d ∈ [3, 24, 25, 26, 27, 28, 29, 30], u.fld (fPD d) = 0) ∧
      (∀ i, t.fld (fCPH_CTX_A_STATE i) ≠ cxRETIRING → u.keyOf i = t.keyOf i) ∧ u.cph.kek = t.cph.kek ∧ u.pwr.queue = [] ∧ u.pwr.wake = none ∧
      ∃ e, u.pwr.entry = some e ∧ e.org = q.org ∧ e.hbmOn = t.pdOn 30 := by
  obtain ⟨t, ht⟩ : ∃ t, t = s.taken q 0x0600 := ⟨_, rfl⟩
  obtain ⟨v, hv⟩ : ∃ v, v = entered t := ⟨_, rfl⟩
  have hbody : cmdPwrStateSet.body q (s.taken q 0x0600) =
      .ok (v.setPwr { v.pwr with entry := some (entryOf q t), wake := none }, .accept (pwrOp q [tDark] (s.taken q 0x0600))) := by
    rw [hv, ht]
    exact (body_dark hk).trans (enterDark_accept hw hnone)
  rw [← ht] at hnone ⊢
  obtain ⟨hlone, hops⟩ := entryConflict_none hnone
  obtain ⟨hch, hpd, hqueue, hnoops, hnosessions⟩ := entered_night hops
  obtain ⟨hkey, -, hkek⟩ := entered_keys hlone
  rw [← hv] at hch hpd hqueue hnoops hnosessions hkey hkek
  have horgs : OrgsFrom (s.taken q 0x0600) (v.setPwr { v.pwr with entry := some (entryOf q t), wake := none }) := fun o ho => by
    rw [State.setPwr_ops, hnoops] at ho
    cases ho
  obtain ⟨u, op, horg, hcode, htargets, hexec, hu⟩ := accepted (ts := fun _ => [tDark])
    (post := fun _ u => u = v.setPwr { v.pwr with entry := some (entryOf q t), wake := none }) hp hbody horgs rfl
  refine ⟨u, op, horg, hcode, htargets, hexec, ?_⟩
  rw [hu]
  exact ⟨hnosessions, fun n => hch n (by simp; omega), hpd, fun i hi => hkey i fun _ => hi, hkek, hqueue, rfl, _, rfl, rfl, rfl⟩

/-! ### The obligation -/

/-- Settles O53: the entry by its three outcomes, the commit point and the abort by what sleep and the ledger write, the wake sources, the wake
and the return of the banks each by its own lemma. -/
theorem darkHouse : Obligations.DarkHouse := by
  unfold Obligations.DarkHouse
  intro runs
  refine ⟨fun q s hp hk => ⟨entryRefused hp hk, fun b hw hb => entryConflicts hp hk hw hb, entryAccepted hp hk⟩,
    fun e s he => ⟨darkHouseCommit e s he, fun c hw hc => darkHouseAbort e c s he hw hc, fun hw => exec_darkHouseCommit_idle (.inr hw),
      fun hw => exec_darkHouseAbort_idle (.inr hw)⟩,
    fun s he => ⟨exec_darkHouseCommit_idle (.inl he), exec_darkHouseAbort_idle (.inl he)⟩, wakeSources, wake_completes,
    fun bad b s hbk hw h5 hb => retentionBanksRestored bad b s hbk hw h5 hb, fun bad s h => exec_retentionBanksRestored_idle bad h,
    sysReset_arms, fwSvnCommit_blows, fwSvnCommit_download⟩
end
end Sys2Proof.Machine
end

/-! # A step, and what every step keeps (O2, O60) -/
section
namespace Sys2Proof.Machine

open Sys2Proof

/-- Settles O60: the step keeps the invariant, by `NextForm.step`, one lemma for each operation that a command is made of. -/
theorem stepsKeepTheInvariant : Obligations.StepsKeepTheInvariant := by
  intro s t h e
  have hn : NextForm .rest (step s) := .step ((form_rest s).2 h)
  rw [e] at hn
  exact (form_rest t).1 hn

theorem step_pending (c : Instr) (rest : List Instr) (s : State) : step { s with pending := c :: rest } = exec c { s with pending := rest } := rfl

theorem step_empty (s : State) (h : s.pending = []) : step s = .next (idle s) := by
  simp only [step, h]

/-- Settles O2: a step is the front command's meaning by definition, and an idle period is `passTime` over 25 ns. -/
theorem stepRunsTheFrontCommand : Obligations.StepRunsTheFrontCommand := by
  refine ⟨step_pending, fun s h => ?_⟩
  rw [step_empty s h, idle, passTime]
  simp only [Bool.and_eq_true, Bool.not_eq_true']

end Sys2Proof.Machine
end

/-! # What a request's packet, its answer and the settling of a step leave (O7) -/
section
namespace Sys2Proof.Machine

open Sys2Proof

/-! ### Answers (R104, R105) -/

/-- Between two states an answer has gone out: no register but those of answers, no forwarded request and no route has changed. -/
structure Sent (s t : State) : Prop where
  rd : ∀ off, off ∉ answerRegs → t.rd off = s.rd off
  fwd : t.fab.fwd = s.fab.fwd
  routes : t.fab.routes = s.fab.routes

section
variable {s t u : State}

theorem Sent.refl (s : State) : Sent s s := ⟨fun _ _ => rfl, rfl, rfl⟩

theorem Sent.congr (h : Sent s t) (hr : u.regs = t.regs := by rfl) (hf : u.fab.fwd = t.fab.fwd := by rfl)
    (ho : u.fab.routes = t.fab.routes := by rfl) : Sent s u :=
  ⟨fun off hoff => (State.rd_congr hr off).trans (h.rd off hoff), hf.trans h.fwd, ho.trans h.routes⟩

theorem Sent.setB (h : Sent s t) {f : Fld} (b : Bool) (hf : f.reg ∈ answerRegs) : Sent s (t.setB f b) :=
  ⟨fun off hoff => (State.rd_setB_other t f b off fun e => hoff (e ▸ hf)).trans (h.rd off hoff), h.fwd, h.routes⟩

theorem Sent.ite {c : Prop} {_ : Decidable c} (ht : Sent s t) (hu : Sent s u) : Sent s (if c then t else u) := by
  split
  · exact ht
  · exact hu

theorem Sent.toMbx (h : Sent s t) (f : Pr) (notice : Bool) (pkt : List Byte) : Sent s (toMbx f.val notice pkt t) :=
  .ite h.congr (.ite (Sent.setB h.congr _ (rspStatus_mem_answerRegs f)) (.ite (Sent.setB h.congr _ (intStatus_mem_answerRegs f)) h.congr))

theorem Sent.toI2c (h : Sent s t) (notice : Bool) (pkt : List Byte) : Sent s (toI2c notice pkt t) := .ite h (.ite h.congr h.congr)

theorem Sent.linkSendTo (h : Sent s t) (n leaf : Nat) (pkt : List Byte) : Sent s (linkSendTo n leaf pkt t) := .ite h.congr h.congr

theorem Sent.toFabric (h : Sent s t) (o : Origin) (mk : Nat → List Byte) : Sent s (toFabric o mk t) := by
  refine .ite (h.linkSendTo _ _ _) ?_
  split
  · exact h.linkSendTo _ _ _
  · exact h.congr

theorem Sent.answerPacket (h : Sent s t) (o : Origin) (kind code status : Nat) (ps : List Byte) :
    Sent s (answerPacket o kind code status ps t) := by
  unfold Machine.answerPacket
  extract_lets
  split
  · exact h.toMbx 0 _ _
  · exact h.toMbx 1 _ _
  · exact h.toI2c _ _
  · exact h.toFabric _ _
  · exact h

theorem Sent.answer (h : Sent s t) (o : Origin) (kind code status : Nat) (ps : List Byte) : Sent s (answer o kind code status ps t) :=
  .ite (h.answerPacket _ _ _ _ _) (h.answerPacket _ _ _ _ _).congr

end

theorem sent_answer (o : Origin) (kind code status : Nat) (ps : List Byte) (s : State) : Sent s (answer o kind code status ps s) :=
  (Sent.refl s).answer o kind code status ps

/-! ### A packet taken out of the serial order (R95, R103) -/

theorem releaseArrival_fwd (a : Arrival) (s : State) :
    (releaseArrival a s).fab.fwd = s.fab.fwd ∧ (releaseArrival a s).fab.routes = s.fab.routes := by
  unfold releaseArrival
  split
  · exact ⟨rfl, rfl⟩
  · split <;> exact ⟨rfl, rfl⟩

theorem takeFirst_fwd (p : Arrival → Bool) (s : State) :
    (takeFirst p s).2.fab.fwd = s.fab.fwd ∧ (takeFirst p s).2.fab.routes = s.fab.routes := by
  unfold takeFirst
  split
  · exact ⟨rfl, rfl⟩
  · split
    · exact releaseArrival_fwd _ _
    · exact ⟨rfl, rfl⟩

/-- What is taken has headed the serial order, and what is left followed it. -/
theorem takeFirst_some {p : Arrival → Bool} {s : State} {a : Arrival} (h : (takeFirst p s).1 = some a) :
    s.arrived = a :: (takeFirst p s).2.arrived := by
  unfold takeFirst at h ⊢
  split at h
  · cases h
  next b r hs =>
    by_cases hp : p b = true
    · rw [if_pos hp] at h ⊢
      cases h
      rw [releaseArrival_other, hs]
    · rw [if_neg hp] at h
      cases h

/-- Settles O7: `Dequeued` for a packet taken up, `Answered` and `Sent` for an answer, `settle_other` for the interrupts. -/
theorem answeringTouchesOnlyQueues : Obligations.AnsweringTouchesOnlyQueues := by
  refine ⟨fun q code s => ?taken, fun o kind code status ps s => ?answer, settle_other⟩
  case taken =>
    have hd := dequeued_taken q code s
    have hf := takeFirst_fwd (arrivalIs q code) s
    exact ⟨hd.frame, hd.regs, hd.order, hf.1, hf.2, fun a ha => takeFirst_some ha⟩
  case answer =>
    have ha := answered o kind code status ps s
    have hs := sent_answer o kind code status ps s
    exact ⟨ha.frame, ha.regs, hs.fwd, hs.routes⟩

end Sys2Proof.Machine
end

/-! # The read position of a reply queue (O10) -/
section
namespace Sys2Proof.Machine

open Sys2Proof

/-- Waiting answers that are placed leave the mark; with none to place, none waits. -/
theorem placeAll_mark (cap bank : Nat) (l : List (List Word)) (m : Mailbox) : (Mailbox.placeAll cap bank l m).mark = m.mark ∧
    (l = [] → (Mailbox.placeAll cap bank l m).wait = []) := by
  induction l generalizing m with
  | nil => exact ⟨rfl, fun _ => rfl⟩
  | cons ws r ih =>
    rw [Mailbox.placeAll]
    split
    · refine ⟨?_, nofun⟩
      rw [(ih _).1, Mailbox.push, swapRsp_other]
    · exact ⟨rfl, nofun⟩

/-- RELEASE moves the mark to the read position. -/
theorem releaseRsp_mark (bank : Nat) (m : Mailbox) : (releaseRsp bank m).mark = 0 ∧ (m.wait = [] → (releaseRsp bank m).wait = []) := by
  rw [releaseRsp, swapRsp_other]
  exact placeAll_mark _ _ _ _

theorem exec_mark (f : Pr) (s : State) (hr : s.ready = true) :
    exec (.mbxRspMark f none) s = .next (settle (s.setMbx f (markRsp (s.mbx.get f)))) := by
  change execMbxRspMark f none s = _
  rw [execMbxRspMark, if_pos hr]
  rfl

theorem exec_rewind (f : Pr) (s : State) (hr : s.ready = true) :
    exec (.mbxRspRewind f none) s = .next (settle (s.setMbx f (rewindRsp (s.mbx.get f)))) := by
  change execMbxRspRewind f none s = _
  rw [execMbxRspRewind, if_pos hr]
  rfl

theorem exec_release (f : Pr) (s : State) (hr : s.ready = true) :
    exec (.mbxRspRelease f none) s = .next (settle (releaseQueue f none s)) := by
  change execMbxRspRelease f none s = _
  rw [execMbxRspRelease, if_pos hr]
  rfl

/-- RELEASE frees words of its own queue; `MBX_RSP` may say that an answer which waited was placed. -/
theorem releaseQueue_spec (f : Pr) (s : State) : let t := releaseQueue f none s
    t.mbx = s.mbx.set f (releaseRsp 4096 (s.mbx.get f)) ∧ OnlyRegs [rINT_STATUS f] s t ∧ ((s.mbx.get f).wait = [] → t.regs = s.regs) := by
  intro t
  have ht : t = if ((s.setMbx f (releaseRsp 4096 (s.mbx.get f))).mbx.get f).wait.length < (s.mbx.get f).wait.length then
      (s.setMbx f (releaseRsp 4096 (s.mbx.get f))).setB (fINT_STATUS_MBX_RSP f) true else s.setMbx f (releaseRsp 4096 (s.mbx.get f)) := rfl
  rw [ht]
  split
  next hlt => exact ⟨rfl, (OnlyRegs.of_regs rfl).setB true (List.mem_singleton.mpr rfl), fun hw => by rw [hw] at hlt; cases hlt⟩
  next => exact ⟨rfl, .of_regs rfl, fun _ => rfl⟩

/-- A read of a reply queue moves the read position alone. -/
theorem readWord_queue (m : Mailbox) : (readWord m).2.rsp = m.rsp ∧ (readWord m).2.mark = m.mark := by
  unfold readWord
  split <;> exact ⟨rfl, rfl⟩

/-- Settles O10: MARK, REWIND and RELEASE on the queue itself, by `releaseRsp_spec` for the words that stay. -/
theorem queuePositions : Obligations.QueuePositions := by
  refine ⟨fun f s hr => ?mark, fun f s hr => ?rewind, fun f s hr => ?release, fun f s => ?read⟩
  case mark =>
    refine ⟨_, exec_mark f s hr, ?_⟩
    simp only [settle_mbx, settle_regs, State.setMbx_mbx, Two.get_set_same, Two.get_set_apart]
    exact ⟨rfl, trivial, rfl⟩
  case rewind =>
    refine ⟨_, exec_rewind f s hr, ?_⟩
    simp only [settle_mbx, settle_regs, State.setMbx_mbx, Two.get_set_same, Two.get_set_apart]
    exact ⟨rfl, trivial, rfl⟩
  case release =>
    obtain ⟨hmbx, hregs, hsame⟩ := releaseQueue_spec f s
    obtain ⟨more, hrsp, hmore, hrd⟩ := releaseRsp_spec 4096 (s.mbx.get f)
    refine ⟨_, exec_release f s hr, ?_⟩
    simp only [settle_mbx, settle_regs, hmbx, Two.get_set_same, Two.get_set_apart]
    refine ⟨⟨more, hrsp, hmore⟩, hrd, (releaseRsp_mark _ _).1, fun k hk => ?_, trivial, hregs.settle, hsame⟩
    rw [hrsp, List.getElem?_append_left (by rw [List.length_drop]; omega), List.getElem?_drop]
  case read =>
    cases hr : s.ready
    · refine ⟨settle (put 0#32 s), ?_, by simp only [settle_mbx, put_mbx, and_self]⟩
      change execMbxRspDataRead f none s = _
      rw [execMbxRspDataRead, hr]
      rfl
    · refine ⟨_, exec_read f s hr, ?_⟩
      simp only [settle_mbx, put_mbx, State.setMbx_mbx, Two.get_set_same]
      exact readWord_queue _

end Sys2Proof.Machine
end

/-! # Operations and sessions as they end (R89, R97) -/
section
namespace Sys2Proof.Machine

open Sys2Proof

/-! ### What the end of an operation changes -/

/-- Between two states operations have left, answers have gone out, and refusals are recorded: nothing else has changed. -/
structure Told (s t : State) : Prop where
  frame : t = { s with ops := t.ops, cb := t.cb, mbx := t.mbx, i2c := t.i2c, fab := t.fab, cnt := t.cnt, regs := t.regs,
                       epDiscards := t.epDiscards, later := t.later }
  regs : OnlyRegs answerRegs s t

section
variable {s t u : State}

theorem Told.refl (s : State) : Told s s := ⟨rfl, .refl _ _⟩

theorem Told.trans (h : Told s t) (h' : Told t u) : Told s u := ⟨h'.frame.trans (by rw [h.frame]), h.regs.trans h'.regs⟩

theorem Answered.told (h : Answered s t) : Told s t := ⟨by rw [h.frame], h.regs⟩

theorem Told.rehearsals (h : Told s t) : t.rehearsals = s.rehearsals := by rw [h.frame]
theorem Told.claims (h : Told s t) : t.claims = s.claims := by rw [h.frame]
theorem Told.halves (h : Told s t) : t.halves = s.halves := by rw [h.frame]
theorem Told.eng (h : Told s t) : t.eng = s.eng := by rw [h.frame]
theorem Told.line (h : Told s t) : t.line = s.line := by rw [h.frame]

theorem Told.ite {c : Prop} {_ : Decidable c} (ht : Told s t) (hu : Told s u) : Told s (if c then t else u) := by
  split
  · exact ht
  · exact hu

theorem told_refuseRecord (o : Origin) (code : Nat) (r : Ref) (s : State) : Told s (refuseRecord o code r s) :=
  ⟨by rw [refuseRecord_other], (OnlyRegs.refuseRecord o code r s).mono nofun⟩

theorem told_refuse (o : Origin) (code : Nat) (r : Ref) (s : State) : Told s (refuse o code r s) :=
  (told_refuseRecord o code r s).trans (refuse_answered o code r s).told

theorem told_withOps (l : List Op) (s : State) : Told s { s with ops := l } := ⟨rfl, .of_regs rfl⟩

theorem told_endOp (op : Op) (r : Ref) (ps : List Byte) (s : State) : Told s (endOp op r ps s) :=
  (told_withOps _ s).trans (.ite ((told_refuseRecord _ _ _ _).trans (answered _ _ _ _ _ _).told) (answered _ _ _ _ _ _).told)

/-- An operation that ends without a refusal writes no register but those of answers. -/
theorem sent_endOp (op : Op) (r : Ref) (ps : List Byte) (s : State) (h : ¬ 0x10 ≤ r.status) : Sent s (endOp op r ps s) := by
  rw [endOp, finish, if_neg h]
  exact (Sent.congr (.refl s)).answer _ _ _ _ _

theorem told_answerCue (b : Nat) (r : Ref) (ps : List Byte) (s : State) : Told s (answerCue b r ps s) := by
  unfold answerCue
  split
  · exact told_endOp _ _ _ _
  · exact .refl s

theorem told_sessionNotice (r : Rehearsal) (m : Option Nat) (s : State) : Told s (sessionNotice r m s) := (answered _ _ _ _ _ _).told

/-- What a request's answer leaves: the operation of one that is in progress is new. -/
theorem told_place (q : Request) (code : Nat) (a : Answer) (s : State) : Told s (place q code a s) := by
  cases a with
  | done ps => exact (answered _ _ _ _ _ _).told
  | accept op => exact (told_withOps _ s).trans (answered _ _ _ _ _ _).told
  | defer op => exact told_withOps _ s
  | fail r => exact told_refuse _ _ _ _

end

/-! ### The session of a block -/

theorem session_congr {s t : State} (h : t.rehearsals = s.rehearsals) (b : Nat) : t.session b = s.session b := by rw [State.session, State.session, h]

theorem session_block {s : State} {b : Nat} {r : Rehearsal} (h : s.session b = some r) : r.block = b := by
  simpa using List.find?_some h

theorem find?_replaceFirst_apart {α : Type} (p q : α → Bool) (f : α → α) (l : List α) (h : ∀ x, p x = true → q x = false ∧ q (f x) = false) :
    (replaceFirst p f l).find? q = l.find? q := by
  induction l with
  | nil => rfl
  | cons x l ih =>
    cases hx : p x with
    | true => simp [replaceFirst, hx, h x hx]
    | false => simp [replaceFirst, hx, List.find?_cons, ih]

theorem session_setSession_other {b c : Nat} (f : Rehearsal → Rehearsal) (s : State) (hf : ∀ r, (f r).block = r.block) (h : c ≠ b) :
    (setSession b f s).session c = s.session c :=
  find?_replaceFirst_apart _ _ _ _ fun r hr => by
    rw [beq_iff_eq] at hr
    rw [hf, hr]
    simpa using Ne.symm h

theorem session_openSession (b : Nat) (w : Who) (i : Option Nat) (s : State) (h : s.session b = none) :
    (openSession b w i s).session b = some ⟨b, w, s.runningSet b, none, i⟩ := by
  rw [State.session] at h
  simp [State.session, openSession, List.find?_append, h]

theorem session_openSession_other {b c : Nat} (w : Who) (i : Option Nat) (s : State) (h : c ≠ b) : (openSession b w i s).session c = s.session c := by
  simp [State.session, openSession, List.find?_append, Ne.symm h]

theorem session_dropSession (b : Nat) (s : State) : (dropSession b s).session b = none := by
  rw [State.session, dropSession_rehearsals, List.find?_eq_none]
  intro r hr
  simpa using (List.mem_filter.1 hr).2

theorem session_dropSession_other {b c : Nat} (s : State) (h : c ≠ b) : (dropSession b s).session c = s.session c := by
  rw [State.session, dropSession_rehearsals, State.session, List.find?_filter]
  congr 1
  funext r
  by_cases hr : r.block = c
  · simp [hr, h]
  · simp [hr]

/-! ### A session that ends, and the half that waited with it (R97, R160) -/

/-- The half that is given up with a session shows in its own channel. -/
theorem halfShow_other (n : Nat) (s : State) : halfShow n s = { s with regs := (halfShow n s).regs } := by
  rw [halfShow, State.setB, State.setF, State.wr]

theorem cancelHalf_other (b : Nat) (s : State) : cancelHalf b s = { s with halves := (cancelHalf b s).halves, regs := (cancelHalf b s).regs } := by
  unfold cancelHalf
  split
  · rw [halfShow_other]
  · rfl

theorem rd_cancelHalf (b : Nat) (s : State) (off : Nat) (h : off ≠ rLINE_RX_STATUS (b % 4)) : (cancelHalf b s).rd off = s.rd off := by
  unfold cancelHalf
  split
  · exact State.rd_setB_other _ _ _ _ h
  · rfl

theorem onlyRegs_cancelHalf (b : Nat) (s : State) : OnlyRegs [rLINE_RX_STATUS (b % 4)] s (cancelHalf b s) :=
  fun off _ h => rd_cancelHalf b s off (by simpa using h)

theorem dropSession_other (b : Nat) (s : State) : dropSession b s =
    { s with rehearsals := (dropSession b s).rehearsals, halves := (dropSession b s).halves, regs := (dropSession b s).regs } := by
  rw [dropSession_rehearsals]
  exact cancelHalf_other b _

theorem rd_dropSession (b : Nat) (s : State) (off : Nat) (h : off ≠ rLINE_RX_STATUS (b % 4)) : (dropSession b s).rd off = s.rd off :=
  rd_cancelHalf b _ off h

theorem onlyRegs_dropSession (b : Nat) (s : State) : OnlyRegs [rLINE_RX_STATUS (b % 4)] s (dropSession b s) := onlyRegs_cancelHalf b _

/-- Where no half waits with it, a session that ends changes nothing else. -/
theorem dropSession_alone (b : Nat) (s : State) (h : ∀ x ∈ s.halves, x.2.block = b → x.2.early = false) :
    dropSession b s = { s with rehearsals := s.rehearsals.filter fun r => !(r.block == b) } := by
  refine if_neg ?_
  rw [Bool.not_eq_true, List.any_eq_false]
  intro x hx
  by_cases hb : x.2.block = b
  · simp [hb, h x hx hb]
  · simp [hb]

/-- What a session that ends by another than its owner leaves. -/
theorem told_endSession (m : Option Nat) (r : Rehearsal) (s : State) : Told (dropSession r.block s) (endSession m r s) :=
  (told_answerCue _ _ _ _).trans (told_sessionNotice _ _ _)

theorem endSession_keeps (m : Option Nat) (r : Rehearsal) (s : State) :
    (endSession m r s).rehearsals = s.rehearsals.filter (fun x => !(x.block == r.block)) ∧ (endSession m r s).claims = s.claims := by
  have ht := told_endSession m r s
  refine ⟨ht.rehearsals.trans (dropSession_rehearsals _ _), ht.claims.trans ?_⟩
  rw [dropSession_other]

end Sys2Proof.Machine
end

/-! # Rehearsal sessions by command (O17) -/
section
namespace Sys2Proof.Machine

open Sys2Proof

theorem sameWho_self (w : Who) : sameWho w w = true := decide_eq_true rfl

theorem sameWho_of_ne {v w : Who} (h : v ≠ w) : sameWho v w = false := decide_eq_false h

section
variable {b : Nat} {q : Request} {s : State} {r : Rehearsal} {k : Rehearsal → Except Ref (State × Answer)}

/-- The owner of a session without a pending cue goes on. -/
theorem ownSession_own (hs : s.session b = some r) (ho : r.owner = q.org.who) (hc : r.cue = none) : ownSession b q s k = k r := by
  rw [ownSession, hs]
  simp [ho, hc, sameWho_self]

theorem ownSession_busy (hs : s.session b = some r) (ho : r.owner ≠ q.org.who) :
    ownSession b q s k = .error { status := stBUSY, b0 := r.owner.master } := by
  rw [ownSession, hs]
  simp [sameWho_of_ne ho]

theorem ownSession_wrongState (h : s.session b = none ∨ ∃ r, s.session b = some r ∧ r.owner = q.org.who ∧ r.cue.isSome = true) :
    ownSession b q s k = .error { status := stWRONG_STATE } := by
  rw [ownSession]
  rcases h with h | ⟨r, h, ho, hc⟩
  · rw [h]
  · rw [h]
    simp [ho, hc, sameWho_self]

end

/-! ### `STAGE_OPEN` and `STAGE_SET` -/

theorem stageOpen_opens : Does cmdStageOpen .stageOpen (fun q t => t.session (fld q.params 0 1) = none) fun q t ans u => ans = .done [] ∧
    u.session (fld q.params 0 1) = some ⟨fld q.params 0 1, q.org.who, t.runningSet (fld q.params 0 1), none, none⟩ ∧
    (∀ b, b ≠ fld q.params 0 1 → u.session b = t.session b) ∧ u = { t with rehearsals := u.rehearsals } := by
  refine does_of (fun _ _ => rfl) fun q t _ h => ⟨.done [], openSession (fld q.params 0 1) q.org.who none t, ?_, rfl, ?_, ?_, rfl⟩
  · rw [cmdStageOpen]
    dsimp only
    rw [h]
  · exact session_openSession _ _ _ _ h
  · exact fun b hb => session_openSession_other _ _ _ hb

theorem stageOpen_busy (w : Who) : Turned cmdStageOpen .stageOpen (fun q t => ∃ r, t.session (fld q.params 0 1) = some r ∧ r.owner = w) fun _ _ =>
    { status := stBUSY, b0 := w.master } := by
  refine turned_of (fun _ _ => rfl) fun q t _ ⟨r, hr, ho⟩ => ?_
  rw [cmdStageOpen]
  dsimp only
  rw [hr, ← ho]

/-- A session after the entries of a `STAGE_SET`. -/
def Rehearsal.entered (ps : List Byte) (r : Rehearsal) : Rehearsal :=
  { r with bank := (span 0 (fld ps 2 2)).foldl (fun m k => maskedWrite m (stageEntry ps k)) r.bank }

theorem stageSet_body {q : Request} {t : State} {r : Rehearsal} (hr : t.session (fld q.params 0 1) = some r) (ho : r.owner = q.org.who)
    (hc : r.cue = none) : cmdStageSet.body q t =
      .ok (setSession (fld q.params 0 1) (fun x => { x with bank := (r.entered q.params).bank }) t, .done []) := ownSession_own hr ho hc

theorem stageSet_writes : Does cmdStageSet .stageSet
    (fun q t => ∃ r, t.session (fld q.params 0 1) = some r ∧ r.owner = q.org.who ∧ r.cue = none) fun q t ans u =>
    ans = .done [] ∧ u = { t with rehearsals := u.rehearsals } ∧ (∀ b, b ≠ fld q.params 0 1 → u.session b = t.session b) ∧
    ∃ r r', t.session (fld q.params 0 1) = some r ∧ u.session (fld q.params 0 1) = some r' ∧ r'.owner = r.owner ∧ r'.cue = none ∧
      r'.bank = (span 0 (fld q.params 2 2)).foldl (fun m k => maskedWrite m (stageEntry q.params k)) r.bank := by
  refine does_of (fun _ _ => rfl) fun q t _ ⟨r, hr, ho, hc⟩ =>
    ⟨.done [], _, stageSet_body hr ho hc, rfl, rfl, ?_, r, r.entered q.params, hr, ?_, rfl, hc, rfl⟩
  · exact fun b hb => session_setSession_other (fun x => { x with bank := (r.entered q.params).bank }) t (fun _ => rfl) hb
  · rw [session_setSession _ (fun x => { x with bank := (r.entered q.params).bank }) _ fun _ => rfl, hr]
    rfl

/-- An entry replaces the bits of its mask (R98). -/
theorem bankRd_maskedWrite (bank : SMap Word) (off : Nat) (mask value : Word) :
    bankRd (maskedWrite bank (off, mask, value)) off = (bankRd bank off &&& ~~~mask) ||| (value &&& mask) ∧
      ∀ j, j ≠ off → bankRd (maskedWrite bank (off, mask, value)) j = bankRd bank j :=
  ⟨smGet_smSet_same _ _ _ _, fun _ hj => smGet_smSet_other _ _ _ _ _ hj⟩

theorem stageSet_busy (w : Who) : Turned cmdStageSet .stageSet (fun q t => w ≠ q.org.who ∧ ∃ r, t.session (fld q.params 0 1) = some r ∧ r.owner = w)
    fun _ _ => { status := stBUSY, b0 := w.master } :=
  turned_of (fun _ _ => rfl) fun q t _ ⟨hw, r, hr, ho⟩ => (ownSession_busy hr (ho ▸ hw)).trans (by rw [ho])

theorem stageSet_wrongState : Turned cmdStageSet .stageSet (fun q t => t.session (fld q.params 0 1) = none ∨
    ∃ r, t.session (fld q.params 0 1) = some r ∧ r.owner = q.org.who ∧ r.cue.isSome = true) fun _ _ => { status := stWRONG_STATE } :=
  turned_of (fun _ _ => rfl) fun _ _ _ h => ownSession_wrongState h

/-! ### `STAGE_ABANDON` -/

theorem stageAbandon_own : Does cmdStageAbandon .stageAbandon (fun q t => bit (fld q.params 1 1) 0 = false ∧ ∃ r, t.session (fld q.params 0 1) = some r ∧
    r.owner = q.org.who ∧ r.cue = none) fun q t ans u => ans = .done [] ∧ u.session (fld q.params 0 1) = none ∧
      (∀ b, b ≠ fld q.params 0 1 → u.session b = t.session b) ∧ u = { t with rehearsals := u.rehearsals, halves := u.halves, regs := u.regs } ∧
      ((∀ h ∈ t.halves, h.2.block = fld q.params 0 1 → h.2.early = false) → u = { t with rehearsals := u.rehearsals }) := by
  refine does_of (fun _ _ => rfl) fun q t _ ⟨hf, r, hr, ho, hc⟩ => ⟨.done [], dropSession (fld q.params 0 1) t, ?_, rfl, ?_⟩
  · rw [cmdStageAbandon]
    dsimp only
    rw [hf]
    exact ownSession_own hr ho hc
  · refine ⟨session_dropSession _ _, fun b hb => session_dropSession_other _ hb, dropSession_other _ _, fun h => ?_⟩
    rw [dropSession_alone _ _ h]

/-- Whoever asks for it with FORCE, the session of the block is over, and its pending cue is answered. -/
theorem stageAbandon_forced : Does cmdStageAbandon .stageAbandon
    (fun q t => bit (fld q.params 1 1) 0 = true ∧ (t.session (fld q.params 0 1)).isSome = true) fun q t ans u =>
    ans = .done [] ∧ u.session (fld q.params 0 1) = none ∧ (∀ b, b ≠ fld q.params 0 1 → u.session b = t.session b) ∧ u.claims = t.claims ∧
      OnlyRegs [rINT_STATUS 0, rINT_STATUS 1, rMBX_RSP_STATUS 0, rMBX_RSP_STATUS 1, rLINE_RX_STATUS (fld q.params 0 1 % 4)] t u := by
  refine does_of (fun _ _ => rfl) fun q t _ ⟨hf, hs⟩ => ?_
  obtain ⟨r, hr⟩ := Option.isSome_iff_exists.1 hs
  suffices h : ∃ u, cmdStageAbandon.body q t = .ok (u, .done []) ∧ Told (dropSession (fld q.params 0 1) t) u by
    obtain ⟨u, hu, ht⟩ := h
    refine ⟨.done [], u, hu, rfl, ?_, fun b hb => ?_, ht.claims.trans (by rw [dropSession_other]), ?_⟩
    · rw [session_congr ht.rehearsals, session_dropSession]
    · rw [session_congr ht.rehearsals, session_dropSession_other _ hb]
    · exact ((onlyRegs_dropSession _ t).mono (by simp)).trans (ht.regs.mono (by simp [answerRegs]))
  rw [cmdStageAbandon]
  dsimp only
  rw [hf, if_pos rfl, hr]
  dsimp only
  split
  · exact ⟨_, rfl, told_answerCue _ _ _ _⟩
  · refine ⟨_, rfl, ?_⟩
    have ht := told_endSession (some q.org.who.master) r t
    rwa [session_block hr] at ht

theorem stageAbandon_wrongState :
    Turned cmdStageAbandon .stageAbandon (fun q t => t.session (fld q.params 0 1) = none) fun _ _ => { status := stWRONG_STATE } := by
  refine turned_of (fun _ _ => rfl) fun q t _ h => ?_
  rw [cmdStageAbandon]
  dsimp only
  split
  · rw [h]
  · exact ownSession_wrongState (.inl h)

/-! ### `STAGE_GET` -/

/-- The word that `STAGE_GET` shows of a register: its Cue bits from a set, the others as a read shows them. -/
def State.stageWord (s : State) (rd : Reader) (off : Nat) : Word := (rd off &&& cueBits off) ||| (s.shown off &&& ~~~cueBits off)

/-- The bytes of a `STAGE_GET`. -/
def State.stageReply (s : State) (rd : Reader) (ps : List Byte) : List Byte :=
  (span 0 (Sys2Proof.fld ps 2 2)).flatMap fun k => le 4 (s.stageWord rd (Sys2Proof.fld ps (4 + 4 * k) 4)).toNat

theorem getElem_span (a n k : Nat) (h : k < (span a n).length) : (span a n)[k] = a + k := by
  induction n generalizing a k with
  | zero => cases h
  | succ n ih =>
    cases k with
    | zero => rfl
    | succ k => exact (ih (a + 1) k (by simpa [span] using h)).trans (by omega)

/-- A word of a list of words that are numbered in order. -/
theorem fld_spanWords (a n : Nat) (w : Nat → Word) (k : Nat) (hk : k < n) :
    fld ((span a n).flatMap fun j => le 4 (w j).toNat) (4 * k) 4 = (w (a + k)).toNat := by
  have h : k < (span a n).length := by rwa [span_length]
  rw [fld_words _ w k h, getElem_span]

theorem stageGet_body (q : Request) (t : State) (h : fld q.params 1 1 = 1 ∨ (t.session (fld q.params 0 1)).isSome = true) :
    cmdStageGet.body q t =
      .ok (t, .done (t.stageReply (if fld q.params 1 1 = 1 then t.rd else bankRd (t.bankOf (fld q.params 0 1))) q.params)) := by
  rw [cmdStageGet]
  dsimp only
  split
  · rfl
  next h1 =>
    obtain ⟨r, hr⟩ := Option.isSome_iff_exists.1 (h.resolve_left h1)
    rw [State.bankOf, hr]
    rfl

theorem stageGet_reads : Does cmdStageGet .stageGet (fun q t => fld q.params 1 1 = 1 ∨ (t.session (fld q.params 0 1)).isSome = true) fun q t ans u =>
    u = t ∧ ∃ ps, ans = .done ps ∧ ps.length = 4 * fld q.params 2 2 ∧ ∀ k, k < fld q.params 2 2 →
      let off := fld q.params (4 + 4 * k) 4
      let w := if fld q.params 1 1 = 1 then t.rd off else bankRd (t.bankOf (fld q.params 0 1)) off
      fld ps (4 * k) 4 = ((w &&& cueBits off) ||| (t.shown off &&& ~~~cueBits off)).toNat := by
  refine does_of (fun _ _ => rfl) fun q t _ h => ⟨_, t, stageGet_body q t h, rfl, _, rfl, ?_, fun k hk => ?_⟩
  · rw [State.stageReply, words_length, span_length]
  · rw [State.stageReply, fld_spanWords 0 _ (fun k => t.stageWord _ (fld q.params (4 + 4 * k) 4)) k hk, Nat.zero_add, State.stageWord]
    split <;> rfl

/-- Settles O17: one lemma for each command and outcome; `dropSession_other` and `told_endSession` for what a session's end leaves. -/
theorem rehearsalSessions : Obligations.RehearsalSessions :=
  ⟨stageOpen_opens, stageOpen_busy, stageSet_writes, bankRd_maskedWrite, stageSet_busy, stageSet_wrongState, stageAbandon_own, stageAbandon_forced,
    stageAbandon_wrongState, stageGet_reads⟩

end Sys2Proof.Machine
end

/-! # Banks that come into force (R99) -/
section
namespace Sys2Proof.Machine

open Sys2Proof

/-! ### The words of a bank -/

/-- A key that is not listed reads as any that is not. -/
theorem smGet_unlisted {α : Type} (d : Nat → α) (m : SMap α) (i : Nat) (h : i ∉ m.map Prod.fst) : smGet d m i = d i := by
  suffices hl : smLookup m i = none by rw [smGet, hl]; rfl
  induction m with
  | nil => rfl
  | cons e m ih =>
    rw [List.map_cons, List.mem_cons, not_or] at h
    rw [smLookup, if_neg h.1, ih h.2]

/-- Bits that are taken again change nothing. -/
theorem mix_mix (m new old : Word) : mix m new (mix m new old) = mix m new old := by
  rw [mix, mix_and_not]
  rfl

theorem mix_self (m w : Word) : mix m w w = w := BitVec.eq_of_getLsbD_eq fun i _ => by
  rw [getLsbD_mix, ite_self]

theorem rd_forceWords (bank : SMap Word) (l : List Nat) (s : State) (off : Nat) :
    (l.foldl (forceWord bank) s).rd off = if off ∈ l then mix (cueBits off) (bankRd bank off) (s.rd off) else s.rd off := by
  induction l generalizing s with
  | nil => rfl
  | cons x l ih =>
    have hx : (forceWord bank s x).rd off = if off = x then mix (cueBits x) (bankRd bank x) (s.rd x) else s.rd off := State.rd_wr _ _ _ _
    rw [List.foldl_cons, ih, hx]
    by_cases h : off = x
    · subst h
      simp [mix_mix]
    · simp [h]

theorem forceWords_other (bank : SMap Word) (l : List Nat) (s : State) :
    l.foldl (forceWord bank) s = { s with regs := (l.foldl (forceWord bank) s).regs } := by
  induction l generalizing s with
  | nil => rfl
  | cons x l ih => rw [List.foldl_cons, ih]; rfl

theorem intoForce_other (b : Nat) (bank : SMap Word) (s : State) : intoForce b bank s = { s with regs := (intoForce b bank s).regs } :=
  forceWords_other _ _ _

/-- The offsets of a block that either set lists. -/
theorem mem_forced {b : Nat} {bank : SMap Word} {s : State} (h : ∀ e ∈ bank, cueBlock e.1 = some b) {off : Nat}
    (ho : off ∈ (s.runningSet b).map Prod.fst ++ bank.map Prod.fst) : cueBlock off = some b := by
  rcases List.mem_append.1 ho with ho | ho
  · obtain ⟨e, he, rfl⟩ := List.mem_map.1 ho
    exact eq_of_beq (List.mem_filter.1 he).2
  · obtain ⟨e, he, rfl⟩ := List.mem_map.1 ho
    exact h e he

theorem rd_intoForce_other {b : Nat} {bank : SMap Word} {s : State} (h : ∀ e ∈ bank, cueBlock e.1 = some b) {off : Nat}
    (ho : cueBlock off ≠ some b) : (intoForce b bank s).rd off = s.rd off := by
  rw [intoForce, rd_forceWords, if_neg fun hm => ho (mem_forced h hm)]

/-- A word of the block that neither set lists reads alike in both. -/
theorem rd_intoForce {b : Nat} {off : Nat} (bank : SMap Word) (s : State) (ho : cueBlock off = some b) :
    (intoForce b bank s).rd off = mix (cueBits off) (bankRd bank off) (s.rd off) := by
  rw [intoForce, rd_forceWords]
  split
  · rfl
  next hm =>
    rw [List.mem_append, not_or] at hm
    have hbank : bankRd bank off = resetWord off := smGet_unlisted _ _ _ hm.2
    have hrun : s.rd off = resetWord off := by
      refine smGet_unlisted _ _ _ fun hr => hm.1 ?_
      obtain ⟨e, he, heq⟩ := List.mem_map.1 hr
      exact List.mem_map.2 ⟨e, List.mem_filter.2 ⟨he, by rw [heq, ho]; exact beq_self_eq_true _⟩, heq⟩
    rw [hbank, hrun, mix_self]

/-! ### The answer to a cue that is in force -/

theorem told_cueDone (target : Nat) (s : State) : Told s (cueDone target s) := by
  unfold cueDone
  split
  · exact told_endOp _ _ _ _
  · exact .refl s

theorem sent_cueDone (target : Nat) (s : State) : Sent s (cueDone target s) := by
  unfold cueDone
  split
  · exact sent_endOp _ _ _ _ (by decide)
  · exact .refl s

theorem told_cueOver (b fn : Nat) (s : State) : Told s (cueOver b fn s) := (told_withOps _ s).trans (told_cueDone _ _)

theorem sent_cueOver (b fn : Nat) (s : State) : Sent s (cueOver b fn s) :=
  let h := sent_cueDone (cueTarget b)
    { s with ops := s.ops.map fun o => if o.targets.contains (cueTarget b) then { o with data := fn } else o }
  ⟨h.rd, h.fwd, h.routes⟩

end Sys2Proof.Machine
end

/-! # Requests that cue a block (R99, R100) -/
section
namespace Sys2Proof.Machine

open Sys2Proof

/-! ### A cue that is carried out at once, and one that waits -/

theorem passes_length (c : Cmd) (q : Request) (s : State) (h : c.passes q s = true) : ¬ 4076 < q.params.length := by
  simp only [Cmd.passes, Bool.and_eq_true, decide_eq_true_eq] at h
  obtain ⟨⟨⟨⟨⟨⟨⟨⟨⟨hl, -⟩, -⟩, -⟩, -⟩, -⟩, -⟩, -⟩, -⟩, -⟩ := h
  exact Nat.not_lt.mpr hl

section
variable {c : Cmd} {q : Request} {s u : State} {ans : Answer} {r : Ref} {b : Request → Nat}

theorem serveState_ok (h : c.passes q s = true) (hb : c.body q (s.taken q c.code) = .ok (u, ans)) : serveState c q s = place q c.code ans u := by
  simp only [serveState_eq, passes_turn c q s h, passes_ready c q s h, checks_passes c q s h, hb, Bool.not_true, Bool.false_eq_true, if_false]

theorem serveState_error (h : c.passes q s = true) (hb : c.body q (s.taken q c.code) = .error r) :
    serveState c q s = refuse q.org c.code r (s.taken q c.code) := by
  simp only [serveState_eq, passes_turn c q s h, passes_ready c q s h, checks_passes c q s h, hb, Bool.not_true, Bool.false_eq_true, if_false]

theorem cueServed_passes (h : c.passes q s = true) : cueServed c b q s =
    .next (settle (if (serveState c q s).ready && (serveState c q s).atOnce (b q) then carryOut (b q) 0 (serveState c q s) else serveState c q s)) :=
  if_neg (passes_length c q s h)

/-- The boundary of the block is still to come. -/
theorem cueServed_waits (h : c.passes q s = true) (hw : (serveState c q s).atOnce (b q) = false) :
    cueServed c b q s = .next (settle (serveState c q s)) := by
  rw [cueServed_passes h, hw, Bool.and_false]
  rfl

/-- The block waits for no boundary. -/
theorem cueServed_atOnce (h : c.passes q s = true) (hr : (serveState c q s).ready = true) (hw : (serveState c q s).atOnce (b q) = true) :
    cueServed c b q s = .next (settle (carryOut (b q) 0 (serveState c q s))) := by
  rw [cueServed_passes h, hr, hw]
  rfl

/-- Without a session there is nothing to carry out. -/
theorem cueServed_alone (h : c.passes q s = true) (hs : (serveState c q s).session (b q) = none) :
    cueServed c b q s = .next (settle (serveState c q s)) := by
  have hc : carryOut (b q) 0 (serveState c q s) = serveState c q s := by rw [carryOut, hs]
  rw [cueServed_passes h, hc, ite_self]

end

/-! ### Registers of channels -/

/-- Registers of the channels stand above those of the part. -/
theorem lineRxStatus_high (n : Nat) : 0x100000 ≤ rLINE_RX_STATUS n := by
  unfold rLINE_RX_STATUS chBase
  omega

theorem answerRegs_low : ∀ off ∈ answerRegs, (off < 0x40000 ∨ 0x400000 ≤ off) ∧ off ≠ rCB_STATUS := by decide

theorem chDark_congr {s t : State} (n : Nat) (h : t.rd rPWR_CH_STATE = s.rd rPWR_CH_STATE) : t.chDark n = s.chDark n := by
  rw [State.chDark, State.chDark, State.fld, State.fld, h]

theorem Told.chDark {s t : State} (h : Told s t) (n : Nat) : t.chDark n = s.chDark n :=
  chDark_congr n (h.regs _ (by decide) (by decide))

theorem atOnce_channel {b : Nat} (hb : b < 12) (s : State) : s.atOnce b = s.chDark (b % 4) := if_pos hb

/-! ### The cue of a session (R160) -/

theorem startHalf_other (b : Nat) (p : Pending) (s : State) : startHalf b p s = { s with halves := (startHalf b p s).halves, regs := (startHalf b p s).regs } := by
  unfold startHalf
  split
  · rfl
  · dsimp only
    rw [halfShow_other]

theorem onlyRegs_startHalf (b : Nat) (p : Pending) (s : State) : OnlyRegs [rLINE_RX_STATUS (b % 4)] s (startHalf b p s) := by
  unfold startHalf
  split
  · exact .refl _ _
  · exact (OnlyRegs.of_regs rfl).setB _ (List.mem_singleton.2 rfl)

/-- The receive half of a line or slots cue waits for its own boundary from now on. -/
theorem startHalf_halves {b : Nat} {p : Pending} {s : State} (hb : b < 4 ∨ (8 ≤ b ∧ b < 12)) (h : s.halfMay b p = true) : (startHalf b p s).halves =
    s.halves.filter (fun x => x.2.block != b) ++ [(b % 4, ⟨b, if p.mode = 1 then some p.frame else none, s.runningSet b, true, false⟩)] := by
  have hno : ¬ (!(decide (b < 4) || decide (8 ≤ b) && decide (b < 12)) || !s.halfMay b p) = true := by
    rcases hb with hb | ⟨h8, h12⟩
    · simp [hb, h]
    · simp [h8, h12, h]
  rw [startHalf, if_neg hno, halfShow_other]

/-- Blocks of grants and pairs have no receive half. -/
theorem startHalf_none {b : Nat} (hb : 12 ≤ b) (p : Pending) (s : State) : startHalf b p s = s := by
  refine if_pos ?_
  have h4 : ¬ b < 4 := by omega
  have h12 : ¬ b < 12 := by omega
  simp [h4, h12]

/-- A session with its cue. -/
def Rehearsal.cued (p : Pending) (r : Rehearsal) : Rehearsal := { r with cue := some p }

theorem setCue_eq (b : Nat) (p : Pending) (s : State) : setCue b p s = startHalf b p (setSession b (Rehearsal.cued p) s) := rfl

theorem session_setCue (b : Nat) (p : Pending) (s : State) : (setCue b p s).session b = (s.session b).map (Rehearsal.cued p) := by
  rw [setCue_eq, session_congr (show _ = (setSession b (Rehearsal.cued p) s).rehearsals by rw [startHalf_other]), session_setSession]
  exact fun _ => rfl

theorem setCue_other (b : Nat) (p : Pending) (s : State) :
    setCue b p s = { s with rehearsals := (setCue b p s).rehearsals, halves := (setCue b p s).halves, regs := (setCue b p s).regs } := by
  rw [setCue_eq, startHalf_other]
  rfl

theorem onlyRegs_setCue (b : Nat) (p : Pending) (s : State) : OnlyRegs [rLINE_RX_STATUS (b % 4)] s (setCue b p s) :=
  (OnlyRegs.of_regs rfl).trans (onlyRegs_startHalf b p (setSession b (Rehearsal.cued p) s))

theorem setCue_halves {b : Nat} {p : Pending} {s : State} (hb : b < 4 ∨ (8 ≤ b ∧ b < 12)) (h : s.halfMay b p = true) : (setCue b p s).halves =
    s.halves.filter (fun x => x.2.block != b) ++ [(b % 4, ⟨b, if p.mode = 1 then some p.frame else none, s.runningSet b, true, false⟩)] :=
  startHalf_halves (s := setSession b (Rehearsal.cued p) s) hb h

theorem chDark_setCue (b n : Nat) (p : Pending) (s : State) : (setCue b p s).chDark n = s.chDark n :=
  chDark_congr n (onlyRegs_setCue b p s _ (by decide) fun h => absurd (lineRxStatus_high (b % 4)) (by rw [← List.mem_singleton.1 h]; decide))

/-! ### `CUE` on a block of a channel -/

/-- The operation of a cue. -/
def cueOp (q : Request) (b : Nat) (holds : List Nat) (reply : Bool) (s : State) : Op := opOf q 0x0122 holds [cueTarget b] s (reply := reply)

section
variable {q : Request} {t : State} {b : Nat} {r : Rehearsal} (hb : fld q.params 0 1 = b) (h12 : b < 12) (hr : t.session b = some r)
  (ho : r.owner = q.org.who) (hc : r.cue = none)
include hb h12 hr ho hc

theorem cue_body_boundary (hm : fld q.params 1 1 = 0) : cmdCue.body q t =
    .ok (setCue b ⟨0, 0, q.org⟩ t, .defer (cueOp q b [resSTG b] true (setCue b ⟨0, 0, q.org⟩ t))) := by
  have h1 : ¬ 12 ≤ b := by omega
  rw [cmdCue]
  dsimp only
  rw [hb, hm, ownSession_own hr ho hc]
  simp [h1, cueOp]

theorem cue_body_frame (hm : fld q.params 1 1 = 1) (hi : t.fld (fLINE_MODE_IOP (b % 4)) = 0) (hs : t.tooSoon b (fld q.params 2 6) r.bank = false) :
    ∃ holds, cmdCue.body q t = .ok (setCue b ⟨1, fld q.params 2 6, q.org⟩ t,
      .accept (cueOp q b holds false (setCue b ⟨1, fld q.params 2 6, q.org⟩ t))) := by
  have h1 : ¬ 12 ≤ b := by omega
  rw [cmdCue]
  dsimp only
  rw [hb, hm, ownSession_own hr ho hc]
  simp [h1, hi, hs, cueOp]
  exact ⟨_, rfl⟩

end

theorem cue_body_wrongState (q : Request) (t : State) (h : t.session (fld q.params 0 1) = none ∨
    ∃ r, t.session (fld q.params 0 1) = some r ∧ r.owner = q.org.who ∧ r.cue.isSome = true) :
    cmdCue.body q t = .error { status := stWRONG_STATE } := ownSession_wrongState h

theorem cue_body_busy (q : Request) (t : State) {r : Rehearsal} (hr : t.session (fld q.params 0 1) = some r) (ho : r.owner ≠ q.org.who) :
    cmdCue.body q t = .error { status := stBUSY, b0 := r.owner.master } := ownSession_busy hr ho

section
variable {q : Request} {s : State} (hp : cmdCue.passes q s = true) (h12 : fld q.params 0 1 < 12)
  (hd : (s.taken q cmdCue.code).chDark (fld q.params 0 1 % 4) = false)
include hp h12 hd

/-- On a channel that runs the cue waits. -/
theorem exec_cue {p : Pending} {ans : Answer} (hb : cmdCue.body q (s.taken q cmdCue.code) = .ok (setCue (fld q.params 0 1) p (s.taken q cmdCue.code), ans)) :
    exec (.cue q) s = .next (settle (place q 0x0122 ans (setCue (fld q.params 0 1) p (s.taken q cmdCue.code)))) := by
  have he : serveState cmdCue q s = place q 0x0122 ans (setCue (fld q.params 0 1) p (s.taken q cmdCue.code)) := serveState_ok hp hb
  change cueServed cmdCue (fun q => fld q.params 0 1) q s = _
  rw [cueServed_waits hp ?_, he]
  rw [atOnce_channel h12, he, (told_place _ _ _ _).chDark, chDark_setCue, hd]

theorem exec_cue_refused {r : Ref} (hb : cmdCue.body q (s.taken q cmdCue.code) = .error r) :
    exec (.cue q) s = .next (settle (refuse q.org 0x0122 r (s.taken q cmdCue.code))) := by
  have he : serveState cmdCue q s = refuse q.org 0x0122 r (s.taken q cmdCue.code) := serveState_error hp hb
  change cueServed cmdCue (fun q => fld q.params 0 1) q s = _
  rw [cueServed_waits hp ?_, he]
  rw [atOnce_channel h12, he, (told_refuse _ _ _ _).chDark, hd]

end

/-! ### Cues at their boundary (R99, R100) -/

/-- The registers of answers and those of the receivers hold no Cue field. -/
theorem cueBlock_answerRegs : ∀ off ∈ answerRegs, cueBlock off = none := by decide +kernel

theorem cueBlock_lineRxStatus {n : Nat} (h : n < 4) : cueBlock (rLINE_RX_STATUS n) = none := by
  have hall : ∀ n : Fin 4, cueBlock (rLINE_RX_STATUS n) = none := by decide +kernel
  exact hall ⟨n, h⟩

theorem isBlock_of_lt {b : Nat} (h : b < 18) : isBlock b = true := decide_eq_true h

section
variable {b fn : Nat} {r : Rehearsal} {p : Pending} {s : State} (hs : s.session b = some r) (hp : r.cue = some p)
include hs hp

/-- What carrying out comes to where the check passes, or is behind. -/
theorem carryOut_force (h : (12 ≤ b ∧ b < 16) ∨ (s.halves.any fun h => h.2.block == b && h.2.done) = true ∨ cueCheck b r.bank p s = none) :
    carryOut b fn s = cueForce b fn r p s := by
  unfold carryOut
  rw [hs]
  dsimp only
  rw [hp]
  dsimp only
  rcases h with ⟨h1, h2⟩ | h | h
  · simp [h1, h2]
  · simp [h]
  · simp [h]

theorem carryOut_refused (hg : ¬ (12 ≤ b ∧ b < 16)) (ha : (s.halves.any fun h => h.2.block == b && h.2.done) = false) {ref : Ref}
    (hc : cueCheck b r.bank p s = some ref) : carryOut b fn s = cueRefused b r ref s := by
  have hg' : (decide (12 ≤ b) && decide (b < 16)) = false := by
    rw [← Bool.decide_and]
    exact decide_eq_false hg
  unfold carryOut
  rw [hs]
  dsimp only
  rw [hp]
  dsimp only
  rw [hg', ha, hc]
  rfl

theorem exec_cueCarriedOut (h18 : b < 18) (hg : ¬ (12 ≤ b ∧ b < 16)) : exec (.cueCarriedOut b fn) s =
    .next (settle (if framerPaced b && (!s.boundary b fn r p || s.cueBefore b fn (s.pacer b r.bank)) then s else carryOut b fn s)) := by
  have hno : ¬ (!isBlock b || decide (12 ≤ b) && decide (b < 16)) = true := by
    rw [isBlock_of_lt h18]
    simpa using hg
  change execCueCarriedOut b fn s = _
  rw [execCueCarriedOut, if_neg hno, hs]
  dsimp only
  rw [hp]
  dsimp only
  split <;> rfl

/-- A converter block has no framer's boundary to wait for. -/
theorem exec_cueCarriedOut_converter (h4 : 4 ≤ b) (h8 : b < 8) : exec (.cueCarriedOut b fn) s = .next (settle (carryOut b fn s)) := by
  have hf : framerPaced b = false := by
    simp only [framerPaced, Bool.or_eq_false_iff, Bool.and_eq_false_iff, decide_eq_false_iff_not]
    omega
  rw [exec_cueCarriedOut hs hp (by omega) (by omega), hf]
  rfl

/-- A block that a framer paces, at its boundary. -/
theorem exec_cueCarriedOut_paced (hb : b < 4 ∨ (8 ≤ b ∧ b < 12) ∨ (16 ≤ b ∧ b < 18)) (h : s.boundary b fn r p = true) :
    exec (.cueCarriedOut b fn) s = .next (settle (if s.cueBefore b fn (s.pacer b r.bank) then s else carryOut b fn s)) := by
  have hf : framerPaced b = true := by
    simp only [framerPaced, Bool.or_eq_true, Bool.and_eq_true, decide_eq_true_eq]
    omega
  rw [exec_cueCarriedOut hs hp (by omega) (by omega), hf, h]
  rfl

end

section
variable {b fn : Nat} {r : Rehearsal} {p : Pending} {s : State} (h4 : 4 ≤ b) (h8 : b < 8)
include h4 h8

theorem cueCheck_converter : cueCheck b r.bank p s = convCheck (b - 4) r.bank s := by
  have h : ¬ (decide (b < 4) || decide (8 ≤ b) && decide (b < 12)) = true := by
    simp only [Bool.or_eq_true, Bool.and_eq_true, decide_eq_true_eq]
    omega
  rw [cueCheck, if_neg h, if_pos h8]

theorem cueForce_converter : cueForce b fn r p s = cueOver b 0 (dropSession b (intoForce b r.bank s)) := by
  rw [cueForce, if_neg (by omega), if_pos h8]

/-- The bank of a converter block in force, its session over: no other register than those of the answer and of the half that is given up
changes. -/
theorem rd_converterForce {off : Nat} (ha : off ∉ answerRegs) (hl : off ≠ rLINE_RX_STATUS (b - 4)) :
    (cueOver b 0 (dropSession b (intoForce b r.bank s))).rd off = (intoForce b r.bank s).rd off :=
  ((sent_cueOver b 0 _).rd off ha).trans (rd_dropSession b _ off (by rwa [show b % 4 = b - 4 by omega]))

theorem cueRefused_explicit (hs : s.session b = some r) (hi : r.implicit = none) (ref : Ref) :
    (cueRefused b r ref s).session b = some { r with cue := none } ∧
      OnlyRegs (answerRegs ++ [rLINE_RX_STATUS (b - 4)]) s (cueRefused b r ref s) := by
  have he : cueRefused b r ref s = answerCue b ref [] (cancelHalf b (setSession b (fun r => { r with cue := none }) s)) := by
    rw [cueRefused, hi]
    rfl
  have ht := told_answerCue b ref [] (cancelHalf b (setSession b (fun r => { r with cue := none }) s))
  rw [he]
  refine ⟨?_, ?_⟩
  · rw [session_congr ht.rehearsals, session_congr (cancelHalf_rehearsals _ _), session_setSession b (fun r => { r with cue := none }) s fun _ => rfl, hs]
    rfl
  · have hc : OnlyRegs [rLINE_RX_STATUS (b % 4)] s (cancelHalf b (setSession b (fun r => { r with cue := none }) s)) :=
      (OnlyRegs.of_regs rfl).trans (onlyRegs_cancelHalf _ _)
    rw [show b % 4 = b - 4 by omega] at hc
    exact (hc.mono fun _ h => List.mem_append_right _ h).trans (ht.regs.mono fun _ h => List.mem_append_left _ h)

end

/-! ### The receive half at its boundary (R160) -/

theorem exec_lineCueRxHalf {n : Ch} {slots : Bool} {fn m : Nat} {h : RxHalf} {s : State}
    (hf : (s.halves.find? fun x => x.2.block == (if slots then 8 + n.val else n.val)) = some (m, h))
    (hn : h.frame = none → slots = false ∨ fn % 256 = 0) (hd : ∀ f, h.frame = some f → fn % 256 = 0 ∧ 0 ≤ fnDiff fn f) :
    exec (.lineCueRxHalf n slots fn) s = .next (settle (halfRun (if slots then 8 + n.val else n.val) fn s)) := by
  change execLineCueRxHalf n slots fn s = _
  unfold execLineCueRxHalf
  dsimp only
  rw [hf]
  dsimp only
  cases hframe : h.frame with
  | none =>
    rcases hn hframe with h1 | h1 <;> simp [h1, ok]
  | some f =>
    obtain ⟨h1, h2⟩ := hd f hframe
    simp [h1, h2, ok]

/-- The receiver's status shows the halves that wait, whatever cue is answered with it. -/
theorem halfShow_answered (target code block p0 p1 : Nat) {m : Nat} (hm : m < 4) (s : State) :
    (cueDone target (offer code block p0 p1 (halfShow m s))).halves = s.halves ∧
      (cueDone target (offer code block p0 p1 (halfShow m s))).flag (fLINE_RX_STATUS_RX_HALF_PENDING m) =
        s.halves.any fun x => x.1 == m && !x.2.done := by
  have hlow := lineRxStatus_high m
  have hcb : rLINE_RX_STATUS m ≠ rCB_STATUS := by
    intro h
    rw [h] at hlow
    exact absurd hlow (by decide)
  have hans : rLINE_RX_STATUS m ∉ answerRegs := by
    intro h
    have := answerRegs_low _ h
    unfold rLINE_RX_STATUS chBase at this
    omega
  have ht := told_cueDone target (offer code block p0 p1 (halfShow m s))
  refine ⟨?_, ?_⟩
  · rw [ht.halves, offer_halves, halfShow_other]
  · rw [State.flag, ht.regs.fld hcb hans, fld_offer _ _ _ _ _ _ hcb, ← State.flag, halfShow, State.flag_setB_same _ _ _ (by simp [Fld.ok]) (by simp)]

/-- The half that has come into force has left, and the receiver's status shows those that still wait. -/
theorem halfDone_shows {b fn m : Nat} {h : RxHalf} {s : State} (hb : b < 4) (hf : (s.halves.find? fun x => x.2.block == b) = some (m, h)) (hm : m < 4)
    (he : h.early = false) : let t := halfDone b fn s
    (∀ x ∈ t.halves, x.2.block ≠ b) ∧ (t.flag (fLINE_RX_STATUS_RX_HALF_PENDING m) = true ↔ ∃ x ∈ t.halves, x.1 = m ∧ x.2.done = false) := by
  intro t
  have ht : t = cueDone (tHalf b) (offer 0x0255 (bCH b) 1 (fn % 65536) (halfShow m { s with halves := s.halves.filter fun x => x.2.block != b })) := by
    change halfDone b fn s = _
    rw [halfDone, hf]
    dsimp only
    rw [he, halfMade, if_pos hb]
    rfl
  obtain ⟨hhalves, hflag⟩ := halfShow_answered (tHalf b) 0x0255 (bCH b) 1 (fn % 65536) hm { s with halves := s.halves.filter fun x => x.2.block != b }
  rw [← ht] at hhalves hflag
  refine ⟨fun x hx => ?_, ?_⟩
  · rw [hhalves] at hx
    simpa using (List.mem_filter.1 hx).2
  · rw [hflag, hhalves, List.any_eq_true]
    simp

/-- Settles O18: `CUE` by its body and `cueServed_waits`; cues at their boundary by `carryOut_force` and `carryOut_refused`. -/
theorem cueRequests : Obligations.CueRequests := by
  unfold Obligations.CueRequests
  refine ⟨?cue, ?refused, ?converter, ?kept, ?force, ?paced, fun _ _ _ _ _ _ hf hn hd => exec_lineCueRxHalf hf hn hd,
    fun _ _ _ _ _ hb hf hm he => halfDone_shows hb hf hm he⟩
  case cue =>
    intro q s hp t b h12 hd r hr ho hc
    refine ⟨fun hm => ?_, fun hm hi hsoon => ?_⟩
    · refine ⟨_, _, exec_cue hp h12 hd (cue_body_boundary rfl h12 hr ho hc hm), rfl, rfl, ?_, setCue_other _ _ _, onlyRegs_setCue _ _ _, ?_⟩
      · exact (session_setCue _ _ _).trans (congrArg (Option.map _) hr)
      · exact fun hb hh => setCue_halves (hb.imp_right fun h8 => ⟨h8, h12⟩) hh
    · obtain ⟨holds, hbody⟩ := cue_body_frame rfl h12 hr ho hc hm hi hsoon
      refine ⟨_, _, exec_cue hp h12 hd hbody, rfl, rfl, ?_, setCue_other _ _ _, onlyRegs_setCue _ _ _, ?_⟩
      · exact (session_setCue _ _ _).trans (congrArg (Option.map _) hr)
      · exact fun hb hh => setCue_halves (hb.imp_right fun h8 => ⟨h8, h12⟩) hh
  case refused =>
    intro q s hp t b h12 hd
    exact ⟨fun h => exec_cue_refused hp h12 hd (cue_body_wrongState q t h), fun r hr ho => exec_cue_refused hp h12 hd (cue_body_busy q t hr ho)⟩
  case converter =>
    intro b fn r p s h4 h8 hs hp hc hbank
    have hforce := carryOut_force (fn := fn) hs hp (.inr (.inr ((cueCheck_converter h4 h8).trans hc)))
    refine ⟨_, exec_cueCarriedOut_converter hs hp h4 h8, ?_⟩
    rw [hforce, cueForce_converter h4 h8]
    have ht := told_cueOver b 0 (dropSession b (intoForce b r.bank s))
    simp only [rd_settle, settle_eng, settle_line, session_congr (settle_rehearsals _)]
    refine ⟨?_, fun off ho => ?_, fun off ho hl => ?_, ?_, ?_⟩
    · rw [session_congr ht.rehearsals, session_dropSession]
    · have ha : off ∉ answerRegs := fun h => by rw [cueBlock_answerRegs off h] at ho; cases ho
      have hl : off ≠ rLINE_RX_STATUS (b - 4) := fun h => by rw [h, cueBlock_lineRxStatus (by omega)] at ho; cases ho
      rw [rd_converterForce h4 h8 ha hl, rd_intoForce r.bank s ho]
      exact ⟨mix_and_mask _ _ _, mix_and_not _ _ _⟩
    · have hl' : off ∉ answerRegs ∧ off ≠ rLINE_RX_STATUS (b - 4) := by simpa [answerRegs, and_assoc] using hl
      rw [rd_converterForce h4 h8 hl'.1 hl'.2, rd_intoForce_other hbank ho]
    · rw [ht.eng, dropSession_other, intoForce_other]
    · rw [ht.line, dropSession_other, intoForce_other]
  case kept =>
    intro b fn r p ref s h4 h8 hs hp hi ha hc
    have hcheck : cueCheck b r.bank p s = some ref := (cueCheck_converter h4 h8).trans hc
    obtain ⟨hses, hregs⟩ := cueRefused_explicit h4 h8 hs hi ref
    refine ⟨_, exec_cueCarriedOut_converter hs hp h4 h8, ?_⟩
    rw [carryOut_refused hs hp (by omega) ha hcheck]
    exact ⟨(session_congr (settle_rehearsals _) b).trans hses, hregs.settle⟩
  case force =>
    intro b bank s hbank t
    exact ⟨intoForce_other _ _ _, fun off ho => rd_intoForce_other hbank ho, fun off ho => rd_intoForce bank s ho⟩
  case paced =>
    intro b fn r p s hb hs hp hbd ahead
    have hexec := exec_cueCarriedOut_paced hs hp hb hbd
    refine ⟨fun hbefore => ?_, fun hbefore ha ref hc => ?_, fun hbefore hc => ?_⟩
    · rw [hexec, hbefore]
      rfl
    · rw [hexec, hbefore, carryOut_refused hs hp (by omega) ha hc]
      rfl
    · rw [hexec, hbefore, carryOut_force hs hp (.inr hc)]
      rfl

end Sys2Proof.Machine
end

/-! # Numbers of a reply (R3) -/
section
namespace Sys2Proof.Machine

open Sys2Proof

theorem fld_append_left (l r : List Byte) (off n : Nat) (h : off + n ≤ l.length) : fld (l ++ r) off n = fld l off n := by
  have hl : off + n ≤ (l ++ r).length := by
    rw [List.length_append]
    omega
  rw [fld, fld, slice_eq _ _ _ hl, slice_eq _ _ _ h, List.drop_append_of_le_length (by omega), List.take_append_of_le_length (by simp; omega)]

theorem fld_append_right (l r : List Byte) (off n : Nat) (h : l.length ≤ off) : fld (l ++ r) off n = fld r (off - l.length) n := by
  rw [fld, fld, slice, slice, List.drop_append, List.drop_eq_nil_of_le h, List.nil_append]

theorem fld_cons (x : Byte) (l : List Byte) (off n : Nat) : fld (x :: l) (off + 1) n = fld l off n := rfl

/-- The first byte of a block. -/
theorem fld_cons_byte (x : Byte) (l : List Byte) : fld (x :: l) 0 1 = x.toNat := by simp [fld, slice, unle]

theorem fld_le (n v : Nat) : fld (le n v) 0 n = v % 2 ^ (8 * n) := by simpa using fld_middle [] [] 0 n v rfl

/-- A register in a reply. -/
theorem fld_le_word (w : Word) : fld (le 4 w.toNat) 0 4 = w.toNat := by rw [fld_le, Nat.mod_eq_of_lt w.isLt]

/-- A register field in a reply that has room for it. -/
theorem fld_le_field (n : Nat) (f : Fld) (s : State) (h : f.w ≤ 8 * n) : fld (le n (s.fld f)) 0 n = s.fld f := by
  rw [fld_le, Nat.mod_eq_of_lt (lt_of_lt_of_le (fld_lt s f) (Nat.pow_le_pow_right (by decide) h))]

theorem fld_le_flag (b : Bool) : fld (le 1 (b2n b)) 0 1 = b2n b := by cases b <;> rfl

end Sys2Proof.Machine
end

/-! # System requests and compatibility commands (O8) -/
section
namespace Sys2Proof.Machine

open Sys2Proof

/-! ### Claims (R93) -/

/-- The holder of a resource after its claims are taken out. -/
theorem find?_claim_dropped (r : Nat) (l : List (Nat × Who)) : (l.filter fun c => !(c.1 == r)).find? (fun c => c.1 == r) = none := by
  rw [List.find?_eq_none]
  intro c hc
  simpa using (List.mem_filter.1 hc).2

theorem find?_claim_kept {r x : Nat} (h : x ≠ r) (l : List (Nat × Who)) :
    (l.filter fun c => !(c.1 == r)).find? (fun c => c.1 == x) = l.find? fun c => c.1 == x := by
  rw [List.find?_filter]
  congr 1
  funext c
  by_cases hc : c.1 = x
  · simp [hc, h]
  · simp [hc]

theorem holder_congr {s t : State} (h : t.claims = s.claims) (r : Nat) : t.holder r = s.holder r := by rw [State.holder, State.holder, h]

theorem holder_setClaim (r : Nat) (w : Who) (s : State) : (setClaim r w s).holder r = some w := by
  rw [State.holder, setClaim, List.find?_append, find?_claim_dropped]
  simp

theorem holder_setClaim_other {r x : Nat} (w : Who) (s : State) (h : x ≠ r) : (setClaim r w s).holder x = s.holder x := by
  rw [State.holder, setClaim, List.find?_append, find?_claim_kept h, State.holder]
  simp [Ne.symm h]

/-- Sessions that end by another than their owner leave with their blocks; claims stay. -/
theorem eachEndSession_keeps (m : Option Nat) (l : List Rehearsal) (s : State) : (each l (endSession m) s).claims = s.claims ∧
    ∀ y ∈ (each l (endSession m) s).rehearsals, y ∈ s.rehearsals ∧ ∀ x ∈ l, y.block ≠ x.block := by
  induction l generalizing s with
  | nil => exact ⟨rfl, fun y hy => ⟨hy, nofun⟩⟩
  | cons x l ih =>
    obtain ⟨hr, hc⟩ := endSession_keeps m x s
    obtain ⟨hclaims, hrest⟩ := ih (endSession m x s)
    refine ⟨hclaims.trans hc, fun y hy => ?_⟩
    obtain ⟨hin, hne⟩ := hrest y hy
    rw [hr, List.mem_filter] at hin
    refine ⟨hin.1, fun z hz => ?_⟩
    rcases List.mem_cons.1 hz with rfl | hz
    · simpa using hin.2
    · exact hne z hz

/-- A claim by force as it leaves the state: its holder is told, and no other's session is left on a block of the resource. -/
theorem forcedClaim {r : Nat} {w : Who} (m : Option Nat) (o : Origin) (kind code st : Nat) (ps : List Byte) (t : State) :
    let e := endSessions m (fun x => !sameWho x.owner w && (t.blockClaims x.block).contains r) t
    let u := answer o kind code st ps (setClaim r w e)
    u.holder r = some w ∧ (∀ x, x ≠ r → u.holder x = t.holder x) ∧ ∀ x ∈ u.rehearsals, r ∈ t.blockClaims x.block → x.owner = w := by
  intro e u
  obtain ⟨hclaims, hrest⟩ := eachEndSession_keeps m (t.rehearsals.filter fun x => !sameWho x.owner w && (t.blockClaims x.block).contains r) t
  have hu : Told (setClaim r w e) u := (answered _ _ _ _ _ _).told
  refine ⟨?_, fun x hx => ?_, fun x hx hr => ?_⟩
  · rw [holder_congr hu.claims, holder_setClaim]
  · rw [holder_congr hu.claims, holder_setClaim_other _ _ hx]
    exact holder_congr hclaims x
  · rw [hu.rehearsals] at hx
    obtain ⟨hin, hne⟩ := hrest x hx
    by_contra ho
    refine hne x (List.mem_filter.2 ⟨hin, ?_⟩) rfl
    simp [sameWho_of_ne ho, hr]

theorem claim_free : Does cmdClaim .claim (fun q t => t.holder (fld q.params 0 1) = none) fun q t ans u =>
    u.holder (fld q.params 0 1) = some q.org.who ∧ (∀ r, r ≠ fld q.params 0 1 → u.holder r = t.holder r) ∧ u = { t with claims := u.claims } ∧
      ans = .done (holderBytes (some q.org.who)) := by
  refine does_of (fun _ _ => rfl) fun q t _ h => ⟨_, setClaim (fld q.params 0 1) q.org.who t, ?_, holder_setClaim _ _ _,
    fun r hr => holder_setClaim_other _ _ hr, rfl, rfl⟩
  rw [cmdClaim]
  dsimp only
  rw [h]

theorem claim_own : Does cmdClaim .claim (fun q t => t.holder (fld q.params 0 1) = some q.org.who) fun q t ans u =>
    u = t ∧ ans = .done (holderBytes (some q.org.who)) := by
  refine does_of (fun _ _ => rfl) fun q t _ h => ⟨_, t, ?_, rfl, rfl⟩
  rw [cmdClaim]
  dsimp only
  rw [h]
  exact if_pos (sameWho_self _)

theorem claim_busy (h : Who) : Turned cmdClaim .claim
    (fun q t => t.holder (fld q.params 0 1) = some h ∧ h ≠ q.org.who ∧ bit (fld q.params 1 1) 0 = false) fun _ _ => { status := stBUSY, b0 := h.master } := by
  refine turned_of (fun _ _ => rfl) fun q t _ ⟨hh, hne, hf⟩ => ?_
  rw [cmdClaim]
  dsimp only
  rw [hh]
  simp [sameWho_of_ne hne, hf]

theorem claim_forced (h : Who) : Does cmdClaim .claim
    (fun q t => t.holder (fld q.params 0 1) = some h ∧ h ≠ q.org.who ∧ bit (fld q.params 1 1) 0 = true) fun q t ans u =>
      u.holder (fld q.params 0 1) = some q.org.who ∧ (∀ r, r ≠ fld q.params 0 1 → u.holder r = t.holder r) ∧
        ans = .done (holderBytes (some q.org.who)) ∧ ∀ x ∈ u.rehearsals, fld q.params 0 1 ∈ t.blockClaims x.block → x.owner = q.org.who := by
  refine does_of (fun _ _ => rfl) fun q t _ ⟨hh, hne, hf⟩ => ?_
  obtain ⟨hown, hother, hsessions⟩ := forcedClaim (r := fld q.params 0 1) (w := q.org.who) (some q.org.who.master)
    ⟨h, h.link, decide (h.src = 0), 0⟩ kUnsolicited 0x0110 stBUSY [] t
  refine ⟨_, _, ?_, hown, hother, rfl, hsessions⟩
  rw [cmdClaim]
  dsimp only
  rw [hh]
  simp only [sameWho_of_ne hne, hf, Bool.false_eq_true, if_false, if_true]

theorem release_own : Does cmdRelease .release (fun q t => t.holder (fld q.params 0 1) = some q.org.who) fun q t ans u =>
    u.holder (fld q.params 0 1) = none ∧ (∀ r, r ≠ fld q.params 0 1 → u.holder r = t.holder r) ∧ u = { t with claims := u.claims } ∧ ans = .done [] := by
  refine does_of (fun _ _ => rfl) fun q t _ h =>
    ⟨_, { t with claims := t.claims.filter fun c => !(c.1 == fld q.params 0 1) }, ?_, ?_, fun r hr => ?_, rfl, rfl⟩
  · rw [cmdRelease]
    dsimp only
    rw [h]
    exact if_pos (sameWho_self _)
  · exact congrArg (Option.map Prod.snd) (find?_claim_dropped _ _)
  · exact congrArg (Option.map Prod.snd) (find?_claim_kept hr _)

theorem release_refused : Turned cmdRelease .release (fun q t => t.holder (fld q.params 0 1) ≠ some q.org.who) fun _ _ => { status := stWRONG_STATE } := by
  refine turned_of (fun _ _ => rfl) fun q t _ h => ?_
  rw [cmdRelease]
  dsimp only
  cases hh : t.holder (fld q.params 0 1) with
  | none => rfl
  | some w => exact if_neg (by simp [sameWho_of_ne fun hw => h (hh.trans (congrArg some hw))])

/-! ### Identity and rights (R91, R467) -/

theorem identify_answers : Does cmdIdentify .identify (fun _ _ => True) fun _ t ans u => u = t ∧ ∃ ps, ans = .done ps ∧ ps.length = 12 ∧
    fld ps 0 4 = (t.rd rSYS_ID_PART).toNat ∧ fld ps 4 1 = t.fld fSYS_ID_REV_STEPPING ∧ fld ps 5 1 = 0 ∧ fld ps 6 2 = t.node ∧
    fld ps 8 4 = (t.rd rSYS_ID_FW).toNat := by
  refine does_of (fun _ _ => rfl) fun q t _ _ => ⟨_, t, rfl, rfl, _, rfl, by simp, ?_, ?_, ?_, ?_, ?_⟩
  · simp [fld_append_left, fld_le_word]
  · simp [fld_append_left, fld_append_right, fld_le_field]
  · simp [fld_append_right, fld_cons_byte]
  · simp [fld_append_left, fld_append_right, fld_cons, State.node, fld_le_field]
  · simp [fld_append_right, fld_cons, fld_le_word]

theorem dvIdent_answers : Does cmdDvIdent .dvIdent (fun _ _ => True) fun _ t ans u => u = t ∧ ∃ ps, ans = .done ps ∧ ps.length = 6 ∧
    fld ps 0 4 = (t.rd rSYS_ID_PART).toNat ∧ fld ps 4 1 = t.fld fSYS_ID_REV_STEPPING ∧ fld ps 5 1 = t.dvChan.val := by
  refine does_of (fun _ _ => rfl) fun q t _ _ => ⟨_, t, rfl, rfl, _, rfl, by simp, ?_, ?_, ?_⟩
  · simp [fld_append_left, fld_le_word]
  · simp [fld_append_left, fld_append_right, fld_le_field]
  · simp only [fld_append_right, List.length_append, le_length, fld_le, Nat.le_refl, Nat.sub_self]
    omega

theorem accessSet_writes : Does cmdAccessSet .accessSet (fun _ _ => True) fun q t ans u => ans = .done [] ∧
    u.fld fSYS_ACCESS_OBS_COUNTERS = fld q.params 0 1 ∧ u = { t with regs := u.regs } ∧ OnlyRegs [rSYS_ACCESS] t u := by
  refine does_of (fun _ _ => rfl) fun q t hq _ => ⟨_, _, rfl, rfl, ?_, rfl, (OnlyRegs.refl _ t).setF _ (List.mem_singleton.2 rfl)⟩
  have hv := (firstBad_none _).1 hq _ List.mem_cons_self
  simp only [Bool.or_eq_false_iff, decide_eq_false_iff_not, not_le] at hv
  rw [State.fld_setF_same _ _ _ (by decide)]
  exact Nat.mod_eq_of_lt hv.2

/-! ### The compatibility channel (R108) -/

theorem dvChanSet_selects : Does cmdDvChanSet .dvChanSet (fun _ _ => True) fun q t ans u => ans = .done [] ∧ u.dvChan.val = fld q.params 0 1 ∧
    u = { t with dvChan := u.dvChan } := by
  refine does_of (fun _ _ => rfl) fun q t hq _ => ⟨_, _, rfl, rfl, ?_, rfl⟩
  have hv := (firstBad_none _).1 hq _ List.mem_cons_self
  simp only [badCh, Bool.or_eq_false_iff, decide_eq_false_iff_not, not_lt] at hv
  exact Nat.mod_eq_of_lt (by omega)

theorem dvPmRead_answers : Does cmdDvPmRead .dvPmRead (fun _ _ => True) fun q t ans u =>
    let b := (t.ohOf t.dvChan).pm.bin (fld q.params 0 1)
    u = t ∧ ∃ ps, ans = .done ps ∧ ps.length = 13 ∧ fld ps 0 4 = b.es % 2 ^ 32 ∧ fld ps 4 4 = b.ses % 2 ^ 32 ∧ fld ps 8 4 = b.uas % 2 ^ 32 ∧
      fld ps 12 1 = b2n b.part := by
  refine does_of (fun _ _ => rfl) fun q t _ _ => ⟨_, t, rfl, rfl, _, rfl, by simp, ?_, ?_, ?_, ?_⟩
  · simp [fld_append_left, fld_le]
  · simp [fld_append_left, fld_append_right, fld_le]
  · simp [fld_append_left, fld_append_right, fld_le]
  · simp [fld_append_right, fld_le_flag]

/-- The bins of a channel without their counts. -/
def PmSt.cleared (pm : PmSt) : PmSt :=
  { pm with bin15 := pm.bin15.cleared, last15 := pm.last15.cleared, bin24 := pm.bin24.cleared, last24 := pm.last24.cleared }

theorem PmSt.bin_cleared (pm : PmSt) (k : Nat) : pm.cleared.bin k = (pm.bin k).cleared := by
  match k with
  | 0 => rfl
  | 1 => rfl
  | 2 => rfl
  | _ + 3 => rfl

theorem dvPmClear_clears : Does cmdDvPmClear .dvPmClear (fun _ _ => True) fun _ t ans u => ans = .done [] ∧ u = { t with oh := u.oh } ∧
    (∀ k, ((u.ohOf t.dvChan).pm.bin k).es = 0 ∧ ((u.ohOf t.dvChan).pm.bin k).ses = 0 ∧ ((u.ohOf t.dvChan).pm.bin k).uas = 0 ∧
      ((u.ohOf t.dvChan).pm.bin k).part = true) ∧ ∀ n : Ch, n ≠ t.dvChan → u.ohOf n = t.ohOf n := by
  refine does_of (fun _ _ => rfl) fun q t _ _ =>
    ⟨.done [], setOh t.dvChan { t.ohOf t.dvChan with pm := (t.ohOf t.dvChan).pm.cleared } t, rfl, rfl, rfl, fun k => ?_, fun n hn => ?_⟩
  · rw [ohOf_setOh_same, PmSt.bin_cleared]
    exact ⟨rfl, rfl, rfl, rfl⟩
  · exact Four.get_set_other _ _ _ _ (by simpa using hn)

/-- Six alarms as the bits of a number. -/
theorem alarmBits (a b c d e f : Bool) : (span 0 6).foldl (fun v k => if [a, b, c, d, e, f].getD k false then v + 2 ^ k else v) 0 =
    b2n a + 2 * b2n b + 4 * b2n c + 8 * b2n d + 16 * b2n e + 32 * b2n f := by
  revert a b c d e f
  decide

theorem b2n_le (b : Bool) : b2n b ≤ 1 := by cases b <;> decide

theorem dvAlarms_answers : Does cmdDvAlarms .dvAlarms (fun _ _ => True) fun _ t ans u => u = t ∧ ∃ ps, ans = .done ps ∧ ps.length = 4 ∧
    let d := (fOH_RX_STATUS_DEFECTS t.dvChan).of (t.shown (rOH_RX_STATUS t.dvChan))
    fld ps 0 4 = b2n (bit d dLOS) + 2 * b2n (bit d dOOF) + 4 * b2n (bit d dLOM) + 8 * b2n (bit d dBDI) + 16 * b2n (bit d dPLM) + 32 * b2n (bit d dSD) := by
  refine does_of (fun _ _ => rfl) fun q t _ _ => ⟨_, t, rfl, rfl, _, rfl, le_length _ _, ?_⟩
  dsimp only
  generalize (fOH_RX_STATUS_DEFECTS t.dvChan).of (t.shown (rOH_RX_STATUS t.dvChan)) = d
  rw [fld_le, List.map_cons, List.map_cons, List.map_cons, List.map_cons, List.map_cons, List.map_cons, List.map_nil, alarmBits]
  have h0 := b2n_le (bit d dLOS)
  have h1 := b2n_le (bit d dOOF)
  have h2 := b2n_le (bit d dLOM)
  have h3 := b2n_le (bit d dBDI)
  have h4 := b2n_le (bit d dPLM)
  have h5 := b2n_le (bit d dSD)
  exact Nat.mod_eq_of_lt (by omega)

/-- What mutes a channel reads no status of its engine. -/
theorem muted_congr {s t : State} (n : Nat) (he : t.eng = s.eng) (hp : t.pwr = s.pwr) (h : ∀ off, off ≠ rENG_STATUS n → t.rd off = s.rd off) :
    t.muted n = s.muted n := by
  have hf : ∀ f : Fld, f.reg ≠ rENG_STATUS n → t.fld f = s.fld f := fun f hr => congrArg f.of (h f.reg hr)
  have hmute : t.flag (fENG_CTRL_TX_MUTE n) = s.flag (fENG_CTRL_TX_MUTE n) := by
    rw [State.flag, State.flag, hf _ (by simp only [rENG_CTRL, rENG_STATUS]; omega)]
  have hactive : t.active n = s.active n := by
    rw [State.active, State.active, hf _ (by simp only [rPWR_CH_STATE, rENG_STATUS, chBase]; omega)]
  have hdepth : t.fld (fTST_LOOP_DEPTH n) = s.fld (fTST_LOOP_DEPTH n) := hf _ (by simp only [rTST_LOOP, rENG_STATUS]; omega)
  have hdac : t.dacFailed n = s.dacFailed n := by
    have hc : ∀ c, t.flag (fCONV_STATUS_FAILED n c) = s.flag (fCONV_STATUS_FAILED n c) := fun c => by
      rw [State.flag, State.flag, hf _ (by simp only [rCONV_STATUS, rENG_STATUS]; omega)]
    simp only [State.dacFailed, hc]
  simp only [State.muted, State.engineUp, State.engOf, hmute, hactive, hdepth, hdac, he, hp]

theorem engOf_muteFollow (n m : Nat) (s : State) : (muteFollow n s).engOf m = s.engOf m := by
  rw [State.engOf, State.engOf, muteFollow, State.setB_eng]

theorem muteFollow_other (n : Nat) (s : State) : muteFollow n s = { s with regs := (muteFollow n s).regs } := by
  rw [muteFollow, State.setB, State.setF, State.wr]

theorem dvTxEnable_follows : Does cmdDvTxEnable .dvTxEnable (fun _ t => t.chDark t.dvChan = false) fun q t ans u => ans = .done [] ∧
    (u.engOf t.dvChan).dvDark = (fld q.params 0 1 == 0) ∧ u.flag (fENG_STATUS_TX_DARK t.dvChan) = u.muted t.dvChan ∧
      (fld q.params 0 1 = 0 → u.flag (fENG_STATUS_TX_DARK t.dvChan) = true) ∧ u = { t with eng := u.eng, regs := u.regs } ∧
        OnlyRegs [rENG_STATUS t.dvChan] t u := by
  refine does_of (fun _ _ => rfl) fun q t _ hd => ?_
  let e := setEng t.dvChan { t.engOf t.dvChan with dvDark := fld q.params 0 1 == 0 } t
  have hdark : (e.engOf t.dvChan).dvDark = (fld q.params 0 1 == 0) := congrArg EngSt.dvDark (Four.get_set_same _ _ _)
  have hflag : (muteFollow t.dvChan e).flag (fENG_STATUS_TX_DARK t.dvChan) = e.muted t.dvChan := State.flag_setB_same _ _ _ (by simp [Fld.ok]) (by simp)
  refine ⟨.done [], muteFollow t.dvChan e, ?_, rfl, ?_, ?_, fun h0 => ?_, muteFollow_other _ e, (OnlyRegs.of_regs rfl).setB _ (List.mem_singleton.2 rfl)⟩
  · rw [cmdDvTxEnable]
    dsimp only
    rw [hd]
    rfl
  · rw [engOf_muteFollow, hdark]
  · exact hflag.trans (muted_congr _ (State.setB_eng _ _ _) (State.setB_pwr _ _ _) fun off ho => State.rd_setB_other _ _ _ _ ho).symm
  · rw [hflag, State.muted, hdark, h0]
    simp

theorem dvTxEnable_dark : Turned cmdDvTxEnable .dvTxEnable (fun _ t => t.chDark t.dvChan = true) fun _ _ => { status := stWRONG_STATE } := by
  refine turned_of (fun _ _ => rfl) fun q t _ hd => ?_
  rw [cmdDvTxEnable]
  dsimp only
  rw [hd]
  rfl

/-! ### Implicit sessions (R108, R257) -/

/-- The session that a command opens for itself, with its words and its cue. -/
def staged (b code : Nat) (q : Request) (words : List (Nat × Word)) (s : State) : State :=
  setCue b ⟨0, 0, q.org⟩ (setSession b (fun r => { r with bank := words.foldl (fun m w => bankWr m w.1 w.2) r.bank }) (openSession b q.org.who (some code) s))

/-- A word that is staged alone is in the bank. -/
theorem bankRd_staged (off : Nat) (w : Word) (bank : SMap Word) :
    bankRd ([(off, w)].foldl (fun m w => bankWr m w.1 w.2) bank) off = w := by
  rw [List.foldl_cons, List.foldl_nil, bankRd, bankWr, smGet_smSet_same]

theorem implicitCue_free {b code : Nat} {q : Request} {words : List (Nat × Word)} {s : State} (h : s.session b = none) :
    ∃ op : Op, op.org = q.org ∧ op.reply = true ∧ implicitCue b code q words s = .ok (staged b code q words s, .defer op) := by
  rw [implicitCue, h]
  exact ⟨_, rfl, rfl, rfl⟩

theorem session_staged {b : Nat} (code : Nat) (q : Request) (words : List (Nat × Word)) {s : State} (h : s.session b = none) :
    (staged b code q words s).session b =
      some ⟨b, q.org.who, words.foldl (fun m w => bankWr m w.1 w.2) (s.runningSet b), some ⟨0, 0, q.org⟩, some code⟩ := by
  rw [staged, session_setCue, session_setSession, session_openSession _ _ _ _ h]
  · rfl
  · exact fun _ => rfl

theorem staged_other (b code : Nat) (q : Request) (words : List (Nat × Word)) (s : State) : staged b code q words s =
    { s with rehearsals := (staged b code q words s).rehearsals, halves := (staged b code q words s).halves, regs := (staged b code q words s).regs } := by
  rw [staged, setCue_other]
  rfl

theorem onlyRegs_staged (b code : Nat) (q : Request) (words : List (Nat × Word)) (s : State) :
    OnlyRegs [rLINE_RX_STATUS (b % 4)] s (staged b code q words s) :=
  (OnlyRegs.of_regs rfl).trans (onlyRegs_setCue _ _ _)

/-! ### `DV_RATE_SET` (R108) -/

/-- The word of LINE_MODE that `DV_RATE_SET` stages. -/
def dvWord (m : Nat × Nat × Nat × Nat) : Word := BitVec.ofNat 32 (m.1 + 256 * m.2.1 + 8192 * m.2.2.1 + 65536 * m.2.2.2)

/-- The mode that a good `DV_RATE_SET` names. -/
theorem dvMode_good {q : Request} {t : State} (hq : cmdDvRateSet.params q.params t = none) :
    ∃ m, dvMode (fld q.params 0 1) = some m ∧
      m = (if fld q.params 0 1 = 1 then (4, 4, 0, 281) else if fld q.params 0 1 = 2 then (8, 12, 0, 188) else (16, 16, 0, 281)) := by
  have hv := (firstBad_none _).1 hq _ List.mem_cons_self
  simp only [Bool.or_eq_false_iff] at hv
  generalize fld q.params 0 1 = r at hv ⊢
  match r, hv.2 with
  | 1, _ => exact ⟨_, rfl, rfl⟩
  | 2, _ => exact ⟨_, rfl, rfl⟩
  | 4, _ => exact ⟨_, rfl, rfl⟩

theorem dvWord_fields (n r : Nat) :
    let m := if r = 1 then (4, 4, 0, 281) else if r = 2 then (8, 12, 0, 188) else (16, 16, 0, 281)
    ((fLINE_MODE_NET_RATE n).of (dvWord m), (fLINE_MODE_NSC n).of (dvWord m), (fLINE_MODE_CONST n).of (dvWord m), (fLINE_MODE_ENTROPY n).of (dvWord m)) = m := by
  intro m
  have hm : m = (4, 4, 0, 281) ∨ m = (8, 12, 0, 188) ∨ m = (16, 16, 0, 281) := by
    by_cases h1 : r = 1
    · exact .inl (if_pos h1)
    by_cases h2 : r = 2
    · exact .inr (.inl ((if_neg h1).trans (if_pos h2)))
    · exact .inr (.inr ((if_neg h1).trans (if_neg h2)))
  rcases hm with h | h | h <;> rw [h] <;> simp only [Fld.of] <;> decide

theorem exec_dvRateSet {q : Request} {s : State} (hp : cmdDvRateSet.passes q s = true) : let t := s.taken q cmdDvRateSet.code
    t.chDark t.dvChan = false → t.session t.dvChan = none → ∃ u op r, exec (.dvRateSet q) s = .next (settle (place q 0x0F31 (.defer op) u)) ∧
      op.reply = true ∧ u.session t.dvChan = some r ∧ r.owner = q.org.who ∧ r.cue = some ⟨0, 0, q.org⟩ ∧ r.implicit = some 0x0F31 ∧
      ((fLINE_MODE_NET_RATE t.dvChan).of (bankRd r.bank (rLINE_MODE t.dvChan)), (fLINE_MODE_NSC t.dvChan).of (bankRd r.bank (rLINE_MODE t.dvChan)),
        (fLINE_MODE_CONST t.dvChan).of (bankRd r.bank (rLINE_MODE t.dvChan)), (fLINE_MODE_ENTROPY t.dvChan).of (bankRd r.bank (rLINE_MODE t.dvChan))) =
        (if fld q.params 0 1 = 1 then (4, 4, 0, 281) else if fld q.params 0 1 = 2 then (8, 12, 0, 188) else (16, 16, 0, 281)) ∧
      u = { t with rehearsals := u.rehearsals, halves := u.halves, regs := u.regs } ∧ OnlyRegs [rLINE_RX_STATUS t.dvChan] t u := by
  intro t hd hs
  obtain ⟨m, hm, hmode⟩ := dvMode_good (passes_params _ q s hp)
  obtain ⟨op, -, hreply, himp⟩ := implicitCue_free (code := 0x0F31) (q := q) (words := [(rLINE_MODE t.dvChan, dvWord m)]) hs
  have hbody : cmdDvRateSet.body q t = .ok (staged t.dvChan 0x0F31 q [(rLINE_MODE t.dvChan, dvWord m)] t, .defer op) := by
    rw [cmdDvRateSet]
    dsimp only
    rw [hm]
    exact himp
  have hchan : s.dvChan = t.dvChan := by rw [show t = _ from (dequeued_taken q cmdDvRateSet.code s).frame]
  have hlt : t.dvChan.val < 4 := t.dvChan.isLt
  have he : serveState cmdDvRateSet q s = place q 0x0F31 (.defer op) (staged t.dvChan 0x0F31 q [(rLINE_MODE t.dvChan, dvWord m)] t) := serveState_ok hp hbody
  have hregs := onlyRegs_staged t.dvChan 0x0F31 q [(rLINE_MODE t.dvChan, dvWord m)] t
  refine ⟨staged t.dvChan 0x0F31 q [(rLINE_MODE t.dvChan, dvWord m)] t, op, _, ?_, hreply, session_staged _ _ _ hs, rfl, rfl, rfl, ?_, staged_other _ _ _ _ _, ?_⟩
  · change cueServed cmdDvRateSet (fun _ => s.dvChan) q s = _
    rw [cueServed_waits hp ?_, he]
    rw [hchan, atOnce_channel (by omega), he, (told_place _ _ _ _).chDark, Nat.mod_eq_of_lt hlt, staged, chDark_setCue]
    exact hd
  · dsimp only
    rw [bankRd_staged, hmode]
    exact dvWord_fields _ _
  · rwa [Nat.mod_eq_of_lt hlt] at hregs

/-- Settles O8: each request by its own lemma above. -/
theorem systemRequests : Obligations.SystemRequests :=
  ⟨⟨does_of (fun _ _ => rfl) fun _ t _ _ => ⟨_, t, rfl, rfl, rfl⟩, identify_answers, claim_free, claim_own, claim_busy, claim_forced, release_own,
    release_refused, does_of (fun _ _ => rfl) fun _ t _ _ => ⟨_, t, rfl, rfl, rfl⟩, accessSet_writes⟩, dvIdent_answers, dvChanSet_selects,
    dvPmRead_answers, dvPmClear_clears, dvAlarms_answers, dvTxEnable_follows, dvTxEnable_dark, fun _ _ hp => exec_dvRateSet hp⟩

end Sys2Proof.Machine
end

/-! # Pair requests (O39) -/
section
namespace Sys2Proof.Machine

open Sys2Proof

/-! ### Bytes and words -/

theorem unle_lt (bs : List Byte) : unle bs < 256 ^ bs.length := by
  induction bs with
  | nil => decide
  | cons x bs ih =>
    have hx : x.toNat < 256 := x.isLt
    rw [unle, List.length_cons, Nat.pow_succ]
    omega

theorem fld_bytes_lt (ps : List Byte) (off n : Nat) : fld ps off n < 256 ^ n := by
  have h := unle_lt (slice ps off n)
  rwa [slice_length] at h

/-- Numbers of one width in a reply. -/
theorem fld_flatMap_le {α : Type} (n : Nat) (v : α → Nat) (l : List α) (k : Nat) (hk : k < l.length) :
    fld (l.flatMap fun x => le n (v x)) (n * k) n = v l[k] % 2 ^ (8 * n) := by
  induction l generalizing k with
  | nil => cases hk
  | cons x l ih =>
    rw [List.flatMap_cons]
    cases k with
    | zero =>
      rw [Nat.mul_zero, fld_append_left _ _ _ _ (by simp), fld_le]
      rfl
    | succ k =>
      rw [fld_append_right _ _ _ _ (by rw [le_length]; exact Nat.le_mul_of_pos_right n (Nat.succ_pos k)), le_length, Nat.mul_succ, Nat.add_sub_cancel,
        ih k (Nat.lt_of_succ_lt_succ hk)]
      rfl

/-- A field of a word given as a number. -/
theorem Fld.of_ofNat (f : Fld) (v : Nat) (h : v < 2 ^ 32) : f.of (BitVec.ofNat 32 v) = v / 2 ^ f.lo % 2 ^ f.w := by
  rw [Fld.of, BitVec.extractLsb'_toNat, BitVec.toNat_ofNat, Nat.mod_eq_of_lt h, Nat.shiftRight_eq_div_pow]

/-! ### The cue of an implicit session on a pair block (R257) -/

theorem atOnce_pair {b : Nat} (h : 16 ≤ b) (s : State) : s.atOnce b = (s.fld (fPD 28) == 0) := by
  rw [State.atOnce, if_neg (by omega), if_neg (by omega)]

/-- Pairs have no receive half. -/
theorem staged_pair {b : Nat} (h : 12 ≤ b) (code : Nat) (q : Request) (words : List (Nat × Word)) (s : State) :
    staged b code q words s = { s with rehearsals := (staged b code q words s).rehearsals } := by
  rw [staged, setCue_eq, startHalf_none h]
  rfl

section
variable {c : Cmd} {b : Request → Nat} {q : Request} {s u : State} {op : Op} (hp : c.passes q s = true) (h16 : 16 ≤ b q)
  (hbody : c.body q (s.taken q c.code) = .ok (u, .defer op)) (hu : u.regs = (s.taken q c.code).regs)
include hp h16 hbody hu

/-- With a clock the cue waits for its boundary; without one it is carried out at once (R99). -/
theorem cueServed_pair : ((s.taken q c.code).fld (fPD 28) ≠ 0 → cueServed c b q s = .next (settle (place q c.code (.defer op) u))) ∧
    ((s.taken q c.code).fld (fPD 28) = 0 → cueServed c b q s = .next (settle (carryOut (b q) 0 (place q c.code (.defer op) u)))) := by
  have he := serveState_ok hp hbody
  have hpd : (serveState c q s).atOnce (b q) = ((s.taken q c.code).fld (fPD 28) == 0) := by
    rw [atOnce_pair h16, he]
    exact congrArg (· == 0) (State.fld_congr (s := s.taken q c.code) hu _)
  have hready : (serveState c q s).ready = true := by
    rw [he]
    exact (congrArg (· == 7) (State.fld_congr (s := s.taken q c.code) hu _)).trans (passes_ready c q s hp)
  refine ⟨fun h => ?_, fun h => ?_⟩
  · rw [cueServed_waits hp (hpd.trans (beq_false_of_ne h)), he]
  · rw [cueServed_atOnce hp hready (by rw [hpd, h]; rfl), he]

end

/-- A request that opens an implicit session on its pair block. -/
theorem cueServed_implicit {c : Cmd} {q : Request} {s : State} {words : List (Nat × Word)} (hp : c.passes q s = true)
    (hs : (s.taken q c.code).session (16 + fld q.params 0 1) = none)
    (hbody : c.body q (s.taken q c.code) = implicitCue (16 + fld q.params 0 1) c.code q words (s.taken q c.code)) :
    ∃ op : Op, op.org = q.org ∧ op.reply = true ∧ let t := s.taken q c.code
      let u := staged (16 + fld q.params 0 1) c.code q words t
      (t.fld (fPD 28) ≠ 0 → cueServed c (fun q => 16 + fld q.params 0 1) q s = .next (settle (place q c.code (.defer op) u))) ∧
      (t.fld (fPD 28) = 0 → cueServed c (fun q => 16 + fld q.params 0 1) q s =
        .next (settle (carryOut (16 + fld q.params 0 1) 0 (place q c.code (.defer op) u)))) := by
  obtain ⟨op, horg, hreply, himp⟩ := implicitCue_free (code := c.code) (q := q) (words := words) hs
  exact ⟨op, horg, hreply, cueServed_pair (b := fun q => 16 + fld q.params 0 1) hp (Nat.le_add_right 16 _) (hbody.trans himp)
    (by rw [staged_pair (by omega)])⟩

/-- A request that is turned away leaves no session to carry out. -/
theorem turned_cue {c : Cmd} {b : Request → Nat} {x : Request → Instr} {pre : Request → State → Prop} {r : Request → State → Ref}
    (hx : ∀ q s, exec (x q) s = cueServed c b q s)
    (h : ∀ q t, pre q t → t.session (b q) = none ∧ c.body q t = .error (r q t)) : Turned c x pre r := by
  intro q s hp hpre
  obtain ⟨hs, hb⟩ := h q _ hpre
  have he := serveState_error hp hb
  rw [hx, cueServed_alone hp ?_, he]
  rw [he, session_congr (told_refuse _ _ _ _).rehearsals, hs]

/-! ### `PAIR_CREATE` and `PAIR_DELETE` -/

theorem pairWord_fields (ps : List Byte) (p : Nat) (ha : fld ps 1 1 ≤ 3) (hb : fld ps 2 1 ≤ 3) (hw : fld ps 4 2 ≤ 720) : let w := pairWord ps
    (fMRG_CFG_VALID p).of w = 1 ∧ (fMRG_CFG_STORE p).of w = b2n (bit (fld ps 3 1) 0) ∧ (fMRG_CFG_CH_A p).of w = fld ps 1 1 ∧
      (fMRG_CFG_CH_B p).of w = fld ps 2 1 ∧ (fMRG_CFG_HOME p).of w = b2n (bit (fld ps 3 1) 1) ∧ (fMRG_CFG_REVERT p).of w = b2n (bit (fld ps 3 1) 2) ∧
      (fMRG_CFG_GUARD p).of w = fld ps 6 1 ∧ (fMRG_CFG_WTR p).of w = fld ps 4 2 := by
  have h0 := b2n_le (bit (fld ps 3 1) 0)
  have h1 := b2n_le (bit (fld ps 3 1) 1)
  have h2 := b2n_le (bit (fld ps 3 1) 2)
  have hg : fld ps 6 1 < 256 := fld_bytes_lt ps 6 1
  simp only [pairWord]
  generalize b2n (bit (fld ps 3 1) 0) = x0 at *
  generalize b2n (bit (fld ps 3 1) 1) = x1 at *
  generalize b2n (bit (fld ps 3 1) 2) = x2 at *
  generalize fld ps 1 1 = a at *
  generalize fld ps 2 1 = b at *
  generalize fld ps 4 2 = w at *
  generalize fld ps 6 1 = g at *
  have hlt : 1 + 2 * x0 + 4 * (a % 4) + 16 * (b % 4) + 64 * x1 + 128 * x2 + 256 * g + 65536 * (w % 1024) < 2 ^ 32 := by omega
  simp only [Fld.of_ofNat _ _ hlt]
  omega

theorem pairCreate_limits {q : Request} {t : State} (hq : cmdPairCreate.params q.params t = none) :
    fld q.params 1 1 ≤ 3 ∧ fld q.params 2 1 ≤ 3 ∧ fld q.params 4 2 ≤ 720 := by
  have h := (firstBad_none _).1 hq
  simp only [List.forall_mem_cons, Bool.or_eq_false_iff, decide_eq_false_iff_not, not_lt] at h
  obtain ⟨-, ha, hb, -, hw, -⟩ := h
  exact ⟨ha.2, hb.2, hw.2⟩

theorem pairCreate_body {q : Request} {t : State} (hs : t.session (16 + fld q.params 0 1) = none) (hv : t.flag (fMRG_CFG_VALID (fld q.params 0 1)) = false)
    (hf : (bit (fld q.params 3 1) 0 && t.flag fSYS_BOOT_STATUS_HBM_FAIL) = false) : cmdPairCreate.body q t =
      implicitCue (16 + fld q.params 0 1) 0x0300 q [(rMRG_CFG (fld q.params 0 1), pairWord q.params)] t := by
  rw [cmdPairCreate]
  dsimp only
  rw [hs]
  exact if_neg (by simp [hv, hf])

theorem pairDelete_body {q : Request} {t : State} (hs : t.session (16 + fld q.params 0 1) = none) (hv : t.flag (fMRG_CFG_VALID (fld q.params 0 1)) = true) :
    cmdPairDelete.body q t = implicitCue (16 + fld q.params 0 1) 0x0301 q
      [(rMRG_CFG (fld q.params 0 1), (fMRG_CFG_VALID (fld q.params 0 1)).put (t.rd (rMRG_CFG (fld q.params 0 1))) 0)] t := by
  rw [cmdPairDelete]
  dsimp only
  rw [hs]
  exact if_neg (by simp [hv])

theorem exec_pairCreate {q : Request} {s : State} (hp : cmdPairCreate.passes q s = true) : let t := s.taken q cmdPairCreate.code
    let p := fld q.params 0 1
    t.session (16 + p) = none → t.flag (fMRG_CFG_VALID p) = false → (bit (fld q.params 3 1) 0 && t.flag fSYS_BOOT_STATUS_HBM_FAIL) = false →
    ∃ op, op.org = q.org ∧ op.reply = true ∧ let u := staged (16 + p) 0x0300 q [(rMRG_CFG p, pairWord q.params)] t
      (t.fld (fPD 28) ≠ 0 → exec (.pairCreate q) s = .next (settle (place q 0x0300 (.defer op) u))) ∧
      (t.fld (fPD 28) = 0 → exec (.pairCreate q) s = .next (settle (carryOut (16 + p) 0 (place q 0x0300 (.defer op) u)))) := by
  intro t p hs hv hf
  exact cueServed_implicit hp hs (pairCreate_body hs hv hf)

theorem exec_pairDelete {q : Request} {s : State} (hp : cmdPairDelete.passes q s = true) : let t := s.taken q cmdPairDelete.code
    let p := fld q.params 0 1
    t.session (16 + p) = none → t.flag (fMRG_CFG_VALID p) = true →
    ∃ op, op.org = q.org ∧ op.reply = true ∧ let u := staged (16 + p) 0x0301 q [(rMRG_CFG p, (fMRG_CFG_VALID p).put (t.rd (rMRG_CFG p)) 0)] t
      (t.fld (fPD 28) ≠ 0 → exec (.pairDelete q) s = .next (settle (place q 0x0301 (.defer op) u))) ∧
      (t.fld (fPD 28) = 0 → exec (.pairDelete q) s = .next (settle (carryOut (16 + p) 0 (place q 0x0301 (.defer op) u)))) := by
  intro t p hs hv
  exact cueServed_implicit hp hs (pairDelete_body hs hv)

theorem pairCreate_turned : Turned cmdPairCreate .pairCreate (fun q t => t.session (16 + fld q.params 0 1) = none ∧
    (t.flag (fMRG_CFG_VALID (fld q.params 0 1)) = true ∨ (bit (fld q.params 3 1) 0 = true ∧ t.flag fSYS_BOOT_STATUS_HBM_FAIL = true)))
    fun _ _ => { status := stWRONG_STATE } := by
  refine turned_cue (b := fun q => 16 + fld q.params 0 1) (fun _ _ => rfl) fun q t ⟨hs, h⟩ => ⟨hs, ?_⟩
  rw [cmdPairCreate]
  dsimp only
  rw [hs]
  exact if_pos (by simpa using h)

theorem pairDelete_turned : Turned cmdPairDelete .pairDelete (fun q t => t.session (16 + fld q.params 0 1) = none ∧
    t.flag (fMRG_CFG_VALID (fld q.params 0 1)) = false) fun _ _ => { status := stWRONG_STATE } := by
  refine turned_cue (b := fun q => 16 + fld q.params 0 1) (fun _ _ => rfl) fun q t ⟨hs, h⟩ => ⟨hs, ?_⟩
  rw [cmdPairDelete]
  dsimp only
  rw [hs]
  exact if_pos (by rw [h]; rfl)

/-! ### `PAIR_REQUEST`: the registers that follow a pair's requests (R279 to R283) -/

/-- The registers of a pair that its evaluation writes. -/
def pairRegs (p : Nat) : List Nat := [rMRG_STATUS p, rMRG_SEEN p, rMRG_SR_TX p, rMRG_WTR_LEFT p]

section
variable {l : List Nat} {s t u : State} {p : Nat}

theorem OnlyRegs.via (hf : OnlyRegs l s t → OnlyRegs l s u) (h : OnlyRegs l s t) : OnlyRegs l s u := hf h

theorem OnlyRegs.setPair (h : OnlyRegs l s t) {x : MrgSt} : OnlyRegs l s (setPair p x t) := h.trans (.of_regs rfl)

theorem OnlyRegs.count (h : OnlyRegs l s t) {k : Nat} : OnlyRegs l s (count k t) := h.trans (.of_regs rfl)

theorem OnlyRegs.indicate (h : OnlyRegs l s t) {k : Nat} {f : Fld} {on : Bool} (hm : f.reg ∈ l) : OnlyRegs l s (indicate p k f on t) :=
  .ite h ((h.setB on hm).offer _ _ _ _)

theorem OnlyRegs.wtrOff (h : OnlyRegs (pairRegs p) s t) : OnlyRegs (pairRegs p) s (wtrOff p t) :=
  (h.setPair.setB _ (by simp [pairRegs])).setF _ (by simp [pairRegs])

theorem OnlyRegs.wtrRule (h : OnlyRegs (pairRegs p) s t) : OnlyRegs (pairRegs p) s (wtrRule p t) :=
  have hs : rMRG_STATUS p ∈ pairRegs p := by simp [pairRegs]
  have hl : rMRG_WTR_LEFT p ∈ pairRegs p := by simp [pairRegs]
  .ite ((h.setPair.setB _ hs).setF _ hl) (.ite h (.ite h.wtrOff (.ite h (.ite h.wtrOff (((h.setB _ hs).setF _ hl).offer _ _ _ _)))))

theorem OnlyRegs.mrgEval (h : OnlyRegs (pairRegs p) s t) : OnlyRegs (pairRegs p) s (mrgEval p t) :=
  have hs : rMRG_STATUS p ∈ pairRegs p := by simp [pairRegs]
  have he : rMRG_SEEN p ∈ pairRegs p := by simp [pairRegs]
  have hx : rMRG_SR_TX p ∈ pairRegs p := by simp [pairRegs]
  .ite h (.via (fun ht => .via (fun hu => .via (fun hv => .wr (.ite ((hv.indicate hs).indicate hs) ((hv.indicate hs).indicate hs).setPair) _ hx)
    (.ite hu ((hu.setB _ he).count.offer _ _ _ _))) (.ite ((ht.setF _ hs).setB _ hs).setPair ((ht.setF _ hs).setB _ hs)))
    (((h.wtrRule.setPair.setF _ hs).setB _ hs).setF _ hs))

end

theorem pairRequest_writes : Does cmdPairRequest .pairRequest (fun q t => t.flag (fMRG_CFG_VALID (fld q.params 0 1)) = true) fun q t ans u =>
    ans = .done [] ∧ u = mrgEval (fld q.params 0 1) (t.setF (fMRG_OPREQ_OPREQ (fld q.params 0 1)) (fld q.params 1 1)) ∧
      u.fld (fMRG_OPREQ_OPREQ (fld q.params 0 1)) = fld q.params 1 1 := by
  refine does_of (fun _ _ => rfl) fun q t hq h => ⟨_, _, if_neg (by rw [h]; decide), rfl, rfl, ?_⟩
  have hv : fld q.params 1 1 < 16 := by
    have hb := (firstBad_none _).1 hq
    simp only [List.forall_mem_cons, Bool.or_eq_false_iff, Bool.not_eq_false', List.contains_eq_mem, decide_eq_true_eq] at hb
    obtain ⟨-, hb, -⟩ := hb
    have hall : ∀ v ∈ [0x0, 0x8, 0xE, 0xF], v < 16 := by decide
    exact hall _ hb.2
  rw [(OnlyRegs.mrgEval (.refl _ _)).fld (by simp only [rMRG_OPREQ, rCB_STATUS]; omega) (by simp [pairRegs]), State.fld_setF_same _ _ _ (by simp [Fld.ok])]
  exact Nat.mod_eq_of_lt hv

theorem pairRequest_turned : Turned cmdPairRequest .pairRequest (fun q t => t.flag (fMRG_CFG_VALID (fld q.params 0 1)) = false)
    fun _ _ => { status := stWRONG_STATE } :=
  turned_of (fun _ _ => rfl) fun _ _ _ h => if_pos (by rw [h]; rfl)

/-! ### `PAIR_REPORT` and `PAIR_LEDGER_READ` -/

/-- The registers of a pair that `PAIR_REPORT` answers as words. -/
def pairReportRegs (p : Nat) : List Nat := [rMRG_STATUS p, rMRG_DTRACK p, rMRG_DMEAS p, rMRG_OCC p, rMRG_SR_TX p, rMRG_SR_RX p]

/-- The bytes of `PAIR_REPORT`: words, wait-to-restore, counters. -/
def State.pairReport (s : State) (p : Nat) : List Byte :=
  ((pairReportRegs p).flatMap fun r => le 4 (s.rd r).toNat) ++ le 2 (s.rd (rMRG_WTR_LEFT p)).toNat ++ le 2 0 ++
    (span 0 13).flatMap fun k => le 6 ((cntStored s (cPAIR p k)).toNat % 2 ^ 48)

section
variable (s : State) (p : Nat)

theorem pairReport_words_length : ((pairReportRegs p).flatMap fun r => le 4 (s.rd r).toNat).length = 24 := words_length _ _

theorem pairReport_length : (s.pairReport p).length = 106 := by
  have hcounts : ((span 0 13).flatMap fun k => le 6 ((cntStored s (cPAIR p k)).toNat % 2 ^ 48)).length = 78 :=
    flatMap_length _ _ 6 fun _ => le_length _ _
  simp only [State.pairReport, List.length_append, pairReport_words_length, le_length, hcounts]

theorem pairReport_word (k : Nat) (hk : k < 6) :
    fld (s.pairReport p) (4 * k) 4 = (s.rd ((pairReportRegs p)[k]'hk)).toNat := by
  have hw := pairReport_words_length s p
  rw [State.pairReport, List.append_assoc, List.append_assoc, fld_append_left _ _ _ _ (by omega)]
  exact fld_words (pairReportRegs p) s.rd k hk

theorem pairReport_wait : fld (s.pairReport p) 24 2 = (s.rd (rMRG_WTR_LEFT p)).toNat % 65536 := by
  rw [State.pairReport, List.append_assoc, List.append_assoc, fld_middle _ _ _ _ _ (pairReport_words_length s p)]
  rfl

theorem pairReport_count (k : Nat) (hk : k < 13) : fld (s.pairReport p) (28 + 6 * k) 6 = (cntStored s (cPAIR p k)).toNat % 2 ^ 48 := by
  have hlen : (((pairReportRegs p).flatMap fun r => le 4 (s.rd r).toNat) ++ le 2 (s.rd (rMRG_WTR_LEFT p)).toNat ++ le 2 0).length = 28 := by
    simp only [List.length_append, pairReport_words_length, le_length]
  have hspan : k < (span 0 13).length := hk
  rw [State.pairReport, fld_append_right _ _ _ _ (by omega), hlen, Nat.add_sub_cancel_left, fld_flatMap_le _ _ _ _ hspan, getElem_span, Nat.zero_add]
  exact Nat.mod_mod _ _

end

theorem pairReport_answers : Does cmdPairReport .pairReport (fun _ _ => True) fun q t ans u => let p := fld q.params 0 1
    u = t ∧ ∃ ps, ans = .done ps ∧ ps.length = 106 ∧ fld ps 0 4 = (t.rd (rMRG_STATUS p)).toNat ∧ fld ps 4 4 = (t.rd (rMRG_DTRACK p)).toNat ∧
      fld ps 8 4 = (t.rd (rMRG_DMEAS p)).toNat ∧ fld ps 12 4 = (t.rd (rMRG_OCC p)).toNat ∧ fld ps 24 2 = (t.rd (rMRG_WTR_LEFT p)).toNat % 65536 ∧
      ∀ k, k < 13 → fld ps (28 + 6 * k) 6 = (cntStored t (cPAIR p k)).toNat % 2 ^ 48 :=
  does_of (fun _ _ => rfl) fun q t _ _ =>
    have hword := pairReport_word t (fld q.params 0 1)
    ⟨_, t, rfl, rfl, t.pairReport (fld q.params 0 1), rfl, pairReport_length _ _, hword 0 (by decide), hword 1 (by decide), hword 2 (by decide),
      hword 3 (by decide), pairReport_wait _ _, pairReport_count _ _⟩

theorem ledger_bytes_length (e : Ledger) : e.bytes.length = 24 := by simp [Ledger.bytes]

/-- Entries from a frame number on begin with its own. -/
theorem entries_front (x : MrgSt) {fn : Nat} {e : Ledger} (hfn : fn < 2 ^ 48) (h : x.entry fn = some e) (n : Nat) :
    ∃ l, ((span 0 (n + 1)).filterMap fun i => x.entry ((fn + i) % 2 ^ 48)) = e :: l := by
  refine ⟨_, List.filterMap_cons_some ?_⟩
  rw [Nat.add_zero, Nat.mod_eq_of_lt hfn, h]

theorem ledgers_length (l : List Ledger) : (l.flatMap Ledger.bytes).length = 24 * l.length := by
  induction l with
  | nil => rfl
  | cons e l ih =>
    rw [List.flatMap_cons, List.length_append, ledger_bytes_length, ih, List.length_cons]
    omega

theorem pairLedgerRead_answers : Does cmdPairLedgerRead .pairLedgerRead
    (fun q t => ((t.pairSt (fld q.params 0 1)).entry (fld q.params 2 6)).isSome = true) fun q t ans u =>
    u = t ∧ ∃ b e, ans = .done b ∧ (t.pairSt (fld q.params 0 1)).entry (fld q.params 2 6) = some e ∧ slice b 0 24 = e.bytes ∧
      b.length % 24 = 0 ∧ b.length ≤ 24 * fld q.params 1 1 := by
  refine does_of (fun _ _ => rfl) fun q t hq h => ?_
  obtain ⟨e, he⟩ := Option.isSome_iff_exists.1 h
  obtain ⟨l, hl⟩ := entries_front _ (fld_bytes_lt q.params 2 6) he 65535
  obtain ⟨n, hn⟩ : ∃ n, fld q.params 1 1 = n + 1 := by
    have hb := (firstBad_none _).1 hq
    simp only [List.forall_mem_cons, Bool.or_eq_false_iff, beq_eq_false_iff_ne] at hb
    obtain ⟨-, ⟨⟨-, hb⟩, -⟩, -⟩ := hb
    exact Nat.exists_eq_succ_of_ne_zero hb
  refine ⟨.done (((e :: l).take (fld q.params 1 1)).flatMap Ledger.bytes), t, ?_, rfl, _, e, rfl, he, ?_, ?_, ?_⟩
  · rw [cmdPairLedgerRead]
    dsimp only
    rw [he, ← hl]
  · rw [hn, List.take_succ_cons, List.flatMap_cons]
    exact slice_front _ _ _ (ledger_bytes_length e)
  · rw [ledgers_length]
    exact Nat.mul_mod_right _ _
  · rw [ledgers_length]
    exact Nat.mul_le_mul_left 24 (List.length_take_le _ _)

theorem pairLedgerRead_turned : Turned cmdPairLedgerRead .pairLedgerRead
    (fun q t => (t.pairSt (fld q.params 0 1)).entry (fld q.params 2 6) = none) fun _ _ => { status := stWRONG_STATE } := by
  refine turned_of (fun _ _ => rfl) fun q t _ h => ?_
  rw [cmdPairLedgerRead]
  dsimp only
  rw [h]

/-- Settles O39: `PAIR_CREATE` and `PAIR_DELETE` by their implicit sessions, the other requests by their own lemmas above. -/
theorem pairRequests : Obligations.PairRequests := by
  unfold Obligations.PairRequests
  refine ⟨?create, pairCreate_turned, ?delete, pairDelete_turned, pairRequest_writes, pairRequest_turned, pairReport_answers,
    pairLedgerRead_answers, pairLedgerRead_turned⟩
  case create =>
    intro q s hp t p hs hv hf
    obtain ⟨op, horg, hreply, hruns, hdark⟩ := exec_pairCreate hp hs hv hf
    obtain ⟨ha, hb, hw⟩ := pairCreate_limits (passes_params _ q s hp)
    refine ⟨staged (16 + p) 0x0300 q [(rMRG_CFG p, pairWord q.params)] t, op, _, hruns, hdark, horg, hreply, session_staged _ _ _ hs, rfl, rfl, rfl,
      staged_pair (by omega) _ _ _ _, ?_⟩
    dsimp only
    rw [bankRd_staged]
    exact pairWord_fields q.params p ha hb hw
  case delete =>
    intro q s hp t p hs hv
    obtain ⟨op, horg, hreply, hruns, hdark⟩ := exec_pairDelete hp hs hv
    refine ⟨staged (16 + p) 0x0301 q [(rMRG_CFG p, (fMRG_CFG_VALID p).put (t.rd (rMRG_CFG p)) 0)] t, op, _, hruns, hdark, horg, hreply,
      session_staged _ _ _ hs, rfl, staged_pair (by omega) _ _ _ _, bankRd_staged _ _ _⟩

end Sys2Proof.Machine
end

/-! # Links of the fabric (R382 to R386) -/
section
namespace Sys2Proof.Machine

open Sys2Proof

/-! ### One of several in turn -/

theorem each_append {α β : Type} (l r : List β) (f : β → α → α) (a : α) : each (l ++ r) f a = each r f (each l f a) := List.foldl_append

/-- What is done for each of the numbers, about one of them. -/
theorem each_span_about {α : Type} {x n : Nat} (h : x < n) (f : Nat → α → α) (a : α) :
    each (span 0 n) f a = each (span (x + 1) (n - x - 1)) f (f x (each (span 0 x) f a)) := by
  rw [span_split 0 n x h, each_append, Nat.zero_add]
  rfl

/-- What each step keeps, all of them keep. -/
theorem each_keeps {α β : Type} (P : α → Prop) (l : List β) (f : β → α → α) (hf : ∀ x ∈ l, ∀ a, P a → P (f x a)) (a : α) (ha : P a) :
    P (each l f a) := by
  induction l generalizing a with
  | nil => exact ha
  | cons x l ih => exact ih (fun y hy => hf y (List.mem_cons_of_mem x hy)) _ (hf x List.mem_cons_self a ha)

theorem ch4_of_lt {n : Nat} (h : n < 4) : (ch4 n).val = n := Nat.mod_eq_of_lt h

theorem ch4_apart {m : Nat} {n : Ch} (hm : m < 4) (h : m ≠ n.val) : ch4 m ≠ n := fun e => h (by rw [← e, ch4_of_lt hm])

/-! ### Packets to links (R386, R391) -/

theorem link_congr {s t : State} (h : t.fab = s.fab) (n : Nat) : t.link n = s.link n := by rw [State.link, State.link, h]

theorem link_setLink (n : Nat) (l : FabLink) (s : State) : (s.setLink n l).link n = l := Four.get_set_same _ _ _

theorem link_setLink_other {m : Nat} {n : Ch} (hm : m < 4) (h : m ≠ n.val) (l : FabLink) (s : State) : (s.setLink m l).link n = s.link n :=
  Four.get_set_other _ _ _ _ (by rw [ch4_val]; exact (ch4_apart hm h).symm)

theorem leafFor_congr {s t : State} (h : t.regs = s.regs) (n : Nat) (pkt : List Byte) : t.leafFor n pkt = s.leafFor n pkt := by
  rw [State.leafFor, State.leafFor, State.fld_congr h]

theorem linkSendTo_room {n leaf : Nat} {pkt : List Byte} {s : State} (hst : s.linkSt n = 2 ∨ s.linkSt n = 3 ∨ s.linkSt n = 4)
    (hroom : (s.link n).waiting + pkt.length ≤ 32768) :
    linkSendTo n leaf pkt s = s.setLink n { s.link n with txq := (s.link n).txq ++ [(leaf, pkt)] } := by
  refine if_pos ?_
  rw [Bool.and_eq_true, Bool.or_eq_true, Bool.or_eq_true, decide_eq_true_eq, decide_eq_true_eq, decide_eq_true_eq, decide_eq_true_eq, or_assoc]
  exact ⟨hst, hroom⟩

theorem linkSendTo_full {n leaf : Nat} {pkt : List Byte} {s : State} (hroom : ¬ (s.link n).waiting + pkt.length ≤ 32768) :
    linkSendTo n leaf pkt s = count (cCH n 44) s := by
  refine if_neg ?_
  rw [Bool.and_eq_true, decide_eq_true_eq]
  exact fun h => hroom h.2

theorem linkSendTo_other (n leaf : Nat) (pkt : List Byte) (s : State) : linkSendTo n leaf pkt s =
    { s with fab := { s.fab with links := (linkSendTo n leaf pkt s).fab.links }, cnt := (linkSendTo n leaf pkt s).cnt } := by
  unfold linkSendTo
  dsimp only
  split <;> rfl

/-- Between two states other links than n have been at work: registers, link n and its count of discards are as they were. -/
structure Elsewhere (n : Ch) (s t : State) : Prop where
  regs : t.regs = s.regs
  link : t.link n = s.link n
  counter : t.counter (cCH n 44) = s.counter (cCH n 44)

theorem Elsewhere.refl (n : Ch) (s : State) : Elsewhere n s s := ⟨rfl, rfl, rfl⟩

theorem Elsewhere.trans {n : Ch} {s t u : State} (h : Elsewhere n s t) (h' : Elsewhere n t u) : Elsewhere n s u :=
  ⟨h'.regs.trans h.regs, h'.link.trans h.link, h'.counter.trans h.counter⟩

theorem elsewhere_linkSendTo {m : Nat} {n : Ch} (hm : m < 4) (h : m ≠ n.val) (leaf : Nat) (pkt : List Byte) (s : State) :
    Elsewhere n s (linkSendTo m leaf pkt s) := by
  unfold linkSendTo
  dsimp only
  split
  · exact ⟨rfl, link_setLink_other hm h _ s, rfl⟩
  · exact ⟨rfl, rfl, counter_countN_other _ _ _ _ (by simp only [cCH]; omega)⟩

/-- A packet for every link but one, at one of them. -/
def sendStep (edge : Bool) (but : Nat) (pkt : List Byte) (n : Nat) (s : State) : State :=
  if n = but then s
  else if s.fld (fFAB_LINK_STATUS_STATE n) = 2 || (edge && s.fld (fFAB_LINK_STATUS_STATE n) = 3) then linkSend n pkt s else s

theorem sendAll_eq (edge : Bool) (but : Nat) (pkt : List Byte) (s : State) : sendAll edge but pkt s = each (span 0 4) (sendStep edge but pkt) s := rfl

theorem elsewhere_sendSteps {n : Ch} {l : List Nat} (hl : ∀ m ∈ l, m < 4 ∧ m ≠ n.val) (edge : Bool) (but : Nat) (pkt : List Byte) (s : State) :
    Elsewhere n s (each l (sendStep edge but pkt) s) := by
  refine each_keeps (Elsewhere n s) l _ (fun m hm u hu => ?_) s (.refl n s)
  unfold sendStep
  split
  · exact hu
  · split
    · exact hu.trans (elsewhere_linkSendTo (hl m hm).1 (hl m hm).2 _ _ _)
    · exact hu

/-- A packet for every link as one link sees it: the links before and after it leave it alone. -/
theorem sendAll_at (edge : Bool) (but : Nat) (pkt : List Byte) (n : Ch) (s : State) :
    ∃ u, Elsewhere n s u ∧ Elsewhere n (sendStep edge but pkt n u) (sendAll edge but pkt s) := by
  refine ⟨each (span 0 n) (sendStep edge but pkt) s, elsewhere_sendSteps (fun m hm => ?_) _ _ _ _, ?_⟩
  · have hlt : m < n := by have := (mem_span _ _ _).1 hm; omega
    exact ⟨hlt.trans n.isLt, hlt.ne⟩
  · rw [sendAll_eq, each_span_about n.isLt]
    refine elsewhere_sendSteps (fun m hm => ?_) _ _ _ _
    have := (mem_span _ _ _).1 hm
    omega

theorem sendAll_link (edge : Bool) (but : Nat) (pkt : List Byte) (n : Ch) (s : State) : let t := sendAll edge but pkt s
    let on := n.val ≠ but ∧ (s.linkSt n = 2 ∨ (edge = true ∧ s.linkSt n = 3))
    let room := (s.link n).waiting + pkt.length ≤ 32768
    t.regs = s.regs ∧ (on → room → (t.link n).txq = (s.link n).txq ++ [(s.leafFor n pkt, pkt)]) ∧
      (on → ¬ room → t.link n = s.link n ∧ Counted (cCH n 44) 1 s t) ∧ (¬ on → t.link n = s.link n) := by
  intro t on room
  obtain ⟨u, hu, ht⟩ := sendAll_at edge but pkt n s
  have hstate : u.fld (fFAB_LINK_STATUS_STATE n) = s.linkSt n := State.fld_congr hu.regs _
  have hsent : on → sendStep edge but pkt n u = linkSendTo n (s.leafFor n pkt) pkt u := fun ⟨hb, hst⟩ => by
    rw [sendStep, if_neg hb, hstate, if_pos (by simpa using hst), linkSend, leafFor_congr hu.regs]
  have hquiet : ¬ on → sendStep edge but pkt n u = u := fun h => by
    rw [sendStep, hstate]
    split
    · rfl
    next hb => exact if_neg fun hst => h ⟨hb, by simpa using hst⟩
  have hregs : (sendStep edge but pkt n u).regs = u.regs := by
    by_cases h : on
    · rw [hsent h, linkSendTo_other]
    · rw [hquiet h]
  refine ⟨ht.regs.trans (hregs.trans hu.regs), fun h hr => ?_, fun h hr => ?_, fun h => ?_⟩
  · have hst : u.linkSt n = 2 ∨ u.linkSt n = 3 ∨ u.linkSt n = 4 := by
      rw [show u.linkSt n = s.linkSt n from hstate]
      exact h.2.imp_right fun h3 => .inl h3.2
    rw [ht.link, hsent h, linkSendTo_room hst (by rwa [hu.link]), link_setLink, hu.link]
  · have hfull := hsent h
    rw [linkSendTo_full (by rwa [hu.link])] at hfull
    rw [Counted, ht.link, ht.counter, hfull, count, counter_countN, hu.counter]
    exact ⟨hu.link, rfl⟩
  · rw [ht.link, hquiet h, hu.link]

theorem sendAll_other (edge : Bool) (but : Nat) (pkt : List Byte) (s : State) : sendAll edge but pkt s =
    { s with fab := { s.fab with links := (sendAll edge but pkt s).fab.links }, cnt := (sendAll edge but pkt s).cnt } := by
  refine each_keeps (fun u => u = { s with fab := { s.fab with links := u.fab.links }, cnt := u.cnt }) _ _ (fun m _ u hu => ?_) s rfl
  split
  · exact hu
  · split
    · rw [linkSend]
      refine (linkSendTo_other m (u.leafFor m pkt) pkt u).trans ?_
      generalize linkSendTo m (u.leafFor m pkt) pkt u = v
      rw [hu]
    · exact hu

/-! ### Links that go down or take another form (R382, R385, R395) -/

theorem linkSt_congr {s t : State} {n : Nat} (h : t.rd (rFAB_LINK_STATUS n) = s.rd (rFAB_LINK_STATUS n)) : t.linkSt n = s.linkSt n :=
  congrArg (fFAB_LINK_STATUS_STATE n).of h

/-- Between two states links of the first four have changed their states, and routes have gone with them: no other register has changed, and no
forwarded request. -/
structure LinkWork (s t : State) : Prop where
  rd : ∀ off, isRouteReg off = false → off ≠ rCB_STATUS → off ≠ rFAB_STATUS → (∀ n, n < 4 → off ≠ rFAB_LINK_STATUS n) → t.rd off = s.rd off
  offered : t.fld fFAB_STATUS_OFFERED = s.fld fFAB_STATUS_OFFERED
  fwd : t.fab.fwd = s.fab.fwd

section
variable {s t u : State}

theorem LinkWork.refl (s : State) : LinkWork s s := ⟨fun _ _ _ _ _ => rfl, rfl, rfl⟩

theorem LinkWork.trans (h : LinkWork s t) (h' : LinkWork t u) : LinkWork s u :=
  ⟨fun off h1 h2 h3 h4 => (h'.rd off h1 h2 h3 h4).trans (h.rd off h1 h2 h3 h4), h'.offered.trans h.offered, h'.fwd.trans h.fwd⟩

theorem LinkWork.of_regs (hr : t.regs = s.regs) (hf : t.fab.fwd = s.fab.fwd) : LinkWork s t :=
  ⟨fun off _ _ _ _ => State.rd_congr hr off, State.fld_congr hr _, hf⟩

end

/-- Routes that go take their own registers with them. -/
theorem rd_filterRoutes (p : Nat × Word → Bool) (s : State) (off : Nat) (h : isRouteReg off = false) :
    smGet resetWord (s.regs.filter fun e => !(isRouteReg e.1 && p e)) off = s.rd off := by
  have hl : smLookup (s.regs.filter fun e => !(isRouteReg e.1 && p e)) off = smLookup s.regs off :=
    smLookup_filter_entries _ _ _ fun v => by simp only [h, Bool.false_and, Bool.not_false]
  rw [smGet, hl]
  rfl

theorem rd_dropRoutes (n : Nat) (s : State) (off : Nat) (h : isRouteReg off = false) (hs : off ≠ rFAB_STATUS) : (dropRoutes n s).rd off = s.rd off :=
  (State.rd_setF_other _ _ _ _ hs).trans (rd_filterRoutes _ s off h)

theorem linkWork_dropRoutes (n : Nat) (s : State) : LinkWork s (dropRoutes n s) :=
  ⟨fun off h1 _ h3 _ => rd_dropRoutes n s off h1 h3,
    (State.fld_setF_apart _ _ _ _ (by decide) (by decide)).trans (congrArg fFAB_STATUS_OFFERED.of (rd_filterRoutes _ s rFAB_STATUS (by decide))), rfl⟩

/-- The status registers of links are none of the routes', and none of the part's. -/
theorem linkStatus_apart {n : Nat} (h : n < 4) : isRouteReg (rFAB_LINK_STATUS n) = false ∧ rFAB_LINK_STATUS n ≠ rCB_STATUS ∧
    rFAB_LINK_STATUS n ≠ rFAB_STATUS ∧ rFAB_LINK_STATUS n ∉ answerRegs := by
  have hall : ∀ n : Fin 4, isRouteReg (rFAB_LINK_STATUS n) = false ∧ rFAB_LINK_STATUS n ≠ rCB_STATUS ∧ rFAB_LINK_STATUS n ≠ rFAB_STATUS ∧
      rFAB_LINK_STATUS n ∉ answerRegs := by decide
  exact hall ⟨n, h⟩

theorem linkWork_linkState {n : Nat} (hn : n < 4) (st : Nat) (s : State) : LinkWork s (linkState n st s) := by
  unfold linkState
  split
  · exact .refl s
  · refine ⟨fun off _ h2 _ h4 => ?_, ?_, by rw [offer_fab]; rfl⟩
    · rw [rd_offer _ _ _ _ _ _ h2, State.rd_setF_other _ _ _ _ (h4 n hn)]
    · rw [fld_offer _ _ _ _ _ _ (by decide), State.fld_setF_reg _ _ _ _ (linkStatus_apart hn).2.2.1.symm]

theorem linkSt_linkState {n st : Nat} (hn : n < 4) (hst : st < 8) (s : State) : (linkState n st s).linkSt n = st := by
  unfold linkState
  split
  next h => exact h
  · rw [State.linkSt, fld_offer _ _ _ _ _ _ (linkStatus_apart hn).2.1, State.fld_setF_same _ _ _ (by simp [Fld.ok])]
    exact Nat.mod_eq_of_lt hst

theorem linkSt_linkState_other {n m st : Nat} (hm : m < 4) (h : m ≠ n) (s : State) : (linkState n st s).linkSt m = s.linkSt m := by
  unfold linkState
  split
  · rfl
  · rw [State.linkSt, fld_offer _ _ _ _ _ _ (linkStatus_apart hm).2.1, State.fld_setF_reg _ _ _ _ (by simp only [rFAB_LINK_STATUS]; omega), State.linkSt]

/-- A link with nothing under way. -/
def FabLink.emptied (l : FabLink) (st : Nat) : FabLink :=
  { l with txq := [], txSent := 0, staged := [], rx := none, skip := false, lastCtl := none,
           epoch := if st = 1 then (l.epoch + 1) % 16 else l.epoch, sent := 0, far := 0, rel := 0 }

/-- A link that goes down, but for its state. -/
def linkEmptied (n st : Nat) (s : State) : State :=
  dropRoutes n (countN (cCH n 44) ((s.link n).txq.length + (if (s.link n).rx.isSome then 1 else 0)) (s.setLink n ((s.link n).emptied st)))

theorem linkDown_eq (n st : Nat) (s : State) : linkDown n st s = linkState n st (linkEmptied n st s) := rfl

theorem linkWork_linkEmptied (n st : Nat) (s : State) : LinkWork s (linkEmptied n st s) := by
  refine LinkWork.trans ?_ (linkWork_dropRoutes _ _)
  exact .of_regs rfl rfl

theorem linkWork_linkDown {n : Nat} (hn : n < 4) (st : Nat) (s : State) : LinkWork s (linkDown n st s) :=
  (linkWork_linkEmptied n st s).trans (linkWork_linkState hn st _)

theorem linkSt_linkEmptied {m : Nat} (hm : m < 4) (n st : Nat) (s : State) : (linkEmptied n st s).linkSt m = s.linkSt m :=
  have hm := linkStatus_apart hm
  linkSt_congr (rd_dropRoutes _ _ _ hm.1 hm.2.2.1)

theorem linkSt_linkDown {n m st : Nat} (hn : n < 4) (hm : m < 4) (hst : st < 8) (s : State) :
    (linkDown n st s).linkSt m = if m = n then st else s.linkSt m := by
  rw [linkDown_eq]
  split
  next h =>
    subst h
    exact linkSt_linkState hn hst _
  next h => rw [linkSt_linkState_other hm h, linkSt_linkEmptied hm]

theorem linkWork_each {f : Nat → State → State} (hf : ∀ n, n < 4 → ∀ u, LinkWork u (f n u)) (s : State) : LinkWork s (each (span 0 4) f s) :=
  each_keeps (LinkWork s) _ _ (fun n hn u hu => hu.trans (hf n (by have := (mem_span _ _ _).1 hn; omega) u)) s (.refl s)

/-- A link that was UP or BOUNDARY goes down with a change of domain. -/
def domainStep (n : Nat) (s : State) : State := if s.linkSt n = 2 || s.linkSt n = 3 then linkDown n 1 s else s

theorem domainChanged_eq {dom : Nat} {s : State} (h : s.fld fFAB_CTRL_DOMAIN ≠ dom) : domainChanged dom s = each (span 0 4) domainStep s := if_neg h

theorem linkWork_domainChanged (dom : Nat) (s : State) : LinkWork s (domainChanged dom s) := by
  by_cases h : s.fld fFAB_CTRL_DOMAIN = dom
  · rw [domainChanged, if_pos h]
    exact .refl s
  · rw [domainChanged_eq h]
    refine linkWork_each (fun n hn u => ?_) s
    unfold domainStep
    split
    · exact linkWork_linkDown hn _ _
    · exact .refl u

theorem linkSt_domainStep {n m : Nat} (hn : n < 4) (hm : m < 4) (s : State) : (domainStep n s).linkSt m =
    if m = n ∧ (s.linkSt m = 2 ∨ s.linkSt m = 3) then 1 else s.linkSt m := by
  unfold domainStep
  by_cases h : s.linkSt n = 2 ∨ s.linkSt n = 3
  · rw [if_pos (by simpa using h), linkSt_linkDown hn hm (by decide)]
    by_cases hmn : m = n
    · subst hmn
      simp [h]
    · simp [hmn]
  · rw [if_neg (by simpa using h)]
    by_cases hmn : m = n
    · subst hmn
      simp [h]
    · simp [hmn]

theorem linkSt_domainChanged {dom m : Nat} (hm : m < 4) {s : State} (h : s.fld fFAB_CTRL_DOMAIN ≠ dom) :
    (domainChanged dom s).linkSt m = if s.linkSt m = 2 ∨ s.linkSt m = 3 then 1 else s.linkSt m := by
  have hkeep : ∀ l : List Nat, (∀ n ∈ l, n < 4 ∧ n ≠ m) → ∀ u, (each l domainStep u).linkSt m = u.linkSt m := fun l hl u =>
    each_keeps (fun v => v.linkSt m = u.linkSt m) l _ (fun n hn v hv => by
      rw [linkSt_domainStep (hl n hn).1 hm, if_neg fun e => (hl n hn).2 e.1.symm, hv]) u rfl
  rw [domainChanged_eq h, each_span_about hm, hkeep _ (fun n hn => by have := (mem_span _ _ _).1 hn; omega), linkSt_domainStep hm hm,
    hkeep _ (fun n hn => by have := (mem_span _ _ _).1 hn; omega)]
  simp

theorem linkForm_values (s : State) (n : Nat) : s.linkForm n = 0 ∨ s.linkForm n = 1 ∨ s.linkForm n = 4 ∨ s.linkForm n = 5 := by
  unfold State.linkForm
  split
  · exact .inl rfl
  · split
    · exact .inr (.inr (.inl rfl))
    · split
      · exact .inr (.inr (.inr rfl))
      · exact .inr (.inl rfl)

theorem linkWork_linkRefresh {n : Nat} (hn : n < 4) (s : State) : LinkWork s (linkRefresh n s) := by
  unfold linkRefresh
  dsimp only
  split
  · split
    · exact .refl s
    · exact linkWork_linkDown hn _ _
  · split
    · exact .refl s
    · exact linkWork_linkDown hn _ _

theorem linkWork_fabRefresh (s : State) : LinkWork s (fabRefresh s) := linkWork_each (fun _ hn u => linkWork_linkRefresh hn u) s

/-- Following the configuration brings no link UP. -/
theorem linkSt_linkRefresh {n m : Nat} (hn : n < 4) (hm : m < 4) (s : State) : (linkRefresh n s).linkSt m = s.linkSt m ∨
    ((linkRefresh n s).linkSt m ≠ 2 ∧ (linkRefresh n s).linkSt m ≠ 3) := by
  have hdown : ∀ st, st = 0 ∨ st = 1 ∨ st = 4 ∨ st = 5 → (linkDown n st s).linkSt m = s.linkSt m ∨
      ((linkDown n st s).linkSt m ≠ 2 ∧ (linkDown n st s).linkSt m ≠ 3) := fun st hst => by
    rw [linkSt_linkDown hn hm (by omega)]
    split
    · exact .inr (by omega)
    · exact .inl rfl
  unfold linkRefresh
  dsimp only
  split
  · split
    · exact .inl rfl
    · exact hdown 1 (.inr (.inl rfl))
  · split
    · exact .inl rfl
    · exact hdown _ (linkForm_values s n)

theorem linkSt_fabRefresh {m : Nat} (hm : m < 4) (s : State) (h : s.linkSt m ≠ 2 ∧ s.linkSt m ≠ 3) :
    (fabRefresh s).linkSt m ≠ 2 ∧ (fabRefresh s).linkSt m ≠ 3 :=
  each_keeps (fun u => u.linkSt m ≠ 2 ∧ u.linkSt m ≠ 3) _ _ (fun n hn u hu => by
    rcases linkSt_linkRefresh (n := n) (by have := (mem_span _ _ _).1 hn; omega) hm u with e | e
    · rwa [e]
    · exact e) s h

end Sys2Proof.Machine
end

/-! # Routes of the fabric (R390) -/
section
namespace Sys2Proof.Machine

open Sys2Proof

/-! ### The reset value of a route -/

/-- A row of the register table has no copy among the routes. -/
def routeFree (r : RegSpec) : Bool :=
  r.scope != .glob || decide (0x18000 ≤ r.base) || (decide (r.base < 0x14000) && decide (r.base + r.stride * r.count ≤ 0x14000))

theorem regIndex_routeFree {r : RegSpec} (h : routeFree r = true) (hs : r.scope = .glob) {off : Nat} (hlo : 0x14000 ≤ off) (hhi : off < 0x18000) :
    regIndex r off = none := by
  simp only [routeFree, hs, bne_self_eq_false, Bool.false_or, Bool.or_eq_true, Bool.and_eq_true, decide_eq_true_eq] at h
  rcases h with h | ⟨hb, hc⟩
  · exact if_pos (by omega)
  · rw [regIndex, if_neg (by omega), if_neg (by omega)]
    split
    · rfl
    next hz =>
      refine if_neg fun hi => ?_
      simp only [Bool.and_eq_true, decide_eq_true_eq] at hi
      have hlt := (Nat.div_lt_iff_lt_mul (Nat.pos_of_ne_zero hz)).1 hi.2
      rw [Nat.mul_comm] at hlt
      omega

theorem regFind_route {spec : RegSpec} {l : List RegSpec} (h : (l.find? fun r => !routeFree r) = some spec) {off i : Nat} (hlo : 0x14000 ≤ off)
    (hhi : off < 0x18000) (hs : spec.scope = .glob) (hi : regIndex spec off = some i) (unit : Nat) : regFind .glob unit off l = some ⟨spec, unit, i⟩ := by
  induction l with
  | nil => cases h
  | cons r l ih =>
    cases hr : routeFree r with
    | false =>
      rw [List.find?_cons_of_pos (by rw [hr]; rfl)] at h
      cases h
      rw [regFind, if_pos hs, hi]
    | true =>
      rw [List.find?_cons_of_neg (by rw [hr]; decide)] at h
      rw [regFind]
      split
      next hg => rw [regIndex_routeFree hr hg hlo hhi, ih h]
      · exact ih h

/-- The row of the routes in the register table. -/
def routeSpec : RegSpec := ⟨"FAB_ROUTE", 0x14000, 4, 4096, .glob, [⟨2, 0, .ro, 6, .none⟩, ⟨10, 3, .ro, 0, .none⟩, ⟨11, 11, .ro, 0, .none⟩]⟩

theorem find?_routeSpec : (regTable.find? fun r => !routeFree r) = some routeSpec := by decide +kernel

theorem regIndex_route {k : Nat} (h : k < 4096) : regIndex routeSpec (rFAB_ROUTE k) = some k := by
  cases k with
  | zero => rfl
  | succ k =>
    have hsub : rFAB_ROUTE (k + 1) - routeSpec.base = 4 * (k + 1) := Nat.add_sub_cancel_left _ _
    have hlo : ¬ rFAB_ROUTE (k + 1) < routeSpec.base := Nat.not_lt.2 (Nat.le_add_right _ _)
    have hne : rFAB_ROUTE (k + 1) ≠ routeSpec.base := by simp only [rFAB_ROUTE, routeSpec]; omega
    rw [regIndex, if_neg hlo, if_neg hne, if_neg (by decide), hsub]
    simp [routeSpec, h]

/-- No route at reset. -/
theorem resetWord_route {k : Nat} (h : k < 4096) : resetWord (rFAB_ROUTE k) = 6#32 := by
  have hat : regAt (rFAB_ROUTE k) = some ⟨routeSpec, 0, k⟩ := by
    have hfind := regFind_route find?_routeSpec (off := rFAB_ROUTE k) (Nat.le_add_right _ _) (by simp only [rFAB_ROUTE]; omega) rfl (regIndex_route h) 0
    rw [regAt, if_pos (by simp only [rFAB_ROUTE, fnBase]; omega), if_neg (by simp only [rFAB_ROUTE, Bool.and_eq_true, decide_eq_true_eq]; omega), hfind]
  rw [resetWord, hat]
  rfl

/-! ### Routes among the registers -/

theorem route_apart {k : Nat} (h : k < 4096) : isRouteReg (rFAB_ROUTE k) = true ∧ rFAB_ROUTE k ∉ answerRegs ∧ rFAB_ROUTE k ≠ rFAB_STATUS ∧
    rFAB_ROUTE k ≠ rCB_STATUS := by
  have hans : ∀ off ∈ answerRegs, off < 0x14000 ∨ 0x18000 ≤ off := by decide
  refine ⟨?_, fun hm => ?_, ?_, ?_⟩
  · simp only [isRouteReg, rFAB_ROUTE, Bool.and_eq_true, decide_eq_true_eq]
    omega
  · have := hans _ hm
    simp only [rFAB_ROUTE] at this
    omega
  · simp only [rFAB_ROUTE, rFAB_STATUS]
    omega
  · simp only [rFAB_ROUTE, rCB_STATUS]
    omega

/-- The word of a route. -/
def routeEntry (n hops : Nat) : Word := (fFAB_ROUTE_VALID 0).put ((fFAB_ROUTE_HOPS 0).put ((fFAB_ROUTE_LINK 0).put 0#32 n) hops) 1

theorem routeEntry_fields (k : Nat) {n hops : Nat} (hn : n < 8) (hh : hops < 256) : (fFAB_ROUTE_VALID k).of (routeEntry n hops) = 1 ∧
    (fFAB_ROUTE_LINK k).of (routeEntry n hops) = n ∧ (fFAB_ROUTE_HOPS k).of (routeEntry n hops) = hops := by
  refine ⟨Fld.of_put_same (fFAB_ROUTE_VALID 0) (by decide) _ 1, ?_, ?_⟩
  · refine (Fld.of_put_apart (fFAB_ROUTE_VALID 0) (fFAB_ROUTE_LINK 0) (by decide) (by decide) _ _).trans ?_
    rw [Fld.of_put_apart _ _ (by decide) (by decide), Fld.of_put_same _ (by decide)]
    exact Nat.mod_eq_of_lt hn
  · refine (Fld.of_put_apart (fFAB_ROUTE_VALID 0) (fFAB_ROUTE_HOPS 0) (by decide) (by decide) _ _).trans ?_
    rw [Fld.of_put_same _ (by decide)]
    exact Nat.mod_eq_of_lt hh

/-! ### Routes that are learnt and that expire -/

theorem sent_wakeNotice (s : State) : Sent s (wakeNotice s) := by
  unfold wakeNotice
  split
  · exact .refl s
  · split
    · exact .refl s
    · split
      · exact .refl s
      · exact sent_endOp _ _ _ _ (by decide)

/-- What the part knows of a route beside its register. -/
def State.routeKnown (s : State) (num : BitVec 32) : RouteX := ⟨num, s.life + BitVec.ofNat 64 (3 * s.advNs)⟩

theorem learnRoute_eq (x n hops : Nat) (num : BitVec 32) (s : State) : learnRoute x n hops num s =
    wakeNotice (countRoutes { s.wr (rFAB_ROUTE (x - 1)) (routeEntry n hops) with
      fab := { s.fab with routes := smSet (fun _ => none) s.fab.routes x (some (s.routeKnown num)) } }) := rfl

theorem rd_learnRoute {x : Nat} (h1 : 1 ≤ x) (h2 : x ≤ 4096) (n hops : Nat) (num : BitVec 32) (s : State) :
    (learnRoute x n hops num s).rd (rFAB_ROUTE (x - 1)) = routeEntry n hops := by
  obtain ⟨-, hans, hst, -⟩ := route_apart (k := x - 1) (by omega)
  rw [learnRoute_eq, (sent_wakeNotice _).rd _ hans, countRoutes, State.rd_setF_other _ _ _ _ hst]
  exact State.rd_wr_same s _ _

theorem routes_learnRoute (x n hops : Nat) (num : BitVec 32) (s : State) :
    smGet (fun _ => none) (learnRoute x n hops num s).fab.routes x = some (s.routeKnown num) := by
  rw [learnRoute_eq, (sent_wakeNotice _).routes, countRoutes, State.setF_fab]
  dsimp only
  rw [smGet_smSet_same]

theorem learnRoute_learns {x hops : Nat} (n : Ch) (num : BitVec 32) (s : State) (h1 : 1 ≤ x) (h2 : x ≤ 4096) (hh : hops < 256) :
    let t := learnRoute x n hops num s
    t.flag (fFAB_ROUTE_VALID (x - 1)) = true ∧ t.fld (fFAB_ROUTE_LINK (x - 1)) = n ∧ t.fld (fFAB_ROUTE_HOPS (x - 1)) = hops ∧
      smGet (fun _ => none) t.fab.routes x = some ⟨num, s.life + BitVec.ofNat 64 (3 * s.advNs)⟩ := by
  intro t
  obtain ⟨hvalid, hlink, hhops⟩ := routeEntry_fields (x - 1) (show n.val < 8 by omega) hh
  have hrd : t.rd (rFAB_ROUTE (x - 1)) = routeEntry n hops := rd_learnRoute h1 h2 _ _ _ _
  refine ⟨?_, ?_, ?_, routes_learnRoute _ _ _ _ _⟩
  · rw [State.flag, State.fld, hrd, hvalid]
    rfl
  · rw [State.fld, hrd, hlink]
  · rw [State.fld, hrd, hhops]

/-- A route that has gone. -/
def dropRoute (x : Nat) (s : State) : State :=
  countRoutes { s.unreg (rFAB_ROUTE (x - 1)) with fab := { s.fab with routes := smDel s.fab.routes x } }

theorem exec_routeExpiry {x : Nat} {e : RouteX} {s : State} (he : smGet (fun _ => none) s.fab.routes x = some e) :
    exec (.routeExpiry x) s = .next (settle (if e.expiry.toNat ≤ s.life.toNat then dropRoute x s else s)) := by
  change execRouteExpiry x s = _
  rw [execRouteExpiry, he]
  dsimp only
  by_cases h : e.expiry.toNat ≤ s.life.toNat
  · rw [if_pos h, if_pos (BitVec.le_def.2 h)]
    rfl
  · rw [if_neg h, if_neg fun hb => h (BitVec.le_def.1 hb)]
    rfl

theorem exec_routeExpiry_unknown {x : Nat} {s : State} (he : smGet (fun _ => none) s.fab.routes x = none) :
    exec (.routeExpiry x) s = .next (settle s) := by
  change execRouteExpiry x s = _
  rw [execRouteExpiry, he]
  rfl

theorem dropRoute_gone {x : Nat} (h1 : 1 ≤ x) (h2 : x ≤ 4096) (s : State) : (dropRoute x s).flag (fFAB_ROUTE_VALID (x - 1)) = false ∧
    smGet (fun _ => none) (dropRoute x s).fab.routes x = none ∧ OnlyRegs [rFAB_ROUTE (x - 1), rFAB_STATUS] s (dropRoute x s) := by
  have hk : x - 1 < 4096 := by omega
  refine ⟨?_, smGet_smDel_same _ _ _, ?_⟩
  · have hrd : (dropRoute x s).rd (rFAB_ROUTE (x - 1)) = 6#32 := by
      rw [dropRoute, countRoutes, State.rd_setF_other _ _ _ _ (route_apart hk).2.2.1]
      exact (State.rd_unreg_same s _).trans (resetWord_route hk)
    rw [State.flag, State.fld, hrd]
    rfl
  · have hu : OnlyRegs [rFAB_ROUTE (x - 1), rFAB_STATUS] s (s.unreg (rFAB_ROUTE (x - 1))) := (OnlyRegs.refl _ s).unreg List.mem_cons_self
    exact (hu.trans (.of_regs rfl)).setF _ (List.mem_cons_of_mem _ List.mem_cons_self)

/-! ### Advertisements -/

/-- An advertisement is newer than what the part knows of a route. -/
def State.routeFresh (s : State) (x hops : Nat) (num : BitVec 32) : Bool :=
  match smGet (fun _ => none) s.fab.routes x with
  | none => true
  | some e => !s.flag (fFAB_ROUTE_VALID (x - 1)) || decide (e.expiry ≤ s.life) || newer num e.num ||
      (decide (num = e.num) && decide (hops < s.fld (fFAB_ROUTE_HOPS (x - 1))))

theorem routeFresh_iff (s : State) (x hops : Nat) (num : BitVec 32) : s.routeFresh x hops num = true ↔
    smGet (fun _ => none) s.fab.routes x = none ∨ s.flag (fFAB_ROUTE_VALID (x - 1)) = false ∨
      ∃ e, smGet (fun _ => none) s.fab.routes x = some e ∧
        (e.expiry.toNat ≤ s.life.toNat ∨ newer num e.num = true ∨ (num = e.num ∧ hops < s.fld (fFAB_ROUTE_HOPS (x - 1)))) := by
  unfold State.routeFresh
  split
  next h => simp [h]
  next e h => simp [h, BitVec.le_def, or_assoc]

section
variable {n : Nat} {ps : List Byte} {s : State}

theorem advert_ignored (h : ps.length ≠ 16 ∨ s.linkSt n ≠ 2 ∨ fld ps 0 2 = 0 ∨ 4096 < fld ps 0 2) : advert n ps s = s := by
  refine if_pos ?_
  simpa [or_assoc] using h

variable (hl : ps.length = 16) (hst : s.linkSt n = 2) (h1 : 1 ≤ fld ps 0 2) (h2 : fld ps 0 2 ≤ 4096)
include hl hst h1 h2

/-- An advertisement that is taken up. -/
theorem advert_taken : advert n ps s =
    if fld ps 0 2 = s.node then
      if fld ps 2 8 = Config.serial.toNat then s else offer 0x0B02 bSYS (fld ps 2 8 % 2 ^ 32) n (s.setB fFAB_STATUS_DUP true)
    else if 255 < fld ps 14 1 + 1 then s
    else if s.routeFresh (fld ps 0 2) (fld ps 14 1 + 1) (BitVec.ofNat 32 (fld ps 10 4)) then
      sendAll false n (advPacket s (fld ps 0 2) (fld ps 2 8) (BitVec.ofNat 32 (fld ps 10 4)).toNat (fld ps 14 1 + 1) (fld ps 15 1))
        (learnRoute (fld ps 0 2) n (fld ps 14 1 + 1) (BitVec.ofNat 32 (fld ps 10 4)) s)
    else s := by
  have hno : ¬ (ps.length ≠ 16 || s.linkSt n ≠ 2 || fld ps 0 2 = 0 || 4096 < fld ps 0 2) = true := by
    simp [hl, hst, h2]
    omega
  exact if_neg hno

/-- One of the own address from another part. -/
theorem advert_duplicate (hx : fld ps 0 2 = s.node) (hserial : fld ps 2 8 ≠ Config.serial.toNat) : let t := advert n ps s
    t.flag fFAB_STATUS_DUP = true ∧ OnlyRegs [rFAB_STATUS] s t ∧ t.fab = s.fab ∧ Logged s t [(0x0B02, bSYS, fld ps 2 8 % 2 ^ 32, n)] := by
  intro t
  have ht : t = offer 0x0B02 bSYS (fld ps 2 8 % 2 ^ 32) n (s.setB fFAB_STATUS_DUP true) := by
    rw [show t = _ from advert_taken hl hst h1 h2, if_pos hx, if_neg hserial]
  rw [ht]
  refine ⟨?_, ((OnlyRegs.refl [rFAB_STATUS] s).setB _ (List.mem_singleton.2 rfl)).offer _ _ _ _, by rw [offer_fab]; rfl, (logged_one _ _ _ _ _).start rfl⟩
  rw [State.flag, fld_offer _ _ _ _ _ _ (by decide), State.fld_setB_same _ _ _ (by decide) (by decide)]
  rfl

end

/-- An advertisement by what it says of its node. -/
theorem advert_cases (n : Ch) (ps : List Byte) (s : State) : let x := fld ps 0 2
    let serial := fld ps 2 8
    let num := BitVec.ofNat 32 (fld ps 10 4)
    let hops := fld ps 14 1 + 1
    let old := smGet (fun _ => none) s.fab.routes x
    let fresh := old = none ∨ s.flag (fFAB_ROUTE_VALID (x - 1)) = false ∨
      ∃ e, old = some e ∧ (e.expiry.toNat ≤ s.life.toNat ∨ newer num e.num = true ∨ (num = e.num ∧ hops < s.fld (fFAB_ROUTE_HOPS (x - 1))))
    (ps.length = 16 → s.linkSt n = 2 → 1 ≤ x → x ≤ 4096 →
      (x = s.node → serial ≠ Config.serial.toNat → let t := advert n ps s
        t.flag fFAB_STATUS_DUP = true ∧ OnlyRegs [rFAB_STATUS] s t ∧ t.fab = s.fab ∧ Logged s t [(0x0B02, bSYS, serial % 2 ^ 32, n)]) ∧
      (x ≠ s.node → hops ≤ 255 → fresh → advert n ps s =
        sendAll false n (advPacket s x serial num.toNat hops (fld ps 15 1)) (learnRoute x n hops num s)) ∧
      ((x = s.node ∧ serial = Config.serial.toNat) ∨ (x ≠ s.node ∧ (255 < hops ∨ ¬ fresh)) →
        advert n ps s = s)) ∧
    (ps.length ≠ 16 ∨ s.linkSt n ≠ 2 ∨ x = 0 ∨ 4096 < x → advert n ps s = s) := by
  intro x serial num hops old fresh
  refine ⟨fun hl hst h1 h2 => ⟨advert_duplicate hl hst h1 h2, fun hx hh hf => ?_, fun h => ?_⟩, advert_ignored⟩
  · rw [advert_taken hl hst h1 h2, if_neg hx, if_neg (Nat.not_lt.2 hh), if_pos ((routeFresh_iff _ _ _ _).2 hf)]
  · rw [advert_taken hl hst h1 h2]
    rcases h with ⟨hx, hserial⟩ | ⟨hx, hh | hf⟩
    · rw [if_pos hx, if_pos hserial]
    · rw [if_neg hx, if_pos hh]
    · rw [if_neg hx, if_neg fun hb => hf ((routeFresh_iff _ _ _ _).1 hb), ite_self]

theorem exec_advertisementPeriod (s : State) : exec .advertisementPeriod s = .next (settle (if s.node = 0 ∨ s.ready = false then s else
    sendAll false 99 (advPacket s s.node Config.serial.toNat s.fab.advNum.toNat 0 (s.fld fFAB_CTRL_DOMAIN))
      { s with fab := { s.fab with advNum := s.fab.advNum + 1#32 } })) := by
  change execAdvertisementPeriod s = _
  unfold execAdvertisementPeriod
  by_cases h : s.node = 0 ∨ s.ready = false
  · rw [if_pos h, if_pos (by simpa using h)]
    rfl
  · rw [if_neg h, if_neg (by simpa using h)]
    rfl

theorem advertisementPeriod_sends {s : State} (hnode : s.node ≠ 0) (hr : s.ready = true) :
    let p := advPacket s s.node Config.serial.toNat s.fab.advNum.toNat 0 (s.fld fFAB_CTRL_DOMAIN)
    Completes .advertisementPeriod s fun t => t.fab.advNum = s.fab.advNum + 1#32 ∧ t.regs = s.regs ∧
      ∀ n : Ch, s.linkSt n = 2 → (s.link n).waiting + p.length ≤ 32768 → (t.link n).txq = (s.link n).txq ++ [(s.leafFor n p, p)] := by
  intro p
  refine ⟨_, exec_advertisementPeriod s, ?_⟩
  rw [if_neg (by simp [hnode, hr])]
  simp only [settle_fab, settle_regs, link_congr (settle_fab _)]
  refine ⟨by rw [sendAll_other], (sendAll_link false 99 p 0 _).1, fun n hst hroom => ?_⟩
  obtain ⟨-, hsent, -⟩ := sendAll_link false 99 p n { s with fab := { s.fab with advNum := s.fab.advNum + 1#32 } }
  exact hsent ⟨by omega, .inl hst⟩ hroom

/-! ### Address offers (R388) -/

theorem exec_addressOfferSent (n : Ch) (leaf : Fin 1024) (s : State) : let a := s.fld (fFAB_LEAF_BASE_BASE n) + leaf
    exec (.addressOfferSent n leaf) s = .next (settle
      (if s.flag (fFAB_LEAF_BASE_OFFER n) = true ∧ s.fld (fHUB_CTRL_ROLE n) = 1 ∧ s.fld (fLEAF_W0_STATE n leaf) = 2 ∧ a ≤ 4096 then
        linkSendTo n leaf (packet kUnsolicited 32 0xFFFF s.node 0 0x0811 0 0 (le 2 a ++ le 1 (s.fld fFAB_CTRL_DOMAIN) ++ [0#8] ++ le 2 s.node)) s
      else s)) := by
  intro a
  change execAddressOfferSent n leaf s = _
  unfold execAddressOfferSent
  by_cases h : s.flag (fFAB_LEAF_BASE_OFFER n) = true ∧ s.fld (fHUB_CTRL_ROLE n) = 1 ∧ s.fld (fLEAF_W0_STATE n leaf) = 2 ∧ a ≤ 4096
  · rw [if_pos h, if_neg (by simpa [a, and_assoc] using h)]
    rfl
  · rw [if_neg h, if_pos (by rw [not_and_or, not_and_or, not_and_or] at h; simpa [a, or_assoc] using h)]
    rfl

/-- An offer that a leaf adopts, before its links follow a change of domain. -/
def offerTaken (ps : List Byte) (s : State) : State :=
  offer 0x0B03 bSYS (fld ps 0 2) 0
    (((s.setF fFAB_CTRL_ADDR (fld ps 0 2)).setF fFAB_CTRL_DOMAIN (fld ps 2 1)).setB fFAB_STATUS_OFFERED true)

theorem takeOffer_eq (n : Nat) (ps : List Byte) (s : State) : takeOffer n ps s =
    if ps.length = 6 ∧ s.fld (fHUB_CTRL_ROLE n) = 2 ∧ s.flag fFAB_CTRL_AUTO_ADDR = true ∧ s.node = 0 ∧ 1 ≤ fld ps 0 2 ∧ fld ps 0 2 ≤ 4096 then
      domainChanged (s.fld fFAB_CTRL_DOMAIN) (offerTaken ps s)
    else s := by
  unfold takeOffer
  by_cases h : ps.length = 6 ∧ s.fld (fHUB_CTRL_ROLE n) = 2 ∧ s.flag fFAB_CTRL_AUTO_ADDR = true ∧ s.node = 0 ∧ 1 ≤ fld ps 0 2 ∧ fld ps 0 2 ≤ 4096
  · rw [if_pos h, if_neg (by simpa [and_assoc, Nat.pos_iff_ne_zero, Nat.one_le_iff_ne_zero] using h)]
    rfl
  · rw [if_neg h, if_pos ?_]
    simp only [not_and_or] at h
    simpa [or_assoc, Nat.one_le_iff_ne_zero] using h

/-- `FAB_CTRL` is none of the registers that follow links. -/
theorem fabCtrl_apart : isRouteReg rFAB_CTRL = false ∧ rFAB_CTRL ≠ rCB_STATUS ∧ rFAB_CTRL ≠ rFAB_STATUS ∧ (∀ n, n < 4 → rFAB_CTRL ≠ rFAB_LINK_STATUS n) ∧
    rFAB_CTRL ∉ answerRegs := by decide

theorem LinkWork.fabCtrl {s t : State} (h : LinkWork s t) : t.rd rFAB_CTRL = s.rd rFAB_CTRL :=
  h.rd _ fabCtrl_apart.1 fabCtrl_apart.2.1 fabCtrl_apart.2.2.1 fabCtrl_apart.2.2.2.1

section
variable (ps : List Byte) (s : State)

theorem offerTaken_node (h : fld ps 0 2 ≤ 4096) : (offerTaken ps s).node = fld ps 0 2 := by
  rw [State.node, offerTaken, fld_offer _ _ _ _ _ _ (by decide), State.fld_setB_reg _ _ _ _ (by decide), State.fld_setF_apart _ _ _ _ (by decide) (by decide),
    State.fld_setF_same _ _ _ (by decide)]
  exact Nat.mod_eq_of_lt (Nat.lt_of_le_of_lt h (by decide))

theorem offerTaken_domain : (offerTaken ps s).fld fFAB_CTRL_DOMAIN = fld ps 2 1 := by
  rw [offerTaken, fld_offer _ _ _ _ _ _ (by decide), State.fld_setB_reg _ _ _ _ (by decide), State.fld_setF_same _ _ _ (by decide)]
  exact Nat.mod_eq_of_lt (fld_bytes_lt ps 2 1)

theorem offerTaken_offered : (offerTaken ps s).fld fFAB_STATUS_OFFERED = 1 := by
  rw [offerTaken, fld_offer _ _ _ _ _ _ (by decide), State.fld_setB_same _ _ _ (by decide) (by decide)]
  rfl

theorem onlyRegs_offerTaken : OnlyRegs [rFAB_CTRL, rFAB_STATUS] s (offerTaken ps s) :=
  ((((OnlyRegs.refl [rFAB_CTRL, rFAB_STATUS] s).setF _ List.mem_cons_self).setF _ List.mem_cons_self).setB _ (List.mem_cons_of_mem _ List.mem_cons_self)).offer _ _ _ _

theorem linkSt_offerTaken {m : Nat} (hm : m < 4) : (offerTaken ps s).linkSt m = s.linkSt m := by
  obtain ⟨-, hcb, hst, -⟩ := linkStatus_apart hm
  refine linkSt_congr (onlyRegs_offerTaken ps s _ hcb ?_)
  simp only [List.mem_cons, List.not_mem_nil, or_false, not_or]
  exact ⟨(fabCtrl_apart.2.2.2.1 m hm).symm, hst⟩

end

theorem takeOffer_adopts {n : Nat} {ps : List Byte} {s : State} (h : ps.length = 6 ∧ s.fld (fHUB_CTRL_ROLE n) = 2 ∧
    s.flag fFAB_CTRL_AUTO_ADDR = true ∧ s.node = 0 ∧ 1 ≤ fld ps 0 2 ∧ fld ps 0 2 ≤ 4096) : let t := takeOffer n ps s
    t.node = fld ps 0 2 ∧ t.fld fFAB_CTRL_DOMAIN = fld ps 2 1 ∧ t.flag fFAB_STATUS_OFFERED = true ∧
      (fld ps 2 1 = s.fld fFAB_CTRL_DOMAIN → OnlyRegs [rFAB_CTRL, rFAB_STATUS] s t ∧ Logged s t [(0x0B03, bSYS, fld ps 0 2, 0)]) ∧
      (fld ps 2 1 ≠ s.fld fFAB_CTRL_DOMAIN → ∀ m : Ch, t.linkSt m = if s.linkSt m = 2 ∨ s.linkSt m = 3 then 1 else s.linkSt m) := by
  intro t
  have ht : t = domainChanged (s.fld fFAB_CTRL_DOMAIN) (offerTaken ps s) := (takeOffer_eq n ps s).trans (if_pos h)
  have hw : LinkWork (offerTaken ps s) t := ht ▸ linkWork_domainChanged _ _
  have hdom := offerTaken_domain ps s
  refine ⟨?_, ?_, ?_, fun hd => ?_, fun hd m => ?_⟩
  · exact (congrArg fFAB_CTRL_ADDR.of hw.fabCtrl).trans (offerTaken_node ps s h.2.2.2.2.2)
  · exact (congrArg fFAB_CTRL_DOMAIN.of hw.fabCtrl).trans hdom
  · rw [State.flag, hw.offered, offerTaken_offered]
    rfl
  · have hsame : t = offerTaken ps s := ht.trans (if_pos (hdom.trans hd))
    rw [hsame]
    exact ⟨onlyRegs_offerTaken ps s, (logged_one _ _ _ _ _).start rfl⟩
  · rw [ht, linkSt_domainChanged m.isLt (by rwa [hdom]), linkSt_offerTaken ps s m.isLt]

end Sys2Proof.Machine
end

/-! # Forwarded requests and what the fabric engine takes up (R393, R395) -/
section
namespace Sys2Proof.Machine

open Sys2Proof

/-! ### Replies to forwarded requests -/

theorem mem_replaceFirst_self {α : Type} [DecidableEq α] (x : α) (f : α → α) (l : List α) (h : x ∈ l) :
    f x ∈ replaceFirst (fun y => decide (y = x)) f l := by
  induction l with
  | nil => cases h
  | cons y l ih =>
    rw [replaceFirst]
    split
    next hy =>
      rw [of_decide_eq_true hy]
      exact List.mem_cons_self
    next hy =>
      rcases List.mem_cons.1 h with rfl | h
      · exact absurd (decide_eq_true rfl) hy
      · exact List.mem_cons_of_mem _ (ih h)

theorem replaceFirst_id {α : Type} (p : α → Bool) (l : List α) : replaceFirst p (fun x => x) l = l := by
  induction l with
  | nil => rfl
  | cons y l ih => rw [replaceFirst, ih, ite_self]

/-- The forwarded requests after a reply or notice to one of them. -/
def fwdAfter (bs : List Byte) (f : Fwd) (s : State) : List Fwd :=
  let acc := pktKind bs = 2 && pktStatus bs = stACCEPTED
  if acc || pktKind bs = 10 || pktKind bs = 14 then
    replaceFirst (fun x => decide (x = f)) (fun x => if acc then { x with accepted := true, time := s.life } else x) s.fab.fwd
  else s.fab.fwd.filter fun x => !decide (x = f)

section
variable {n : Nat} {bs : List Byte} {s : State}

theorem fwdReply_late (h : (s.fab.fwd.find? fun f => f.tag == pktTag bs && f.opcode == pktOpcode bs) = none) :
    fwdReply n bs s = count (cCH n 47) s := by
  rw [fwdReply, h]

theorem fwdReply_hit {f : Fwd} (h : (s.fab.fwd.find? fun f => f.tag == pktTag bs && f.opcode == pktOpcode bs) = some f) :
    fwdReply n bs s = placeLocal f.org.who (resealed bs (pktHop bs) (pktSrc bs) f.org.tag f.org.who.master)
      { s with fab := { s.fab with fwd := fwdAfter bs f s } } := by
  rw [fwdReply, h]
  rfl

variable (f : Fwd)

theorem fwdAfter_ends (h : pktKind bs = 6 ∨ (pktKind bs = 2 ∧ pktStatus bs ≠ stACCEPTED)) : f ∉ fwdAfter bs f s := by
  have hno : ¬ ((pktKind bs = 2 && pktStatus bs = stACCEPTED) || pktKind bs = 10 || pktKind bs = 14) = true := by
    rcases h with h | ⟨h, hs⟩
    · simp [h]
    · simp [h, hs]
  rw [fwdAfter, if_neg hno]
  intro hm
  simpa using (List.mem_filter.1 hm).2

theorem fwdAfter_accepted (hf : f ∈ s.fab.fwd) (h : pktKind bs = 2) (hs : pktStatus bs = stACCEPTED) :
    { f with accepted := true, time := s.life } ∈ fwdAfter bs f s := by
  have hmem := mem_replaceFirst_self f (fun x => { x with accepted := true, time := s.life }) s.fab.fwd hf
  simpa [fwdAfter, h, hs] using hmem

theorem fwdAfter_same (h : pktKind bs = 10 ∨ pktKind bs = 14) : fwdAfter bs f s = s.fab.fwd := by
  have hk : ¬ pktKind bs = 2 := by omega
  have hid := replaceFirst_id (fun x => decide (x = f)) s.fab.fwd
  simpa [fwdAfter, hk, h] using hid

end

theorem fwdReply_cases (n : Ch) (bs : List Byte) (s : State) :
    let hit := s.fab.fwd.find? fun f => f.tag == pktTag bs && f.opcode == pktOpcode bs
    (hit = none → let t := fwdReply n bs s
      Counted (cCH n 47) 1 s t ∧ t.fab = s.fab ∧ t.regs = s.regs) ∧
    (∀ f, hit = some f → ∃ u, fwdReply n bs s = placeLocal f.org.who (resealed bs (pktHop bs) (pktSrc bs) f.org.tag f.org.who.master) u ∧
      u.regs = s.regs ∧ u.cb = s.cb ∧
      (pktKind bs = 6 ∨ (pktKind bs = 2 ∧ pktStatus bs ≠ stACCEPTED) → f ∉ u.fab.fwd) ∧
      (pktKind bs = 2 ∧ pktStatus bs = stACCEPTED → { f with accepted := true, time := s.life } ∈ u.fab.fwd) ∧
      (pktKind bs = 10 ∨ pktKind bs = 14 → u.fab.fwd = s.fab.fwd)) := by
  refine ⟨fun h => ?_, fun f h => ⟨{ s with fab := { s.fab with fwd := fwdAfter bs f s } }, fwdReply_hit h, rfl, rfl, fwdAfter_ends f,
    fun hk => fwdAfter_accepted f (List.mem_of_find?_eq_some h) hk.1 hk.2, fwdAfter_same f⟩⟩
  rw [fwdReply_late h]
  exact ⟨counter_countN _ _ _, rfl, rfl⟩

/-! ### The packet that heads the engine's queue -/

section
variable {n l : Nat} {at0 : BitVec 64} {bs : List Byte} {rest : List (BitVec 64 × Nat × List Byte)} {p : List Byte → Bool} {s : State}

theorem inboxTake_taken (hi : s.fab.inbox = (at0, l, bs) :: rest) (hl : l = n) (hp : p bs = true) :
    inboxTake n p s = (some bs, linkRelease n bs.length { s with fab := { s.fab with inbox := rest } }) := by
  rw [inboxTake, hi]
  exact if_pos (by simp [hl, hp])

theorem inboxTake_other (hi : s.fab.inbox = (at0, l, bs) :: rest) (h : ¬ (l = n ∧ p bs = true)) : inboxTake n p s = (none, s) := by
  rw [inboxTake, hi]
  exact if_neg (by simpa using h)

theorem inboxTake_empty (hi : s.fab.inbox = []) : inboxTake n p s = (none, s) := by rw [inboxTake, hi]

end

/-- What the engine makes of what it takes up. -/
def engineTook (f : List Byte → State → State) : Option (List Byte) × State → State
  | (some bs, u) => f bs u
  | (none, u) => u

theorem exec_forwardedReplyReceived (n : Ch) (s : State) : exec (.forwardedReplyReceived n) s =
    .next (settle (engineTook (fwdReply n) (inboxTake n (fun bs => [2, 10, 6, 14].contains (pktKind bs)) s))) := by
  change execForwardedReplyReceived n s = _
  unfold execForwardedReplyReceived
  generalize inboxTake n (fun bs => [2, 10, 6, 14].contains (pktKind bs)) s = x
  obtain ⟨_ | _, _⟩ := x <;> rfl

theorem exec_advertisementReceived (n : Ch) (s : State) : exec (.advertisementReceived n) s =
    .next (settle (engineTook (fun bs => advert n (pktParams bs)) (inboxTake n (unsolicited 0x0810) s))) := by
  change execAdvertisementReceived n s = _
  unfold execAdvertisementReceived
  generalize inboxTake n (unsolicited 0x0810) s = x
  obtain ⟨_ | _, _⟩ := x <;> rfl

theorem exec_addressOfferReceived (n : Ch) (s : State) : exec (.addressOfferReceived n) s =
    .next (settle (engineTook (fun bs => takeOffer n (pktParams bs)) (inboxTake n (unsolicited 0x0811) s))) := by
  change execAddressOfferReceived n s = _
  unfold execAddressOfferReceived
  generalize inboxTake n (unsolicited 0x0811) s = x
  obtain ⟨_ | _, _⟩ := x <;> rfl

theorem contains_replyKinds (k : Nat) : [2, 10, 6, 14].contains k = true ↔ k = 2 ∨ k = 10 ∨ k = 6 ∨ k = 14 := by
  simp

theorem unsolicited_iff (c : Nat) (bs : List Byte) : unsolicited c bs = true ↔ pktKind bs = 4 ∧ pktOpcode bs = c := by simp [unsolicited]

/-- What the engine takes up is the packet that heads its queue, by the link it came on and its kind. -/
theorem engineTakes (n : Ch) (l : Nat) (at0 : BitVec 64) (bs : List Byte) (rest : List (BitVec 64 × Nat × List Byte)) (s : State)
    (hi : s.fab.inbox = (at0, l, bs) :: rest) :
    let u := linkRelease n bs.length { s with fab := { s.fab with inbox := rest } }
    let reply := pktKind bs = 2 ∨ pktKind bs = 10 ∨ pktKind bs = 6 ∨ pktKind bs = 14
    let note := fun (c : Nat) => pktKind bs = 4 ∧ pktOpcode bs = c
    (l = n → reply → exec (.forwardedReplyReceived n) s = .next (settle (fwdReply n bs u))) ∧
    (l = n → note 0x0810 → exec (.advertisementReceived n) s = .next (settle (advert n (pktParams bs) u))) ∧
    (l = n → note 0x0811 → exec (.addressOfferReceived n) s = .next (settle (takeOffer n (pktParams bs) u))) ∧
    (¬ (l = n ∧ reply) → exec (.forwardedReplyReceived n) s = .next (settle s)) ∧
    (¬ (l = n ∧ note 0x0810) → exec (.advertisementReceived n) s = .next (settle s)) ∧
    (¬ (l = n ∧ note 0x0811) → exec (.addressOfferReceived n) s = .next (settle s)) := by
  intro u reply note
  refine ⟨fun hl h => ?_, fun hl h => ?_, fun hl h => ?_, fun h => ?_, fun h => ?_, fun h => ?_⟩
  · rw [exec_forwardedReplyReceived, inboxTake_taken hi hl ((contains_replyKinds _).2 h), engineTook]
  · rw [exec_advertisementReceived, inboxTake_taken hi hl ((unsolicited_iff _ _).2 h), engineTook]
  · rw [exec_addressOfferReceived, inboxTake_taken hi hl ((unsolicited_iff _ _).2 h), engineTook]
  · rw [exec_forwardedReplyReceived, inboxTake_other hi fun e => h ⟨e.1, (contains_replyKinds _).1 e.2⟩, engineTook]
  · rw [exec_advertisementReceived, inboxTake_other hi fun e => h ⟨e.1, (unsolicited_iff _ _).1 e.2⟩, engineTook]
  · rw [exec_addressOfferReceived, inboxTake_other hi fun e => h ⟨e.1, (unsolicited_iff _ _).1 e.2⟩, engineTook]

theorem engineIdle (n : Ch) (s : State) (hi : s.fab.inbox = []) : exec (.forwardedReplyReceived n) s = .next (settle s) ∧
    exec (.advertisementReceived n) s = .next (settle s) ∧ exec (.addressOfferReceived n) s = .next (settle s) := by
  rw [exec_forwardedReplyReceived, exec_advertisementReceived, exec_addressOfferReceived, inboxTake_empty hi, inboxTake_empty hi, inboxTake_empty hi]
  exact ⟨rfl, rfl, rfl⟩

/-! ### Forwarded requests whose limit passes -/

/-- A forwarded request that times out, up to its answer. -/
def fwdEnded (f : Fwd) (s : State) : State :=
  refuseRecord f.org f.opcode { status := stTIMEOUT }
    (offer 0x0B06 bSYS f.dest f.opcode { s with fab := { s.fab with fwd := s.fab.fwd.filter fun x => !decide (x = f) } })

theorem fwdTimeout_eq (f : Fwd) (s : State) : fwdTimeout f s =
    answer f.org (if f.accepted then kNotice else kReply) f.opcode stTIMEOUT ({ status := stTIMEOUT } : Ref).bytes (fwdEnded f s) := rfl

theorem fwdEnded_fwd (f : Fwd) (s : State) : (fwdEnded f s).fab.fwd = s.fab.fwd.filter fun x => !decide (x = f) := by
  rw [fwdEnded, refuseRecord_other, offer_fab]

theorem onlyRegs_fwdEnded (f : Fwd) (s : State) : OnlyRegs [] s (fwdEnded f s) := by
  have ho : OnlyRegs [] s (offer 0x0B06 bSYS f.dest f.opcode { s with fab := { s.fab with fwd := s.fab.fwd.filter fun x => !decide (x = f) } }) :=
    OnlyRegs.offer (.of_regs rfl) _ _ _ _
  exact ho.trans (.refuseRecord _ _ _ _)

theorem fwdEnded_logged (f : Fwd) (s : State) : Logged s (fwdEnded f s)
    [(0x0B06, bSYS, f.dest, f.opcode), (0x0121, bSYS, ({ status := stTIMEOUT } : Ref).p0 f.org.who.master, f.opcode)] :=
  have ho : Logged s (offer 0x0B06 bSYS f.dest f.opcode { s with fab := { s.fab with fwd := s.fab.fwd.filter fun x => !decide (x = f) } })
      [(0x0B06, bSYS, f.dest, f.opcode)] := (logged_one _ _ _ _ _).start rfl
  ho.trans (refuseRecord_logged _ _ _ _)

theorem exec_forwardedRequestTimeout {tag : Nat} {s : State} {f : Fwd} (h : (s.fab.fwd.find? fun f => f.tag == tag && f.due s.life) = some f) :
    exec (.forwardedRequestTimeout tag) s = .next (settle (fwdTimeout f s)) := by
  change execForwardedRequestTimeout tag s = _
  rw [execForwardedRequestTimeout, h]
  rfl

theorem exec_forwardedRequestTimeout_none {tag : Nat} {s : State} (h : (s.fab.fwd.find? fun f => f.tag == tag && f.due s.life) = none) :
    exec (.forwardedRequestTimeout tag) s = .next (settle s) := by
  change execForwardedRequestTimeout tag s = _
  rw [execForwardedRequestTimeout, h]
  rfl

theorem forwardedTimeouts (tag : Nat) (s : State) :
    (∀ f, (s.fab.fwd.find? fun f => f.tag == tag && f.due s.life) = some f → let r : Ref := { status := stTIMEOUT }
      ∃ u, exec (.forwardedRequestTimeout tag) s = .next (settle (answer f.org (if f.accepted then kNotice else kReply) f.opcode stTIMEOUT r.bytes u)) ∧
        u.fab.fwd = s.fab.fwd.filter (fun x => !decide (x = f)) ∧ OnlyRegs [] s u ∧
        Logged s u [(0x0B06, bSYS, f.dest, f.opcode), (0x0121, bSYS, r.p0 f.org.who.master, f.opcode)]) ∧
    ((s.fab.fwd.find? fun f => f.tag == tag && f.due s.life) = none → exec (.forwardedRequestTimeout tag) s = .next (settle s)) := by
  refine ⟨fun f h => ⟨fwdEnded f s, ?_, fwdEnded_fwd f s, onlyRegs_fwdEnded f s, fwdEnded_logged f s⟩, exec_forwardedRequestTimeout_none⟩
  rw [exec_forwardedRequestTimeout h, fwdTimeout_eq]

end Sys2Proof.Machine
end

/-! # Fabric requests (O51) -/
section
namespace Sys2Proof.Machine

open Sys2Proof

/-! ### `FAB_SET` (R389, R395, R398) -/

theorem onlyRegs_fwdTimeout (f : Fwd) (s : State) : OnlyRegs answerRegs s (fwdTimeout f s) :=
  ((onlyRegs_fwdEnded f s).mono nofun).trans (answered _ _ _ _ _ _).regs

theorem fwdTimeout_fwd (f : Fwd) (s : State) : (fwdTimeout f s).fab.fwd = s.fab.fwd.filter fun x => !decide (x = f) :=
  (sent_answer _ _ _ _ _ _).fwd.trans (fwdEnded_fwd f s)

theorem onlyRegs_eachTimeout (l : List Fwd) (s : State) : OnlyRegs answerRegs s (each l fwdTimeout s) :=
  each_keeps (OnlyRegs answerRegs s) l _ (fun f _ _ hu => hu.trans (onlyRegs_fwdTimeout f _)) s (.refl _ s)

/-- Forwarded requests that have timed out are forwarded no longer. -/
theorem eachTimeout_fwd (l : List Fwd) (s : State) : ∀ x ∈ (each l fwdTimeout s).fab.fwd, x ∈ s.fab.fwd ∧ x ∉ l := by
  induction l generalizing s with
  | nil => exact fun x hx => ⟨hx, nofun⟩
  | cons f l ih =>
    intro x hx
    obtain ⟨hin, hne⟩ := ih (fwdTimeout f s) x hx
    rw [fwdTimeout_fwd, List.mem_filter] at hin
    exact ⟨hin.1, List.not_mem_cons_of_ne_of_not_mem (by simpa using hin.2) hne⟩

/-- New configuration before links follow it: a new address ends the forwarded requests. -/
def addressChanged (oldAddr : Nat) (s : State) : State :=
  if s.node = oldAddr then s else offer 0x0B03 bSYS s.node oldAddr (each s.fab.fwd fwdTimeout s)

theorem fabWritten_eq (oldAddr oldDom : Nat) (s : State) :
    fabWritten oldAddr oldDom s = fabRefresh (domainChanged oldDom (addressChanged oldAddr s)) := rfl

theorem onlyRegs_addressChanged (oldAddr : Nat) (s : State) : OnlyRegs answerRegs s (addressChanged oldAddr s) :=
  .ite (.refl _ s) ((onlyRegs_eachTimeout _ _).offer _ _ _ _)

theorem addressChanged_fwd {oldAddr : Nat} {s : State} (h : s.node ≠ oldAddr) : (addressChanged oldAddr s).fab.fwd = [] := by
  rw [addressChanged, if_neg h, offer_fab]
  refine List.eq_nil_iff_forall_not_mem.2 fun x hx => ?_
  obtain ⟨hin, hne⟩ := eachTimeout_fwd _ _ x hx
  exact hne hin

theorem linkWork_follow (oldDom : Nat) (s : State) : LinkWork s (fabRefresh (domainChanged oldDom s)) :=
  (linkWork_domainChanged oldDom s).trans (linkWork_fabRefresh _)

/-- The configuration that `FAB_SET` writes follows no link and answers nothing. -/
theorem fabConfig_apart {off : Nat} (h : off = rFAB_CTRL ∨ off = rFAB_LINK_CTRL ∨ ∃ n, n < 4 ∧ off = rFAB_LEAF_BASE n) :
    isRouteReg off = false ∧ off ≠ rCB_STATUS ∧ off ≠ rFAB_STATUS ∧ (∀ n, n < 4 → off ≠ rFAB_LINK_STATUS n) ∧ off ∉ answerRegs := by
  have hans : ∀ off ∈ answerRegs, off < 0x11000 ∨ 0x12000 ≤ off := by decide
  have hoff : off = 0x11000 ∨ off = 0x11004 ∨ (0x11010 ≤ off ∧ off < 0x11020) := by
    rcases h with rfl | rfl | ⟨n, hn, rfl⟩
    · exact .inl rfl
    · exact .inr (.inl rfl)
    · simp only [rFAB_LEAF_BASE]
      omega
  refine ⟨?_, ?_, ?_, fun n hn => ?_, fun hm => ?_⟩
  · simp only [isRouteReg, Bool.and_eq_false_iff, decide_eq_false_iff_not]
    omega
  · simp only [rCB_STATUS]
    omega
  · simp only [rFAB_STATUS]
    omega
  · simp only [rFAB_LINK_STATUS]
    omega
  · have := hans _ hm
    omega

theorem rd_fabWritten (oldAddr oldDom : Nat) (s : State) {off : Nat}
    (h : off = rFAB_CTRL ∨ off = rFAB_LINK_CTRL ∨ ∃ n, n < 4 ∧ off = rFAB_LEAF_BASE n) : (fabWritten oldAddr oldDom s).rd off = s.rd off := by
  obtain ⟨hroute, hcb, hst, hlink, hans⟩ := fabConfig_apart h
  rw [fabWritten_eq, (linkWork_follow _ _).rd off hroute hcb hst hlink, onlyRegs_addressChanged _ _ off hcb hans]

theorem fabWritten_fwd {oldAddr : Nat} (oldDom : Nat) {s : State} (h : s.node ≠ oldAddr) : (fabWritten oldAddr oldDom s).fab.fwd = [] := by
  rw [fabWritten_eq, (linkWork_follow _ _).fwd, addressChanged_fwd h]

theorem linkSt_fabWritten (oldAddr : Nat) {oldDom : Nat} {s : State} (h : s.fld fFAB_CTRL_DOMAIN ≠ oldDom) (n : Ch) :
    (fabWritten oldAddr oldDom s).linkSt n ≠ 2 ∧ (fabWritten oldAddr oldDom s).linkSt n ≠ 3 := by
  have hdom : (addressChanged oldAddr s).fld fFAB_CTRL_DOMAIN = s.fld fFAB_CTRL_DOMAIN := (onlyRegs_addressChanged _ _).fld (by decide) (by decide)
  rw [fabWritten_eq]
  refine linkSt_fabRefresh n.isLt _ ?_
  rw [linkSt_domainChanged n.isLt (by rwa [hdom])]
  split
  · decide
  next hn => exact not_or.1 hn

/-- The words that `FAB_SET` writes. -/
def fabSetWords (ps : List Byte) (s : State) : State :=
  let fl := fld ps 0 1
  let t := if bit fl 0 then s.wr rFAB_CTRL (BitVec.ofNat 32 (fld ps 4 4)) else s
  let t := if bit fl 1 then t.wr rFAB_LINK_CTRL (BitVec.ofNat 32 (fld ps 8 4)) else t
  if bit fl 2 then each (span 0 4) (fun n t => t.wr (rFAB_LEAF_BASE n) (BitVec.ofNat 32 (fld ps (12 + 4 * n) 4))) t else t

theorem rd_leafBases (w : Nat → Word) (s : State) (off : Nat) : (each (span 0 4) (fun n t => t.wr (rFAB_LEAF_BASE n) (w n)) s).rd off =
    if off = rFAB_LEAF_BASE 3 then w 3 else if off = rFAB_LEAF_BASE 2 then w 2 else if off = rFAB_LEAF_BASE 1 then w 1
      else if off = rFAB_LEAF_BASE 0 then w 0 else s.rd off := by
  change ((((s.wr (rFAB_LEAF_BASE 0) (w 0)).wr (rFAB_LEAF_BASE 1) (w 1)).wr (rFAB_LEAF_BASE 2) (w 2)).wr (rFAB_LEAF_BASE 3) (w 3)).rd off = _
  simp only [State.rd_wr]

theorem rd_iteLeafBases (c : Bool) (w : Nat → Word) (s : State) {off : Nat} (h : ∀ n, n < 4 → off ≠ rFAB_LEAF_BASE n) :
    (if c then each (span 0 4) (fun n t => t.wr (rFAB_LEAF_BASE n) (w n)) s else s).rd off = s.rd off := by
  cases c
  · rfl
  · rw [if_pos rfl, rd_leafBases, if_neg (h 3 (by decide)), if_neg (h 2 (by decide)), if_neg (h 1 (by decide)), if_neg (h 0 (by decide))]

theorem rd_iteWr (c : Bool) (off : Nat) (w : Word) (s : State) (x : Nat) :
    (if c then s.wr off w else s).rd x = if c = true ∧ x = off then w else s.rd x := by
  cases c
  · simp
  · simp [State.rd_wr]

theorem rd_fabSetWords_ctrl (ps : List Byte) (s : State) :
    (fabSetWords ps s).rd rFAB_CTRL = if bit (fld ps 0 1) 0 then BitVec.ofNat 32 (fld ps 4 4) else s.rd rFAB_CTRL := by
  rw [fabSetWords, rd_iteLeafBases _ (fun n => BitVec.ofNat 32 (fld ps (12 + 4 * n) 4)) _ (by decide), rd_iteWr, rd_iteWr]
  simp

theorem rd_fabSetWords_link (ps : List Byte) (s : State) :
    (fabSetWords ps s).rd rFAB_LINK_CTRL = if bit (fld ps 0 1) 1 then BitVec.ofNat 32 (fld ps 8 4) else s.rd rFAB_LINK_CTRL := by
  rw [fabSetWords, rd_iteLeafBases _ (fun n => BitVec.ofNat 32 (fld ps (12 + 4 * n) 4)) _ (by decide), rd_iteWr, rd_iteWr]
  simp

theorem rd_fabSetWords_base (ps : List Byte) (s : State) {n : Nat} (hn : n < 4) : (fabSetWords ps s).rd (rFAB_LEAF_BASE n) =
    if bit (fld ps 0 1) 2 then BitVec.ofNat 32 (fld ps (12 + 4 * n) 4) else s.rd (rFAB_LEAF_BASE n) := by
  have hctrl : rFAB_LEAF_BASE n ≠ rFAB_CTRL := by simp only [rFAB_LEAF_BASE, rFAB_CTRL]; omega
  have hlink : rFAB_LEAF_BASE n ≠ rFAB_LINK_CTRL := by simp only [rFAB_LEAF_BASE, rFAB_LINK_CTRL]; omega
  rw [fabSetWords]
  split
  · rw [rd_leafBases]
    match n, hn with
    | 0, _ => rfl
    | 1, _ => rfl
    | 2, _ => rfl
    | 3, _ => rfl
  · rw [rd_iteWr, rd_iteWr]
    simp [hctrl, hlink]

theorem fabSet_writes : Does cmdFabSet .fabSet (fun _ _ => True) fun q t ans u => let ps := q.params
    ans = .done [] ∧ u.rd rFAB_CTRL = (if bit (fld ps 0 1) 0 then BitVec.ofNat 32 (fld ps 4 4) else t.rd rFAB_CTRL) ∧
      u.rd rFAB_LINK_CTRL = (if bit (fld ps 0 1) 1 then BitVec.ofNat 32 (fld ps 8 4) else t.rd rFAB_LINK_CTRL) ∧
      (∀ n, n < 4 → u.rd (rFAB_LEAF_BASE n) = if bit (fld ps 0 1) 2 then BitVec.ofNat 32 (fld ps (12 + 4 * n) 4) else t.rd (rFAB_LEAF_BASE n)) ∧
      (u.node ≠ t.node → u.fab.fwd = []) ∧ (u.fld fFAB_CTRL_DOMAIN ≠ t.fld fFAB_CTRL_DOMAIN → ∀ n : Ch, u.linkSt n ≠ 2 ∧ u.linkSt n ≠ 3) := by
  refine does_of (fun _ _ => rfl) fun q t _ _ => ⟨_, fabWritten t.node (t.fld fFAB_CTRL_DOMAIN) (fabSetWords q.params t), rfl, rfl, ?_, ?_, fun n hn => ?_, ?_⟩
  · rw [rd_fabWritten _ _ _ (.inl rfl), rd_fabSetWords_ctrl]
  · rw [rd_fabWritten _ _ _ (.inr (.inl rfl)), rd_fabSetWords_link]
  · rw [rd_fabWritten _ _ _ (.inr (.inr ⟨n, hn, rfl⟩)), rd_fabSetWords_base _ _ hn]
  · have hctrl := rd_fabWritten t.node (t.fld fFAB_CTRL_DOMAIN) (fabSetWords q.params t) (.inl rfl)
    refine ⟨fun h => fabWritten_fwd _ ?_, fun h n => linkSt_fabWritten _ ?_ n⟩
    · rwa [State.node, State.fld, hctrl] at h
    · rwa [State.fld, hctrl] at h

/-! ### `FAB_ACL_SET`, `FAB_ROUTE_READ` and `FAB_REPORT` (R394, R397, R398) -/

/-- One entry of the access list. -/
def aclStep (ps : List Byte) (j : Nat) (s : State) : State :=
  (s.wr (rFAB_ACL_A (fld ps 0 1 + j)) (BitVec.ofNat 32 (fld ps (4 + 8 * j) 4))).wr (rFAB_ACL_B (fld ps 0 1 + j)) (BitVec.ofNat 32 (fld ps (8 + 8 * j) 4))

theorem aclStep_writes (ps : List Byte) (j : Nat) (s : State) :
    (aclStep ps j s).rd (rFAB_ACL_A (fld ps 0 1 + j)) = BitVec.ofNat 32 (fld ps (4 + 8 * j) 4) ∧
      (aclStep ps j s).rd (rFAB_ACL_B (fld ps 0 1 + j)) = BitVec.ofNat 32 (fld ps (8 + 8 * j) 4) := by
  refine ⟨?_, State.rd_wr_same _ _ _⟩
  rw [aclStep, State.rd_wr_other _ _ _ _ (by simp only [rFAB_ACL_A, rFAB_ACL_B]; omega), State.rd_wr_same]

theorem aclStep_other (ps : List Byte) {i j : Nat} (h : i ≠ j) (s : State) :
    (aclStep ps j s).rd (rFAB_ACL_A (fld ps 0 1 + i)) = s.rd (rFAB_ACL_A (fld ps 0 1 + i)) ∧
      (aclStep ps j s).rd (rFAB_ACL_B (fld ps 0 1 + i)) = s.rd (rFAB_ACL_B (fld ps 0 1 + i)) := by
  refine ⟨?_, ?_⟩
  · rw [aclStep, State.rd_wr_other _ _ _ _ (by simp only [rFAB_ACL_A, rFAB_ACL_B]; omega),
      State.rd_wr_other _ _ _ _ (by simp only [rFAB_ACL_A]; omega)]
  · rw [aclStep, State.rd_wr_other _ _ _ _ (by simp only [rFAB_ACL_B]; omega),
      State.rd_wr_other _ _ _ _ (by simp only [rFAB_ACL_A, rFAB_ACL_B]; omega)]

theorem aclSteps_write (ps : List Byte) {j k : Nat} (h : j < k) (s : State) :
    (each (span 0 k) (aclStep ps) s).rd (rFAB_ACL_A (fld ps 0 1 + j)) = BitVec.ofNat 32 (fld ps (4 + 8 * j) 4) ∧
      (each (span 0 k) (aclStep ps) s).rd (rFAB_ACL_B (fld ps 0 1 + j)) = BitVec.ofNat 32 (fld ps (8 + 8 * j) 4) := by
  rw [each_span_about h]
  refine each_keeps (fun u : State => u.rd (rFAB_ACL_A (fld ps 0 1 + j)) = _ ∧ u.rd (rFAB_ACL_B (fld ps 0 1 + j)) = _) _ _ (fun i hi u hu => ?_) _
    (aclStep_writes ps j _)
  have hij : j ≠ i := by
    have := (mem_span _ _ _).1 hi
    omega
  obtain ⟨ha, hb⟩ := aclStep_other ps hij u
  rwa [ha, hb]

theorem onlyRegs_aclSteps (ps : List Byte) (k : Nat) (s : State) :
    OnlyRegs ((span (fld ps 0 1) k).map rFAB_ACL_A ++ (span (fld ps 0 1) k).map rFAB_ACL_B) s (each (span 0 k) (aclStep ps) s) := by
  refine each_keeps (OnlyRegs _ s) _ _ (fun j hj u hu => ?_) s (.refl _ s)
  have hmem : fld ps 0 1 + j ∈ span (fld ps 0 1) k := by
    have := (mem_span _ _ _).1 hj
    exact (mem_span _ _ _).2 (by omega)
  exact (hu.wr _ (List.mem_append_left _ (List.mem_map_of_mem hmem))).wr _ (List.mem_append_right _ (List.mem_map_of_mem hmem))

theorem fabAclSet_writes : Does cmdFabAclSet .fabAclSet (fun _ _ => True) fun q t ans u => let a := fld q.params 0 1
    let k := fld q.params 1 1
    ans = .done [] ∧ (∀ j, j < k → u.rd (rFAB_ACL_A (a + j)) = BitVec.ofNat 32 (fld q.params (4 + 8 * j) 4) ∧
      u.rd (rFAB_ACL_B (a + j)) = BitVec.ofNat 32 (fld q.params (8 + 8 * j) 4)) ∧
      OnlyRegs ((span a k).map rFAB_ACL_A ++ (span a k).map rFAB_ACL_B) t u :=
  does_of (fun _ _ => rfl) fun q t _ _ => ⟨_, each (span 0 (fld q.params 1 1)) (aclStep q.params) t, rfl, rfl,
    fun _ hj => aclSteps_write q.params hj t, onlyRegs_aclSteps q.params _ t⟩

theorem fabRouteRead_answers : Does cmdFabRouteRead .fabRouteRead (fun _ _ => True) fun q t ans u => u = t ∧ ∃ b, ans = .done b ∧
    b.length = 4 * fld q.params 2 2 ∧ ∀ j, j < fld q.params 2 2 → fld b (4 * j) 4 =
      (if t.node = fld q.params 0 2 + j then 7 else (t.rd (rFAB_ROUTE (fld q.params 0 2 - 1 + j))).toNat) := by
  refine does_of (fun _ _ => rfl) fun q t hq _ => ⟨_, t, rfl, rfl, _, rfl, ?_, fun j hj => ?_⟩
  · rw [words_length, span_length]
  · have ha : 1 ≤ fld q.params 0 2 := by
      have h := (firstBad_none _).1 hq
      simp only [List.forall_mem_cons, Bool.or_eq_false_iff, beq_eq_false_iff_ne] at h
      exact Nat.one_le_iff_ne_zero.2 h.1.1.2
    have hk : j < (span (fld q.params 0 2 - 1) (fld q.params 2 2)).length := by rwa [span_length]
    have hnode : fld q.params 0 2 - 1 + j + 1 = fld q.params 0 2 + j := by omega
    rw [fld_words _ (fun i => t.routeWord (i + 1)) j hk, getElem_span, State.routeWord, hnode, show fld q.params 0 2 + j - 1 = fld q.params 0 2 - 1 + j by omega]
    split <;> rfl

/-- The registers that `FAB_REPORT` answers. -/
theorem fabReport_body (q : Request) (t : State) : cmdFabReport.body q t = .ok (t, .done
    ((rFAB_CTRL :: rFAB_LINK_CTRL :: rFAB_STATUS :: (span 0 4).map rFAB_LINK_STATUS).flatMap fun r => le 4 (t.rd r).toNat)) := by
  simp only [cmdFabReport, List.flatMap_cons, List.flatMap_map, List.append_assoc]

theorem fabReport_answers : Does cmdFabReport .fabReport (fun _ _ => True) fun _ t ans u => u = t ∧ ∃ b, ans = .done b ∧ b.length = 28 ∧
    fld b 0 4 = (t.rd rFAB_CTRL).toNat ∧ fld b 4 4 = (t.rd rFAB_LINK_CTRL).toNat ∧ fld b 8 4 = (t.rd rFAB_STATUS).toNat ∧
      ∀ n, n < 4 → fld b (12 + 4 * n) 4 = (t.rd (rFAB_LINK_STATUS n)).toNat := by
  refine does_of (fun _ _ => rfl) fun q t _ _ => ⟨_, t, fabReport_body q t, rfl, _, rfl, words_length _ _, fld_words _ t.rd 0 (by decide),
    fld_words _ t.rd 1 (by decide), fld_words _ t.rd 2 (by decide), fun n hn => ?_⟩
  have hlen : n < (span 0 4).length := by rwa [span_length]
  have hk : n + 3 < (rFAB_CTRL :: rFAB_LINK_CTRL :: rFAB_STATUS :: (span 0 4).map rFAB_LINK_STATUS).length := by
    simp only [List.length_cons, List.length_map]
    omega
  rw [show 12 + 4 * n = 4 * (n + 3) by omega, fld_words _ t.rd (n + 3) hk]
  simp only [List.getElem_cons_succ, List.getElem_map, getElem_span, Nat.zero_add]

/-! ### The statement -/

/-- Settles O51: packets for links by `sendAll_link`, routes by `learnRoute_learns` and `dropRoute_gone`, links that follow by `LinkWork`. -/
theorem fabricRoutesAndRequests : Obligations.FabricRoutesAndRequests := by
  unfold Obligations.FabricRoutesAndRequests
  refine ⟨sendAll_link, fun s => ⟨advertisementPeriod_sends, fun h => ?idle⟩, fun x hops n num s h1 h2 hh => learnRoute_learns n num s h1 h2 hh, advert_cases,
    fun x s h1 h2 => ⟨fun e he hdue => ?expired, fun h => ?known⟩, fun n leaf s => ?offered, fun n ps s => ⟨takeOffer_adopts, fun h => ?refused⟩,
    fun n bs s _ => fwdReply_cases n bs s, engineTakes, engineIdle, forwardedTimeouts, fabSet_writes, fabAclSet_writes, fabRouteRead_answers,
    fabReport_answers⟩
  case idle => rw [exec_advertisementPeriod, if_pos h]
  case expired =>
    refine ⟨_, (exec_routeExpiry he).trans (by rw [if_pos hdue]), ?_⟩
    obtain ⟨hvalid, hroutes, hregs⟩ := dropRoute_gone h1 h2 s
    simp only [flag_settle, settle_fab]
    exact ⟨hvalid, hroutes, hregs.settle⟩
  case known =>
    rcases h with h | ⟨e, he, hlive⟩
    · exact exec_routeExpiry_unknown h
    · rw [exec_routeExpiry he, if_neg (Nat.not_le.2 hlive)]
  case offered =>
    have hexec := exec_addressOfferSent n leaf s
    refine ⟨fun hmay hst hroom => ⟨_, hexec.trans (by rw [if_pos hmay]), ?_⟩, fun hmay hst hroom => ⟨_, hexec.trans (by rw [if_pos hmay]), ?_⟩,
      fun hmay => hexec.trans (by rw [if_neg hmay])⟩
    · rw [linkSendTo_room (.inr (.inr hst)) hroom]
      simp only [settle_regs, link_congr (settle_fab _), link_setLink]
      exact ⟨trivial, rfl⟩
    · rw [linkSendTo_full hroom]
      simp only [link_congr (settle_fab _), Counted, counter_congr (settle_cnt _)]
      exact ⟨rfl, counter_countN _ _ _⟩
  case refused => rw [takeOffer_eq, if_neg h]

end Sys2Proof.Machine
end
